-- ==== Sys2Proof/Word.lean ====
section
/-!
DEFINITION. The word types of the model and sparse tables keyed by numbers.
-/

namespace Sys2Proof

/-- A byte (R5: every layout is little-endian). -/
abbrev Byte := BitVec 8
/-- A 32-bit dword (R13). -/
abbrev Dword := BitVec 32
/-- A 64-bit register word (R13). -/
abbrev Word := BitVec 64
/-- A 128-bit vector register, queue payload or exact-sum word (R73, R104, R165). -/
abbrev Quad := BitVec 128

/-- A sparse table: keys strictly rising, no entry equal to the table's default. -/
abbrev Tab (α : Type) := List (Nat × α)

/-- The entry of key `k`, or the default `d`. -/
def Tab.get {α : Type} (d : α) : Tab α → Nat → α
  | [], _ => d
  | (j, v) :: r, k => if j = k then v else Tab.get d r k

/-- Remove the entry of key `k`. -/
def Tab.drop {α : Type} : Tab α → Nat → Tab α
  | [], _ => []
  | (j, v) :: r, k => if j = k then Tab.drop r k else (j, v) :: Tab.drop r k

/-- Put `v` at key `k`, keeping the keys rising. -/
def Tab.put {α : Type} : Tab α → Nat → α → Tab α
  | [], k, v => [(k, v)]
  | (j, w) :: r, k, v =>
    if j = k then (k, v) :: r
    else if k < j then (k, v) :: (j, w) :: r
    else (j, w) :: Tab.put r k v

/-- Set key `k` to `v`; a value equal to the default is not listed. -/
def Tab.set {α : Type} [DecidableEq α] (d : α) (t : Tab α) (k : Nat) (v : α) : Tab α :=
  if v = d then Tab.drop t k else Tab.put t k v

/-- Change every listed value; values that become the default are not listed. -/
def Tab.mapVals {α : Type} [DecidableEq α] (d : α) (f : Nat → α → α) (t : Tab α) : Tab α :=
  (t.map fun p => (p.1, f p.1 p.2)).filter fun p => decide (p.2 ≠ d)

/-- The keys are strictly rising and all above `lo`. -/
def Tab.rising {α : Type} : Nat → Tab α → Bool
  | _, [] => true
  | lo, (j, _) :: r => decide (lo ≤ j) && Tab.rising (j + 1) r

/-- The canonical form of a sparse table. -/
def Tab.wf {α : Type} [DecidableEq α] (d : α) (t : Tab α) : Bool :=
  Tab.rising 0 t && t.all (fun p => decide (p.2 ≠ d))

end Sys2Proof
end

