-- ==== Sys2Proof/Syntax.lean ====
section
/-!
DEFINITION. The commands of the block: one constructor of `Instr` per row of spec/opcode_table.json,
and the types of their operands.
-/

namespace Sys2Proof

/-- A physical tile PT(bay, col, row) (R29). -/
structure PT where
  bay : Nat
  col : Nat
  row : Nat
deriving DecidableEq, Repr

/-- A logical tile LT(x, y) (R34). -/
structure LT where
  x : Nat
  y : Nat
deriving DecidableEq, Repr

/-- An operand specifier OPS (R128), as its 8 bits. -/
abbrev Ops := BitVec 8

/-- A direction of a router's mesh port (R270). -/
inductive Dir where
  | north | east | south | west
deriving DecidableEq, Repr

/-- One queue entry on its way or in a queue: 128 bits and the TOK flag (R165). -/
structure Flitem where
  data : Quad
  tok : Bool
deriving DecidableEq, Repr

/-- Where a packet comes from or goes to: a tile, a rim gateway (DPX = g, DPY = 1023, R325), an HBM
controller, or a Joiner. -/
inductive Node where
  | tile (t : PT)
  | gateway (g : Nat)
  | hbm (stack : Nat)
  | joiner
deriving DecidableEq, Repr

/-- A fabric packet (R276 to R279): its descriptor's fields that have effect at the ends, and its body. The packet
kind OP is the command that carries it. (DEDUCED, log 28) -/
structure Packet where
  op : BitVec 5
  dst : Node
  src : Node
  tag : BitVec 6
  addr : BitVec 16
  seq : BitVec 4
  ep : Bool
  ext : BitVec 48      -- FLOAT_VAL: change count (R278); RIM_WR, RIM_RD: the HBM address of body flit 0
  part : Nat           -- the partition on whose behalf it travels (not a descriptor field; used for R277 accounting)
  body : List Flitem
deriving DecidableEq, Repr

/-- A mesh flit: 32 header bits and 128 payload bits (R270, R271). -/
structure Flit where
  hdr : BitVec 32
  data : Quad
deriving DecidableEq, Repr

/-- Which of the two host logs (R617). -/
inductive LogKind where
  | completion | event
deriving DecidableEq, Repr

/-- The outcome of a plumb slice (R519), with the router-only BIST of R548. -/
inductive SliceResult where
  | pass | logicFail (routerFails : Bool) | memoryFail
deriving DecidableEq, Repr

/-- Why a bay's array fuse opened: the causes of `SIL_PWRSTAT.FCAUSE` (R764). -/
inductive FuseCause where
  | overcurrent | undervoltage | sillSupply | thermalTrip | powerGood
deriving DecidableEq, Repr

/-- A supplied unit with temperature sensors: a bay or a rim segment (R748). -/
inductive ThermUnit where
  | bay (b : Nat) | segment (n : Nat)
deriving DecidableEq, Repr

/-- The two instances of the attestation and Grain-log read registers (R812, R832). -/
inductive Inst where
  | pcie | i3c
deriving DecidableEq, Repr

/-- A measured receive channel of a Stesum port (R638). -/
structure ChannelReading where
  pwr : BitVec 16
  eye : BitVec 8
  ser : BitVec 32
deriving DecidableEq, Repr

/-- A Stesum link flit (R644). (DESIGN CHOICE, log 73) -/
structure StlFlit where
  seq : BitVec 16
  ack : BitVec 16
  kind : BitVec 8
  cvc : BitVec 8
  ccnt : BitVec 16
  stop : BitVec 8
  flags : BitVec 8
  len : BitVec 16
  payload : List Byte
  crcGood : Bool
deriving DecidableEq, Repr

/-- The header of a put chunk, a put response or a Joinery message (R665). -/
structure PutHeader where
  dst : BitVec 32
  src : BitVec 32
  dpart : Nat
  spart : Nat
  kind : BitVec 8
  entry : Nat
  chunk : Nat
  step : Word
  dpa : Nat
  poison : Word
  len : Nat
  dfid : BitVec 16
  total : Nat
  flags : BitVec 8
  cls : BitVec 8
deriving DecidableEq, Repr

/-- What a training of a Stesum port found (R641, R651, R654). -/
structure Training where
  rxPass : List Nat
  txPass : List Nat
  partnerAddr : BitVec 32
  partnerPort : Nat
  partnerRole : Nat
deriving DecidableEq, Repr

/-- What the host answers to the memory reads that a command makes (R624, R774): the bytes read; the bytes, some of
whose 64-byte blocks (numbered from the first) came with EP set; or a completion with Unsupported Request or Completer
Abort after the bytes given. A command that reads nothing from the host takes `good []`. -/
inductive HostOutcome where
  | good (data : List Byte)
  | poisoned (data : List Byte) (blocks : List Nat)
  | aborted (data : List Byte)
deriving DecidableEq, Repr

/-- A record for the Grain log (R820): its type, source and body bytes. -/
structure GrnRec where
  type : BitVec 16
  srck : BitVec 8
  srci : BitVec 8
  tide : Word
  body : List Byte
deriving DecidableEq, Repr

/-- A micro-op: the 22 opcodes and their fields (R131). -/
inductive Uop where
  | nop
  | loop (lvl : BitVec 2) (trip : BitVec 24) (len : BitVec 9) (unt : Bool) (uq utk : BitVec 3)
  | bsel (q : BitVec 3) (len0 len1 len2 len3 : BitVec 9)
  | emit (port : BitVec 4) (tk : BitVec 3) (val : BitVec 16)
  | weir (wid : BitVec 12)
  | float (act : BitVec 2) (fid : BitVec 12)
  | endOp
  | halt
  | mov (dst src : Ops) (w : BitVec 2)
  | lds (sel now : Bool) (len : BitVec 4) (src : Ops)
  | seta (a : BitVec 3) (base stride : BitVec 16)
  | adda (a : BitVec 3) (imm : BitVec 16)
  | tags (a : BitVec 3) (full : Bool) (count : BitVec 8)
  | rget (port : BitVec 4) (dst : Ops) (w : BitVec 2) (off : BitVec 16)
  | dot (fa fb : BitVec 4) (xa xb : BitVec 2) (srca srcb : Ops) (acc : BitVec 5) (clr wb : Bool) (wbd : Ops)
  | fma (dst src1 src2 src3 : Ops)
  | xadd (dst src1 src2 : Ops)
  | vop (fn : BitVec 4) (dst src1 src2 : Ops) (sel : BitVec 8)
  | cvt (tf : BitVec 4) (rm : BitVec 2) (sat ixs : Bool) (src dst : Ops) (pk : Bool) (layer : BitVec 16) (sf : Bool)
  | cvtb (tf : BitVec 4) (rm xs : BitVec 2) (sf ixs : Bool) (as ad ak : BitVec 3) (layer : BitVec 16) (tag : Bool)
  | rreg (v : BitVec 5) (reg : BitVec 6)
  | wreg (v : BitVec 5) (reg : BitVec 6)
deriving DecidableEq, Repr

/-- The commands: one per row of the opcode table, in the table's order. A micro-op's first operand is the tile whose
sequencer issues it; its other operands are the fields of R131. -/
inductive Instr where
  | nop (t : PT)
  | loop (t : PT) (lvl : BitVec 2) (trip : BitVec 24) (len : BitVec 9) (unt : Bool) (uq utk : BitVec 3)
  | bsel (t : PT) (q : BitVec 3) (len0 len1 len2 len3 : BitVec 9)
  | emit (t : PT) (port : BitVec 4) (tk : BitVec 3) (val : BitVec 16)
  | weir (t : PT) (wid : BitVec 12)
  | float (t : PT) (act : BitVec 2) (fid : BitVec 12)
  | endOp (t : PT)
  | halt (t : PT)
  | mov (t : PT) (dst src : Ops) (w : BitVec 2)
  | lds (t : PT) (sel now : Bool) (len : BitVec 4) (src : Ops)
  | seta (t : PT) (a : BitVec 3) (base stride : BitVec 16)
  | adda (t : PT) (a : BitVec 3) (imm : BitVec 16)
  | tags (t : PT) (a : BitVec 3) (full : Bool) (count : BitVec 8)
  | rget (t : PT) (port : BitVec 4) (dst : Ops) (w : BitVec 2) (off : BitVec 16)
  | dot (t : PT) (fa fb : BitVec 4) (xa xb : BitVec 2) (srca srcb : Ops) (acc : BitVec 5) (clr wb : Bool) (wbd : Ops)
  | fma (t : PT) (dst src1 src2 src3 : Ops)
  | xadd (t : PT) (dst src1 src2 : Ops)
  | vop (t : PT) (fn : BitVec 4) (dst src1 src2 : Ops) (sel : BitVec 8)
  | cvt (t : PT) (tf : BitVec 4) (rm : BitVec 2) (sat ixs : Bool) (src dst : Ops) (pk : Bool) (layer : BitVec 16) (sf : Bool)
  | cvtb (t : PT) (tf : BitVec 4) (rm xs : BitVec 2) (sf ixs : Bool) (as ad ak : BitVec 3) (layer : BitVec 16) (tag : Bool)
  | rreg (t : PT) (v : BitVec 5) (reg : BitVec 6)
  | wreg (t : PT) (v : BitVec 5) (reg : BitVec 6)
  | tileStart (t : PT)
  | sequencerUnblock (t : PT)
  | taggedWaitProceed (t : PT) (slot : Nat)
  | parkedRequestComplete (t : PT) (entry : Nat)
  | reissue (t : PT)
  | tileResetDone (t : PT)
  | tileHalt (t : PT)
  | tileResume (t : PT)
  | tileReset (t : PT)
  | tileClrtags (t : PT)
  | tileEccClr (t : PT)
  | qsend (p : Packet)
  | wrRaw (p : Packet)
  | wrTag (p : Packet)
  | rdRaw (p : Packet)
  | rdTag (p : Packet)
  | rdKeep (p : Packet)
  | fount (p : Packet)
  | rdData (p : Packet)
  | wrAck (p : Packet)
  | qAck (p : Packet)
  | qCredit (p : Packet)
  | err (p : Packet)
  | close (p : Packet)
  | recall (p : Packet)
  | weirArr (p : Packet)
  | weirRel (p : Packet)
  | floatOp (p : Packet)
  | floatVal (p : Packet)
  | rimWr (p : Packet)
  | rimRd (p : Packet)
  | linkFlitReceive (r : PT) (d : Dir) (f : Flit)
  | returnWord (r : PT) (d : Dir) (w : BitVec 16)
  | linkAckTimeout (r : PT) (d : Dir)
  | linkOnoffExpire (r : PT) (d : Dir)
  | sync (r : PT) (d : Dir) (f : Flit)
  | linkResyncTimeout (r : PT) (d : Dir)
  | linkResyncRetry (r : PT) (d : Dir)
  | linkRetest (r : PT) (d : Dir) (good : Bool)
  | fabCtlClr (r : PT)
  | prtFabClr (p : Nat)
  | spill (t : PT)
  | spillBasinDone (t : PT) (q : Nat)
  | refill (t : PT) (q : Nat)
  | drainBoundary (p r : Nat)
  | drainImmediate (p r : Nat)
  | drainPurge (p r : Nat)
  | reopen (p r : Nat)
  | closeNoAnswer (p : Nat) (c : LT) (q : Nat)
  | drainTimeout (p r : Nat)
  | regionDrained (p r : Nat)
  | flowClrDiscard (p : Nat)
  | flowClrPeak (p : Nat)
  | flowClrSpill (p : Nat)
  | nopCommand (f : Nat) (seq : Dword)
  | commandRecord (f : Nat)
  | partCreate (f : Nat) (seq : Dword) (host : HostOutcome)
  | partDelete (f : Nat) (seq : Dword)
  | keyLoad (f : Nat) (seq : Dword) (host : HostOutcome)
  | fenceWithdraw (f : Nat) (seq : Dword)
  | frameCheck (f : Nat) (seq : Dword)
  | frameApply (f : Nat) (seq : Dword)
  | remap (f : Nat) (seq : Dword)
  | gateRun (f : Nat) (seq : Dword)
  | gateArm (f : Nat) (seq : Dword)
  | gatewayStream (p : Nat) (c : LT) (q : Nat)
  | flumeCopy (f : Nat) (seq : Dword)
  | flumeCopyDone (flume : Nat) (host : HostOutcome)
  | hstRateLimit (f : Nat)
  | bar2Write (f : Nat) (off : Nat) (data : List Byte)
  | bar2Read (f : Nat) (off len : Nat)
  | logEnable (f : Nat) (k : LogKind) (value : Word)
  | logHeadWrite (f : Nat) (k : LogKind) (value : Word)
  | functionLevelReset (f : Nat)
  | pf0Flr
  | hotReset
  | perstAssert
  | hstLinkDown
  | hstCtlClr
  | placementQueued (p : Nat)
  | heal (p : Nat)
  | stepSettle (p : Nat)
  | dryfitDigestRecord (p : Nat)
  | dryfitCompare (p : Nat)
  | weirTimeout (p wid : Nat)
  | plumbSliceStart (t : PT)
  | plumbForce (t : PT)
  | plumbSliceEnd (t : PT) (r : SliceResult)
  | plumbLate (t : PT)
  | intensPlumbEnd (t : PT)
  | prtStepWrite (f p : Nat) (value : Word)
  | prtDetClr (p : Nat)
  | sightDigest (p : Nat)
  | sightDecide (p : Nat)
  | plnStepWrite (p : Nat) (slot : Bool) (value : Word)
  | stepSizeStale (p : Nat)
  | layerCompute (p layer : Nat)
  | layerComputeDone (p layer : Nat) (mismatch : Bool)
  | plnCommitGrant (p layer : Nat)
  | plnDiscardOrder (p layer : Nat)
  | plnCopyDone (p layer : Nat)
  | layerFreeze (p : Nat)
  | layerUnfreeze (p : Nat)
  | layerSetupd (p : Nat) (upd : BitVec 48)
  | prtPlnClr (p : Nat)
  | plnEctlClr (e : Nat)
  | scrubRead (st : Nat)
  | hbmScrubnow (st : Nat)
  | hbmCtlClr (st : Nat)
  | prtHbmClr (p : Nat)
  | jnrLockstep (pair : Nat)
  | jnrSend (pair : Nat) (value : Word) (payload : List Byte)
  | sluiceMessage (ep basin idx : Nat)
  | sluiceCredit (ep basin : Nat)
  | jnrRecv (pair n : Nat)
  | jnrRel (pair n : Nat)
  | jnrBasinBind (pair n : Nat) (value : Word)
  | sluiceStall (ep : Nat)
  | jnrStrclr (value : Word)
  | coldStart
  | rimSegPowerStep (n : Nat) (good : Bool)
  | bayPowerStep (b : Nat) (good : Bool)
  | rootPllLock (refPresent syncTrimmed : Bool) (trim : BitVec 10)
  | rippleLock (unlocked : List Nat)
  | fuseRead (checkGood : Bool)
  | bootRom (romGood : Bool) (failedPairs : List Nat)
  | bootFetch (host : HostOutcome)
  | imageVerify
  | hbmTraining (untrained : List Nat)
  | baySelfTest (failedTiles failedRouters failedLinks badParts : List Nat)
  | routeBuild (tablesGood : Bool)
  | gradingAndMap
  | linkTraining (found : List (Nat × Training))
  | bootReady
  | bootLive (host : HostOutcome)
  | liveClusterReplace (c : Nat)
  | liveReplaceStop
  | sillReload
  | feedFault
  | pwrBayFuse (b : Nat) (cause : FuseCause)
  | rimSegLost (n : Nat)
  | surgeStepdown (draw : Nat)
  | stepdownStep (draw : Nat)
  | stepdownRelease (draw : Nat)
  | surgeWearEval (b : Nat)
  | surgeHourEnd (b : Nat)
  | thermSample (u : ThermUnit) (readings : List Nat)
  | thermBrake (b : Nat)
  | thermRelease (b : Nat)
  | thermTrip (u : ThermUnit)
  | marginRecord (b : Nat)
  | haltN
  | pwrResume
  | pwrSurgeWrite (value : Word)
  | pwrCtlClr
  | silPwrctlClr (b : Nat)
  | refHoldover
  | refReturn
  | rootPllUnlock
  | oscRetrim (trim : BitVec 10)
  | rippleUnlock (b : Nat)
  | clkHdivWrite (value : Word)
  | clkDividerStep
  | clkChangeDone
  | clkCtlClr
  | tideMeasure
  | syncInEdge (highNs : Nat)
  | syncLost
  | tideSet (value : Word)
  | tideCfgWrite (value : Word)
  | tideSyncWrite (value : Word)
  | tideCtlClr
  | stlMarginMeasure (port : Nat) (readings : List ChannelReading)
  | stlLaneSwap (port : Nat) (rx : Bool) (passes : Bool)
  | stlDataFlit (port : Nat) (f : StlFlit)
  | stlReplayTimeout (port : Nat)
  | stlIdleFlit (port : Nat)
  | stlLinkWatchdog (port : Nat)
  | stlOnoffExpire (port : Nat)
  | stlResyncFlit (port vc free : Nat)
  | stlResyncTimeout (port : Nat)
  | stlTrainingDone (port : Nat) (found : Training)
  | stlPortDown (port : Nat)
  | stlRetrainRetry (port : Nat)
  | stlRetrain (port : Nat)
  | stlCtlClr (port : Nat)
  | stlPcfgWrite (port : Nat) (value : Word)
  | stlAddrWrite (value : Word)
  | stlTimeFlitSend (port : Nat)
  | stlTimeFlit (port : Nat) (t1 t2 t3 : Word)
  | stlTransit (port : Nat) (h : PutHeader) (data : List Byte)
  | putGo (p : Nat) (value : Word)
  | putChunk (h : PutHeader) (data : List Byte)
  | putResponse (h : PutHeader)
  | putBusyRetry (p entry : Nat)
  | putTimeout (p entry : Nat)
  | stlJoineryMessage (h : PutHeader) (layer : Nat) (digest : Word)
  | attestGo (i : Inst)
  | keyTreesReady
  | attestSignDone
  | grnRecord (r : GrnRec)
  | grnRecordCommit (abandoned : Nat)
  | grnWriteRetry
  | grnSectorErase (area : Nat) (good : Bool)
  | grnRselFetch (i : Inst) (value : Word)
  | grnRdataRead
  | grnCtlClr
  | i3cPrivateWrite (bytes : List Byte)
  | i3cPrivateRead (n : Nat)
  | i3cDynamicAddress (a : BitVec 7)
  | silTdataAccess (b : Nat) (write : Option Word)
  | silRtdataAccess (b : Nat) (write : Option Word)
  | prtMapDataRead (f p : Nat)
  | fltFdataRead (second : Bool)
  | jnrStrdataRead (second : Bool)
  | fltCtlClr
  | registerWrite (f off width : Nat) (value : Word)
  | stlSwapFlit (port lane spare : Nat)
  | perstDeassert
  | haltNRelease
  | pcieLinkUp
  | windowFillDone (p fid : Nat)
  | hbmSuspectWindowEnd (st : Nat)
deriving DecidableEq, Repr

end Sys2Proof
end

