-- ==== Sys2Proof/WellFormed.lean ====
section
/-!
DEFINITION. Which micro-ops are legal by their fields alone (R127, R128, R129), and which commands name a place that
exists.
-/

namespace Sys2Proof

/-- A source specifier that is not reserved, for an operand of `n` registers (R128, R129). -/
def srcOk (n : Nat) (o : Ops) : Bool :=
  match o.toNat / 64 with
  | 0 => o.toNat % 64 / 32 == 0 && decide (o.toNat % 32 + n ≤ 32)
  | 1 => !o.getLsbD 5 || o.getLsbD 4
  | 2 => o.toNat % 64 / 16 == 0
  | _ => o.toNat % 64 == 0

/-- A destination specifier that is not reserved, for an operand of `n` registers (R128, R129). -/
def dstOk (n : Nat) (o : Ops) : Bool :=
  match o.toNat / 64 with
  | 0 => o.toNat % 64 / 32 == 0 && decide (o.toNat % 32 + n ≤ 32)
  | 1 => !o.getLsbD 5
  | 2 => o.toNat % 64 / 16 == 0
  | _ => o.toNat % 64 == 0

/-- Products of a DOT with these formats (R103, R141). -/
def dotCount (fa fb : Nat) : Nat := if fa = 6 then 16 else if fa ≤ 2 ∧ fb ≤ 2 then 64 else 32

/-- Vector registers or queue entries that `n` elements of width `w` fill (R129). -/
def regsOf (n w : Nat) : Nat := (n * w + 127) / 128

/-- Element width by format code (R62). -/
def widthOf (c : Nat) : Nat :=
  if c = 0 then 4 else if c = 1 ∨ c = 2 then 6 else if c ≤ 5 then 8 else if c = 6 then 16 else if c = 7 then 32 else 128

/-- The format pair and scalings of a DOT are legal (R141). -/
def dotFmtOk (fa fb xa xb : Nat) : Bool :=
  (fa == 6 && fb == 6 && xa == 0 && xb == 0) || (decide (fa ≤ 5) && decide (fb ≤ 5) && decide (xa ≤ 2) && decide (xb ≤ 2))

/-- The fields of a micro-op hold no reserved value (R127 to R144). -/
def Uop.wf : Uop → Bool
  | .nop | .endOp | .halt | .weir _ | .float _ _ | .seta _ _ _ | .adda _ _ | .tags _ _ _ => true
  | .loop _ _ len unt _ utk => decide (len.toNat ≠ 0) && (!unt || utk.toNat == 1 || utk.toNat == 2)
  | .bsel _ _ _ _ _ => true
  | .emit _ tk _ => decide (tk.toNat ≤ 4)
  | .mov dst src w => srcOk (w.toNat + 1) src && dstOk (w.toNat + 1) dst
  | .lds _ _ _ src => srcOk 1 src
  | .rget _ dst w _ => dstOk (w.toNat + 1) dst
  | .dot fa fb xa xb srca srcb _ _ wb wbd =>
    dotFmtOk fa.toNat fb.toNat xa.toNat xb.toNat &&
      srcOk (regsOf (dotCount fa.toNat fb.toNat) (widthOf fa.toNat)) srca &&
      srcOk (regsOf (dotCount fa.toNat fb.toNat) (widthOf fb.toNat)) srcb &&
      (!wb || (decide (wbd.toNat / 64 ≠ 0) && dstOk 1 wbd))
  | .fma dst s1 s2 s3 => dstOk 1 dst && srcOk 1 s1 && srcOk 1 s2 && srcOk 1 s3
  | .xadd dst s1 s2 => dstOk 1 dst && srcOk 1 s1 && srcOk 1 s2
  | .vop fn dst s1 s2 _ => decide (fn.toNat ≤ 7) && dstOk 1 dst && srcOk 1 s1 && srcOk 1 s2
  | .cvt tf rm _ _ src dst _ _ _ => decide (tf.toNat ≤ 7) && decide (rm.toNat ≠ 3) && srcOk 1 src && dstOk 1 dst
  | .cvtb tf rm xs _ _ _ _ _ _ _ => decide (tf.toNat ≤ 5) && decide (rm.toNat ≠ 3) && (xs.toNat == 1 || xs.toNat == 2)
  | .rreg _ _ | .wreg _ _ => true

/-- A tile of the wafer (R29). -/
def ptOk (t : PT) : Bool := decide (t.bay < 84) && decide (t.col < 128) && decide (t.row < 96)

/-- A partition (R21). -/
def partOk (p : Nat) : Bool := decide (1 ≤ p) && decide (p ≤ 8)
/-- A PCIe function: PF0 or the virtual function of a partition (R588). -/
def funcOk (f : Nat) : Bool := decide (f ≤ 8)
/-- An HBM stack, a rim segment or a Plane engine. -/
def rimOk (k : Nat) : Bool := decide (k < 24)
/-- A bay. -/
def bayOk (b : Nat) : Bool := decide (b < 84)
/-- A Stesum port. -/
def stlOk (p : Nat) : Bool := decide (p < 32)
/-- A Joiner pair and one of its basins (R477). -/
def pairOk (k : Nat) : Bool := decide (k < 48)
/-- A sluice endpoint's number: 48 pairs, 84 Sill controllers, 24 Plane engines (R476). -/
def endpointOk (k : Nat) : Bool := decide (k < 48 + 84 + 24)
def basinOk (n : Nat) : Bool := decide (n < 32)

/-- The ends that a packet names exist. -/
def nodeOk : Node → Bool
  | .tile t => ptOk t
  | .gateway _ | .joiner => true
  | .hbm k => rimOk k

/-- The body flits that a packet kind may have: the least and the most (R278). -/
def bodyLimits (op : Nat) : Nat × Nat :=
  if op = 0 ∨ op = 1 ∨ op = 2 ∨ op = 6 ∨ op = 8 then (1, 4) else if op = 0x18 then (2, 4) else if op = 0x19 then (1, 1) else (0, 0)

/-- A packet of the row's kind, with as many body flits as the kind has (R278), from a node to a node. -/
def packetOk (op : Nat) (p : Packet) : Bool :=
  p.op.toNat == op && nodeOk p.dst && nodeOk p.src && decide ((bodyLimits op).1 ≤ p.body.length) &&
    decide (p.body.length ≤ (bodyLimits op).2)

/-- A supplied unit that exists. -/
def thermOk : ThermUnit → Bool
  | .bay b => bayOk b
  | .segment n => rimOk n

/-- A command names places that exist, a micro-op has legal fields, a packet has the kind of its row. -/
def Instr.wf (i : Instr) : Bool :=
  match i with
  | .nop t | .endOp t | .halt t | .weir t _ | .float t _ _ | .seta t _ _ _ | .adda t _ _ | .tags t _ _ _ | .bsel t _ _ _ _ _
  | .rreg t _ _ | .wreg t _ _ => ptOk t
  | .loop t lvl trip len unt uq utk => ptOk t && (Uop.loop lvl trip len unt uq utk).wf
  | .emit t port tk val => ptOk t && (Uop.emit port tk val).wf
  | .mov t dst src w => ptOk t && (Uop.mov dst src w).wf
  | .lds t sel now len src => ptOk t && (Uop.lds sel now len src).wf
  | .rget t port dst w off => ptOk t && (Uop.rget port dst w off).wf
  | .dot t fa fb xa xb sa sb acc clr wb wbd => ptOk t && (Uop.dot fa fb xa xb sa sb acc clr wb wbd).wf
  | .fma t dst s1 s2 s3 => ptOk t && (Uop.fma dst s1 s2 s3).wf
  | .xadd t dst s1 s2 => ptOk t && (Uop.xadd dst s1 s2).wf
  | .vop t fn dst s1 s2 sel => ptOk t && (Uop.vop fn dst s1 s2 sel).wf
  | .cvt t tf rm sat ixs src dst pk layer sf => ptOk t && (Uop.cvt tf rm sat ixs src dst pk layer sf).wf
  | .cvtb t tf rm xs sf ixs as ad ak layer tag => ptOk t && (Uop.cvtb tf rm xs sf ixs as ad ak layer tag).wf
  | .tileStart t | .sequencerUnblock t | .reissue t | .tileResetDone t | .tileHalt t | .tileResume t | .tileReset t
  | .tileClrtags t | .tileEccClr t | .fabCtlClr t | .spill t | .plumbSliceStart t | .plumbForce t | .plumbLate t
  | .intensPlumbEnd t => ptOk t
  | .plumbSliceEnd t _ => ptOk t
  | .taggedWaitProceed t slot => ptOk t && decide (slot < 448)
  | .parkedRequestComplete t entry => ptOk t && decide (entry < 4)
  | .spillBasinDone t q | .refill t q => ptOk t && decide (q < 8)
  | .qsend p => packetOk 0x00 p
  | .wrRaw p => packetOk 0x01 p
  | .wrTag p => packetOk 0x02 p
  | .rdRaw p => packetOk 0x03 p
  | .rdTag p => packetOk 0x04 p
  | .rdKeep p => packetOk 0x05 p
  | .fount p => packetOk 0x06 p
  | .rdData p => packetOk 0x08 p
  | .wrAck p => packetOk 0x09 p
  | .qAck p => packetOk 0x0A p
  | .qCredit p => packetOk 0x0B p
  | .err p => packetOk 0x0C p
  | .close p => packetOk 0x10 p
  | .recall p => packetOk 0x11 p
  | .weirArr p => packetOk 0x14 p
  | .weirRel p => packetOk 0x15 p
  | .floatOp p => packetOk 0x16 p
  | .floatVal p => packetOk 0x17 p
  | .rimWr p => packetOk 0x18 p
  | .rimRd p => packetOk 0x19 p
  | .linkFlitReceive r _ _ | .returnWord r _ _ | .sync r _ _ | .linkRetest r _ _ => ptOk r
  | .linkAckTimeout r _ | .linkOnoffExpire r _ | .linkResyncTimeout r _ | .linkResyncRetry r _ => ptOk r
  | .prtFabClr p | .flowClrDiscard p | .flowClrPeak p | .flowClrSpill p | .placementQueued p | .heal p | .stepSettle p
  | .dryfitDigestRecord p | .dryfitCompare p | .prtDetClr p | .sightDigest p | .sightDecide p | .stepSizeStale p | .layerFreeze p
  | .layerUnfreeze p | .prtPlnClr p | .prtHbmClr p => partOk p
  | .layerSetupd p _ | .putGo p _ => partOk p
  | .plnStepWrite p _ _ => partOk p
  | .drainBoundary p r | .drainImmediate p r | .drainPurge p r | .reopen p r | .drainTimeout p r | .regionDrained p r =>
    partOk p && decide (r < 256)
  | .closeNoAnswer p _ q | .gatewayStream p _ q => partOk p && decide (q < 8)
  | .weirTimeout p wid => partOk p && decide (wid < 4096)
  | .layerCompute p _ | .plnCommitGrant p _ | .plnDiscardOrder p _ | .plnCopyDone p _ => partOk p
  | .layerComputeDone p _ _ => partOk p
  | .putBusyRetry p entry | .putTimeout p entry => partOk p && decide (entry < 64)
  | .prtStepWrite f p _ => funcOk f && partOk p
  | .prtMapDataRead f p => funcOk f && partOk p
  | .nopCommand f _ | .partDelete f _ | .fenceWithdraw f _ | .frameCheck f _ | .frameApply f _ | .remap f _ | .gateRun f _
  | .gateArm f _ | .flumeCopy f _ => funcOk f
  | .partCreate f _ _ | .keyLoad f _ _ => funcOk f
  | .commandRecord f | .hstRateLimit f | .functionLevelReset f => funcOk f
  | .bar2Write f _ _ | .bar2Read f _ _ | .logEnable f _ _ | .logHeadWrite f _ _ => funcOk f
  | .registerWrite f _ _ _ => funcOk f
  | .flumeCopyDone flume _ => decide (flume < 32)
  | .windowFillDone p fid => partOk p && decide (fid < 4096)
  | .plnEctlClr k | .hbmSuspectWindowEnd k | .scrubRead k | .hbmScrubnow k | .hbmCtlClr k | .rimSegLost k => rimOk k
  | .rimSegPowerStep n _ => rimOk n
  | .jnrLockstep k => pairOk k
  | .jnrSend k _ _ => endpointOk k
  | .jnrRecv k n => pairOk k && basinOk n
  | .jnrRel k n | .jnrBasinBind k n _ => endpointOk k && basinOk n
  | .sluiceMessage _ basin _ | .sluiceCredit _ basin => basinOk basin
  | .bayPowerStep b _ => bayOk b
  | .pwrBayFuse b _ => bayOk b
  | .surgeWearEval b | .surgeHourEnd b | .thermBrake b | .thermRelease b | .marginRecord b | .silPwrctlClr b | .rippleUnlock b =>
    bayOk b
  | .silTdataAccess b _ | .silRtdataAccess b _ => bayOk b
  | .thermSample u _ => thermOk u
  | .thermTrip u => thermOk u
  | .liveClusterReplace c => decide (c < 12)
  | .stlMarginMeasure p _ | .stlDataFlit p _ | .stlTrainingDone p _ | .stlPcfgWrite p _ => stlOk p
  | .stlLaneSwap p _ _ | .stlSwapFlit p _ _ | .stlTransit p _ _ => stlOk p
  | .stlResyncFlit p vc _ => stlOk p && decide (vc < 7)
  | .stlTimeFlit p _ _ _ => stlOk p
  | .stlReplayTimeout p | .stlIdleFlit p | .stlLinkWatchdog p | .stlOnoffExpire p | .stlResyncTimeout p | .stlPortDown p
  | .stlRetrainRetry p | .stlRetrain p | .stlCtlClr p | .stlTimeFlitSend p => stlOk p
  | .putChunk h _ => h.kind == 0x01
  | .putResponse h => h.kind == 0x02
  | .stlJoineryMessage h _ _ => h.kind == 0x03
  | .grnSectorErase area _ => decide (1 ≤ area) && decide (area ≤ 3)
  | .sluiceStall _ | .jnrStrclr _ | .coldStart | .rootPllLock _ _ _ | .rippleLock _ | .fuseRead _ | .bootRom _ _ | .bootFetch _
  | .imageVerify | .hbmTraining _ | .baySelfTest _ _ _ _ | .routeBuild _ | .gradingAndMap | .linkTraining _ | .bootReady
  | .bootLive _ | .liveReplaceStop | .sillReload | .feedFault | .surgeStepdown _ | .stepdownStep _ | .stepdownRelease _ | .haltN
  | .pwrResume | .pwrSurgeWrite _ | .pwrCtlClr | .refHoldover | .refReturn | .rootPllUnlock | .oscRetrim _ | .clkHdivWrite _
  | .clkDividerStep | .clkChangeDone | .clkCtlClr | .tideMeasure | .syncInEdge _ | .syncLost | .tideSet _ | .tideCfgWrite _
  | .tideSyncWrite _ | .tideCtlClr | .stlAddrWrite _ | .attestGo _ | .keyTreesReady | .attestSignDone | .grnRecord _
  | .grnRecordCommit _ | .grnWriteRetry | .grnRselFetch _ _ | .grnRdataRead | .grnCtlClr | .i3cPrivateWrite _ | .i3cPrivateRead _
  | .i3cDynamicAddress _ | .fltFdataRead _ | .jnrStrdataRead _ | .fltCtlClr | .perstDeassert | .haltNRelease | .pcieLinkUp
  | .pf0Flr | .hotReset | .perstAssert | .hstLinkDown | .hstCtlClr => true

end Sys2Proof
end

