-- ==== Sys2Proof/Decode.lean ====
section
/-!
DEFINITION. The words of the table, which spell no command, and the words of the tile's own programs: the micro-ops of
R131 as a sequencer reads them, and their encoder.
-/

namespace Sys2Proof

/-- The command that a word spells by the table's bits: none, since no row gives bits. (DESIGN CHOICE, log 5) -/
def decodeTableWord (_nbits _w : Nat) : Option Instr := none

/-- A field [lo + n − 1 : lo] of a micro-op word. -/
def uf (w : Word) (lo n : Nat) : BitVec n := w.extractLsb' lo n

/-- The bits of a micro-op word that its opcode lists (R131). -/
def uopMask : Nat → Word
  | 0x00 => 0xFC00000000000000
  | 0x01 => 0xFFFFFFFFFFFF0000
  | 0x02 => 0xFFFFFFFFFFF80000
  | 0x03 => 0xFFFFFFF800000000
  | 0x04 => 0xFFFFC00000000000
  | 0x05 => 0xFFFFF00000000000
  | 0x06 => 0xFC00000000000000
  | 0x07 => 0xFC00000000000000
  | 0x08 => 0xFFFFFF0000000000
  | 0x09 => 0xFFFFF00000000000
  | 0x0A => 0xFFFFFFFFFF800000
  | 0x0B => 0xFFFFFF8000000000
  | 0x0C => 0xFFFFC00000000000
  | 0x0D => 0xFFFFFFFFF0000000
  | 0x10 => 0xFFFFFFFFFFFF8000
  | 0x11 => 0xFFFFFFFFFC000000
  | 0x12 => 0xFFFFFFFC00000000
  | 0x13 => 0xFFFFFFFFFFC00000
  | 0x18 => 0xFFFFFFFFFFFF0000
  | 0x19 => 0xFFFFFFFFFFC00000
  | 0x1C => 0xFFFF800000000000
  | 0x1D => 0xFFFF800000000000
  | _ => 0

/-- The fields of a word by its opcode (R131); none for a reserved opcode. -/
def uopFields (w : Word) : Option Uop :=
  match (uf w 58 6).toNat with
  | 0x00 => some .nop
  | 0x01 => some (.loop (uf w 56 2) (uf w 32 24) (uf w 23 9) (w.getLsbD 22) (uf w 19 3) (uf w 16 3))
  | 0x02 => some (.bsel (uf w 55 3) (uf w 46 9) (uf w 37 9) (uf w 28 9) (uf w 19 9))
  | 0x03 => some (.emit (uf w 54 4) (uf w 51 3) (uf w 35 16))
  | 0x04 => some (.weir (uf w 46 12))
  | 0x05 => some (.float (uf w 56 2) (uf w 44 12))
  | 0x06 => some .endOp
  | 0x07 => some .halt
  | 0x08 => some (.mov (uf w 50 8) (uf w 42 8) (uf w 40 2))
  | 0x09 => some (.lds (w.getLsbD 57) (w.getLsbD 56) (uf w 52 4) (uf w 44 8))
  | 0x0A => some (.seta (uf w 55 3) (uf w 39 16) (uf w 23 16))
  | 0x0B => some (.adda (uf w 55 3) (uf w 39 16))
  | 0x0C => some (.tags (uf w 55 3) (w.getLsbD 54) (uf w 46 8))
  | 0x0D => some (.rget (uf w 54 4) (uf w 46 8) (uf w 44 2) (uf w 28 16))
  | 0x10 => some (.dot (uf w 54 4) (uf w 50 4) (uf w 48 2) (uf w 46 2) (uf w 38 8) (uf w 30 8) (uf w 25 5)
      (w.getLsbD 24) (w.getLsbD 23) (uf w 15 8))
  | 0x11 => some (.fma (uf w 50 8) (uf w 42 8) (uf w 34 8) (uf w 26 8))
  | 0x12 => some (.xadd (uf w 50 8) (uf w 42 8) (uf w 34 8))
  | 0x13 => some (.vop (uf w 54 4) (uf w 46 8) (uf w 38 8) (uf w 30 8) (uf w 22 8))
  | 0x18 => some (.cvt (uf w 54 4) (uf w 52 2) (w.getLsbD 51) (w.getLsbD 50) (uf w 42 8) (uf w 34 8) (w.getLsbD 33)
      (uf w 17 16) (w.getLsbD 16))
  | 0x19 => some (.cvtb (uf w 54 4) (uf w 52 2) (uf w 50 2) (w.getLsbD 49) (w.getLsbD 48) (uf w 45 3) (uf w 42 3)
      (uf w 39 3) (uf w 23 16) (w.getLsbD 22))
  | 0x1C => some (.rreg (uf w 53 5) (uf w 47 6))
  | 0x1D => some (.wreg (uf w 53 5) (uf w 47 6))
  | _ => none

/-- The micro-op that a word holds (R127): none for a reserved opcode, a non-zero reserved field or a reserved field
value. -/
def decodeUop (w : Word) : Option Uop :=
  if w &&& ~~~(uopMask (uf w 58 6).toNat) ≠ 0 then none
  else
    match uopFields w with
    | some u => if u.wf then some u else none
    | none => none

/-- A field placed at bit `lo`. -/
def up {n : Nat} (lo : Nat) (v : BitVec n) : Word := v.setWidth 64 <<< lo
/-- A bit placed at bit `lo`. -/
def ub (lo : Nat) (b : Bool) : Word := (BitVec.ofBool b).setWidth 64 <<< lo
/-- The opcode field. -/
def uo (v : Nat) : Word := BitVec.ofNat 64 v <<< 58

/-- The word of a micro-op (R131). -/
def encodeUop : Uop → Word
  | .nop => uo 0x00
  | .loop lvl trip len unt uq utk => uo 0x01 ||| up 56 lvl ||| up 32 trip ||| up 23 len ||| ub 22 unt ||| up 19 uq ||| up 16 utk
  | .bsel q l0 l1 l2 l3 => uo 0x02 ||| up 55 q ||| up 46 l0 ||| up 37 l1 ||| up 28 l2 ||| up 19 l3
  | .emit port tk val => uo 0x03 ||| up 54 port ||| up 51 tk ||| up 35 val
  | .weir wid => uo 0x04 ||| up 46 wid
  | .float act fid => uo 0x05 ||| up 56 act ||| up 44 fid
  | .endOp => uo 0x06
  | .halt => uo 0x07
  | .mov dst src w => uo 0x08 ||| up 50 dst ||| up 42 src ||| up 40 w
  | .lds sel now len src => uo 0x09 ||| ub 57 sel ||| ub 56 now ||| up 52 len ||| up 44 src
  | .seta a base stride => uo 0x0A ||| up 55 a ||| up 39 base ||| up 23 stride
  | .adda a imm => uo 0x0B ||| up 55 a ||| up 39 imm
  | .tags a full count => uo 0x0C ||| up 55 a ||| ub 54 full ||| up 46 count
  | .rget port dst w off => uo 0x0D ||| up 54 port ||| up 46 dst ||| up 44 w ||| up 28 off
  | .dot fa fb xa xb sa sb acc clr wb wbd =>
    uo 0x10 ||| up 54 fa ||| up 50 fb ||| up 48 xa ||| up 46 xb ||| up 38 sa ||| up 30 sb ||| up 25 acc ||| ub 24 clr |||
      ub 23 wb ||| up 15 wbd
  | .fma dst s1 s2 s3 => uo 0x11 ||| up 50 dst ||| up 42 s1 ||| up 34 s2 ||| up 26 s3
  | .xadd dst s1 s2 => uo 0x12 ||| up 50 dst ||| up 42 s1 ||| up 34 s2
  | .vop fn dst s1 s2 sel => uo 0x13 ||| up 54 fn ||| up 46 dst ||| up 38 s1 ||| up 30 s2 ||| up 22 sel
  | .cvt tf rm sat ixs src dst pk layer sf =>
    uo 0x18 ||| up 54 tf ||| up 52 rm ||| ub 51 sat ||| ub 50 ixs ||| up 42 src ||| up 34 dst ||| ub 33 pk ||| up 17 layer |||
      ub 16 sf
  | .cvtb tf rm xs sf ixs as ad ak layer tag =>
    uo 0x19 ||| up 54 tf ||| up 52 rm ||| up 50 xs ||| ub 49 sf ||| ub 48 ixs ||| up 45 as ||| up 42 ad ||| up 39 ak |||
      up 23 layer ||| ub 22 tag
  | .rreg v reg => uo 0x1C ||| up 53 v ||| up 47 reg
  | .wreg v reg => uo 0x1D ||| up 53 v ||| up 47 reg

end Sys2Proof
end

