-- ==== Sys2Proof/Config.lean ====
section
/-!
DEFINITION. The values that the spec leaves open or takes from other standards, as constants without a body: no proof
can see what they are. Each is named in a row of notes/assumptions.
-/

namespace Sys2Proof

/-- A free value number `n` (the State's `free` counter numbers the draws). (DESIGN CHOICE, log 8) -/
opaque Config.freeNat : Nat → Nat

/-- The 16 OPERANDS bytes of an event (R619) from its code and operands: the spec gives them no byte layout.
(DESIGN CHOICE, log 13) -/
opaque Config.eventOperands : Nat → List Nat → BitVec 128

/-- The CRC-64 check and other keyed checks of Sill hardware (R746): its key is in fuses the spec gives no value for.
(DESIGN CHOICE, log 92) -/
opaque Config.sillCheck : Nat → Nat → Nat → Word

/-- The 216 body bytes of the identity record written at test (R831): the spec gives its items no offsets.
(DESIGN CHOICE, log 93) -/
opaque Config.identityBody : Vector Byte 216

/-- The fused ECDSA and LMS key digests of a slot (R778), 48 bytes. (DESIGN CHOICE, log 131) -/
opaque Config.ecdsaDigest : Nat → Vector Byte 48
/-- The fused digest of a slot's LMS key (R778). (DESIGN CHOICE, log 131) -/
opaque Config.lmsDigest : Nat → Vector Byte 48

/-- What the key engine derives from the device secret, a fused value that nothing reads (R801 to R804): the number of the ECDSA
private key. (DESIGN CHOICE, log 131) -/
opaque Config.deviceKey : Nat
/-- The identifier I of an HSS tree: 0 the top one, k + 1 the bottom tree k (R803). (DESIGN CHOICE, log 131) -/
opaque Config.hssId : Nat → Vector Byte 16
/-- The SEED of an HSS tree (R803). (DESIGN CHOICE, log 131) -/
opaque Config.hssSeed : Nat → Vector Byte 32
/-- The randomiser C of a tree's leaf (R804). (DESIGN CHOICE, log 131) -/
opaque Config.hssRandom : Nat → Nat → Vector Byte 32

/-- What the Scriber wrote into a router's escape table (R291): table version, router and entry, 0 to 83 a destination bay, 84
to 211 a column, 212 to 307 a row. (DESIGN CHOICE, log 36) -/
opaque Config.escapeDir : Nat → Nat → Nat → Nat

/-- A router's generator (R289): its next value. (DESIGN CHOICE, log 36) -/
opaque Config.spreadNext : BitVec 32 → BitVec 32
/-- What a draw of the generator gives (R288, R289). (DESIGN CHOICE, log 36) -/
opaque Config.spreadDraw : Nat → Nat

/-- The pseudo-channel of a block (R455, R459): the spec gives no map from addresses. Stack and block number.
(DESIGN CHOICE, log 47) -/
opaque Config.hbmChannel : Nat → Nat → Nat

/-- The binary64 power nrm^(−1/p) of R403: the spec says of no power how it is rounded. Encoding of nrm, and p.
(DESIGN CHOICE, log 42) -/
opaque Config.plnPow : Nat → Nat → Nat

/-- A word of a router's fountain, weir, float and escape tables, whose layouts are private to the Scriber (R327): the table
version, the router and the offset. (DESIGN CHOICE, log 38) -/
opaque Config.routerTable : Nat → Nat → Nat → Word

/-- What an analogue sensor reads at a Tide: sensors 0 the feed (10 mV), 1 to 84 the array voltage of bay n − 1 (mV), 101 to
184 the draw of bay n − 101 (W), 201 to 224 the temperature of stack n − 201 (R459, R763, R764).
(DESIGN CHOICE, log 89) -/
opaque Config.reading : Nat → Nat → Nat

/-- `TILE_ECC.ADDR` for a vector or scale register's word: R160 gives it no address. (DESIGN CHOICE, log 112) -/
opaque Config.registerEccAddr : Nat → Nat

end Sys2Proof
end

