-- ==== Sys2Proof/Machine/Sha.lean ====
section
/-!
DEFINITION. The hash functions that the spec cites from FIPS 180-4: SHA-384 and SHA-256 (spec 00_scope R23; 05_frame R252;
17_bringup R765, R776), and HMAC with SHA-384 as FIPS 186-5 uses it (18_identity_health R802).
-/

namespace Sys2Proof.Machine

/-! ### Byte strings, most significant byte first -/

/-- The number of a byte string, most significant byte first. -/
def beNat (d : List Byte) : Nat := d.foldl (fun n b => 256 * n + b.toNat) 0

/-- `n` bytes of a number, most significant byte first. -/
def beBytes : Nat → Nat → List Byte
  | 0, _ => []
  | n + 1, v => beBytes n (v / 256) ++ [BitVec.ofNat 8 v]

/-! ### Constants: fractions of roots of primes -/

/-- The largest `r` with `r ^ k ≤ x`, bit by bit from bit `b` − 1 down. -/
def intRoot (k x : Nat) : Nat → Nat → Nat
  | 0, r => r
  | b + 1, r => intRoot k x b (if (r + 2 ^ b) ^ k ≤ x then r + 2 ^ b else r)

/-- The first 80 primes. -/
def shaPrimes : List Nat :=
  (List.range 410).filter fun n => decide (2 ≤ n) && (List.range n).all fun d => decide (d < 2) || decide (n % d ≠ 0)

/-- The first 64 bits of the fraction of a cube root. -/
def cubeFraction (p : Nat) : Nat := intRoot 3 (p * 2 ^ 192) 67 0 % 2 ^ 64
/-- The first 64 bits of the fraction of a square root. -/
def squareFraction (p : Nat) : Nat := intRoot 2 (p * 2 ^ 128) 69 0 % 2 ^ 64

/-! ### The two shapes of SHA-2 -/

/-- What FIPS 180-4 fixes for a word width: the rotations of Σ0, Σ1 and of σ0, σ1 (whose last one is a shift), the round
constants and the initial hash value. -/
structure Sha (w : Nat) where
  up0 : Nat × Nat × Nat
  up1 : Nat × Nat × Nat
  low0 : Nat × Nat × Nat
  low1 : Nat × Nat × Nat
  rounds : List (BitVec w)
  start : List (BitVec w)

def sha384Params : Sha 64 :=
  { up0 := (28, 34, 39), up1 := (14, 18, 41), low0 := (1, 8, 7), low1 := (19, 61, 6)
    rounds := shaPrimes.map fun p => BitVec.ofNat 64 (cubeFraction p)
    start := ((shaPrimes.drop 8).take 8).map fun p => BitVec.ofNat 64 (squareFraction p) }

def sha256Params : Sha 32 :=
  { up0 := (2, 13, 22), up1 := (6, 11, 25), low0 := (7, 18, 3), low1 := (17, 19, 10)
    rounds := (shaPrimes.take 64).map fun p => BitVec.ofNat 32 (cubeFraction p / 2 ^ 32)
    start := (shaPrimes.take 8).map fun p => BitVec.ofNat 32 (squareFraction p / 2 ^ 32) }

def upSigma {w : Nat} (k : Nat × Nat × Nat) (x : BitVec w) : BitVec w :=
  x.rotateRight k.1 ^^^ x.rotateRight k.2.1 ^^^ x.rotateRight k.2.2
def lowSigma {w : Nat} (k : Nat × Nat × Nat) (x : BitVec w) : BitVec w :=
  x.rotateRight k.1 ^^^ x.rotateRight k.2.1 ^^^ x >>> k.2.2

/-- One round on the working variables a to h and the window of 16 schedule words, the oldest first. -/
def Sha.round {w : Nat} (p : Sha w) (s : List (BitVec w) × List (BitVec w)) (k : BitVec w) : List (BitVec w) × List (BitVec w) :=
  let m := s.2
  let at_ := fun (i : Nat) => m.getD i 0
  let window := m.drop 1 ++ [lowSigma p.low1 (at_ 14) + at_ 9 + lowSigma p.low0 (at_ 1) + at_ 0]
  match s.1 with
  | [a, b, c, d, e, f, g, h] =>
    let t1 := h + upSigma p.up1 e + ((e &&& f) ^^^ (~~~e &&& g)) + k + at_ 0
    let t2 := upSigma p.up0 a + ((a &&& b) ^^^ (a &&& c) ^^^ (b &&& c))
    ([t1 + t2, a, b, c, d + t1, e, f, g], window)
  | v => (v, window)

/-- The hash value after one block of 16 words. -/
def Sha.block {w : Nat} (p : Sha w) (h m : List (BitVec w)) : List (BitVec w) :=
  List.zipWith (fun x y => x + y) h (p.rounds.foldl p.round (h, m)).1

/-- The padded message: a one bit, zeros, and its length in bits in two words. -/
def shaPad (w : Nat) (m : List Byte) : List Byte :=
  let n := m.length
  let blk := 2 * w
  let zeros := (2 * blk - (n + 1 + w / 4) % blk) % blk
  m ++ [0x80] ++ List.replicate zeros 0 ++ beBytes (w / 4) (8 * n)

/-- The `k`-th of the words of a byte string. -/
def wordBe (w : Nat) (d : List Byte) (k : Nat) : BitVec w := BitVec.ofNat w (beNat ((d.drop (k * (w / 8))).take (w / 8)))

/-- The words of the hash value of a message. -/
def Sha.hash {w : Nat} (p : Sha w) (m : List Byte) : List Byte :=
  let d := shaPad w m
  let out := (List.range (d.length / (2 * w))).foldl (fun h i =>
    let b := (d.drop (2 * w * i)).take (2 * w)
    p.block h ((List.range 16).map fun k => wordBe w b k)) p.start
  out.flatMap fun x => beBytes (w / 8) x.toNat

/-- SHA-384, 48 bytes (R23). (PRESUMED, log 14) -/
def sha384 (m : List Byte) : List Byte := (sha384Params.hash m).take 48

/-- SHA-256, 32 bytes (R765, R777). (PRESUMED, log 14) -/
def sha256 (m : List Byte) : List Byte := sha256Params.hash m

/-- HMAC with SHA-384 of a key of at most a block (R802). (PRESUMED, log 14) -/
def hmac384 (key m : List Byte) : List Byte :=
  let pad := fun (c : Byte) => (List.range 128).map fun i => key.getD i 0 ^^^ c
  sha384 (pad 0x5C ++ sha384 (pad 0x36 ++ m))

end Sys2Proof.Machine
end

