-- ==== Sys2Proof/Machine/Ecdsa.lean ====
section
/-!
DEFINITION. ECDSA over P-384 with SHA-384, as FIPS 186-5 lays it down: verification (spec 05_frame R252, R253; 17_bringup R777),
the check of a key (13_host_interface R612) and the deterministic signature of the device key (18_identity_health R802).
-/

namespace Sys2Proof.Machine

/-! ### The curve P-384 -/

/-- The prime of the field, 2^384 − 2^128 − 2^96 + 2^32 − 1. -/
def p384P : Nat := 2 ^ 384 - 2 ^ 128 - 2 ^ 96 + 2 ^ 32 - 1
/-- The order of the base point. -/
def p384N : Nat := 0xffffffffffffffffffffffffffffffffffffffffffffffffc7634d81f4372ddf581a0db248b0a77aecec196accc52973
/-- The coefficient b of y² = x³ − 3x + b. -/
def p384B : Nat := 0xb3312fa7e23ee7e4988e056be3f82d19181d9c6efe8141120314088f5013875ac656398d8a2ed19d2a85c8edd3ec2aef

/-- A point of the curve; none is the point at infinity. -/
abbrev CurvePoint := Option (Nat × Nat)

/-- The base point. -/
def p384G : CurvePoint :=
  some (0xaa87ca22be8b05378eb1c71ef320ad746e1d3b628ba79b9859f741e082542a385502f25dbf55296c3a545e3872760ab7,
        0x3617de4a96262c6f5d9e98bf9292dc29f8f41dbd289a147ce9da3113b5f0b8c00a60b1ce1d7e819d7a431d7c90ea0e5f)

/-- `b ^ e` modulo `m`, over the low `k` bits of `e`. -/
def powMod (m : Nat) : Nat → Nat → Nat → Nat
  | 0, _, _ => 1 % m
  | k + 1, b, e =>
    let r := powMod m k (b * b % m) (e / 2)
    if e % 2 = 1 then b * r % m else r

/-- The inverse of `a` modulo a prime `m` below 2^384. -/
def invMod (m a : Nat) : Nat := powMod m 384 (a % m) (m - 2)

/-- The sum of two points. -/
def curveAdd : CurvePoint → CurvePoint → CurvePoint
  | none, q => q
  | p, none => p
  | some (x, y), some (u, v) =>
    let m := p384P
    if x = u ∧ (y + v) % m = 0 then none
    else
      let slope := if x = u then (3 * x * x + (m - 3)) * invMod m (2 * y) % m else (v + (m - y)) * invMod m (u + (m - x)) % m
      let t := (slope * slope + (m - x) + (m - u)) % m
      some (t, (slope * (x + (m - t)) + (m - y)) % m)

/-- `k` times a point, over the low `n` bits of `k`. -/
def curveMul : Nat → Nat → CurvePoint → CurvePoint
  | 0, _, _ => none
  | n + 1, k, p =>
    let r := curveMul n (k / 2) p
    let d := curveAdd r r
    if k % 2 = 1 then curveAdd d p else d

/-- The coordinates in a 96-byte string, each most significant byte first (R253). -/
def keyPoint (key : List Byte) : Nat × Nat := (beNat (key.take 48), beNat ((key.drop 48).take 48))

/-- A 96-byte string is a point of P-384 (R612). (PRESUMED, log 14) -/
def p384Point (key : List Byte) : Bool :=
  let q := keyPoint key
  decide (q.1 < p384P) && decide (q.2 < p384P) && decide (q.2 * q.2 % p384P = (q.1 ^ 3 + (p384P - 3) * q.1 + p384B) % p384P)

/-! ### Signatures -/

/-- The ECDSA signature (R and S, most significant byte first) of a 48-byte hash verifies under a key (R252, R253, R777); a key
that is no point of the curve verifies nothing. (PRESUMED, log 14) -/
def ecdsaVerify (key hash sig : List Byte) : Bool :=
  let r := beNat (sig.take 48)
  let s := beNat ((sig.drop 48).take 48)
  let w := invMod p384N s
  let x := curveAdd (curveMul 384 (beNat hash * w % p384N) p384G) (curveMul 384 (r * w % p384N) (some (keyPoint key)))
  p384Point key && decide (1 ≤ r) && decide (r < p384N) && decide (1 ≤ s) && decide (s < p384N) &&
    match x with
    | none => false
    | some v => decide (v.1 % p384N = r)

/-- R and S with the per-message secret `k`; none where one of them is 0. -/
def ecdsaWith (priv hash k : Nat) : Option (Nat × Nat) :=
  let r := ((curveMul 384 k p384G).getD (0, 0)).1 % p384N
  let s := invMod p384N k * (hash + r * priv) % p384N
  if r = 0 ∨ s = 0 then none else some (r, s)

/-- The per-message secrets of the deterministic variant are tried in turn from the state K, V of its generator. -/
def ecdsaTry (priv hash : Nat) : Nat → List Byte → List Byte → Nat × Nat
  | 0, _, _ => (0, 0)
  | n + 1, key, v =>
    let v := hmac384 key v
    let k := beNat v
    match (if 1 ≤ k ∧ k < p384N then ecdsaWith priv hash k else none) with
    | some rs => rs
    | none =>
      let key := hmac384 key (v ++ [0x00])
      ecdsaTry priv hash n key (hmac384 key v)

/-- The deterministic ECDSA signature of a message, 96 bytes (R802, R816). (PRESUMED, log 14) -/
def ecdsaSign (priv : Nat) (m : List Byte) : List Byte :=
  let h := beNat (sha384 m)
  let seed := beBytes 48 priv ++ beBytes 48 (h % p384N)
  let v := List.replicate 48 (0x01 : Byte)
  let key := hmac384 (List.replicate 48 0) (v ++ [0x00] ++ seed)
  let v := hmac384 key v
  let key := hmac384 key (v ++ [0x01] ++ seed)
  let rs := ecdsaTry priv h 64 key (hmac384 key v)
  beBytes 48 rs.1 ++ beBytes 48 rs.2

/-! ### The device key (R801, R802) -/

/-- The private key, between 1 and the order less 1. -/
def devicePriv : Nat := 1 + Config.deviceKey % (p384N - 1)

/-- The public key, QX and QY (R802, R836). -/
def devicePub : List Byte :=
  let q := (curveMul 384 devicePriv p384G).getD (0, 0)
  beBytes 48 q.1 ++ beBytes 48 q.2

end Sys2Proof.Machine
end

