-- ==== Sys2Proof/Machine/Lms.lean ====
section
/-!
DEFINITION. LMS and HSS signatures of RFC 8554 with the types LMS_SHA256_M32_H20 and LMOTS_SHA256_N32_W4: verification (spec
17_bringup R777) and the device's two-level HSS key and signatures (18_identity_health R803, R804, R816).
-/

namespace Sys2Proof.Machine

/-- The types of LMS_SHA256_M32_H20 and LMOTS_SHA256_N32_W4 as RFC 8554 writes them. (PRESUMED, log 97) -/
def lmsTypes : List Byte := [0, 0, 0, 8, 0, 0, 0, 3]

/-- The height of a tree, and the elements of a one-time signature. -/
def lmsHeight : Nat := 20
def otsCount : Nat := 67

/-- The hash of RFC 8554's prefix (identifier, number, two-byte tag) and what follows it. -/
def lmsHash (id : List Byte) (n tag : Nat) (d : List Byte) : List Byte := sha256 (id ++ beBytes 4 n ++ beBytes 2 tag ++ d)

/-- The 4-bit digits of a byte string. -/
def nibbles (d : List Byte) : List Nat := d.flatMap fun b => [b.toNat / 16, b.toNat % 16]

/-- The 67 digits of a message's hash and its checksum, 4 bits each. -/
def otsDigits (q : List Byte) : List Nat :=
  let u := nibbles q
  u ++ (nibbles (beBytes 2 ((u.foldl (fun t a => t + (15 - a)) 0) * 16))).take 3

/-- Chain `i` of leaf `q`, `n` steps from step `j`. -/
def otsChain (id : List Byte) (q i : Nat) : Nat → Nat → List Byte → List Byte
  | 0, _, x => x
  | n + 1, j, x => otsChain id q i n (j + 1) (lmsHash id q i (beBytes 1 j ++ x))

/-- The one-time public key from the ends of its chains. -/
def otsKey (id : List Byte) (q : Nat) (ends : List (List Byte)) : List Byte := lmsHash id q 0x8080 ends.flatten

/-- The digits that a one-time signature with randomiser `c` of a message shows. -/
def otsMessage (id : List Byte) (q : Nat) (c m : List Byte) : List Nat := otsDigits (lmsHash id q 0x8181 (c ++ m))

/-- The leaf of a tree, and an inner node. -/
def lmsLeaf (id : List Byte) (q : Nat) (k : List Byte) : List Byte := lmsHash id (2 ^ lmsHeight + q) 0x8282 k
def lmsInner (id : List Byte) (n : Nat) (l r : List Byte) : List Byte := lmsHash id n 0x8383 (l ++ r)

/-- From node `n` and its value up to the root along a path. -/
def lmsClimb (id : List Byte) : Nat → List Byte → List (List Byte) → List Byte
  | _, x, [] => x
  | n, x, y :: r => lmsClimb id (n / 2) (if n % 2 = 1 then lmsInner id (n / 2) y x else lmsInner id (n / 2) x y) r

/-- Consecutive 32-byte strings. -/
def chunks32 (n : Nat) (d : List Byte) : List (List Byte) := (List.range n).map fun i => (d.drop (32 * i)).take 32

/-- An LMS signature of 2,828 bytes verifies under a public key of 56 bytes with the types above (R777). (PRESUMED, log 14) -/
def lmsVerify (pub m sig : List Byte) : Bool :=
  let id := (pub.drop 8).take 16
  let q := beNat (sig.take 4)
  let c := (sig.drop 8).take 32
  let y := chunks32 otsCount (sig.drop 40)
  let ends := (List.range otsCount).map fun i =>
    let a := (otsMessage id q c m).getD i 0
    otsChain id q i (15 - a) a (y.getD i [])
  let leaf := lmsLeaf id q (otsKey id q ends)
  let root := lmsClimb id (2 ^ lmsHeight + q) leaf (chunks32 lmsHeight (sig.drop 2188))
  decide (pub.take 4 = lmsTypes.take 4) && decide ((pub.drop 4).take 4 = lmsTypes.drop 4) && decide (pub.length = 56) &&
    decide (sig.length = 2828) && decide ((sig.drop 4).take 4 = lmsTypes.drop 4) &&
    decide ((sig.drop 2184).take 4 = lmsTypes.take 4) && decide (q < 2 ^ lmsHeight) && decide (root = pub.drop 24)

/-! ### The device's trees (R803, R804): tree 0 is the top one, tree k + 1 the bottom tree k -/

def treeId (t : Nat) : List Byte := (Config.hssId t).toList

/-- The start of chain `i` of leaf `q` (RFC 8554 Appendix A). -/
def otsSecret (t q i : Nat) : List Byte := lmsHash (treeId t) q i ([0xFF] ++ (Config.hssSeed t).toList)

/-- Node `n` of a tree, `l` levels above the leaves. -/
def treeNode (t : Nat) : Nat → Nat → List Byte
  | 0, n =>
    let q := n - 2 ^ lmsHeight
    lmsLeaf (treeId t) q (otsKey (treeId t) q ((List.range otsCount).map fun i => otsChain (treeId t) q i 15 0 (otsSecret t q i)))
  | l + 1, n => lmsInner (treeId t) n (treeNode t l (2 * n)) (treeNode t l (2 * n + 1))

/-- The LMS public key of a tree. -/
def treePub (t : Nat) : List Byte := lmsTypes ++ treeId t ++ treeNode t lmsHeight 1

/-- The LMS signature of a message with leaf `q` of a tree; its randomiser is derived from the secret and the leaf (R804). -/
def treeSign (t q : Nat) (m : List Byte) : List Byte :=
  let c := (Config.hssRandom t q).toList
  let y := (List.range otsCount).flatMap fun i => otsChain (treeId t) q i ((otsMessage (treeId t) q c m).getD i 0) 0 (otsSecret t q i)
  let path := (List.range lmsHeight).flatMap fun l => treeNode t l ((2 ^ lmsHeight + q) / 2 ^ l ^^^ 1)
  beBytes 4 q ++ lmsTypes.drop 4 ++ c ++ y ++ lmsTypes.take 4 ++ path

/-- The 60 bytes of the HSS public key (R803, R836). (PRESUMED, log 14) -/
def devicePubHss : List Byte := beBytes 4 2 ++ treePub 0

/-- The HSS signature of a message with leaf `q` of bottom tree `k`, 5,716 bytes (R804, R816). (PRESUMED, log 14) -/
def hssSign (k q : Nat) (m : List Byte) : List Byte :=
  let pub := treePub (k + 1)
  beBytes 4 1 ++ treeSign 0 k pub ++ pub ++ treeSign (k + 1) q m

end Sys2Proof.Machine
end

