-- ==== Sys2Proof/Machine/State.lean ====
section
/-!
DEFINITION. The state of the block as plain data, and the state right after reset. Every host-visible register that
stores bits is held in `State.regs` (its map is Machine/RegMap.lean); the rest of the state has typed fields here.
-/

namespace Sys2Proof.Machine

/-- Why a command stops. No meaning of this model raises a fault. -/
inductive Fault where
  /-- Not raised: every command of the table has an effect that the spec gives. Safe. -/
  | none
deriving DecidableEq, Repr

/-- Why a command has no meaning. -/
inductive Refusal where
  /-- The command of this mnemonic has no meaning yet (Machine/Dispatch.lean raises it). Safe. -/
  | notModelled (mnemonic : String)
deriving DecidableEq, Repr

/-- Event severities (R20). -/
inductive Severity where
  | info | degraded | partitionFatal | moduleFatal
deriving DecidableEq, Repr

/-- A raised event (R20, R543). -/
structure Event where
  code : BitVec 16
  sev : Severity
  part : Nat
  tide : Word
  ops : List Nat
deriving DecidableEq, Repr

/-- What the module sends to the outside: register-read and BAR2 replies, host memory writes (with the EP bit),
MSI-X messages, I3C bytes, Stesum packets and flits, the boot image requests. Newest first in `State.out`.
(DESIGN CHOICE, log 71) -/
inductive Output where
  | regData (f off : Nat) (v : Word)
  | bar2Data (f : Nat) (data : List Byte) (ep : Bool)
  | hostWrite (f addr : Nat) (data : List Byte) (ep : Bool)
  | msix (f vector : Nat)
  | i3cData (data : List Byte)
  | jnrData (pair : Nat) (v : Word)
  | stlFlit (port : Nat) (f : StlFlit)
  | stlPacket (h : PutHeader) (data : List Byte)
  | returnWord (r : PT) (d : Dir) (w : BitVec 16)
  | meshFlit (r : PT) (d : Dir) (f : Flit)
deriving DecidableEq, Repr

/-! ### The tile -/

/-- The sequencer states of `TILE_STATE.SEQ` and OFF (R151). -/
inductive Seq where
  | off | reset | idle | run | blocked | halted | fault | plumb
deriving DecidableEq, Repr

/-- An address register (R104). -/
structure AddrReg where
  cur : BitVec 16
  stride : BitVec 16
deriving DecidableEq, Repr

/-- A scale register (R104, R138 to R140); lengths are 1 to 16. -/
structure ScaleReg where
  active : List Byte
  len : Nat
  cursor : Nat
  shadow : List Byte
  shadowLen : Nat
  loaded : Bool
deriving DecidableEq, Repr

/-- An active hardware loop (R104, R132 to R134): level, remaining trips, first and last index of its body, and its
UNT check. Level 4 is the running alternative of a BSEL (R135): `cnt` is the index where all four end. -/
structure LoopReg where
  lvl : Nat
  cnt : Nat
  first : Nat
  last : Nat
  unt : Bool
  uq : Nat
  utk : Nat
deriving DecidableEq, Repr

/-- The pack register (R104, R143): its bits and how many of them are held. -/
structure Pack where
  bits : Quad
  count : Nat
deriving DecidableEq, Repr

/-- Drain modes (R201). -/
inductive DrainMode where
  | boundary | immediate | purge
deriving DecidableEq, Repr

/-- The producer side of a queue: credits, phase, sequence number and hold (R167, R169, R200, R201, R869); `atStop`: it
has passed a stop point of boundary mode; `closers`: the inlets that asked it to close, each with the EP of its request
(R279). -/
structure Producer where
  credits : Nat
  phase : Bool
  seq : BitVec 4
  sent : Nat
  unacked : Nat
  atStop : Bool
  closing : Option DrainMode
  held : Bool
  closers : List (Node × Bool)
deriving DecidableEq, Repr

/-- An output port: its descriptor image (R160), write cursor (R161) and producer state. -/
structure Port where
  desc : Word
  cursor : BitVec 16
  prod : Producer
deriving DecidableEq, Repr

/-- A queue entry: payload, TOK, EP (R165), and the credit phase of its sender (R869). -/
structure QEntry where
  data : Quad
  tok : Bool
  ep : Bool
  phase : Bool
deriving DecidableEq, Repr

/-- A basin chunk: its number in the basin, its entries and whether its header is committed (R193, R197). -/
structure Chunk where
  num : Nat
  entries : List QEntry
  committed : Bool
deriving DecidableEq, Repr

/-- An input queue: visible entries in order, entries that arrived early by sequence number (none for a number that counts
as arrived without an entry, R212), the next number expected, the spill segment with the cell of its head, and basin chunks
(R169, R186 to R193), and the recall of its inlet (R200). -/
structure Queue where
  fifo : List QEntry
  early : List (Nat × Option QEntry)
  next : BitVec 4
  seg : List QEntry
  segAt : Nat
  chunks : List Chunk
  accepted : Nat
  popped : Nat
  closed : Bool
  recalled : Option (Nat × Nat)
  confirmed : Bool
deriving DecidableEq, Repr

/-- A write that waits for its full slots to empty (R150): address, bytes, and how many parked requests began to wait
before it (R119). -/
structure Writeback where
  addr : Nat
  data : List Byte
  ahead : Nat
deriving DecidableEq, Repr

/-- The slots on which the micro-op at PC waits, the tag it needs of them, and how many parked requests began to wait before
it (R119). -/
structure Waiter where
  slots : List Nat
  full : Bool
  ahead : Nat
deriving DecidableEq, Repr

/-- A request to be issued again (R124, R299), and the earliest Tide of it. -/
structure Reissue where
  req : Packet
  at_ : Nat
deriving DecidableEq, Repr

/-- The memories of `TILE_ECC.MEM` (R160). -/
inductive MemKind where
  | wm | am | pm | im | queue | regs
deriving DecidableEq, Repr

/-- What the code finds at a damaged word when it is read (R157, R159). -/
inductive SramErr where
  | corrected | uncorrectable
deriving DecidableEq, Repr

/-- The tile's physical condition, set by nothing in this model: a MAC datapath whose residues mismatch (R101), and the
damaged words under the code (R155, R156): a word of a memory by its tile-local address, of queue storage by
256 × queue + 16 × entry + 8 × half, of the registers by `vWord`, `aWord` and `kWord`. (DESIGN CHOICE, log 22) -/
structure Defects where
  mac : Bool
  sram : List (MemKind × Nat × SramErr)
deriving DecidableEq, Repr

/-- The registers of R104 beside the memories. -/
structure TileRegs where
  v : Tab Quad
  a : Tab AddrReg
  k0 : ScaleReg
  k1 : ScaleReg
  loops : List LoopReg
  pack : Pack
  ports : Tab Port
  srix0 : BitVec 48
  srix1 : BitVec 48
deriving DecidableEq, Repr

/-- The end-of-iteration checks that a retiring micro-op waits in: the index at which execution goes on, the token kind found
and the levels ended so far (R175, R507). -/
structure Check where
  next : Nat
  kind : Nat
  ended : Nat
deriving DecidableEq, Repr

/-- A micro-op that has had its effect and waits for the response of its memory write through a port (R124 to R126): its
opcode, the index at which execution goes on, its token kind and the port. -/
structure Finish where
  op : Nat
  next : Nat
  kind : Nat
  port : Nat
deriving DecidableEq, Repr

/-- The sequencer (R151, R160) and its progress state (R182, R184, R506); `check`: the end-of-iteration check of the
innermost loop waits (R175); `arrived`: the WEIR, FLOAT or RGET at PC has been sent (R309, R317,
R137); `done`: the micro-op at PC waits for its write's response; `lost`: an error response that is not retried has come, so
it stays blocked (R125); `paused`: the tile was halted while BLOCKED and its stall age is kept (R184). -/
structure TileSeq where
  seq : Seq
  before : Seq
  inv : Bool
  pc : BitVec 10
  blk : Nat
  blkarg : Nat
  fcause : Nat
  check : Option Check
  arrived : Bool
  done : Option Finish
  lost : Bool
  paused : Bool
  progress : BitVec 32
  stall : Nat
  stallSince : Option Nat
  sigSeq : Dword
  sigChk : Dword
deriving DecidableEq, Repr

/-- The tile's remote-access port and requests (R123, R124, R150, R202): parked requests in the order they began to wait,
requests and memory writes sent and not answered, requests to issue again, held writebacks, what the micro-op at PC waits on,
the data that an RGET has got, and the next requester's tag. -/
structure TileReq where
  parked : List Packet
  out : List Packet
  reissues : List Reissue
  held : List Writeback
  waiting : Option Waiter
  got : Option (List Byte)
  tag : BitVec 6
deriving DecidableEq, Repr

/-- `TILE_CFG`, `TILE_XSTAT`, `TILE_ECC`, the Frame generation of the tile, and its plumb record
(R102, R160, R219, R512, R515, R522, R546). -/
structure TileCfg where
  entry : BitVec 9
  startq : BitVec 3
  ceLim : BitVec 8
  gen : BitVec 16
  xstat : BitVec 8
  rangeStep : Option Word
  ce : BitVec 16
  ue : BitVec 8
  eccMem : BitVec 3
  eccAddr : BitVec 16
deriving DecidableEq, Repr

/-- The plumb record of a tile (R512, R515, R522, R546). -/
structure TilePlumb where
  last : Nat
  lastPass : Option Nat
  lastRes : Nat
  seed : Nat
  intensUntil : Option Nat
  forced : Bool
  idleAt : Nat
  late : Bool
  served : List Nat
  quietAtStart : Bool
deriving DecidableEq, Repr

/-- One physical tile (R104, R107 to R112). `mem` holds the tile-local bytes of WM, AM, PM and IM. -/
structure Tile where
  r : TileRegs
  mem : List Host.Cell
  amTag : BitVec 192
  pmTag : BitVec 256
  queues : Tab Queue
  s : TileSeq
  q : TileReq
  c : TileCfg
  plumb : TilePlumb
  defects : Defects
deriving DecidableEq, Repr

def AddrReg.reset : AddrReg := { cur := 0, stride := 0 }
def ScaleReg.reset : ScaleReg :=
  { active := List.replicate 16 0, len := 16, cursor := 0, shadow := List.replicate 16 0, shadowLen := 16,
    loaded := false }
/-- A port before its first restore: no credits (R167, R870). -/
def Producer.reset : Producer :=
  { credits := 0, phase := false, seq := 0, sent := 0, unacked := 0, atStop := true, closing := none, held := false,
    closers := [] }
def Port.reset : Port := { desc := 0, cursor := 0, prod := Producer.reset }
def Queue.reset : Queue :=
  { fifo := [], early := [], next := 0, seg := [], segAt := 0, chunks := [], accepted := 0, popped := 0, closed := false,
    recalled := none, confirmed := false }
def TileRegs.reset : TileRegs :=
  { v := [], a := [], k0 := ScaleReg.reset, k1 := ScaleReg.reset, loops := [], pack := { bits := 0, count := 0 },
    ports := [], srix0 := 0, srix1 := 0 }
def TileSeq.reset : TileSeq :=
  { seq := .off, before := .idle, inv := false, pc := 0, blk := 0, blkarg := 0, fcause := 0, check := none, arrived := false,
    done := none, lost := false, paused := false, progress := 0, stall := 0, stallSince := none, sigSeq := 0xFFFFFFFF, sigChk := 0xFFFFFFFF }
def TileReq.reset : TileReq := { parked := [], out := [], reissues := [], held := [], waiting := none, got := none, tag := 0 }
def TileCfg.reset : TileCfg :=
  { entry := 0, startq := 0, ceLim := 16, gen := 0, xstat := 0, rangeStep := none, ce := 0, ue := 0,
    eccMem := 0, eccAddr := 0 }
def TilePlumb.reset : TilePlumb :=
  { last := 0, lastPass := none, lastRes := 0, seed := 0, intensUntil := none, forced := false, idleAt := 0, late := false,
    served := [], quietAtStart := false }
/-- A tile of an unpowered bay: OFF, nothing written. (DESIGN CHOICE, log 6) -/
def Tile.reset : Tile :=
  { r := TileRegs.reset, mem := [], amTag := 0, pmTag := 0, queues := [], s := TileSeq.reset, q := TileReq.reset,
    c := TileCfg.reset, plumb := TilePlumb.reset, defects := { mac := false, sram := [] } }

/-! ### The fabric -/

/-- The states of a link direction (R283). -/
inductive LinkState where
  | credit | onoff | resync | down
deriving DecidableEq, Repr

/-- One port of a router, to a neighbour or to a rim gateway (R270, R324): its sending direction with the credits spent by
VC, STOP bits and replay buffer, and its receiving direction with the LSEQ expected, the flits that wait in its buffers by VC
and the STOP bits asserted (R274, R281, R283 to R285); `slow`: each attempt to resynchronise waits 1 ms. -/
structure Link where
  st : LinkState
  spent : Tab Nat
  stop : BitVec 8
  txSeq : BitVec 6
  replay : List Flit
  fails : Nat
  rxSeq : BitVec 6
  discarding : Bool
  bufs : Tab (List Flit)
  stopOut : BitVec 8
  rsFails : Nat
  resyncGot : List (Nat × Nat)
  slow : Bool
  downAt : Nat
  downs : List Nat
deriving DecidableEq, Repr

/-- A member's row in a router's weir table: its parent and its children in the group's tree (R311). -/
structure WeirRow where
  wid : Nat
  parent : Option LT
  kids : List LT
deriving DecidableEq, Repr

/-- A row of a router's float table: the home of the float, and at the home the tiles it notifies (R316, R317). -/
structure FloatRow where
  fid : Nat
  home : LT
  notify : List LT
deriving DecidableEq, Repr

/-- A fountain node: its tile, its parent's number, its leaf queue (R244). -/
structure FountNode where
  t : LT
  parent : Nat
  q : Nat
  leaf : Bool
deriving DecidableEq, Repr

structure FountRec where
  fid : Nat
  nodes : List FountNode
deriving DecidableEq, Repr

/-- One version of a router's fountain-node, weir and float tables (R297). -/
structure FabTables where
  founts : List FountRec
  weirs : List WeirRow
  floats : List FloatRow
deriving DecidableEq, Repr

def FabTables.empty : FabTables := { founts := [], weirs := [], floats := [] }

/-- A router: `FAB_EPOCH`, `FAB_LINKCNT`, `FAB_CNT`, its links, the flits of packets that its tile has sent and that wait to
leave, by VC, the two versions of its tables (R293, R294, R297, R328), its generator (R289) and the stamps of its FAB_BAD_OP
events (R549). -/
structure Router where
  gen : BitVec 16
  tv : Bool
  ep : Bool
  links : Tab Link
  inject : Tab (List Flit)
  retry : BitVec 16
  onoff : BitVec 16
  rsfail : BitVec 16
  epdisc : BitVec 32
  divert : BitVec 32
  scarf0 : Tab (Word × Word)
  scarf1 : Tab (Word × Word)
  fab0 : FabTables
  fab1 : FabTables
  rng : Dword
  badOps : List Nat
deriving DecidableEq, Repr

def Link.reset : Link :=
  { st := .credit, spent := [], stop := 0, txSeq := 0, replay := [], fails := 0, rxSeq := 0, discarding := false, bufs := [],
    stopOut := 0, rsFails := 0, resyncGot := [], slow := false, downAt := 0, downs := [] }
/-- A router after power-up. (DESIGN CHOICE, log 6) -/
def Router.reset : Router :=
  { gen := 0, tv := false, ep := false, links := [], inject := [], retry := 0, onoff := 0, rsfail := 0, epdisc := 0, divert := 0,
    scarf0 := [], scarf1 := [], fab0 := FabTables.empty, fab1 := FabTables.empty, rng := 0, badOps := [] }

/-! ### The Frame -/

/-- A rectangle of logical tiles (R225). -/
structure Rect where
  x0 : Nat
  y0 : Nat
  x1 : Nat
  y1 : Nat
deriving DecidableEq, Repr

structure RegionRec where
  rect : Rect
  region : Nat
deriving DecidableEq, Repr

structure ProgramRec where
  id : Nat
  ops : List Word
deriving DecidableEq, Repr

structure PortRec where
  port : Nat
  mode : Nat
  dx : Int
  dy : Int
  image : Word
deriving DecidableEq, Repr

structure TilesetRec where
  rect : Rect
  prog : Nat
  entry : Nat
  startq : Nat
  ceLim : Nat
  base0 : Nat
  dx0 : Int
  dy0 : Int
  base1 : Nat
  dx1 : Int
  dy1 : Int
  ports : List PortRec
deriving DecidableEq, Repr

structure WmloadRec where
  rect : Rect
  wmaddr : Nat
  streamable : Bool
  inline : Bool
  len : Nat
  tid : Nat
  fid : Nat
  off : Nat
  data : List Byte
deriving DecidableEq, Repr

/-- The producer of a queue (R238). -/
inductive ProdRec where
  | port (t : LT) (port : Nat)
  | fountain (fid : Nat)
  | gateway (tid : Nat)
deriving DecidableEq, Repr

structure QueueRec where
  t : LT
  q : Nat
  prod : ProdRec
  inlet : Bool
  start : Bool
deriving DecidableEq, Repr

/-- A ROUTES record (R241). -/
inductive RouteRec where
  | spread (region mx my : Nat) (direct : Bool) (maxhop : Nat)
  | affinity (region peer weight : Nat)
deriving DecidableEq, Repr

structure WeirRec where
  wid : Nat
  sig : Bool
  rects : List Rect
deriving DecidableEq, Repr

structure FloatRec where
  fid : Nat
  init : Bool
deriving DecidableEq, Repr

structure TensorRec where
  tid : Nat
  fmt : Nat
  scl : Nat
  rank : Nat
  role : Nat
  layer : Nat
  hasLayer : Bool
  persist : Bool
  dims : List Nat
deriving DecidableEq, Repr

structure LayerRec where
  layer : Nat
  rule : Nat
  variant : Nat
  fallback : Nat
  freeze : Bool
  fp64 : Bool
  sight : Bool
  root : Nat
  refresh : Nat
  w : Nat
  rt : Nat
  g : Nat
  st : Nat
  h : List Dword
deriving DecidableEq, Repr

/-- A decoded Frame (R216 to R250). -/
structure Frame where
  gen : BitVec 16
  policy : Dword
  seed : Word
  sightK : Nat
  maxhop : Nat
  stepWeir : Nat
  signedBy : Option Nat
  baymap : Nat
  regions : List RegionRec
  programs : List ProgramRec
  tilesets : List TilesetRec
  wmloads : List WmloadRec
  queues : List QueueRec
  routes : List RouteRec
  founts : List FountRec
  weirs : List WeirRec
  floats : List FloatRec
  tensors : List TensorRec
  layers : List LayerRec
deriving DecidableEq, Repr

def Frame.empty : Frame :=
  { gen := 0, policy := 0, seed := 0, sightK := 0, maxhop := 1, stepWeir := 0xFFFF, signedBy := none, baymap := 0,
    regions := [], programs := [], tilesets := [], wmloads := [], queues := [], routes := [], founts := [],
    weirs := [], floats := [], tensors := [], layers := [] }

/-- An HBM allocation (R366, R437): its partition address and bytes. -/
structure Alloc where
  base : Nat
  size : Nat
  stack : Option Nat
deriving DecidableEq, Repr

/-! ### The partition -/

/-- Region states (R203). -/
inductive RegionState where
  | opened | closing | emptying | stuck | purging | drained
deriving DecidableEq, Repr

structure Region where
  st : RegionState
  mode : DrainMode
  goAt : Nat
deriving DecidableEq, Repr

/-- A weir group (R308 to R313): the phase of its last release, the nodes that have not passed that release yet, the
arrivals received at nodes in this phase (node, child; a node's own arrival is the pair of itself), arrivals of the next
phase held at a node, arrivals on their way that a purge has withdrawn (R313), Tide of the first arrival, and the root's hold of STEP_WEIR (R526). Tiles are numbered
1,440 y + x. -/
structure Weir where
  phase : Bool
  behind : List Nat
  arrived : List (Nat × Nat)
  early : List (Nat × Nat)
  withdrawn : List (Nat × Nat)
  firstAt : Nat
  heldAt : Option Nat
  timedOut : Bool
deriving DecidableEq, Repr

/-- A float (R316, R317): value, change count and home, each tile's shadow, and notifications that came before their
turn (tile, count, value). -/
structure Float where
  value : Bool
  count : BitVec 16
  home : LT
  shadows : Tab (Bool × BitVec 16)
  early : List (Nat × BitVec 16 × Bool)
deriving DecidableEq, Repr

/-- The counts of one credit phase at a node of a fountain tree (R304, R869): entries credited and acknowledged by its leaf
and children, and passed on. -/
structure FCounts where
  credits : Tab Nat
  acks : Tab Nat
  credited : Nat
  acked : Nat
deriving DecidableEq, Repr

/-- A node of a fountain tree: its counts for the entries of phase 0 and of phase 1. -/
structure FNode where
  low : FCounts
  high : FCounts
deriving DecidableEq, Repr

/-- A streamable window's progress (R359 to R363): the fill it holds, and a fill being written. -/
structure Window where
  fill : Nat
  writing : Option Nat
deriving DecidableEq, Repr

/-- A rim gateway's binding (R240, R615): pending triggers, the entry next to be sent, and its producer port. -/
structure Gateway where
  triggers : Nat
  pos : Option Nat
  started : Bool
  prod : Producer
deriving DecidableEq, Repr

/-- Layer states (R398). -/
inductive LayerState where
  | idle | ready | held | compute | staged | copying | frozen
deriving DecidableEq, Repr

/-- A staged update (R411, R412): where its record lies in the partition's HBM, its fields and its staged arrays. -/
structure Staged where
  addr : Nat
  off : Nat
  order : Nat
  step : Word
  upd : BitVec 48
  fallback : Bool
  refreshed : Bool
  committed : Bool
  digest : Word
deriving DecidableEq, Repr

/-- A layer (R389 to R398, R422, R429, R531). -/
structure Layer where
  st : LayerState
  count : Nat
  upd : BitVec 48
  frz : Option Bool
  refPend : Bool
  fbLast : Bool
  digest : Word
  dstep : Word
  readyAt : Nat
  engine : Nat
  granted : Bool
  staged : Option Staged
  gradStep : Word
deriving DecidableEq, Repr

/-- Dry-fit phases of `PRT_COMMIT_STAT.DFSTATE` (R545). -/
inductive DfState where
  | none | placing | waiting | replaying | comparing
deriving DecidableEq, Repr

/-- The step-commit record (R523 to R532): suspicion, the settle deadline, the dry fit in progress, what step s began
with, and the boundaries of the last steps. -/
structure Commit where
  suspect : Bool
  suspectAt : Nat
  cause : BitVec 16
  named : List LT
  fencedNow : List LT
  df : DfState
  tries : Nat
  digests : Tab Word
  trials : Tab PT
  startFloats : Tab Bool
  startFills : Tab Nat
  bounds : List (Nat × Nat × Nat)
  beganAt : Nat
  settled : Bool
  gapRaised : Bool
  sigAt : Tab Nat
  begun : Bool
deriving DecidableEq, Repr

/-- The states of `PRT_HEAL_STAT.STATE` (R582). -/
inductive HealState where
  | none | purging | placing | loading | reopening | stopped
deriving DecidableEq, Repr

/-- Healing (R559 to R564, R575): state, why it stopped, logical tiles whose host was lost, detection Tide, restarts. -/
structure Heal where
  st : HealState
  remapStop : Bool
  lost : List LT
  at_ : Nat
  restarts : List Nat
deriving DecidableEq, Repr

/-- Put entry status (R680). -/
inductive PutStatus where
  | idle | held | sending | done | window | nopart | noRoute | timeout | aborted
deriving DecidableEq, Repr

/-- A put entry (R662 to R671): its settings, status and the instance in progress; `busy`: chunks answered BUSY; `unsent`: chunks
that wait for the end of a halt (R756). -/
structure Put where
  spa : BitVec 48
  dst : Dword
  len : BitVec 31
  dpart : BitVec 4
  dpa : BitVec 48
  armed : Bool
  hold : Bool
  wen : Bool
  wid : BitVec 12
  dfid : BitVec 16
  status : PutStatus
  step : Word
  startAt : Nat
  eager : Bool
  busy : List Nat
  unsent : List Nat
deriving DecidableEq, Repr

def Put.reset : Put :=
  { spa := 0, dst := 0, len := 1, dpart := 0, dpa := 0, armed := false, hold := true, wen := false, wid := 0,
    dfid := 0xFFFF, status := .idle, step := 0, startAt := 0, eager := false, busy := [], unsent := [] }

/-- The identity of a put instance (R667). -/
structure PutId where
  src : Dword
  spart : Nat
  entry : Nat
  step : Word
deriving DecidableEq, Repr

/-- An open inbound instance (R667): its identity, the chunks received, whether it is only tracked to be answered. -/
structure Inbound where
  id : PutId
  got : List Nat
  dup : Bool
deriving DecidableEq, Repr

/-- Sighting exchange (R537 to R541): digests received per peer entry, the deadline, a minority's hold. -/
structure Sight where
  open_ : Bool
  step : Word
  deadline : Nat
  peers : Tab (Tab Word)
  own : Tab Word
  resync : List Nat
deriving DecidableEq, Repr

/-- What a partition owns and runs (R596 to R599); `copy`: the Frame bytes that a command being validated or applied has
copied (R255); `fhash`: FHASH of the applied Frame (R815); `map`: the off-home list as last published (R372); `moved`: the
logical tiles whose host has changed since then (R371). -/
structure PartOwn where
  present : Bool
  placed : Bool
  stopped : Bool
  poisoned : Bool
  schedule : List Nat
  lastFrame : Option Frame
  frame : Option Frame
  copy : Option (List Byte)
  store : Option Alloc
  allocs : Tab Alloc
  fhash : List Byte
  map : List Word
  moved : List LT
deriving DecidableEq, Repr

/-- What runs in a partition: its regions, weirs, floats, fountain nodes, windows and gateways; `map0` and `map1` are the two
versions of the full map by which rim gateways and Joiners send, each logical tile's host and DEP, and `mapTv` selects one
(R296). -/
structure PartRun where
  regions : Tab Region
  selRegion : Nat
  weirs : Tab Weir
  floats : Tab Float
  fnodes : Tab FNode
  windows : Tab Window
  gateways : Tab Gateway
  chunksUsed : Nat
  map0 : Tab (PT × Bool)
  map1 : Tab (PT × Bool)
  mapTv : Bool
deriving DecidableEq, Repr

/-- The Plane of a partition; `recs` holds the UPD of the last commit record by W_TID (R389, R412). -/
structure PartPlane where
  layers : Tab Layer
  recs : Tab (BitVec 48)
  stagedCount : Nat
  latched : Option (Word × Dword)
  staleRaised : Option Word
  firstReadyAt : Option Nat
deriving DecidableEq, Repr

structure Part where
  own : PartOwn
  run : PartRun
  pln : PartPlane
  commit : Commit
  heal : Heal
  puts : Tab Put
  inbound : List Inbound
  doneIds : List PutId
  sight : Sight
  queued : List LT
deriving DecidableEq, Repr

def Region.reset : Region := { st := .drained, mode := .purge, goAt := 0 }
def Weir.reset : Weir :=
  { phase := false, behind := [], arrived := [], early := [], withdrawn := [], firstAt := 0, heldAt := none, timedOut := false }
def Float.reset : Float := { value := false, count := 0, home := { x := 0, y := 0 }, shadows := [], early := [] }
def FCounts.reset : FCounts := { credits := [], acks := [], credited := 0, acked := 0 }
def FNode.reset : FNode := { low := FCounts.reset, high := FCounts.reset }
def Window.reset : Window := { fill := 0, writing := none }
def Gateway.reset : Gateway := { triggers := 0, pos := none, started := false, prod := Producer.reset }
def Layer.reset : Layer :=
  { st := .idle, count := 0, upd := 0, frz := none, refPend := false, fbLast := false, digest := 0, dstep := 0,
    readyAt := 0, engine := 0, granted := false, staged := none, gradStep := 0 }
def Commit.reset : Commit :=
  { suspect := false, suspectAt := 0, cause := 0, named := [], fencedNow := [], df := .none, tries := 0, digests := [], trials := [],
    startFloats := [], startFills := [], bounds := [], beganAt := 0, settled := false, gapRaised := false, sigAt := [],
    begun := false }
def Heal.reset : Heal := { st := .none, remapStop := false, lost := [], at_ := 0, restarts := [] }
def Sight.reset : Sight := { open_ := false, step := 0, deadline := 0, peers := [], own := [], resync := [] }
def PartOwn.reset : PartOwn :=
  { present := false, placed := false, stopped := false, poisoned := false, schedule := [], lastFrame := none,
    frame := none, copy := none, store := none, allocs := [], fhash := [], map := [], moved := [] }
def PartRun.reset : PartRun :=
  { regions := [], selRegion := 0, weirs := [], floats := [], fnodes := [], windows := [], gateways := [],
    chunksUsed := 0, map0 := [], map1 := [], mapTv := false }
def PartPlane.reset : PartPlane :=
  { layers := [], recs := [], stagedCount := 0, latched := none, staleRaised := none, firstReadyAt := none }
def Part.reset : Part :=
  { own := PartOwn.reset, run := PartRun.reset, pln := PartPlane.reset, commit := Commit.reset, heal := Heal.reset,
    puts := [], inbound := [], doneIds := [], sight := Sight.reset, queued := [] }

/-! ### Memory stacks, Plane engines, flumes -/

/-- An HBM stack's state beside its registers (R433, R445, R452 to R456): trained, the poisoned blocks, the bytes in
error of damaged blocks and what is added to them (its physical condition), the scrub position, and the Tide of past corrections and
uncorrectable blocks. -/
structure Stack where
  up : Bool
  poison : List Nat
  errs : Tab (List (Nat × Nat))
  scrubPos : Nat
  scrubbing : Bool
  passPoisoned : Nat
  passPeriod : Nat
  ceHist : List (Nat × Nat × Nat)
  ueHist : List Nat
  ceRaised : Tab Nat
  lineRaised : Tab Nat
  ueRaised : Option Nat
  suspect : Bool
  savedPeriod : Nat
deriving DecidableEq, Repr

/-- A Plane engine (R378, R380, R421, R430): its work, the stamps of its mismatches, whether a ring scan is due (R558), the 64-bit
words of its SRAM and the symbols in error of damaged ones (its physical condition). -/
structure Engine where
  part : Nat
  layer : Nat
  work : Nat
  mismatches : List Nat
  scanned : Bool
  sram : Tab Word
  sramErrs : Tab Nat
deriving DecidableEq, Repr

/-- A copy on a flume (R622): the function and sequence number that asked for it and its operands. -/
structure Copy where
  f : Nat
  seq : Dword
  part : Nat
  toHost : Bool
  host : Nat
  pa : Nat
  len : Nat
deriving DecidableEq, Repr

def Stack.reset : Stack :=
  { up := false, poison := [], errs := [], scrubPos := 0, scrubbing := false, passPoisoned := 0, passPeriod := 24,
    ceHist := [], ueHist := [], ceRaised := [], lineRaised := [], ueRaised := none, suspect := false,
    savedPeriod := 24 }
def Engine.reset : Engine := { part := 0, layer := 0, work := 0, mismatches := [], scanned := true, sram := [], sramErrs := [] }

/-! ### The host interface -/

/-- A command record in a slot: which dwords have been written, and the 64 bytes (R601 to R603). -/
structure Slot where
  mask : BitVec 16
  bytes : BitVec 512
deriving DecidableEq, Repr

/-- An accepted command that has not completed (R604, R607). -/
structure Cmd where
  seq : Dword
  opcode : BitVec 16
  irq : Bool
  vector : Nat
  tag : Word
  bytes : BitVec 512
  begun : Bool
deriving DecidableEq, Repr

/-- A completion or an event entry that waits for a log (R606, R620). -/
structure Func where
  slots : Tab Slot
  inflight : List Cmd
  waiting : List (Nat × List Byte)
  events : List Event
  lost : Bool
  msix : Tab (Word × Dword × Bool)
  msixPend : Word
  bar2Log : Nat
  dmaAt : Option Nat
  rateAt : Option Nat
deriving DecidableEq, Repr

def Slot.reset : Slot := { mask := 0, bytes := 0 }
def Func.reset : Func :=
  { slots := [], inflight := [], waiting := [], events := [], lost := false, msix := [], msixPend := 0, bar2Log := 30,
    dmaAt := none, rateAt := none }

/-- The PCIe link (R584, R633). -/
structure Pcie where
  up : Bool
  ltssm : BitVec 8
  width : Nat
  rate : Nat
  flit : Bool
  everUp : Bool
deriving DecidableEq, Repr

/-! ### Joiners and sluice messages -/

/-- A record in a basin (R480): message or skip, its unit and units, and whether it has been written.
(DESIGN CHOICE, log 53) -/
structure SlRec where
  skip : Bool
  src : BitVec 16
  tag : BitVec 16
  units : Nat
  len : Nat
  seq : BitVec 16
  tide : Dword
  payload : List Byte
  pos : Nat
  written : Bool
deriving DecidableEq, Repr

/-- A basin (R477 to R479, R482, R487): its register fields, size in units, write position, credits at the source,
credits on their way back, and its records, oldest first. -/
structure Basin where
  en : Bool
  sz : BitVec 4
  src : BitVec 16
  st : BitVec 2
  base : BitVec 19
  units : Nat
  w : Nat
  cr : Nat
  returning : Nat
  recs : List SlRec
  seqs : Tab (BitVec 16)
deriving DecidableEq, Repr

/-- A send that waits for credits (R482, R496). -/
structure SlSend where
  dst : BitVec 16
  tag : BitVec 16
  payload : List Byte
  since : Nat
  reported : Bool
deriving DecidableEq, Repr

/-- The counts of one stream (R495). -/
structure Stream where
  dst : BitVec 16
  tag : BitVec 16
  msgs : BitVec 32
  stalls : BitVec 32
  waitus : BitVec 32
deriving DecidableEq, Repr

/-- A sluice endpoint's send port: the waiting send and its stream counts (R495, R501). -/
structure SendPort where
  waiting : Option SlSend
  streams : List Stream
  overflow : Stream
  sendAddr : BitVec 19
  sendRes : BitVec 3
deriving DecidableEq, Repr

/-- A Joiner core (R462, R465): its registers by number, RV64 with a vector length of 256 bits, the words of its two L1 caches, and
the words of register files (by their number) and caches that have symbols in error, with how many. No row of the table executes one
of its instructions. (DESIGN CHOICE, log 111) -/
structure JnrCore where
  held : Bool
  pc : Word
  priv : BitVec 2
  x : Tab Word
  f : Tab Word
  v : Tab (BitVec 256)
  csr : Tab Word
  l1i : Tab Word
  l1d : Tab Word
  errs : Tab Nat
deriving DecidableEq, Repr

/-- A lockstep pair (R463 to R472); its cores are `Manage.cores`. -/
structure Pair where
  stopped : Bool
  duties : Word
  adopted : BitVec 48
  cluster : Nat
  readWait : Option Nat
deriving DecidableEq, Repr

/-- A basin before it is configured. (DESIGN CHOICE, log 53) -/
def Basin.reset : Basin :=
  { en := false, sz := 0, src := 0, st := 0, base := 0, units := 0, w := 0, cr := 0, returning := 0, recs := [],
    seqs := [] }
def Stream.overflow : Stream := { dst := 0xFFFF, tag := 0, msgs := 0, stalls := 0, waitus := 0 }
def SendPort.reset : SendPort :=
  { waiting := none, streams := [], overflow := Stream.overflow, sendAddr := 0, sendRes := 0 }
/-- A core in reset; the registers that the standard leaves open at reset are zero. (DESIGN CHOICE, log 111) -/
def JnrCore.reset : JnrCore :=
  { held := false, pc := 0, priv := 3, x := [], f := [], v := [], csr := [], l1i := [], l1d := [], errs := [] }
def Pair.reset : Pair := { stopped := false, duties := 0, adopted := 0, cluster := 0, readWait := none }

/-! ### Fences -/

/-- An entry of the fence set (R547, R553, R581). -/
structure Fence where
  kind : Nat
  id : Nat
  fuse : Bool
  field : Bool
  test : Bool
  withdrawn : Bool
  cause : BitVec 16
  tide : Word
deriving DecidableEq, Repr

/-- What the device makes known once records have committed (R554, R613, R826): a fence, a withdrawal, or a change of a
partition's map with its off-home list, `PRT_MAP_COST` and the number of logical tiles moved. -/
inductive Notice where
  | fence (kind id cause part : Nat)
  | withdraw (kind id : Nat)
  | map (part : Nat) (off : List Word) (cost : Word) (moved : Nat)
deriving DecidableEq, Repr

/-- A change that waits for its records (R826): those not yet committed, the hostings before it by logical tile, and what is
then made known; `part` is the partition of a change of hostings. -/
structure Pub where
  part : Nat
  recs : List GrnRec
  before : Tab (Option PT)
  what : Option Notice
deriving DecidableEq, Repr

/-! ### Power, clocks and Tide -/

/-- Array supply states of `SIL_PWRSTAT.SUPPLY` (R764). -/
inductive Supply where
  | off | ramping | on | open_
deriving DecidableEq, Repr

/-- A bay: supplies (R45), surge and thermal state (R734 to R752), readings, and what an unlisted tile or router of it is.
`wear` holds the µs in SURGE of the last 719 complete hours, each with whether it counts as missing (R743, R746); `surgeAt`:
the Tide from which the bay is in SURGE. At test 720 zero hours are written (R746). `volts` is the array voltage in millivolts
(R732, R733). -/
structure Bay where
  supply : Supply
  volts : Nat
  sill : Bool
  base : Tile
  rbase : Router
  ripple : Bool
  wear : List (Nat × Bool)
  hour : Nat
  hourIdx : Nat
  hourAt : Nat
  surgeAt : Option Nat
  missing : Nat
  refused : Bool
  stepped : Bool
  hot : Bool
  hotAt : Nat
  coolAt : Option Nat
  braked : Bool
  temp : Nat
  droops : BitVec 16
  vmin : Nat
  slack : BitVec 16
  reloaded : Bool
  noBase : Bool
deriving DecidableEq, Repr

def Bay.reset : Bay :=
  { supply := .off, volts := 0, sill := false, base := Tile.reset, rbase := Router.reset, ripple := false, wear := List.replicate 719 (0, false), hour := 0,
    hourIdx := 720, hourAt := 0, surgeAt := none, missing := 0, refused := false, stepped := false, hot := false, hotAt := 0, coolAt := none, braked := false, temp := 0,
    droops := 0, vmin := 0, slack := 0, reloaded := true, noBase := false }

/-- The power block (R718 to R731, R738 to R741, R754 to R759). `draw` is in watts; `bucket` in tenths of a microsecond, as
of the Tide `bucketAt`. -/
structure Power where
  feed : Bool
  latched : Bool
  segs : BitVec 24
  segHot : BitVec 24
  segTemp : Tab Nat
  draw : Nat
  bucket : Nat
  bucketAt : Nat
  lowSince : Option Nat
  stepping : Bool
  stepDraw : Nat
  heldBays : List Nat
  halted : Bool
  haltPin : Bool
  haltAt : Nat
  trips : Bool
  baySlot : Nat
  segSlot : Nat
deriving DecidableEq, Repr

/-- The clock block (R681 to R701). `trimAt`: the Tide of the last re-trim; the unlock test of a half is suspended up to the
Tide in `wQuiet` or `eQuiet` (R686). -/
structure Clock where
  rootLock : Bool
  holdSince : Option Nat
  src : Nat
  settle : BitVec 2
  trim : BitVec 10
  wcur : Nat
  ecur : Nat
  changing : Bool
  wchg : Bool
  echg : Bool
  trimAt : Nat
  wQuiet : Nat
  eQuiet : Nat
deriving DecidableEq, Repr

/-- The Tide time base beside its registers (R702 to R715): measurements in range in a row, the Tide of the last accepted edge,
whether an edge has been accepted since SRC was written or SYNC_LOST was raised, the ignored edges of the past second, edges
accepted since the last re-trim, `integ` and the slew of R706, and the share of a cycle that the slew has gathered. -/
structure TideBase where
  inRange : Nat
  lastEdge : Option Nat
  armed : Bool
  ignored : List Nat
  ignoredAt : Option Nat
  heldPeriod : Option Nat
  trimEdges : Nat
  integ : Int
  slew : Int
  measAt : Nat
  acc : Int
deriving DecidableEq, Repr

/-! ### Stesum ports -/

/-- Port states (R651). -/
inductive PortState where
  | off | training | up | down
deriving DecidableEq, Repr

/-- Link-layer states of a port (R650); one state serves both directions. (DESIGN CHOICE, log 72) -/
inductive LlState where
  | credit | onoff | resync
deriving DecidableEq, Repr

/-- One direction's channels (R637 to R642): width, lane map, channels out of service, weak counts. -/
structure Channels where
  width : Nat
  map : List Nat
  spares : List Nat
  out : List Nat
  weak : Tab Nat
  readings : Tab ChannelReading
  swap : Option (Nat × Nat)
deriving DecidableEq, Repr

/-- A Stesum port (R644 to R653, R674, R675). `nak`: data flits are discarded until the expected one arrives; `attempts`: how
often that one has failed; `sendq`: data flits that wait to be sent; `again`: those that were in the replay buffer when the port
left UP; `held`: the flits of packets that are not whole yet in the receive buffers, by VC; `stopOut`: the STOP bits given; `llAt`: the Tide of the last change or disturbance of the
link layer; `trained`: a training has ended since the reset. -/
structure StlPort where
  st : PortState
  rx : Channels
  tx : Channels
  ll : LlState
  txSeq : BitVec 16
  rxSeq : BitVec 16
  nak : Bool
  replay : List StlFlit
  attempts : Nat
  credits : Tab Nat
  owed : Tab Nat
  resync : Tab Nat
  lastData : Nat
  lastSent : Nat
  lastFlit : Nat
  llAt : Nat
  downAt : Nat
  backoff : Nat
  trained : Bool
  roleWritten : Bool
  tx1 : Option Nat
  echo : Option (Nat × Nat)
  stop : BitVec 8
  nakDue : Bool
  sendq : List StlFlit
  again : List StlFlit
  held : Tab Nat
  stopOut : BitVec 8
  measAt : Nat
  timeAt : Nat
deriving DecidableEq, Repr

def ChannelReading.zero : ChannelReading := { pwr := 0, eye := 0, ser := 0 }
def Channels.reset : Channels :=
  { width := 0, map := [], spares := [], out := [], weak := [], readings := [], swap := none }
def StlPort.reset : StlPort :=
  { st := .off, rx := Channels.reset, tx := Channels.reset, ll := .credit, txSeq := 0, rxSeq := 0xFFFF, nak := false,
    replay := [], attempts := 0, credits := [], owed := [], resync := [], lastData := 0, lastSent := 0, lastFlit := 0,
    llAt := 0, downAt := 0, backoff := 1, trained := false, roleWritten := false, tx1 := none, echo := none, stop := 0,
    nakDue := false, sendq := [], again := [], held := [], stopOut := 0, measAt := 0, timeAt := 0 }

/-! ### Bring-up, identity and the Grain log -/

/-- States of `BOOT_STAGE.STATE` (R799). -/
inductive BootState where
  | running | waiting | ready | failed
deriving DecidableEq, Repr

/-- A Joinery image that has been fetched (R775 to R777): its head and body bytes. -/
structure Image where
  head : List Byte
  body : List Byte
deriving DecidableEq, Repr

/-- Bring-up (R766 to R798). `stage9`: the Tide at which a stage 9 last ran in full; `fatalSince`, `fencedSince`: a
module-fatal event, a unit entering the fence set, since then (R782); `asked`: a FETCH (bit 0) or a LIVE (bit 1) that
`BOOT_CTL` has asked for; `rebuilt`: the fence set at the last rebuild (R357);
`copies`: the stacks whose device area holds a copy of the bay parts (R780); `reports`: the stage reports that stage 5 writes; `preMs`: the milliseconds of bring-up before Tide ran. -/
structure Boot where
  stage : Nat
  st : BootState
  beganAt : Nat
  stageAt : Nat
  endAt : Option Nat
  rejected : Bool
  pair : Nat
  image : Option Image
  running : Option Image
  liveImage : Option Image
  stage9 : Option Nat
  fatalSince : Bool
  rebuilt : Option (List (Nat × Nat))
  reports : List (Nat × Nat)
  preMs : Nat
  fencedSince : Bool
  liveAt : Nat
  perst : Bool
  faultPin : Bool
  voids : Nat
  grade : Nat
  asked : BitVec 2
  copies : List Nat
deriving DecidableEq, Repr

/-- The fused values of a module (R1, R41, R778, R800, R801): set at test, changed by nothing. (DESIGN CHOICE, log 107) -/
structure Fuses where
  serial : BitVec 128
  grade : Nat
  voids : Nat
  erevoke : BitVec 4
  lrevoke : BitVec 4
deriving DecidableEq, Repr

/-- One set of the attestation registers (R812, R818); `body`: the report body that is being signed. -/
structure Attest where
  st : Nat
  reason : Nat
  report : List Byte
  body : List Byte
  nonce : Tab Word
deriving DecidableEq, Repr

/-- One instance of the Grain-log read registers (R832, R833). -/
structure Reader where
  sel : Word
  st : Nat
  seq : Dword
  buf : List Byte
deriving DecidableEq, Repr

/-- A slot of the Grain log (R820, R821): a committed record or a torn slot; an unlisted slot is free. -/
inductive GrnSlot where
  | free
  | torn
  | record (bytes : List Byte)
deriving DecidableEq, Repr

/-- The key engine's LMS state (R806 to R811). -/
structure Lms where
  valid : Bool
  topq : Nat
  botq : Nat
  limit : Nat
  ready : Bool
deriving DecidableEq, Repr

/-- The Grain log (R819 to R829): its slots, the next SEQ of each area, the records waiting, the record being retried,
the retired sectors, counts, the chain. -/
structure Grain where
  slots : Tab GrnSlot
  next : Tab Nat
  queue : List GrnRec
  waiting : List GrnRec
  retryAt : Option Nat
  retired : List Nat
  erased : Tab Nat
  chain : List Byte
  chainN : Nat
  scanned : Bool
  near : Bool
  full : Bool
  boots : Nat
  dropAt : Option Nat
deriving DecidableEq, Repr

def Attest.reset : Attest := { st := 0, reason := 0, report := [], body := [], nonce := [] }
def Reader.reset : Reader := { sel := 0, st := 0, seq := 0, buf := [] }

/-- The sideband and management pins (R856 to R862, R834). (DESIGN CHOICE, log 108) -/
structure Pins where
  thermN : Bool
  i3cAddr : BitVec 2
  dyn : Option (BitVec 7)
  i3cPtr : Nat
deriving DecidableEq, Repr

/-! ### The module -/

/-- A packet on the rim ring: the segment it is at, the one it goes to, whether it travels anticlockwise, and while it
crosses the tile fabric round a dark segment the gateway at which it comes back (R51, R59, R326). -/
structure RingPacket where
  at_ : Nat
  dest : Nat
  acw : Bool
  away : Option Nat
  p : Packet
deriving DecidableEq, Repr

/-- The compute side: tiles, routers, the packets sent and not yet taken at their destinations, those of them that have not
entered the fabric, those on the rim ring, hostings, HBM, partitions. -/
structure Compute where
  tiles : Tab Tile
  routers : Tab Router
  net : List Packet
  fresh : List Packet
  ring : List RingPacket
  hosts : Tab (Option PT)
  hbm : List Host.Cell
  parts : Tab Part
  stackTab : Tab Stack
  engines : Tab Engine
  flumes : Tab (List Copy)
  fences : List Fence
  pubs : List Pub
  escapeVer : Nat
deriving DecidableEq, Repr

/-- The host side: functions, link, key slots. -/
structure HostSide where
  funcs : Tab Func
  pcie : Pcie
  keys : Tab (Option (List Byte))
deriving DecidableEq, Repr

/-- The management side: Joiners, basins, bring-up, log, attestation. `cores` are the cores by number, 8 to a cluster; `l2` the words
of L2, 2^21 to a cluster, and `l2Errs` those with symbols in error, with how many; `sluice` the bytes of sluice memory, 2^19 to an
endpoint (R462, R467, R477). -/
structure Manage where
  pairs : Tab Pair
  cores : Tab JnrCore
  l2 : Tab Word
  l2Errs : Tab Nat
  sluice : List Host.Cell
  basins : Tab Basin
  ports : Tab SendPort
  strLatch : Word
  fltLatch : Word
  boot : Boot
  fuses : Fuses
  grain : Grain
  lms : Lms
  attPcie : Attest
  attI3c : Attest
  attQueue : List Inst
  rdPcie : Reader
  rdI3c : Reader
  pins : Pins
deriving DecidableEq, Repr

/-- The supplies, clocks and optical ports. -/
structure Physical where
  bays : Tab Bay
  power : Power
  clock : Clock
  time : TideBase
  stl : Tab StlPort
deriving DecidableEq, Repr

/-- The module and its queue of waiting commands. `regs` holds the stored bits of the host-visible registers by the
addresses of Machine/RegMap.lean; `stage` and `latch` hold the low-half staging value and the high-half latch of each
64-bit register (R14); `free` counts the free values drawn. -/
structure State where
  pending : List Instr
  tide : Word
  regs : Tab Word
  stage : Tab Dword
  latch : Tab (Option Dword)
  out : List Output
  comp : Compute
  host : HostSide
  man : Manage
  phys : Physical
  free : Nat
deriving DecidableEq, Repr

/-- Before a cold start: the feed off, every supply off, nothing stored, every register at its reset value.
(DESIGN CHOICE, log 6; DESIGN CHOICE, log 107; DESIGN CHOICE, log 108) -/
def State.reset : State :=
  { pending := [], tide := 0, regs := [], stage := [], latch := [], out := []
    comp := { tiles := [], routers := [], net := [], fresh := [], ring := [], hosts := [], hbm := [], parts := [], stackTab := [], engines := [],
              flumes := [], fences := [], pubs := [], escapeVer := 0 }
    host := { funcs := [],
              pcie := { up := false, ltssm := 0, width := 0, rate := 0, flit := false, everUp := false }, keys := [] }
    man := { pairs := [], cores := [], l2 := [], l2Errs := [], sluice := [], basins := [], ports := [], strLatch := 0, fltLatch := 0
             boot := { stage := 0, st := .running, beganAt := 0, stageAt := 0, endAt := none, rejected := false,
                       pair := 0, image := none, running := none, liveImage := none, stage9 := none,
                       fatalSince := false, rebuilt := none, reports := [], preMs := 0, fencedSince := false, liveAt := 0,
                       perst := false, faultPin := true, voids := 0, grade := 84, asked := 0, copies := [] }
             fuses := { serial := 0, grade := 84, voids := 0, erevoke := 0, lrevoke := 0 }
             grain := { slots := [], next := [], queue := [], waiting := [], retryAt := none, retired := [],
                        erased := [], chain := List.replicate 48 0, chainN := 0, scanned := false, near := false,
                        full := false, boots := 0, dropAt := none }
             lms := { valid := true, topq := 0, botq := 0, limit := 0, ready := false }
             attPcie := Attest.reset, attI3c := Attest.reset, attQueue := [], rdPcie := Reader.reset,
             rdI3c := Reader.reset, pins := { thermN := true, i3cAddr := 0b11, dyn := none, i3cPtr := 0 } }
    phys := { bays := [],
              power := { feed := false, latched := false, segs := 0, segHot := 0, segTemp := [], draw := 0,
                         bucket := 0, bucketAt := 0, lowSince := none, stepping := false, stepDraw := 0, heldBays := [],
                         halted := false, haltPin := true, haltAt := 0, trips := false, baySlot := 0, segSlot := 0 }
              clock := { rootLock := false, holdSince := none, src := 0, settle := 0b11, trim := 0, wcur := 12,
                         ecur := 12, changing := false, wchg := false, echg := false, trimAt := 0, wQuiet := 0, eQuiet := 0 }
              time := { inRange := 0, lastEdge := none, armed := false, ignored := [], ignoredAt := none, heldPeriod := none,
                        trimEdges := 0, integ := 0, slew := 0, measAt := 0, acc := 0 }
              stl := [] }
    free := 0 }

end Sys2Proof.Machine
end

