-- ==== Sys2Proof/Machine/Events.lean ====
section
/-!
DEFINITION. The events of R543: their codes and severities.
-/

namespace Sys2Proof.Machine

/-- An event's code and severity. -/
structure EventId where
  code : BitVec 16
  sev : Severity
deriving DecidableEq, Repr

/-- `XSUM_RANGE` (R543). -/
def Ev.xsumRange : EventId := ⟨0x0101, .info⟩
/-- `MAC_RESIDUE` (R543). -/
def Ev.macResidue : EventId := ⟨0x0102, .degraded⟩
/-- `TILE_ILLEGAL` (R543). -/
def Ev.tileIllegal : EventId := ⟨0x0103, .partitionFatal⟩
/-- `SRAM_CE_HIGH` (R543). -/
def Ev.sramCeHigh : EventId := ⟨0x0104, .info⟩
/-- `SRAM_UNCORR` (R543). -/
def Ev.sramUncorr : EventId := ⟨0x0105, .degraded⟩
/-- `SPILL_LIMIT` (R543). -/
def Ev.spillLimit : EventId := ⟨0x0201, .partitionFatal⟩
/-- `DRAIN_TIMEOUT` (R543). -/
def Ev.drainTimeout : EventId := ⟨0x0202, .degraded⟩
/-- `REGION_DRAINED` (R543). -/
def Ev.regionDrained : EventId := ⟨0x0203, .info⟩
/-- `FRAME_REJECT` (R543). -/
def Ev.frameReject : EventId := ⟨0x0301, .info⟩
/-- `FRAME_APPLIED` (R543). -/
def Ev.frameApplied : EventId := ⟨0x0302, .info⟩
/-- `FRAME_APPLY_FAIL` (R543). -/
def Ev.frameApplyFail : EventId := ⟨0x0303, .partitionFatal⟩
/-- `FAB_LINK_DOWN` (R543). -/
def Ev.fabLinkDown : EventId := ⟨0x0401, .degraded⟩
/-- `FAB_BAD_OP` (R543). -/
def Ev.fabBadOp : EventId := ⟨0x0402, .degraded⟩
/-- `FAB_RESYNC_FAIL` (R543). -/
def Ev.fabResyncFail : EventId := ⟨0x0403, .degraded⟩
/-- `SCARF_MISS` (R543). -/
def Ev.scarfMiss : EventId := ⟨0x0404, .partitionFatal⟩
/-- `EPOCH_FLIP` (R543). -/
def Ev.epochFlip : EventId := ⟨0x0405, .info⟩
/-- `PLACE_NO_SPARE` (R543). -/
def Ev.placeNoSpare : EventId := ⟨0x0501, .partitionFatal⟩
/-- `MAP_PUBLISHED` (R543). -/
def Ev.mapPublished : EventId := ⟨0x0502, .info⟩
/-- `TILE_FENCED` (R543). -/
def Ev.tileFenced : EventId := ⟨0x0503, .degraded⟩
/-- `HEAL_DONE` (R543). -/
def Ev.healDone : EventId := ⟨0x0504, .info⟩
/-- `HEAL_FAIL` (R543). -/
def Ev.healFail : EventId := ⟨0x0505, .partitionFatal⟩
/-- `MAP_CHANGED` (R543). -/
def Ev.mapChanged : EventId := ⟨0x0506, .partitionFatal⟩
/-- `BAY_LOST` (R543). -/
def Ev.bayLost : EventId := ⟨0x0507, .degraded⟩
/-- `FUSE_DISAGREE_PASS` (R543). -/
def Ev.fuseDisagreePass : EventId := ⟨0x0508, .info⟩
/-- `GRADE_DEGRADED` (R543). -/
def Ev.gradeDegraded : EventId := ⟨0x0509, .degraded⟩
/-- `PLANE_FENCED` (R543). -/
def Ev.planeFenced : EventId := ⟨0x050a, .degraded⟩
/-- `RECOVERY_RESTART` (R543). -/
def Ev.recoveryRestart : EventId := ⟨0x050b, .info⟩
/-- `STEP_SIZE_STALE` (R543). -/
def Ev.stepSizeStale : EventId := ⟨0x0601, .degraded⟩
/-- `PLN_SINGULAR` (R543). -/
def Ev.plnSingular : EventId := ⟨0x0602, .degraded⟩
/-- `PLN_CHECK` (R543). -/
def Ev.plnCheck : EventId := ⟨0x0603, .degraded⟩
/-- `PLN_GRAD_OVER` (R543). -/
def Ev.plnGradOver : EventId := ⟨0x0604, .partitionFatal⟩
/-- `PLN_GRAD_SHORT` (R543). -/
def Ev.plnGradShort : EventId := ⟨0x0605, .partitionFatal⟩
/-- `PLN_RESUMED` (R543). -/
def Ev.plnResumed : EventId := ⟨0x0606, .info⟩
/-- `SIGHT_READY` (R543). -/
def Ev.sightReady : EventId := ⟨0x0607, .info⟩
/-- `HBM_UE` (R543). -/
def Ev.hbmUe : EventId := ⟨0x0701, .degraded⟩
/-- `HBM_POISON_WRITE` (R543). -/
def Ev.hbmPoisonWrite : EventId := ⟨0x0702, .info⟩
/-- `HBM_POISON_HOST` (R543). -/
def Ev.hbmPoisonHost : EventId := ⟨0x0703, .info⟩
/-- `HBM_POISON_CONSUMED` (R543). -/
def Ev.hbmPoisonConsumed : EventId := ⟨0x0704, .partitionFatal⟩
/-- `HBM_CE_HIGH` (R543). -/
def Ev.hbmCeHigh : EventId := ⟨0x0705, .info⟩
/-- `HBM_LINE_SUSPECT` (R543). -/
def Ev.hbmLineSuspect : EventId := ⟨0x0706, .degraded⟩
/-- `HBM_STACK_SUSPECT` (R543). -/
def Ev.hbmStackSuspect : EventId := ⟨0x0707, .degraded⟩
/-- `JNR_LOCKSTEP` (R543). -/
def Ev.jnrLockstep : EventId := ⟨0x0801, .degraded⟩
/-- `JNR_NONE` (R543). -/
def Ev.jnrNone : EventId := ⟨0x0802, .moduleFatal⟩
/-- `SLUICE_REHOMED` (R543). -/
def Ev.sluiceRehomed : EventId := ⟨0x0803, .degraded⟩
/-- `SLUICE_TOO_LONG` (R543). -/
def Ev.sluiceTooLong : EventId := ⟨0x0804, .info⟩
/-- `SLUICE_UNBOUND` (R543). -/
def Ev.sluiceUnbound : EventId := ⟨0x0805, .info⟩
/-- `SLUICE_STALL` (R543). -/
def Ev.sluiceStall : EventId := ⟨0x0806, .degraded⟩
/-- `STEP_SUSPECT` (R543). -/
def Ev.stepSuspect : EventId := ⟨0x0901, .info⟩
/-- `SIG_MISMATCH` (R543). -/
def Ev.sigMismatch : EventId := ⟨0x0902, .degraded⟩
/-- `WEIR_TIMEOUT` (R543). -/
def Ev.weirTimeout : EventId := ⟨0x0903, .degraded⟩
/-- `WEIR_GAP` (R543). -/
def Ev.weirGap : EventId := ⟨0x0904, .info⟩
/-- `DRYFIT_START` (R543). -/
def Ev.dryfitStart : EventId := ⟨0x0905, .info⟩
/-- `DRYFIT_EQUAL` (R543). -/
def Ev.dryfitEqual : EventId := ⟨0x0906, .info⟩
/-- `DRYFIT_DIFFER` (R543). -/
def Ev.dryfitDiffer : EventId := ⟨0x0907, .degraded⟩
/-- `DRYFIT_FAIL` (R543). -/
def Ev.dryfitFail : EventId := ⟨0x0908, .partitionFatal⟩
/-- `PLUMB_FAIL` (R543). -/
def Ev.plumbFail : EventId := ⟨0x0909, .degraded⟩
/-- `PLUMB_LATE` (R543). -/
def Ev.plumbLate : EventId := ⟨0x090a, .degraded⟩
/-- `LATENT_STEPS` (R543). -/
def Ev.latentSteps : EventId := ⟨0x090b, .degraded⟩
/-- `SIGHT_MISMATCH` (R543). -/
def Ev.sightMismatch : EventId := ⟨0x090c, .degraded⟩
/-- `SIGHT_RESYNC` (R543). -/
def Ev.sightResync : EventId := ⟨0x090d, .info⟩
/-- `SIGHT_ROLLBACK` (R543). -/
def Ev.sightRollback : EventId := ⟨0x090e, .partitionFatal⟩
/-- `SIGHT_INCOMPLETE` (R543). -/
def Ev.sightIncomplete : EventId := ⟨0x090f, .degraded⟩
/-- `HST_CMD_REJECT` (R543). -/
def Ev.hstCmdReject : EventId := ⟨0x0a01, .info⟩
/-- `HST_FLR` (R543). -/
def Ev.hstFlr : EventId := ⟨0x0a02, .info⟩
/-- `HST_DMA_BLOCKED` (R543). -/
def Ev.hstDmaBlocked : EventId := ⟨0x0a03, .degraded⟩
/-- `HST_LINK_DOWN` (R543). -/
def Ev.hstLinkDown : EventId := ⟨0x0a04, .degraded⟩
/-- `HST_RATE_LIMIT` (R543). -/
def Ev.hstRateLimit : EventId := ⟨0x0a05, .info⟩
/-- `STL_LANE_SWAP` (R543). -/
def Ev.stlLaneSwap : EventId := ⟨0x0b01, .degraded⟩
/-- `STL_SPARES_EXHAUSTED` (R543). -/
def Ev.stlSparesExhausted : EventId := ⟨0x0b02, .degraded⟩
/-- `STL_PORT_DOWN` (R543). -/
def Ev.stlPortDown : EventId := ⟨0x0b03, .degraded⟩
/-- `STL_RACK_SWITCH` (R543). -/
def Ev.stlRackSwitch : EventId := ⟨0x0b04, .info⟩
/-- `SYNC_LOST` (R543). -/
def Ev.syncLost : EventId := ⟨0x0c01, .degraded⟩
/-- `SYNC_EDGE_IGNORED` (R543). -/
def Ev.syncEdgeIgnored : EventId := ⟨0x0c02, .info⟩
/-- `CLK_RATIO_REFUSED` (R543). -/
def Ev.clkRatioRefused : EventId := ⟨0x0c03, .info⟩
/-- `RIPPLE_UNLOCK` (R543). -/
def Ev.rippleUnlock : EventId := ⟨0x0c04, .degraded⟩
/-- `ROOT_PLL_UNLOCK` (R543). -/
def Ev.rootPllUnlock : EventId := ⟨0x0c05, .moduleFatal⟩
/-- `FEED_FAULT` (R543). -/
def Ev.feedFault : EventId := ⟨0x0d01, .moduleFatal⟩
/-- `RIM_SEG_LOST` (R543). -/
def Ev.rimSegLost : EventId := ⟨0x0d02, .degraded⟩
/-- `PWR_BAY_FUSE` (R543). -/
def Ev.pwrBayFuse : EventId := ⟨0x0d03, .degraded⟩
/-- `SURGE_STEPDOWN` (R543). -/
def Ev.surgeStepdown : EventId := ⟨0x0d04, .info⟩
/-- `SURGE_REFUSED` (R543). -/
def Ev.surgeRefused : EventId := ⟨0x0d05, .info⟩
/-- `THERM_HIGH` (R543). -/
def Ev.thermHigh : EventId := ⟨0x0d06, .degraded⟩
/-- `THERM_TRIP` (R543). -/
def Ev.thermTrip : EventId := ⟨0x0d07, .degraded⟩
/-- `HALT_ASSERTED` (R543). -/
def Ev.haltAsserted : EventId := ⟨0x0d08, .info⟩
/-- `RIM_SEG_PART_LOST` (R543). -/
def Ev.rimSegPartLost : EventId := ⟨0x0d09, .partitionFatal⟩
/-- `BOOT_STAGE_FAIL` (R543). -/
def Ev.bootStageFail : EventId := ⟨0x0e01, .moduleFatal⟩
/-- `IMAGE_REJECT` (R543). -/
def Ev.imageReject : EventId := ⟨0x0e02, .moduleFatal⟩
/-- `BOOT_FASTPATH` (R543). -/
def Ev.bootFastpath : EventId := ⟨0x0e03, .info⟩
/-- `FW_CLUSTER_RELOADED` (R543). -/
def Ev.fwClusterReloaded : EventId := ⟨0x0e04, .info⟩
/-- `GRN_WRITE_FAIL` (R543). -/
def Ev.grnWriteFail : EventId := ⟨0x0f01, .degraded⟩
/-- `GRN_FULL` (R543). -/
def Ev.grnFull : EventId := ⟨0x0f02, .degraded⟩
/-- `LMS_LOW` (R543). -/
def Ev.lmsLow : EventId := ⟨0x0f03, .degraded⟩
/-- `ATTEST_ISSUED` (R543). -/
def Ev.attestIssued : EventId := ⟨0x0f04, .info⟩

end Sys2Proof.Machine
end

