-- ==== Sys2Proof/Machine/RegMap.lean ====
section
/-!
DEFINITION. The register map: the address of every host-visible register that stores bits, and the access code of its
fields (R8). An address is the register's offset in PF0 BAR0 (R589); the step registers of partition p, which lie in its
function's BAR0 only (R428), take 0x400_0000 + 0x100 p. Made from the register maps of the spec.
-/

namespace Sys2Proof.Machine

/-- Base of the `HST_` function registers of function f (R632). -/
def Reg.hst (f : Nat) : Nat := if f = 0 then 0x40000 else 0x50000 + 0x1000 * f

/-- `SIL_TSEL@b` (R162). -/
def Reg.silTsel (b : Nat) : Nat := 0x100400 + 0x10000 * b
/-- `SIL_TDATA@b` (R162). -/
def Reg.silTdata (b : Nat) : Nat := 0x100408 + 0x10000 * b
/-- `PRT_FLOWCFG` (R214). -/
def Reg.prtFlowcfg (p : Nat) : Nat := 0x50400 + 0x1000 * p
/-- `PRT_BASIN` (R214). -/
def Reg.prtBasin (p : Nat) : Nat := 0x50408 + 0x1000 * p
/-- `PRT_SPILL_EVENTS` (R214). -/
def Reg.prtSpillEvents (p : Nat) : Nat := 0x50410 + 0x1000 * p
/-- `PRT_SPILL_ENTRIES` (R214). -/
def Reg.prtSpillEntries (p : Nat) : Nat := 0x50418 + 0x1000 * p
/-- `PRT_BASIN_USE` (R214). -/
def Reg.prtBasinUse (p : Nat) : Nat := 0x50420 + 0x1000 * p
/-- `PRT_FLOW_DISCARD` (R214). -/
def Reg.prtFlowDiscard (p : Nat) : Nat := 0x50428 + 0x1000 * p
/-- `PRT_FLOW_CLR` (R214). -/
def Reg.prtFlowClr (p : Nat) : Nat := 0x50430 + 0x1000 * p
/-- `PRT_DRAIN_CTL` (R214). -/
def Reg.prtDrainCtl (p : Nat) : Nat := 0x50440 + 0x1000 * p
/-- `PRT_DRAIN_STAT` (R214). -/
def Reg.prtDrainStat (p : Nat) : Nat := 0x50448 + 0x1000 * p
/-- `PRT_DRAINEDk` (R214). -/
def Reg.prtDrainedk (p k : Nat) : Nat := 0x50460 + 0x1000 * p + 0x8 * k
/-- `SIL_` (R215). -/
def Reg.silQstat (b : Nat) : Nat := 0x100410 + 0x10000 * b
/-- `SIL_SPARESTAT@b` (R377). -/
def Reg.silSparestat (b : Nat) : Nat := 0x100440 + 0x10000 * b
/-- `PRT_FRAME_STAT` (R267). -/
def Reg.prtFrameStat (p : Nat) : Nat := 0x50500 + 0x1000 * p
/-- `PRT_FRAME_REJ` (R267). -/
def Reg.prtFrameRej (p : Nat) : Nat := 0x50508 + 0x1000 * p
/-- `PRT_FRAMECFG` (R267). -/
def Reg.prtFramecfg (p : Nat) : Nat := 0x50510 + 0x1000 * p
/-- `PRT_FRAME_SEED` (R267). -/
def Reg.prtFrameSeed (p : Nat) : Nat := 0x50518 + 0x1000 * p
/-- `PRT_FRAME_POLICY` (R267). -/
def Reg.prtFramePolicy (p : Nat) : Nat := 0x50520 + 0x1000 * p
/-- `SIL_RTSEL@b` (R327). -/
def Reg.silRtsel (b : Nat) : Nat := 0x100420 + 0x10000 * b
/-- `SIL_RTDATA@b` (R327). -/
def Reg.silRtdata (b : Nat) : Nat := 0x100428 + 0x10000 * b
/-- `PRT_FAB_EPOCH` (R329). -/
def Reg.prtFabEpoch (p : Nat) : Nat := 0x50600 + 0x1000 * p
/-- `PRT_FAB_CNT` (R329). -/
def Reg.prtFabCnt (p : Nat) : Nat := 0x50608 + 0x1000 * p
/-- `PRT_WEIR_STAT` (R329). -/
def Reg.prtWeirStat (p : Nat) : Nat := 0x50610 + 0x1000 * p
/-- `PRT_FAB_CLR` (R329). -/
def Reg.prtFabClr (p : Nat) : Nat := 0x50618 + 0x1000 * p
/-- `SIL_FABSTAT@b` (R330). -/
def Reg.silFabstat (b : Nat) : Nat := 0x100430 + 0x10000 * b
/-- `SIL_RIDGE@b` (R330). -/
def Reg.silRidge (b : Nat) : Nat := 0x100438 + 0x10000 * b
/-- `PRT_MAP_STAT` (R376). -/
def Reg.prtMapStat (p : Nat) : Nat := 0x50700 + 0x1000 * p
/-- `PRT_MAP_COST` (R376). -/
def Reg.prtMapCost (p : Nat) : Nat := 0x50708 + 0x1000 * p
/-- `PRT_MAP_SEL` (R376). -/
def Reg.prtMapSel (p : Nat) : Nat := 0x50710 + 0x1000 * p
/-- `PRT_MAP_DATA` (R376). -/
def Reg.prtMapData (p : Nat) : Nat := 0x50718 + 0x1000 * p
/-- `PRT_SCRIBE_CFG` (R376). -/
def Reg.prtScribeCfg (p : Nat) : Nat := 0x50720 + 0x1000 * p
/-- `PRT_TENSOR_SEL` (R376). -/
def Reg.prtTensorSel (p : Nat) : Nat := 0x50728 + 0x1000 * p
/-- `PRT_TENSOR_LOC` (R376). -/
def Reg.prtTensorLoc (p : Nat) : Nat := 0x50730 + 0x1000 * p
/-- `PLN_STEP0` (R428). -/
def Reg.plnStep0 (p : Nat) : Nat := 0x4000000 + 0x100 * p
/-- `PLN_STEP1` (R428). -/
def Reg.plnStep1 (p : Nat) : Nat := 0x4000008 + 0x100 * p
/-- `PLN_STEPSTAT` (R428). -/
def Reg.plnStepstat (p : Nat) : Nat := 0x4000010 + 0x100 * p
/-- `PLN_STEP_WAIT` (R428). -/
def Reg.plnStepWait (p : Nat) : Nat := 0x4000018 + 0x100 * p
/-- `PRT_PLN_STAT` (R429). -/
def Reg.prtPlnStat (p : Nat) : Nat := 0x50800 + 0x1000 * p
/-- `PRT_STAGE` (R429). -/
def Reg.prtStage (p : Nat) : Nat := 0x50808 + 0x1000 * p
/-- `PRT_SIGHT_KEY` (R429). -/
def Reg.prtSightKey (p : Nat) : Nat := 0x50810 + 0x1000 * p
/-- `PRT_LAYER_SEL` (R429). -/
def Reg.prtLayerSel (p : Nat) : Nat := 0x50818 + 0x1000 * p
/-- `PRT_LAYER_STAT` (R429). -/
def Reg.prtLayerStat (p : Nat) : Nat := 0x50820 + 0x1000 * p
/-- `PRT_LAYER_CTL` (R429). -/
def Reg.prtLayerCtl (p : Nat) : Nat := 0x50828 + 0x1000 * p
/-- `PRT_LAYER_DIG` (R429). -/
def Reg.prtLayerDig (p : Nat) : Nat := 0x50830 + 0x1000 * p
/-- `PRT_LAYER_DSTEP` (R429). -/
def Reg.prtLayerDstep (p : Nat) : Nat := 0x50838 + 0x1000 * p
/-- `PRT_LAYER_REC` (R429). -/
def Reg.prtLayerRec (p : Nat) : Nat := 0x50840 + 0x1000 * p
/-- `PRT_PLN_CNT` (R429). -/
def Reg.prtPlnCnt (p : Nat) : Nat := 0x50848 + 0x1000 * p
/-- `PRT_PLN_CLR` (R429). -/
def Reg.prtPlnClr (p : Nat) : Nat := 0x50850 + 0x1000 * p
/-- `PLN_ESTAT` (R430). -/
def Reg.plnEstat (e : Nat) : Nat := 0x800000 + 0x10000 * e
/-- `PLN_ECNT` (R430). -/
def Reg.plnEcnt (e : Nat) : Nat := 0x800008 + 0x10000 * e
/-- `PLN_ECTL` (R430). -/
def Reg.plnEctl (e : Nat) : Nat := 0x800010 + 0x10000 * e
/-- `HBM_STAT` (R459). -/
def Reg.hbmStat (st : Nat) : Nat := 0xa00000 + 0x10000 * st
/-- `HBM_ERRCNT` (R459). -/
def Reg.hbmErrcnt (st : Nat) : Nat := 0xa00010 + 0x10000 * st
/-- `HBM_ERRCNT2` (R459). -/
def Reg.hbmErrcnt2 (st : Nat) : Nat := 0xa00018 + 0x10000 * st
/-- `HBM_ELOG0` (R459). -/
def Reg.hbmElog0 (st : Nat) : Nat := 0xa00020 + 0x10000 * st
/-- `HBM_ELOG1` (R459). -/
def Reg.hbmElog1 (st : Nat) : Nat := 0xa00028 + 0x10000 * st
/-- `HBM_SCRUB` (R459). -/
def Reg.hbmScrub (st : Nat) : Nat := 0xa00030 + 0x10000 * st
/-- `HBM_THRESH` (R459). -/
def Reg.hbmThresh (st : Nat) : Nat := 0xa00038 + 0x10000 * st
/-- `HBM_CTL` (R459). -/
def Reg.hbmCtl (st : Nat) : Nat := 0xa00040 + 0x10000 * st
/-- `HBM_PREGp` (R459). -/
def Reg.hbmPregp (st p1 : Nat) : Nat := 0xa00080 + 0x10000 * st + 0x8 * p1
/-- `PRT_HBM_SPREAD` (R460). -/
def Reg.prtHbmSpread (p : Nat) : Nat := 0x50900 + 0x1000 * p
/-- `PRT_HBM_POISON` (R460). -/
def Reg.prtHbmPoison (p : Nat) : Nat := 0x50908 + 0x1000 * p
/-- `PRT_HBM_CLR` (R460). -/
def Reg.prtHbmClr (p : Nat) : Nat := 0x50910 + 0x1000 * p
/-- `JNR_CSTAT` (R502). -/
def Reg.jnrCstat (c : Nat) : Nat := 0x1000000 + 0x100000 * c
/-- `JNR_DUTYp` (R502). -/
def Reg.jnrDutyp (c p : Nat) : Nat := 0x1000040 + 0x100000 * c + 0x8 * p
/-- `JNR_ADOPTp` (R502). -/
def Reg.jnrAdoptp (c p : Nat) : Nat := 0x1000060 + 0x100000 * c + 0x8 * p
/-- `JNR_SLUICECFG` (R502). -/
def Reg.jnrSluicecfg : Nat := 0x1000100
/-- `JNR_STRSEL` (R502). -/
def Reg.jnrStrsel : Nat := 0x1000108
/-- `JNR_STRDATA0` (R502). -/
def Reg.jnrStrdata0 : Nat := 0x1000110
/-- `JNR_STRDATA1` (R502). -/
def Reg.jnrStrdata1 : Nat := 0x1000118
/-- `JNR_STRCLR` (R502). -/
def Reg.jnrStrclr : Nat := 0x1000120
/-- `PRT_STEP` (R545). -/
def Reg.prtStep (p : Nat) : Nat := 0x50a00 + 0x1000 * p
/-- `PRT_COMMIT_STAT` (R545). -/
def Reg.prtCommitStat (p : Nat) : Nat := 0x50a08 + 0x1000 * p
/-- `PRT_DETCFG` (R545). -/
def Reg.prtDetcfg (p : Nat) : Nat := 0x50a10 + 0x1000 * p
/-- `PRT_DET_CNT` (R545). -/
def Reg.prtDetCnt (p : Nat) : Nat := 0x50a18 + 0x1000 * p
/-- `PRT_SIGHT_CFG` (R545). -/
def Reg.prtSightCfg (p : Nat) : Nat := 0x50a20 + 0x1000 * p
/-- `PRT_SIGHT_STAT` (R545). -/
def Reg.prtSightStat (p : Nat) : Nat := 0x50a28 + 0x1000 * p
/-- `PRT_SIGHT_PEERi` (R545). -/
def Reg.prtSightPeeri (p i : Nat) : Nat := 0x50a40 + 0x1000 * p + 0x8 * i
/-- `PRT_DET_CLR` (R545). -/
def Reg.prtDetClr (p : Nat) : Nat := 0x50ac0 + 0x1000 * p
/-- `SIL_PLUMBCFG@b` (R546). -/
def Reg.silPlumbcfg (b : Nat) : Nat := 0x100480 + 0x10000 * b
/-- `SIL_PLUMBSTAT@b` (R546). -/
def Reg.silPlumbstat (b : Nat) : Nat := 0x100488 + 0x10000 * b
/-- `SIL_PLUMBTILE@b` (R546). -/
def Reg.silPlumbtile (b : Nat) : Nat := 0x100490 + 0x10000 * b
/-- `FLT_STAT` (R581). -/
def Reg.fltStat : Nat := 0x30000
/-- `FLT_VOID0` (R581). -/
def Reg.fltVoid0 : Nat := 0x30008
/-- `FLT_VOID1` (R581). -/
def Reg.fltVoid1 : Nat := 0x30010
/-- `FLT_FSEL` (R581). -/
def Reg.fltFsel : Nat := 0x30018
/-- `FLT_FDATA0` (R581). -/
def Reg.fltFdata0 : Nat := 0x30020
/-- `FLT_FDATA1` (R581). -/
def Reg.fltFdata1 : Nat := 0x30028
/-- `FLT_RECOV` (R581). -/
def Reg.fltRecov : Nat := 0x30030
/-- `FLT_RECCFG` (R581). -/
def Reg.fltReccfg : Nat := 0x30038
/-- `FLT_CTL` (R581). -/
def Reg.fltCtl : Nat := 0x30040
/-- `PRT_HEAL_STAT` (R582). -/
def Reg.prtHealStat (p : Nat) : Nat := 0x50b00 + 0x1000 * p
/-- `SIL_FENCE@b` (R583). -/
def Reg.silFence (b : Nat) : Nat := 0x1004a0 + 0x10000 * b
/-- `HST_CMDSTAT` (R632). -/
def Reg.hstCmdstat (f : Nat) : Nat := Reg.hst f + 0x0
/-- `HST_CLOG_BASE` (R632). -/
def Reg.hstClogBase (f : Nat) : Nat := Reg.hst f + 0x8
/-- `HST_CLOG_CFG` (R632). -/
def Reg.hstClogCfg (f : Nat) : Nat := Reg.hst f + 0x10
/-- `HST_CLOG_HEAD` (R632). -/
def Reg.hstClogHead (f : Nat) : Nat := Reg.hst f + 0x18
/-- `HST_CLOG_TAIL` (R632). -/
def Reg.hstClogTail (f : Nat) : Nat := Reg.hst f + 0x20
/-- `HST_EVLOG_BASE` (R632). -/
def Reg.hstEvlogBase (f : Nat) : Nat := Reg.hst f + 0x28
/-- `HST_EVLOG_CFG` (R632). -/
def Reg.hstEvlogCfg (f : Nat) : Nat := Reg.hst f + 0x30
/-- `HST_EVLOG_HEAD` (R632). -/
def Reg.hstEvlogHead (f : Nat) : Nat := Reg.hst f + 0x38
/-- `HST_EVLOG_TAIL` (R632). -/
def Reg.hstEvlogTail (f : Nat) : Nat := Reg.hst f + 0x40
/-- `HST_BAR2WIN` (R632). -/
def Reg.hstBar2win (f : Nat) : Nat := Reg.hst f + 0x48
/-- `HST_FUNCSTAT` (R632). -/
def Reg.hstFuncstat (f : Nat) : Nat := Reg.hst f + 0x50
/-- `HST_LINKSTAT` (R633). -/
def Reg.hstLinkstat : Nat := 0x40100
/-- `HST_LINKCNT` (R633). -/
def Reg.hstLinkcnt : Nat := 0x40108
/-- `HST_CTL` (R633). -/
def Reg.hstCtl : Nat := 0x40110
/-- `HST_RATECAPf` (R633). -/
def Reg.hstRatecap (f : Nat) : Nat := 0x40200 + 0x8 * f
/-- `HST_DMAWINf_wB` (R633). -/
def Reg.hstDmawinWb (f w : Nat) : Nat := 0x41000 + 0x80 * f + 0x10 * w
/-- `HST_DMAWINf_wL` (R633). -/
def Reg.hstDmawinWl (f w : Nat) : Nat := 0x41008 + 0x80 * f + 0x10 * w
/-- `PRT_BAYOWNk` (R634). -/
def Reg.prtBayownk (k : Nat) : Nat := 0x50000 + 0x8 * k
/-- `PRT_FLUMEOWN0, PRT_FLUMEOWN1` (R634). -/
def Reg.prtFlumeown (k : Nat) : Nat := 0x50030 + 0x8 * k
/-- `PRT_KEYSTAT` (R634). -/
def Reg.prtKeystat : Nat := 0x50040
/-- `PRT_STAT` (R635). -/
def Reg.prtStat (p : Nat) : Nat := 0x50100 + 0x1000 * p
/-- `PRT_BAYS0` (R635). -/
def Reg.prtBays0 (p : Nat) : Nat := 0x50108 + 0x1000 * p
/-- `PRT_BAYS1` (R635). -/
def Reg.prtBays1 (p : Nat) : Nat := 0x50110 + 0x1000 * p
/-- `PRT_GATESTAT` (R635). -/
def Reg.prtGatestat (p : Nat) : Nat := 0x50118 + 0x1000 * p
/-- `STL_PSTAT` (R678). -/
def Reg.stlPstat (p : Nat) : Nat := 0x60000 + 0x800 * p
/-- `STL_PCFG` (R678). -/
def Reg.stlPcfg (p : Nat) : Nat := 0x60008 + 0x800 * p
/-- `STL_CHSTAT` (R678). -/
def Reg.stlChstat (p : Nat) : Nat := 0x60010 + 0x800 * p
/-- `STL_MARGIN` (R678). -/
def Reg.stlMargin (p : Nat) : Nat := 0x60018 + 0x800 * p
/-- `STL_CHc` (R678). -/
def Reg.stlChc (p c : Nat) : Nat := 0x60020 + 0x800 * p + 0x8 * c
/-- `STL_LINKCNT` (R678). -/
def Reg.stlLinkcnt (p : Nat) : Nat := 0x600b0 + 0x800 * p
/-- `STL_PKTCNT` (R678). -/
def Reg.stlPktcnt (p : Nat) : Nat := 0x600b8 + 0x800 * p
/-- `STL_TIME` (R678). -/
def Reg.stlTime (p : Nat) : Nat := 0x600c0 + 0x800 * p
/-- `STL_ASYM` (R678). -/
def Reg.stlAsym (p : Nat) : Nat := 0x600c8 + 0x800 * p
/-- `STL_CTL` (R678). -/
def Reg.stlCtl (p : Nat) : Nat := 0x600d0 + 0x800 * p
/-- `STL_ADDR` (R679). -/
def Reg.stlAddr : Nat := 0x60400
/-- `STL_TORUS` (R679). -/
def Reg.stlTorus : Nat := 0x60408
/-- `STL_RATECAP` (R679). -/
def Reg.stlRatecap : Nat := 0x60410
/-- `PRT_STL_INBASE` (R680). -/
def Reg.prtStlInbase (p : Nat) : Nat := 0x50c00 + 0x1000 * p
/-- `PRT_STL_INLIM` (R680). -/
def Reg.prtStlInlim (p : Nat) : Nat := 0x50c08 + 0x1000 * p
/-- `PRT_STL_PUTCFG` (R680). -/
def Reg.prtStlPutcfg (p : Nat) : Nat := 0x50c10 + 0x1000 * p
/-- `PRT_STL_PUTSEL` (R680). -/
def Reg.prtStlPutsel (p : Nat) : Nat := 0x50c18 + 0x1000 * p
/-- `PRT_STL_PUTA` (R680). -/
def Reg.prtStlPuta (p : Nat) : Nat := 0x50c20 + 0x1000 * p
/-- `PRT_STL_PUTB` (R680). -/
def Reg.prtStlPutb (p : Nat) : Nat := 0x50c28 + 0x1000 * p
/-- `PRT_STL_PUTC` (R680). -/
def Reg.prtStlPutc (p : Nat) : Nat := 0x50c30 + 0x1000 * p
/-- `PRT_STL_PUTD` (R680). -/
def Reg.prtStlPutd (p : Nat) : Nat := 0x50c38 + 0x1000 * p
/-- `PRT_STL_PUTGO` (R680). -/
def Reg.prtStlPutgo (p : Nat) : Nat := 0x50c40 + 0x1000 * p
/-- `PRT_STL_STAT` (R680). -/
def Reg.prtStlStat (p : Nat) : Nat := 0x50c48 + 0x1000 * p
/-- `PRT_STL_CNT` (R680). -/
def Reg.prtStlCnt (p : Nat) : Nat := 0x50c50 + 0x1000 * p
/-- `CLK_STAT` (R716). -/
def Reg.clkStat : Nat := 0x10000
/-- `CLK_HDIV` (R716). -/
def Reg.clkHdiv : Nat := 0x10008
/-- `CLK_HSTAT` (R716). -/
def Reg.clkHstat : Nat := 0x10010
/-- `CLK_RIPPLE0` (R716). -/
def Reg.clkRipple0 : Nat := 0x10018
/-- `CLK_RIPPLE1` (R716). -/
def Reg.clkRipple1 : Nat := 0x10020
/-- `CLK_CNT` (R716). -/
def Reg.clkCnt : Nat := 0x10028
/-- `CLK_CTL` (R716). -/
def Reg.clkCtl : Nat := 0x10030
/-- `TIDE_NOW` (R717). -/
def Reg.tideNow : Nat := 0x10100
/-- `TIDE_CFG` (R717). -/
def Reg.tideCfg : Nat := 0x10108
/-- `TIDE_PARENT` (R717). -/
def Reg.tideParent : Nat := 0x10110
/-- `TIDE_STAT` (R717). -/
def Reg.tideStat : Nat := 0x10118
/-- `TIDE_SYNC` (R717). -/
def Reg.tideSync : Nat := 0x10120
/-- `TIDE_SLEW` (R717). -/
def Reg.tideSlew : Nat := 0x10128
/-- `TIDE_SET` (R717). -/
def Reg.tideSet : Nat := 0x10130
/-- `TIDE_CTL` (R717). -/
def Reg.tideCtl : Nat := 0x10138
/-- `PWR_STAT` (R763). -/
def Reg.pwrStat : Nat := 0x20000
/-- `PWR_EXC` (R763). -/
def Reg.pwrExc : Nat := 0x20008
/-- `PWR_SURGE` (R763). -/
def Reg.pwrSurge : Nat := 0x20010
/-- `PWR_HALT` (R763). -/
def Reg.pwrHalt : Nat := 0x20018
/-- `PWR_RIM` (R763). -/
def Reg.pwrRim : Nat := 0x20020
/-- `PWR_BAYON0` (R763). -/
def Reg.pwrBayon0 : Nat := 0x20028
/-- `PWR_BAYON1` (R763). -/
def Reg.pwrBayon1 : Nat := 0x20030
/-- `PWR_CNT` (R763). -/
def Reg.pwrCnt : Nat := 0x20038
/-- `PWR_CTL` (R763). -/
def Reg.pwrCtl : Nat := 0x20040
/-- `SIL_PWRSTAT@b` (R764). -/
def Reg.silPwrstat (b : Nat) : Nat := 0x100500 + 0x10000 * b
/-- `SIL_PWRCFG@b` (R764). -/
def Reg.silPwrcfg (b : Nat) : Nat := 0x100508 + 0x10000 * b
/-- `SIL_SURGE@b` (R764). -/
def Reg.silSurge (b : Nat) : Nat := 0x100510 + 0x10000 * b
/-- `SIL_MARGIN@b` (R764). -/
def Reg.silMargin (b : Nat) : Nat := 0x100518 + 0x10000 * b
/-- `SIL_PWRCTL@b` (R764). -/
def Reg.silPwrctl (b : Nat) : Nat := 0x100520 + 0x10000 * b
/-- `BOOT_STAGE` (R799). -/
def Reg.bootStage : Nat := 0x8000
/-- `BOOT_FAIL` (R799). -/
def Reg.bootFail : Nat := 0x8008
/-- `BOOT_STIMEk` (R799). -/
def Reg.bootStimek (k : Nat) : Nat := 0x8010 + 0x8 * k
/-- `BOOT_IMGADDR` (R799). -/
def Reg.bootImgaddr : Nat := 0x8040
/-- `BOOT_IMGLEN` (R799). -/
def Reg.bootImglen : Nat := 0x8048
/-- `BOOT_CTL` (R799). -/
def Reg.bootCtl : Nat := 0x8050
/-- `BOOT_CFG` (R799). -/
def Reg.bootCfg : Nat := 0x8058
/-- `BOOT_IMAGE` (R799). -/
def Reg.bootImage : Nat := 0x8060
/-- `BOOT_IMAGE2` (R799). -/
def Reg.bootImage2 : Nat := 0x8068
/-- `BOOT_LIVE` (R799). -/
def Reg.bootLive : Nat := 0x8070
/-- `BOOT_KEYS` (R799). -/
def Reg.bootKeys : Nat := 0x8078
/-- `ID_SERIAL0` (R836). -/
def Reg.idSerial0 : Nat := 0x0
/-- `ID_SERIAL1` (R836). -/
def Reg.idSerial1 : Nat := 0x8
/-- `ID_PART` (R836). -/
def Reg.idPart : Nat := 0x10
/-- `ID_FVOID0` (R836). -/
def Reg.idFvoid0 : Nat := 0x18
/-- `ID_FVOID1` (R836). -/
def Reg.idFvoid1 : Nat := 0x20
/-- `ID_BOOTS` (R836). -/
def Reg.idBoots : Nat := 0x28
/-- `ID_ECPUBk` (R836). -/
def Reg.idEcpubk (k : Nat) : Nat := 0x40 + 0x8 * k
/-- `ID_HSSPUBk` (R836). -/
def Reg.idHsspubk (k : Nat) : Nat := 0xa0 + 0x8 * k
/-- `ID_ATTCTL` (R836). -/
def Reg.idAttctl : Nat := 0x100
/-- `ID_ATTSTAT` (R836). -/
def Reg.idAttstat : Nat := 0x108
/-- `ID_NONCEk` (R836). -/
def Reg.idNoncek (k : Nat) : Nat := 0x110 + 0x8 * k
/-- `ID_LMS` (R836). -/
def Reg.idLms : Nat := 0x140
/-- `ID_ATTBUF` (R836). -/
def Reg.idAttbuf (k : Nat) : Nat := 0x1000 + 0x8 * k
/-- `GRN_STAT` (R837). -/
def Reg.grnStat : Nat := 0x30100
/-- `GRN_AREAa` (R837). -/
def Reg.grnAreaa (a : Nat) : Nat := 0x30108 + 0x8 * a
/-- `GRN_RSEL` (R837). -/
def Reg.grnRsel : Nat := 0x30128
/-- `GRN_RSTAT` (R837). -/
def Reg.grnRstat : Nat := 0x30130
/-- `GRN_CHAINk` (R837). -/
def Reg.grnChaink (k : Nat) : Nat := 0x30140 + 0x8 * k
/-- `GRN_CTL` (R837). -/
def Reg.grnCtl : Nat := 0x30170
/-- `GRN_RDATAk` (R837). -/
def Reg.grnRdatak (k : Nat) : Nat := 0x30200 + 0x8 * k

/-- A row of the map: base, strides and counts of its copies, the bits that a write stores (RW), the bits that writing 1
clears (W1C), the reset value, fields whose value reads as the nearest legal one (low bit, width, least, greatest), and
whether only PF0 may write it (R591). -/
structure RegRow where
  base : Nat
  dims : List (Nat × Nat)
  rw : Word
  w1c : Word
  rst : Word
  clamp : List (Nat × Nat × Nat × Nat)
  pf0 : Bool
deriving DecidableEq, Repr

/-- Rows of the map whose register stores bits that a write changes or resets to a value other than zero. -/
def regRowsTail : List RegRow := [
  ⟨0x100400, [(0x10000, 84)], 0xfff800ff007f, 0x0, 0x0, [], false⟩,
  ⟨0x100420, [(0x10000, 84)], 0x1fff8, 0x0, 0x0, [], false⟩,
  ⟨0x4000100, [(0x100, 8)], 0xffffffffffffffff, 0x0, 0x0, [], false⟩,
  ⟨0x4000108, [(0x100, 8)], 0xffffffffffffffff, 0x0, 0x0, [], false⟩,
  ⟨0x4000110, [(0x100, 8)], 0x0, 0xe, 0x0, [], false⟩,
  ⟨0x4000118, [(0x100, 8)], 0xffffffff, 0x0, 0x2710, [(0, 32, 1, 4294967295)], false⟩,
  ⟨0xa00030, [(0x10000, 24)], 0xff01, 0x0, 0x1801, [(8, 8, 1, 168)], false⟩,
  ⟨0xa00038, [(0x10000, 24)], 0xffffffff00000000, 0x0, 0x400100400000000, [], false⟩,
  ⟨0x1000100, [], 0xffffffff, 0x0, 0x3e8, [(0, 32, 1, 4294967295)], false⟩,
  ⟨0x1000108, [], 0x1ffff007f, 0x0, 0x0, [], false⟩,
  ⟨0x100480, [(0x10000, 84)], 0xffffffffff, 0x0, 0x1001900002, [(32, 8, 1, 16), (16, 16, 0, 450)], false⟩,
  ⟨0x60008, [(0x800, 32)], 0x107, 0x0, 0x100, [], false⟩,
  ⟨0x60018, [(0x800, 32)], 0xffffff00ffffffff, 0x0, 0xfc7c140000000fa0, [], false⟩,
  ⟨0x600c8, [(0x800, 32)], 0xffffffff, 0x0, 0x0, [], false⟩,
  ⟨0x60400, [], 0xffffffc0, 0x0, 0x0, [], false⟩,
  ⟨0x60408, [], 0x3f1f1f, 0x0, 0x281010, [(16, 6, 1, 63), (8, 5, 1, 16), (0, 5, 1, 16)], false⟩,
  ⟨0x60410, [], 0x1ff, 0x0, 0x190, [(0, 9, 1, 400)], false⟩,
  ⟨0x100508, [(0x10000, 84)], 0x1, 0x0, 0x0, [], false⟩]

/-- Rows of the map whose register stores bits that a write changes or resets to a value other than zero. -/
def regRowsPrt : List RegRow := [
  ⟨0x51400, [(0x1000, 8)], 0x1ffffffffffff, 0x0, 0x103e80fff0040, [], false⟩,
  ⟨0x51408, [(0x1000, 8)], 0x1f, 0x0, 0x1, [(0, 5, 1, 16)], false⟩,
  ⟨0x51510, [(0x1000, 8)], 0x1ff, 0x0, 0xff, [], true⟩,
  ⟨0x51710, [(0x1000, 8)], 0x1fffff, 0x0, 0x0, [], false⟩,
  ⟨0x51720, [(0x1000, 8)], 0xff01, 0x0, 0x1000, [], true⟩,
  ⟨0x51728, [(0x1000, 8)], 0xffffffff, 0x0, 0x0, [], false⟩,
  ⟨0x51808, [(0x1000, 8)], 0x7ff, 0x0, 0x40, [(0, 11, 1, 1024)], true⟩,
  ⟨0x51810, [(0x1000, 8)], 0xffffffffffffffff, 0x0, 0x0, [], true⟩,
  ⟨0x51818, [(0x1000, 8)], 0xffff, 0x0, 0x0, [], false⟩,
  ⟨0x51a00, [(0x1000, 8)], 0xffffffffffffffff, 0x0, 0x0, [], false⟩,
  ⟨0x51a10, [(0x1000, 8)], 0xffffff00ffff, 0x0, 0x3003200000a, [(40, 8, 1, 255), (24, 16, 1, 65535), (0, 16, 10, 65535)], true⟩,
  ⟨0x51a20, [(0x1000, 8)], 0xffffffff, 0x0, 0x64, [(0, 32, 1, 4294967295)], true⟩,
  ⟨0x51a40, [(0x1000, 8), (0x8, 16)], 0x8000000fffffffff, 0x0, 0x0, [], true⟩,
  ⟨0x51c00, [(0x1000, 8)], 0x8000ffffffffffff, 0x0, 0x0, [], true⟩,
  ⟨0x51c08, [(0x1000, 8)], 0xffffffffffff, 0x0, 0x0, [], true⟩,
  ⟨0x51c10, [(0x1000, 8)], 0xffffffff, 0x0, 0x64, [(0, 32, 1, 4294967295)], false⟩,
  ⟨0x51c18, [(0x1000, 8)], 0x3f, 0x0, 0x0, [], false⟩,
  ⟨0x51c38, [(0x1000, 8)], 0x0, 0x0, 0x40000000ffff0000, [], false⟩,
  ⟨0x51c48, [(0x1000, 8)], 0x0, 0x80000000, 0x0, [], false⟩]

/-- Rows of the map whose register stores bits that a write changes or resets to a value other than zero. -/
def regRowsMod : List RegRow := [
  ⟨0x30018, [], 0x1ffffffff, 0x0, 0x0, [], false⟩,
  ⟨0x30038, [], 0xff, 0x0, 0x8, [(0, 8, 1, 255)], false⟩,
  ⟨0x10008, [], 0x3f3f, 0x0, 0xc0c, [], false⟩,
  ⟨0x10108, [], 0x3ffffffff, 0x0, 0x1000003e8, [(0, 32, 1, 4294967295)], false⟩,
  ⟨0x10110, [], 0xffffffff, 0x0, 0x0, [], false⟩,
  ⟨0x10118, [], 0x0, 0x1000000000000000, 0x0, [], false⟩,
  ⟨0x10120, [], 0xfffff, 0x0, 0x3e8, [(0, 20, 1000, 1000000)], false⟩,
  ⟨0x20010, [], 0x3, 0x0, 0x0, [], false⟩,
  ⟨0x8040, [], 0xfffffffffffff000, 0x0, 0x0, [], false⟩,
  ⟨0x8048, [], 0xffffffff, 0x0, 0x0, [], false⟩,
  ⟨0x8058, [], 0x1, 0x0, 0x0, [], false⟩]

/-- Rows of the map whose register stores bits that a write changes or resets to a value other than zero. -/
def regRowsHst : List RegRow := [
  ⟨0x40008, [], 0xfffffffffffff000, 0x0, 0x0, [], false⟩,
  ⟨0x51008, [(0x1000, 8)], 0xfffffffffffff000, 0x0, 0x0, [], false⟩,
  ⟨0x40010, [], 0x11f, 0x0, 0x6, [(0, 5, 6, 16)], false⟩,
  ⟨0x51010, [(0x1000, 8)], 0x11f, 0x0, 0x6, [(0, 5, 6, 16)], false⟩,
  ⟨0x40018, [], 0xffff, 0x0, 0x0, [], false⟩,
  ⟨0x51018, [(0x1000, 8)], 0xffff, 0x0, 0x0, [], false⟩,
  ⟨0x40020, [], 0x0, 0x0, 0x10000, [], false⟩,
  ⟨0x51020, [(0x1000, 8)], 0x0, 0x0, 0x10000, [], false⟩,
  ⟨0x40028, [], 0xfffffffffffff000, 0x0, 0x0, [], false⟩,
  ⟨0x51028, [(0x1000, 8)], 0xfffffffffffff000, 0x0, 0x0, [], false⟩,
  ⟨0x40030, [], 0xff001f, 0x0, 0x6, [(0, 5, 6, 16)], false⟩,
  ⟨0x51030, [(0x1000, 8)], 0xff001f, 0x0, 0x6, [(0, 5, 6, 16)], false⟩,
  ⟨0x40038, [], 0xffff, 0x0, 0x0, [], false⟩,
  ⟨0x51038, [(0x1000, 8)], 0xffff, 0x0, 0x0, [], false⟩,
  ⟨0x40040, [], 0x0, 0x0, 0x10000, [], false⟩,
  ⟨0x51040, [(0x1000, 8)], 0x0, 0x0, 0x10000, [], false⟩,
  ⟨0x40048, [], 0xffffc0000000, 0x0, 0x0, [], false⟩,
  ⟨0x51048, [(0x1000, 8)], 0xffffc0000000, 0x0, 0x0, [], false⟩,
  ⟨0x40200, [(0x8, 9)], 0x1ff, 0x0, 0x100, [(0, 9, 1, 256)], false⟩,
  ⟨0x41000, [(0x80, 9), (0x10, 8)], 0xfffffffffffff001, 0x0, 0x0, [], false⟩,
  ⟨0x41008, [(0x80, 9), (0x10, 8)], 0xfffffffffffff000, 0x0, 0x0, [], false⟩]

/-- The whole map. -/
def regRows : List RegRow := regRowsTail ++ regRowsPrt ++ regRowsMod ++ regRowsHst

/-- `a` is copy number (i, j, …) of a row. -/
def RegRow.covers : Nat → List (Nat × Nat) → Bool
  | d, [] => d == 0
  | d, (s, n) :: r => decide (d / s < n) && RegRow.covers (d % s) r

/-- The row of the register at `a`. -/
def regRow (a : Nat) : Option RegRow := regRows.find? fun r => decide (r.base ≤ a) && RegRow.covers (a - r.base) r.dims

/-- The Reset column (R16); `STL_PCFG.ROLE` of port p is p div 5, and 7 for ports 30 and 31 (R678).
(DESIGN CHOICE, log 6) -/
def regReset (a : Nat) : Word :=
  match regRow a with
  | none => 0
  | some r =>
    if r.base = 0x60008 then
      let p := (a - 0x60008) / 0x800
      0x100 + BitVec.ofNat 64 (if p < 30 then p / 5 else 7)
    else r.rst

end Sys2Proof.Machine
end

