-- ==== Sys2Proof/Machine/Ops.lean ====
section
/-!
DEFINITION. The named operations that the meanings share: bit fields, bytes, registers, the parts of the state, memory,
time, events and the host's logs.
-/

namespace Sys2Proof

/-- The number of a physical tile: 12,288 tiles a bay, 128 a row (R26, R29). -/
def PT.key (t : PT) : Nat := 12288 * t.bay + 128 * t.row + t.col
/-- The physical tile of a number. -/
def PT.ofKey (k : Nat) : PT := { bay := k / 12288, col := k % 128, row := k % 12288 / 128 }
/-- A tile of the wafer (R29). -/
def PT.valid (t : PT) : Bool := decide (t.bay < 84) && decide (t.col < 128) && decide (t.row < 96)

/-- The port number of a direction (R270). -/
def Dir.key : Dir → Nat
  | .north => 0
  | .east => 1
  | .south => 2
  | .west => 3

end Sys2Proof

namespace Sys2Proof.Machine

/-- The outcome of a command. -/
abbrev Out := Host.Outcome State Fault Refusal

/-- The next state of a command's effect. -/
def after (o : Out) (s : State) : State :=
  match o with
  | .next t => t
  | _ => s

/-! ### Bit fields and bytes -/

/-- The field [hi:lo] of a word (R5). -/
def fieldOf (w : Word) (hi lo : Nat) : Nat := (w.extractLsb' lo (hi + 1 - lo)).toNat

/-- The word with its field [hi:lo] set to the low bits of `v`. -/
def withField (w : Word) (hi lo v : Nat) : Word :=
  let m : Word := BitVec.ofNat 64 (2 ^ (hi + 1 - lo) - 1) <<< lo
  (w &&& ~~~m) ||| ((BitVec.ofNat 64 v <<< lo) &&& m)

/-- A word with one field set. -/
def fld (hi lo v : Nat) : Word := withField 0 hi lo v

/-- A field of one bit from a condition. -/
def flag (c : Bool) : Nat := if c then 1 else 0

/-- `n` bytes of a number, least significant first (R5). -/
def leBytes : Nat → Nat → List Byte
  | 0, _ => []
  | n + 1, v => BitVec.ofNat 8 v :: leBytes n (v / 256)

/-- The number whose bytes are given, least significant first (R5). -/
def ofLe : List Byte → Nat
  | [] => 0
  | b :: r => b.toNat + 256 * ofLe r

/-- The number in `n` bytes of a record at offset `o`. -/
def leAt (d : List Byte) (o n : Nat) : Nat := ofLe ((d.drop o).take n)

/-- A list cut or filled with zeros to `n` bytes. -/
def padTo (n : Nat) (d : List Byte) : List Byte := (d ++ List.replicate (n - d.length) 0).take n

/-- A signed number from the low `w` bits of `v`, two's complement. -/
def signedOf (w v : Nat) : Int := if v % 2 ^ w < 2 ^ (w - 1) then (v % 2 ^ w : Nat) else (v % 2 ^ w : Nat) - (2 ^ w : Nat)

/-- The low `w` bits of a signed number. -/
def unsignedOf (w : Nat) (v : Int) : Nat := (v % (2 ^ w : Nat)).toNat

/-- The numbers of the set bits of a mask, below `n`. -/
def setBits (n m : Nat) : List Nat := (List.range n).filter fun i => m.testBit i

/-! ### CRCs -/

/-- One bit of a reflected CRC with polynomial `poly`. -/
def crcBit (poly : Nat) (c : Nat) : Nat := if c % 2 = 1 then (c / 2) ^^^ poly else c / 2

/-- One byte into a reflected CRC. -/
def crcByte (poly : Nat) (c : Nat) (b : Byte) : Nat :=
  let c := c ^^^ b.toNat
  crcBit poly (crcBit poly (crcBit poly (crcBit poly (crcBit poly (crcBit poly (crcBit poly (crcBit poly c)))))))

/-- The CRC-32C register after a byte string, from `c`; the reflected form of polynomial 0x1EDC_6F41 (R23). -/
def crc32cFrom (c : Nat) (d : List Byte) : Nat := d.foldl (crcByte 0x82f63b78) c

/-- CRC-32C with initial value and final XOR all ones (R602). (PRESUMED, log 15) -/
def crc32c (d : List Byte) : Nat := crc32cFrom 0xffffffff d ^^^ 0xffffffff

/-! ### Parts of the state -/

def State.modComp (f : Compute → Compute) (s : State) : State := { s with comp := f s.comp }
def State.modHost (f : HostSide → HostSide) (s : State) : State := { s with host := f s.host }
def State.modMan (f : Manage → Manage) (s : State) : State := { s with man := f s.man }
def State.modPhys (f : Physical → Physical) (s : State) : State := { s with phys := f s.phys }

def State.part (s : State) (p : Nat) : Part := Tab.get Part.reset s.comp.parts p
def State.setPart (p : Nat) (x : Part) (s : State) : State :=
  { s with comp := { s.comp with parts := Tab.set Part.reset s.comp.parts p x } }
def State.modPart (p : Nat) (f : Part → Part) (s : State) : State := s.setPart p (f (s.part p))

def State.bay (s : State) (b : Nat) : Bay := Tab.get Bay.reset s.phys.bays b
def State.setBay (b : Nat) (x : Bay) (s : State) : State :=
  { s with phys := { s.phys with bays := Tab.set Bay.reset s.phys.bays b x } }
def State.modBay (b : Nat) (f : Bay → Bay) (s : State) : State := s.setBay b (f (s.bay b))

/-- A tile; one that is not listed is as its bay's base tile. -/
def State.tile (s : State) (t : PT) : Tile := Tab.get (s.bay t.bay).base s.comp.tiles t.key
def State.setTile (t : PT) (x : Tile) (s : State) : State :=
  { s with comp := { s.comp with tiles := Tab.set (s.bay t.bay).base s.comp.tiles t.key x } }
def State.modTile (t : PT) (f : Tile → Tile) (s : State) : State := s.setTile t (f (s.tile t))

/-- Apply `f` to every tile of bay `b`: its base and its listed tiles. -/
def State.modBayTiles (b : Nat) (f : PT → Tile → Tile) (s : State) : State :=
  let base := f { bay := b, col := 128, row := 96 } (s.bay b).base
  let tiles := (s.comp.tiles.map fun kv =>
    if kv.1 / 12288 = b then (kv.1, f (PT.ofKey kv.1) kv.2) else kv).filter
      fun kv => decide (kv.1 / 12288 ≠ b ∨ kv.2 ≠ base)
  { s with comp := { s.comp with tiles := tiles }, phys := (s.setBay b { s.bay b with base := base }).phys }

def State.router (s : State) (r : PT) : Router := Tab.get (s.bay r.bay).rbase s.comp.routers r.key
def State.setRouter (r : PT) (x : Router) (s : State) : State :=
  { s with comp := { s.comp with routers := Tab.set (s.bay r.bay).rbase s.comp.routers r.key x } }
def State.modRouter (r : PT) (f : Router → Router) (s : State) : State := s.setRouter r (f (s.router r))

/-- Apply `f` to every router of bay `b`: its base and its listed routers. -/
def State.modBayRouters (b : Nat) (f : PT → Router → Router) (s : State) : State :=
  let base := f { bay := b, col := 128, row := 96 } (s.bay b).rbase
  let routers := (s.comp.routers.map fun kv =>
    if kv.1 / 12288 = b then (kv.1, f (PT.ofKey kv.1) kv.2) else kv).filter
      fun kv => decide (kv.1 / 12288 ≠ b ∨ kv.2 ≠ base)
  { s with comp := { s.comp with routers := routers }, phys := (s.setBay b { s.bay b with rbase := base }).phys }

def State.link (s : State) (r : PT) (d : Dir) : Link := Tab.get Link.reset (s.router r).links d.key
def State.setLink (r : PT) (d : Dir) (x : Link) (s : State) : State :=
  s.modRouter r fun ro => { ro with links := Tab.set Link.reset ro.links d.key x }

def State.stack (s : State) (k : Nat) : Stack := Tab.get Stack.reset s.comp.stackTab k
def State.setStack (k : Nat) (x : Stack) (s : State) : State :=
  { s with comp := { s.comp with stackTab := Tab.set Stack.reset s.comp.stackTab k x } }
def State.modStack (k : Nat) (f : Stack → Stack) (s : State) : State := s.setStack k (f (s.stack k))

def State.engine (s : State) (e : Nat) : Engine := Tab.get Engine.reset s.comp.engines e
def State.setEngine (e : Nat) (x : Engine) (s : State) : State :=
  { s with comp := { s.comp with engines := Tab.set Engine.reset s.comp.engines e x } }

def State.flume (s : State) (f : Nat) : List Copy := Tab.get [] s.comp.flumes f
def State.setFlume (f : Nat) (x : List Copy) (s : State) : State :=
  { s with comp := { s.comp with flumes := Tab.set [] s.comp.flumes f x } }

def State.func (s : State) (f : Nat) : Func := Tab.get Func.reset s.host.funcs f
def State.setFunc (f : Nat) (x : Func) (s : State) : State :=
  { s with host := { s.host with funcs := Tab.set Func.reset s.host.funcs f x } }
def State.modFunc (f : Nat) (g : Func → Func) (s : State) : State := s.setFunc f (g (s.func f))

def State.pair (s : State) (k : Nat) : Pair := Tab.get Pair.reset s.man.pairs k
def State.setPair (k : Nat) (x : Pair) (s : State) : State :=
  { s with man := { s.man with pairs := Tab.set Pair.reset s.man.pairs k x } }
/-- Both cores of pair `k` are reset, held in reset or released (R463, R465). -/
def State.resetCores (k : Nat) (held : Bool) (s : State) : State :=
  { s with man := { s.man with
    cores := [2 * k, 2 * k + 1].foldl (fun t i => Tab.set JnrCore.reset t i { JnrCore.reset with held := held }) s.man.cores } }

/-- A basin of an endpoint (R476, R477): endpoint number and basin number. -/
def basinKey (ep n : Nat) : Nat := ep * 64 + n
def State.basin (s : State) (ep n : Nat) : Basin := Tab.get Basin.reset s.man.basins (basinKey ep n)
def State.setBasin (ep n : Nat) (x : Basin) (s : State) : State :=
  { s with man := { s.man with basins := Tab.set Basin.reset s.man.basins (basinKey ep n) x } }

def State.sport (s : State) (ep : Nat) : SendPort := Tab.get SendPort.reset s.man.ports ep
def State.setSport (ep : Nat) (x : SendPort) (s : State) : State :=
  { s with man := { s.man with ports := Tab.set SendPort.reset s.man.ports ep x } }

def State.stlp (s : State) (p : Nat) : StlPort := Tab.get StlPort.reset s.phys.stl p
def State.setStlp (p : Nat) (x : StlPort) (s : State) : State :=
  { s with phys := { s.phys with stl := Tab.set StlPort.reset s.phys.stl p x } }
def State.modStlp (p : Nat) (f : StlPort → StlPort) (s : State) : State := s.setStlp p (f (s.stlp p))

def State.modPower (f : Power → Power) (s : State) : State := { s with phys := { s.phys with power := f s.phys.power } }
def State.modClock (f : Clock → Clock) (s : State) : State := { s with phys := { s.phys with clock := f s.phys.clock } }
def State.modTime (f : TideBase → TideBase) (s : State) : State := { s with phys := { s.phys with time := f s.phys.time } }
def State.modBoot (f : Boot → Boot) (s : State) : State := { s with man := { s.man with boot := f s.man.boot } }
def State.modGrain (f : Grain → Grain) (s : State) : State := { s with man := { s.man with grain := f s.man.grain } }
def State.modLms (f : Lms → Lms) (s : State) : State := { s with man := { s.man with lms := f s.man.lms } }
def State.modPins (f : Pins → Pins) (s : State) : State := { s with man := { s.man with pins := f s.man.pins } }

def State.modOwn (p : Nat) (f : PartOwn → PartOwn) (s : State) : State := s.modPart p fun x => { x with own := f x.own }
def State.modRun (p : Nat) (f : PartRun → PartRun) (s : State) : State := s.modPart p fun x => { x with run := f x.run }
def State.modPln (p : Nat) (f : PartPlane → PartPlane) (s : State) : State := s.modPart p fun x => { x with pln := f x.pln }
def State.modCommit (p : Nat) (f : Commit → Commit) (s : State) : State := s.modPart p fun x => { x with commit := f x.commit }
def State.modHeal (p : Nat) (f : Heal → Heal) (s : State) : State := s.modPart p fun x => { x with heal := f x.heal }

/-- Rim segment `n` has its supply (R46, R57). -/
def State.segUp (s : State) (n : Nat) : Bool := s.phys.power.segs.getLsbD n

/-! ### The register file -/

/-- The stored bits of the register at address `a`. -/
def State.reg (s : State) (a : Nat) : Word := Tab.get (regReset a) s.regs a
def State.setReg (a : Nat) (v : Word) (s : State) : State := { s with regs := Tab.set (regReset a) s.regs a v }
/-- A field of a register. -/
def State.field (s : State) (a hi lo : Nat) : Nat := fieldOf (s.reg a) hi lo
def State.setField (a hi lo v : Nat) (s : State) : State := s.setReg a (withField (s.reg a) hi lo v)
/-- Count `n` more in a field that saturates (R17). -/
def State.bump (a hi lo : Nat) (n : Nat) (s : State) : State :=
  s.setField a hi lo (min (s.field a hi lo + n) (2 ^ (hi + 1 - lo) - 1))
/-- Count `n` more in a field whose map says it wraps (R17). -/
def State.bumpWrap (a hi lo : Nat) (n : Nat) (s : State) : State := s.setField a hi lo (s.field a hi lo + n)

/-- The staging value of a register's low half (R14): a write of the low half sets it. (DEDUCED, log 10) -/
def State.setStage (a : Nat) (d : Dword) (s : State) : State := { s with stage := Tab.set 0 s.stage a d }
/-- The register at `a` is written whole with `v`: the staging value takes its low half (R14). -/
def State.staged (a : Nat) (v : Word) (s : State) : State := s.setStage a (v.extractLsb' 0 32)

/-- Clear a range of registers, their staging values and their latches to reset (R14, R16). (DEDUCED, log 10) -/
def State.resetRegs (keep : Nat → Bool) (s : State) : State :=
  { s with regs := s.regs.filter fun kv => keep kv.1
           stage := s.stage.filter fun kv => keep kv.1
           latch := s.latch.filter fun kv => keep kv.1 }

/-! ### Time (R17, R702) -/

/-- Tide, in nanoseconds. -/
def State.now (s : State) : Nat := s.tide.toNat
/-- Time passes to `t`: Tide moves forward only, and saturates. (DESIGN CHOICE, log 4) -/
def State.passTo (t : Nat) (s : State) : State :=
  { s with tide := BitVec.ofNat 64 (max s.tide.toNat (min t (2 ^ 64 - 1))) }
/-- Time passes by `n` nanoseconds. (DESIGN CHOICE, log 4; DESIGN CHOICE, log 85) -/
def State.pass (n : Nat) (s : State) : State := s.passTo (s.now + n)

/-- Draw a number that the spec leaves open. (DESIGN CHOICE, log 8; DESIGN CHOICE, log 109) -/
def State.draw (s : State) : Nat × State := (Config.freeNat s.free, { s with free := s.free + 1 })

/-- Draw `n` bytes that the spec leaves open. (DESIGN CHOICE, log 56) -/
def State.drawBytes : Nat → State → List Byte × State
  | 0, s => ([], s)
  | n + 1, s =>
    let d := s.draw
    let r := State.drawBytes n d.2
    (BitVec.ofNat 8 d.1 :: r.1, r.2)

/-- Something leaves the module. (DESIGN CHOICE, log 110) -/
def State.emitOut (o : Output) (s : State) : State := { s with out := o :: s.out }

/-! ### Byte memories -/

/-- `n` bytes of a sparse byte memory from `a`; an unlisted byte reads 0. (DESIGN CHOICE, log 7) -/
def memRead (m : List Host.Cell) (a n : Nat) : List Byte := (List.range n).map fun i => Tab.get 0 m (a + i)
/-- Store bytes from `a`. -/
def memWrite (m : List Host.Cell) (a : Nat) : List Byte → List Host.Cell
  | [] => m
  | b :: r => memWrite (Tab.set 0 m a b) (a + 1) r

/-- Bytes are stored in the sluice memory of endpoint `ep` (R467, R477). -/
def State.writeSluice (ep off : Nat) (d : List Byte) (s : State) : State :=
  { s with man := { s.man with sluice := memWrite s.man.sluice (2 ^ 19 * ep + off) d } }

/-! ### Host memory requests (R626, R627) and the logs (R617 to R621) -/

/-- The range lies within one enabled DMA window of function `f` (R626). -/
def State.dmaOk (s : State) (f addr len : Nat) : Bool :=
  (List.range 8).any fun w =>
    let b := s.reg (Reg.hstDmawinWb f w)
    let l := s.reg (Reg.hstDmawinWl f w)
    b.getLsbD 0 && decide (4096 * fieldOf b 63 12 ≤ addr) && decide (addr + len ≤ 4096 * (fieldOf l 63 12 + 1)) &&
      decide (len ≠ 0)

/-- The HST_ function register base of function `f` when it has one. -/
def funcs : List Nat := List.range 9

/-- A log's registers: base, configuration, head and tail (R632). -/
def logBase (f : Nat) : LogKind → Nat
  | .completion => Reg.hstClogBase f
  | .event => Reg.hstEvlogBase f
def logCfg (f : Nat) : LogKind → Nat
  | .completion => Reg.hstClogCfg f
  | .event => Reg.hstEvlogCfg f
def logHead (f : Nat) : LogKind → Nat
  | .completion => Reg.hstClogHead f
  | .event => Reg.hstEvlogHead f
def logTail (f : Nat) : LogKind → Nat
  | .completion => Reg.hstClogTail f
  | .event => Reg.hstEvlogTail f
def logEnBit : LogKind → Nat
  | .completion => 8
  | .event => 16

def State.logEn (s : State) (f : Nat) (k : LogKind) : Bool := (s.reg (logCfg f k)).getLsbD (logEnBit k)
/-- The entries of the ring: 2^LOG2N (R617). -/
def State.logSize (s : State) (f : Nat) (k : LogKind) : Nat := 2 ^ s.field (logCfg f k) 4 0
/-- Entries written and not freed. -/
def State.logUnread (s : State) (f : Nat) (k : LogKind) : Nat :=
  let n := s.logSize f k
  (s.field (logTail f k) 15 0 + n - s.field (logHead f k) 15 0 % n) % n
/-- The device may write an entry (R606, R617). -/
def State.logRoom (s : State) (f : Nat) (k : LogKind) : Bool :=
  s.logEn f k && decide (s.logUnread f k < s.logSize f k - 1)

/-- An MSI-X message of a vector; a masked vector sets its pending bit (R621). The entry is address, data, mask.
(PRESUMED, log 67) -/
def State.sendMsix (f v : Nat) (s : State) : State :=
  let e := Tab.get ((0 : Word), (0 : Dword), true) (s.func f).msix v
  if e.2.2 then s.modFunc f fun x => { x with msixPend := withField x.msixPend v v 1 }
  else s.emitOut (.msix f v)

/-- The event of a blocked request is due: once a second per function (R626). -/
def State.blockDue (s : State) (f : Nat) : Bool :=
  match (s.func f).dmaAt with
  | none => true
  | some t => decide (t + 1000000000 ≤ s.now)

/-- Count a blocked request and say whether its event is due (R626). -/
def State.countBlocked (f : Nat) (s : State) : State × Bool :=
  let due := s.blockDue f
  let s := s.bump (Reg.hstFuncstat f) 47 32 1
  if due then (s.modFunc f fun x => { x with dmaAt := some s.now }, true) else (s, false)

/-- Hold an event for function `f`; beyond 4,096 held the oldest is dropped and counted (R620). -/
def State.holdEvent (f : Nat) (e : Event) (s : State) : State :=
  if (s.func f).events.length < 4096 then s.modFunc f fun x => { x with events := x.events ++ [e] }
  else
    let s := s.modFunc f fun x => { x with events := x.events.drop 1 ++ [e], lost := true }
    s.bump (Reg.hstEvlogTail f) 63 48 1

/-- A record of a source, stamped with Tide. -/
def State.record (s : State) (type srck srci : Nat) (body : List Byte) : GrnRec :=
  { type := BitVec.ofNat 16 type, srck := BitVec.ofNat 8 srck, srci := BitVec.ofNat 8 srci, tide := s.tide, body := padTo 216 body }

/-- A record leaves its source for the writer (R825). -/
def State.sendRecord (type srck srci : Nat) (body : List Byte) (s : State) : State :=
  s.modGrain fun g => { g with waiting := g.waiting ++ [s.record type srck srci body] }

/-- The body of an event record (R831). (DESIGN CHOICE, log 13) -/
def eventBody (e : Event) : List Byte :=
  leBytes 2 e.code.toNat ++
  leBytes 1 (match e.sev with
    | .info => 0
    | .degraded => 1
    | .partitionFatal => 2
    | .moduleFatal => 3) ++
  leBytes 1 e.part ++ leBytes 4 0 ++ leBytes 16 (Config.eventOperands e.code.toNat e.ops).toNat

/-- A request that fails the check of R626: it is counted, and its event, when due, is held for PF0 and the function and
recorded; `State.deliver` writes it. -/
def State.holdBlocked (f addr : Nat) (s : State) : State :=
  let r := s.countBlocked f
  if r.2 then
    let e : Event := { code := Ev.hstDmaBlocked.code, sev := Ev.hstDmaBlocked.sev, part := f, tide := s.tide, ops := [f, addr] }
    let s := (r.1.sendRecord 0x0020 3 0 (eventBody e)).holdEvent 0 e
    if f = 0 then s else s.holdEvent f e
  else r.1

/-- Write one 32-byte entry at TAIL and advance it; PHASE toggles at each wrap (R617). The entry's byte 7 or 3 takes
PHASE in bit 0. -/
def State.logWrite (f : Nat) (k : LogKind) (entry : Bool → List Byte) (s : State) : State :=
  let n := s.logSize f k
  let t := s.field (logTail f k) 15 0
  let ph := (s.reg (logTail f k)).getLsbD 16
  let a := 4096 * fieldOf (s.reg (logBase f k)) 63 12 + 32 * t
  let s := if s.dmaOk f a 32 then s.emitOut (.hostWrite f a (entry ph) false)
    else s.holdBlocked f a
  let s := s.setField (logTail f k) 15 0 ((t + 1) % n)
  if t + 1 = n then s.setField (logTail f k) 16 16 (if ph then 0 else 1) else s

/-- The bytes of an event entry (R619). (DESIGN CHOICE, log 13) -/
def eventEntry (e : Event) (lost ph : Bool) : List Byte :=
  leBytes 2 e.code.toNat ++
  leBytes 1 (match e.sev with
    | .info => 0
    | .degraded => 1
    | .partitionFatal => 2
    | .moduleFatal => 3) ++
  leBytes 1 (flag ph + 2 * flag lost) ++ leBytes 1 e.part ++ leBytes 3 0 ++ leBytes 8 e.tide.toNat ++
  leBytes 16 (Config.eventOperands e.code.toNat e.ops).toNat

/-- Write one held event of function `f`, the oldest (R619 to R621). -/
def State.writeEvent (f : Nat) (s : State) : State :=
  match (s.func f).events with
  | [] => s
  | e :: r =>
    let lost := (s.func f).lost
    let s := s.modFunc f fun x => { x with events := r, lost := false }
    let s := s.logWrite f .event (eventEntry e lost)
    let c := s.reg (Reg.hstEvlogCfg f)
    if c.getLsbD 17 then s.sendMsix f (fieldOf c 23 18) else s

/-- Events can be written to the host: the link is in L0 and the log has room (R586, R617). -/
def State.canLog (s : State) (f : Nat) : Bool := s.host.pcie.up && s.logRoom f .event

/-- Write held events while the log has room: at most `n` of them. -/
def State.flushEvents (f : Nat) : Nat → State → State
  | 0, s => s
  | n + 1, s => if s.canLog f then (s.writeEvent f).flushEvents f n else s

/-- Deliver an event to the event stream of function `f`. -/
def State.deliver (f : Nat) (e : Event) (s : State) : State :=
  let s := s.holdEvent f e
  s.flushEvents f (s.func f).events.length

/-- Raise an event (R20, R21): it goes to PF0's event stream, to PFp's when it names partition p (R620), and to the
Grain log (R21). -/
def State.raise (id : EventId) (part : Nat) (ops : List Nat) (s : State) : State :=
  let e : Event := { code := id.code, sev := id.sev, part := part, tide := s.tide, ops := ops }
  let s := s.sendRecord 0x0020 3 0 (eventBody e)
  let s := s.deliver 0 e
  if part = 0 then s else s.deliver part e

/-- A request that fails the check of R626: counted, and reported at most once a second per function. -/
def State.dmaBlocked (f addr : Nat) (s : State) : State :=
  let r := s.countBlocked f
  if r.2 then r.1.raise Ev.hstDmaBlocked f [f, addr] else r.1

end Sys2Proof.Machine
end

