-- ==== Sys2Proof/Machine/Flags.lean ====
section
/-!
DEFINITION. The arithmetic status bits of `TILE_XSTAT` (R102).
-/

namespace Sys2Proof.Machine

/-- Status bits, as `TILE_XSTAT` [7:0] numbers them (R102). -/
abbrev XFlags := BitVec 8

def xfNone : XFlags := 0
def xfUnder : XFlags := 0x01
def xfInexact : XFlags := 0x02
def xfInfOut : XFlags := 0x04
def xfSat : XFlags := 0x08
def xfNanDrop : XFlags := 0x10
def xfNanOut : XFlags := 0x20
def xfRange : XFlags := 0x40
def xfResid : XFlags := 0x80

/-- A status bit under a condition. -/
def xfIf (c : Bool) (f : XFlags) : XFlags := if c then f else 0

/-- The bits accumulate in the tile (R102). -/
def Tile.orXstat (f : XFlags) (t : Tile) : Tile := { t with c := { t.c with xstat := t.c.xstat ||| f } }

end Sys2Proof.Machine
end

