-- ==== Sys2Proof/Machine/Arith.lean ====
section
/-!
DEFINITION. Number formats, block scales, exact-sum words, conversion and rounding, binary32 and binary64 arithmetic
(spec 02_arithmetic).
-/

namespace Sys2Proof.Machine

/-! ### Values -/

/-- The value of an element or a word: a number is (−1)^neg × m × 2^e. -/
inductive Num where
  | nan
  | range
  | inf (neg : Bool)
  | fin (neg : Bool) (m : Nat) (e : Int)
deriving DecidableEq, Repr

/-- Bits of a magnitude. -/
def bitLen (m : Nat) : Nat := if m = 0 then 0 else Nat.log2 m + 1

/-- What a format does with its top encodings (R64). -/
inductive Special where
  | none | e4m3 | ieee
deriving DecidableEq, Repr

/-- A floating-point format: exponent bits, fraction bits, bias, specials (R64). -/
structure Fmt where
  eb : Nat
  mb : Nat
  bias : Nat
  sp : Special
deriving DecidableEq, Repr

def fmtB32 : Fmt := ⟨8, 23, 127, .ieee⟩
def fmtB64 : Fmt := ⟨11, 52, 1023, .ieee⟩

/-- The floating-point format of a format code (R62, R64); INT8 and the accumulator have none. -/
def fmtOf (c : Nat) : Option Fmt :=
  if c = 0 then some ⟨2, 1, 1, .none⟩
  else if c = 1 then some ⟨2, 3, 1, .none⟩
  else if c = 2 then some ⟨3, 2, 3, .none⟩
  else if c = 3 then some ⟨4, 3, 7, .e4m3⟩
  else if c = 4 then some ⟨5, 2, 15, .ieee⟩
  else if c = 6 then some ⟨8, 7, 127, .ieee⟩
  else if c = 7 then some fmtB32
  else none

/-- Element width in bits (R62). -/
def fmtWidth (c : Nat) : Nat :=
  if c = 0 then 4 else if c = 1 ∨ c = 2 then 6 else if c ≤ 5 then 8 else if c = 6 then 16 else if c = 7 then 32 else 128

/-- Elements in a block of a scaling code (R67); 0 for the unscaled and reserved codes. -/
def blockOf (x : Nat) : Nat := if x = 1 then 32 else if x = 2 then 16 else 0

/-- The value of a floating-point encoding (R64, R65). -/
def decFmt (f : Fmt) (b : Nat) : Num :=
  let neg := b.testBit (f.eb + f.mb)
  let ef := b / 2 ^ f.mb % 2 ^ f.eb
  let mf := b % 2 ^ f.mb
  let top := 2 ^ f.eb - 1
  if f.sp = .ieee ∧ ef = top then (if mf = 0 then .inf neg else .nan)
  else if f.sp = .e4m3 ∧ ef = top ∧ mf = 2 ^ f.mb - 1 then .nan
  else
    let m := if ef = 0 then mf else 2 ^ f.mb + mf
    .fin neg m ((max ef 1 : Nat) - (f.bias : Int) - (f.mb : Int))

/-- The value of an element by its format code (R65, R66); a scaled INT8 element weighs 2^-6. -/
def decElem (c : Nat) (scaled : Bool) (b : Nat) : Num :=
  if c = 5 then
    let v := signedOf 8 b
    .fin (decide (v < 0)) v.natAbs (if scaled then -6 else 0)
  else
    match fmtOf c with
    | some f => decFmt f b
    | none => .nan

/-- Element i of a byte string of elements of width w (R71). -/
def elemAt (w i : Nat) (d : List Byte) : Nat := ofLe d / 2 ^ (i * w) % 2 ^ w

/-- The byte string of a list of elements of width w (R71). -/
def packElems (w : Nat) (es : List Nat) : Nat := es.foldr (fun e acc => acc * 2 ^ w + e % 2 ^ w) 0

/-! ### Exact-sum words (R73 to R79) -/

/-- A word from its window index and significand; a special word has SIG zero (R75). -/
def xsPack (win : Nat) (sig : Int) : Quad :=
  BitVec.ofNat 128 (win % 256 * 2 ^ 120 + (if win < 0xF0 then unsignedOf 120 sig else 0))
def xsWin (w : Quad) : Nat := w.toNat / 2 ^ 120
def xsSig (w : Quad) : Int := signedOf 120 (w.toNat % 2 ^ 120)

def xsNan : Quad := xsPack 0xFF 0
def xsRange : Quad := xsPack 0xFE 0
/-- The zero word of R77. -/
def xsZero : Quad := xsPack 0xEF 0
def xsInf (neg : Bool) : Quad := xsPack (if neg then 0xFD else 0xFC) 0

/-- The value of a word (R74, R75). -/
def xsNum (w : Quad) : Num :=
  let i := xsWin w
  if i < 0xF0 then .fin (decide (xsSig w < 0)) (xsSig w).natAbs (4 * (i : Int) - 288)
  else if i = 0xFC then .inf false
  else if i = 0xFD then .inf true
  else if i = 0xFE then .range
  else .nan

/-- A number as a word, in the form that its product by 1 takes (R76, R77). (DEDUCED, log 128) -/
def xsOf : Num → Quad
  | .nan => xsNan
  | .range => xsRange
  | .inf neg => xsInf neg
  | .fin neg m e =>
    if m = 0 then xsZero
    else
      let sig : Int := ((m * 2 ^ ((e + 288) % 4).toNat : Nat) : Int)
      xsPack ((e + 288) / 4).toNat (if neg then -sig else sig)

/-- The product of two narrow elements with scale exponents, none for a NaN scale, as a word (R76, R77). -/
def xsProduct (a b : Num) (sa sb : Option Int) : Quad :=
  match sa, sb, a, b with
  | some sa, some sb, .fin na ma ea, .fin nb mb eb =>
    if ma * mb = 0 then xsZero
    else
      let e := ea + eb + sa + sb + 288
      let sig : Int := ((ma * mb * 2 ^ (e % 4).toNat : Nat) : Int)
      xsPack (e / 4).toNat (if na != nb then -sig else sig)
  | some _, some _, .inf na, .inf nb => xsInf (na != nb)
  | some _, some _, .inf na, .fin nb m _ => if m = 0 then xsNan else xsInf (na != nb)
  | some _, some _, .fin na m _, .inf nb => if m = 0 then xsNan else xsInf (na != nb)
  | _, _, _, _ => xsNan

/-- The sum of two words (R78, R79). -/
def xsAdd (a b : Quad) : Quad :=
  match xsNum a, xsNum b with
  | .nan, _ => xsNan
  | _, .nan => xsNan
  | .inf na, .inf nb => if na = nb then xsInf na else xsNan
  | .inf na, _ => xsInf na
  | _, .inf nb => xsInf nb
  | .range, _ => xsRange
  | _, .range => xsRange
  | .fin .., .fin .. =>
    let i := min (xsWin a) (xsWin b)
    let s := xsSig a * 2 ^ (4 * (xsWin a - i)) + xsSig b * 2 ^ (4 * (xsWin b - i))
    if -(2 ^ 119) ≤ s ∧ s < 2 ^ 119 then xsPack i s else xsRange

/-- The scale exponent of an E8M0 byte (R68); none is NaN. -/
def scaleExp (b : Byte) : Option Int := if b = 0xFF then none else some ((b.toNat : Int) - 127)

/-- Neighbouring pairs of a list combined (R82). -/
def pairUp {α : Type} (f : α → α → α) : List α → List α
  | a :: b :: r => f a b :: pairUp f r
  | l => l

/-- The fixed pairwise tree over lane numbers of R82, in at most `n` levels. -/
def laneTree {α : Type} (f : α → α → α) : Nat → List α → List α
  | 0, l => l
  | n + 1, l => laneTree f n (pairUp f l)

/-! ### Rounding (R89 to R96) -/

/-- A rounding mode of R89; the stochastic one with its draw U (R96). -/
inductive RMode where
  | nearest
  | zero
  | stochastic (u : Nat)
deriving DecidableEq, Repr

/-- Round m × 2^e to a multiple of 2^lsb: the multiple, and whether it is exact. -/
def roundAt (md : RMode) (m : Nat) (e lsb : Int) : Nat × Bool :=
  if lsb ≤ e then (m * 2 ^ (e - lsb).toNat, true)
  else
    let k := (lsb - e).toNat
    let q := m / 2 ^ k
    let r := m % 2 ^ k
    let up :=
      match md with
      | .nearest => decide (2 ^ k < 2 * r) || (decide (2 * r = 2 ^ k) && decide (q % 2 = 1))
      | .zero => false
      | .stochastic u => decide (2 ^ 32 ≤ r * 2 ^ 32 / 2 ^ k + u % 2 ^ 32)
    (if up then q + 1 else q, decide (r = 0))

/-- The largest finite magnitude of a format, as its encoding without sign (R64). -/
def fmtMax (f : Fmt) : Nat :=
  match f.sp with
  | .none => 2 ^ (f.eb + f.mb) - 1
  | .e4m3 => 2 ^ (f.eb + f.mb) - 2
  | .ieee => (2 ^ f.eb - 1) * 2 ^ f.mb - 1

/-- An encoding with its sign. -/
def withSign (f : Fmt) (neg : Bool) (mag : Nat) : Nat := mag + (if neg then 2 ^ (f.eb + f.mb) else 0)

/-- Round a non-zero number to a format (R90, R91, R93): its encoding and the status bits it sets. -/
def roundFmt (f : Fmt) (md : RMode) (sat neg : Bool) (m : Nat) (e : Int) : Nat × XFlags :=
  let emin : Int := 1 - (f.bias : Int) - (f.mb : Int)
  let lsb := max (e + (bitLen m : Int) - (f.mb + 1 : Nat)) emin
  let r := roundAt md m e lsb
  let mag := if r.1 < 2 ^ f.mb then r.1 else (lsb + (f.mb : Int) + (f.bias : Int)).toNat * 2 ^ f.mb + (r.1 - 2 ^ f.mb)
  if fmtMax f < mag then
    if f.sp = .ieee ∧ md ≠ .zero ∧ sat = false then
      (withSign f neg ((2 ^ f.eb - 1) * 2 ^ f.mb), xfInfOut ||| xfInexact)
    else (withSign f neg (fmtMax f), xfSat ||| xfInexact)
  else
    (withSign f neg mag, xfIf (!r.2) xfInexact ||| xfIf (!r.2 && decide (mag < 2 ^ f.mb)) xfUnder)

/-- Round a number to an 8-bit integer, its least significant bit 1 (R91, R93). -/
def roundInt8 (md : RMode) (neg : Bool) (m : Nat) (e : Int) : Nat × XFlags :=
  let r := roundAt md m e 0
  let lim := if neg then 128 else 127
  if lim < r.1 then (if neg then 0x80 else 0x7F, xfSat ||| xfInexact)
  else (if neg then (256 - r.1) % 256 else r.1, xfIf (!r.2) xfInexact ||| xfIf (!r.2 && decide (r.1 = 0)) xfUnder)

/-- Convert a value to an unscaled format code 0x0 to 0x7 (R90 to R93). `fp` says that the source is binary32, whose zeros
keep their sign. An infinity, a NaN and a range-exceeded word have no exact value to differ from, so their conversions set the
bits of R92 only and not INEXACT. (DEDUCED, log 119) -/
def convNum (c : Nat) (md : RMode) (sat fp : Bool) (v : Num) : Nat × XFlags :=
  match fmtOf c with
  | none =>
    match v with
    | .fin neg m e => if m = 0 then (0, 0) else roundInt8 md neg m e
    | .inf neg => (if neg then 0x80 else 0x7F, xfSat)
    | _ => (0, xfNanDrop)
  | some f =>
    match v with
    | .fin neg m e =>
      if m = 0 then (withSign f (fp && neg) 0, 0) else roundFmt f md sat neg m e
    | .inf neg =>
      if f.sp = .ieee then (withSign f neg ((2 ^ f.eb - 1) * 2 ^ f.mb), 0) else (withSign f neg (fmtMax f), xfSat)
    | _ =>
      if c = 7 then (0x7FC00000, xfNanOut)
      else if c = 6 then (0x7FC0, xfNanOut)
      else if c = 3 ∨ c = 4 then (0x7F, xfNanOut)
      else (0, xfNanDrop)

/-- emax of a block-scaled format (R94). -/
def emaxOf (c : Nat) : Int := if c ≤ 1 then 2 else if c = 2 then 4 else if c = 3 then 8 else if c = 4 then 15 else 0

/-- floor(log2) of a non-zero magnitude. -/
def numLog2 (m : Nat) (e : Int) : Int := (Nat.log2 m : Int) + e

/-- The scale exponent of a block from its elements (R94, R95): none for all zeros. -/
def blockExp (c : Nat) (vs : List Num) : Option Int :=
  let logs := vs.filterMap fun v => match v with
    | .fin _ m e => if m = 0 then none else some (numLog2 m e)
    | _ => none
  match logs with
  | [] => none
  | l :: r => some (max (-127) (min 127 (r.foldl max l - emaxOf c)))

/-- Convert a block (R94, R95): its element encodings, its scale byte and the status bits. `us` are the draws of the
elements, for the stochastic mode. -/
def convBlock (c : Nat) (md : List RMode) (fp : Bool) (vs : List Num) : List Nat × Byte × XFlags :=
  let bad := vs.any fun v => match v with
    | .fin .. => false
    | _ => true
  if bad then (vs.map fun _ => 0, 0xFF, xfNanOut)
  else
    match blockExp c vs with
    | none => (vs.map fun v => (convNum c .nearest true fp v).1, 0x00, 0)
    | some x =>
      let sh : Int := if c = 5 then x - 6 else x
      let rs := (vs.zip md).map fun vm => match vm.1 with
        | .fin neg m e => convNum c vm.2 true fp (.fin neg m (e - sh))
        | v => convNum c vm.2 true fp v
      (rs.map (·.1), BitVec.ofNat 8 (x + 127).toNat, rs.foldl (fun a r => a ||| r.2) 0)

/-! ### The stochastic generator (R97) -/

def srMix (z : Word) : Word :=
  let z := z ^^^ (z >>> 32)
  let z := z * 0xA3B195E45C27D0F1
  let z := z ^^^ (z >>> 29)
  let z := z * 0x6F4C2E8B93D71A35
  z ^^^ (z >>> 32)

def srDraw (seed step : Word) (layer : Nat) (index : Nat) : Word :=
  let key := srMix (seed ^^^ 0x5D0F3B6AC18E4297)
  let ctr : Word := (BitVec.ofNat 64 layer <<< 48) ||| BitVec.ofNat 64 (index % 2 ^ 48)
  srMix (key ^^^ srMix (step ^^^ srMix ctr))

/-! ### IEEE arithmetic in one format, round to nearest even (R85 to R87) -/

/-- The canonical quiet NaN of a binary format (R87). -/
def fNan (f : Fmt) : Nat := (2 ^ (f.eb + 1) - 1) * 2 ^ (f.mb - 1)
def fInf (f : Fmt) (neg : Bool) : Nat := withSign f neg ((2 ^ f.eb - 1) * 2 ^ f.mb)

/-- Round a number to a format; a zero takes the sign given (R87). -/
def fRound (f : Fmt) (neg : Bool) (m : Nat) (e : Int) : Nat × XFlags :=
  if m = 0 then (withSign f neg 0, 0) else roundFmt f .nearest false neg m e

/-- A number as an integer multiple of 2^e for a smaller exponent. -/
def scaleTo (neg : Bool) (m : Nat) (e lo : Int) : Int :=
  let v : Int := ((m * 2 ^ (e - lo).toNat : Nat) : Int)
  if neg then -v else v

/-- The rounded sum of two numbers; an exact zero is −0 only when both are negative zeros (IEEE 754-2019). -/
def fAddNum (f : Fmt) (na : Bool) (ma : Nat) (ea : Int) (nb : Bool) (mb : Nat) (eb : Int) : Nat × XFlags :=
  let lo := min ea eb
  let s := scaleTo na ma ea lo + scaleTo nb mb eb lo
  if s = 0 then (withSign f (na && nb && decide (ma = 0) && decide (mb = 0)) 0, 0)
  else fRound f (decide (s < 0)) s.natAbs lo

/-- fusedMultiplyAdd a × b + c (R86). -/
def fFma (f : Fmt) (a b c : Nat) : Nat × XFlags :=
  match decFmt f a, decFmt f b, decFmt f c with
  | .fin na ma ea, .fin nb mb eb, .fin nc mc ec => fAddNum f (na != nb) (ma * mb) (ea + eb) nc mc ec
  | .fin .., .fin .., .inf nc => (fInf f nc, 0)
  | .inf na, .fin nb m _, .fin .. => if m = 0 then (fNan f, xfNanOut) else (fInf f (na != nb), 0)
  | .fin na m _, .inf nb, .fin .. => if m = 0 then (fNan f, xfNanOut) else (fInf f (na != nb), 0)
  | .inf na, .inf nb, .fin .. => (fInf f (na != nb), 0)
  | .inf na, .fin nb m _, .inf nc =>
    if m = 0 ∨ (na != nb) ≠ nc then (fNan f, xfNanOut) else (fInf f nc, 0)
  | .fin na m _, .inf nb, .inf nc =>
    if m = 0 ∨ (na != nb) ≠ nc then (fNan f, xfNanOut) else (fInf f nc, 0)
  | .inf na, .inf nb, .inf nc => if (na != nb) ≠ nc then (fNan f, xfNanOut) else (fInf f nc, 0)
  | _, _, _ => (fNan f, xfNanOut)

def fAdd (f : Fmt) (a b : Nat) : Nat × XFlags :=
  match decFmt f a, decFmt f b with
  | .fin na ma ea, .fin nb mb eb => fAddNum f na ma ea nb mb eb
  | .inf na, .inf nb => if na = nb then (fInf f na, 0) else (fNan f, xfNanOut)
  | .inf na, .fin .. => (fInf f na, 0)
  | .fin .., .inf nb => (fInf f nb, 0)
  | _, _ => (fNan f, xfNanOut)

/-- The encoding with its sign changed. -/
def fNeg (f : Fmt) (a : Nat) : Nat := a ^^^ 2 ^ (f.eb + f.mb)

def fSub (f : Fmt) (a b : Nat) : Nat × XFlags :=
  match decFmt f b with
  | .nan => (fNan f, xfNanOut)
  | _ => fAdd f a (fNeg f b)

def fMul (f : Fmt) (a b : Nat) : Nat × XFlags :=
  match decFmt f a, decFmt f b with
  | .fin na ma ea, .fin nb mb eb => fRound f (na != nb) (ma * mb) (ea + eb)
  | .inf na, .inf nb => (fInf f (na != nb), 0)
  | .inf na, .fin nb m _ => if m = 0 then (fNan f, xfNanOut) else (fInf f (na != nb), 0)
  | .fin na m _, .inf nb => if m = 0 then (fNan f, xfNanOut) else (fInf f (na != nb), 0)
  | _, _ => (fNan f, xfNanOut)

/-- The quotient, rounded once: 160 quotient bits and a sticky bit keep the rounding exact. -/
def fDiv (f : Fmt) (a b : Nat) : Nat × XFlags :=
  match decFmt f a, decFmt f b with
  | .fin na ma ea, .fin nb mb eb =>
    if mb = 0 then (if ma = 0 then (fNan f, xfNanOut) else (fInf f (na != nb), xfInfOut))
    else
      let n := ma * 2 ^ 160
      fRound f (na != nb) (2 * (n / mb) + (if n % mb = 0 then 0 else 1)) (ea - eb - 161)
  | .inf _, .inf _ => (fNan f, xfNanOut)
  | .inf na, .fin nb .. => (fInf f (na != nb), 0)
  | .fin na .., .inf nb => (withSign f (na != nb) 0, 0)
  | _, _ => (fNan f, xfNanOut)

/-- The integer square root by bits, from bit `n` down. -/
def isqrtBits : Nat → Nat → Nat → Nat
  | 0, _, r => r
  | n + 1, m, r =>
    let t := r + 2 ^ n
    if t * t ≤ m then isqrtBits n m t else isqrtBits n m r

/-- The square root, rounded once. -/
def fSqrt (f : Fmt) (a : Nat) : Nat × XFlags :=
  match decFmt f a with
  | .fin neg m e =>
    if m = 0 then (withSign f neg 0, 0)
    else if neg then (fNan f, xfNanOut)
    else
      let odd := decide (e % 2 ≠ 0)
      let m' := (if odd then 2 * m else m) * 2 ^ 128
      let e' := (if odd then e - 1 else e) - 128
      let r := isqrtBits (bitLen m' / 2 + 1) m' 0
      fRound f false (2 * r + (if r * r = m' then 0 else 1)) (e' / 2 - 1)
  | .inf neg => if neg then (fNan f, xfNanOut) else (fInf f false, 0)
  | _ => (fNan f, xfNanOut)

/-- Order of two values that are not NaN, −0 below +0 (R142). -/
def fLess (f : Fmt) (a b : Nat) : Bool :=
  let key := fun x : Nat => if x.testBit (f.eb + f.mb) then -((x % 2 ^ (f.eb + f.mb) : Nat) : Int) - 1 else (x : Int)
  decide (key a < key b)

/-- maximumNumber (R142). -/
def fMax (f : Fmt) (a b : Nat) : Nat × XFlags :=
  match decFmt f a, decFmt f b with
  | .nan, .nan => (fNan f, xfNanOut)
  | .nan, _ => (b, 0)
  | _, .nan => (a, 0)
  | _, _ => (if fLess f a b then b else a, 0)

/-- minimumNumber (R142). -/
def fMin (f : Fmt) (a b : Nat) : Nat × XFlags :=
  match decFmt f a, decFmt f b with
  | .nan, .nan => (fNan f, xfNanOut)
  | .nan, _ => (b, 0)
  | _, .nan => (a, 0)
  | _, _ => (if fLess f b a then b else a, 0)

/-- Convert between binary formats, round to nearest even. -/
def fConv (f g : Fmt) (a : Nat) : Nat × XFlags :=
  match decFmt f a with
  | .fin neg m e => fRound g neg m e
  | .inf neg => (fInf g neg, 0)
  | _ => (fNan g, xfNanOut)

/-- The value is finite. -/
def fFinite (f : Fmt) (a : Nat) : Bool :=
  match decFmt f a with
  | .fin .. => true
  | _ => false

/-- Lane i of a vector register. -/
def lane (q : Quad) (i : Nat) : Nat := (q.extractLsb' (32 * i) 32).toNat
/-- A vector register from four lanes. -/
def ofLanes (a b c d : Nat) : Quad :=
  BitVec.ofNat 128 (a % 2 ^ 32 + b % 2 ^ 32 * 2 ^ 32 + c % 2 ^ 32 * 2 ^ 64 + d % 2 ^ 32 * 2 ^ 96)

end Sys2Proof.Machine
end

