-- ==== Sys2Proof/Machine/TileOps.lean ====
section
/-!
DEFINITION. The tile as others see it: hosting, tags, memories under their code, the tile registers, reset and halt,
packets and responses (spec 03_tile, R160 and R106 to R126; packets of 06_fabric).
-/

namespace Sys2Proof

/-- The number of a logical tile: 1,440 tiles a row (R34). -/
def LT.key (l : LT) : Nat := l.y * 1440 + l.x
def LT.ofKey (k : Nat) : LT := { x := k % 1440, y := k / 1440 }
/-- The home bay of a logical tile (R35). -/
def LT.bay (l : LT) : Nat := l.y / 96 * 12 + l.x / 120
/-- The home place of a logical tile (R36). -/
def LT.home (l : LT) : PT := { bay := l.bay, col := l.x % 120 + l.x % 120 / 15, row := l.y % 96 }
/-- A logical tile of the grid (R34). -/
def LT.valid (l : LT) : Bool := decide (l.x < 1440) && decide (l.y < 672)
/-- Global coordinates of a physical tile (R269). -/
def PT.px (t : PT) : Nat := t.bay % 12 * 128 + t.col
def PT.py (t : PT) : Nat := t.bay / 12 * 96 + t.row
/-- The physical tile at global coordinates (R269). -/
def PT.ofXY (x y : Nat) : PT := { bay := y / 96 * 12 + x / 128, col := x % 128, row := y % 96 }
/-- A spare column (R30). -/
def PT.isSpare (t : PT) : Bool := decide (t.col % 16 = 15)
/-- The logical tile whose home place this is (R38); a spare column is the home of none. -/
def PT.homeOf (t : PT) : Option LT :=
  if t.isSpare then none
  else some { x := t.bay % 12 * 120 + 15 * (t.col / 16) + t.col % 16, y := t.bay / 12 * 96 + t.row }
/-- The half of a bay: true for the east half (R27). -/
def bayEast (b : Nat) : Bool := decide (6 ≤ b % 12)
/-- The neighbour of a tile in the mesh (R32). -/
def PT.step (t : PT) (d : Dir) : Option PT :=
  match d with
  | .north => if t.py = 0 then none else some (PT.ofXY t.px (t.py - 1))
  | .south => if t.py = 671 then none else some (PT.ofXY t.px (t.py + 1))
  | .west => if t.px = 0 then none else some (PT.ofXY (t.px - 1) t.py)
  | .east => if t.px = 1535 then none else some (PT.ofXY (t.px + 1) t.py)
/-- The direction back. -/
def Dir.back : Dir → Dir
  | .north => .south
  | .south => .north
  | .east => .west
  | .west => .east
/-- The link in this direction is a ridge bridge (R33). -/
def isRidge (t : PT) (d : Dir) : Bool :=
  (decide (t.px = 767) && decide (d = .east)) || (decide (t.px = 768) && decide (d = .west))

end Sys2Proof

namespace Sys2Proof.Machine

/-! ### Packet kinds (R278) -/

def opQsend : BitVec 5 := 0x00
def opWrRaw : BitVec 5 := 0x01
def opWrTag : BitVec 5 := 0x02
def opRdRaw : BitVec 5 := 0x03
def opRdTag : BitVec 5 := 0x04
def opRdKeep : BitVec 5 := 0x05
def opFount : BitVec 5 := 0x06
def opRdData : BitVec 5 := 0x08
def opWrAck : BitVec 5 := 0x09
def opQAck : BitVec 5 := 0x0A
def opQCredit : BitVec 5 := 0x0B
def opErr : BitVec 5 := 0x0C
def opClose : BitVec 5 := 0x10
def opRecall : BitVec 5 := 0x11
def opWeirArr : BitVec 5 := 0x14
def opWeirRel : BitVec 5 := 0x15
def opFloatOp : BitVec 5 := 0x16
def opFloatVal : BitVec 5 := 0x17
def opRimWr : BitVec 5 := 0x18
def opRimRd : BitVec 5 := 0x19

/-- The kinds of ERR (R278). -/
def errRefused : Nat := 0
def errImBusy : Nat := 1
def errBusy : Nat := 2
def errReset : Nat := 3
def errUncorr : Nat := 4

/-- A packet is sent; its flits enter the fabric with the next cycle (R276). (DESIGN CHOICE, log 36) -/
def State.send (p : Packet) (s : State) : State :=
  { s with comp := { s.comp with net := s.comp.net ++ [p], fresh := s.comp.fresh ++ [p] } }

/-- A packet leaves the fabric at its destination (R282); one that no part of the state sent comes from outside.
(DESIGN CHOICE, log 36) -/
def State.take (p : Packet) (s : State) : State :=
  { s with comp := { s.comp with net := s.comp.net.erase p, fresh := s.comp.fresh.erase p } }

/-- The response to a request: back to its source, with its tag and its EP (R279). -/
def answer (req : Packet) (op : BitVec 5) (addr : BitVec 16) (body : List Flitem) : Packet :=
  { op := op, dst := req.src, src := req.dst, tag := req.tag, addr := addr, seq := 0, ep := req.ep, ext := 0,
    part := req.part, body := body }

/-- An error response (R122). -/
def errAnswer (req : Packet) (k : Nat) : Packet := answer req opErr (BitVec.ofNat 16 k) []

/-! ### Ownership and hosting -/

/-- The partition that owns bay `b`, 0 for none (R634). -/
def State.bayOwner (s : State) (b : Nat) : Nat := s.field (Reg.prtBayownk (b / 16)) (4 * (b % 16) + 3) (4 * (b % 16))
/-- The bays of a partition (R634). -/
def State.baysOf (s : State) (p : Nat) : List Nat := (List.range 84).filter fun b => decide (s.bayOwner b = p)
/-- The partition that owns flume `f`. -/
def State.flumeOwner (s : State) (f : Nat) : Nat := s.field (Reg.prtFlumeown (f / 16)) (4 * (f % 16) + 3) (4 * (f % 16))
/-- An entry of the fence set counts: it is on one of the three lists (R553). -/
def State.fenced (s : State) (kinds : List Nat) (id : Nat) : Bool :=
  s.comp.fences.any fun f => kinds.contains f.kind && decide (f.id = id) && (f.fuse || f.field || f.test)
/-- The identifier of a tile or router (R547). -/
def tileId (t : PT) : Nat := 2 ^ 16 * t.bay + 2 ^ 9 * t.col + 4 * t.row
/-- The tile of an identifier. -/
def tileOfId (i : Nat) : PT := { bay := i / 2 ^ 16 % 128, col := i / 2 ^ 9 % 128, row := i / 4 % 128 }
/-- A unit on one of the three lists (R553). -/
def State.isFenced (s : State) (kind id : Nat) : Bool := s.fenced [kind] id
/-- No tile of a partition has produced a range-exceeded word in the step that begins (R84). (DEDUCED, log 120) -/
def State.forgetRange (p : Nat) (s : State) : State :=
  let f := fun (kt : Nat × Tile) =>
    if s.bayOwner (kt.1 / 12288) = p then (kt.1, { kt.2 with c := { kt.2.c with rangeStep := none } }) else kt
  s.modComp fun c => { c with
    tiles := (c.tiles.map f).filter fun kt => decide (kt.2 ≠ (s.bay (kt.1 / 12288)).base) }
/-- Basin chunks of a partition in use, by number (R193, R214). -/
def State.chunksOf (s : State) (p : Nat) : List Nat :=
  s.comp.tiles.flatMap fun kt =>
    if s.bayOwner (kt.1 / 12288) = p then kt.2.queues.flatMap fun kq => kq.2.chunks.map fun c => c.num else []
/-- Keep the count of the chunks in use. -/
def State.recount (p : Nat) (s : State) : State := s.modRun p fun r => { r with chunksUsed := (s.chunksOf p).length }
/-- A tile that a fence holds in RESET: its own fence, its router's or its bay's (R547). -/
def State.tileFenced (s : State) (t : PT) : Bool :=
  s.isFenced 1 (tileId t) || s.isFenced 2 (tileId t) || s.isFenced 6 t.bay
/-- A bay of the void set (R41, R571). -/
def State.isVoid (s : State) (b : Nat) : Bool := s.man.boot.voids.testBit b
/-- The recorded host of a logical tile (R350): its home place unless another is recorded. -/
def State.hostOf (s : State) (l : LT) : PT := (Tab.get none s.comp.hosts l.key).getD l.home
def noPT : PT := { bay := 84, col := 0, row := 0 }
/-- The trial host of a logical tile in a dry fit (R530). -/
def State.trialOf (s : State) (l : LT) : Option PT :=
  let t := Tab.get noPT (s.part (s.bayOwner l.bay)).commit.trials l.key
  if t.bay < 84 then some t else none
/-- The tile that runs a logical tile now: its trial host in a dry fit, else its recorded host. -/
def State.runsAt (s : State) (l : LT) : PT := (s.trialOf l).getD (s.hostOf l)
/-- The logical tile that a tile hosts (`TILE_ID`, R160): the one that a dry fit tries on it, else one recorded away from
home, else the one whose home place it is, once the map has been built. -/
def State.hosted (s : State) (t : PT) : Option LT :=
  match s.comp.parts.findSome? fun p => (p.2.commit.trials.find? fun e => decide (e.2 = t)).map fun e => LT.ofKey e.1 with
  | some l => some l
  | none =>
    match s.comp.hosts.find? fun e => decide (e.2 = some t) with
    | some e => if (s.trialOf (LT.ofKey e.1)).isSome then none else some (LT.ofKey e.1)
    | none =>
      match t.homeOf with
      | some l =>
        if s.runsAt l = t && s.man.boot.rebuilt.isSome && !s.isVoid t.bay && !s.tileFenced t then some l else none
      | none => none
/-- The partition of a logical tile: the owner of its home bay. -/
def State.ltPart (s : State) (l : LT) : Nat := s.bayOwner l.bay
/-- The partition on whose behalf a tile works. -/
def State.ptPart (s : State) (t : PT) : Nat :=
  match s.hosted t with
  | some l => s.ltPart l
  | none => s.bayOwner t.bay

/-- The operands that name a logical and a physical tile in an event. -/
def tileOps (l : Option LT) (t : PT) : List Nat :=
  (match l with
  | some l => [l.x, l.y]
  | none => [0x7FF, 0x3FF]) ++ [t.bay, t.col, t.row]

/-- The step number of partition `p` (R523). -/
def State.stepNo (s : State) (p : Nat) : Word := s.reg (Reg.prtStep p)

/-- A partition that a partition-fatal event names stops (R20); a module-fatal event stops the module and drives
FAULT_N low (R861). (DEDUCED, log 59) -/
def State.stopFor (sev : Severity) (p : Nat) (s : State) : State :=
  match sev with
  | .partitionFatal => s.modOwn p fun o => { o with stopped := true }
  | .moduleFatal => s.modBoot fun b => { b with fatalSince := true, faultPin := true }
  | _ => s

/-- Raise an event and take the action of its severity (R20, R22). -/
def State.signal (id : EventId) (part : Nat) (ops : List Nat) (s : State) : State :=
  (s.raise id part ops).stopFor id.sev part

/-- A detection makes the partition's current step suspect (R525); the logical tiles named are those of R530 step 2. -/
def State.suspect (p : Nat) (cause : EventId) (named : List LT) (s : State) : State :=
  let c := (s.part p).commit
  let add := fun (c : Commit) => { c with named := c.named ++ named.filter fun l => !c.named.contains l }
  if c.suspect then s.modCommit p add
  else
    let s := s.modCommit p fun c => add { c with suspect := true, suspectAt := s.now, cause := cause.code }
    let s := s.bump (Reg.prtDetCnt p) 63 48 1
    s.signal Ev.stepSuspect p [(s.stepNo p).toNat, cause.code.toNat]

/-! ### Tags (R112 to R119) -/

/-- Slots are numbered 0 to 191 in AM and 192 to 447 in PM. -/
def Tile.tagOf (t : Tile) (slot : Nat) : Bool := if slot < 192 then t.amTag.getLsbD slot else t.pmTag.getLsbD (slot - 192)
def Tile.setTag (slot : Nat) (full : Bool) (t : Tile) : Tile :=
  if slot < 192 then
    let m : BitVec 192 := 1 <<< slot
    { t with amTag := if full then t.amTag ||| m else t.amTag &&& ~~~m }
  else
    let m : BitVec 256 := 1 <<< (slot - 192)
    { t with pmTag := if full then t.pmTag ||| m else t.pmTag &&& ~~~m }
def Tile.setTags (slots : List Nat) (full : Bool) (t : Tile) : Tile := slots.foldl (fun t k => t.setTag k full) t
def Tile.clearTags (t : Tile) : Tile := { t with amTag := 0, pmTag := 0 }

/-- The slot of a tile-local address in AM or PM. -/
def slotAt (a : Nat) : Option Nat :=
  if 0x8000 ≤ a ∧ a < 0xB000 then some ((a - 0x8000) / 64)
  else if 0xB000 ≤ a ∧ a < 0xC000 then some (192 + (a - 0xB000) / 16)
  else none

/-- The slots that a legal tagged access of `n` bytes at `a` covers (R113, R114, R118), outside the spillway; one whose bytes
are no multiple of 16 is illegal. (DESIGN CHOICE, log 114) -/
def tagSlots (a n : Nat) : Option (List Nat) :=
  if a % 16 ≠ 0 ∨ n % 16 ≠ 0 ∨ n = 0 ∨ 64 < n then none
  else if 0x8000 ≤ a ∧ a + n ≤ 0xA800 then
    if a % 64 + n ≤ 64 then some [(a - 0x8000) / 64] else none
  else if 0xB000 ≤ a ∧ a + n ≤ 0xC000 then some ((List.range (n / 16)).map fun i => 192 + (a - 0xB000) / 16 + i)
  else none

/-- A tagged access at `a` changes its slots' tags: always in PM, in AM when it reaches the last 16 bytes (R117). -/
def tagReaches (a n : Nat) : Bool := decide (0xB000 ≤ a) || decide (a % 64 + n = 64)

/-- A packet's access: its size for a request (R121); reads take it from `ext`. -/
def pkWrite (p : Packet) : Bool := p.op == opWrRaw || p.op == opWrTag
def pkBytes (p : Packet) : Nat := if pkWrite p then 16 * p.body.length else p.ext.toNat
/-- The bytes that a packet's body holds, 16 an entry. -/
def pkData (p : Packet) : List Byte := p.body.flatMap fun f => leBytes 16 f.data.toNat
/-- Body flits of a byte string. -/
def flitsOf : Nat → List Byte → List Flitem
  | 0, _ => []
  | n + 1, d => { data := BitVec.ofNat 128 (ofLe (d.take 16)), tok := false } :: flitsOf n (d.drop 16)
/-- The tag that a tagged request needs: reads full, writes empty (R115, R116). -/
def pkNeeds (p : Packet) : Bool := !pkWrite p
/-- The slots of a tagged request. -/
def pkSlots (p : Packet) : List Nat := (tagSlots p.addr.toNat (pkBytes p)).getD []
/-- Every slot of the list has the tag. -/
def Tile.ready (t : Tile) (slots : List Nat) (full : Bool) : Bool := slots.all fun k => t.tagOf k == full

/-- A parked request whose slots have the required tag. -/
def Tile.parkedReady (t : Tile) (p : Packet) : Bool := t.ready (pkSlots p) (pkNeeds p)

/-- The slots of a held writeback. -/
def Writeback.slots (w : Writeback) : List Nat := (tagSlots w.addr w.data.length).getD []

/-- An earlier waiter on one of these slots could proceed: a parked request before position `n`, or a held writeback
that began before it (R119). -/
def Tile.earlier (t : Tile) (slots : List Nat) (n : Nat) : Bool :=
  ((t.q.parked.take n).any fun p => ((pkSlots p).any fun k => slots.contains k) && t.parkedReady p) ||
  (t.q.held.any fun w => decide (w.ahead ≤ n) && (w.slots.any fun k => slots.contains k) && t.ready w.slots false)

/-! ### Memories under their code (R107, R155 to R159) -/

/-- The memory of a tile-local address (R107); the spillway has none. -/
def memAt (a : Nat) : Option MemKind :=
  if a < 0x8000 then some .wm
  else if a < 0xA800 then some .am
  else if a < 0xB000 then none
  else if a < 0xC000 then some .pm
  else if a < 0xD000 then some .im
  else if 0xF000 ≤ a ∧ a < 0xF200 then some .regs
  else none

/-- Every byte of an access lies in a memory or a register, none in the spillway or a reserved address (R106). -/
def accessible (a n : Nat) : Bool := (List.range n).all fun i => (memAt ((a + i) % 0x10000)).isSome

def MemKind.code : MemKind → Nat
  | .wm => 0
  | .am => 1
  | .pm => 2
  | .im => 3
  | .queue => 4
  | .regs => 5

/-- A word under the code: its memory and its number there. -/
abbrev CodeWord := MemKind × Nat

/-- Half `h` of vector register `r`, address register `n`, and half `h` of the active or shadow buffer of K0 or K1, as words
under the code (R156). (DESIGN CHOICE, log 22) -/
def vWord (r h : Nat) : CodeWord := (.regs, 2 * r + h)
def aWord (n : Nat) : CodeWord := (.regs, 64 + n)
def kWord (k1 shadow : Bool) (h : Nat) : CodeWord := (.regs, 72 + 4 * flag k1 + 2 * flag shadow + h)
/-- The two words of entry `e` of queue `q`. -/
def queueWords (q e : Nat) : List CodeWord := [(.queue, 256 * q + 16 * e), (.queue, 256 * q + 16 * e + 8)]
/-- The words of vector registers `r` to `r + n − 1`. -/
def vWords (r n : Nat) : List CodeWord := (List.range n).flatMap fun i => [vWord (r + i) 0, vWord (r + i) 1]

/-- `TILE_ECC.ADDR` of a word: its tile-local address, or queue × 16 + entry (R160); a vector or scale register has no such
address, and what ADDR then holds is left open. (DESIGN CHOICE, log 112) -/
def eccAddrOf (w : CodeWord) : Nat :=
  match w.1 with
  | .queue => w.2 / 16
  | .regs => if 64 ≤ w.2 ∧ w.2 < 72 then 0xF050 + 8 * (w.2 - 64) else Config.registerEccAddr w.2
  | _ => w.2

/-- The word lies in a memory of the tile-local address space, in the bytes from `a` to `a + n − 1`. -/
def inBytes (a n : Nat) (w : CodeWord) : Bool :=
  decide (w.1 ≠ .queue) && decide (w.1 ≠ .regs) && decide (w.2 < a + n) && decide (a < w.2 + 8)

/-- Count `n` corrected words, the last of them `w` (R158). -/
def Tile.countCe (w : CodeWord) (n : Nat) (t : Tile) : Tile :=
  if n = 0 then t
  else { t with c := { t.c with ce := BitVec.ofNat 16 (min (t.c.ce.toNat + n) 0xFFFF), eccMem := BitVec.ofNat 3 w.1.code,
                                eccAddr := BitVec.ofNat 16 (eccAddrOf w) } }

/-- Count an uncorrectable word (R159). -/
def Tile.countUe (w : CodeWord) (t : Tile) : Tile :=
  { t with c := { t.c with ue := BitVec.ofNat 8 (min (t.c.ue.toNat + 1) 0xFF), eccMem := BitVec.ofNat 3 w.1.code,
                           eccAddr := BitVec.ofNat 16 (eccAddrOf w) } }

/-- Words that are written afresh are damaged no more (R157). -/
def Tile.rewritten (p : CodeWord → Bool) (t : Tile) : Tile :=
  { t with defects := { t.defects with sram := t.defects.sram.filter fun d => !p (d.1, d.2.1) } }

/-- The words of `p` are read under the code: an uncorrectable one stops the read; corrected ones are counted and written
back (R157 to R159). -/
def Tile.checked (p : CodeWord → Bool) (t : Tile) : Except CodeWord Tile :=
  let ds := t.defects.sram.filter fun d => p (d.1, d.2.1)
  match ds.find? fun d => decide (d.2.2 = .uncorrectable) with
  | some d => .error (d.1, d.2.1)
  | none => .ok ((t.countCe ((ds.getLast?.map fun d => (d.1, d.2.1)).getD (.wm, 0)) ds.length).rewritten p)

/-- Read `n` bytes of the memories at `a` under their code. -/
def Tile.load (t : Tile) (a n : Nat) : Except CodeWord (List Byte × Tile) :=
  match t.checked (inBytes a n) with
  | .error w => .error w
  | .ok t => .ok (memRead t.mem a n, t)

/-- Write bytes at `a`; a damaged word that the write covers is written afresh (R157). -/
def Tile.store (a : Nat) (d : List Byte) (t : Tile) : Tile :=
  { t with mem := memWrite t.mem a d
           defects := { t.defects with sram := t.defects.sram.filter fun x =>
             !(decide (x.1 ≠ .queue) && decide (x.1 ≠ .regs) && decide (a ≤ x.2.1) && decide (x.2.1 + 8 ≤ a + d.length)) } }

/-- SRAM_CE_HIGH when the count reaches CE_LIM (R158): the tile before and after. -/
def State.ceHigh (t : PT) (before : Tile) (s : State) : State :=
  let x := s.tile t
  if before.c.ce.toNat < x.c.ceLim.toNat ∧ x.c.ceLim.toNat ≤ x.c.ce.toNat then
    let s := s.signal Ev.sramCeHigh (s.ptPart t) (tileOps (s.hosted t) t)
    s.modTile t fun x => { x with plumb := { x.plumb with intensUntil := some (s.now + 86400000000000) } }
  else s

/-! ### Sequencer states -/

def Seq.code : Seq → Nat
  | .off => 0
  | .reset => 1
  | .idle => 2
  | .run => 3
  | .blocked => 4
  | .halted => 5
  | .fault => 6
  | .plumb => 7

/-- The progress counter advances, and the stall age returns to zero (R182, R184). -/
def Tile.progressBy (n : Nat) (t : Tile) : Tile :=
  if n = 0 then t
  else { t with s := { t.s with progress := t.s.progress + BitVec.ofNat 32 n, stall := 0, stallSince := none, paused := false } }

/-- Entries that arrived early and wait for their turn (R169). -/
def Queue.earlyEntries (q : Queue) : Nat := (q.early.filter fun e => e.2.isSome).length
/-- Entries in queue storage (R183, R215). -/
def Queue.depth (q : Queue) : Nat := q.fifo.length + q.earlyEntries

/-- The conditions of R183 other than age. -/
def Tile.stallCond (t : Tile) : Bool :=
  (t.queues.any fun kq => decide (16 ≤ kq.2.depth)) &&
  (decide (t.s.seq = .idle) || (decide (t.s.seq = .blocked) && decide (1 ≤ t.s.blk) && decide (t.s.blk ≤ 5) &&
    !(decide (t.s.blk = 4) && (Tab.get Port.reset t.r.ports t.s.blkarg).prod.held)))

/-- Keep the stall age after a change of the tile at Tide `now` (R184): while the tile is in HALTED or PLUMB, and after a
resume until the micro-op that was blocked blocks again or retires, it keeps its value and does not advance. -/
def Tile.restall (now : Nat) (t : Tile) : Tile :=
  if t.s.seq = .halted ∨ t.s.seq = .plumb then
    match t.s.stallSince with
    | some a => { t with s := { t.s with stall := t.s.stall + (now - a) / 1000, stallSince := none } }
    | none => t
  else if t.s.paused ∧ t.s.seq = .run then t
  else if t.stallCond then
    match t.s.stallSince with
    | some _ => t
    | none => { t with s := { t.s with stallSince := some now, paused := false } }
  else { t with s := { t.s with stall := 0, stallSince := none, paused := false } }

def State.restall (t : PT) (s : State) : State := s.modTile t (Tile.restall s.now)

/-- What RESET does to the tile itself (R112, R151, R152, R506). -/
def Tile.toReset (t : Tile) : Tile :=
  { t with amTag := 0, pmTag := 0
           r := { t.r with pack := { bits := 0, count := 0 }, loops := []
                           k0 := { t.r.k0 with cursor := 0 }, k1 := { t.r.k1 with cursor := 0 } }
           s := { t.s with seq := .reset, before := .idle, inv := false, blk := 0, blkarg := 0, fcause := 0, check := none,
                           arrived := false, done := none, lost := false, paused := false, stall := 0, stallSince := none, sigSeq := 0xFFFFFFFF, sigChk := 0xFFFFFFFF }
           q := { t.q with parked := [], out := [], reissues := [], held := [], waiting := none, got := none } }

/-- Move a tile to RESET (R152): parked requests are answered with RESET, and each answer is progress (R182). A tile in OFF
stays there (R151). -/
def State.resetTile (t : PT) (s : State) : State :=
  if (s.tile t).s.seq = .off then s
  else
    let s := (s.tile t).q.parked.foldl (fun s p => s.send (errAnswer p errReset)) s
    s.modTile t fun x => (x.progressBy x.q.parked.length).toReset

/-- A halt request (R149, R151): IDLE, RUN and BLOCKED move to HALTED. (DEDUCED, log 21) -/
def Tile.halt (t : Tile) : Tile :=
  match t.s.seq with
  | .idle => { t with s := { t.s with seq := .halted } }
  | .run => { t with s := { t.s with seq := .halted, inv := true } }
  | .blocked => { t with s := { t.s with seq := .halted, inv := true, blk := 0, blkarg := 0, paused := true } }
  | _ => t
def State.haltTile (t : PT) (s : State) : State := s.modTile t fun x => (x.halt).restall s.now

/-- RESUME (R151): HALTED moves to RUN when an invocation is in progress, else to IDLE. -/
def Tile.resume (t : Tile) : Tile :=
  if t.s.seq = .halted then
    { t with s := { t.s with seq := if t.s.inv then .run else .idle, blk := 0, blkarg := 0 } }
  else t
def State.resumeTile (t : PT) (s : State) : State := s.modTile t fun x => (x.resume).restall s.now

/-- IDLE, HALTED or RESET, the states in which tags, address registers and ports may be written (R160). -/
def Tile.still (t : Tile) : Bool := decide (t.s.seq = .idle) || decide (t.s.seq = .halted) || decide (t.s.seq = .reset)

/-! ### Tile registers (R160) -/

def Tile.areg (t : Tile) (n : Nat) : AddrReg := Tab.get AddrReg.reset t.r.a n
/-- Write an address register. -/
def Tile.setA (n : Nat) (r : AddrReg) (t : Tile) : Tile :=
  { t.rewritten (fun w => decide (w = aWord n)) with r := { t.r with a := Tab.set AddrReg.reset t.r.a n r } }
/-- The words under the code that a read of the tile register at an offset needs: an address register's. -/
def regWords (off : Nat) (w : CodeWord) : Bool := decide (0x50 ≤ off) && decide (off < 0x90) && decide (w = aWord ((off - 0x50) / 8))

/-- A loop level's half of `TILE_LOOP01` and `TILE_LOOP23`. -/
def Tile.loopHalf (t : Tile) (l : Nat) : Nat :=
  match t.r.loops.find? fun x => decide (x.lvl = l) with
  | some x => 2 ^ 31 + x.cnt % 2 ^ 24
  | none => 0

/-- Read a tile register by its offset from 0xF000; an offset of the register range that R160 assigns to no register reads
zero, and a write to it does nothing. (DESIGN CHOICE, log 113) -/
def readTileReg (t : PT) (h : Option LT) (x : Tile) (off : Nat) : Word :=
  if off = 0x00 then
    (match h with
    | some l => fld 63 63 1 ||| fld 62 52 l.x ||| fld 51 42 l.y
    | none => 0) ||| fld 22 16 t.bay ||| fld 15 9 t.col ||| fld 8 2 t.row
  else if off = 0x08 then
    fld 40 40 (flag (decide (x.q.held ≠ []))) ||| fld 34 32 x.q.parked.length |||
      fld 24 16 ((x.s.check.map fun c => c.next).getD x.s.pc.toNat) ||| fld 15 12 x.s.blk ||| fld 11 8 x.s.blkarg ||| fld 7 4 x.s.fcause |||
      fld 3 0 x.s.seq.code
  else if off = 0x18 then fld 40 32 x.c.entry.toNat ||| fld 18 16 x.c.startq.toNat ||| fld 15 8 x.c.ceLim.toNat
  else if off = 0x20 then fld 7 0 x.c.xstat.toNat
  else if off = 0x28 then
    fld 63 48 x.c.ce.toNat ||| fld 47 40 x.c.ue.toNat ||| fld 38 36 x.c.eccMem.toNat ||| fld 31 16 x.c.eccAddr.toNat
  else if off = 0x30 then BitVec.ofNat 64 (x.loopHalf 0 + 2 ^ 32 * x.loopHalf 1)
  else if off = 0x38 then BitVec.ofNat 64 (x.loopHalf 2 + 2 ^ 32 * x.loopHalf 3)
  else if off = 0x40 then x.r.srix0.setWidth 64
  else if off = 0x48 then x.r.srix1.setWidth 64
  else if 0x50 ≤ off ∧ off < 0x90 then
    let a := x.areg ((off - 0x50) / 8)
    fld 31 16 a.stride.toNat ||| fld 15 0 a.cur.toNat
  else if 0xC0 ≤ off ∧ off < 0x140 then (Tab.get Port.reset x.r.ports ((off - 0xC0) / 8)).desc
  else if 0x140 ≤ off ∧ off < 0x158 then x.amTag.extractLsb' (8 * (off - 0x140)) 64
  else if 0x160 ≤ off ∧ off < 0x180 then x.pmTag.extractLsb' (8 * (off - 0x160)) 64
  else if off = 0x180 then fld 63 32 x.s.sigSeq.toNat ||| fld 31 0 x.s.sigChk.toNat
  else 0

/-- Write one 64-bit window of a tag vector. -/
def setTagWord {n : Nat} (v : BitVec n) (k : Nat) (w : Word) : BitVec n :=
  (v &&& ~~~((BitVec.ofNat n (2 ^ 64 - 1)) <<< (64 * k))) ||| (w.setWidth n <<< (64 * k))

/-- What a write of a tile register other than `TILE_CTL` does to the tile (R102, R160). -/
def Tile.writeReg (off : Nat) (v : Word) (x : Tile) : Tile :=
  if off = 0x18 then
    { x with c := { x.c with entry := v.extractLsb' 32 9, startq := v.extractLsb' 16 3, ceLim := v.extractLsb' 8 8 } }
  else if off = 0x20 then { x with c := { x.c with xstat := x.c.xstat &&& ~~~(v.extractLsb' 0 8) } }
  else if off = 0x28 then (if v.getLsbD 0 then { x with c := { x.c with ce := 0, ue := 0 } } else x)
  else if off = 0x40 then { x with r := { x.r with srix0 := v.extractLsb' 0 48 } }
  else if off = 0x48 then { x with r := { x.r with srix1 := v.extractLsb' 0 48 } }
  else if x.still = false then x
  else if 0x50 ≤ off ∧ off < 0x90 then
    x.setA ((off - 0x50) / 8) { cur := v.extractLsb' 0 16, stride := v.extractLsb' 16 16 }
  else if 0xC0 ≤ off ∧ off < 0x140 then
    let n := (off - 0xC0) / 8
    let p := Tab.get Port.reset x.r.ports n
    let q : Port := { p with desc := v &&& 0xFFFFFFFFFFFE0000, cursor := v.extractLsb' 25 16 }
    { x with r := { x.r with ports := Tab.set Port.reset x.r.ports n q } }
  else if 0x140 ≤ off ∧ off < 0x158 then { x with amTag := setTagWord x.amTag ((off - 0x140) / 8) v }
  else if 0x160 ≤ off ∧ off < 0x180 then { x with pmTag := setTagWord x.pmTag ((off - 0x160) / 8) v }
  else x

/-- A write of `TILE_CTL` (R160): RESET before HALT before RESUME, CLRTAGS after them. -/
def State.tileCtl (t : PT) (v : Word) (s : State) : State :=
  let s :=
    if v.getLsbD 2 then s.resetTile t
    else if v.getLsbD 0 then s.haltTile t
    else if v.getLsbD 1 then s.resumeTile t
    else s
  if v.getLsbD 3 ∧ (s.tile t).still then s.modTile t Tile.clearTags else s

/-- Write a tile register by its offset from 0xF000; `TILE_ID` is written by the Scriber only. -/
def State.writeTileReg (t : PT) (off : Nat) (v : Word) (s : State) : State :=
  if off = 0x10 then s.tileCtl t v else s.modTile t (Tile.writeReg off v)

end Sys2Proof.Machine
end

