-- ==== Sys2Proof/Machine/FrameView.lean ====
section
/-!
DEFINITION. What a decoded Frame says about a logical tile: its tile set, ports, region, and whether it is named
(spec 05_frame R225 to R245, 07_scriber R333).
-/

namespace Sys2Proof.Machine

def Rect.has (r : Rect) (l : LT) : Bool :=
  decide (r.x0 ≤ l.x) && decide (l.x ≤ r.x1) && decide (r.y0 ≤ l.y) && decide (l.y ≤ r.y1)
/-- The tiles of a rectangle in row-major order (R234). -/
def Rect.tiles (r : Rect) : List LT :=
  (List.range (r.y1 + 1 - r.y0)).flatMap fun j => (List.range (r.x1 + 1 - r.x0)).map fun i => { x := r.x0 + i, y := r.y0 + j }
def Rect.count (r : Rect) : Nat := (r.x1 + 1 - r.x0) * (r.y1 + 1 - r.y0)
/-- Two rectangles share a tile. -/
def Rect.meets (a b : Rect) : Bool :=
  decide (a.x0 ≤ b.x1) && decide (b.x0 ≤ a.x1) && decide (a.y0 ≤ b.y1) && decide (b.y0 ≤ a.y1)

/-- The tile set of a logical tile (R230). -/
def Frame.tileset (f : Frame) (l : LT) : Option TilesetRec := f.tilesets.find? fun r => r.rect.has l

/-- The image of a port entry at a tile (R232). -/
def PortRec.imageAt (p : PortRec) (l : LT) : Word :=
  if p.mode = 1 ∧ fieldOf p.image 63 62 ≠ 3 then
    withField (withField p.image 61 51 (unsignedOf 11 ((l.x : Int) + p.dx))) 50 41 (unsignedOf 10 ((l.y : Int) + p.dy))
  else p.image
/-- The destination that a port entry names at a tile; a fountain port names none. -/
def PortRec.destAt (p : PortRec) (l : LT) : Option (Int × Int) :=
  if fieldOf p.image 63 62 = 3 then none
  else if p.mode = 1 then some ((l.x : Int) + p.dx, (l.y : Int) + p.dy)
  else some ((fieldOf p.image 61 51 : Nat), (fieldOf p.image 50 41 : Nat))
/-- The port of a logical tile as `TILE_OPORTn` (R232). -/
def Frame.portImage (f : Frame) (l : LT) (n : Nat) : Word :=
  match f.tileset l with
  | none => 0
  | some t => match t.ports.find? fun p => p.port == n with
    | some p => p.imageAt l
    | none => 0

/-- The region of a logical tile (R227). -/
def Frame.regionOf (f : Frame) (l : LT) : Nat :=
  match f.regions.find? fun r => r.rect.has l with
  | some r => r.region
  | none => 0

/-- A port entry of the record names `l` from some tile of its rectangle. -/
def TilesetRec.sendsTo (t : TilesetRec) (l : LT) : Bool :=
  t.ports.any fun p =>
    if fieldOf p.image 63 62 = 3 then false
    else if p.mode = 1 then
      let x := (l.x : Int) - p.dx
      let y := (l.y : Int) - p.dy
      decide (0 ≤ x) && decide (0 ≤ y) && t.rect.has { x := x.toNat, y := y.toNat }
    else decide (fieldOf p.image 61 51 = l.x) && decide (fieldOf p.image 50 41 = l.y)

/-- A named logical tile (R333). -/
def Frame.isNamed (f : Frame) (l : LT) : Bool :=
  f.tilesets.any (fun t => t.rect.has l || t.sendsTo l) || f.wmloads.any (fun w => w.rect.has l) ||
  f.queues.any (fun q => decide (q.t = l)) || f.founts.any (fun t => t.nodes.any fun n => decide (n.t = l)) ||
  f.weirs.any (fun w => w.rects.any fun r => r.has l)

/-- Insert a logical tile in ascending LY, then LX, once (R351). -/
def insertLT (l : LT) : List LT → List LT
  | [] => [l]
  | m :: r => if m = l then m :: r else if l.key < m.key then l :: m :: r else m :: insertLT l r

/-- Logical tiles in ascending LY, then LX (R351). -/
def sortLT (ls : List LT) : List LT := ls.foldl (fun r l => insertLT l r) []

/-- The tiles that a record's ports name. -/
def TilesetRec.dests (t : TilesetRec) : List LT :=
  t.rect.tiles.flatMap fun l => t.ports.filterMap fun p => (p.destAt l).map fun d => { x := d.1.toNat, y := d.2.toNat }

/-- The named logical tiles in ascending LY, then LX (R333, R351). -/
def Frame.named (f : Frame) : List LT :=
  (f.tilesets.flatMap (fun t => t.rect.tiles ++ t.dests) ++ f.wmloads.flatMap (fun w => w.rect.tiles) ++
    f.queues.map (fun q => q.t) ++ f.founts.flatMap (fun t => t.nodes.map fun n => n.t) ++
    f.weirs.flatMap (fun w => w.rects.flatMap Rect.tiles)).foldl (fun r l => insertLT l r) []

def Frame.program (f : Frame) (id : Nat) : Option ProgramRec := f.programs.find? fun r => r.id == id
def Frame.weir (f : Frame) (wid : Nat) : Option WeirRec := f.weirs.find? fun r => r.wid == wid
/-- The members of a weir group (R308). -/
def WeirRec.members (w : WeirRec) : List LT := (w.rects.flatMap Rect.tiles).foldl (fun r l => insertLT l r) []
def WeirRec.has (w : WeirRec) (l : LT) : Bool := w.rects.any fun r => r.has l

/-! ### The tree of a group (R311) -/

/-- The members of a group by region: each region's members in order, the regions in order of their first member. -/
def Frame.weirRegions (f : Frame) (w : WeirRec) : List (Nat × List LT) :=
  w.members.foldl (fun gs l =>
    let r := f.regionOf l
    if gs.any fun g => g.1 == r then gs.map fun g => if g.1 = r then (r, g.2 ++ [l]) else g
    else gs ++ [(r, [l])]) []

/-- The parent of a member: within a region the members form a tree of seven children a node; the first member of a
region is a child of the first member of the region before it. The root has none. (DESIGN CHOICE, log 37) -/
def Frame.weirParent (f : Frame) (w : WeirRec) (l : LT) : Option LT :=
  let gs := f.weirRegions w
  let n := gs.findIdx fun g => g.2.contains l
  match gs[n]? with
  | none => none
  | some g =>
    let i := g.2.findIdx fun m => decide (m = l)
    if i = 0 then (if n = 0 then none else (gs[n - 1]?).bind fun h => h.2.head?)
    else g.2[(i - 1) / 7]?

/-- The children of a member. (DESIGN CHOICE, log 37) -/
def Frame.weirChildren (f : Frame) (w : WeirRec) (l : LT) : List LT :=
  w.members.filter fun m => decide (f.weirParent w m = some l)

/-- The root of a group: its first member. (DESIGN CHOICE, log 37) -/
def Frame.weirRoot (f : Frame) (w : WeirRec) : Option LT := (f.weirRegions w).head?.bind fun g => g.2.head?

/-- The nodes above a member, up to the root (R311); `n` bounds the climb. -/
def Frame.weirAbove (f : Frame) (w : WeirRec) : Nat → LT → List LT
  | 0, _ => []
  | n + 1, l =>
    match f.weirParent w l with
    | none => []
    | some m => m :: f.weirAbove w n m

/-! ### Routes (R241) -/

/-- The ROUTES record that acts for a region: its own, else the one for every other region (R241). -/
def Frame.spreadOf (f : Frame) (g : Nat) : Option (Nat × Nat × Bool × Nat) :=
  let find := fun (n : Nat) => f.routes.findSome? fun r => match r with
    | .spread k mx my d m => if k = n then some (mx, my, d, m) else none
    | _ => none
  (find g).orElse fun _ => find 0xFFFF

end Sys2Proof.Machine
end

