-- ==== Sys2Proof/Machine/Flits.lean ====
section
/-!
DEFINITION. Flits, return words and packet descriptors; the virtual channels; the places of rim gateways and segments
(spec 06_fabric R270 to R281, R324, R325; 01_organisation R50).
-/

namespace Sys2Proof

/-! ### Flits (R271, R272) -/

def Flit.vc (f : Flit) : Nat := f.hdr.toNat / 2 ^ 29
def Flit.ft (f : Flit) : Nat := f.hdr.toNat / 2 ^ 27 % 4
def Flit.ep (f : Flit) : Bool := f.hdr.getLsbD 26
def Flit.tok (f : Flit) : Bool := f.hdr.getLsbD 25
def Flit.lseq (f : Flit) : BitVec 6 := f.hdr.extractLsb' 19 6
/-- The flit begins a packet; the flit ends one. -/
def Flit.isHead (f : Flit) : Bool := f.ft == 0 || f.ft == 3
def Flit.isLast (f : Flit) : Bool := f.ft == 2 || f.ft == 3

/-- One bit into the CRC-10 register (R272). -/
def crc10Bit (c : BitVec 10) (b : Bool) : BitVec 10 := if (c.getLsbD 9 != b) then (c <<< 1) ^^^ 0x233 else c <<< 1

/-- FCRC over the payload and then header bits [28:25], most significant bit first (R272). (PRESUMED, log 15) -/
def Flit.crc (f : Flit) : BitVec 10 :=
  let bits := ((List.range 128).map fun i => f.data.getLsbD (127 - i)) ++ (List.range 4).map fun i => f.hdr.getLsbD (28 - i)
  bits.foldl crc10Bit (BitVec.ofNat 10 0x3FF)
/-- FCRC is right: the test at each receipt and on ejection (R272). -/
def Flit.crcGood (f : Flit) : Bool := decide (f.hdr.extractLsb' 0 10 = f.crc)

/-- Parity of the bits of a number's low `n` bits. -/
def parity (n v : Nat) : Bool := (List.range n).foldl (fun p i => p != v.testBit i) false

/-- FCRC and HP are right (R271, R272). -/
def Flit.checks (f : Flit) : Bool := f.crcGood && (parity 9 (f.vc * 64 + f.lseq.toNat) == f.hdr.getLsbD 10)

/-- VC, LSEQ and HP of a header. -/
def linkBits (vc : Nat) (lseq : BitVec 6) : BitVec 32 :=
  BitVec.ofNat 32 (vc * 2 ^ 29 + lseq.toNat * 2 ^ 19 + (if parity 9 (vc * 64 + lseq.toNat) then 2 ^ 10 else 0))

/-- A flit as its source forms it (R271, R272). -/
def mkFlit (ft : Nat) (ep tok : Bool) (data : Quad) : Flit :=
  let h := BitVec.ofNat 32 (ft * 2 ^ 27 + (if ep then 2 ^ 26 else 0) + (if tok then 2 ^ 25 else 0))
  let f : Flit := { hdr := h, data := data }
  { f with hdr := h ||| f.crc.setWidth 32 }

/-- A flit as a router sends it: VC, LSEQ and HP are the link's, the rest and FCRC are kept (R271, R272). -/
def Flit.onLink (vc : Nat) (lseq : BitVec 6) (f : Flit) : Flit :=
  { f with hdr := (f.hdr &&& 0x1E07FBFF) ||| linkBits vc lseq }

/-! ### Gateways and segments of the rim (R50, R324) -/

/-- The entry tile of link `k` of gateway `g` (R324). -/
def gatewayEntry (g k : Nat) : PT :=
  if g < 96 then { bay := g / 8, col := 16 * (g % 8) + k, row := 0 }
  else if g < 192 then { bay := 72 + (g - 96) / 8, col := 16 * (g % 8) + k, row := 95 }
  else if g < 234 then { bay := 12 * ((g - 192) / 6), col := 0, row := 16 * ((g - 192) % 6) + k }
  else { bay := 12 * ((g - 234) / 6) + 11, col := 127, row := 16 * ((g - 234) % 6) + k }

/-- The edge of the bay grid on which gateway `g` lies (R324). -/
def gatewayEdge (g : Nat) : Dir := if g < 96 then .north else if g < 192 then .south else if g < 234 then .west else .east

/-- The gateway beyond a tile of the outer edge (R324). -/
def gatewayAt (t : PT) (d : Dir) : Nat :=
  match d with
  | .north => 8 * t.bay + t.col / 16
  | .south => 96 + 8 * (t.bay - 72) + t.col / 16
  | .west => 192 + 6 * (t.bay / 12) + t.row / 16
  | .east => 234 + 6 * (t.bay / 12) + t.row / 16

/-- The bay edges that each rim segment borders, segment 0 first (R50). -/
def segmentEdges : List (Dir × List Nat) :=
  [(.north, [5, 4]), (.north, [3, 2]), (.north, [1, 0]), (.west, [0, 12]), (.west, [24]), (.west, [36]), (.west, [48]),
   (.west, [60, 72]), (.south, [72, 73]), (.south, [74]), (.south, [75]), (.south, [76, 77])] ++
  [(.south, [78, 79]), (.south, [80]), (.south, [81]), (.south, [82, 83]), (.east, [83, 71]), (.east, [59]), (.east, [47]),
   (.east, [35]), (.east, [23, 11]), (.north, [11, 10]), (.north, [9, 8]), (.north, [7, 6])]

/-- The rim segment of a gateway: the one that borders its bay edge (R50, R324). -/
def gatewaySegment (g : Nat) : Nat :=
  segmentEdges.findIdx fun e => decide (e.1 = gatewayEdge g) && e.2.contains (gatewayEntry g 0).bay

/-- Hops between two tiles of the mesh. -/
def hops (a b : PT) : Nat := ((a.px : Int) - b.px).natAbs + ((a.py : Int) - b.py).natAbs

/-- Hops from a tile to the nearest entry tile of gateway `g`. -/
def gatewayHops (t : PT) (g : Nat) : Nat :=
  (List.range 16).foldl (fun m k => min m (hops t (gatewayEntry g k))) (hops t (gatewayEntry g 0))

/-- The gateway of the half of tile `t` with the fewest hops to it (R348). -/
def nearestGateway (t : PT) : Nat :=
  ((List.range 276).foldl (fun m g =>
    if bayEast (gatewayEntry g 0).bay != bayEast t.bay then m
    else if gatewayHops t g < m.2 then (g, gatewayHops t g) else m) (0, 1000000)).1

/-! ### Descriptors (R277, R325) -/

/-- The place that a descriptor names for an end of a packet: a tile's coordinates, a gateway's address; a rim block or a
Joiner is reached through the gateway nearest to the other end. (DEDUCED, log 28) -/
def Node.coords (n other : Node) : Nat × Nat :=
  match n, other with
  | .tile t, _ => (t.px, t.py)
  | .gateway g, _ => (g, 1023)
  | _, .tile t => (nearestGateway t, 1023)
  | _, _ => (0, 1023)

/-- The node that an address names. -/
def Node.ofCoords (x y : Nat) : Node := if y = 1023 then .gateway x else .tile (PT.ofXY x y)

/-- What the source chooses of a packet's path: MIDK and the intermediate tile or waypoint (R277). -/
structure Via where
  midk : Nat
  at_ : PT

/-- No intermediate tile. -/
def Via.direct : Via := { midk := 0, at_ := PT.ofXY 0 0 }

/-- A packet's descriptor (R277, R278). -/
def Packet.desc (p : Packet) (v : Via) (tide : Nat) : Quad :=
  let d := p.dst.coords p.src
  let s := p.src.coords p.dst
  let m := if v.midk = 0 then (0, 0) else (v.at_.px, v.at_.py)
  let low := if p.op.toNat = 0x17 then p.ext.toNat % 2 ^ 16 * 2 ^ 17 else p.seq.toNat * 2 ^ 29
  BitVec.ofNat 128 (p.op.toNat * 2 ^ 123 + p.body.length % 8 * 2 ^ 120 + v.midk * 2 ^ 118 + p.tag.toNat * 2 ^ 112 +
    d.1 * 2 ^ 101 + d.2 * 2 ^ 91 + m.1 * 2 ^ 80 + m.2 * 2 ^ 70 + s.1 * 2 ^ 59 + s.2 * 2 ^ 49 + p.addr.toNat * 2 ^ 33 + low +
    tide % 2 ^ 16)

/-- The field [hi:lo] of a descriptor. -/
def descField (q : Quad) (hi lo : Nat) : Nat := q.toNat / 2 ^ lo % 2 ^ (hi + 1 - lo)

/-- A descriptor without what the path and the time of injection put into it: MIDK, MPX, MPY and TIDE. -/
def bareDesc (q : Quad) : Quad := q &&& 0xFF3FFFFFF800003FFFFFFFFFFFFF0000

/-- The flits of a packet: a head and its body, or a single flit (R271, R276). -/
def Packet.flits (p : Packet) (v : Via) (tide : Nat) : List Flit :=
  let q := p.desc v tide
  match p.body with
  | [] => [mkFlit 3 p.ep false q]
  | b => mkFlit 0 p.ep false q :: (b.dropLast.map fun e => mkFlit 1 p.ep e.tok e.data) ++
      (b.getLast?.toList.map fun e => mkFlit 2 p.ep e.tok e.data)

/-- The flits are those of this packet. -/
def Packet.isOf (fs : List Flit) (p : Packet) : Bool :=
  match fs with
  | [] => false
  | h :: r => decide (bareDesc h.data = p.desc Via.direct 0) && h.ep == p.ep && decide (r.map (·.data) = p.body.map (·.data))
/-- The head flit is that of this packet. -/
def Packet.headOf (h : Flit) (p : Packet) : Bool := decide (bareDesc h.data = p.desc Via.direct 0) && h.ep == p.ep

/-- The packet that flits spell, in partition `part`: FLOAT_VAL's change count lies in [32:17] (R276 to R278). -/
def packetOf (part : Nat) (h : Flit) (body : List Flit) : Packet :=
  let q := h.data
  let op := descField q 127 123
  { op := BitVec.ofNat 5 op, dst := Node.ofCoords (descField q 111 101) (descField q 100 91)
    src := Node.ofCoords (descField q 69 59) (descField q 58 49), tag := BitVec.ofNat 6 (descField q 117 112)
    addr := BitVec.ofNat 16 (descField q 48 33), seq := if op = 0x17 then 0 else BitVec.ofNat 4 (descField q 32 29), ep := h.ep
    ext := if op = 0x17 then BitVec.ofNat 48 (descField q 32 17) else 0, part := part
    body := body.map fun f => { data := f.data, tok := f.tok } }

/-- The packets of a buffer that have come whole, and the flits of one that has not. -/
def splitOpen (fs : List Flit) : List Flit × List Flit :=
  fs.foldl (fun a f => if f.isLast then (a.1 ++ a.2 ++ [f], []) else (a.1, a.2 ++ [f])) ([], [])

/-- The first whole packet of a buffer, and the flits after it. -/
def cutPacket : List Flit → Option (List Flit × List Flit)
  | [] => none
  | f :: r => if f.isLast then some ([f], r) else (cutPacket r).map fun x => (f :: x.1, x.2)

/-! ### Packet kinds and virtual channels (R278, R280) -/

/-- OP values that name no packet kind (R278). -/
def opReserved (op : Nat) : Bool :=
  !([0x00, 0x01, 0x02, 0x03, 0x04, 0x05, 0x06, 0x08, 0x09, 0x0A, 0x0B, 0x0C, 0x10, 0x11, 0x14, 0x15, 0x16, 0x17, 0x18, 0x19,
     0x1F].contains op)

/-- The class of a packet kind: request, response, multicast, control, escape (R278). -/
inductive VcClass where
  | request | response | multicast | control | escape
deriving DecidableEq, Repr

def vcClass (op : Nat) : VcClass :=
  if op ≤ 5 ∨ op = 0x10 then .request
  else if op = 6 then .multicast
  else if op ≤ 0x0C ∨ op = 0x11 then .response
  else if op = 0x18 ∨ op = 0x19 then .escape
  else .control

/-- The virtual channel of a class in a phase (R280). -/
def VcClass.vc (phase : Nat) : VcClass → Nat
  | .request => phase
  | .response => 2 + phase
  | .multicast => 4 + phase
  | .control => 6
  | .escape => 7

end Sys2Proof

namespace Sys2Proof.Machine

/-! ### Return words (R273, R274, R284, R285) -/

/-- A return word with its parity bit (R273). -/
def returnWordOf (v : Nat) : BitVec 16 := BitVec.ofNat 16 (v / 2 * 2 + flag (parity 15 (v / 2)))

/-- An acknowledgement, with the credit of a VC; or a NAK (R273, R274). -/
def ackWord (aseq : BitVec 6) (nak : Bool) (vc : Nat) (crv : Bool) : BitVec 16 :=
  returnWordOf (0x4000 + aseq.toNat * 256 + flag nak * 128 + vc * 16 + flag crv * 8)

/-- A stop word (R273, R284). -/
def stopWord (stop : BitVec 8) : BitVec 16 := returnWordOf (0x8000 + stop.toNat * 64)

/-- A resync word (R273, R285). -/
def resyncWord (vc free : Nat) : BitVec 16 := returnWordOf (0xC000 + vc * 2048 + free * 16)

/-- The buffer of an input port per VC: 64 flits at ridge bridges and rim gateway links, 8 elsewhere (R281, R321, R325). -/
def bufferSize (r : PT) (d : Dir) : Nat := if isRidge r d ∨ (r.step d).isNone then 64 else 8

/-- The free buffers at which STOP is asserted, and at which it is released (R284). -/
def stopLimits (size : Nat) : Nat × Nat := if size = 64 then (16, 48) else (2, 6)

end Sys2Proof.Machine
end

