-- ==== Sys2Proof/Machine/Operands.lean ====
section
/-!
DEFINITION. Operand forms of the micro-ops: vector groups, memory through an address register, queues and ports
(R128 to R130), with the queues, credits, scarf lookups and fountains that they use (R165 to R170, R186 to R190, R293,
R303, R304).
-/

namespace Sys2Proof.Machine

/-- Why a micro-op does not complete: it waits (R105, with `TILE_STATE.BLK` and BLKARG), it waits for slots to have the tag
it needs (R119), it is illegal (R154, with FCAUSE), a word it needs is uncorrectable (R159), a read found a flush token in
queue q (R178; `n` counts the entries popped of that queue, since its last restore, before the token), or a destination has
no scarf entry (R295, with BLK and BLKARG). -/
inductive Stop where
  | block (blk arg : Nat)
  | tags (blk an : Nat) (slots : List Nat)
  | illegal (fcause : Nat)
  | uncorr (w : CodeWord)
  | flush (q n : Nat)
  | scarf (l : LT) (blk arg : Nat)
deriving DecidableEq, Repr

abbrev R (α : Type) := Except Stop α

/-! ### Lookups -/

/-- The active versions of a router's tables (R293, R297). -/
def Router.active (r : Router) : Tab (Word × Word) := if r.tv then r.scarf1 else r.scarf0
def Router.fab (r : Router) : FabTables := if r.tv then r.fab1 else r.fab0

/-- The scarf table entry of a logical tile in the active version: its host and DEP (R293, R294). -/
def Router.scarf (r : Router) (l : LT) : Option (PT × Bool) :=
  match r.active.find? fun e => fieldOf e.2.1 63 63 == 1 && fieldOf e.2.1 62 52 == l.x && fieldOf e.2.1 51 42 == l.y with
  | some e => some (PT.ofXY (fieldOf e.2.1 41 31) (fieldOf e.2.1 30 21), e.2.1.getLsbD 20)
  | none => none

/-- The applied Frame of a partition, or an empty one. -/
def State.frameOf (s : State) (p : Nat) : Frame := ((s.part p).own.frame).getD Frame.empty

/-- The binding of queue `q` of a logical tile (R238). -/
def State.binding (s : State) (l : LT) (q : Nat) : Option QueueRec :=
  (s.frameOf (s.ltPart l)).queues.find? fun r => r.t = l && r.q == q

/-- SCARF_MISS: tile `t` finds no entry for logical tile `l` (R295). -/
def State.scarfMiss (t : PT) (l : LT) (s : State) : State :=
  s.signal Ev.scarfMiss (s.ptPart t) [t.bay, t.col, t.row, l.x, l.y]

/-- A packet of tile `t` to logical tile `l` takes its host and DEP from the scarf entry; without one it is not sent (R293,
R295). -/
def State.sendTo (t : PT) (l : LT) (mk : PT → Bool → Packet) (s : State) : State :=
  match (s.router t).scarf l with
  | some d => s.send (mk d.1 d.2)
  | none => s.scarfMiss t l

/-- A fountain in the active tables of a tile's router (R297, R303). -/
def State.fountRow (s : State) (t : PT) (fid : Nat) : Option FountRec := (s.router t).fab.founts.find? fun r => r.fid == fid
/-- A fountain of the applied Frame. -/
def State.fountain (s : State) (p fid : Nat) : Option FountRec := (s.frameOf p).founts.find? fun r => r.fid == fid

/-- The nodes of a fountain with their numbers. -/
def FountRec.numbered (f : FountRec) : List (Nat × FountNode) := (List.range f.nodes.length).zip f.nodes
/-- The node of a logical tile in a fountain. -/
def FountRec.nodeOf (f : FountRec) (l : LT) : Option Nat := (f.numbered.find? fun n => n.2.t = l).map (·.1)
/-- The children of node `i`; node 0 has no parent. -/
def FountRec.children (f : FountRec) (i : Nat) : List (Nat × FountNode) :=
  f.numbered.filter fun n => decide (n.1 ≠ 0) && decide (n.2.parent = i)

def fnodeKey (fid i : Nat) : Nat := 65536 * fid + i
def State.fnode (s : State) (p fid i : Nat) : FNode := Tab.get FNode.reset (s.part p).run.fnodes (fnodeKey fid i)
def State.setFnode (p fid i : Nat) (x : FNode) (s : State) : State :=
  s.modRun p fun r => { r with fnodes := Tab.set FNode.reset r.fnodes (fnodeKey fid i) x }

/-! ### Credits and acknowledgements (R167 to R169, R304, R869) -/

def Tile.queue (t : Tile) (q : Nat) : Queue := Tab.get Queue.reset t.queues q
def Tile.setQueue (q : Nat) (x : Queue) (t : Tile) : Tile := { t with queues := Tab.set Queue.reset t.queues q x }
def Tile.port (t : Tile) (n : Nat) : Port := Tab.get Port.reset t.r.ports n
def Tile.setPort (n : Nat) (x : Port) (t : Tile) : Tile :=
  { t with r := { t.r with ports := Tab.set Port.reset t.r.ports n x } }
def Tile.modPort (n : Nat) (f : Port → Port) (t : Tile) : Tile := t.setPort n (f (t.port n))

/-- A credit or acknowledgement packet for a port: ADDR [3:0] port, [8:4] count, [9] phase (R278). `ext` is 1 + the
fountain number when it goes to a fountain node, 1 + the queue's number when it goes to a gateway, and 0 otherwise.
(DEDUCED, log 28) -/
def creditPacket (op : BitVec 5) (dst src : Node) (part port n : Nat) (phase ep : Bool) (ext : Nat) : Packet :=
  { op := op, dst := dst, src := src, tag := 0, addr := BitVec.ofNat 16 (port + 16 * n + 512 * flag phase), seq := 0,
    ep := ep, ext := BitVec.ofNat 48 ext, part := part, body := [] }

/-- The number of a queue bound to a gateway: logical tile and queue. -/
def gwKey (l : LT) (q : Nat) : Nat := l.key * 8 + q

/-- Which of a fountain node's counts. -/
inductive FCount where
  | credit | ack
deriving DecidableEq, Repr

/-- The fewest entries that every branch of a node has freed: the own leaf queue (branch 0) when it has one, and every
child (branch 1 + its number) (R304). -/
def fnodeLow (f : FountRec) (i : Nat) (tab : Tab Nat) : Nat :=
  let leaf := ((f.nodes[i]?).map fun n => n.leaf).getD false
  let ks := (if leaf then [0] else []) ++ (f.children i).map fun c => c.1 + 1
  match ks.map fun k => Tab.get 0 tab k with
  | [] => 0
  | a :: r => r.foldl min a

/-- The counts of a phase at a fountain node. -/
def FNode.counts (x : FNode) (phase : Bool) : FCounts := if phase then x.high else x.low
def FNode.setCounts (phase : Bool) (c : FCounts) (x : FNode) : FNode := if phase then { x with high := c } else { x with low := c }

/-- A branch of a fountain node frees `n` entries: once every branch has, the node returns them to its parent, or to the
port of node 0 (R304). The `fuel` bounds the climb to the root. -/
def State.fountainReturn (k : FCount) (p : Nat) (f : FountRec) (i branch n : Nat) (phase : Bool) (s : State) : State :=
  let x := s.fnode p f.fid i
  let c := x.counts phase
  let tab := match k with
    | .credit => c.credits
    | .ack => c.acks
  let done := match k with
    | .credit => c.credited
    | .ack => c.acked
  let tab := Tab.set 0 tab branch (Tab.get 0 tab branch + n)
  let low := fnodeLow f i tab
  let c := match k with
    | .credit => { c with credits := tab, credited := low }
    | .ack => { c with acks := tab, acked := low }
  let s := s.setFnode p f.fid i (x.setCounts phase c)
  if low ≤ done then s
  else
    match f.nodes[i]? with
    | none => s
    | some nd =>
      let src := s.runsAt nd.t
      let op := match k with
        | .credit => opQCredit
        | .ack => opQAck
      if i = 0 then
        -- node 0's own port: the fountain-kind port of its tile
        s.send (creditPacket op (.tile src) (.tile src) p 0 (low - done) phase (s.router src).ep (1 + f.fid))
      else
        match f.nodes[nd.parent]? with
        | none => s
        | some pn =>
          s.send (creditPacket op (.tile (s.runsAt pn.t)) (.tile src) p 0 (low - done) phase (s.router src).ep (1 + f.fid))

/-- The queue of a tile frees or accepts `n` entries of one phase, which came with one EP: the credit or acknowledgement goes
to its one producer with that EP (R166, R168, R279). -/
def State.returnFor (k : FCount) (t : PT) (q n : Nat) (phase ep : Bool) (s : State) : State :=
  match s.hosted t with
  | none => s
  | some l =>
    let p := s.ltPart l
    let op := match k with
      | .credit => opQCredit
      | .ack => opQAck
    match s.binding l q with
    | none => s
    | some b =>
      match b.prod with
      | .port l' port => s.send (creditPacket op (.tile (s.runsAt l')) (.tile t) p port n phase ep 0)
      | .gateway _ => s.send (creditPacket op (.gateway (nearestGateway t)) (.tile t) p 0 n phase ep (1 + gwKey l q))
      | .fountain fid =>
        match s.fountRow t fid with
        | none => s
        | some f =>
          match f.nodeOf l with
          | none => s
          | some i => s.fountainReturn k p f i 0 n phase

/-! ### Queues (R165 to R169, R189) -/

/-- Entries that a read can reach now, oldest first: the spill segment, then the queue itself once no basin chunk
remains (R189). -/
def Queue.visible (q : Queue) : List QEntry := if q.chunks = [] then q.seg ++ q.fifo else q.seg

/-- The words of cell `c` of the spill segment of queue `q` (R186). -/
def segWords (q c : Nat) : List CodeWord := [(.am, 0xA800 + 0xF0 * q + 16 * (c % 15)), (.am, 0xA808 + 0xF0 * q + 16 * (c % 15))]
/-- The place in queue storage of the i-th entry of the queue: its sequence number. (DESIGN CHOICE, log 22) -/
def Queue.place (x : Queue) (i : Nat) : Nat := (x.next.toNat + 15 * x.fifo.length + i) % 16
/-- The words under the code of the i-th visible entry of queue `q` (R155, R186). -/
def Queue.wordsAt (q : Nat) (x : Queue) (i : Nat) : List CodeWord :=
  if i < x.seg.length then segWords q (x.segAt + i) else queueWords q (x.place (i - x.seg.length))

/-- The sequencer looks at visible entries of queue `q` from the `k`-th on: at `n` of them, or up to the first token; it waits
while there are fewer, and an uncorrectable word among them is found (R159, R174, R189). -/
def Tile.look (x : Tile) (q k n : Nat) : R (List QEntry × Tile) :=
  let qu := Tab.get Queue.reset x.queues q
  let es := (qu.visible.drop k).take n
  let data := (es.takeWhile fun e => !e.tok).length
  if data = es.length ∧ es.length < n then .error (.block 1 q)
  else
    let es := es.take (data + 1)
    match x.checked fun w => (List.range es.length).any fun i => (qu.wordsAt q (k + i)).contains w with
    | .error w => .error (.uncorr w)
    | .ok x => .ok (es, x)

/-- Pop the oldest entry that is visible: it, whether it came from queue storage, and the queue after. -/
def Queue.pop (q : Queue) : Option (QEntry × Bool × Queue) :=
  match q.seg with
  | e :: r => some (e, false, { q with seg := r, segAt := (q.segAt + 1) % 15, popped := q.popped + 1 })
  | [] =>
    if q.chunks ≠ [] then none
    else
      match q.fifo with
      | e :: r => some (e, true, { q with fifo := r, popped := q.popped + 1 })
      | [] => none

/-- Pop one entry of a queue: the credit returns when it leaves queue storage, and the progress counter advances (R168,
R182). -/
def State.popQ (t : PT) (q : Nat) (s : State) : State :=
  match ((s.tile t).queue q).pop with
  | none => s
  | some (e, stored, q') =>
    let s := s.modTile t fun x => (x.setQueue q q').progressBy 1
    if stored then s.returnFor .credit t q 1 e.phase e.ep else s

def State.popN (t : PT) (q : Nat) : Nat → State → State
  | 0, s => s
  | n + 1, s => (s.popQ t q).popN t q n

/-- The kind of a control token (R171, R172). -/
def QEntry.kind (e : QEntry) : Nat := e.data.toNat % 8
/-- The operand of a control token (R171). -/
def QEntry.val (e : QEntry) : Nat := e.data.toNat / 8 % 65536

/-- Move early entries that have become the next expected into the visible queue (R169). -/
def Queue.settle : Nat → Queue → Queue
  | 0, q => q
  | n + 1, q =>
    match q.early.find? fun e => e.1 == q.next.toNat with
    | none => q
    | some e => Queue.settle n { q with fifo := q.fifo ++ e.2.toList, early := q.early.erase e, next := q.next + 1 }

/-- Count discarded entries of a partition (R204, R211, R212). -/
def State.countPurged (p n : Nat) (s : State) : State := s.bump (Reg.prtFlowDiscard p) 31 0 n
def State.countStale (p n : Nat) (s : State) : State := s.bump (Reg.prtFlowDiscard p) 63 32 n

/-- The inlets of region `r`: the queues of its tiles whose producers lie outside it (R166, R238). -/
def Frame.inlets (f : Frame) (r : Nat) : List QueueRec :=
  f.queues.filter fun b => b.inlet && decide (f.regionOf b.t = r)

def State.region (s : State) (p r : Nat) : Region := Tab.get Region.reset (s.part p).run.regions r
def State.setRegion (p r : Nat) (x : Region) (s : State) : State :=
  s.modRun p fun y => { y with regions := Tab.set Region.reset y.regions r x }

/-- Every inlet's recall is confirmed (R203). -/
def State.inletsConfirmed (s : State) (p r : Nat) : Bool :=
  ((s.frameOf p).inlets r).all fun b => ((s.tile (s.runsAt b.t)).queue b.q).confirmed

/-- A region in CLOSING whose inlets are all confirmed goes to EMPTYING (R203). -/
def State.maybeEmptying (p r : Nat) (s : State) : State :=
  if (s.region p r).st = .closing ∧ s.inletsConfirmed p r = true then s.setRegion p r { s.region p r with st := .emptying }
  else s

/-- Where the producer side of a queue is held. -/
inductive ProdRef where
  | port (t : PT) (n : Nat)
  | gateway (p key : Nat)
deriving DecidableEq, Repr

/-- The fountain-kind port of a logical tile that names fountain `fid`. -/
def Frame.fountPort (f : Frame) (l : LT) (fid : Nat) : Option Nat :=
  (List.range 16).find? fun n =>
    let w := f.portImage l n
    decide (fieldOf w 63 62 = 3) && decide (fieldOf w 36 25 = fid)

/-- The producer of a bound queue. -/
def State.prodOf (s : State) (p : Nat) (b : QueueRec) : Option ProdRef :=
  match b.prod with
  | .port l n => some (.port (s.runsAt l) n)
  | .gateway _ => some (.gateway p (gwKey b.t b.q))
  | .fountain fid =>
    match (s.fountain p fid).bind fun f => f.nodes.head? with
    | none => none
    | some nd => ((s.frameOf p).fountPort nd.t fid).map fun n => .port (s.runsAt nd.t) n

def State.gateway (s : State) (p key : Nat) : Gateway := Tab.get Gateway.reset (s.part p).run.gateways key
def State.setGateway (p key : Nat) (x : Gateway) (s : State) : State :=
  s.modRun p fun y => { y with gateways := Tab.set Gateway.reset y.gateways key x }

def State.prod (s : State) : ProdRef → Producer
  | .port t n => ((s.tile t).port n).prod
  | .gateway p k => (s.gateway p k).prod

/-- The entries that the producer of queue `q` of the tile has sent since its last restore. -/
def State.sentTo (s : State) (t : PT) (q : Nat) : Nat :=
  match (s.hosted t).bind fun l => s.binding l q with
  | none => 0
  | some b =>
    match s.prodOf (s.ptPart t) b with
    | none => 0
    | some r => (s.prod r).sent

/-- The recall of a queue accounts for all 16 credits (R200, R305): every entry of the send count has been accepted. The count
comes modulo 16 (R278); with no credit returned and every accepted entry popped, none or all 16 of the last entries may be on
their way, and the producer's own count decides. (DESIGN CHOICE, log 122) -/
def State.accounted (s : State) (t : PT) (q : Nat) (r : Nat × Nat) : Bool :=
  let qu := (s.tile t).queue q
  decide (qu.accepted % 16 = r.2 % 16) &&
    (decide (r.1 ≠ 0) || decide (qu.accepted ≠ qu.popped) || decide (s.sentTo t q ≤ qu.accepted))

/-- The recall of a queue is confirmed once the unspent credits, the entries accepted and the entries popped account for all
16 (R200). -/
def State.confirmAt (t : PT) (q : Nat) (s : State) : State :=
  let qu := (s.tile t).queue q
  match qu.recalled with
  | none => s
  | some r =>
    if qu.confirmed = false ∧ s.accounted t q r = true then
      let s := s.modTile t fun x => x.setQueue q { qu with confirmed := true }
      match s.hosted t with
      | some l => s.maybeEmptying (s.ltPart l) ((s.frameOf (s.ltPart l)).regionOf l)
      | none => s
    else s

/-- Number `sq` has arrived, with its entry or without one (R169, R212). -/
def Queue.arrive (sq : BitVec 4) (e : Option QEntry) (qu : Queue) : Queue :=
  if qu.next = sq then Queue.settle 16 { qu with fifo := qu.fifo ++ e.toList, next := qu.next + 1 }
  else { qu with early := qu.early ++ [(sq.toNat, e)] }

/-- One entry with send sequence number `sq` arrives at queue `q` (R169, R211, R212): a token of another generation is
discarded and counted, its number taken as arrived; an entry that reaches a closed inlet in a purge is discarded; any
other is accepted and acknowledged. -/
def State.accept (t : PT) (q : Nat) (sq : BitVec 4) (e : QEntry) (s : State) : State :=
  let x := s.tile t
  let p := s.ptPart t
  if e.tok ∧ BitVec.ofNat 16 (e.data.toNat / 2 ^ 80) ≠ x.c.gen then
    let s := s.countStale p 1
    s.modTile t fun x => x.setQueue q ((x.queue q).arrive sq none)
  else
    let qu := x.queue q
    if qu.closed then s.countPurged p 1
    else
      let qu := qu.arrive sq (some e)
      let s := s.modTile t fun x => (x.rewritten (queueWords q sq.toNat).contains).setQueue q { qu with accepted := qu.accepted + 1 }
      let s := s.returnFor .ack t q 1 e.phase e.ep
      (s.confirmAt t q).restall t

/-- Entries of one packet arrive in order (R277: entry i has SEQ + i). -/
def State.acceptAll (t : PT) (q : Nat) (phase ep : Bool) : BitVec 4 → List Flitem → State → State
  | _, [], s => s
  | sq, f :: r, s =>
    (s.accept t q sq { data := f.data, tok := f.tok, ep := ep, phase := phase }).acceptAll t q phase ep (sq + 1) r

/-! ### Fountains (R303) -/

/-- Fountain entries reach node `i`: it copies the packet to each child and delivers to its own leaf queue. -/
def State.fountAt (p : Nat) (f : FountRec) (i : Nat) (sq : BitVec 4) (phase : Bool) (body : List Flitem) (s : State) : State :=
  match f.nodes[i]? with
  | none => s
  | some nd =>
    let here := s.runsAt nd.t
    let s := (f.children i).foldl (fun s c => s.sendTo here c.2.t fun d dep =>
      { op := opFount, dst := .tile d, src := .tile here, tag := 0, addr := BitVec.ofNat 16 (f.fid + 4096 * flag phase),
        seq := sq, ep := dep, ext := 0, part := p, body := body }) s
    if nd.leaf then s.acceptAll here nd.q phase (s.router here).ep sq body else s

/-! ### Reading an operand (R128, R129, R174) -/

/-- Registers or entries of an operand of `b` bytes. -/
def opN (b : Nat) : Nat := (b + 15) / 16

/-- The kind and number fields of a specifier. -/
def opsKind (o : Ops) : Nat := o.toNat / 64
def opsNum (o : Ops) (n : Nat) : Nat := o.toNat % n

/-- A data read of `n` entries of queue `q`: a token that it meets stops it, and the data entries before the token stay
(R174, R180). (DEDUCED, log 117) -/
def Tile.readEntries (x : Tile) (q n : Nat) : R (List QEntry × Tile) := do
  let r ← x.look q 0 n
  match r.1.getLast? with
  | none => .ok r
  | some e =>
    if e.tok = false then .ok r
    else if e.kind = 4 then .error (.flush q ((x.queue q).popped + r.1.length - 1))
    else .error (.illegal 1)

/-- Words under the code are read by a micro-op (R156, R159). -/
def Tile.need (x : Tile) (p : CodeWord → Bool) : R Tile :=
  match x.checked p with
  | .error w => .error (.uncorr w)
  | .ok x => .ok x

/-- Vector registers V(r) to V(r + n − 1). -/
def Tile.regs (t : Tile) (r n : Nat) : List Byte :=
  (List.range n).flatMap fun i => leBytes 16 (Tab.get (0 : Quad) t.r.v (r + i)).toNat
def Tile.setV (r : Nat) (v : Quad) (t : Tile) : Tile :=
  { t.rewritten (vWords r 1).contains with r := { t.r with v := Tab.set 0 t.r.v r v } }
/-- Read one vector register under its code. -/
def State.readV (t : PT) (r : Nat) (s : State) : R (Quad × State) := do
  let x ← (s.tile t).need (vWords r 1).contains
  .ok (Tab.get (0 : Quad) x.r.v r, s.setTile t x)
def Tile.setRegs (r : Nat) : Nat → List Byte → Tile → Tile
  | 0, _, t => t
  | n + 1, d, t => Tile.setRegs (r + 1) n (d.drop 16) (t.setV r (BitVec.ofNat 128 (ofLe (d.take 16))))

def Tile.setCur (n : Nat) (c : BitVec 16) (t : Tile) : Tile := t.setA n { t.areg n with cur := c }
/-- A micro-op reads an address register under its code. -/
def State.needA (t : PT) (n : Nat) (s : State) : R State := do
  let x ← (s.tile t).need fun w => decide (w = aWord n)
  .ok (s.setTile t x)

/-- Read `n` bytes at a tile-local address, memories or registers (R106, R107). In the register range an operand is whole
8-byte registers. (DESIGN CHOICE, log 114) -/
def Tile.readLocal (t : PT) (h : Option LT) (a n : Nat) (x : Tile) : R (List Byte × Tile) :=
  if accessible a n = false then .error (.illegal 3)
  else if 0xF000 ≤ a then
    if a % 8 ≠ 0 ∨ n % 8 ≠ 0 then .error (.illegal 3)
    else do
      let x ← x.need fun w => (List.range (n / 8)).any fun i => regWords (a - 0xF000 + 8 * i) w
      .ok ((List.range (n / 8)).flatMap fun i => leBytes 8 (readTileReg t h x (a - 0xF000 + 8 * i)).toNat, x)
  else
    match x.load a n with
    | .ok r => .ok r
    | .error w => .error (.uncorr w)

/-- Write 8 bytes at a time to the tile registers. -/
def State.writeRegs (t : PT) (off : Nat) : Nat → List Byte → State → State
  | 0, _, s => s
  | n + 1, d, s => (s.writeTileReg t off (BitVec.ofNat 64 (ofLe (d.take 8)))).writeRegs t (off + 8) n (d.drop 8)

/-- Write bytes at a tile-local address named by a micro-op; IM is no destination (R106). In the register range an operand is
whole 8-byte registers. (DESIGN CHOICE, log 114) -/
def State.writeLocal (t : PT) (a : Nat) (d : List Byte) (s : State) : R State :=
  let bad := (List.range d.length).any fun i => decide (memAt ((a + i) % 0x10000) = some .im)
  if accessible a d.length = false ∨ bad then .error (.illegal 3)
  else if 0xF000 ≤ a then
    if a % 8 ≠ 0 ∨ d.length % 8 ≠ 0 then .error (.illegal 3) else .ok (s.writeRegs t (a - 0xF000) (d.length / 8) d)
  else .ok (s.modTile t fun x => x.store a d)

/-- A tagged access's slots, or the address violation of R118. -/
def taggedSlots (a n : Nat) : R (List Nat) :=
  match tagSlots a n with
  | some l => .ok l
  | none => .error (.illegal 3)

/-- The micro-op at PC must wait for a tag of these slots: one lacks it, or a waiter that began before it could proceed
(R115, R116, R119). -/
def Tile.mustWaitLocal (x : Tile) (slots : List Nat) (full : Bool) : Bool :=
  !x.ready slots full || x.earlier slots (match x.q.waiting with
    | some w => if w.slots = slots ∧ w.full = full then w.ahead else x.q.parked.length
    | none => x.q.parked.length)

/-- A local read through address register `an`: tag test, tag change, POST (R115, R117, R128). -/
def State.readMem (t : PT) (an n : Nat) (post tag keep : Bool) (s : State) : R (List Byte × State) := do
  let s ← s.needA t an
  let x := s.tile t
  let a := (x.areg an).cur.toNat
  let slots ← if tag then taggedSlots a n else .ok []
  if tag && x.mustWaitLocal slots true then .error (.tags 2 an slots)
  else
    let r ← Tile.readLocal t (s.hosted t) a n x
    let x := r.2
    let x := if tag && !keep && tagReaches a n then x.setTags slots false else x
    let x := if post then x.setCur an ((x.areg an).cur + (x.areg an).stride) else x
    .ok (r.1, s.setTile t x)

/-- Read a source operand of `n` bytes (R128, R129). -/
def State.readOp (t : PT) (o : Ops) (n : Nat) (s : State) : R (List Byte × State) :=
  match opsKind o with
  | 0 => do
    let x ← (s.tile t).need (vWords (opsNum o 32) (opN n)).contains
    .ok ((x.regs (opsNum o 32) (opN n)).take n, s.setTile t x)
  | 1 => s.readMem t (opsNum o 8) n (o.getLsbD 3) (o.getLsbD 4) (o.getLsbD 5)
  | 2 => do
    let q := opsNum o 8
    let r ← (s.tile t).readEntries q (opN n)
    let s := s.setTile t r.2
    let d := (r.1.flatMap fun e => leBytes 16 e.data.toNat).take n
    .ok (d, if o.getLsbD 3 then s else s.popN t q (opN n))
  | _ => .ok (List.replicate n 0, s)

/-! ### Sending through a port (R137, R160, R161, R167 to R169, R201) -/

def Port.kind (p : Port) : Nat := fieldOf p.desc 63 62
def Port.lt (p : Port) : LT := { x := fieldOf p.desc 61 51, y := fieldOf p.desc 50 41 }
def Port.addr (p : Port) : Nat := fieldOf p.desc 40 25
def Port.wrap (p : Port) : Nat := fieldOf p.desc 24 17

/-- A port's producer after it sends `n` entries; `stop`: the last is an end-of-tile or flush token (R201). -/
def Producer.sentN (n : Nat) (stop : Bool) (p : Producer) : Producer :=
  { p with credits := p.credits - n, seq := p.seq + BitVec.ofNat 4 n, sent := p.sent + n, unacked := p.unacked + n,
           atStop := stop }

/-- A port that is asked to close and has reached its stop point holds (R200, R201). -/
def Producer.mustHold (p : Producer) : Bool :=
  match p.closing with
  | none => false
  | some .boundary => p.atStop
  | some _ => true

/-- The RECALL of a port to one of its inlets, with the EP of its CLOSE: unspent credits and send count (R200, R278, R279). -/
def recallPacket (src : Node) (part port : Nat) (p : Producer) (dst : Node × Bool) : Packet :=
  { op := opRecall, dst := dst.1, src := src, tag := 0,
    addr := BitVec.ofNat 16 (port + 16 * p.credits + 512 * (p.sent % 16)), seq := 0, ep := dst.2, ext := 0, part := part,
    body := [] }

/-- Hold a tile's port if it must hold, and answer the inlets that asked (R200). -/
def State.holdPort (t : PT) (n : Nat) (s : State) : State :=
  let p := (s.tile t).port n
  if p.prod.mustHold && !p.prod.held then
    let s := p.prod.closers.foldl (fun s d => s.send (recallPacket (.tile t) (s.ptPart t) n p.prod d)) s
    s.modTile t fun x => x.modPort n fun p => { p with prod := { p.prod with held := true } }
  else s

/-- Send entries through port `n` of a tile: a queue send or a fountain send (R137, R170). A port with fewer credits than
entries sends none of them and waits. (DEDUCED, log 118) -/
def State.sendEntries (t : PT) (n : Nat) (body : List Flitem) (stop : Bool) (s : State) : R State :=
  let p := (s.tile t).port n
  let k := body.length
  if p.prod.held || decide (p.prod.credits < k) then .error (.block 4 n)
  else
    let after := fun (s : State) => (s.modTile t fun x => x.modPort n fun p => { p with prod := p.prod.sentN k stop }).holdPort t n
    if p.kind = 3 then
      let part := s.ptPart t
      match s.fountRow t (p.addr % 4096) with
      | none => .error (.scarf p.lt 4 n)
      | some f =>
        match (f.children 0).find? fun c => ((s.router t).scarf c.2.t).isNone with
        | some c => .error (.scarf c.2.t 4 n)
        | none => .ok ((after s).fountAt part f 0 p.prod.seq p.prod.phase body)
    else
      match (s.router t).scarf p.lt with
      | none => .error (.scarf p.lt 4 n)
      | some (d, dep) =>
        .ok ((after s).send { op := opQsend, dst := .tile d, src := .tile t, tag := 0,
                              addr := BitVec.ofNat 16 (p.addr % 8 + 8 * flag p.prod.phase), seq := p.prod.seq, ep := dep,
                              ext := 0, part := s.ptPart t, body := body })

/-- The write cursor after `n` bytes; it returns to ADDR after WRAP × 64 bytes (R160, R161). -/
def Port.advance (n : Nat) (p : Port) : Port :=
  let c := p.cursor.toNat + n
  if p.wrap ≠ 0 ∧ p.addr + p.wrap * 64 ≤ c then { p with cursor := BitVec.ofNat 16 p.addr }
  else { p with cursor := BitVec.ofNat 16 c }

/-- A request of a tile is on its way until it is answered; it takes the next tag (R277). -/
def State.request (t : PT) (p : Packet) (s : State) : State :=
  let p := { p with tag := (s.tile t).q.tag }
  let s := s.modTile t fun x => { x with q := { x.q with out := x.q.out ++ [p], tag := x.q.tag + 1 } }
  s.send p

/-- Write bytes through a memory-kind port (R137, R160): the micro-op then waits for the response (R124 to R126).
(DEDUCED, log 121) -/
def State.sendWrite (t : PT) (n : Nat) (d : List Byte) (s : State) : R State :=
  let p := (s.tile t).port n
  match (s.router t).scarf p.lt with
  | none => .error (.scarf p.lt 4 n)
  | some (h, dep) =>
    let s := s.request t { op := if p.kind = 1 then opWrTag else opWrRaw, dst := .tile h, src := .tile t, tag := 0,
                           addr := p.cursor, seq := 0, ep := dep, ext := 0, part := s.ptPart t,
                           body := flitsOf (opN d.length) d }
    let d1 : Finish := { op := 0, next := 0, kind := 7, port := n }
    .ok (s.modTile t fun x => { x.modPort n (Port.advance d.length) with s := { x.s with done := some d1 } })

/-- A local write through address register `an` (R116, R117). -/
def State.writeMem (t : PT) (an : Nat) (d : List Byte) (post tag : Bool) (s : State) : R State := do
  let s ← s.needA t an
  let x := s.tile t
  let a := (x.areg an).cur.toNat
  let slots ← if tag then taggedSlots a d.length else .ok []
  if tag && x.mustWaitLocal slots false then .error (.tags 3 an slots)
  else
    let s ← s.writeLocal t a d
    .ok (s.modTile t fun x =>
      let x := if tag && tagReaches a d.length then x.setTags slots true else x
      if post then x.setCur an ((x.areg an).cur + (x.areg an).stride) else x)

/-- Write a destination operand (R128). -/
def State.writeOp (t : PT) (o : Ops) (d : List Byte) (s : State) : R State :=
  match opsKind o with
  | 0 => .ok (s.modTile t fun x => x.setRegs (opsNum o 32) (opN d.length) d)
  | 1 => s.writeMem t (opsNum o 8) d (o.getLsbD 3) (o.getLsbD 4)
  | 2 =>
    let n := opsNum o 16
    let k := ((s.tile t).port n).kind
    if k = 1 ∨ k = 2 then s.sendWrite t n d else s.sendEntries t n (flitsOf (opN d.length) d) false
  | _ => .ok s

/-- The result of a DOT goes to WBD (R141): a write that must wait for a full slot is held (R150). -/
def State.writeBack (t : PT) (o : Ops) (d : List Byte) (s : State) : R State :=
  match s.writeOp t o d with
  | .error (.tags 3 an _) =>
    let x := s.tile t
    let a := (x.areg an).cur.toNat
    let w : Writeback := { addr := a, data := d, ahead := x.q.parked.length }
    .ok (s.modTile t fun x =>
      let x := { x with q := { x.q with held := x.q.held ++ [w] } }
      if o.getLsbD 3 then x.setCur an ((x.areg an).cur + (x.areg an).stride) else x)
  | r => r

end Sys2Proof.Machine
end

