-- ==== Sys2Proof/Machine/Publish.lean ====
section
/-!
DEFINITION. What the device makes known once its Grain records have committed: fences, withdrawals and changes of a
partition's map (spec 12_healing R552, R554; 07_scriber R354, R371, R372; 18_identity_health R826).
-/

namespace Sys2Proof.Machine

/-- The events of a fence (R552). -/
def State.announceFence (kind id cause part : Nat) (s : State) : State :=
  let s := s.signal Ev.tileFenced part [kind, id, cause, part]
  if kind = 4 then s.signal Ev.planeFenced part [kind, id, cause, part] else s

/-- A new version of a partition's map: MAPVER, the off-home list and the cost fields change together (R371, R372). -/
def State.showMap (p : Nat) (off : List Word) (cost : Word) (moved : Nat) (s : State) : State :=
  let s := s.bumpWrap (Reg.prtMapStat p) 63 32 1
  let s := (s.setField (Reg.prtMapStat p) 31 12 off.length).setField (Reg.prtMapStat p) 0 0 1
  let s := (s.setReg (Reg.prtMapCost p) cost).modOwn p fun o => { o with map := off }
  s.signal Ev.mapPublished p [p, s.field (Reg.prtMapStat p) 63 32, moved]

def State.makeKnown (n : Notice) (s : State) : State :=
  match n with
  | .fence kind id cause part => s.announceFence kind id cause part
  | .withdraw kind id => s.modComp fun y => { y with fences := y.fences.map fun e =>
      if e.kind = kind ∧ e.id = id ∧ e.field = true then { e with withdrawn := true } else e }
  | .map p off cost moved => s.showMap p off cost moved

/-- Something is made known once a record has committed (R826). -/
def State.sendAwaited (n : Notice) (type srck srci : Nat) (body : List Byte) (s : State) : State :=
  let r := s.record type srck srci body
  (s.sendRecord type srck srci body).modComp fun c =>
    { c with pubs := c.pubs ++ [{ part := 0, recs := [r], before := [], what := some n }] }

/-- A record has committed: the change that waits for it waits for one fewer. -/
def commitIn (r : GrnRec) : List Pub → List Pub
  | [] => []
  | u :: us => if u.recs.contains r then { u with recs := u.recs.erase r } :: us else u :: commitIn r us

/-- The changes that wait for no record, those of one partition in their order; `held` are partitions with one that still
waits. What is made known, and what goes on waiting. -/
def duePubs : List Nat → List Pub → List Notice × List Pub
  | _, [] => ([], [])
  | held, u :: us =>
    if u.recs = [] ∧ (u.part = 0 ∨ held.contains u.part = false) then
      let q := duePubs held us
      (u.what.toList ++ q.1, q.2)
    else
      let q := duePubs (u.part :: held) us
      (q.1, u :: q.2)

/-- A record has committed (R826). -/
def State.recordCommitted (r : GrnRec) (s : State) : State :=
  let q := duePubs [] (commitIn r s.comp.pubs)
  q.1.foldl (fun s n => s.makeKnown n) (s.modComp fun c => { c with pubs := q.2 })

/-- The newest change of hostings of partition `p` that waits takes what is to be made known of it, or a new one does. -/
def giveNotice (p : Nat) (n : Notice) : List Pub → List Pub
  | [] => [{ part := p, recs := [], before := [], what := some n }]
  | u :: us =>
    if u.part = p ∧ u.what = none ∧ us.all (fun v => decide (v.part ≠ p)) = true then { u with what := some n } :: us
    else u :: giveNotice p n us

/-- Nothing more of a partition's map is made known: the partition has ended. -/
def Pub.silence (u : Pub) : Pub := match u.what with
  | some (.map ..) => { u with what := none }
  | _ => u

/-- The fence has been published (R554, R826). -/
def State.fenceShown (s : State) (e : Fence) : Bool := s.comp.pubs.all fun u => match u.what with
  | some (.fence kind id _ _) => decide (kind ≠ e.kind) || decide (id ≠ e.id)
  | _ => true

/-- The hostings that differ between two records, as they stand in the first. -/
def hostDiff (old new : Tab (Option PT)) : Tab (Option PT) :=
  (((old ++ new).map (·.1)).foldl (fun r k => if r.contains k then r else r ++ [k]) []).filterMap fun k =>
    if Tab.get none old k = Tab.get none new k then none else some (k, Tab.get none old k)

/-- The hostings that committed records hold (R354). -/
def State.committedHosts (s : State) : Tab (Option PT) :=
  s.comp.pubs.reverse.foldl (fun h u => u.before.foldl (fun h e => Tab.set none h e.1 e.2) h) s.comp.hosts

/-- The fence set without entries of the field list whose records have not committed (R554). -/
def State.committedFences (s : State) : List Fence :=
  s.comp.fences.map fun e => if s.fenceShown e then e else { e with field := false }

end Sys2Proof.Machine
end

