-- ==== Sys2Proof/Machine/FenceOps.lean ====
section
/-!
DEFINITION. The fence set and what a fence does to the unit, and which recoveries it begins (R547 to R560, R566 to R569,
R575, R576).
-/

namespace Sys2Proof.Machine

/-- The end of a link that names it: the lower-numbered tile, with the direction from it (R547, R550). -/
def linkEnd (t : PT) (d : Dir) : PT × Dir :=
  match t.step d with
  | some u => if u.key < t.key then (u, d.back) else (t, d)
  | none => (t, d)
def linkId (t : PT) (d : Dir) : Nat :=
  let e := linkEnd t d
  tileId e.1 + 2 ^ 23 * e.2.key

/-- A dark router: its bay has lost its array supply, or it is fenced (R290). -/
def State.routerDark (s : State) (t : PT) : Bool :=
  decide ((s.bay t.bay).supply ≠ .on) || s.isFenced 2 (tileId t) || s.isFenced 6 t.bay

def allDirs : List Dir := [.north, .east, .south, .west]

/-- Packets whose head flits are lost are lost (R275). -/
def State.lose (hs : List Flit) (s : State) : State :=
  hs.foldl (fun s h => { s with comp := { s.comp with net := s.comp.net.eraseP fun p => p.headOf h } }) s

/-- The head flits that a port loses when its link goes DOWN: those in its replay buffer, and those of packets that have come
in part (R275). -/
def Link.lostHeads (l : Link) : List Flit :=
  (l.replay ++ l.bufs.flatMap fun kv => (splitOpen kv.2).2).filter fun f => f.isHead

/-- A port of a link that goes DOWN (R283). -/
def Link.takenDown (now : Nat) (l : Link) : Link :=
  { l with st := .down, replay := [], fails := 0, rsFails := 0, downAt := now
           bufs := (l.bufs.map fun kv => (kv.1, (splitOpen kv.2).1)).filter fun kv => decide (kv.2 ≠ []) }

/-- Both ends of a link go DOWN; what waits in the replay buffers is lost (R275, R283). -/
def State.linkDown (t : PT) (d : Dir) (s : State) : State :=
  let down := fun (t : PT) (d : Dir) (s : State) =>
    (s.setLink t d ((s.link t d).takenDown s.now)).lose (s.link t d).lostHeads
  match t.step d with
  | some u => down u d.back (down t d s)
  | none => down t d s

/-- Tables are rewritten over the live routers and links (R291). -/
def State.rewriteEscape (s : State) : State := { s with comp := { s.comp with escapeVer := s.comp.escapeVer + 1 } }

/-- The head flits that a router holds. -/
def Router.heads (r : Router) : List Flit :=
  ((r.inject.flatMap fun kv => kv.2) ++ r.links.flatMap fun kl => kl.2.replay ++ kl.2.bufs.flatMap fun kv => kv.2).filter
    fun f => f.isHead

/-- A dark router: its links are DOWN and what it holds is lost. -/
def Router.darkened (now : Nat) (r : Router) : Router :=
  { r with inject := [], links := allDirs.foldl (fun ls d =>
      Tab.set Link.reset ls d.key { (Tab.get Link.reset ls d.key).takenDown now with bufs := [] }) r.links }

/-- Every link of a dark router goes DOWN (R283). -/
def State.darken (t : PT) (s : State) : State :=
  let s := s.lose (s.router t).heads
  ((allDirs.foldl (fun s d => s.linkDown t d) s).modRouter t (Router.darkened s.now)).rewriteEscape

/-- The links between a bay and its neighbours, from the bay's side. -/
def borderEnds (b : Nat) : List (PT × Dir) :=
  (((List.range 128).flatMap fun c => [(({ bay := b, col := c, row := 0 } : PT), Dir.north), ({ bay := b, col := c, row := 95 }, .south)]) ++
    (List.range 96).flatMap fun r => [(({ bay := b, col := 0, row := r } : PT), Dir.west), ({ bay := b, col := 127, row := r }, .east)]).filter
      fun e => (e.1.step e.2).isSome

/-- Every router of a bay is dark: the links within it and into it are DOWN (R57, R283). -/
def State.darkenBay (b : Nat) (s : State) : State :=
  let s := s.lose (s.comp.routers.flatMap fun kr => if kr.1 / 12288 = b then kr.2.heads else [])
  let s := (borderEnds b).foldl (fun s e => s.linkDown e.1 e.2) s
  (s.modBayRouters b fun _ r => r.darkened s.now).rewriteEscape

/-- Stamps of the list within `w` ns before `now`. (DESIGN CHOICE, log 85) -/
def recent (now w : Nat) (l : List Nat) : List Nat := l.filter fun t => decide (now < t + w)

/-- A recovery in progress restarts (R575): the event, its count and the stamp. -/
def State.restartRecovery (recovery p : Nat) (s : State) : State :=
  let s := s.modHeal p fun h => { h with restarts := recent s.now 1000000000 h.restarts ++ [s.now] }
  let s := s.bumpWrap Reg.fltRecov 63 32 1
  s.signal Ev.recoveryRestart p [recovery, p, (s.part p).heal.restarts.length]

/-- A placement of the partition is in progress: a heal's, or that of a Frame application which waits (R352, R760). -/
def State.placing (s : State) (p : Nat) : Bool :=
  decide ((s.part p).heal.st = .placing) ||
    (decide (s.field (Reg.prtFrameStat p) 23 20 = 3) && decide (s.field (Reg.prtFrameStat p) 19 16 ≠ 0))

/-- The host of a logical tile is lost: a heal of its partition is needed when the partition has a placement (R559); one
in progress restarts (R576); a request that comes while a placement is in progress is queued (R352). A dry fit in progress restarts with the tile among its named tiles. -/
def State.loseHost (l : LT) (s : State) : State :=
  let p := s.ltPart l
  let x := s.part p
  if p = 0 ∨ x.own.placed = false ∨ (s.frameOf p).isNamed l = false then s
  else if x.heal.lost.contains l then s
  else if s.placing p then
    s.modPart p fun y => { y with queued := if y.queued.contains l then y.queued else y.queued ++ [l] }
  else
    let s := if x.heal.lost ≠ [] then s.restartRecovery 0 p
      else if x.commit.df ≠ .none then s.restartRecovery 1 p
      else s
    s.modHeal p fun h => { h with
      lost := h.lost ++ [l]
      st := if h.st = .none then .purging else h.st
      at_ := if h.lost = [] then s.now else h.at_ }

/-- The entry of the fence set, new or with more list marks (R553); the set keeps the order of entry (R581). -/
def addEntry (f : Fence) : List Fence → List Fence
  | [] => [f]
  | g :: r =>
    if g.kind = f.kind ∧ g.id = f.id then { g with field := g.field || f.field, test := g.test || f.test } :: r
    else g :: addEntry f r

/-- The named logical tiles that tiles of a bay host, those of other partitions' dry fits among them (R568). -/
def State.hostedIn (s : State) (b : Nat) : List LT :=
  ((s.frameOf (s.bayOwner b)).named.filter fun l => decide ((s.runsAt l).bay = b)) ++
    s.comp.parts.flatMap fun kp =>
      if kp.1 = s.bayOwner b then []
      else kp.2.commit.trials.filterMap fun e => if e.2.bay = b then some (LT.ofKey e.1) else none

/-- A cause that is a failed test: the start-up test, a plumb slice, or a unit of KIND 5 or 6 (R553, R555). -/
def isTest (kind cause : Nat) : Bool := decide (5 ≤ kind) || cause == 0 || cause == 0x0909

/-- Enter a unit in the fence set (R552 to R555): a fence of KIND 1 to 4 goes to the field list through the Grain log and is
published once its record has committed (R826), one of KIND 5 or 6 is a test failure only. A unit that is fenced already only takes the marks. (DESIGN CHOICE, log 62) -/
def State.enterFence (kind id cause part : Nat) (s : State) : State :=
  let fld := decide (kind ≤ 4)
  let e : Fence := { kind := kind, id := id, fuse := false, field := fld, test := isTest kind cause, withdrawn := false,
                     cause := BitVec.ofNat 16 cause, tide := s.tide }
  let old := s.isFenced kind id
  let s := { s with comp := { s.comp with fences := addEntry e s.comp.fences } }
  if old then s
  else
    let s := s.modBoot fun x => { x with fencedSince := true }
    let s := if fld then
        s.sendAwaited (.fence kind id cause part) 0x0030 2 (if kind ≤ 3 then id / 2 ^ 16 % 128 else 0)
          (leBytes 2 kind ++ leBytes 2 cause ++ leBytes 4 id)
      else s.announceFence kind id cause part
    if kind = 6 then s.signal Ev.bayLost part [id, part, (s.hostedIn id).length] else s

/-- Fence a tile (KIND 1): it is held in RESET, and the logical tile it hosts loses its host. -/
def State.fenceTile (t : PT) (cause : Nat) (s : State) : State :=
  let l := s.hosted t
  let s := (s.enterFence 1 (tileId t) cause (s.ptPart t)).resetTile t
  match l with
  | some l => s.loseHost l
  | none => s

/-- Fence a router (KIND 2): it is dark, and its tile is fenced as KIND 1. -/
def State.fenceRouter (t : PT) (cause : Nat) (s : State) : State :=
  let s := s.fenceTile t cause
  (s.enterFence 2 (tileId t) cause (s.bayOwner t.bay)).darken t

/-- Fence a link (KIND 3): it is DOWN and is not retested (R551). -/
def State.fenceLink (t : PT) (d : Dir) (cause : Nat) (s : State) : State :=
  let s := s.enterFence 3 (linkId t d) cause (s.ptPart t)
  (s.linkDown t d).rewriteEscape

/-- Fence a Plane engine (KIND 4): it takes no new work (R547); the engine that takes its layers scans the ring first
(R558). -/
def State.fenceEngine (e cause part : Nat) (s : State) : State :=
  let s := s.enterFence 4 e cause part
  s.setEngine e { s.engine e with scanned := false }

/-- A bay is lost (R566, R567, R569): it is fenced as KIND 6, its routers are dark, its tiles are OFF and lose their
contents, and every logical tile that it hosted loses its host. -/
def State.loseBay (b cause : Nat) (s : State) : State :=
  let p := s.bayOwner b
  let lts := s.hostedIn b
  let s := s.enterFence 6 b cause p
  let s := s.modBay b fun x => { x with supply := .open_, volts := 0, ripple := false }
  let s := lts.foldl (fun s l => s.loseHost l) s
  let s := s.modBayTiles b fun _ _ => Tile.reset
  (s.recount p).darkenBay b

/-- What follows an uncorrectable SRAM word (R159): the count, SRAM_UNCORR, the step suspect, and the fence of the tile. -/
def State.sramUncorr (t : PT) (w : CodeWord) (s : State) : State :=
  let s := s.modTile t (Tile.countUe w)
  let p := s.ptPart t
  let l := s.hosted t
  let s := s.signal Ev.sramUncorr p (tileOps l t ++ [(s.stepNo p).toNat])
  let s := s.suspect p Ev.sramUncorr l.toList
  s.fenceTile t 0x0105

/-- A residue mismatch (R101): RESID is set, MAC_RESIDUE is raised, and the step is suspect with the tile named.
(DESIGN CHOICE, log 23) -/
def State.macResidue (t : PT) (s : State) : State :=
  let s := s.modTile t (Tile.orXstat xfResid)
  let p := s.ptPart t
  let l := s.hosted t
  let s := s.signal Ev.macResidue p (tileOps l t ++ [(s.stepNo p).toNat])
  s.suspect p Ev.macResidue l.toList

end Sys2Proof.Machine
end

