-- ==== Sys2Proof/Machine/BlockCode.lean ====
section
/-!
DEFINITION. The code of an HBM block: RS(72,64) over GF(2^8), its check bytes and its decoder (spec 09_memory R441 to R443).
-/

namespace Sys2Proof.Machine

/-! ### GF(2^8) by x^8 + x^4 + x^3 + x^2 + 1 (R441) -/

/-- A field element times α. -/
def gfDouble (a : Nat) : Nat := if a < 128 then 2 * a else (2 * a) ^^^ 0x11D

def gfMul (a b : Nat) : Nat := (List.range 8).foldr (fun i r => if b.testBit i then gfDouble r ^^^ a else gfDouble r) 0

def gfPow (a : Nat) : Nat → Nat
  | 0 => 1
  | n + 1 => gfMul a (gfPow a n)

/-- The inverse of an element that is not zero: its power 254. -/
def gfInv (a : Nat) : Nat := gfPow a 254

/-- α^n. -/
def gfAlpha (n : Nat) : Nat := gfPow 2 n

/-! ### Codewords (R441) -/

/-- The generator polynomial with the roots α^0 to α^7, from its leading coefficient down, without that coefficient. -/
def rsGen : List Nat :=
  ((List.range 8).foldl (fun p i => ((p ++ [0]).zip (0 :: p.map (gfMul (gfAlpha i)))).map fun (c : Nat × Nat) => c.1 ^^^ c.2) [1]).drop 1

/-- The check bytes: the remainder of the data polynomial times x^8 by the generator polynomial. -/
def rsCheck (d : List Nat) : List Nat :=
  d.foldl (fun r b =>
    let f := b ^^^ r.headD 0
    ((r.drop 1 ++ [0]).zip rsGen).map fun (c : Nat × Nat) => c.1 ^^^ gfMul f c.2) (List.replicate 8 0)

/-- The 72 bytes of a block with `es` in error: positions and what is added to the bytes there. -/
def storedWord (d : List Nat) (es : List (Nat × Nat)) : List Nat :=
  es.foldl (fun w e => w.set e.1 ((w.getD e.1 0) ^^^ e.2)) (d ++ rsCheck d)

/-! ### Decoding (R443) -/

/-- The value of a word's polynomial at α^j. -/
def syndrome (w : List Nat) (j : Nat) : Nat := w.foldl (fun s b => gfMul s (gfAlpha j) ^^^ b) 0

/-- The locator of a position: α to its power of x. -/
def locator (i : Nat) : Nat := gfAlpha (71 - i)

/-- The errors explain the syndromes. -/
def explains (es : List (Nat × Nat)) (ss : List Nat) : Bool :=
  (List.range 8).all fun j => es.foldl (fun v e => v ^^^ gfMul e.2 (gfPow (locator e.1) j)) 0 == ss.getD j 0

/-- The errors in at most two bytes that give the syndromes. -/
def rsErrors (ss : List Nat) : Option (List (Nat × Nat)) :=
  let s := fun j => ss.getD j 0
  if ss.all fun v => v == 0 then some []
  else
    match ((List.range 72).map fun i => [(i, s 0)]).find? fun es => explains es ss with
    | some es => some es
    | none =>
      let det := gfMul (s 1) (s 1) ^^^ gfMul (s 0) (s 2)
      let s1 := gfMul (gfMul (s 1) (s 2) ^^^ gfMul (s 0) (s 3)) (gfInv det)
      let s2 := gfMul (gfMul (s 1) (s 3) ^^^ gfMul (s 2) (s 2)) (gfInv det)
      match (List.range 72).filter fun i => gfMul (locator i) (locator i ^^^ s1) ^^^ s2 == 0 with
      | [i, j] =>
        let v := gfMul (s 1 ^^^ gfMul (s 0) (locator i)) (gfInv (locator i ^^^ locator j))
        let es := [(i, s 0 ^^^ v), (j, v)]
        if det ≠ 0 ∧ explains es ss then some es else none
      | _ => none

/-- The word that the controller takes a stored word for, and the bytes that it corrects; none when it finds it
uncorrectable. -/
def rsDecode (w : List Nat) : Option (List Nat × List Nat) :=
  (rsErrors ((List.range 8).map (syndrome w))).map fun es =>
    (es.foldl (fun w e => w.set e.1 ((w.getD e.1 0) ^^^ e.2)) w, es.map (·.1))

end Sys2Proof.Machine
end

