-- ==== Sys2Proof/Machine/Hbm.lean ====
section
/-!
DEFINITION. HBM: partition addresses, the block code, poison, thresholds and reads and writes of partition memory
(spec 09_memory, R431 to R460), with the gradient counts that writes advance (R391, R392).
-/

namespace Sys2Proof.Machine

/-! ### Partition address space (R435 to R437) -/

/-- The region of partition `p` in stack `k`: BASE and SIZE in GiB (R459). -/
def State.hbmRegion (s : State) (p k : Nat) : Option (Nat × Nat) :=
  let r := s.reg (Reg.hbmPregp k (p - 1))
  if r.getLsbD 63 then some (fieldOf r 54 48, fieldOf r 46 40) else none

/-- The stacks in which partition `p` holds a region, ascending (R436). -/
def State.stacksOf (s : State) (p : Nat) : List Nat := (List.range 24).filter fun k => (s.hbmRegion p k).isSome

def gib : Nat := 2 ^ 30

/-- A partition address decodes to a stack and a stack-relative address (R437). -/
def State.placeOf (s : State) (p pa : Nat) : Option (Nat × Nat) :=
  let ks := s.stacksOf p
  let ns := ks.length
  let share := s.field (Reg.prtHbmSpread p) 39 32
  if pa < gib * (ns * share) then
    let g := pa / 4096
    let k := ks.getD (g % ns) 0
    match s.hbmRegion p k with
    | some r => some (k, gib * r.1 + 4096 * (g / ns) + pa % 4096)
    | none => none
  else if 128 ≤ pa / 0x2000000000 then
    let k := pa / 0x2000000000 - 128
    let o := pa % 0x2000000000
    match s.hbmRegion p k with
    | some r => if k < 24 ∧ o < gib * (r.2 - share) then some (k, gib * (r.1 + share) + o) else none
    | none => none
  else none

/-- A partition address that an access reaches: nothing answers for a stack lost with its segment (R57), and the access is not
performed. (DEDUCED, log 124) -/
def State.decodePa (s : State) (p pa : Nat) : Option (Nat × Nat) :=
  match s.placeOf p pa with
  | some e => if s.segUp e.1 then some e else none
  | none => none

/-- The partition whose region holds a stack-relative address, 0 for none. -/
def State.regionOwner (s : State) (k rel : Nat) : Nat :=
  ((List.range 8).map (· + 1)).find? (fun p =>
    match s.hbmRegion p k with
    | some r => decide (gib * r.1 ≤ rel) && decide (rel < gib * (r.1 + r.2))
    | none => false) |>.getD 0

/-- The key of a byte of HBM: 2^37 to a stack. -/
def hbmKey (k rel : Nat) : Nat := 2 ^ 37 * k + rel

/-! ### Errors, poison and thresholds (R441 to R456) -/

/-- `HBM_ELOG0` and `HBM_ELOG1` of an error. -/
def State.hbmLog (k kind blk b0 b1 : Nat) (s : State) : State :=
  let v := fld 63 62 kind ||| fld 61 57 (Config.hbmChannel k blk) ||| fld 56 50 b1 ||| fld 49 43 b0 ||| fld 36 6 blk
  (s.setReg (Reg.hbmElog0 k) v).setReg (Reg.hbmElog1 k) s.tide

/-- An event of R455 is due for a key: it has not been raised within its window (R456). -/
def dueAgain (now w : Nat) (raised : Tab Nat) (key : Nat) : Bool :=
  match Tab.get 0 raised key with
  | 0 => true
  | t => decide (t - 1 + w ≤ now)

/-- One hour and one day of Tide. -/
def hourNs : Nat := 3600000000000
def dayNs : Nat := 24 * hourNs

/-- A line suspect: its event and its margin record (R455). -/
def State.lineSuspect (k ch byte : Nat) (s : State) : State :=
  let x := s.stack k
  let key := ch * 128 + byte
  let n := (x.ceHist.filter fun e => decide (e.2.1 = ch) && decide (e.2.2 % 128 = byte)).length
  if s.field (Reg.hbmThresh k) 47 40 ≤ n ∧ dueAgain s.now hourNs x.lineRaised key then
    let s := s.setStack k { x with lineRaised := Tab.set 0 x.lineRaised key (s.now + 1) }
    let s := s.sendRecord 0x0050 2 k (leBytes 2 k ++ leBytes 2 ch ++ leBytes 4 byte)
    s.signal Ev.hbmLineSuspect 0 [k, ch, byte]
  else s

/-- A corrected block: its bytes in error counted by pseudo-channel and line, and the events of R455. -/
def State.countCorrected (k blk : Nat) (bytes : List Nat) (scrub : Bool) (s : State) : State :=
  let ch := Config.hbmChannel k blk % 32
  let s := (s.bump (Reg.hbmErrcnt k) 63 32 1).hbmLog k 1 blk (bytes.getD 0 127) (bytes.getD 1 127)
  let s := if scrub then s.bump (Reg.hbmErrcnt2 k) 31 0 1 else s
  let x := s.stack k
  let new := (List.range bytes.length).map fun i => (s.now, ch, bytes.getD i 0 + 128 * i)
  let x := { x with ceHist := (x.ceHist.filter fun e => decide (s.now < e.1 + hourNs)) ++ new }
  let s := s.setStack k x
  let n := (x.ceHist.filter fun e => decide (e.2.1 = ch) && decide (e.2.2 < 128)).length
  let s := if s.field (Reg.hbmThresh k) 63 48 ≤ n ∧ dueAgain s.now hourNs x.ceRaised ch then
      (s.setStack k { x with ceRaised := Tab.set 0 x.ceRaised ch (s.now + 1) }).signal Ev.hbmCeHigh 0 [k, ch]
    else s
  bytes.foldl (fun s b => s.lineSuspect k ch b) s

/-- Write the poison pattern into a block. -/
def State.poisonBlock (k blk : Nat) (s : State) : State :=
  s.modStack k fun x => { x with
    poison := if x.poison.contains blk then x.poison else x.poison ++ [blk]
    errs := Tab.set [] x.errs blk [] }

/-- An uncorrectable block: counted, poisoned and reported, with the stack's threshold (R445, R455). -/
def State.countUncorrectable (k blk : Nat) (s : State) : State :=
  let ch := Config.hbmChannel k blk % 32
  let s := ((s.bump (Reg.hbmErrcnt k) 31 16 1).hbmLog k 2 blk 127 127).poisonBlock k blk
  let p := s.regionOwner k (blk * 64)
  let s := s.signal Ev.hbmUe p [k, blk * 64, ch, p]
  let x := s.stack k
  let hist := (x.ueHist.filter fun t => decide (s.now < t + dayNs)) ++ [s.now]
  let x := { x with ueHist := hist }
  let s := s.setStack k x
  let due := match x.ueRaised with
    | none => true
    | some t => decide (t + dayNs ≤ s.now)
  if s.field (Reg.hbmThresh k) 39 32 ≤ hist.length then
    let x := { x with suspect := true
                      savedPeriod := if x.suspect then x.savedPeriod else s.field (Reg.hbmScrub k) 15 8
                      ueRaised := if due then some s.now else x.ueRaised }
    let s := (s.setStack k x).setField (Reg.hbmScrub k) 15 8 1
    if due then s.signal Ev.hbmStackSuspect 0 [k, hist.length] else s
  else s

/-- A read finds block `blk` uncorrectable (R445, R446). -/
def State.blockLost (k blk : Nat) (scrub : Bool) (s : State) : Bool × State :=
  let s := s.countUncorrectable k blk
  (false, if scrub then s else s.bump (Reg.hbmErrcnt k) 15 0 1)

/-- A block is taken for a codeword at most two bytes away: it is delivered and written back so (R443, R444). -/
def State.blockFixed (k blk : Nat) (scrub : Bool) (fixed : List Nat) (s : State) : State :=
  let s := s.modStack k fun x => { x with errs := Tab.set [] x.errs blk [] }
  if fixed = [] then s else s.countCorrected k blk fixed scrub

/-- The data of a block, as its code's coefficients. -/
def State.blockData (s : State) (k blk : Nat) : List Nat := (memRead s.comp.hbm (hbmKey k (64 * blk)) 64).map fun b => b.toNat

/-- Access block `blk` of stack `k` by a read: true when its bytes are good (R443 to R446). The code's distance of 9 has a block
with one or two bytes in error corrected and one with 3 to 6 found uncorrectable; one with more is taken for what the decoder
makes of it, which may be another codeword. (DESIGN CHOICE, log 48) -/
def State.readBlock (k blk : Nat) (scrub : Bool) (s : State) : Bool × State :=
  let x := s.stack k
  if x.poison.contains blk then
    let s := if scrub then s else (s.bump (Reg.hbmErrcnt k) 15 0 1).hbmLog k 3 blk 127 127
    (false, s)
  else
    match Tab.get [] x.errs blk with
    | [] => (true, s)
    | es =>
      if es.length ≤ 2 then (true, s.blockFixed k blk scrub (es.map (·.1)))
      else if es.length ≤ 6 then s.blockLost k blk scrub
      else
        match rsDecode (storedWord (s.blockData k blk) es) with
        | none => s.blockLost k blk scrub
        | some (w, fixed) =>
          let s := s.modComp fun y => { y with hbm := memWrite y.hbm (hbmKey k (64 * blk)) ((w.take 64).map (BitVec.ofNat 8)) }
          (true, s.blockFixed k blk scrub fixed)

/-! ### Gradient counts (R391, R392) -/

/-- Byte size of a tensor: elements of its format, in whole bytes, with its scales (R248); `fmtWidth` by format code. -/
def tensorElems (t : TensorRec) : Nat := t.dims.foldl (· * ·) 1
/-- Bytes of a tensor's elements, then of its block scales (R71, R248). -/
def tensorBytes (t : TensorRec) : Nat :=
  let w := if t.fmt = 0 then 4 else if t.fmt = 1 ∨ t.fmt = 2 then 6 else if t.fmt ≤ 5 then 8 else if t.fmt = 6 then 16
    else if t.fmt = 7 then 32 else 128
  let row := t.dims.getLastD 1
  let rows := if row = 0 then 0 else tensorElems t / row
  let blk := if t.scl = 1 then 32 else if t.scl = 2 then 16 else 0
  if blk = 0 then (tensorElems t * w + 7) / 8
  else rows * ((row + blk - 1) / blk) * (blk * w / 8 + 1)

/-- The tensors and layers of the applied Frame by number. -/
def Frame.tensor (f : Frame) (tid : Nat) : Option TensorRec := f.tensors.find? fun t => t.tid == tid
def State.alloc (s : State) (p tid : Nat) : Option Alloc :=
  match Tab.get { base := 0, size := 0, stack := none } (s.part p).own.allocs tid with
  | a => if a.size = 0 then none else some a

def State.layer (s : State) (p l : Nat) : Layer := Tab.get Layer.reset (s.part p).pln.layers l
def State.setLayer (p l : Nat) (x : Layer) (s : State) : State :=
  s.modPln p fun y => { y with layers := Tab.set Layer.reset y.layers l x }

/-- Bytes that two ranges share. -/
def overlap (a n b m : Nat) : Nat := min (a + n) (b + m) - max a b

/-- A write of `n` bytes at a partition address reaches the gradient of layer `r` (R391, R392): FROZEN is a state other than
IDLE. -/
def State.countGradient (p pa n : Nat) (r : LayerRec) (s : State) : State :=
  match s.alloc p r.g with
  | none => s
  | some a =>
    let m := overlap pa n a.base a.size
    let x := s.layer p r.layer
    -- no other layer of the step has become READY yet (R397)
    let first := (s.part p).pln.layers.all fun kl => decide (kl.2.st = .idle) || decide (kl.2.st = .frozen) ||
      decide (kl.2.gradStep ≠ s.stepNo p)
    if r.g = 0 ∨ m = 0 then s
    else if x.st ≠ .idle ∨ a.size < x.count + m then
      s.signal Ev.plnGradOver p [p, r.layer, (s.stepNo p).toNat]
    else if x.count + m = a.size then
      let s := s.setLayer p r.layer { x with count := x.count + m, st := .ready, readyAt := s.now, gradStep := s.stepNo p }
      s.modPln p fun y => { y with firstReadyAt := if first then some s.now else y.firstReadyAt }
    else s.setLayer p r.layer { x with count := x.count + m, gradStep := s.stepNo p }

def State.countGradients (p pa n : Nat) (s : State) : State :=
  (s.frameOf p).layers.foldl (fun s r => s.countGradient p pa n r) s

/-! ### Reads and writes of blocks (R439, R440, R444, R447, R448) -/

def State.storeHbm (k rel : Nat) (d : List Byte) (s : State) : State :=
  { s with comp := { s.comp with hbm := memWrite s.comp.hbm (hbmKey k rel) d } }

/-- A partial write that meets a poisoned block is refused (R447). -/
def State.refuseWrite (k rel : Nat) (s : State) : State :=
  (s.bump (Reg.hbmErrcnt2 k) 63 32 1).signal Ev.hbmPoisonWrite 0 [k, rel]

/-- Write within one block: a whole block replaces it and its poison; a part is merged, and refused when the block is
poisoned, which is no read of the block that R448 counts (R440, R447). (DEDUCED, log 134) -/
def State.writeBlock (k rel : Nat) (d : List Byte) (s : State) : State :=
  let blk := rel / 64
  if rel % 64 = 0 ∧ d.length = 64 then
    (s.modStack k fun x => { x with poison := x.poison.filter fun b => decide (b ≠ blk), errs := Tab.set [] x.errs blk [] }).storeHbm
      k rel d
  else if (s.stack k).poison.contains blk then s.refuseWrite k rel
  else
    let r := s.readBlock k blk false
    if r.1 then r.2.storeHbm k rel d
    else (r.2.setField (Reg.hbmErrcnt k) 15 0 (s.field (Reg.hbmErrcnt k) 15 0)).refuseWrite k rel

/-- The part of `len` bytes from `pa` that lies in the aligned unit of `k` bytes at `pa`. -/
def unitPart (k pa len : Nat) : Nat := min len (k - pa % k)

/-- The bytes of a write that lie in the first block: how many they are, and the state after; none when no byte is left or
the address is unassigned (R438). -/
def State.writeUnit (p pa : Nat) (d : List Byte) (s : State) : Option (Nat × State) :=
  let m := unitPart 64 pa d.length
  if m = 0 then none
  else
    match s.decodePa p pa with
    | none => none
    | some e => some (m, s.writeBlock e.1 e.2 (d.take m))

/-- Write `d` from partition address `pa`, at most `n` blocks, up to the first unassigned address (R438): the bytes
written. -/
def State.writePa (p : Nat) : Nat → Nat → List Byte → State → Nat × State
  | 0, _, _, s => (0, s)
  | n + 1, pa, d, s =>
    match s.writeUnit p pa d with
    | none => (0, s)
    | some e =>
      let r := State.writePa p n (pa + e.1) (d.drop e.1) e.2
      (e.1 + r.1, r.2)

/-- What a read of partition memory brings: bytes, zero in poisoned blocks; the partition addresses of poisoned blocks;
the bytes read before an unassigned address. -/
structure PaRead where
  data : List Byte
  bad : List Nat
  n : Nat
deriving DecidableEq, Repr

/-- The bytes of a read that lie in the first block: those bytes, and the state after; none when no byte is left or the
address is unassigned (R438). -/
def State.readUnit (p pa len : Nat) (s : State) : Option (PaRead × State) :=
  let m := unitPart 64 pa len
  if m = 0 then none
  else
    match s.decodePa p pa with
    | none => none
    | some e =>
      let r := s.readBlock e.1 (e.2 / 64) false
      some (if r.1 then { data := memRead r.2.comp.hbm (hbmKey e.1 e.2) m, bad := [], n := m }
        else { data := List.replicate m 0, bad := [64 * (pa / 64)], n := m }, r.2)

/-- Read `len` bytes at a partition address, at most `n` blocks. -/
def State.readPa (p : Nat) : Nat → Nat → Nat → State → PaRead × State
  | 0, _, _, s => ({ data := [], bad := [], n := 0 }, s)
  | n + 1, pa, len, s =>
    match s.readUnit p pa len with
    | none => ({ data := [], bad := [], n := 0 }, s)
    | some e =>
      let q := State.readPa p n (pa + e.1.n) (len - e.1.n) e.2
      ({ data := e.1.data ++ q.1.data, bad := e.1.bad ++ q.1.bad, n := e.1.n + q.1.n }, q.2)

/-- Read `len` bytes whatever blocks they take. -/
def State.readRange (p pa len : Nat) (s : State) : PaRead × State := s.readPa p (len / 64 + 2) pa len
/-- One write of the bytes `d`, whatever blocks they take; it counts toward the gradients that it reaches, once (R391, R392). -/
def State.writeRange (p pa : Nat) (d : List Byte) (s : State) : Nat × State :=
  let r := s.writePa p (d.length / 64 + 2) pa d
  (r.1, r.2.countGradients p pa r.1)

/-- Every address of a range is assigned (R438). -/
def State.assigned (s : State) (p pa len : Nat) : Bool :=
  let last := pa + len - 1
  (List.range ((last / 4096 + 1) - pa / 4096)).all fun i => (s.decodePa p (max pa (4096 * (pa / 4096 + i)))).isSome

/-- Write the poison pattern into the whole blocks of a range of partition addresses (R448, R624, R668). -/
def State.poisonPa (p pa : Nat) (s : State) : State :=
  match s.decodePa p (64 * (pa / 64)) with
  | some e => s.poisonBlock e.1 (e.2 / 64)
  | none => s

/-- Host reads of poisoned blocks are reported (R448). -/
def State.reportPoison (p : Nat) (bad : List Nat) (s : State) : State :=
  bad.foldl (fun s pa => match s.decodePa p pa with
    | some e => s.signal Ev.hbmPoisonHost p [e.1, e.2, p, pa]
    | none => s) s

end Sys2Proof.Machine
end

