-- ==== Sys2Proof/Machine/Regions.lean ====
section
/-!
DEFINITION. Regions: producers of queues, closing of inlets, purge, drain and reopening (spec 04_dataflow R200 to R212,
R869; 06_fabric R307, R313, R320).
-/

namespace Sys2Proof.Machine

/-! ### Producers of queues (R166, R238, R304) -/

/-- The tile of the producer, as a logical tile: for a fountain, node 0 (R239). -/
def State.prodTile (s : State) (p : Nat) (b : QueueRec) : Option LT :=
  match b.prod with
  | .port l _ => some l
  | .gateway _ => none
  | .fountain fid => (s.fountain p fid).bind fun f => f.nodes.head?.map fun n => n.t

def State.setProd (r : ProdRef) (x : Producer) (s : State) : State :=
  match r with
  | .port t n => s.modTile t fun y => y.modPort n fun z => { z with prod := x }
  | .gateway p k => s.setGateway p k { s.gateway p k with prod := x }
/-- The node that sends for a producer. -/
def State.prodNode (s : State) (b : QueueRec) : ProdRef → Node
  | .port t _ => .tile t
  | .gateway _ _ => .gateway (nearestGateway (s.runsAt b.t))
def ProdRef.number : ProdRef → Nat
  | .port _ n => n
  | .gateway _ _ => 0

/-- A restore: 16 credits, the phase toggled, nothing sent since (R869). -/
def Producer.restore (x : Producer) : Producer :=
  { x with credits := 16, phase := !x.phase, sent := 0, unacked := 0, atStop := true, closing := none, held := false,
           closers := [] }

/-- The distinct producers of a list of bindings. -/
def State.prodsOf (s : State) (p : Nat) (bs : List QueueRec) : List ProdRef :=
  bs.foldl (fun rs b => match s.prodOf p b with
    | some r => if rs.contains r then rs else rs ++ [r]
    | none => rs) []

/-- The nodes of a fountain's tree forget the counts of a credit phase. -/
def State.clearTree (p fid : Nat) (phase : Bool) (s : State) : State :=
  match s.fountain p fid with
  | none => s
  | some f => f.numbered.foldl (fun s n => s.setFnode p fid n.1 ((s.fnode p fid n.1).setCounts phase FCounts.reset)) s

/-- Restore a producer (R869); the port of a fountain's node 0 begins a phase of which no node has counted anything, so that
nothing sent before counts after it. (DEDUCED, log 123) -/
def State.restoreProd (p : Nat) (r : ProdRef) (s : State) : State :=
  let x := (s.prod r).restore
  let s := s.setProd r x
  match r with
  | .port t n => if ((s.tile t).port n).kind = 3 then s.clearTree p (((s.tile t).port n).addr % 4096) x.phase else s
  | .gateway _ _ => s

/-- Restore the producers of these queues, each once; every queue expects its producer's next number (R169, R869). -/
def State.restoreQueues (p : Nat) (bs : List QueueRec) (s : State) : State :=
  let s := (s.prodsOf p bs).foldl (fun s r => s.restoreProd p r) s
  bs.foldl (fun s b => match s.prodOf p b with
    | none => s
    | some r => s.modTile (s.runsAt b.t) fun y => y.setQueue b.q { y.queue b.q with
        next := (s.prod r).seq, accepted := 0, popped := 0, closed := false, recalled := none, confirmed := false }) s

/-! ### Emptying (R204, R211) -/

/-- Entries that a queue holds, with its spill segment and its basin chunks. -/
def Queue.held (q : Queue) : Nat := q.fifo.length + q.earlyEntries + q.seg.length + (q.chunks.flatMap fun c => c.entries).length

/-- Empty every queue of a tile; the entries discarded and the chunks freed are counted (R204, R211). -/
def State.emptyQueues (p : Nat) (t : PT) (s : State) : State :=
  let x := s.tile t
  let n := x.queues.foldl (fun n kq => n + kq.2.held) 0
  let s := s.modTile t fun x => { x with queues := (x.queues.map fun kq =>
    (kq.1, { kq.2 with fifo := [], early := [], seg := [], segAt := 0, chunks := [] })).filter fun kq => decide (kq.2 ≠ Queue.reset) }
  (s.countPurged p n).recount p

/-- A tile of a purged or reset region: RESET, then IDLE after 64 cycles unless a fence holds it (R151, R152, R204).
(DESIGN CHOICE, log 24) -/
def State.cycleTile (t : PT) (s : State) : State :=
  let s := s.resetTile t
  if s.tileFenced t then s
  else s.modTile t fun x => if x.s.seq = .reset then { x with s := { x.s with seq := .idle }, plumb := { x.plumb with idleAt := s.now } } else x

/-- The named logical tiles of a region. -/
def State.regionTiles (s : State) (p r : Nat) : List LT :=
  (s.frameOf p).named.filter fun l => decide ((s.frameOf p).regionOf l = r)

/-- The tiles of a region: those that run its named logical tiles, and the other tiles that host a logical tile of it (R227); an
unlisted tile of a bay has nothing to reset. -/
def State.regionPlaces (s : State) (p r : Nat) : List PT :=
  let named := (s.regionTiles p r).map s.runsAt
  named ++ s.comp.tiles.filterMap fun kt =>
    let t := PT.ofKey kt.1
    match s.hosted t with
    | some l => if s.ltPart l = p ∧ (s.frameOf p).regionOf l = r ∧ named.contains t = false then some t else none
    | none => none

/-- Both ends of the queue lie in region `r` (R204). -/
def State.internal (s : State) (p r : Nat) (b : QueueRec) : Bool :=
  decide ((s.frameOf p).regionOf b.t = r) && !b.inlet && (s.prodTile p b).isSome

def weirOf (p wid : Nat) (s : State) : Weir := Tab.get Weir.reset (s.part p).run.weirs wid
def State.setWeir (p wid : Nat) (x : Weir) (s : State) : State :=
  s.modRun p fun r => { r with weirs := Tab.set Weir.reset r.weirs wid x }

/-- A member's row in the active tables of its router (R297, R311), and its children. -/
def State.weirRow (s : State) (t : PT) (wid : Nat) : Option WeirRow := (s.router t).fab.weirs.find? fun r => r.wid == wid
def State.weirKids (s : State) (t : PT) (wid : Nat) : List LT := ((s.weirRow t wid).map fun w => w.kids).getD []

/-- A weir packet between tiles: its EP is that of the scarf entry (R279, R293). -/
def weirPacket (op : BitVec 5) (p wid : Nat) (phase : Bool) (src d : PT) (dep : Bool) : Packet :=
  { op := op, dst := .tile d, src := .tile src, tag := 0, addr := BitVec.ofNat 16 (wid + 4096 * flag phase), seq := 0,
    ep := dep, ext := 0, part := p, body := [] }

/-- Member `l` takes the phase of the group's last release: arrivals held for it count, and it passes the release to its
children (R311, R312). -/
def State.passRelease (p wid : Nat) (l : LT) (s : State) : State :=
  let x := weirOf p wid s
  let t := s.runsAt l
  let s := s.setWeir p wid { x with
    behind := x.behind.filter fun k => decide (k ≠ l.key)
    arrived := x.arrived ++ x.early.filter fun e => decide (e.1 = l.key)
    early := x.early.filter fun e => decide (e.1 ≠ l.key) }
  (s.weirKids t wid).foldl (fun s c => s.sendTo t c (weirPacket opWeirRel p wid (!x.phase) t)) s

/-- The arrivals that a purge of logical tiles withdraws from a group (R313): their own, and those of every node above them;
a member outside the region keeps its own arrival. -/
def Frame.withdraws (f : Frame) (w : WeirRec) (lts : List LT) (e : Nat × Nat) : Bool :=
  let keys := lts.map LT.key
  let above := (lts.filter w.has).flatMap fun l => (f.weirAbove w w.members.length l).map LT.key
  keys.contains e.2 || (decide (e.1 ≠ e.2) && above.contains e.2)

/-- The arrivals of a group that are on their way between nodes. -/
def State.arrivalsSent (s : State) (p wid : Nat) (phase : Bool) : List (Nat × Nat) :=
  s.comp.net.filterMap fun k =>
    if k.op = opWeirArr ∧ k.part = p ∧ k.addr.toNat = wid + 4096 * flag phase then
      match k.dst, k.src with
      | .tile t, .tile u =>
        match s.hosted t, s.hosted u with
        | some l, some c => some (l.key, c.key)
        | _, _ => none
      | _, _ => none
    else none

/-- A purge of logical tiles withdraws their arrivals from a group; each of their memberships takes the phase of the last
release (R313). -/
def State.withdrawWeir (p : Nat) (lts : List LT) (w : WeirRec) (s : State) : State :=
  let s := (lts.filter fun l => (weirOf p w.wid s).behind.contains l.key).foldl (fun s l => s.passRelease p w.wid l) s
  let x := weirOf p w.wid s
  let gone := (s.frameOf p).withdraws w lts
  s.setWeir p w.wid { x with
    arrived := x.arrived.filter fun e => !gone e, early := x.early.filter fun e => !gone e
    withdrawn := x.withdrawn ++ (s.arrivalsSent p w.wid x.phase).filter gone
    heldAt := if x.arrived.any gone then none else x.heldAt }

/-- The arrivals of a purged region are withdrawn from every weir of the partition that has a member in it (R313). -/
def State.withdrawWeirs (p : Nat) (lts : List LT) (s : State) : State :=
  ((s.frameOf p).weirs.filter fun w => lts.any w.has).foldl (fun s w => s.withdrawWeir p lts w) s

/-- Fountain nodes of a purged region lose their credit and acknowledgement state (R307). -/
def State.resetFnodes (p : Nat) (lts : List LT) (s : State) : State :=
  (s.frameOf p).founts.foldl (fun s f => f.numbered.foldl (fun s n =>
    if lts.contains n.2.t then s.setFnode p f.fid n.1 FNode.reset else s) s) s

/-- The tiles of a region: halted, reset, emptied, with its ports restored (R204 steps 2 to 4). -/
def State.purgeTiles (p r : Nat) (s : State) : State :=
  let lts := s.regionTiles p r
  let s := (s.regionPlaces p r).foldl (fun s t => (s.cycleTile t).emptyQueues p t) s
  let s := (s.withdrawWeirs p lts).resetFnodes p lts
  s.restoreQueues p ((s.frameOf p).queues.filter fun b => s.internal p r b)

/-- A close request to the producer of an inlet (R200 step 1, R278 CLOSE). (DEDUCED, log 28) -/
def State.closeInlet (p : Nat) (purge : Bool) (b : QueueRec) (s : State) : State :=
  let t := s.runsAt b.t
  let s := s.modTile t fun x => x.setQueue b.q { x.queue b.q with closed := purge, recalled := none, confirmed := false }
  match s.prodOf p b with
  | none => s.modTile t fun x => x.setQueue b.q { x.queue b.q with confirmed := true }
  | some r =>
    let dst := s.prodNode b r
    s.send { op := opClose, dst := dst, src := .tile t, tag := 0, addr := BitVec.ofNat 16 (r.number + 16 * flag purge),
             seq := 0, ep := (s.router t).ep, ext := BitVec.ofNat 48 (1 + gwKey b.t b.q), part := p, body := [] }

/-- The producer of an inlet is taken as having returned all its credits (R204). -/
def State.takeRecall (p : Nat) (b : QueueRec) (s : State) : State :=
  let t := s.runsAt b.t
  let s := match s.prodOf p b with
    | none => s
    | some r => s.setProd r { s.prod r with held := true, closing := some .purge }
  s.modTile t fun x => x.setQueue b.q { x.queue b.q with closed := true, confirmed := true }

/-! ### Entering DRAINED (R207) -/

def DrainMode.code : DrainMode → Nat
  | .boundary => 0
  | .immediate => 1
  | .purge => 2

/-- The region is DRAINED: its bit, `PRT_DRAIN_STAT` and REGION_DRAINED. -/
def State.enterDrained (p r : Nat) (s : State) : State :=
  let x := s.region p r
  let us := min ((s.now - x.goAt) / 1000) 0xFFFF
  let s := s.setRegion p r { x with st := .drained }
  let s := s.setField (Reg.prtDrainedk p (r / 64)) (r % 64) (r % 64) 1
  let s := s.setReg (Reg.prtDrainStat p) (fld 39 24 us ||| fld 23 16 r ||| fld 11 10 x.mode.code)
  s.signal Ev.regionDrained p [p, r, x.mode.code, us]

/-- Leave DRAINED. -/
def State.leaveDrained (p r : Nat) (s : State) : State := s.setField (Reg.prtDrainedk p (r / 64)) (r % 64) (r % 64) 0

/-- A whole purge of a region, requested for recovery, up to DRAINED: the producers of its inlets are held, and what
reaches its inlets is discarded (R203, R204, R209). A purge that is in progress goes on as it began. -/
def State.purgeRegion (p r : Nat) (s : State) : State :=
  if (s.region p r).st = .drained then s
  else if (s.region p r).st = .purging then
    (((s.frameOf p).inlets r).foldl (fun s b => s.takeRecall p b) s).enterDrained p r
  else
    let s := s.setRegion p r { st := .purging, mode := .purge, goAt := s.now }
    let s := ((s.frameOf p).inlets r).foldl (fun s b => s.takeRecall p b) s
    (s.purgeTiles p r).enterDrained p r

/-- The regions of the partition's Frame: 0 and every region that a record names (R227). -/
def Frame.regionIds (f : Frame) : List Nat :=
  f.regions.foldl (fun rs r => if rs.contains r.region then rs else rs ++ [r.region]) [0]

/-- Purge every region of a partition, within the time of R209. -/
def State.purgeAll (p : Nat) (s : State) : State :=
  ((s.frameOf p).regionIds).foldl (fun s r => s.purgeRegion p r) s

/-! ### Quiet tiles (R202) -/

def Tile.quiet (x : Tile) : Bool :=
  (decide (x.s.seq = .idle) || (decide (x.s.seq = .halted) && !x.s.inv) ||
    (decide (x.s.seq = .plumb) && x.plumb.quietAtStart)) &&
  (decide (x.s.seq = .plumb) ||
    (x.queues.all (fun kq => decide (kq.2.held = 0)) && decide (x.q.parked = []) && decide (x.q.held = []) &&
      decide (x.q.out = []) && x.r.ports.all fun kp => decide (kp.2.prod.unacked = 0)))

/-- Tiles of the region that are not quiet. -/
def State.notQuiet (s : State) (p r : Nat) : Nat :=
  ((s.regionTiles p r).filter fun l => !(s.tile (s.runsAt l)).quiet).length

/-! ### Reopening (R208, R320) -/

/-- Shadows of the region's tiles take the value of their floats' homes (R320). -/
def State.refreshShadows (p r : Nat) (s : State) : State :=
  let lts := s.regionTiles p r
  s.modRun p fun x => { x with floats := x.floats.map fun kf =>
    (kf.1, { kf.2 with
      shadows := kf.2.shadows.map fun sh =>
        if lts.contains (LT.ofKey sh.1) then (sh.1, (kf.2.value, kf.2.count)) else sh
      early := kf.2.early.filter fun e => !(lts.contains (LT.ofKey e.1)) }) }

/-- REOPEN of a DRAINED region. -/
def State.reopenRegion (p r : Nat) (s : State) : State :=
  if (s.region p r).st = .drained then
    let s := s.setRegion p r { s.region p r with st := .opened }
    let s := s.leaveDrained p r
    let s := s.restoreQueues p ((s.frameOf p).inlets r)
    s.refreshShadows p r
  else s

/-- Step s begins when the partition's regions are reopened (R523): what the floats and windows hold is kept for a dry fit
(R530 step 5), and the armed TIDs are triggered (R616). -/
def State.allOpen (s : State) (p : Nat) : Bool :=
  ((s.frameOf p).regionIds).all fun r => decide ((s.region p r).st = .opened)

end Sys2Proof.Machine
end

