-- ==== Sys2Proof/Machine/Floats.lean ====
section
/-!
DEFINITION. Floats and the streamable windows that they guard (spec 06_fabric R316 to R318, 07_scriber R359 to R363,
05_frame R233 to R237).
-/

namespace Sys2Proof.Machine

def State.float (s : State) (p fid : Nat) : Float := Tab.get Float.reset (s.part p).run.floats fid
def State.setFloat (p fid : Nat) (x : Float) (s : State) : State :=
  s.modRun p fun r => { r with floats := Tab.put r.floats fid x }

/-- The float is one of the applied Frame. -/
def State.hasFloat (s : State) (p fid : Nat) : Bool := (s.frameOf p).floats.any fun f => f.fid == fid

/-- A float's row in the active tables of a tile's router (R297, R316). -/
def State.floatRow (s : State) (t : PT) (fid : Nat) : Option FloatRow := (s.router t).fab.floats.find? fun r => r.fid == fid

/-- A notification of a float's value (R317). -/
def floatVal (p fid : Nat) (v : Bool) (count : BitVec 16) (src d : PT) (dep : Bool) : Packet :=
  { op := opFloatVal, dst := .tile d, src := .tile src, tag := 0, addr := BitVec.ofNat 16 (fid + 4096 * flag v), seq := 0,
    ep := dep, ext := count.setWidth 48, part := p, body := [] }

/-- Tile `t` notifies those below it in the float's tree (R317); its own shadow is told by the home alone. -/
def State.notify (t : PT) (p fid : Nat) (v : Bool) (count : BitVec 16) (s : State) : State :=
  (((s.floatRow t fid).map fun r => r.notify).getD []).foldl (fun s l => s.sendTo t l (floatVal p fid v count t)) s

/-- The home applies a set or clear: the value, the count, and the notification (R317). -/
def State.floatApply (p fid : Nat) (v : Bool) (s : State) : State :=
  let x := s.float p fid
  let x := { x with value := v, count := x.count + 1 }
  let s := s.setFloat p fid x
  s.notify (s.runsAt x.home) p fid v x.count

/-- The shadow of a float at a tile: its value and its count. -/
def State.shadow (s : State) (p fid : Nat) (l : LT) : Option (Bool × BitVec 16) :=
  ((s.float p fid).shadows.find? fun sh => decide (sh.1 = l.key)).map (·.2)

/-- The next notification held for the shadow of tile `key`, when its count is the next one (R317). -/
def Float.nextVal (x : Float) (key : Nat) : Option (BitVec 16 × Bool) :=
  (x.shadows.find? fun sh => decide (sh.1 = key)).bind fun sh =>
    (x.early.find? fun e => decide (e.1 = key) && decide (e.2.1 = sh.2.2 + 1)).map (·.2)

/-! ### Windows (R359 to R362) -/

/-- The WMLOADS records with their numbers. -/
def Frame.windows (f : Frame) : List (Nat × WmloadRec) := (List.range f.wmloads.length).zip f.wmloads

/-- The fill count J of a streamable window (R359). -/
def State.fillCount (s : State) (p : Nat) (w : WmloadRec) : Nat :=
  match (s.frameOf p).tensor w.tid with
  | none => 1
  | some t =>
    let per := w.rect.count * w.len
    if per = 0 then 1 else (tensorBytes t - w.off + per - 1) / per

def State.window (s : State) (p i : Nat) : Window := Tab.get Window.reset (s.part p).run.windows i
def State.setWindow (p i : Nat) (x : Window) (s : State) : State :=
  s.modRun p fun r => { r with windows := Tab.set Window.reset r.windows i x }

/-- A micro-op cleared float `fid`: each of its windows begins its next fill (R361). -/
def State.nextFills (p fid : Nat) (s : State) : State :=
  (s.frameOf p).windows.foldl (fun s iw =>
    if iw.2.streamable ∧ iw.2.fid = fid then
      let x := s.window p iw.1
      let j := s.fillCount p iw.2
      s.setWindow p iw.1 { x with writing := some ((x.writing.getD x.fill + 1) % max j 1) }
    else s) s

/-- A commit changed tensor `tid`: the device clears the float of each of its windows and begins to write their current
fills again (R362). -/
def State.refreshWindows (p tid : Nat) (s : State) : State :=
  (s.frameOf p).windows.foldl (fun s iw =>
    if iw.2.streamable ∧ iw.2.tid = tid then
      let x := s.window p iw.1
      let s := s.setWindow p iw.1 { x with writing := some (x.writing.getD x.fill) }
      s.floatApply p iw.2.fid false
    else s) s

/-- A fill of a window of tensor `tid` is being written (R363). -/
def State.filling (s : State) (p tid : Nat) : Bool :=
  (s.frameOf p).windows.any fun iw => decide (iw.2.tid = tid) && iw.2.streamable && (s.window p iw.1).writing.isSome

/-- The bytes of a window in a fill for the k-th tile of its rectangle, with the poisoned blocks met (R234, R360). -/
def State.fillBytes (p : Nat) (w : WmloadRec) (j k : Nat) (s : State) : List Byte × List Nat × State :=
  match s.alloc p w.tid with
  | none => (List.replicate w.len 0, [], s)
  | some a =>
    let o := w.off + (j * w.rect.count + k) * w.len
    let n := min w.len (a.size - o)
    let r := s.readRange p (a.base + o) n
    (padTo w.len r.1.data, r.1.bad, r.2)

/-- Write a fill into every tile of the rectangle; the poisoned blocks met (R361, R448). -/
def State.writeFill (p : Nat) (w : WmloadRec) (j : Nat) (s : State) : List Nat × State :=
  ((List.range w.rect.count).zip w.rect.tiles).foldl (fun acc kl =>
    let r := acc.2.fillBytes p w j kl.1
    if r.2.1 = [] then (acc.1, r.2.2.modTile (r.2.2.runsAt kl.2) fun x => x.store w.wmaddr r.1)
    else (acc.1 ++ r.2.1, r.2.2)) ([], s)

end Sys2Proof.Machine
end

