-- ==== Sys2Proof/Machine/PlaneMath.lean ====
section
/-!
DEFINITION. The Plane's arithmetic: update rules, matrix products, inverse roots and the sighting digest
(spec 08_plane R381 to R408, R422). Values are binary32 or binary64 encodings.
-/

namespace Sys2Proof.Machine

def f32 : Fmt := fmtB32
def f64 : Fmt := fmtB64
def add32 (a b : Nat) : Nat := (fAdd f32 a b).1
def sub32 (a b : Nat) : Nat := (fSub f32 a b).1
def mul32 (a b : Nat) : Nat := (fMul f32 a b).1
def div32 (a b : Nat) : Nat := (fDiv f32 a b).1
def sqrt32 (a : Nat) : Nat := (fSqrt f32 a).1
def add64 (a b : Nat) : Nat := (fAdd f64 a b).1
def sub64 (a b : Nat) : Nat := (fSub f64 a b).1
def mul64 (a b : Nat) : Nat := (fMul f64 a b).1
def div64 (a b : Nat) : Nat := (fDiv f64 a b).1
def sqrt64 (a : Nat) : Nat := (fSqrt f64 a).1
def to64 (a : Nat) : Nat := (fConv f32 f64 a).1
def to32 (a : Nat) : Nat := (fConv f64 f32 a).1
/-- An integer in binary64. -/
def int64 (n : Nat) : Nat := (fRound f64 false n 0).1
def one32 : Nat := 0x3F800000
def one64 : Nat := 0x3FF0000000000000

/-- Bits of a number from the most significant, at most `n`. -/
def bitsDown : Nat → Nat → List Bool
  | 0, _ => []
  | n + 1, t => if t = 0 then [] else bitsDown n (t / 2) ++ [t % 2 == 1]

/-- 1 − b^t, by square-and-multiply in binary64 from the most significant bit, rounded once to binary32 (R400). -/
def biasCorrection (b t : Nat) : Nat :=
  let b64 := to64 b
  let r := (bitsDown 64 t).foldl (fun r bit => let q := mul64 r r; if bit then mul64 q b64 else q) one64
  to32 (sub64 one64 r)

/-- A gradient element in binary32 (R399). -/
def gradElem (fmt v : Nat) : Nat :=
  if fmt = 6 then v * 2 ^ 16
  else if fmt = 7 then v
  else (convNum 7 .nearest false false (xsNum (BitVec.ofNat 128 v))).1

/-- RULE 0x1 on one element: w and m (R399). -/
def ruleMomentum (h : List Nat) (variant eta w m g : Nat) : Nat × Nat :=
  let h0 := h.getD 0 0
  let m' := add32 (mul32 h0 m) (mul32 (sub32 one32 (h.getD 1 0)) g)
  let u := if variant = 1 then add32 g (mul32 h0 m') else m'
  (sub32 w (mul32 eta (add32 u (mul32 (h.getD 3 0) w))), m')

/-- The new m and v of the adaptive rule (R399, R401). -/
def decayed (b old new : Nat) : Nat := add32 (mul32 b old) (mul32 (sub32 one32 b) new)

/-- The weight update of the adaptive rule from the new m and v (R399, R406). -/
def adaptiveW (h3 eps eta b1 b2 t : Nat) (corr : Bool) (w m v : Nat) : Nat :=
  let mh := if corr then div32 m (biasCorrection b1 t) else m
  let vh := if corr then div32 v (biasCorrection b2 t) else v
  sub32 w (mul32 eta (add32 (div32 mh (add32 (sqrt32 vh) eps)) (mul32 h3 w)))

/-- The decay of a matrix rule: w − eta × (d + H3 × w) (R406 to R408). -/
def decayW (h3 eta w d : Nat) : Nat := sub32 w (mul32 eta (add32 d (mul32 h3 w)))

/-! ### Matrices, as lists of rows -/

abbrev Mat := List (List Nat)

/-- Cut a list into rows of `c`. -/
def toRows (c : Nat) : Nat → List Nat → Mat
  | 0, _ => []
  | r + 1, l => l.take c :: toRows c r (l.drop c)

/-- The transpose of a matrix with `c` columns. -/
def transpose (c : Nat) (m : Mat) : Mat := (List.range c).map fun j => m.map fun r => r.getD j 0

/-- The pairs of a block: the second product of a pair is added to the first by one fused multiply-add (R381, R382). -/
def pairFma (f : Fmt) : List (Nat × Nat) → List Nat
  | p :: q :: r => (fFma f q.1 q.2 (fMul f p.1 p.2).1).1 :: pairFma f r
  | [p] => [(fMul f p.1 p.2).1]
  | [] => []

/-- One block of at most 64 terms by the pairwise tree of R82. -/
def blockSum (f : Fmt) (l : List (Nat × Nat)) : Nat :=
  (laneTree (fun a b => (fAdd f a b).1) 6 (pairFma f l)).getD 0 0

/-- Blocks of 64 of a list, at most `n`. -/
def blocks64 {α : Type} : Nat → List α → List (List α)
  | 0, _ => []
  | n + 1, l => if l.isEmpty then [] else l.take 64 :: blocks64 n (l.drop 64)

/-- One element of a matrix product (R382): binary32 operands, accumulated in binary32, or in binary64 and rounded once. -/
def dotProduct (fp64 : Bool) (a b : List Nat) : Nat :=
  let ps := a.zip b
  let sum := fun (f : Fmt) (ps : List (Nat × Nat)) =>
    match (blocks64 (ps.length / 64 + 1) ps).map (blockSum f) with
    | [] => 0
    | s :: r => r.foldl (fun x y => (fAdd f x y).1) s
  if fp64 then to32 (sum f64 (ps.map fun p => (to64 p.1, to64 p.2))) else sum f32 ps

/-- The product of a matrix and one with `c` columns. -/
def matMul (fp64 : Bool) (c : Nat) (a b : Mat) : Mat :=
  let bt := transpose c b
  a.map fun r => bt.map fun col => dotProduct fp64 r col

/-! ### The checksums of a product (R418, R419) -/

/-- The magnitude of a binary64 value. -/
def abs64 (x : Nat) : Nat := x % 2 ^ 63

/-- Sum of binary64 values in ascending order. -/
def sum64 (l : List Nat) : Nat := l.foldl add64 0

/-- A checksum passes: |expected − computed| ≤ 2^-14 × Σ|terms| + 2^-126 (R419); a value that is not finite passes none. -/
def checksumOk (expected computed terms : Nat) : Bool :=
  let d := abs64 (sub64 expected computed)
  let lim := add64 (mul64 0x3F10000000000000 terms) 0x3810000000000000
  fFinite f64 d && fFinite f64 lim && !fLess f64 lim d

/-- The checksums of the columns of `c = a · b`: a row of the column sums of `a`, times `b`, against the column sums of `c`, all in
binary64; Σ|terms| is over the products that the column sums (R418, R419). (DEDUCED, log 129) -/
def columnsOk (n : Nat) (a b c : Mat) : Bool :=
  let k := (a.headD []).length
  let sums := (transpose k a).map fun col => sum64 (col.map to64)
  let mags := (transpose k a).map fun col => sum64 (col.map fun v => abs64 (to64 v))
  ((transpose n b).zip (transpose n c)).all fun bc =>
    let bs := bc.1.map to64
    checksumOk (sum64 ((sums.zip bs).map fun p => mul64 p.1 p.2)) (sum64 (bc.2.map to64))
      (sum64 ((mags.zip bs).map fun p => mul64 p.1 (abs64 p.2)))

/-- Both checksums of a product pass: that of the rows is that of the columns of the transposed product (R418). -/
def productOk (n : Nat) (a b c : Mat) : Bool :=
  columnsOk n a b c && columnsOk a.length (transpose n b) (transpose (a.headD []).length a) (transpose n c)

/-- A product of a matrix and one with `n` columns, and whether its checksums pass. -/
def matProd (fp64 : Bool) (n : Nat) (a b : Mat) : Mat × Bool :=
  let c := matMul fp64 n a b
  (c, productOk n a b c)

def matMap2 (f : Nat → Nat → Nat) (a b : Mat) : Mat := (a.zip b).map fun rs => (rs.1.zip rs.2).map fun p => f p.1 p.2
def matMap (f : Nat → Nat) (a : Mat) : Mat := a.map fun r => r.map f

/-- Sum of squares, square-rooted, in binary64 in ascending index order (R382). -/
def frob64 (m : Mat) : Nat := sqrt64 (m.flatten.foldl (fun s x => add64 s (mul64 x x)) 0)

/-- A square matrix that is not its own diagonal times something: entry (i, j) by a function. -/
def squareOf (k : Nat) (f : Nat → Nat → Nat) : Mat := (List.range k).map fun i => (List.range k).map fun j => f i j

def entry (m : Mat) (i j : Nat) : Nat := (m.getD i []).getD j 0

/-- Greater than zero and finite. -/
def pos64 (x : Nat) : Bool := fFinite f64 x && fLess f64 0 x

/-- The rows of a Cholesky factor, one after another, in binary64 in ascending order; none at a pivot ≤ 0 or not finite
(R403). -/
def choleskyRows (x : Mat) : Nat → List (List Nat) → Option Mat
  | 0, ls => some ls
  | n + 1, ls =>
    let i := ls.length
    -- entries of row i left of the diagonal, ascending
    let row := (List.range i).foldl (fun row j =>
      let s := (List.range j).foldl (fun s k => sub64 s (mul64 (row.getD k 0) (entry ls j k))) (entry x i j)
      row ++ [div64 s (entry ls j j)]) []
    let d := row.foldl (fun s v => sub64 s (mul64 v v)) (entry x i i)
    if pos64 d then choleskyRows x n (ls ++ [row ++ [sqrt64 d]]) else none

/-- A product of binary64 matrices: the operands are rounded to binary32, and the product follows R382. -/
def matMul64 (fp64 : Bool) (k : Nat) (a b : Mat) : Mat × Bool :=
  let q := matProd fp64 k (matMap to32 a) (matMap to32 b)
  (matMap to64 q.1, q.2)

/-- The 20 iterations of R403: y and z, and whether every checksum passed. -/
def rootIterate (fp64 : Bool) (k p : Nat) : Nat → Mat → Mat → Mat × Mat × Bool
  | 0, y, z => (y, z, true)
  | n + 1, y, z =>
    let s := squareOf k fun i j =>
      div64 (sub64 (if i = j then mul64 (int64 (p + 1)) one64 else 0) (entry z i j)) (int64 p)
    let y := matMul64 fp64 k y s
    let s2 := matMul64 fp64 k s s
    let sp := if p = 2 then s2 else matMul64 fp64 k s2.1 s2.1
    let z := matMul64 fp64 k sp.1 z
    let r := rootIterate fp64 k p n y.1 z.1
    (r.1, r.2.1, r.2.2 && y.2 && s2.2 && sp.2 && z.2)

/-- One attempt of R403 with damping 10^a: delta, the root where it is found, and whether every checksum passed. -/
def rootAttempt (fp64 : Bool) (k p eps0 a : Nat) (f : Mat) : Nat × Option Mat × Bool :=
  let tr := (List.range k).foldl (fun s i => add64 s (entry f i i)) 0
  let delta := div64 (mul64 (mul64 (to64 eps0) (int64 (10 ^ a))) tr) (int64 k)
  let x := squareOf k fun i j => add64 (entry f i j) (if i = j then delta else 0)
  if !pos64 delta then (delta, none, true)
  else
    match choleskyRows x k [] with
    | none => (delta, none, true)
    | some _ =>
      let nrm := frob64 x
      let c := Config.plnPow nrm p % 2 ^ 64
      let y := squareOf k fun i j => if i = j then c else 0
      let z := matMap (fun v => div64 v nrm) x
      let r := rootIterate fp64 k p 20 y z
      let dz := squareOf k fun i j => sub64 (entry r.2.1 i j) (if i = j then one64 else 0)
      let lim := mul64 0x3F50624DD2F1A9FC (sqrt64 (int64 k))
      if fLess f64 lim (frob64 dz) || !fFinite f64 (frob64 dz) then (delta, none, r.2.2) else (delta, some (matMap to32 r.1), r.2.2)

/-- What an inverse root comes to: the root, or the last delta tried; the retries made; whether every checksum passed. -/
structure RootResult where
  root : Option Mat
  delta : Nat
  retries : Nat
  checked : Bool
deriving DecidableEq, Repr

/-- At most `n` attempts from 10^a (R403). (DESIGN CHOICE, log 42) -/
def inverseRootFrom (fp64 : Bool) (k p eps0 : Nat) (f : Mat) : Nat → Nat → RootResult
  | 0, a => { root := none, delta := 0, retries := a, checked := true }
  | n + 1, a =>
    let r := rootAttempt fp64 k p eps0 a f
    match r.2.1 with
    | some m => { root := some m, delta := r.1, retries := a, checked := r.2.2 }
    | none =>
      if n = 0 then { root := none, delta := r.1, retries := a, checked := r.2.2 }
      else
        let q := inverseRootFrom fp64 k p eps0 f n (a + 1)
        { q with checked := q.checked && r.2.2 }

def inverseRoot (fp64 : Bool) (k p eps0 : Nat) (f : Mat) : RootResult := inverseRootFrom fp64 k p eps0 (matMap to64 f) 4 0

/-- The polar iterations of R408: x, and whether every checksum passed. -/
def polarIterate (fp64 : Bool) (r c : Nat) : Nat → Mat → Mat × Bool
  | 0, x => (x, true)
  | n + 1, x =>
    let xt := transpose c x
    let g := if r ≤ c then matProd fp64 r x xt else matProd fp64 c xt x
    let q := if r ≤ c then matProd fp64 c g.1 x else matProd fp64 c x g.1
    -- 1.5f and 0.5f
    let p := polarIterate fp64 r c n (matMap2 (fun a b => sub32 (mul32 0x3FC00000 a) (mul32 0x3F000000 b)) x q.1)
    (p.1, p.2 && g.2 && q.2)

/-! ### A whole update -/

/-- An update's outcome: new weights, new state, whether it fell back and refreshed, the factor that failed with its last
delta, the damping retries, and whether the checksum of every product passed (R418). -/
structure PlnResult where
  w : List Nat
  s : List Nat
  fallback : Bool
  refreshed : Bool
  failed : Option (Nat × Nat)
  retries : Nat
  checked : Bool
deriving DecidableEq, Repr

/-- The rule and shape of an update. -/
structure PlnRule where
  rule : Nat
  variant : Nat
  fallback : Nat
  fp64 : Bool
  root : Nat
  refresh : Nat
  h : List Nat
  rows : Nat
  cols : Nat
deriving DecidableEq, Repr

/-- Elementwise rules 0x1 and 0x2 (R399). -/
def plnElementwise (r : PlnRule) (eta t : Nat) (w s g : List Nat) : PlnResult :=
  let n := w.length
  if r.rule = 1 then
    let res := (w.zip (s.zip g)).map fun x => ruleMomentum r.h r.variant eta x.1 x.2.1 x.2.2
    { w := res.map (·.1), s := res.map (·.2), fallback := false, refreshed := false, failed := none, retries := 0, checked := true }
  else
    let b1 := r.h.getD 0 0
    let b2 := r.h.getD 1 0
    let m := ((s.take n).zip g).map fun x => decayed b1 x.1 x.2
    let v := ((s.drop n).zip g).map fun x => decayed b2 x.1 (mul32 x.2 x.2)
    let w' := (w.zip (m.zip v)).map fun x =>
      adaptiveW (r.h.getD 3 0) (r.h.getD 2 0) eta b1 b2 t (decide (r.variant = 0)) x.1 x.2.1 x.2.2
    { w := w', s := m ++ v, fallback := false, refreshed := false, failed := none, retries := 0, checked := true }

/-- RULE 0x3 (R401 to R407). -/
def plnPreconditioned (r : PlnRule) (eta t : Nat) (pend : Bool) (w s g : List Nat) : PlnResult :=
  let n := w.length
  let rr := r.rows * r.rows
  let cc := r.cols * r.cols
  let vn := if r.fallback = 2 then n else 0
  let h := fun i => r.h.getD i 0
  let m := ((s.take n).zip g).map fun x => decayed (h 0) x.1 x.2
  let v := (((s.drop n).take vn).zip g).map fun x => decayed (h 4) x.1 (mul32 x.2 x.2)
  let o := n + vn
  let gm := toRows r.cols r.rows g
  let gt := transpose r.cols gm
  let gg := matProd r.fp64 r.rows gm gt
  let ff := matProd r.fp64 r.cols gt gm
  let lf := matMap2 (decayed (h 1)) (toRows r.rows r.rows ((s.drop o).take rr)) gg.1
  let rf := matMap2 (decayed (h 1)) (toRows r.cols r.cols ((s.drop (o + rr)).take cc)) ff.1
  let pl := toRows r.rows r.rows ((s.drop (o + rr + cc)).take rr)
  let pr := toRows r.cols r.cols ((s.drop (o + 2 * rr + cc)).take cc)
  let due := decide (t = 1) || decide (r.refresh ≠ 0 ∧ (t - 1) % r.refresh = 0) || pend
  let rl := inverseRoot r.fp64 r.rows r.root (h 2) lf
  let rr' := inverseRoot r.fp64 r.cols r.root (h 2) rf
  let ok := rl.root.isSome && rr'.root.isSome
  let fb := due && !ok
  let pl' := if due && ok then rl.root.getD pl else pl
  let pr' := if due && ok then rr'.root.getD pr else pr
  let pm := matProd r.fp64 r.cols pl' (toRows r.cols r.rows m)
  let d := matProd r.fp64 r.cols pm.1 pr'
  let w' :=
    if fb then
      if r.fallback = 2 then
        (w.zip (m.zip v)).map fun x => adaptiveW (h 3) (h 5) eta (h 0) (h 4) t true x.1 x.2.1 x.2.2
      else (w.zip m).map fun x => decayW (h 3) eta x.1 x.2
    else (w.zip d.1.flatten).map fun x => decayW (h 3) eta x.1 x.2
  { w := w', s := m ++ v ++ lf.flatten ++ rf.flatten ++ pl'.flatten ++ pr'.flatten, fallback := fb
    refreshed := due && ok
    failed := if fb then (if rl.root.isNone then some (0, rl.delta) else some (1, rr'.delta)) else none
    retries := if due then rl.retries + rr'.retries else 0
    checked := gg.2 && ff.2 && (!due || (rl.checked && rr'.checked)) && (fb || (pm.2 && d.2)) }

/-- RULE 0x4 (R408). -/
def plnPolar (r : PlnRule) (eta : Nat) (w s g : List Nat) : PlnResult :=
  let h := fun i => r.h.getD i 0
  let m := (s.zip g).map fun x => decayed (h 0) x.1 x.2
  let nm := frob64 [m.map to64]
  let x := if decide (nm % 2 ^ 63 = 0) then m.map fun _ => 0
    else m.map fun v => div32 v (to32 (add64 nm (to64 (h 2))))
  let xs := polarIterate r.fp64 r.rows r.cols (r.variant % 16) (toRows r.cols r.rows x)
  { w := (w.zip xs.1.flatten).map fun y => sub32 y.1 (mul32 eta (add32 (mul32 (h 1) y.2) (mul32 (h 3) y.1)))
    s := m, fallback := false, refreshed := false, failed := none, retries := 0, checked := xs.2 }

/-- An update of a layer: step size, update number, refresh pending, weights, state, gradient. -/
def plnUpdate (r : PlnRule) (step t : Nat) (pend : Bool) (w s g : List Nat) : PlnResult :=
  let eta := mul32 step (r.h.getD 7 0)
  if r.rule = 3 then plnPreconditioned r eta t pend w s g
  else if r.rule = 4 then plnPolar r eta w s g
  else plnElementwise r eta t w s g

/-- The digest of R422 over 32-bit words. -/
def plnDigest (k : Nat) (xs : List Nat) : Nat := xs.foldl (fun d x => (d + x + 1) * k % (2 ^ 64 - 59)) 0

/-- Words of `n` bytes of a byte string. -/
def wordsOf (n : Nat) : Nat → List Byte → List Nat
  | 0, _ => []
  | c + 1, d => ofBytes (d.take n) :: wordsOf n c (d.drop n)
where
  /-- The number of a little-endian byte string. -/
  ofBytes (d : List Byte) : Nat := d.foldr (fun b a => b.toNat + 256 * a) 0

end Sys2Proof.Machine
end

