-- ==== Sys2Proof/Machine/PlaneOps.lean ====
section
/-!
DEFINITION. The Plane's layers, staging ring, commit records and copy-in (spec 08_plane R380, R388 to R417, R422).
-/

namespace Sys2Proof.Machine

def State.layerRec (s : State) (p l : Nat) : Option LayerRec := (s.frameOf p).layers.find? fun r => r.layer == l

/-- The shape of a tensor as a matrix: rows and columns (R251). -/
def matrixOf (t : TensorRec) : Nat × Nat :=
  let c := t.dims.getLastD 1
  (if c = 0 then 0 else tensorElems t / c, c)

def State.tensorSize (s : State) (p tid : Nat) : Nat :=
  match (s.frameOf p).tensor tid with
  | some t => tensorBytes t
  | none => 0

/-- The bytes a staged layer takes: its record, W_TID and S_TID (R410). -/
def State.stagedBytes (s : State) (p : Nat) (r : LayerRec) : Nat := s.tensorSize p r.w + s.tensorSize p r.st + 64

/-- The stack that holds a layer's group (R368). -/
def State.layerStack (s : State) (p : Nat) (r : LayerRec) : Nat := ((s.alloc p r.w).bind fun a => a.stack).getD 0

/-- The number of the allocation of the staging slice in stack `k`, beside the tensors' (R409). -/
def sliceKey (k : Nat) : Nat := 2 ^ 32 + k
def State.slice (s : State) (p k : Nat) : Option Alloc := s.alloc p (sliceKey k)

/-- Every staged layer of the partition in stack `k`: its number and its place in the ring. -/
def State.ringOf (s : State) (p k : Nat) : List (Nat × Staged) :=
  (s.part p).pln.layers.filterMap fun kl =>
    match kl.2.staged, s.layerRec p kl.1 with
    | some g, some r => if s.layerStack p r = k then some (kl.1, g) else none
    | _, _ => none

/-- The highest staging order given by an engine so far, over all partitions (R415). -/
def State.lastOrder (s : State) : Nat :=
  s.comp.parts.foldl (fun m kp => kp.2.pln.layers.foldl (fun m kl => match kl.2.staged with
    | some g => max m g.order
    | none => m) m) 0

/-- Round up to a multiple of 64. -/
def up64 (n : Nat) : Nat := (n + 63) / 64 * 64

/-- Bytes of the ring that staged layers hold. -/
def State.ringUsed (s : State) (p k : Nat) : Nat :=
  (s.ringOf p k).foldl (fun n e => match s.layerRec p e.1 with
    | some r => n + up64 (s.stagedBytes p r)
    | none => n) 0

/-- Where the next staged layer begins: after the newest one (R411). (DESIGN CHOICE, log 46) -/
def State.ringNext (s : State) (p k : Nat) : Nat :=
  match (s.ringOf p k).foldl (fun (b : Option (Nat × Staged)) e => match b with
      | none => some e
      | some x => if x.2.order < e.2.order then some e else some x) none with
  | none => 0
  | some e => match s.layerRec p e.1, s.slice p k with
    | some r, some a => if a.size = 0 then 0 else (e.2.off + up64 (s.stagedBytes p r)) % a.size
    | _, _ => 0

/-- Read and write bytes of a ring slice, which wraps. -/
def State.ringRead (p : Nat) (a : Alloc) (off n : Nat) (s : State) : List Byte × List Nat × State :=
  let o := off % a.size
  let m := min n (a.size - o)
  let r := s.readRange p (a.base + o) m
  if m < n then
    let q := r.2.readRange p a.base (n - m)
    (r.1.data ++ q.1.data, r.1.bad ++ q.1.bad, q.2)
  else (r.1.data, r.1.bad, r.2)
/-- Write bytes of a ring slice, which wraps. (DESIGN CHOICE, log 46) -/
def State.ringWrite (p : Nat) (a : Alloc) (off : Nat) (d : List Byte) (s : State) : State :=
  let o := off % a.size
  let m := min d.length (a.size - o)
  let s := (s.writeRange p (a.base + o) (d.take m)).2
  if m < d.length then (s.writeRange p a.base (d.drop m)).2 else s

/-- Bytes 0x00 to 0x2F of a commit record, and zero in COMMIT and COPIED (R412). -/
def commitRecord (layer gen : Nat) (step : Word) (upd len flags w : Nat) : List Byte :=
  let b := leBytes 4 0x54434C50 ++ leBytes 2 layer ++ leBytes 2 gen ++ leBytes 8 step.toNat ++ leBytes 8 upd ++ leBytes 8 len ++
    leBytes 4 flags ++ leBytes 4 w ++ leBytes 4 0
  b ++ leBytes 4 (crc32c b) ++ leBytes 16 0

def commitWord : Nat := 0x4C504D434F4D4954
def copiedWord : Nat := 0x4C504D434F505944

/-- Set each destination block derived from a poisoned source block to poison (R448): source range, destination range
per source byte. -/
def State.spreadPoison (p : Nat) (src dst len : Nat) (bad : List Nat) (s : State) : State :=
  bad.foldl (fun s b =>
    let lo := max b src
    let hi := min (b + 64) (src + len)
    if lo < hi then
      let d0 := (dst + (lo - src)) / 64
      let d1 := (dst + (hi - src) - 1) / 64
      (List.range (d1 + 1 - d0)).foldl (fun s i => s.poisonPa p ((d0 + i) * 64)) s
    else s) s

/-- Elements of width w of a byte string (R71). -/
def elemsOf (w n : Nat) (d : List Byte) : List Nat := let v := ofLe d; (List.range n).map fun i => v / 2 ^ (i * w) % 2 ^ w

/-- Convert binary32 weights to a resident copy (R388): the bytes of its elements, then of its scales. -/
def residentBytes (t : TensorRec) (ws : List Nat) : List Byte :=
  let w := fmtWidth t.fmt
  let n := ws.length
  let vs := ws.map (decFmt fmtB32)
  if t.fmt = 8 then leBytes (16 * n) (packElems w (vs.map fun v => (xsOf v).toNat))
  else if blockOf t.scl = 0 then
    leBytes ((n * w + 7) / 8) (packElems w (vs.map fun v => (convNum t.fmt .nearest true true v).1))
  else
    let b := blockOf t.scl
    let blocks := (List.range (n / b)).map fun i => convBlock t.fmt (List.replicate b .nearest) true ((vs.drop (i * b)).take b)
    leBytes ((n * w + 7) / 8) (packElems w (blocks.flatMap fun x => x.1)) ++ blocks.map fun x => x.2.1

/-- The copy-in of a staged layer: W_TID, S_TID and R_TID from the ring (R388, R414, R448). Every write is absolute. -/
def State.copyIn (p : Nat) (r : LayerRec) (g : Staged) (s : State) : State :=
  match s.slice p (s.layerStack p r) with
  | none => s
  | some a =>
    let wn := s.tensorSize p r.w
    let sn := s.tensorSize p r.st
    let q := s.ringRead p a (g.off + 64) wn
    let s := q.2.2
    let wBase := ((s.alloc p r.w).map fun x => x.base).getD 0
    let s := (s.writeRange p wBase q.1).2
    let s := s.spreadPoison p (a.base + g.off + 64) wBase wn q.2.1
    let u := s.ringRead p a (g.off + 64 + wn) sn
    let s := u.2.2
    let sBase := ((s.alloc p r.st).map fun x => x.base).getD 0
    let s := if sn = 0 then s
      else ((s.writeRange p sBase u.1).2).spreadPoison p (a.base + g.off + 64 + wn) sBase sn u.2.1
    if r.rt = r.w then s
    else
      match (s.frameOf p).tensor r.rt, s.alloc p r.rt with
      | some t, some ra =>
        let s := (s.writeRange p ra.base (residentBytes t (elemsOf 32 (wn / 4) q.1))).2
        -- the blocks of R_TID made from a poisoned block of the staged W_TID, its scales among them
        let w := fmtWidth t.fmt
        let bad := q.2.1
        bad.foldl (fun s b =>
          let e0 := (max b (a.base + g.off + 64) - (a.base + g.off + 64)) / 4
          let e1 := min (e0 + 16) (wn / 4)
          let d0 := e0 * w / 8
          let d1 := (e1 * w + 7) / 8
          let s := (List.range (d1 + 1 - d0)).foldl (fun s i => s.poisonPa p (ra.base + d0 + i)) s
          if blockOf t.scl = 0 then s
          else
            let sc := (tensorElems t * w + 7) / 8
            (List.range (e1 / blockOf t.scl + 1 - e0 / blockOf t.scl)).foldl (fun s i =>
              s.poisonPa p (ra.base + sc + e0 / blockOf t.scl + i)) s) s
      | _, _ => s

/-- The layer enters IDLE, or FROZEN when a freeze is asked for (R390, R398); its count is zero. -/
def Layer.toIdle (x : Layer) : Layer :=
  let st := match x.frz with
    | some true => LayerState.frozen
    | _ => LayerState.idle
  { x with st := st, count := 0, frz := none, staged := none, granted := false }

/-- The tensors that a commit of a layer changes, once each (R362, R414). -/
def LayerRec.written (r : LayerRec) : List Nat :=
  [r.rt, r.w, r.st].foldl (fun ts t => if t = 0 ∨ ts.contains t then ts else ts ++ [t]) []

/-- COPIED is written: the update count advances, the layer enters IDLE, its windows are refreshed, its space is free
(R389, R398, R411, R362). -/
def State.finishCopy (p : Nat) (r : LayerRec) (g : Staged) (s : State) : State :=
  let s := match s.slice p (s.layerStack p r) with
    | some a => s.ringWrite p a (g.off + 0x38) (leBytes 8 copiedWord)
    | none => s
  let x := s.layer p r.layer
  let s := s.setLayer p r.layer { x.toIdle with upd := g.upd, engine := s.layerStack p r }
  let s := s.bump (Reg.plnEcnt x.engine) 63 32 1
  r.written.foldl (fun s t => s.refreshWindows p t) s

/-- A staged layer is granted and is the oldest staged of its engine, which has no other work: it can be copied in (R363, R380,
R415). -/
def State.copyReady (s : State) (p l : Nat) : Bool :=
  let x := s.layer p l
  match x.staged, s.layerRec p l with
  | some g, some r =>
    decide (x.st = .staged) && x.granted && decide ((s.engine x.engine).work = 0) && (s.engine x.engine).scanned && (r.written.all fun t => !s.filling p t) &&
      s.comp.parts.all fun kp => kp.2.pln.layers.all fun kl => match kl.2.staged with
        | some h => decide (kl.2.engine ≠ x.engine) || decide (g.order ≤ h.order) ||
            (decide (kl.2.st ≠ .staged) && decide (kl.2.st ≠ .copying))
        | none => true
  | _, _ => false

/-- COMMIT is written and the copy-in begins (R398, R414). -/
def State.beginCopy (p l : Nat) (s : State) : State :=
  let x := s.layer p l
  match x.staged, s.layerRec p l with
  | some g, some r =>
    let s := match s.slice p (s.layerStack p r) with
      | some a => s.ringWrite p a (g.off + 0x30) (leBytes 8 commitWord)
      | none => s
    let s := s.setLayer p l { x with st := .copying, staged := some { g with committed := true } }
    let s := s.modPln p fun y => { y with recs := Tab.put y.recs r.w g.upd }
    s.setEngine x.engine { s.engine x.engine with part := p, layer := l, work := 5 }
  | _, _ => s

/-- Every layer that can be copied in now begins (R415). -/
def State.beginCopies (s : State) : State :=
  s.comp.parts.foldl (fun s kp => kp.2.pln.layers.foldl (fun s kl =>
    if s.copyReady kp.1 kl.1 then s.beginCopy kp.1 kl.1 else s) s) s

/-- A commit grant reaches a layer (R413, R527). -/
def State.grantLayer (p l : Nat) (s : State) : State :=
  let x := s.layer p l
  if x.st = .staged then (s.setLayer p l { x with granted := true }).beginCopies else s

/-- The engine of a layer's group (R380). -/
def State.homeEngine (s : State) (p l : Nat) : Nat := ((s.layerRec p l).map (s.layerStack p)).getD 0

/-- A discard order: the staged bytes are freed and nothing is written to the tensors (R398, R413). -/
def State.discardLayer (p l : Nat) (s : State) : State :=
  let x := s.layer p l
  if x.st = .ready ∨ x.st = .held ∨ x.st = .compute ∨ x.st = .staged then
    let s := if x.st = .compute then s.setEngine x.engine { s.engine x.engine with part := 0, layer := 0, work := 0 } else s
    (s.setLayer p l { x.toIdle with engine := s.homeEngine p l }).beginCopies
  else s

/-- The engine is free for work. -/
def State.freeEngine (e : Nat) (s : State) : State := s.setEngine e { s.engine e with part := 0, layer := 0, work := 0 }

/-- A committed copy-in is completed (R417). -/
def State.finishCommitted (p l : Nat) (x : Layer) (s : State) : State :=
  match x.staged, s.layerRec p l with
  | some g, some r => if g.committed then (s.copyIn p r g).finishCopy p r g else s
  | _, _ => s

/-- The engine that works on a layer of the partition is freed. -/
def State.freeOf (p l : Nat) (s : State) : State :=
  let e := (s.layer p l).engine
  if (s.engine e).part = p then s.freeEngine e else s

/-- A layer that is not frozen is IDLE with the count at zero (R417). -/
def State.idleLayer (p l : Nat) (s : State) : State :=
  let x := s.layer p l
  if x.st = .frozen then s else s.setLayer p l { x.toIdle with engine := s.homeEngine p l }

/-- A reset of the partition: copy-ins whose COMMIT is written are completed, every other staged copy is discarded, and
every layer that is not frozen is IDLE with the count at zero (R417). -/
def State.planeReset (p : Nat) (s : State) : State :=
  ((s.part p).pln.layers.foldl (fun s kl => ((s.finishCommitted p kl.1 kl.2).freeOf p kl.1).idleLayer p kl.1) s).beginCopies

/-- PLN_RESUMED (R416). -/
def State.resumed (p l action : Nat) (step : Word) (s : State) : State :=
  s.signal Ev.plnResumed p [p, l, step.toNat, action]

/-- The layers that engine `e` has in work, by partition and number, from the oldest record of its rings (R416). -/
def State.inRings (s : State) (e : Nat) : List (Nat × Nat) :=
  let ls := s.comp.parts.flatMap fun kp => kp.2.pln.layers.filterMap fun kl =>
    if kl.2.engine = e then some ((kl.2.staged.map fun g => g.order).getD 0, kp.1, kl.1) else none
  (ls.mergeSort fun a b => decide (a.1 ≤ b.1)).map (·.2)

/-- One layer of a ring scan: action 1 redoes a copy-in, action 2 discards a record, and the layer returns to READY (R416). -/
def State.scanLayer (p l : Nat) (s : State) : State :=
  let x := s.layer p l
  match x.staged, s.layerRec p l with
  | some g, some r =>
    if g.committed then ((s.copyIn p r g).finishCopy p r g).resumed p l 1 g.step
    else (s.setLayer p l { x with st := .ready, staged := none, granted := false }).resumed p l 2 g.step
  | none, _ => if x.st = .compute then (s.setLayer p l { x with st := .ready }).resumed p l 2 x.gradStep else s
  | _, _ => s

/-- The ring scan of engine `e` from its oldest record (R416). -/
def State.ringScan (e : Nat) (s : State) : State :=
  let s := (s.inRings e).foldl (fun s pl => s.scanLayer pl.1 pl.2) (s.freeEngine e)
  (s.setEngine e { s.engine e with scanned := true }).beginCopies

/-- An engine that works: it has its supply and is not fenced (R57, R421). -/
def State.engineLive (s : State) (e : Nat) : Bool := s.segUp e && !s.isFenced 4 e

/-- The first engine from `n` on, in segment order, that works (R421). -/
def State.engineFrom (s : State) (n : Nat) : Nat :=
  ((List.range 24).map fun i => (n + i) % 24).find? s.engineLive |>.getD n

end Sys2Proof.Machine
end

