-- ==== Sys2Proof/Machine/HostOps.lean ====
section
/-!
DEFINITION. Command records and completions, and the resets of a partition (spec 13_host R601 to R631, 09_memory R449).
-/

namespace Sys2Proof.Machine

/-! ### Fields of a command record (R602, R610) -/

/-- `n` bytes at offset `o` of the 64-byte record. -/
def Cmd.at (c : Cmd) (o n : Nat) : Nat := (c.bytes.toNat / 2 ^ (8 * o)) % 2 ^ (8 * n)

/-- Reserved FLAGS bits and the operand bytes that a command does not use are zero (R602); `used` gives the fields by offset
and size. -/
def Cmd.tidy (used : List (Nat × Nat)) (c : Cmd) : Bool :=
  decide (c.at 6 1 < 2) && decide (c.at 7 1 < 64) &&
    (List.range 44).all fun i => used.any (fun u => decide (u.1 ≤ 0x10 + i) && decide (0x10 + i < u.1 + u.2)) || c.at (0x10 + i) 1 == 0

/-- The completion statuses of R609. -/
inductive Status where
  | ok | retry | invalid | denied | failed | rejSeq | rejCrc | aborted | poisoned
deriving DecidableEq, Repr

def Status.code : Status → Nat
  | .ok => 0
  | .retry => 1
  | .invalid => 2
  | .denied => 3
  | .failed => 4
  | .rejSeq => 5
  | .rejCrc => 6
  | .aborted => 7
  | .poisoned => 8

/-- A completion entry with PHASE clear (R618). -/
def completionEntry (seq opcode status tag result tide : Nat) : List Byte :=
  leBytes 4 seq ++ leBytes 2 opcode ++ leBytes 1 status ++ leBytes 1 0 ++ leBytes 8 tag ++ leBytes 8 result ++ leBytes 8 tide

/-- The entry with its PHASE. -/
def withPhase (e : List Byte) (ph : Bool) : List Byte := e.take 7 ++ leBytes 1 (flag ph) ++ e.drop 8

/-- The device may write a completion entry now. -/
def State.canComplete (s : State) (f : Nat) : Bool := s.host.pcie.up && s.logRoom f .completion

/-- Write waiting completion entries while the log has room; an entry carries 1 + its MSI-X vector, or 0 (R617, R621). -/
def State.flushCompletions (f : Nat) : Nat → State → State
  | 0, s => s
  | n + 1, s =>
    match (s.func f).waiting with
    | [] => s
    | e :: r =>
      if s.canComplete f then
        let s := s.modFunc f fun x => { x with waiting := r }
        let s := s.logWrite f .completion (withPhase e.2)
        let s := if e.1 = 0 then s else s.sendMsix f (e.1 - 1)
        s.flushCompletions f n
      else s

/-- Give a completion entry to the log of function `f`. -/
def State.postEntry (f vec : Nat) (e : List Byte) (s : State) : State :=
  let s := s.modFunc f fun x => { x with waiting := x.waiting ++ [(vec, e)] }
  s.flushCompletions f (s.func f).waiting.length

/-- A command of function `f` completes (R604 to R609, R618, R621). (DEDUCED, log 65) -/
def State.complete (f : Nat) (c : Cmd) (st : Status) (result : Nat) (s : State) : State :=
  let s := s.modFunc f fun x => { x with inflight := x.inflight.filter fun d => decide (d.seq ≠ c.seq) }
  s.postEntry f (if c.irq then c.vector + 1 else 0)
    (completionEntry c.seq.toNat c.opcode.toNat st.code c.tag.toNat result s.now)

/-- The accepted command of function `f` with sequence number `seq` and opcode `op` that has not completed. -/
def State.command (s : State) (f : Nat) (seq : Dword) (op : Nat) : Option Cmd :=
  (s.func f).inflight.find? fun c => decide (c.seq = seq) && decide (c.opcode.toNat = op)

/-- The partition that a record names (R610): through a partition function, its own. -/
def cmdPart (f : Nat) (c : Cmd) : Nat := if f = 0 then c.at 0x10 1 else f
/-- PART is admissible from this function. -/
def cmdPartOk (f : Nat) (c : Cmd) : Bool := f == 0 || c.at 0x10 1 == 0 || c.at 0x10 1 == f

def State.partExists (s : State) (p : Nat) : Bool := (s.part p).own.present

/-! ### Frame state (R265, R267) -/

inductive FrameSt where
  | none | ready | checking | applying
deriving DecidableEq, Repr

def FrameSt.code : FrameSt → Nat
  | .none => 0
  | .ready => 1
  | .checking => 2
  | .applying => 3

def State.frameSt (s : State) (p : Nat) : Nat := s.field (Reg.prtFrameStat p) 23 20
def State.setFrameSt (p : Nat) (x : FrameSt) (s : State) : State := s.setField (Reg.prtFrameStat p) 23 20 x.code

/-! ### The ends of commands that a reset cuts short (R600, R628) -/

/-- Commands that a compute reset ends: flume copies, Frame commands, REMAP and GATE_RUN (R628). -/
def isCut (c : Cmd) : Bool := [0x0201, 0x0202, 0x0203, 0x0204, 0x0206].contains c.opcode.toNat

/-- Complete the cut commands of partition `p` with ABORTED, in the log of the function that issued each. -/
def State.abortCommands (p : Nat) (s : State) : State :=
  let s := funcs.foldl (fun s f =>
    ((s.func f).inflight.filter fun c => isCut c && decide (cmdPart f c = p)).foldl (fun s c => s.complete f c .aborted 0) s) s
  (List.range 32).foldl (fun s fl => s.setFlume fl ((s.flume fl).filter fun c => decide (c.part ≠ p))) s

/-- Every tile of a bay moves to RESET, with the answers of its parked requests (R152). -/
def State.resetBay (b : Nat) (s : State) : State :=
  let s := s.comp.tiles.foldl (fun s kt => if kt.1 / 12288 = b then
    kt.2.q.parked.foldl (fun s q => s.send (errAnswer q errReset)) s else s) s
  s.modBayTiles b fun _ x => if x.s.seq = .off then x else x.toReset

/-- The tiles of a bay that a fence of their own or of their router holds (R547). -/
def State.fencedIn (s : State) (b : Nat) : List PT :=
  ((s.comp.fences.filter fun e => (e.kind == 1 || e.kind == 2) && (tileOfId e.id).bay == b).map fun e => tileOfId e.id).filter
    fun t => s.tileFenced t

/-- Every tile of a bay that is in RESET moves on with `f`, unless a fence holds it. -/
def State.releaseBay (b : Nat) (f : Tile → Tile) (s : State) : State :=
  let held := (s.fencedIn b).map fun t => (t, s.tile t)
  if s.isFenced 6 b then s
  else
    let s := s.modBayTiles b fun _ x => if x.s.seq = .reset then f x else x
    held.foldl (fun s h => s.setTile h.1 h.2) s

/-- RESET to IDLE. (DESIGN CHOICE, log 24) -/
def Tile.leaveReset (now : Nat) (x : Tile) : Tile := { x with plumb := { x.plumb with idleAt := now }, s := { x.s with seq := .idle } }

/-- Every tile of a bay passes through RESET to IDLE unless a fence holds it. (DESIGN CHOICE, log 24) -/
def State.cycleBay (b : Nat) (s : State) : State := (s.resetBay b).releaseBay b (Tile.leaveReset s.now)

/-- Put instances of a reset: the sender's end with ABORTED, the receiver's open ones are discarded (R671). -/
def State.resetPuts (p : Nat) (s : State) : State :=
  s.modPart p fun x => { x with
    puts := Tab.mapVals Put.reset (fun _ e => if e.status = .held ∨ e.status = .sending then
      { e with status := .aborted, unsent := [] } else e) x.puts
    inbound := [] }

/-- The Frame is gone: generation 0 everywhere (R265, R219). -/
def State.dropFrame (p : Nat) (s : State) : State :=
  let s := (s.setField (Reg.prtFrameStat p) 63 48 0).setFrameSt p .none
  let s := (s.setField (Reg.prtFrameStat p) 47 32 0).setField (Reg.prtFrameStat p) 19 16 0
  let s := (s.baysOf p).foldl (fun s b => s.modBayTiles b fun _ x => { x with c := { x.c with gen := 0 } }) s
  let s := s.modRun p fun r => { r with weirs := [], floats := [], fnodes := [], windows := [], gateways := [] }
  let s := s.modCommit p fun _ => Commit.reset
  let s := s.modHeal p fun h => { h with st := .none, lost := [] }
  let s := s.modPart p fun x => { x with queued := [] }
  s.modOwn p fun o => { o with frame := none, copy := none, schedule := [], stopped := false }

/-- The queues of the partition's tiles are emptied: their entries have no tile to read them. -/
def State.regionsEmptied (p : Nat) (s : State) : State :=
  s.comp.tiles.foldl (fun s kt => if s.bayOwner (kt.1 / 12288) = p then s.emptyQueues p (PT.ofKey kt.1) else s) s

/-- A compute reset of partition `p` (R628). -/
def State.computeReset (p : Nat) (s : State) : State :=
  let s := (s.baysOf p).foldl (fun s b => s.resetBay b) s
  let s := (s.regionsEmptied p).planeReset p
  let s := s.setReg (Reg.plnStep0 p) 0
  let s := s.setReg (Reg.plnStep1 p) 0
  let s := s.setReg (Reg.plnStepstat p) 0
  let s := s.modPln p fun y => { y with latched := none, staleRaised := none, firstReadyAt := none }
  let s := (s.resetPuts p).abortCommands p
  s.dropFrame p

/-- A poisoned read by partition `p` resets its compute; the reset's event is raised once (R449, R450). -/
def State.poisonConsumed (p pa requester : Nat) (s : State) : State :=
  let s := (s.bump (Reg.prtHbmPoison p) 63 48 1).setField (Reg.prtHbmPoison p) 47 0 pa
  if (s.part p).own.poisoned then s
  else
    let place := (s.decodePa p pa).getD (0, 0)
    let s := s.signal Ev.hbmPoisonConsumed p [p, pa, place.1, place.2, requester]
    let s := s.modOwn p fun o => { o with poisoned := true }
    let s := s.computeReset p
    s.modOwn p fun o => { o with poisoned := false }

end Sys2Proof.Machine
end

