-- ==== Sys2Proof/Machine/StlOps.lean ====
section
/-!
DEFINITION. A Stesum port: packets as data flits, credits, replay, the link layer's states, port states (spec 14_links R637 to
R653, R659, R660, R665).
-/

namespace Sys2Proof

/-- VC of a data flit (R644). -/
def StlFlit.vc (f : StlFlit) : Nat := f.kind.toNat / 32
/-- SOP, EOP (R644). -/
def StlFlit.sop (f : StlFlit) : Bool := f.flags.getLsbD 0
def StlFlit.eop (f : StlFlit) : Bool := f.flags.getLsbD 1
def StlFlit.nak (f : StlFlit) : Bool := f.kind.getLsbD 4

end Sys2Proof

namespace Sys2Proof.Machine

/-- The 64 header bytes of a packet (R665). -/
def headerBytes (h : PutHeader) : List Byte :=
  leBytes 4 h.dst.toNat ++ leBytes 4 h.src.toNat ++ leBytes 1 h.dpart ++ leBytes 1 h.spart ++ leBytes 1 h.kind.toNat ++
  leBytes 1 h.entry ++ leBytes 4 h.chunk ++ leBytes 8 h.step.toNat ++ leBytes 8 h.dpa ++ leBytes 8 h.poison.toNat ++
  leBytes 2 h.len ++ leBytes 2 h.dfid.toNat ++ leBytes 4 h.total ++ leBytes 1 h.flags.toNat ++ leBytes 1 h.cls.toNat ++
  leBytes 14 0

/-- The header that begins a packet's first flit. -/
def headerOf (d : List Byte) : PutHeader :=
  { dst := BitVec.ofNat 32 (leAt d 0 4), src := BitVec.ofNat 32 (leAt d 4 4), dpart := leAt d 8 1 % 16, spart := leAt d 9 1 % 16
    kind := BitVec.ofNat 8 (leAt d 10 1), entry := leAt d 11 1, chunk := leAt d 12 4, step := BitVec.ofNat 64 (leAt d 16 8)
    dpa := leAt d 24 8, poison := BitVec.ofNat 64 (leAt d 32 8), len := leAt d 40 2, dfid := BitVec.ofNat 16 (leAt d 42 2)
    total := leAt d 44 4, flags := BitVec.ofNat 8 (leAt d 48 1), cls := BitVec.ofNat 8 (leAt d 49 1) }

/-- The VC of a packet: put data, responses, Joinery messages, by dateline class (R649). -/
def packetVc (h : PutHeader) : Nat :=
  let c := flag (h.cls.getLsbD 0)
  if h.kind = 0x01 then c else if h.kind = 0x02 then 2 + c else 4 + c

/-- A flit's payload bytes (R644). -/
def flitBytes : Nat := 232

/-- The receive buffer of a VC in flits (R649). -/
def vcBuffer (vc : Nat) : Nat := if vc < 2 then 2048 else 256

/-- The data flits of a packet, unnumbered; `n` bounds them (R644, R649). -/
def flitsFrom (vc : Nat) : Nat → Bool → List Byte → List StlFlit
  | 0, _, _ => []
  | n + 1, first, d =>
    let last := decide (d.length ≤ flitBytes)
    let f : StlFlit := {
      seq := 0, ack := 0, kind := BitVec.ofNat 8 (32 * vc + 1), cvc := 0, ccnt := 0, stop := 0
      flags := BitVec.ofNat 8 (flag first + 2 * flag last), len := BitVec.ofNat 16 (min d.length flitBytes)
      payload := d.take flitBytes, crcGood := true }
    f :: (if last then [] else flitsFrom vc n false (d.drop flitBytes))

def packetFlits (h : PutHeader) (d : List Byte) : List StlFlit :=
  let all := headerBytes h ++ d
  flitsFrom (packetVc h) (all.length / flitBytes + 1) true all

/-! ### Receive buffers (R649, R650) -/

/-- The free flits of a VC's receive buffer: packets leave it when they are whole. (DEDUCED, log 75) -/
def StlPort.free (x : StlPort) (vc : Nat) : Nat := vcBuffer vc - Tab.get 0 x.held vc

/-- The STOP bits in ONOFF and RESYNC: set at 160 free flits or fewer, cleared at 224 or more (R650). -/
def StlPort.restop (x : StlPort) : StlPort :=
  { x with stopOut := if x.ll = .credit then 0 else (List.range 7).foldl (fun w v =>
      if x.free v ≤ 160 then w ||| BitVec.ofNat 8 (2 ^ v) else if 224 ≤ x.free v then w &&& ~~~(BitVec.ofNat 8 (2 ^ v)) else w) x.stopOut }

/-- An accepted flit joins the buffer of its VC; the flits of a packet that is whole leave it, and their credits are owed
(R645, R650). (DEDUCED, log 75) -/
def StlPort.store (f : StlFlit) (x : StlPort) : StlPort :=
  if f.len = 0 then x
  else
    let n := Tab.get 0 x.held f.vc + 1
    if f.eop then { x with held := Tab.set 0 x.held f.vc 0, owed := Tab.set 0 x.owed f.vc (Tab.get 0 x.owed f.vc + n) }.restop
    else { x with held := Tab.set 0 x.held f.vc n }.restop

/-! ### Sending (R645, R646, R650) -/

/-- The replay buffer of 768 KiB in flits (R646). -/
def replayFlits : Nat := 3072

/-- The lowest VC to which credits are owed. -/
def StlPort.owedVc (x : StlPort) : Option Nat := (List.range 8).find? fun v => decide (Tab.get 0 x.owed v ≠ 0)

/-- A swap is in progress: neither end sends data flits (R640). -/
def StlPort.swapping (x : StlPort) : Bool := x.rx.swap.isSome || x.tx.swap.isSome

/-- A data flit on VC `vc` may leave now (R640, R646, R650). -/
def StlPort.maySend (x : StlPort) (vc : Nat) : Bool :=
  decide (x.st = .up) && !x.swapping && decide (x.replay.length < replayFlits) &&
    (if x.ll = .credit then decide (Tab.get 0 x.credits vc ≠ 0) else !x.stop.getLsbD vc)

/-- A flit takes the next SEQ, the acknowledgement, the NAK, and the credits owed to one VC, and leaves (R644 to R646). -/
def StlPort.stamp (now : Nat) (x : StlPort) (f : StlFlit) : StlFlit × StlPort :=
  let v := x.owedVc.getD 0
  let n := min (Tab.get 0 x.owed v) 2048
  let g : StlFlit := { f with
    seq := x.txSeq, ack := x.rxSeq, kind := f.kind ||| (if x.nakDue then 0x10 else 0), cvc := BitVec.ofNat 8 v
    ccnt := BitVec.ofNat 16 n, stop := x.stopOut }
  let used := decide (f.len ≠ 0) && decide (x.ll = .credit)
  (g, { x with
    txSeq := x.txSeq + 1, replay := x.replay ++ [g], nakDue := false, owed := Tab.set 0 x.owed v (Tab.get 0 x.owed v - n)
    lastSent := now, credits := if used then Tab.set 0 x.credits f.vc (Tab.get 0 x.credits f.vc - 1) else x.credits })

def State.sendDataFlit (p : Nat) (f : StlFlit) (s : State) : State :=
  let r := (s.stlp p).stamp s.now f
  (s.setStlp p r.2).emitOut (.stlFlit p r.1)

/-- Send what the flow control lets go: within a VC in order; the flits of a VC wait behind the first that cannot go. The
result is what still waits. -/
def State.pumpFlits (p : Nat) : List StlFlit → List Nat → State → List StlFlit × State
  | [], _, s => ([], s)
  | f :: r, shut, s =>
    if shut.contains f.vc = false ∧ (s.stlp p).maySend f.vc then (s.sendDataFlit p f).pumpFlits p r shut
    else
      let q := s.pumpFlits p r (f.vc :: shut)
      (f :: q.1, q.2)

/-- Send what can be sent and keep the rest waiting; no rate holds a flit back. (DESIGN CHOICE, log 81) -/
def State.pump (p : Nat) (s : State) : State :=
  let r := s.pumpFlits p (s.stlp p).sendq []
  r.2.modStlp p fun x => { x with sendq := r.1 }

/-- Flits join the port's waiting ones, and what can be sent is sent. -/
def State.sendFlits (p : Nat) (fs : List StlFlit) (s : State) : State :=
  (s.modStlp p fun x => { x with sendq := x.sendq ++ fs }).pump p

def State.sendPacket (p : Nat) (h : PutHeader) (d : List Byte) (s : State) : State := s.sendFlits p (packetFlits h d)

/-- A data flit with LEN 0 (R645). (DEDUCED, log 75) -/
def emptyFlit : StlFlit :=
  { seq := 0, ack := 0, kind := 1, cvc := 0, ccnt := 0, stop := 0, flags := 0, len := 0, payload := [], crcGood := true }

/-- A flit of another kind: it is not numbered and not replayed (R645). -/
def StlPort.control (x : StlPort) (kind : Nat) (payload : List Byte) : StlFlit :=
  { seq := x.txSeq, ack := x.rxSeq, kind := BitVec.ofNat 8 (6 * 32 + flag x.nakDue * 16 + kind), cvc := 0, ccnt := 0, stop := x.stopOut
    flags := 0, len := BitVec.ofNat 16 payload.length, payload := payload, crcGood := true }

def State.sendControl (p kind : Nat) (payload : List Byte) (s : State) : State :=
  let x := s.stlp p
  (s.setStlp p { x with nakDue := false }).emitOut (.stlFlit p (x.control kind payload))

/-- Replay every unacknowledged flit (R646). -/
def State.replayPort (p : Nat) (s : State) : State :=
  let x := s.stlp p
  if x.replay = [] ∨ x.swapping ∨ x.st ≠ .up then s
  else
    let s := x.replay.foldl (fun s f => s.emitOut (.stlFlit p f)) s
    (s.setStlp p { x with lastSent := s.now }).bump (Reg.stlLinkcnt p) 63 32 x.replay.length

/-! ### Link-layer states (R650) -/

/-- CREDIT to ONOFF by credits or silence, counted. -/
def State.llOnoff (p : Nat) (s : State) : State :=
  (s.modStlp p fun x => { x with ll := .onoff, llAt := s.now, resync := [] }.restop).bump (Reg.stlLinkcnt p) 15 0 1

/-- ONOFF because a swap begins, or because RESYNC did not complete. -/
def State.llFall (p : Nat) (s : State) : State :=
  s.modStlp p fun x => { x with ll := .onoff, llAt := s.now, resync := [] }.restop

/-- RESYNC begins: a resync flit for each of VCs 0 to 6 gives its free buffers. -/
def State.llResync (p : Nat) (s : State) : State :=
  let s := s.modStlp p fun x => { x with ll := .resync, llAt := s.now, resync := [], owed := [] }
  (List.range 7).foldl (fun s v => s.sendControl p 4 (leBytes 1 v ++ leBytes 2 ((s.stlp p).free v))) s

/-! ### Port states (R651 to R653, R660) -/

/-- The full credits of a trained port. -/
def fullCredits : Tab Nat := (List.range 7).map fun v => (v, vcBuffer v)

/-- The port leaves UP: what was not acknowledged waits to be sent again, ahead of what was not sent. -/
def StlPort.leaveUp (x : StlPort) : StlPort :=
  { x with again := x.again ++ x.replay.filter fun f => decide (f.len ≠ 0), replay := [], tx1 := none, echo := none
           rx := { x.rx with swap := none }, tx := { x.tx with swap := none } }

/-- A training begins; the wait after a failure doubles for a port that was DOWN (R651, R652). -/
def State.startTraining (p : Nat) (s : State) : State :=
  s.modStlp p fun x => { x.leaveUp with
    st := .training, backoff := if x.st = .down then min 64 (2 * x.backoff) else 1 }

/-- RESENT is set in the header of a packet (R660). -/
def StlFlit.resent (f : StlFlit) : StlFlit :=
  if f.sop then { f with payload := f.payload.take 48 ++ (f.payload.getD 48 0 ||| 1) :: f.payload.drop 49 } else f

end Sys2Proof.Machine
end

