-- ==== Sys2Proof/Machine/Puts.lean ====
section
/-!
DEFINITION. Routing in the torus, puts on the sending side (spec 14_links R654 to R660, R662 to R672).
-/

namespace Sys2Proof.Machine

/-! ### Module addresses and routing (R654 to R657) -/

def addrSys (a : Dword) : Nat := a.toNat / 2 ^ 20
def addrX (a : Dword) : Nat := a.toNat / 2 ^ 14 % 64
def addrY (a : Dword) : Nat := a.toNat / 2 ^ 10 % 16
def addrZ (a : Dword) : Nat := a.toNat / 2 ^ 6 % 16

/-- This module's address. -/
def State.address (s : State) : Dword := BitVec.ofNat 32 (s.field Reg.stlAddr 31 0)
/-- The ring sizes. -/
def State.ringX (s : State) : Nat := s.field Reg.stlTorus 21 16
def State.ringY (s : State) : Nat := s.field Reg.stlTorus 12 8
def State.ringZ (s : State) : Nat := s.field Reg.stlTorus 4 0

/-- The way from coordinate `a` to `b` in a ring of `n`: none when there, true for the positive direction, which a tie
takes (R657). -/
def ringWay (a b n : Nat) : Option Bool :=
  if a = b then none else some (decide (2 * ((b + n - a) % n) ≤ n))

/-- The role of the port a packet for `dst` leaves by: X, then Y, then Z (R655, R657); none at the destination. -/
def State.roleTo (s : State) (dst : Dword) : Option Nat :=
  let me := s.address
  let at_ := fun (d : Nat) (w : Bool) => some (2 * d + flag (!w))
  match ringWay (addrX me) (addrX dst) s.ringX with
  | some w => at_ 0 w
  | none =>
    match ringWay (addrY me) (addrY dst) s.ringY with
    | some w => at_ 1 w
    | none =>
      match ringWay (addrZ me) (addrZ dst) s.ringZ with
      | some w => at_ 2 w
      | none => none

/-- The link from this module by a role is the dateline of its dimension (R657). -/
def State.atDateline (s : State) (role : Nat) : Bool :=
  let me := s.address
  let c := if role / 2 = 0 then addrX me else if role / 2 = 1 then addrY me else addrZ me
  let n := if role / 2 = 0 then s.ringX else if role / 2 = 1 then s.ringY else s.ringZ
  if role % 2 = 0 then c + 1 == n else c == 0

/-- The role of port `p`: 6 reads as 7 (R678). -/
def State.portRole (s : State) (p : Nat) : Nat := let r := s.field (Reg.stlPcfg p) 2 0; if r = 6 then 7 else r
/-- The UP ports of a role, lowest first. -/
def State.upPorts (s : State) (role : Nat) : List Nat :=
  (List.range 32).filter fun p => decide ((s.stlp p).st = .up) && decide (s.portRole p = role)
/-- The ports of a role whatever their state; a dropped packet is counted at the lowest. (DEDUCED, log 77) -/
def State.portOfRole (s : State) (role : Nat) : Nat :=
  ((List.range 32).find? fun p => decide (s.portRole p = role)).getD 0

/-- CLASS of a packet that leaves by a role: the class it has in the dimension, 1 from the dateline on (R657, R665). -/
def State.classOut (s : State) (role : Nat) (cls : BitVec 8) : BitVec 8 :=
  let dim := role / 2
  let same := decide (cls.toNat / 2 % 4 = dim)
  let one := (same && cls.getLsbD 0) || s.atDateline role
  BitVec.ofNat 8 (flag one + 2 * dim)

/-- The packet leaves by the `i`-th of the UP ports of its role, or is dropped and counted (R657, R659): true when sent.
(DEDUCED, log 77) -/
def State.sendTorus (i : Nat) (h : PutHeader) (d : List Byte) (s : State) : Bool × State :=
  match s.roleTo h.dst with
  | none => (true, s.emitOut (.stlPacket h d))
  | some role =>
    let ps := s.upPorts role
    if ps = [] then (false, s.bump (Reg.stlPktcnt (s.portOfRole role)) 31 0 1)
    else (true, s.sendPacket (ps.getD (i % ps.length) 0) { h with cls := s.classOut role h.cls } d)

/-! ### Put entries (R662 to R664, R671, R680) -/

def State.put (s : State) (p e : Nat) : Put := Tab.get Put.reset (s.part p).puts e
def State.setPut (p e : Nat) (x : Put) (s : State) : State :=
  s.modPart p fun y => { y with puts := Tab.set Put.reset y.puts e x }

/-- LEN as it acts: 0 as 1, above 2^30 as 2^30 (R680). -/
def Put.bytes (x : Put) : Nat := if x.len.toNat = 0 then 1 else min x.len.toNat (2 ^ 30)
/-- An instance is in progress. -/
def Put.active (x : Put) : Bool := decide (x.status = .held) || decide (x.status = .sending)

/-- The header of chunk `i` of an instance (R665). -/
def State.chunkHeader (s : State) (p e i : Nat) (bad : Word) (n : Nat) : PutHeader :=
  let x := s.put p e
  { dst := x.dst, src := s.address, dpart := x.dpart.toNat, spart := p, kind := 0x01, entry := e, chunk := i, step := x.step,
    dpa := x.dpa.toNat + 4096 * i, poison := bad, len := n, dfid := x.dfid, total := (x.bytes + 4095) / 4096,
    flags := BitVec.ofNat 8 (2 * flag x.eager), cls := 0 }

/-- The POISON mask of a chunk whose bytes begin at partition address `a`: every 64-byte part of it that a poisoned block of
the sending range reaches (R665, R670). -/
def poisonMask (a n : Nat) (bad : List Nat) : Word :=
  bad.foldl (fun w b =>
    let lo := (max b a - a) / 64
    let hi := (min (b + 64) (a + n) - a - 1) / 64
    withField (withField w lo lo 1) hi hi 1) 0

/-- Send chunk `i`; without a port to send on, the instance ends with NO_ROUTE (R659, R666). (DEDUCED, log 78) -/
def State.sendChunk (p e i : Nat) (s : State) : State :=
  let x := s.put p e
  if x.status ≠ .sending then s
  else
    let a := x.spa.toNat + 4096 * i
    let n := min 4096 (x.bytes - 4096 * i)
    let r := s.readRange p a n
    let q := r.2.sendTorus i (s.chunkHeader p e i (poisonMask a n r.1.bad) n) r.1.data
    if q.1 then q.2 else q.2.setPut p e { x with status := .noRoute }

/-- Send a whole instance, chunk by chunk; in a halt no chunk is sent, and all wait (R756). -/
def State.sendPut (p e : Nat) (s : State) : State :=
  let x := s.put p e
  let all := List.range ((x.bytes + 4095) / 4096)
  if s.phys.power.halted then s.setPut p e { x with status := .sending, startAt := s.now, busy := [], unsent := all }
  else
    let s := s.setPut p e { x with status := .sending, startAt := s.now, busy := [], unsent := [] }
    all.foldl (fun s i => s.sendChunk p e i) s

/-- The instances that were triggered in a halt are sent after it (R756, R759). -/
def State.sendWaiting (s : State) : State :=
  s.comp.parts.foldl (fun s kx => kx.2.puts.foldl (fun s ke =>
    if ke.2.status = .sending ∧ ke.2.unsent ≠ [] then s.sendPut kx.1 ke.1 else s) s) s

/-- A trigger of entry `e` (R663, R664). -/
def State.beginPut (p e : Nat) (s : State) : State :=
  let x := s.put p e
  if x.active then s.bump (Reg.prtStlCnt p) 63 48 1
  else if s.assigned p x.spa.toNat x.bytes = false then s.setPut p e { x with step := s.stepNo p, status := .window, eager := false }
  else
    let s := s.setPut p e { x with step := s.stepNo p, status := .held, eager := !x.hold, startAt := s.now, busy := [], unsent := [] }
    if x.hold ∧ (s.frameOf p).stepWeir ≠ 0xFFFF then s else s.sendPut p e

/-- A release of weir group `wid` triggers the armed entries that name it (R663). -/
def State.triggerPuts (p wid : Nat) (s : State) : State :=
  (s.part p).puts.foldl (fun s kp =>
    if kp.2.armed ∧ kp.2.wen ∧ kp.2.wid.toNat = wid then s.beginPut p kp.1 else s) s

/-- A commit of step `step` sends the instances held for it (R664). -/
def State.releasePuts (p : Nat) (step : Word) (s : State) : State :=
  (s.part p).puts.foldl (fun s kp => if kp.2.status = .held ∧ kp.2.step = step then s.sendPut p kp.1 else s) s

/-- The purge of a dry fit or a heal discards the held instances of the suspect step (R664). -/
def State.discardHeldPuts (p : Nat) (s : State) : State :=
  s.modPart p fun x => { x with puts := Tab.mapVals Put.reset (fun _ e =>
    if e.status = .held then { e with status := .idle } else e) x.puts }

/-- An instance of step `step` was sent eagerly when its dry fit ends with outcome differ (R672). -/
def State.taint (p : Nat) (step : Word) (s : State) : State :=
  if (s.part p).puts.any fun kp => kp.2.eager && decide (kp.2.step = step) &&
      decide (kp.2.status ≠ .idle) && decide (kp.2.status ≠ .held) then
    (s.setField (Reg.prtStlStat p) 31 31 1).setField (Reg.prtStlStat p) 63 32 (step.toNat % 2 ^ 32)
  else s

end Sys2Proof.Machine
end

