-- ==== Sys2Proof/Machine/Retire.lean ====
section
/-!
DEFINITION. How a micro-op ends: it retires, after the end-of-iteration checks of the loops that end with it, it waits, it is
illegal, or it finds a flush token (spec 03_tile R105, R124 to R126, R132 to R135, R151, R154, R159; 04_dataflow R174 to
R178, R182; 11_detection R507).
-/

namespace Sys2Proof.Machine

/-! ### Signatures (R507) -/

/-- The signature register after 4 bytes of `v` (R507). -/
def sigStep (c : Dword) (v : Nat) : Dword := BitVec.ofNat 32 (crc32cFrom c.toNat (leBytes 4 v))

/-- Both signatures after a retirement: PC, opcode, token kind and the mask of levels ended (R507). -/
def TileSeq.sign (pc op kind ended : Nat) (x : TileSeq) : TileSeq :=
  let v := pc % 512 + 512 * op + 2 ^ 15 * kind + 2 ^ 18 * ended
  { x with sigSeq := sigStep x.sigSeq v, sigChk := sigStep x.sigChk v }

/-- The opcode of a micro-op (R131). -/
def uopCode (u : Uop) : Nat := (encodeUop u).toNat / 2 ^ 58

/-- The micro-op at a tile's PC, as IM holds it. -/
def Tile.uopAt (x : Tile) : Option Uop := decodeUop (BitVec.ofNat 64 (ofLe (memRead x.mem (0xC000 + 8 * x.s.pc.toNat) 8)))
/-- Its opcode. -/
def Tile.opAt (x : Tile) : Nat :=
  match x.uopAt with
  | some u => uopCode u
  | none => 0

/-! ### End-of-iteration checks (R132 to R135, R174, R175) -/

/-- What the checks have found so far: the token kind popped (7 for none), the queues popped, the entries looked at (queue and
place), and the levels ended. -/
structure Ends where
  kind : Nat
  pops : List Nat
  seen : List (Nat × Nat)
  ended : Nat
deriving DecidableEq, Repr

/-- How the end-of-iteration checks at an index come out: the check of the innermost loop left waits on queue q, or finds a
flush token there, or execution goes on. -/
inductive LoopEnd where
  | wait (q next : Nat) (loops : List LoopReg) (e : Ends)
  | flush (q : Nat) (e : Ends)
  | go (next : Nat) (loops : List LoopReg) (e : Ends)
deriving DecidableEq, Repr

/-- Close iterations at index `next` (R132, R133, R135, R174, R175); each pass ends one loop. An iteration ends when control
passes its loop's last micro-op. (DEDUCED, log 18) -/
def loopEnd (x : Tile) : List LoopReg → Nat → Ends → LoopEnd
  | [], next, e => .go next [] e
  | l :: ls, next, e =>
    if next ≤ l.last then .go next (l :: ls) e
    else if l.lvl = 4 then loopEnd x ls l.cnt e
    else
      let again := fun (e : Ends) =>
        if l.cnt ≤ 1 then loopEnd x ls next { e with ended := e.ended ||| 2 ^ l.lvl }
        else .go l.first ({ l with cnt := l.cnt - 1 } :: ls) e
      if l.unt then
        let k := e.pops.count l.uq
        match ((x.queue l.uq).visible.drop k).head? with
        | none => .wait l.uq next (l :: ls) e
        | some t =>
          let e := { e with seen := e.seen ++ [(l.uq, k)] }
          if t.tok ∧ t.kind = 4 then .flush l.uq e
          else if t.tok ∧ t.kind = l.utk then
            loopEnd x ls next { e with kind := t.kind, pops := e.pops ++ [l.uq], ended := e.ended ||| 2 ^ l.lvl }
          else again e
      else again e

/-- What the checks have found. -/
def LoopEnd.found : LoopEnd → Ends
  | .wait _ _ _ e => e
  | .flush _ e => e
  | .go _ _ e => e

/-- The words under the code of the entries that the checks looked at. -/
def Tile.seenWords (x : Tile) (e : Ends) (w : CodeWord) : Bool := e.seen.any fun qi => ((x.queue qi.1).wordsAt qi.1 qi.2).contains w

/-! ### Waiting and stopping (R105, R151, R154, R159) -/

/-- BLOCKED with BLK and BLKARG (R105, R151, R160). -/
def State.blocked (t : PT) (blk arg : Nat) (s : State) : State :=
  (s.modTile t fun x => { x with s := { x.s with seq := .blocked, blk := blk, blkarg := arg } }).restall t

/-- BLOCKED on the tags of slots: the wait takes its place in the order of R119 when it begins. -/
def State.blockedOn (t : PT) (blk an : Nat) (slots : List Nat) (s : State) : State :=
  let x := s.tile t
  let full := decide (blk = 2)
  let new : Waiter := { slots := slots, full := full, ahead := x.q.parked.length }
  let w := match x.q.waiting with
    | some w => if w.slots = slots ∧ w.full = full then w else new
    | none => new
  (s.modTile t fun x => { x with q := { x.q with waiting := some w } }).blocked t blk an

/-- A tile enters FAULT (R151). -/
def State.tileFault (t : PT) (fcause : Nat) (s : State) : State :=
  let s := s.modTile t fun x => { x with
    s := { x.s with seq := .fault, fcause := fcause, blk := 0, blkarg := 0 }
    q := { x.q with reissues := [], waiting := none } }
  s.restall t
/-- FAULT for an illegal micro-op, with TILE_ILLEGAL (R154). -/
def State.tileIllegal (t : PT) (fcause : Nat) (s : State) : State :=
  let x := s.tile t
  (s.tileFault t fcause).signal Ev.tileIllegal (s.ptPart t) (tileOps (s.hosted t) t ++ [x.s.pc.toNat, fcause])
/-- The sequencer needed an uncorrectable word: FAULT, and what follows from the word (R159). -/
def State.tileUncorr (t : PT) (w : CodeWord) (s : State) : State := (s.tileFault t 5).sramUncorr t w

/-! ### Flush (R178) -/

/-- The invocation ends (R136, R178). -/
def Tile.toIdle (now : Nat) (x : Tile) : Tile :=
  { x with plumb := { x.plumb with idleAt := now }
           r := { x.r with loops := [] }
           s := { x.s with seq := .idle, inv := false, blk := 0, blkarg := 0, check := none, arrived := false, done := none }
           q := { x.q with waiting := none, got := none } }

/-- A flush token in queue `q` behind `n` entries: they are popped, the loops and the pack register are emptied, and the
invocation ends or goes on at the handler (R178). (DEDUCED, log 19) -/
def State.flushAt (t : PT) (q n : Nat) (s : State) : State :=
  let s := s.popN t q n
  match ((s.tile t).queue q).visible.head? with
  | none => s
  | some e =>
    let s := s.popQ t q
    let s := s.modTile t fun x => { x with
      r := { x.r with loops := [], pack := { bits := 0, count := 0 } }, s := { x.s with check := none } }
    let s := if e.val / 2 ^ 15 = 1 then s.modTile t (Tile.toIdle s.now)
      else s.modTile t fun x => { x with
        s := { x.s with seq := .run, pc := BitVec.ofNat 10 (e.val % 512), blk := 0, blkarg := 0, arrived := false, done := none }
        q := { x.q with waiting := none, got := none } }
    s.restall t

/-- A micro-op that finds a flush token retires with it, and every active loop ends (R178, R507). (DEDUCED, log 19) -/
def State.retireFlushed (t : PT) (op q n : Nat) (s : State) : State :=
  let all := (s.tile t).r.loops.foldl (fun m l => if l.lvl < 4 then m ||| 2 ^ l.lvl else m) 0
  (s.modTile t fun x => let x := x.progressBy 1; { x with s := x.s.sign x.s.pc.toNat op 4 all }).flushAt t q n

/-! ### Retiring (R151, R175, R182, R507) -/

/-- A tile in HALTED or PLUMB stays there while a micro-op of its retires (R151): what it would do in RUN is what it does when
it runs again. -/
def State.keepStill (t : PT) (f : State → State) (s : State) : State :=
  let q := (s.tile t).s.seq
  if q = .halted ∨ q = .plumb then
    let s := f (s.modTile t fun x => { x with s := { x.s with seq := .run } })
    let s := s.modTile t fun x =>
      if x.s.seq = .run ∨ x.s.seq = .blocked ∨ x.s.seq = .idle then
        { x with s := { x.s with seq := q, inv := decide (x.s.seq ≠ .idle), blk := 0, blkarg := 0 } }
      else x
    s.restall t
  else f s

/-- The checks of a retiring micro-op have come out: it retires, or waits in the check of the innermost loop left. -/
def State.retireBy (t : PT) (op : Nat) (r : LoopEnd) (s : State) : State :=
  let s := r.found.pops.foldl (fun s q => s.popQ t q) s
  match r with
  | .wait q next ls e =>
    (s.modTile t fun x => { x with r := { x.r with loops := ls }
                                   s := { x.s with check := some { next := next, kind := e.kind, ended := e.ended } } }).blocked t 1 q
  | .flush q _ => s.retireFlushed t op q 0
  | .go nx ls e =>
    let s := s.modTile t fun x =>
      let x := x.progressBy 1
      let y := x.s.sign x.s.pc.toNat op e.kind e.ended
      let seq := if y.seq = .blocked then .run else y.seq
      { x with r := { x.r with loops := ls }
               s := { y with seq := seq, pc := BitVec.ofNat 10 nx, blk := 0, blkarg := 0, check := none, arrived := false,
                             done := none }
               q := { x.q with waiting := none, got := none } }
    s.restall t

/-- A micro-op retires: the progress counter and the signatures advance, and the sequencer goes on at `c.next`, after the
end-of-iteration checks there; while one of them waits the micro-op is not retired (R175, R182, R507). -/
def State.retireAt (t : PT) (op : Nat) (c : Check) (s : State) : State :=
  let x := s.tile t
  let r := loopEnd x x.r.loops c.next { kind := c.kind, pops := [], seen := [], ended := c.ended }
  match x.checked (x.seenWords r.found) with
  | .error w => s.tileUncorr t w
  | .ok x' => ((s.setTile t x').keepStill t (State.retireBy t op r)).ceHigh t x

def State.retire (t : PT) (op next kind : Nat) (s : State) : State := s.retireAt t op { next := next, kind := kind, ended := 0 }

/-- A memory write of the tile has not been answered. -/
def Tile.writing (x : Tile) : Bool := x.q.out.any fun p => p.op == opWrRaw || p.op == opWrTag

/-- A micro-op has had its effect and execution goes on at `next`: it retires, or, when it has written through a memory-kind
port, waits BLOCKED for the response (R124 to R126). (DEDUCED, log 121) -/
def State.finish (t : PT) (op next kind : Nat) (s : State) : State :=
  match (s.tile t).s.done with
  | some d =>
    let d := { d with op := op, next := next, kind := kind }
    (s.modTile t fun x => { x with s := { x.s with done := some d } }).keepStill t fun s => s.blocked t 5 d.port
  | none => s.retire t op next kind

/-- A micro-op that waits for the response of its write retires once it has come; one that was refused or lost its response
stays blocked (R125). -/
def State.settleDone (t : PT) (s : State) : State :=
  let x := s.tile t
  match x.s.done with
  | none => s
  | some d =>
    if x.writing || x.s.lost then (if x.s.seq = .run then s.blocked t 5 d.port else s)
    else (s.modTile t fun x => { x with s := { x.s with done := none } }).retire t d.op d.next d.kind

/-- Perform the end-of-iteration checks that a retiring micro-op waits for (R175). -/
def State.settleCheck (t : PT) (s : State) : State :=
  match (s.tile t).s.check with
  | none => s
  | some c => s.retireAt t (s.tile t).opAt c

/-- A micro-op retires and execution goes on at the next index. -/
def State.next (t : PT) (op : Nat) (s : State) : State := s.finish t op ((s.tile t).s.pc.toNat + 1) 7

/-- How a micro-op that does not complete leaves the tile (R105, R151, R154, R159, R178, R295). -/
def State.stopUop (t : PT) (e : Stop) (s : State) : State :=
  match e with
  | .block blk arg => s.blocked t blk arg
  | .tags blk an slots => s.blockedOn t blk an slots
  | .illegal c => s.tileIllegal t c
  | .uncorr w => s.tileUncorr t w
  | .flush q n => s.retireFlushed t (s.tile t).opAt q (n - ((s.tile t).queue q).popped)
  | .scarf l blk arg => (s.blocked t blk arg).scarfMiss t l

end Sys2Proof.Machine
end

