-- ==== Sys2Proof/Machine/Weirs.lean ====
section
/-!
DEFINITION. Weirs: the tree of a group, arrivals and releases, the comparison of signatures and the hold of STEP_WEIR
(spec 06_fabric R308 to R315, 11_detection R508 to R510, R523, R526, 14_links R663).
-/

namespace Sys2Proof.Machine

/-! ### Release -/

/-- The member at tile `t` retires its WEIR (R309 step 4). -/
def State.retireWeir (t : PT) (wid : Nat) (s : State) : State :=
  let x := s.tile t
  if x.s.arrived ∧ x.uopAt = some (.weir (BitVec.ofNat 12 wid)) then s.retire t 0x04 (x.s.pc.toNat + 1) 7 else s

/-- The release has come to member `l`: it passes it on and retires its own WEIR (R311). -/
def State.releaseAt (p wid : Nat) (l : LT) (s : State) : State :=
  if (weirOf p wid s).behind.contains l.key then (s.passRelease p wid l).retireWeir (s.runsAt l) wid else s

/-- The root releases the instance: the phase toggles, the entries that the release triggers begin, and the release goes
down the tree (R311, R312, R315, R663). -/
def State.releaseWeir (p wid : Nat) (s : State) : State :=
  let f := s.frameOf p
  match f.weir wid, (f.weir wid).bind f.weirRoot with
  | some w, some root =>
    let x := weirOf p wid s
    let s := s.setWeir p wid { x with
      phase := !x.phase, behind := w.members.map LT.key, arrived := [], firstAt := 0, heldAt := none, timedOut := false }
    let s := (s.bumpWrap (Reg.prtWeirStat p) 63 32 1).setField (Reg.prtWeirStat p) 27 16 wid
    let s := s.triggerPuts p wid
    s.releaseAt p wid root
  | _, _ => s

/-! ### Arrival -/

/-- Every arrival that member `l` waits for has come: its own and each child's (R311). -/
def State.weirFull (s : State) (p wid : Nat) (l : LT) : Bool :=
  let x := weirOf p wid s
  x.arrived.contains (l.key, l.key) && (s.weirKids (s.runsAt l) wid).all fun c => x.arrived.contains (l.key, c.key)

/-- Member `l` forwards its arrival when it can; at the root the instance is complete: it is released, or held when it is
the partition's STEP_WEIR (R311, R526). -/
def State.weirForward (p wid : Nat) (l : LT) (s : State) : State :=
  let t := s.runsAt l
  if s.weirFull p wid l = false then s
  else
    match (s.weirRow t wid).bind fun w => w.parent with
    | some m => s.sendTo t m (weirPacket opWeirArr p wid (weirOf p wid s).phase t)
    | none =>
      if (s.frameOf p).stepWeir = wid then
        let s := s.setWeir p wid { weirOf p wid s with heldAt := some s.now }
        s.modCommit p fun c => { c with settled := false }
      else s.releaseWeir p wid

/-- An arrival from member `c` (its own when `c = l`) comes to node `l` in a phase; one of the next phase at a node that
has not released the current one is held there (R312); one that a purge has withdrawn counts no more (R313). -/
def State.weirArrive (p wid : Nat) (l c : LT) (phase : Bool) (s : State) : State :=
  let x := weirOf p wid s
  let e := (l.key, c.key)
  if phase != x.phase then s
  else if l ≠ c ∧ x.withdrawn.contains e then s.setWeir p wid { x with withdrawn := x.withdrawn.erase e }
  else if x.behind.contains l.key then
    if x.early.contains e then s else s.setWeir p wid { x with early := x.early ++ [e] }
  else if x.arrived.contains e then s
  else
    let first := if x.arrived = [] then s.now else x.firstAt
    let s := s.setWeir p wid { x with arrived := x.arrived ++ [e], firstAt := first }
    s.weirForward p wid l

/-- What the Sill controller does as member `l` arrives: the gap since its last arrival (R510), and the signatures
compared, at weirs with SIG set and at STEP_WEIR (R508, R315). -/
def State.weirCapture (p wid : Nat) (w : WeirRec) (l : LT) (t : PT) (s : State) : State :=
  let c := (s.part p).commit
  let s :=
    if w.sig then
      let last := Tab.get 0 c.sigAt l.key
      let gap := decide (last ≠ 0) && decide (last - 1 + 2000000 < s.now) && !c.gapRaised
      let s := s.modCommit p fun c => { c with sigAt := Tab.set 0 c.sigAt l.key (s.now + 1), gapRaised := c.gapRaised || gap }
      if gap then s.signal Ev.weirGap p [p, wid, l.x, l.y] else s
    else s
  let x := s.tile t
  if (w.sig ∨ (s.frameOf p).stepWeir = wid) ∧ x.s.sigSeq ≠ x.s.sigChk then
    let s := s.signal Ev.sigMismatch p (tileOps (some l) t ++ [wid, (s.stepNo p).toNat])
    s.suspect p Ev.sigMismatch [l]
  else s

/-- The member's own arrival (R309 step 2). -/
def State.weirOwn (t : PT) (wid : Nat) (s : State) : State :=
  match s.hosted t with
  | none => s
  | some l =>
    let p := s.ltPart l
    match (s.frameOf p).weir wid with
    | none => s
    | some w => (s.weirCapture p wid w l t).weirArrive p wid l l (weirOf p wid s).phase

/-- Every packet the tile sent has been answered or acknowledged (R309 step 1). -/
def Tile.allAnswered (x : Tile) : Bool := decide (x.q.out = []) && x.r.ports.all fun kp => decide (kp.2.prod.unacked = 0)

/-- Groups with an instance in progress: `PRT_WEIR_STAT.PEND` (R329). -/
def State.weirsPending (s : State) (p : Nat) : Nat :=
  ((s.part p).run.weirs.filter fun kw => decide (kw.2.arrived ≠ [])).length

end Sys2Proof.Machine
end

