-- ==== Sys2Proof/Machine/Uops.lean ====
section
/-!
DEFINITION. The 22 micro-ops (spec 03_tile R127 to R147; 04_dataflow R173 to R178; 06_fabric R309, R317, R318), and how a
sequencer issues one (R105, R151).
-/

namespace Sys2Proof.Machine

/-! ### Issuing -/

/-- The clocks of the tiles run and partition `p` has not stopped (R20, R149, R754). (DEDUCED, log 59) -/
def State.runs (s : State) (p : Nat) : Bool :=
  !s.phys.power.halted && !s.man.boot.fatalSince && !(s.part p).own.stopped

/-- FCAUSE of a word that does not decode or breaks a rule by its fields alone. (DEDUCED, log 17) -/
def badWord : Nat := 1

/-- The sequencer of tile `t` in RUN fetches the micro-op at PC; when it is `u`, it issues with effect `body`.
(DESIGN CHOICE, log 5; DEDUCED, log 16; DEDUCED, log 17) -/
def State.issue (t : PT) (u : Uop) (body : State → R State) (s : State) : State :=
  let p := s.ptPart t
  if (s.tile t).s.seq ≠ .run ∨ s.runs p = false then s
  else
    let s := (s.settleDone t).settleCheck t
    let x := s.tile t
    if x.s.seq ≠ .run then s
    else if 512 ≤ x.s.pc.toNat then s.tileIllegal t 3
    else
      match x.load (0xC000 + 8 * x.s.pc.toNat) 8 with
      | .error w => s.tileUncorr t w
      | .ok (d, x') =>
        match decodeUop (BitVec.ofNat 64 (ofLe d)) with
        | none => ((s.setTile t x').tileIllegal t badWord).ceHigh t x
        | some w =>
          if w ≠ u then s
          else
            let s := s.setTile t x'
            let s' := match body s with
              | .ok s => s
              | .error e => s.stopUop t e
            s'.ceHigh t x

/-! ### Control (R132 to R136, R173 to R178) -/

def nopBody (t : PT) (s : State) : R State := .ok (s.next t 0x00)

/-- LOOP (R132 to R134, R176). -/
def loopBody (t : PT) (lvl : BitVec 2) (trip : BitVec 24) (len : BitVec 9) (unt : Bool) (uq utk : BitVec 3) (s : State) : R State :=
  let x := s.tile t
  let p := x.s.pc.toNat
  let last := p + len.toNat
  let outer := x.r.loops.find? fun l => decide (l.lvl < 4)
  let bad := match outer with
    | none => decide (511 < last)
    | some o => decide (511 < last) || decide (o.last < last) || decide (lvl.toNat ≤ o.lvl)
  if bad then .error (.illegal 2)
  else
    let l : LoopReg := { lvl := lvl.toNat, cnt := if trip.toNat = 0 then 2 ^ 24 else trip.toNat, first := p + 1, last := last,
                         unt := unt, uq := uq.toNat, utk := utk.toNat }
    let s := s.modTile t fun x => { x with r := { x.r with loops := l :: x.r.loops } }
    .ok (s.next t 0x01)

/-- BSEL (R135, R174, R177); a data entry at the head is illegal. (DEDUCED, log 18; DEDUCED, log 117) -/
def bselBody (t : PT) (q : BitVec 3) (len0 len1 len2 len3 : BitVec 9) (s : State) : R State :=
  let x := s.tile t
  let p := x.s.pc.toNat
  let lens := [len0.toNat, len1.toNat, len2.toNat, len3.toNat]
  let stop := p + 1 + lens.foldl (· + ·) 0
  if 512 < stop then .error (.illegal 2)
  else
    match x.look q.toNat 0 1 with
    | .error e => .error e
    | .ok ([], _) => .error (.block 1 q.toNat)
    | .ok (e :: _, x) =>
      let s := s.setTile t x
      if !e.tok || (e.kind != 4 && e.kind != 3) || (e.kind == 3 && e.val / 4 != 0) then .error (.illegal 1)
      else if e.kind = 4 then .error (.flush q.toNat (x.queue q.toNat).popped)
      else
        let v := e.val % 4
        let start := p + 1 + (lens.take v).foldl (· + ·) 0
        let n := lens.getD v 0
        let s := s.popQ t q.toNat
        if n = 0 then .ok (s.retire t 0x02 stop 3)
        else
          let l : LoopReg := { lvl := 4, cnt := stop, first := start, last := start + n - 1, unt := false, uq := 0, utk := 0 }
          let s := s.modTile t fun x => { x with r := { x.r with loops := l :: x.r.loops } }
          .ok (s.retire t 0x02 start 3)

/-- A control token of a tile (R171, R173). -/
def State.token (s : State) (t : PT) (kind val : Nat) : Flitem :=
  let l := (s.hosted t).getD { x := 0, y := 0 }
  let hi := 2 ^ 96 * ((s.stepNo (s.ptPart t)).toNat % 2 ^ 32) + 2 ^ 80 * (s.tile t).c.gen.toNat + 2 ^ 69 * l.x + 2 ^ 59 * l.y
  { data := BitVec.ofNat 128 (hi + val * 8 + kind), tok := true }

/-- EMIT (R136, R173, R201). -/
def emitBody (t : PT) (port : BitVec 4) (tk : BitVec 3) (val : BitVec 16) (s : State) : R State := do
  let k := ((s.tile t).port port.toNat).kind
  if k = 1 ∨ k = 2 then .error (.illegal 1)
  else
    let s ← s.sendEntries t port.toNat [s.token t tk.toNat val.toNat] (tk.toNat == 1 || tk.toNat == 4)
    .ok (s.next t 0x03)

/-- The micro-op at PC has been sent and its tile waits (R137, R309, R317). -/
def State.sentAndWaits (t : PT) (blk arg : Nat) (s : State) : State :=
  (s.modTile t fun x => { x with s := { x.s with arrived := true } }).blocked t blk arg

/-- WEIR (R309): it waits for what the tile sent before, arrives, and waits for the release. -/
def weirBody (t : PT) (wid : BitVec 12) (s : State) : R State :=
  let x := s.tile t
  if x.s.arrived || !x.allAnswered then .error (.block 6 0)
  else .ok ((s.sentAndWaits t 6 0).weirOwn t wid.toNat)

/-- FLOAT (R317, R318): set and clear go to the home; a wait looks at the tile's shadow. -/
def floatBody (t : PT) (act : BitVec 2) (fid : BitVec 12) (s : State) : R State :=
  let x := s.tile t
  let p := s.ptPart t
  if x.s.arrived then .error (.block 7 0)
  else if act.toNat < 2 then
    match s.floatRow t fid.toNat with
    | none => .error (.block 7 0)
    | some r =>
      match (s.router t).scarf r.home with
      | none => .error (.scarf r.home 7 0)
      | some d =>
        .ok ((s.sentAndWaits t 7 0).request t
          { op := opFloatOp, dst := .tile d.1, src := .tile t, tag := 0, addr := BitVec.ofNat 16 (fid.toNat + 4096 * act.toNat),
            seq := 0, ep := d.2, ext := 0, part := p, body := [] })
  else
    match (s.hosted t).bind fun l => s.shadow p fid.toNat l with
    | none => .error (.block 7 0)
    | some sh => if sh.1 = decide (act.toNat = 2) then .ok (s.next t 0x05) else .error (.block 7 0)

/-- END (R136): the invocation ends. -/
def endBody (t : PT) (s : State) : R State :=
  let s := s.modTile t fun x =>
    let x := x.progressBy 1
    let x := { x with s := x.s.sign x.s.pc.toNat 0x06 7 0 }
    x.toIdle s.now
  .ok (s.restall t)

/-- HALT (R136, R149). -/
def haltBody (t : PT) (s : State) : R State := .ok ((s.next t 0x07).haltTile t)

/-! ### Data movement (R137, R138, R147) -/

/-- Bytes that code W names. -/
def wBytes (w : BitVec 2) : Nat := 16 * (w.toNat + 1)

/-- MOV. -/
def movBody (t : PT) (dst src : Ops) (w : BitVec 2) (s : State) : R State := do
  let r ← s.readOp t src (wBytes w)
  let s ← r.2.writeOp t dst r.1
  .ok (s.next t 0x08)

/-- LDS (R138). -/
def loadScale (now : Bool) (len : Nat) (d : List Byte) (k : ScaleReg) : ScaleReg :=
  if now then { k with active := d, len := len, cursor := 0 } else { k with shadow := d, shadowLen := len, loaded := true }
def ldsBody (t : PT) (sel now : Bool) (len : BitVec 4) (src : Ops) (s : State) : R State := do
  let r ← s.readOp t src 16
  let n := if len.toNat = 0 then 16 else len.toNat
  let s := r.2.modTile t fun x =>
    let x := x.rewritten fun w => decide (w = kWord sel (!now) 0 ∨ w = kWord sel (!now) 1)
    if sel then { x with r := { x.r with k1 := loadScale now n r.1 x.r.k1 } }
    else { x with r := { x.r with k0 := loadScale now n r.1 x.r.k0 } }
  .ok (s.next t 0x09)

/-- SETA. -/
def setaBody (t : PT) (a : BitVec 3) (base stride : BitVec 16) (s : State) : R State :=
  .ok ((s.modTile t (Tile.setA a.toNat { cur := base, stride := stride })).next t 0x0A)

/-- ADDA. -/
def addaBody (t : PT) (a : BitVec 3) (imm : BitVec 16) (s : State) : R State := do
  let s ← s.needA t a.toNat
  .ok ((s.modTile t fun x => x.setCur a.toNat ((x.areg a.toNat).cur + imm)).next t 0x0B)

/-- TAGS: the slots must lie in one memory and outside the spillway (R108, R112, R137); any other range is illegal.
(DESIGN CHOICE, log 114) -/
def tagsBody (t : PT) (a : BitVec 3) (full : Bool) (count : BitVec 8) (s : State) : R State := do
  let n := if count.toNat = 0 then 256 else count.toNat
  let s ← s.needA t a.toNat
  match slotAt ((s.tile t).areg a.toNat).cur.toNat with
  | none => .error (.illegal 3)
  | some k =>
    if (k < 160 ∧ k + n ≤ 160) ∨ (192 ≤ k ∧ k + n ≤ 448) then
      .ok ((s.modTile t fun x => x.setTags ((List.range n).map fun i => k + i) full).next t 0x0C)
    else .error (.illegal 3)

/-- RGET: a raw read of the address of a memory-kind port plus OFF (R137, R161), whichever of the two memory kinds the port
has; its answer retires it. A port of another kind is illegal. (DEDUCED, log 115) -/
def rgetBody (t : PT) (port : BitVec 4) (dst : Ops) (w : BitVec 2) (off : BitVec 16) (s : State) : R State :=
  let x := s.tile t
  let p := x.port port.toNat
  if x.s.arrived then
    match x.q.got with
    | none => .error (.block 5 port.toNat)
    | some d => (s.writeOp t dst d).map fun s => s.next t 0x0D
  else if p.kind ≠ 1 ∧ p.kind ≠ 2 then .error (.illegal 1)
  else
    match (s.router t).scarf p.lt with
    | none => .error (.scarf p.lt 5 port.toNat)
    | some (h, dep) =>
      let s := s.sentAndWaits t 5 port.toNat
      .ok (s.request t { op := opRdRaw, dst := .tile h, src := .tile t, tag := 0,
                         addr := BitVec.ofNat 16 (p.addr + off.toNat), seq := 0, ep := dep,
                         ext := BitVec.ofNat 48 (wBytes w), part := s.ptPart t, body := [] })

/-- RREG: lanes 0 and 1 take the register, the others zero (R147). -/
def rregBody (t : PT) (v : BitVec 5) (reg : BitVec 6) (s : State) : R State := do
  let x ← (s.tile t).need (regWords (8 * reg.toNat))
  let s := s.setTile t x
  let w := readTileReg t (s.hosted t) (s.tile t) (8 * reg.toNat)
  .ok ((s.modTile t fun x => x.setV v.toNat (w.setWidth 128)).next t 0x1C)

/-- WREG. A write of `TILE_CTL.RESET` ends in RESET. -/
def wregBody (t : PT) (v : BitVec 5) (reg : BitVec 6) (s : State) : R State := do
  let x ← (s.tile t).need fun w => decide (w = vWord v.toNat 0)
  let q := Tab.get (0 : Quad) x.r.v v.toNat
  let s := (s.setTile t x).writeTileReg t (8 * reg.toNat) (q.setWidth 64)
  if (s.tile t).s.seq = .reset then .ok s else .ok (s.next t 0x1D)

/-! ### Arithmetic (R139 to R146) -/

/-- Take `n` scale bytes from a scale register (R139, R140). -/
def ScaleReg.take (n : Nat) (k : ScaleReg) : R (List Byte × ScaleReg) :=
  if n = 0 then .ok ([], k)
  else if k.len < k.cursor + n then .error (.illegal 2)
  else
    let bs := (k.active.drop k.cursor).take n
    if k.cursor + n < k.len then .ok (bs, { k with cursor := k.cursor + n })
    else if k.loaded then .ok (bs, { k with cursor := 0, active := k.shadow, len := k.shadowLen, loaded := false })
    else .ok (bs, { k with cursor := 0 })

/-- Take `n` bytes of scale register K0, or K1, under its code: the active buffer's halves, and those of the shadow buffer when
it takes the active one's place (R139, R140, R156). -/
def State.takeScale (t : PT) (k1 : Bool) (n : Nat) (s : State) : R (List Byte × State) := do
  let x := s.tile t
  let k := if k1 then x.r.k1 else x.r.k0
  let r ← k.take n
  let moved := decide (n ≠ 0) && decide (k.cursor + n = k.len) && k.loaded
  let x ← x.need fun w => decide (n ≠ 0) &&
    (decide (w = kWord k1 false 0 ∧ k.cursor < 8) || decide (w = kWord k1 false 1 ∧ 8 < k.cursor + n) ||
      (moved && decide (w = kWord k1 true 0 ∨ w = kWord k1 true 1)))
  let x := if moved then x.rewritten fun w => decide (w = kWord k1 false 0 ∨ w = kWord k1 false 1) else x
  .ok (r.1, s.setTile t { x with r := if k1 then { x.r with k1 := r.2 } else { x.r with k0 := r.2 } })

/-- The tile produced a range-exceeded word: RANGE and XSUM_RANGE once a step (R84). A step is the same while its number is
and no new step has begun. (DEDUCED, log 120) -/
def State.rangeExceeded (t : PT) (s : State) : State :=
  let p := s.ptPart t
  let st := s.stepNo p
  if (s.tile t).c.rangeStep = some st then s
  else
    let s := s.modTile t fun x => { (x.orXstat xfRange) with c := { (x.orXstat xfRange).c with rangeStep := some st } }
    s.signal Ev.xsumRange p (tileOps (s.hosted t) t ++ [st.toNat])

/-- Whether the residues of an operation mismatch: the datapath is defective (R100). (DESIGN CHOICE, log 22) -/
def State.macBad (s : State) (t : PT) : Bool := (s.tile t).defects.mac

/-- The residues of the MAC datapath are compared at the end of an operation (R100, R101). -/
def State.residues (bad : Bool) (t : PT) (s : State) : State := if bad then s.macResidue t else s

/-- What the MAC datapath produces: the right vector and status bits, or, where the residues mismatch, values that the
spec does not state (R101). (DESIGN CHOICE, log 23) -/
def State.produced (bad : Bool) (r : Quad × XFlags) (s : State) : (Quad × XFlags) × State :=
  if bad then
    let v := s.draw
    let f := v.2.draw
    ((BitVec.ofNat 128 v.1, BitVec.ofNat 8 f.1 &&& (xfUnder ||| xfInexact ||| xfInfOut ||| xfNanOut)), f.2)
  else (r, s)

/-- What the MAC datapath produces as an exact sum, and whether a range-exceeded word was produced on the way; with
mismatched residues the sum is one that the spec does not state (R84, R101). (DESIGN CHOICE, log 23) -/
def State.producedSum (bad : Bool) (r : Quad × Bool) (s : State) : (Quad × Bool) × State :=
  if bad then
    let v := s.draw
    ((BitVec.ofNat 128 v.1, decide (BitVec.ofNat 128 v.1 = xsRange)), v.2)
  else (r, s)

/-- A sum that remembers whether a range-exceeded word was produced on the way (R84). -/
def xsAddSeen (a b : Quad × Bool) : Quad × Bool :=
  let c := xsAdd a.1 b.1
  (c, a.2 || b.2 || decide (c = xsRange))

/-- The result of a narrow DOT: the tree of the products, added to the accumulator last (R82, R141). -/
def dotNarrow (fa fb xa xb : Nat) (da db : List Byte) (ka kb : List Byte) (acc : Quad) : Quad × Bool :=
  let n := dotCount fa fb
  let sc := fun (x : Nat) (k : List Byte) (i : Nat) => if blockOf x = 0 then some 0 else scaleExp (k.getD (i / blockOf x) 0)
  let va := ofLe da
  let vb := ofLe db
  let wa := fmtWidth fa
  let wb := fmtWidth fb
  let ps := (List.range n).map fun i =>
    (xsProduct (decElem fa (xa != 0) (va / 2 ^ (i * wa) % 2 ^ wa)) (decElem fb (xb != 0) (vb / 2 ^ (i * wb) % 2 ^ wb))
      (sc xa ka i) (sc xb kb i), false)
  xsAddSeen (acc, false) ((laneTree xsAddSeen 6 ps).headD (xsZero, false))

/-- A binary32 sum with the status bits of its parts. -/
def fAddSeen (a b : Nat × XFlags) : Nat × XFlags :=
  let c := fAdd fmtB32 a.1 b.1
  (c.1, a.2 ||| b.2 ||| c.2)

/-- The result of a BF16 DOT in lane 0 (R85, R141). -/
def dotBf16 (da db : List Byte) (acc : Nat) : Nat × XFlags :=
  let va := ofLe da
  let vb := ofLe db
  let ps := (List.range 16).map fun i =>
    fMul fmtB32 (va / 2 ^ (16 * i) % 2 ^ 16 * 2 ^ 16) (vb / 2 ^ (16 * i) % 2 ^ 16 * 2 ^ 16)
  fAddSeen (acc, 0) ((laneTree fAddSeen 4 ps).headD (0, 0))

/-- DOT (R139 to R141). -/
def dotBody (t : PT) (fa fb : BitVec 4) (xa xb : BitVec 2) (srca srcb : Ops) (acc : BitVec 5) (clr wb : Bool) (wbd : Ops)
    (s : State) : R State := do
  let n := dotCount fa.toNat fb.toNat
  let a ← s.readOp t srca ((n * fmtWidth fa.toNat + 7) / 8)
  let b ← a.2.readOp t srcb ((n * fmtWidth fb.toNat + 7) / 8)
  let bad := s.macBad t
  let s := b.2
  let per := fun (x : BitVec 2) => if blockOf x.toNat = 0 then 0 else n / blockOf x.toNat
  let ka ← s.takeScale t false (per xa)
  let kb ← ka.2.takeScale t true (per xb)
  let o ← if clr then .ok ((0 : Quad), kb.2) else kb.2.readV t acc.toNat
  let s := o.2
  let old := o.1
  let s :=
    if fa.toNat = 6 then
      let r := dotBf16 a.1 b.1 (if clr then 0 else lane old 0)
      let q := s.produced bad (BitVec.ofNat 128 r.1, r.2)
      q.2.modTile t fun x => (x.setV acc.toNat q.1.1).orXstat q.1.2
    else
      let r := dotNarrow fa.toNat fb.toNat xa.toNat xb.toNat a.1 b.1 ka.1 kb.1 (if clr then xsZero else old)
      let q := s.producedSum bad r
      let s := q.2.modTile t fun x => x.setV acc.toNat q.1.1
      if q.1.2 then s.rangeExceeded t else s
  let s ← if wb then s.writeBack t wbd (leBytes 16 (Tab.get (0 : Quad) (s.tile t).r.v acc.toNat).toNat) else .ok s
  .ok ((s.residues bad t).next t 0x10)

/-- 16 bytes as a vector. -/
def quadOf (d : List Byte) : Quad := BitVec.ofNat 128 (ofLe d)

/-- Four lanes from a function of the lane number, with their status bits. -/
def lanes4 (f : Nat → Nat × XFlags) : Quad × XFlags :=
  (ofLanes (f 0).1 (f 1).1 (f 2).1 (f 3).1, (f 0).2 ||| (f 1).2 ||| (f 2).2 ||| (f 3).2)

/-- FMA (R86, R142). -/
def fmaBody (t : PT) (dst src1 src2 src3 : Ops) (s : State) : R State := do
  let a ← s.readOp t src1 16
  let b ← a.2.readOp t src2 16
  let c ← b.2.readOp t src3 16
  let r := lanes4 fun i => fFma fmtB32 (lane (quadOf a.1) i) (lane (quadOf b.1) i) (lane (quadOf c.1) i)
  let bad := s.macBad t
  let q := c.2.produced bad r
  let s ← q.2.writeOp t dst (leBytes 16 q.1.1.toNat)
  .ok (((s.modTile t (Tile.orXstat q.1.2)).residues bad t).next t 0x11)

/-- XADD (R78, R79, R142). -/
def xaddBody (t : PT) (dst src1 src2 : Ops) (s : State) : R State := do
  let a ← s.readOp t src1 16
  let b ← a.2.readOp t src2 16
  let r := xsAdd (quadOf a.1) (quadOf b.1)
  let bad := s.macBad t
  let q := b.2.producedSum bad (r, decide (r = xsRange))
  let s ← q.2.writeOp t dst (leBytes 16 q.1.1.toNat)
  let s := if q.1.2 then s.rangeExceeded t else s
  .ok ((s.residues bad t).next t 0x12)

/-- The function of a VOP (R142). -/
def vopResult (fn : Nat) (a b : Quad) (sel : Nat) : Quad × XFlags :=
  if fn = 0 then lanes4 fun i => fAdd fmtB32 (lane a i) (lane b i)
  else if fn = 1 then lanes4 fun i => fMul fmtB32 (lane a i) (lane b i)
  else if fn = 2 then lanes4 fun i => fMax fmtB32 (lane a i) (lane b i)
  else if fn = 3 then lanes4 fun i => fMin fmtB32 (lane a i) (lane b i)
  else if fn = 4 then (a &&& b, 0)
  else if fn = 5 then (a ||| b, 0)
  else if fn = 6 then (a ^^^ b, 0)
  else lanes4 fun i => (lane a (sel / 4 ^ i % 4), 0)

/-- VOP. -/
def vopBody (t : PT) (fn : BitVec 4) (dst src1 src2 : Ops) (sel : BitVec 8) (s : State) : R State := do
  let a ← s.readOp t src1 16
  let b ← a.2.readOp t src2 16
  let r := vopResult fn.toNat (quadOf a.1) (quadOf b.1) sel.toNat
  let s ← b.2.writeOp t dst (leBytes 16 r.1.toNat)
  .ok ((s.modTile t (Tile.orXstat r.2)).next t 0x13)

/-! ### Conversion (R89 to R98, R143 to R146) -/

def Tile.srix (x : Tile) (i : Bool) : BitVec 48 := if i then x.r.srix1 else x.r.srix0
def Tile.addSrix (i : Bool) (n : Nat) (x : Tile) : Tile :=
  if i then { x with r := { x.r with srix1 := x.r.srix1 + BitVec.ofNat 48 n } }
  else { x with r := { x.r with srix0 := x.r.srix0 + BitVec.ofNat 48 n } }

/-- The rounding modes of `n` elements: in stochastic mode each takes a draw by its element index (R97, R98, R145). -/
def State.modes (s : State) (t : PT) (rm : BitVec 2) (ixs : Bool) (layer : BitVec 16) (n : Nat) : List RMode :=
  let p := s.ptPart t
  (List.range n).map fun i =>
    if rm.toNat = 0 then .nearest
    else if rm.toNat = 1 then .zero
    else .stochastic ((srDraw (s.frameOf p).seed (s.stepNo p) layer.toNat
      ((s.tile t).srix ixs + BitVec.ofNat 48 i).toNat).toNat % 2 ^ 32)

/-- In stochastic mode the index register advances by one for each element (R145). -/
def State.advanceIndex (t : PT) (rm : BitVec 2) (ixs : Bool) (n : Nat) (s : State) : State :=
  if rm.toNat = 2 then s.modTile t (Tile.addSrix ixs n) else s

/-- The source values of a conversion: exact-sum words, or binary32 values. -/
def convSources (sf : Bool) (n : Nat) (d : List Byte) : List Num :=
  (List.range n).map fun i =>
    if sf then decFmt fmtB32 (leAt d (4 * i) 4) else xsNum (BitVec.ofNat 128 (leAt d (16 * i) 16))

/-- Append elements of width `w` to the pack register; each time it fills, its 16 bytes go to DST (R143). Elements of another
width than those held are appended at the bit count too, and bits past the 128th are lost. (DESIGN CHOICE, log 116) -/
def State.packAll (t : PT) (dst : Ops) (w : Nat) : List Nat → State → R State
  | [], s => .ok s
  | e :: r, s => do
    let k := (s.tile t).r.pack
    let k : Pack := { bits := k.bits ||| (BitVec.ofNat 128 (e % 2 ^ w) <<< k.count), count := k.count + w }
    if 128 < k.count + w then
      let s ← s.writeOp t dst (leBytes 16 k.bits.toNat)
      (s.modTile t fun x => { x with r := { x.r with pack := { bits := 0, count := 0 } } }).packAll t dst w r
    else (s.modTile t fun x => { x with r := { x.r with pack := k } }).packAll t dst w r

/-- CVT (R143). -/
def cvtBody (t : PT) (tf : BitVec 4) (rm : BitVec 2) (sat ixs : Bool) (src dst : Ops) (pk : Bool) (layer : BitVec 16) (sf : Bool)
    (s : State) : R State := do
  let a ← s.readOp t src 16
  let n := if sf then 4 else 1
  let rs := ((convSources sf n a.1).zip (a.2.modes t rm ixs layer n)).map fun vm => convNum tf.toNat vm.2 sat sf vm.1
  let s := a.2.advanceIndex t rm ixs n
  let s := s.modTile t (Tile.orXstat (rs.foldl (fun f r => f ||| r.2) 0))
  let s ← s.packAll t dst (fmtWidth tf.toNat) (rs.map (·.1))
  let k := (s.tile t).r.pack
  if pk && decide (k.count ≠ 0) then
    let s ← s.writeOp t dst (leBytes 16 k.bits.toNat)
    .ok ((s.modTile t fun x => { x with r := { x.r with pack := { bits := 0, count := 0 } } }).next t 0x18)
  else .ok (s.next t 0x18)

/-- Read `n` times 16 bytes through an address register that advances by what each reads (R144). -/
def State.readRun (t : PT) (an : Nat) (tag : Bool) : Nat → State → R (List Byte × State)
  | 0, s => .ok ([], s)
  | n + 1, s => do
    let a ← s.readMem t an 16 false tag false
    let s := a.2.modTile t fun x => x.setCur an ((x.areg an).cur + 16)
    let r ← s.readRun t an tag n
    .ok (a.1 ++ r.1, r.2)

/-- Write bytes through an address register that advances by them (R144). -/
def State.writeRun (t : PT) (an : Nat) (d : List Byte) (s : State) : R State := do
  let s ← s.writeMem t an d false false
  .ok (s.modTile t fun x => x.setCur an ((x.areg an).cur + BitVec.ofNat 16 d.length))

/-- CVTB (R144). -/
def cvtbBody (t : PT) (tf : BitVec 4) (rm xs : BitVec 2) (sf ixs : Bool) (as ad ak : BitVec 3) (layer : BitVec 16) (tag : Bool)
    (s : State) : R State := do
  let n := blockOf xs.toNat
  let a ← s.readRun t as.toNat tag (if sf then n / 4 else n)
  let r := convBlock tf.toNat (a.2.modes t rm ixs layer n) sf (convSources sf n a.1)
  let s := (a.2.advanceIndex t rm ixs n).modTile t (Tile.orXstat r.2.2)
  let w := fmtWidth tf.toNat
  let s ← s.writeRun t ad.toNat (leBytes (n * w / 8) (packElems w r.1))
  let s ← s.writeRun t ak.toNat [r.2.1]
  .ok (s.next t 0x19)

/-! ### The commands -/

/-- The effect of each micro-op. -/
def uopBody (t : PT) (u : Uop) (s : State) : R State :=
  match u with
  | .nop => nopBody t s
  | .loop lvl trip len unt uq utk => loopBody t lvl trip len unt uq utk s
  | .bsel q l0 l1 l2 l3 => bselBody t q l0 l1 l2 l3 s
  | .emit port tk val => emitBody t port tk val s
  | .weir wid => weirBody t wid s
  | .float act fid => floatBody t act fid s
  | .endOp => endBody t s
  | .halt => haltBody t s
  | .mov dst src w => movBody t dst src w s
  | .lds sel now len src => ldsBody t sel now len src s
  | .seta a base stride => setaBody t a base stride s
  | .adda a imm => addaBody t a imm s
  | .tags a full count => tagsBody t a full count s
  | .rget port dst w off => rgetBody t port dst w off s
  | .dot fa fb xa xb srca srcb acc clr wb wbd => dotBody t fa fb xa xb srca srcb acc clr wb wbd s
  | .fma dst s1 s2 s3 => fmaBody t dst s1 s2 s3 s
  | .xadd dst s1 s2 => xaddBody t dst s1 s2 s
  | .vop fn dst s1 s2 sel => vopBody t fn dst s1 s2 sel s
  | .cvt tf rm sat ixs src dst pk layer sf => cvtBody t tf rm sat ixs src dst pk layer sf s
  | .cvtb tf rm xs sf ixs as ad ak layer tag => cvtbBody t tf rm xs sf ixs as ad ak layer tag s
  | .rreg v reg => rregBody t v reg s
  | .wreg v reg => wregBody t v reg s

def execNop (t : PT) (s : State) : Out := .next (s.issue t .nop (nopBody t))
def execLoop (t : PT) (lvl : BitVec 2) (trip : BitVec 24) (len : BitVec 9) (unt : Bool) (uq utk : BitVec 3) (s : State) : Out :=
  .next (s.issue t (.loop lvl trip len unt uq utk) (loopBody t lvl trip len unt uq utk))
def execBsel (t : PT) (q : BitVec 3) (len0 len1 len2 len3 : BitVec 9) (s : State) : Out :=
  .next (s.issue t (.bsel q len0 len1 len2 len3) (bselBody t q len0 len1 len2 len3))
def execEmit (t : PT) (port : BitVec 4) (tk : BitVec 3) (val : BitVec 16) (s : State) : Out :=
  .next (s.issue t (.emit port tk val) (emitBody t port tk val))
def execWeir (t : PT) (wid : BitVec 12) (s : State) : Out := .next (s.issue t (.weir wid) (weirBody t wid))
def execFloat (t : PT) (act : BitVec 2) (fid : BitVec 12) (s : State) : Out :=
  .next (s.issue t (.float act fid) (floatBody t act fid))
def execEndOp (t : PT) (s : State) : Out := .next (s.issue t .endOp (endBody t))
def execHalt (t : PT) (s : State) : Out := .next (s.issue t .halt (haltBody t))
def execMov (t : PT) (dst src : Ops) (w : BitVec 2) (s : State) : Out := .next (s.issue t (.mov dst src w) (movBody t dst src w))
def execLds (t : PT) (sel now : Bool) (len : BitVec 4) (src : Ops) (s : State) : Out :=
  .next (s.issue t (.lds sel now len src) (ldsBody t sel now len src))
def execSeta (t : PT) (a : BitVec 3) (base stride : BitVec 16) (s : State) : Out :=
  .next (s.issue t (.seta a base stride) (setaBody t a base stride))
def execAdda (t : PT) (a : BitVec 3) (imm : BitVec 16) (s : State) : Out := .next (s.issue t (.adda a imm) (addaBody t a imm))
def execTags (t : PT) (a : BitVec 3) (full : Bool) (count : BitVec 8) (s : State) : Out :=
  .next (s.issue t (.tags a full count) (tagsBody t a full count))
def execRget (t : PT) (port : BitVec 4) (dst : Ops) (w : BitVec 2) (off : BitVec 16) (s : State) : Out :=
  .next (s.issue t (.rget port dst w off) (rgetBody t port dst w off))
def execDot (t : PT) (fa fb : BitVec 4) (xa xb : BitVec 2) (srca srcb : Ops) (acc : BitVec 5) (clr wb : Bool) (wbd : Ops)
    (s : State) : Out :=
  .next (s.issue t (.dot fa fb xa xb srca srcb acc clr wb wbd) (dotBody t fa fb xa xb srca srcb acc clr wb wbd))
def execFma (t : PT) (dst src1 src2 src3 : Ops) (s : State) : Out :=
  .next (s.issue t (.fma dst src1 src2 src3) (fmaBody t dst src1 src2 src3))
def execXadd (t : PT) (dst src1 src2 : Ops) (s : State) : Out := .next (s.issue t (.xadd dst src1 src2) (xaddBody t dst src1 src2))
def execVop (t : PT) (fn : BitVec 4) (dst src1 src2 : Ops) (sel : BitVec 8) (s : State) : Out :=
  .next (s.issue t (.vop fn dst src1 src2 sel) (vopBody t fn dst src1 src2 sel))
def execCvt (t : PT) (tf : BitVec 4) (rm : BitVec 2) (sat ixs : Bool) (src dst : Ops) (pk : Bool) (layer : BitVec 16) (sf : Bool)
    (s : State) : Out :=
  .next (s.issue t (.cvt tf rm sat ixs src dst pk layer sf) (cvtBody t tf rm sat ixs src dst pk layer sf))
def execCvtb (t : PT) (tf : BitVec 4) (rm xs : BitVec 2) (sf ixs : Bool) (as ad ak : BitVec 3) (layer : BitVec 16) (tag : Bool)
    (s : State) : Out :=
  .next (s.issue t (.cvtb tf rm xs sf ixs as ad ak layer tag) (cvtbBody t tf rm xs sf ixs as ad ak layer tag))
def execRreg (t : PT) (v : BitVec 5) (reg : BitVec 6) (s : State) : Out := .next (s.issue t (.rreg v reg) (rregBody t v reg))
def execWreg (t : PT) (v : BitVec 5) (reg : BitVec 6) (s : State) : Out := .next (s.issue t (.wreg v reg) (wregBody t v reg))

end Sys2Proof.Machine
end

