-- ==== Sys2Proof/Machine/Remote.lean ====
section
/-!
DEFINITION. The tile's remote-access port: serving requests, parking, waiting in order, re-issue, and the sequencer's
events (spec 03_tile R112 to R126, R149 to R153; 04_dataflow R179; 06_fabric R298, R299).
-/

namespace Sys2Proof.Machine

/-! ### Time in cycles of a half (R681, R683) -/

/-- The divider of the half of a bay. -/
def State.halfDiv (s : State) (b : Nat) : Nat := if bayEast b then s.phys.clock.ecur else s.phys.clock.wcur
/-- `n` cycles of the half clock of bay `b` in nanoseconds of Tide, rounded up. -/
def State.cycles (s : State) (b n : Nat) : Nat := (n * s.halfDiv b + 23) / 24

/-! ### Serving a request (R115 to R118, R121, R122, R157 to R159) -/

/-- A request's size, alignment and target are well formed (R118, R121, R122). -/
def reqOk (p : Packet) : Bool :=
  let a := p.addr.toNat
  let n := pkBytes p
  let tagged := p.op == opWrTag || p.op == opRdTag || p.op == opRdKeep
  if 0xF000 ≤ a then
    !tagged && decide (a < 0xF200) && decide (a % 8 = 0) && decide (n = 8 ∨ (pkWrite p = true ∧ p.body.length = 1))
  else
    decide (n = 16 ∨ n = 32 ∨ n = 48 ∨ n = 64) && decide (a % 16 = 0) && decide (a % 64 + n ≤ 64) && accessible a n &&
      (!tagged || (tagSlots a n).isSome)

/-- A write names IM while the sequencer runs (R122). -/
def imBusy (p : Packet) (x : Tile) : Bool :=
  pkWrite p && decide (memAt p.addr.toNat = some .im) && (decide (x.s.seq = .run) || decide (x.s.seq = .blocked))

/-- A remote request is answered: the progress counter advances (R182). -/
def State.answered (t : PT) (s : State) : State := (s.modTile t (Tile.progressBy 1)).restall t

/-- Perform a request at tile `t` and answer it. -/
def State.serve (t : PT) (p : Packet) (s : State) : State :=
  let a := p.addr.toNat
  let before := s.tile t
  if 0xF000 ≤ a then
    if pkWrite p then
      let s := s.writeTileReg t (a - 0xF000) (BitVec.ofNat 64 (ofLe ((pkData p).take 8)))
      (s.send (answer p opWrAck p.addr [])).answered t
    else
      match before.checked (regWords (a - 0xF000)) with
      | .error w => ((s.send (errAnswer p errUncorr)).answered t).sramUncorr t w
      | .ok x =>
        let v := readTileReg t (s.hosted t) before (a - 0xF000)
        (((s.setTile t x).send (answer p opRdData p.addr [{ data := v.setWidth 128, tok := false }])).answered t).ceHigh t before
  else if pkWrite p then
    let s := s.modTile t fun x =>
      let x := x.store a (pkData p)
      if p.op = opWrTag ∧ tagReaches a (pkBytes p) = true then x.setTags (pkSlots p) true else x
    (s.send (answer p opWrAck p.addr [])).answered t
  else
    match before.load a (pkBytes p) with
    | .error w => ((s.send (errAnswer p errUncorr)).answered t).sramUncorr t w
    | .ok (d, x) =>
      let x := if p.op = opRdTag ∧ tagReaches a (pkBytes p) = true then x.setTags (pkSlots p) false else x
      let s := s.setTile t x
      ((s.send (answer p opRdData p.addr (flitsOf (pkBytes p / 16) d))).answered t).ceHigh t before

/-! ### Waiting on tags (R119, R123) -/

/-- The local micro-op waits on a slot of the list, began before position `n`, and its slots have the tag it needs (R114,
R119). -/
def Tile.localReady (x : Tile) (slots : List Nat) (n : Nat) : Bool :=
  match x.q.waiting with
  | some w =>
    (w.slots.any fun k => slots.contains k) && decide (w.ahead ≤ n) && (decide (x.s.seq = .blocked) || decide (x.s.seq = .run)) &&
      x.ready w.slots w.full
  | none => false

/-- A request must wait: its slots lack the tag, or an earlier waiter on them could proceed. -/
def Tile.mustWait (x : Tile) (p : Packet) (n : Nat) : Bool :=
  !x.parkedReady p || x.earlier (pkSlots p) n || x.localReady (pkSlots p) n

/-- Parked request `i` has left: those that began after it move up. -/
def Tile.unpark (i : Nat) (x : Tile) : Tile :=
  let dn := fun (n : Nat) => if i < n then n - 1 else n
  { x with q := { x.q with parked := x.q.parked.eraseIdx i
                           held := x.q.held.map fun w => { w with ahead := dn w.ahead }
                           waiting := x.q.waiting.map fun w => { w with ahead := dn w.ahead } } }

/-- The tile's clock stands: HALT_N holds the module (R150, R754), or a plumb slice has the tile (R518). -/
def State.clockStands (s : State) (t : PT) : Bool := s.phys.power.halted || decide ((s.tile t).s.seq = .plumb)

/-- Parked request `i` completes when it may (R119, R123). -/
def State.completeParked (t : PT) (i : Nat) (s : State) : State :=
  let x := s.tile t
  match x.q.parked[i]? with
  | none => s
  | some p => if s.clockStands t || x.mustWait p i then s else (s.modTile t (Tile.unpark i)).serve t p

/-- A held writeback completes when its slots have emptied, not while the tile is halted, in a slice from HALTED or not, nor
while HALT_N holds the module (R150, R119). -/
def State.completeHeld (t : PT) (w : Writeback) (s : State) : State :=
  let x := s.tile t
  let before := (x.q.parked.take w.ahead).any fun p => ((pkSlots p).any fun k => w.slots.contains k) && x.parkedReady p
  if x.s.seq = .halted ∨ s.clockStands t ∨ x.ready w.slots false = false ∨ before then s
  else s.modTile t fun x =>
    let x := { x with q := { x.q with held := x.q.held.erase w } }
    let x := x.store w.addr w.data
    if tagReaches w.addr w.data.length then x.setTags w.slots true else x

/-! ### The sequencer becomes free (R151, R175) -/

/-- The micro-op that a BLOCKED sequencer waits with could issue now. -/
def State.available (s : State) (t : PT) : Bool :=
  match (s.tile t).uopAt with
  | none => true
  | some u =>
    match uopBody t u s with
    | .error (.block _ _) => false
    | .error (.tags _ _ _) => false
    | .error (.scarf _ _ _) => false
    | _ => true

/-- What the micro-op at PC waits for now (R160). (DEDUCED, log 21) -/
def State.waitsFor (s : State) (t : PT) : Option Stop :=
  match (s.tile t).uopAt with
  | none => none
  | some u =>
    match uopBody t u s with
    | .error (.block b a) => some (.block b a)
    | .error (.tags b a ks) => some (.tags b a ks)
    | _ => none

/-- BLOCKED to RUN; a micro-op that now waits for something else shows it in BLK and BLKARG (R151, R160). -/
def State.unblock (t : PT) (s : State) : State :=
  if (s.tile t).s.seq = .blocked ∧ s.runs (s.ptPart t) = true then
    if (s.tile t).s.done.isSome then s.settleDone t
    else if (s.tile t).s.check.isSome then s.settleCheck t
    else if s.available t then
      (s.modTile t fun x => { x with s := { x.s with seq := .run, blk := 0, blkarg := 0 } }).restall t
    else
      match s.waitsFor t with
      | some e => s.stopUop t e
      | none => s
  else s

/-! ### Tile events -/

/-- `TILE_START` (R179): a start token at the head of STARTQ starts an invocation, a flush token there is popped; the head is
read under its code (R159). -/
def execTileStart (t : PT) (s : State) : Out :=
  let x := s.tile t
  let q := x.c.startq.toNat
  .next (
    if x.s.seq ≠ .idle ∨ s.runs (s.ptPart t) = false then s
    else
      match x.look q 0 1 with
      | .error (.uncorr w) => s.tileUncorr t w
      | .error _ => s
      | .ok ([], _) => s
      | .ok (e :: _, x) =>
        let s := (s.setTile t x).ceHigh t (s.tile t)
        if e.tok = false then s
        else if e.kind = 4 then (s.popQ t q).restall t
        else if e.kind ≠ 0 then s
        else
          let s := s.popQ t q
          let s := s.modTile t fun x => { x with
            s := { x.s with seq := .run, inv := true, pc := x.c.entry.setWidth 10, check := none, arrived := false,
                            done := none, lost := false, blk := 0, blkarg := 0 }
            r := { x.r with loops := [], ports := x.r.ports.map fun kp =>
              (kp.1, { kp.2 with cursor := BitVec.ofNat 16 kp.2.addr }) } }
          s.restall t)

/-- `SEQUENCER_UNBLOCK` (R151). (DEDUCED, log 21) -/
def execSequencerUnblock (t : PT) (s : State) : Out := .next (s.unblock t)

/-- `TAGGED_WAIT_PROCEED` (R119): the first waiter on the slot that can proceed does. -/
def execTaggedWaitProceed (t : PT) (slot : Nat) (s : State) : Out :=
  let x := s.tile t
  let on := fun (ks : List Nat) => ks.contains slot
  .next (
    match x.q.held.find? fun w => on w.slots with
    | some w => if x.ready w.slots false then s.completeHeld t w else s
    | none =>
      if x.localReady [slot] x.q.parked.length ∧ x.s.seq = .blocked ∧ s.available t = true then s.unblock t
      else
        match (List.range x.q.parked.length).find? fun i => match x.q.parked[i]? with
          | some p => on (pkSlots p) && x.parkedReady p
          | none => false with
        | some i => s.completeParked t i
        | none => s)

/-- `PARKED_REQUEST_COMPLETE` (R123). -/
def execParkedRequestComplete (t : PT) (entry : Nat) (s : State) : Out := .next (s.completeParked t entry)

/-- `REISSUE` (R124, R299): 256 cycles after the response the request is sent again, in RUN or BLOCKED. -/
def execReissue (t : PT) (s : State) : Out :=
  let x := s.tile t
  .next (
    match x.q.reissues with
    | [] => s
    | r :: rest =>
      if (x.s.seq = .run ∨ x.s.seq = .blocked) ∧ s.runs (s.ptPart t) = true then
        ((s.passTo r.at_).modTile t fun x => { x with q := { x.q with reissues := rest } }).send r.req
      else s)

/-- `TILE_RESET_DONE` (R151, R152): after 64 cycles the tile is IDLE; a fence holds it in RESET. -/
def execTileResetDone (t : PT) (s : State) : Out :=
  .next (
    if (s.tile t).s.seq = .reset ∧ s.tileFenced t = false ∧ s.phys.power.halted = false then
      (s.modTile t fun x => { x with s := { x.s with seq := .idle }, plumb := { x.plumb with idleAt := s.now } }).restall t
    else s)

/-- `TILE_HALT` (R149). -/
def execTileHalt (t : PT) (s : State) : Out := .next (s.writeTileReg t 0x10 1)
/-- `TILE_RESUME` (R151). -/
def execTileResume (t : PT) (s : State) : Out := .next (s.writeTileReg t 0x10 2)
/-- `TILE_RESET` (R152). -/
def execTileReset (t : PT) (s : State) : Out := .next (s.writeTileReg t 0x10 4)
/-- `TILE_CLRTAGS` (R112). -/
def execTileClrtags (t : PT) (s : State) : Out := .next (s.writeTileReg t 0x10 8)
/-- `TILE_ECC_CLR` (R160). -/
def execTileEccClr (t : PT) (s : State) : Out := .next (s.writeTileReg t 0x28 1)

end Sys2Proof.Machine
end

