-- ==== Sys2Proof/Machine/Packets.lean ====
section
/-!
DEFINITION. Packets at their destinations: queue entries, remote requests and their responses, credits, drain messages,
weirs, floats and rim traffic (spec 06_fabric R276 to R279, R297 to R299, R303 to R318; 04_dataflow R165 to R170, R200,
R869; 09_memory R438 to R448).
-/

namespace Sys2Proof.Machine

/-- A packet discarded at a tile is counted in its router (R278, R298, R328). -/
def State.countEpdisc (t : PT) (s : State) : State :=
  s.modRouter t fun r => { r with epdisc := BitVec.ofNat 32 (min (r.epdisc.toNat + 1) 0xFFFFFFFF) }

/-- The packet can reach its tile: its router is not dark and its clock runs. -/
def State.reaches (s : State) (t : PT) : Bool := decide ((s.tile t).s.seq ≠ .off) && !s.routerDark t && !s.phys.power.halted

/-- A request or multicast packet is accepted: its EP is the tile's and no fence holds the tile in RESET (R298). -/
def State.epochOk (s : State) (t : PT) (p : Packet) : Bool := p.ep == (s.router t).ep && !s.tileFenced t

/-- A request or multicast packet at tile `t`: discarded with what R298 answers, or handed on. -/
def State.atTile (t : PT) (p : Packet) (f : State → State) (s : State) : State :=
  let s := s.take p
  if s.reaches t = false then s
  else if s.epochOk t p then f s
  else
    let s := s.countEpdisc t
    if p.op = opRdRaw ∨ p.op = opRdTag ∨ p.op = opRdKeep ∨ p.op = opWrTag then (s.send (errAnswer p errReset)).answered t else s

/-! ### Queue entries -/

/-- `QSEND` (R169): entries are placed by their sequence numbers. -/
def execQsend (p : Packet) (s : State) : Out :=
  .next (match p.dst with
    | .tile t => s.atTile t p fun s => s.acceptAll t (p.addr.toNat % 8) (p.addr.getLsbD 3) p.ep p.seq p.body
    | _ => s.take p)

/-- `FOUNT` (R303): a node copies the entries to its children and delivers them to its leaf queue. -/
def execFount (p : Packet) (s : State) : Out :=
  .next (match p.dst with
    | .tile t => s.atTile t p fun s =>
        match s.hosted t with
        | none => s
        | some l =>
          match s.fountRow t (p.addr.toNat % 4096) with
          | none => s
          | some f =>
            match f.nodeOf l with
            | none => s
            | some i => s.fountAt p.part f i p.seq (p.addr.getLsbD 12) p.body
    | _ => s.take p)

/-! ### Remote requests (R112 to R124) -/

/-- A remote request at tile `t`: refused, busy, parked or served (R119, R122, R123). -/
def State.remote (t : PT) (p : Packet) (s : State) : State :=
  let x := s.tile t
  if reqOk p = false then (s.send (errAnswer p errRefused)).answered t
  else if imBusy p x then (s.send (errAnswer p errImBusy)).answered t
  else if (p.op = opWrTag ∨ p.op = opRdTag ∨ p.op = opRdKeep) ∧ x.mustWait p x.q.parked.length = true then
    if x.q.parked.length < 4 then s.modTile t fun x => { x with q := { x.q with parked := x.q.parked ++ [p] } }
    else (s.send (errAnswer p errBusy)).answered t
  else s.serve t p

/-- A request waits at the router while its tile is in PLUMB (R518). -/
def State.remoteAt (op : BitVec 5) (p : Packet) (s : State) : State :=
  match p.dst with
  | .tile t => if (s.tile t).s.seq = .plumb then s else s.atTile t { p with op := op } fun s => s.remote t { p with op := op }
  | _ => s.take p

/-- `WR_RAW` (R121). -/
def execWrRaw (p : Packet) (s : State) : Out := .next (s.remoteAt opWrRaw p)
/-- `WR_TAG` (R116). -/
def execWrTag (p : Packet) (s : State) : Out := .next (s.remoteAt opWrTag p)
/-- `RD_RAW` (R121). -/
def execRdRaw (p : Packet) (s : State) : Out := .next (s.remoteAt opRdRaw p)
/-- `RD_TAG` (R115). -/
def execRdTag (p : Packet) (s : State) : Out := .next (s.remoteAt opRdTag p)
/-- `RD_KEEP` (R115). -/
def execRdKeep (p : Packet) (s : State) : Out := .next (s.remoteAt opRdKeep p)

/-! ### Responses (R124, R125, R298, R299) -/

/-- The outstanding request that a response answers. -/
def Tile.asked (x : Tile) (p : Packet) (ops : List (BitVec 5)) : Option Packet :=
  x.q.out.find? fun r => decide (r.tag = p.tag) && decide (r.dst = p.src) && ops.contains r.op

/-- The request is outstanding no more. -/
def Tile.answeredBy (r : Packet) (x : Tile) : Tile := { x with q := { x.q with out := x.q.out.erase r } }

def readOps : List (BitVec 5) := [opRdRaw, opRdTag, opRdKeep]
def writeOps : List (BitVec 5) := [opWrRaw, opWrTag]

/-- A response at tile `t`: one that answers nothing outstanding is discarded and counted (R298). -/
def State.respond (t : PT) (p : Packet) (ops : List (BitVec 5)) (f : Packet → State → State) (s : State) : State :=
  let s := s.take p
  if s.reaches t = false then s
  else
    match (s.tile t).asked p ops with
    | none => s.countEpdisc t
    | some r => f r s

/-- The data of an RGET have come: it writes them to its destination and retires, or waits for the destination. -/
def State.rgetData (t : PT) (d : List Byte) (s : State) : State :=
  let s := s.modTile t fun x => { x with q := { x.q with got := some d } }
  let x := s.tile t
  match x.uopAt with
  | some (.rget port dst w off) =>
    if x.s.arrived ∧ x.s.seq = .blocked then
      match rgetBody t port dst w off s with
      | .ok s => s
      | .error e => s.stopUop t e
    else s
  | _ => s

/-- `RD_DATA` (R298). -/
def execRdData (p : Packet) (s : State) : Out :=
  .next (match p.dst with
    | .tile t => s.respond t p readOps fun r s => (s.modTile t (Tile.answeredBy r)).rgetData t (pkData p)
    | _ => s.take p)

/-- `WR_ACK` (R298): the micro-op that wrote retires (R124 to R126). -/
def execWrAck (p : Packet) (s : State) : Out :=
  .next (match p.dst with
    | .tile t => s.respond t p writeOps fun r s => (s.modTile t (Tile.answeredBy r)).settleDone t
    | _ => s.take p)

/-- `ERR` (R124, R125, R299). -/
def execErr (p : Packet) (s : State) : Out :=
  .next (match p.dst with
    | .tile t => s.respond t p (readOps ++ writeOps) fun r s =>
        let k := p.addr.toNat % 8
        if k = errBusy ∨ k = errReset then
          s.modTile t fun x => { x with q := { x.q with
            reissues := x.q.reissues ++ [{ req := r, at_ := s.now + s.cycles t.bay 256 }] } }
        else
          let s := s.modTile t fun x => let x := x.answeredBy r; { x with s := { x.s with lost := true } }
          if k = errRefused ∨ k = errImBusy then
            let s := s.modTile t fun x => { x with s := { x.s with fcause := 4 } }
            s.signal Ev.tileIllegal (s.ptPart t) (tileOps (s.hosted t) t ++ [(s.tile t).s.pc.toNat, 4])
          else s
    | _ => s.take p)

/-! ### Credits and acknowledgements (R167, R168, R304, R869) -/

/-- What credits or acknowledgements of the port's own phase do to it; others are discarded. -/
def Producer.credit (k : FCount) (n : Nat) (phase : Bool) (x : Producer) : Producer :=
  if phase != x.phase then x
  else match k with
    | .credit => { x with credits := min (x.credits + n) 16 }
    | .ack => { x with unacked := x.unacked - n }

/-- A credit or acknowledgement packet reaches its port, its fountain node or its gateway. -/
def State.creditAt (k : FCount) (p : Packet) (s : State) : State :=
  let n := p.addr.toNat / 16 % 32
  let phase := p.addr.getLsbD 9
  match p.dst with
  | .gateway _ =>
    let s := s.take p
    let key := p.ext.toNat - 1
    let g := s.gateway p.part key
    s.setGateway p.part key { g with prod := g.prod.credit k n phase }
  | .tile t =>
    let s := s.take p
    if s.reaches t = false then s
    else if p.ext = 0 then
      let port := p.addr.toNat % 16
      if phase != ((s.tile t).port port).prod.phase then s.countEpdisc t
      else s.modTile t fun x => x.modPort port fun y => { y with prod := y.prod.credit k n phase }
    else
      match s.hosted t, s.fountRow t (p.ext.toNat - 1), p.src with
      | some l, some f, .tile u =>
        if u = t then
          match (s.frameOf p.part).fountPort l f.fid with
          | none => s.countEpdisc t
          | some port =>
            if phase != ((s.tile t).port port).prod.phase then s.countEpdisc t
            else s.modTile t fun x => x.modPort port fun y => { y with prod := y.prod.credit k n phase }
        else
          match f.nodeOf l, (s.hosted u).bind f.nodeOf with
          | some i, some c => s.fountainReturn k p.part f i (c + 1) n phase
          | _, _ => s.countEpdisc t
      | _, _, _ => s.countEpdisc t
  | _ => s.take p

/-- `Q_ACK` (R869). -/
def execQAck (p : Packet) (s : State) : Out := .next (s.creditAt .ack p)
/-- `Q_CREDIT` (R869). -/
def execQCredit (p : Packet) (s : State) : Out := .next (s.creditAt .credit p)

/-! ### Closing inlets (R200, R201) -/

/-- The queue whose number a CLOSE carries, and the mode of its drain: purge, or that of its region. -/
def State.closeMode (s : State) (p : Packet) : DrainMode :=
  if p.addr.getLsbD 4 then .purge
  else
    let l := LT.ofKey ((p.ext.toNat - 1) / 8)
    (s.region p.part ((s.frameOf p.part).regionOf l)).mode

/-- A gateway's producer holds when it must, and answers the inlets that asked. -/
def State.holdGateway (part key : Nat) (src : Node) (s : State) : State :=
  let g := s.gateway part key
  if g.prod.mustHold && !g.prod.held then
    let s := g.prod.closers.foldl (fun s d => s.send (recallPacket src part 0 g.prod d)) s
    s.setGateway part key { g with prod := { g.prod with held := true } }
  else s

/-- A producer is asked to close. -/
def Producer.close (m : DrainMode) (from_ : Node) (ep : Bool) (x : Producer) : Producer :=
  { x with closing := some m, closers := (x.closers.filter fun c => decide (c.1 ≠ from_)) ++ [(from_, ep)] }

/-- `CLOSE` (R200): the port sends up to its stop point and holds; one that holds already answers at once. -/
def execClose (p : Packet) (s : State) : Out :=
  .next (match p.dst with
    | .tile t => s.atTile t p fun s =>
        let port := p.addr.toNat % 16
        let held := ((s.tile t).port port).prod.held
        let s := s.modTile t fun x => x.modPort port fun y => { y with prod := y.prod.close (s.closeMode p) p.src p.ep }
        if held then s.send (recallPacket (.tile t) p.part port ((s.tile t).port port).prod (p.src, p.ep)) else s.holdPort t port
    | .gateway g =>
      let s := s.take p
      let key := p.ext.toNat - 1
      let x := s.gateway p.part key
      let s := s.setGateway p.part key { x with prod := x.prod.close (s.closeMode p) p.src p.ep }
      if x.prod.held then s.send (recallPacket (.gateway g) p.part 0 x.prod (p.src, p.ep)) else s.holdGateway p.part key (.gateway g)
    | _ => s.take p)

/-- The queue of the tile that hosts `l` whose producer sends from node `n` through port `port`. -/
def State.queueOf (s : State) (p : Nat) (l : LT) (n : Node) (port : Nat) : Option Nat :=
  ((s.frameOf p).queues.find? fun b => decide (b.t = l) && (match s.prodOf p b with
    | some r => decide (s.prodNode b r = n) && decide (r.number = port)
    | none => false)).map fun b => b.q

/-- `RECALL` (R200): the inlet takes the port's unspent credits and send count, and confirms when all entries came. -/
def execRecall (p : Packet) (s : State) : Out :=
  .next (match p.dst with
    | .tile t =>
      let s := s.take p
      if s.reaches t = false then s
      else
        match s.hosted t with
        | none => s.countEpdisc t
        | some l =>
          match s.queueOf p.part l p.src (p.addr.toNat % 16) with
          | none => s.countEpdisc t
          | some q =>
            let s := s.modTile t fun x => x.setQueue q { x.queue q with
              recalled := some (p.addr.toNat / 16 % 32, p.addr.toNat / 512 % 16) }
            s.confirmAt t q
    | _ => s.take p)

/-! ### Weirs and floats -/

/-- `WEIR_ARR` (R311, R312). -/
def execWeirArr (p : Packet) (s : State) : Out :=
  .next (match p.dst, p.src with
    | .tile t, .tile u =>
      let s := s.take p
      if s.reaches t = false then s
      else
        match s.hosted t, s.hosted u with
        | some l, some c => s.weirArrive p.part (p.addr.toNat % 4096) l c (p.addr.getLsbD 12)
        | _, _ => s
    | _, _ => s.take p)

/-- `WEIR_REL` (R311). -/
def execWeirRel (p : Packet) (s : State) : Out :=
  .next (match p.dst with
    | .tile t =>
      let s := s.take p
      if s.reaches t = false then s
      else
        match s.hosted t with
        | some l => s.releaseAt p.part (p.addr.toNat % 4096) l
        | none => s
    | _ => s.take p)

/-- The FLOAT at tile `t` that sent this operation retires (R317). -/
def State.retireFloat (t : PT) (p : Packet) (s : State) : State :=
  let mine := fun (r : Packet) => decide (r.op = opFloatOp) && decide (r.tag = p.tag)
  if (s.tile t).q.out.any mine = false then s
  else
    let s := s.modTile t fun x => { x with q := { x.q with out := x.q.out.filter fun r => !mine r } }
    let x := s.tile t
    match x.uopAt with
    | some (.float act _) => if x.s.arrived ∧ act.toNat < 2 then s.retire t 0x05 (x.s.pc.toNat + 1) 7 else s
    | _ => s

/-- `FLOAT_OP` (R317): the home applies the operation, sends the notification, and the FLOAT that asked retires; a clear by
a micro-op begins the next fills of the float's windows (R361). -/
def execFloatOp (p : Packet) (s : State) : Out :=
  .next (match p.dst with
    | .tile t =>
      let s := s.take p
      if s.reaches t = false then s
      else
        let fid := p.addr.toNat % 4096
        let set := decide (p.addr.toNat / 4096 % 4 = 0)
        let s := if s.hasFloat p.part fid then
            let s := s.floatApply p.part fid set
            if set then s else s.nextFills p.part fid
          else s
        match p.src with
        | .tile u => s.retireFloat u p
        | _ => s
    | _ => s.take p)

/-- A wait for the value that the shadow has taken completes (R318). -/
def State.wakeFloat (t : PT) (fid : Nat) (v : Bool) (s : State) : State :=
  let x := s.tile t
  match x.uopAt with
  | some (.float act f) =>
    if f.toNat = fid ∧ act.toNat = (if v then 2 else 3) ∧ x.s.seq = .blocked ∧ x.s.blk = 7 then s.next t 0x05 else s
  | _ => s

/-- The shadow of logical tile `l` at tile `t` applies a notification (R317, R318). -/
def State.shadowVal (t : PT) (p fid : Nat) (l : LT) (n : BitVec 16) (v : Bool) (s : State) : State :=
  let x := s.float p fid
  (s.setFloat p fid { x with
    shadows := Tab.put x.shadows l.key (v, n)
    early := x.early.filter fun e => !(decide (e.1 = l.key) && decide (e.2.1 = n)) }).wakeFloat t fid v

/-- The shadow applies the notifications held for it while the next count is among them (R317). -/
def State.shadowRun (t : PT) (p fid : Nat) (l : LT) : Nat → State → State
  | 0, s => s
  | n + 1, s =>
    match (s.float p fid).nextVal l.key with
    | none => s
    | some e => (s.shadowVal t p fid l e.1 e.2).shadowRun t p fid l n

/-- `FLOAT_VAL` (R317): the router passes it down the notification tree, and the shadow applies notifications in change-count
order. -/
def execFloatVal (p : Packet) (s : State) : Out :=
  .next (match p.dst with
    | .tile t =>
      let s := s.take p
      if s.reaches t = false then s
      else
        let fid := p.addr.toNat % 4096
        match s.hosted t with
        | none => s
        | some l =>
          match s.shadow p.part fid l with
          | none => s
          | some sh =>
            let n : BitVec 16 := p.ext.setWidth 16
            let v := p.addr.getLsbD 12
            let s := if p.src = .tile t then s else s.notify t p.part fid v n
            let x := s.float p.part fid
            if n = sh.2 + 1 then (s.shadowVal t p.part fid l n v).shadowRun t p.part fid l x.early.length
            else if (n - sh.2).toNat < 2 ^ 15 ∧ n ≠ sh.2 then s.setFloat p.part fid { x with early := x.early ++ [(l.key, n, v)] }
            else s
    | _ => s.take p)

/-! ### Rim traffic (R438, R440, R447, R448) -/

/-- The HBM address that body flit 0 of a rim packet holds (R278). -/
def rimAddr (p : Packet) : Nat := ((p.body.head?.map fun f => f.data.toNat).getD 0) % 2 ^ 48

/-- `RIM_WR`: a tile's write to HBM is stored by read, merge and write, and acknowledged. A packet to a lost stack is lost with
it (R57). -/
def execRimWr (p : Packet) (s : State) : Out :=
  .next (match p.dst with
    | .hbm st =>
      let s := s.take p
      let pa := rimAddr p
      if s.segUp st = false then s else
      let d := (p.body.drop 1).flatMap fun f => leBytes 16 f.data.toNat
      if s.assigned p.part pa d.length then (s.writeRange p.part pa d).2.send (answer p opWrAck p.addr [])
      else s.send (errAnswer p errRefused)
    | _ => s.take p)

/-- `RIM_RD`: a tile's read of HBM, of the bytes that ADDR counts, at most the 64 that one answer carries (R276); poison is
answered with UNCORR and resets the partition's compute (R448, R449). (DEDUCED, log 28) -/
def execRimRd (p : Packet) (s : State) : Out :=
  .next (match p.dst with
    | .hbm st =>
      let s := s.take p
      let pa := rimAddr p
      let n := min p.addr.toNat 64
      if s.segUp st = false then s
      else if s.assigned p.part pa n = false then s.send (errAnswer p errRefused)
      else
        let r := s.readRange p.part pa n
        match r.1.bad with
        | [] => r.2.send (answer p opRdData p.addr (flitsOf (opN n) r.1.data))
        | b :: _ => (r.2.send (errAnswer p errUncorr)).poisonConsumed p.part b st
    | _ => s.take p)

end Sys2Proof.Machine
end

