-- ==== Sys2Proof/Machine/Flow.lean ====
section
/-!
DEFINITION. Spill and refill, drains, the beginning of a step and gateway triggers (spec 04_dataflow R182 to R214;
05_frame R240; 11_detection R523; 13_host R615, R616).
-/

namespace Sys2Proof.Machine

/-! ### Spill (R183 to R198) -/

/-- The number of the allocation of the spillway basin, beside the tensors' (R193). -/
def basinAllocKey : Nat := 2 ^ 33

/-- The first free chunk of the basin. -/
def State.freeChunk (s : State) (p : Nat) : Option Nat :=
  match s.alloc p basinAllocKey with
  | none => none
  | some a =>
    let used := s.chunksOf p
    (List.range (used.length + 1)).find? fun i => !used.contains i && decide ((i + 1) * 256 ≤ a.size)

/-- Entries of a queue that are spilled (R188). -/
def Queue.spilled (q : Queue) : Nat := q.seg.length + (q.chunks.flatMap fun c => c.entries).length

/-- A spill that is not performed (R196): 1 SPILL_QMAX, 2 no free chunk, 3 the segment is full and the basin disabled. -/
def State.spillLimit (t : PT) (q reason : Nat) (s : State) : State :=
  s.signal Ev.spillLimit (s.ptPart t) ((match s.hosted t with
    | some l => [l.x, l.y]
    | none => [0x7FF, 0x3FF]) ++ [q, reason])

/-- The entries moved out of a queue return their credits (R168). -/
def State.returnMoved (t : PT) (q : Nat) (es : List QEntry) (s : State) : State :=
  es.foldl (fun s e => s.returnFor .credit t q 1 e.phase e.ep) s

/-- The words of the cells that `n` entries appended to a spill segment take. -/
def Queue.cellWords (q n : Nat) (qu : Queue) (w : CodeWord) : Bool :=
  (List.range n).any fun i => (segWords q (qu.segAt + qu.seg.length + i)).contains w

/-- Move `a` entries of a queue to the segment and `b` to chunk `c` (R188, R196); the entries are read under their code, and a
spill that finds an uncorrectable word is not performed (R159). -/
def State.spillMove (t : PT) (q p a b c : Nat) (s : State) : State :=
  let x := s.tile t
  let qu := x.queue q
  match x.checked fun w => (List.range (a + b)).any fun i => (queueWords q (qu.place i)).contains w with
  | .error w => s.sramUncorr t w
  | .ok x' =>
    let es := qu.fifo.take (a + b)
    let ch : List Chunk := if b = 0 then [] else [{ num := c, entries := es.drop a, committed := false }]
    let s := s.setTile t ((x'.rewritten (qu.cellWords q a)).setQueue q { qu with
      fifo := qu.fifo.drop (a + b), seg := qu.seg ++ es.take a, chunks := qu.chunks ++ ch })
    let s := s.returnMoved t q es
    let s := s.bump (Reg.prtSpillEvents p) 31 0 1
    let s := (s.bump (Reg.prtSpillEntries p) 31 0 a).bump (Reg.prtSpillEntries p) 63 32 b
    let s := s.recount p
    (s.setField (Reg.prtBasinUse p) 63 32 (max (s.field (Reg.prtBasinUse p) 63 32) (s.part p).run.chunksUsed)).ceHigh t x

/-- The cells left in the spill segment of a queue that has no chunk (R188). -/
def Queue.cells (qu : Queue) : Nat := if qu.chunks = [] then 15 - qu.seg.length else 0

/-- The entries that a spill moves: 8, or fewer, within the segment's cells when the basin is off (R187, R188). -/
def State.spillCount (s : State) (t : PT) (q : Nat) : Nat :=
  let qu := (s.tile t).queue q
  if (s.reg (Reg.prtFlowcfg (s.ptPart t))).getLsbD 48 then min 8 qu.fifo.length
  else min (min 8 qu.fifo.length) qu.cells

/-- Spill one full queue of a stalled tile (R187, R188, R196). (DESIGN CHOICE, log 26) -/
def State.spillQueue (t : PT) (q : Nat) (s : State) : State :=
  let qu := (s.tile t).queue q
  let p := s.ptPart t
  let n := s.spillCount t q
  let a := min n qu.cells
  if s.field (Reg.prtFlowcfg p) 31 16 < qu.spilled + n then s.spillLimit t q 1
  else if n = 0 then s.spillLimit t q 3
  else
    match s.freeChunk p with
    | none => if n - a ≠ 0 then s.spillLimit t q 2 else s.spillMove t q p a (n - a) 0
    | some c => s.spillMove t q p a (n - a) c

/-- The stall age of a tile in microseconds (R184); it does not advance while HALT_N holds the module. -/
def State.stallAge (s : State) (t : PT) : Nat :=
  let x := s.tile t
  let now := if s.phys.power.halted then s.phys.power.haltAt else s.now
  x.s.stall + match x.s.stallSince with
    | some a => (now - a) / 1000
    | none => 0

/-- The tile is stalled (R183, R185). -/
def State.stalled (s : State) (t : PT) : Bool :=
  let age := s.field (Reg.prtFlowcfg (s.ptPart t)) 15 0
  decide (age ≠ 0) && (s.tile t).stallCond && decide (age ≤ s.stallAge t)

/-- The moment at which the stall age of a tile reaches SPILL_AGE. -/
def State.stallDue (s : State) (t : PT) : Nat :=
  match (s.tile t).s.stallSince with
  | some a => a + (s.field (Reg.prtFlowcfg (s.ptPart t)) 15 0 - (s.tile t).s.stall) * 1000
  | none => s.now

/-- `SPILL` (R187, R198): each queue of the stalled tile that holds 16 entries is spilled, and the stall age restarts.
(DESIGN CHOICE, log 26) -/
def execSpill (t : PT) (s : State) : Out :=
  .next (
    if s.phys.power.halted ∨ (s.tile t).stallCond = false ∨ s.field (Reg.prtFlowcfg (s.ptPart t)) 15 0 = 0 then s
    else
      let s := s.passTo (s.stallDue t)
      if s.stalled t = false then s
      else
        let s := (List.range 8).foldl (fun s q => if 16 ≤ ((s.tile t).queue q).depth then s.spillQueue t q else s) s
        (s.modTile t fun x => { x with s := { x.s with stall := 0, stallSince := none } }).restall t)

/-- The bytes of a chunk: a header whose layout the spec leaves open, and its entries (R193). (DESIGN CHOICE, log 25) -/
def chunkBytes (free : Nat) (es : List QEntry) : List Byte := leBytes 16 free ++ padTo 240 (es.flatMap fun e => leBytes 16 e.data.toNat)

/-- `SPILL_BASIN_DONE` (R197): the oldest chunk whose header is not committed is written. -/
def execSpillBasinDone (t : PT) (q : Nat) (s : State) : Out :=
  let qu := (s.tile t).queue q
  let p := s.ptPart t
  .next (match qu.chunks.find? fun c => !c.committed with
    | none => s
    | some c =>
      let s := match s.alloc p basinAllocKey with
        | none => s
        | some a =>
          let d := s.draw
          (d.2.writeRange p (a.base + 256 * c.num) (chunkBytes d.1 c.entries)).2
      s.modTile t fun x => x.setQueue q { qu with chunks := qu.chunks.map fun d => if d = c then { d with committed := true } else d })

/-- `REFILL` (R190, R195, R448): the head chunk moves into the segment; a poisoned chunk resets the partition's compute. -/
def execRefill (t : PT) (q : Nat) (s : State) : Out :=
  let qu := (s.tile t).queue q
  let p := s.ptPart t
  .next (match qu.chunks with
    | [] => s
    | c :: r =>
      if c.committed = false ∨ 15 < qu.seg.length + c.entries.length then s
      else
        match s.alloc p basinAllocKey with
        | none => s
        | some a =>
          let rd := s.readRange p (a.base + 256 * c.num) 256
          match rd.1.bad with
          | b :: _ => rd.2.poisonConsumed p b 2
          | [] =>
            let s := rd.2.modTile t fun x =>
              (x.rewritten (qu.cellWords q c.entries.length)).setQueue q { qu with seg := qu.seg ++ c.entries, chunks := r }
            s.recount p)

/-! ### Triggers and the beginning of a step (R240, R523, R615, R616) -/

/-- The bindings of a tensor to gateways. -/
def State.gateBindings (s : State) (p tid : Nat) : List QueueRec :=
  (s.frameOf p).queues.filter fun b => decide (b.prod = .gateway tid)

/-- Every binding of a tensor can take one more trigger (R615). -/
def State.canTrigger (s : State) (p tid : Nat) : Bool :=
  (s.gateBindings p tid).all fun b => decide ((s.gateway p (gwKey b.t b.q)).triggers < 4)

/-- Trigger a tensor: every binding takes one more trigger, or none does. -/
def State.triggerTid (p tid : Nat) (s : State) : State :=
  if s.canTrigger p tid then
    (s.gateBindings p tid).foldl (fun s b =>
      let k := gwKey b.t b.q
      let s := s.bumpWrap (Reg.prtGatestat p) 63 32 1
      s.setGateway p k { s.gateway p k with triggers := (s.gateway p k).triggers + 1 }) s
  else s

/-- Trigger the step schedule in ascending TID order (R616). -/
def State.triggerSchedule (p : Nat) (s : State) : State := (s.part p).own.schedule.foldl (fun s tid => s.triggerTid p tid) s

/-- A step begins: what the floats and the windows hold is kept, and the schedule is triggered (R523, R530 step 5, R616). -/
def State.beginStep (p : Nat) (s : State) : State :=
  let x := s.part p
  let s := s.modCommit p fun c => { c with
    suspect := false, cause := 0, named := [], fencedNow := [], df := .none, tries := 0, digests := [], trials := []
    startFloats := (s.frameOf p).floats.filterMap fun f => if (s.float p f.fid).value then some (f.fid, true) else none
    startFills := x.run.windows.filterMap fun w => if w.2.fill = 0 then none else some (w.1, w.2.fill)
    settled := false, gapRaised := false, begun := true, beganAt := s.now }
  (s.forgetRange p).triggerSchedule p

/-- Once every region is open after a Frame or a recovery, the step begins (R523). -/
def State.maybeBegin (p : Nat) (s : State) : State :=
  if (s.part p).commit.begun = false ∧ (s.part p).own.frame.isSome ∧ s.allOpen p then s.beginStep p else s

/-! ### Drains (R200 to R208, R214) -/

/-- APPLYING: the partition's Frame is being applied (R264, R265). -/
def State.applying (s : State) (p : Nat) : Bool := decide (s.frameSt p = 3)

/-- GO for region `r` in a mode (R203, R214). -/
def State.drainGo (p r : Nat) (m : DrainMode) (s : State) : State :=
  let s := s.modRun p fun x => { x with selRegion := r }
  let st := (s.region p r).st
  if s.applying p ∨ (s.part p).own.frame.isNone then s
  else
    match m with
    | .purge =>
      if st = .opened ∨ st = .closing ∨ st = .emptying ∨ st = .stuck then
        let s := s.setRegion p r { st := .purging, mode := .purge, goAt := s.now }
        let s := ((s.frameOf p).inlets r).foldl (fun s b => s.closeInlet p true b) s
        s.purgeTiles p r
      else s
    | m =>
      if st = .opened then
        let s := s.setRegion p r { st := .closing, mode := m, goAt := s.now }
        let s := ((s.frameOf p).inlets r).foldl (fun s b => s.closeInlet p false b) s
        s.maybeEmptying p r
      else s

/-- REOPEN of region `r` (R203, R208, R214). -/
def State.reopenGo (p r : Nat) (s : State) : State :=
  let s := s.modRun p fun x => { x with selRegion := r }
  if s.applying p ∨ (s.part p).own.frame.isNone then s else (s.reopenRegion p r).maybeBegin p

def RegionState.code : RegionState → Nat
  | .opened => 0
  | .closing => 1
  | .emptying => 2
  | .stuck => 3
  | .purging => 4
  | .drained => 5

/-- `PRT_DRAIN_STAT.STATE` of a region (R214); a number that is no region of the applied Frame reads 0, as its bit of
`PRT_DRAINEDk` does. (DESIGN CHOICE, log 27) -/
def State.regionCode (s : State) (p r : Nat) : Nat :=
  if (s.part p).run.regions.any fun kx => kx.1 == r then (s.region p r).st.code
  else if (s.part p).own.frame.isSome ∧ ((s.frameOf p).regionIds).contains r then (s.region p r).st.code
  else 0

/-- `DRAIN_BOUNDARY` (R201). -/
def execDrainBoundary (p r : Nat) (s : State) : Out := .next (s.drainGo p r .boundary)
/-- `DRAIN_IMMEDIATE` (R201). -/
def execDrainImmediate (p r : Nat) (s : State) : Out := .next (s.drainGo p r .immediate)
/-- `DRAIN_PURGE` (R204). -/
def execDrainPurge (p r : Nat) (s : State) : Out := .next (s.drainGo p r .purge)
/-- `REOPEN` (R208). -/
def execReopen (p r : Nat) (s : State) : Out := .next (s.reopenGo p r)

/-- `CLOSE_NO_ANSWER` (R204): 20 µs after the close request of a purge its producer is taken as having returned all. -/
def execCloseNoAnswer (p : Nat) (c : LT) (q : Nat) (s : State) : Out :=
  let r := (s.frameOf p).regionOf c
  .next (match (s.frameOf p).queues.find? fun b => decide (b.t = c) && decide (b.q = q) && b.inlet with
    | none => s
    | some b =>
      let qu := (s.tile (s.runsAt c)).queue q
      if (s.region p r).st = .purging ∧ qu.confirmed = false ∧ qu.recalled = none then
        (s.passTo ((s.region p r).goAt + 20000)).takeRecall p b
      else s)

/-- The Tide at which DRAIN_LIMIT has elapsed since GO (R203, R214). -/
def State.drainLimit (s : State) (p r : Nat) : Nat := (s.region p r).goAt + max 1 (s.field (Reg.prtFlowcfg p) 47 32) * 1000

/-- A region that is CLOSING or EMPTYING is STUCK (R203, R206). -/
def State.stick (p r : Nat) (s : State) : State :=
  let x := s.region p r
  if x.st = .closing ∨ x.st = .emptying then
    let s := s.setRegion p r { x with st := .stuck }
    s.signal Ev.drainTimeout p [p, r, s.notQuiet p r]
  else s

/-- `DRAIN_TIMEOUT` (R206): DRAIN_LIMIT after GO the region is STUCK. -/
def execDrainTimeout (p r : Nat) (s : State) : Out :=
  let x := s.region p r
  .next (if x.st = .closing ∨ x.st = .emptying then (s.passTo (s.drainLimit p r)).stick p r else s)

/-- `REGION_DRAINED` (R203, R207): every recall is confirmed, and every tile is quiet or the purge is complete. Where DRAIN_LIMIT
has elapsed the region is STUCK first, as the row listed first says. (DESIGN CHOICE, log 27) -/
def execRegionDrained (p r : Nat) (s : State) : Out :=
  let st := (s.region p r).st
  .next (
    let s := if st ≠ .purging ∧ s.drainLimit p r ≤ s.now then s.stick p r else s
    if s.inletsConfirmed p r = false then s
    else if st = .purging then s.enterDrained p r
    else if (st = .emptying ∨ st = .stuck) ∧ s.notQuiet p r = 0 then s.enterDrained p r
    else s)

/-- `FLOW_CLR_DISCARD` (R214). -/
def execFlowClrDiscard (p : Nat) (s : State) : Out := .next (s.setReg (Reg.prtFlowDiscard p) 0)
/-- `FLOW_CLR_PEAK` (R214). -/
def execFlowClrPeak (p : Nat) (s : State) : Out :=
  .next (s.setField (Reg.prtBasinUse p) 63 32 (s.chunksOf p).length)
/-- `FLOW_CLR_SPILL` (R214). -/
def execFlowClrSpill (p : Nat) (s : State) : Out :=
  .next ((s.setReg (Reg.prtSpillEvents p) 0).setReg (Reg.prtSpillEntries p) 0)

/-! ### Gateways (R240) -/

/-- A start token of a gateway: its STEP and GEN; the spec names no tile and no operand for it (R171, R240).
(DESIGN CHOICE, log 25) -/
def State.gatewayToken (s : State) (p free : Nat) : Flitem :=
  let hi := 2 ^ 96 * ((s.stepNo p).toNat % 2 ^ 32) + 2 ^ 80 * (s.frameOf p).gen.toNat + 2 ^ 59 * (free / 65536 % 2 ^ 21)
  { data := BitVec.ofNat 128 (hi + free % 65536 * 8), tok := true }

/-- A logical tile's host and DEP in the active version of the partition's full map (R279, R296). -/
def State.mapOf (s : State) (p : Nat) (l : LT) : Option (PT × Bool) :=
  let r := (s.part p).run
  ((if r.mapTv then r.map1 else r.map0).find? fun e => decide (e.1 = l.key)).map (·.2)

/-- Send entries from a gateway's producer to its queue, four to a packet (R276, R296). -/
def State.gatewaySend (p : Nat) (b : QueueRec) : Nat → List Flitem → State → State
  | 0, _, s => s
  | n + 1, es, s =>
    match es with
    | [] => s
    | _ =>
      let k := gwKey b.t b.q
      let g := s.gateway p k
      match s.mapOf p b.t with
      | none => s
      | some d =>
        let body := es.take 4
        let s := s.send { op := opQsend, dst := .tile d.1, src := .gateway (nearestGateway d.1), tag := 0,
                          addr := BitVec.ofNat 16 (b.q + 8 * flag g.prod.phase), seq := g.prod.seq, ep := d.2,
                          ext := 0, part := p, body := body }
        let s := s.setGateway p k { g with prod := g.prod.sentN body.length false }
        s.gatewaySend p b n (es.drop 4)

/-- `GATEWAY_STREAM` (R240): the start token, then the entries of the tensor that credits allow; a poisoned entry is not
sent and resets the partition's compute (R448). -/
def execGatewayStream (p : Nat) (c : LT) (q : Nat) (s : State) : Out :=
  .next (match (s.frameOf p).queues.find? fun b => decide (b.t = c) && decide (b.q = q) with
    | none => s
    | some b =>
      match b.prod with
      | .gateway tid =>
        let k := gwKey c q
        let g := s.gateway p k
        if g.prod.held ∨ (g.pos.isNone ∧ g.triggers = 0) ∨ s.phys.power.halted then s
        else
          let g := if g.pos.isSome then g else { g with pos := some 0, started := !b.start, triggers := g.triggers - 1 }
          let s := s.setGateway p k g
          let tok := !g.started && decide (g.prod.credits ≠ 0)
          let s := if tok then
              let d := s.draw
              let s := d.2.gatewaySend p b 1 [d.2.gatewayToken p d.1]
              s.setGateway p k { s.gateway p k with started := true }
            else s
          let g := s.gateway p k
          if g.started = false then s
          else
            match s.alloc p tid, (s.frameOf p).tensor tid with
            | some a, some t =>
              let size := tensorBytes t
              let pos := g.pos.getD 0
              let n := min g.prod.credits ((size + 15) / 16 - pos)
              let rd := s.readRange p (a.base + 16 * pos) (min (16 * n) (size - 16 * pos))
              match rd.1.bad with
              | bad :: _ => rd.2.poisonConsumed p bad 3
              | [] =>
                let s := rd.2.gatewaySend p b n (flitsOf n rd.1.data)
                s.setGateway p k { s.gateway p k with pos := if pos + n = (size + 15) / 16 then none else some (pos + n) }
            | _, _ => s
      | _ => s)

end Sys2Proof.Machine
end

