-- ==== Sys2Proof/Machine/FrameAlloc.lean ====
section
/-!
DEFINITION. The HBM placement of a Frame: what is kept, the spread zone, the slices of the staging area and the layer
groups (spec 05_frame R249, 07_scriber R366 to R370, 08_plane R409, R410, 09_memory R436).
-/

namespace Sys2Proof.Machine

/-- Ranges taken in a zone: first byte and the byte after the last. -/
abbrev Taken := List (Nat × Nat)

/-- Round up to a multiple. (DESIGN CHOICE, log 31) -/
def roundUp (a n : Nat) : Nat := (n + a - 1) / a * a

/-- The lowest aligned place of `size` bytes that meets no range taken. -/
def firstFit (taken : Taken) (align size : Nat) : Nat :=
  (0 :: taken.map fun r => roundUp align r.2).foldl (fun best c =>
    if taken.all (fun r => decide (c + size ≤ r.1) || decide (r.2 ≤ c)) then
      match best with
      | none => some c
      | some b => some (min b c)
    else best) none |>.getD 0

/-- Two declarations of a tensor agree in all that R249 compares. -/
def TensorRec.sameDecl (a b : TensorRec) : Bool := a.fmt == b.fmt && a.scl == b.scl && a.rank == b.rank && a.dims == b.dims

/-- The tensor keeps its allocation and its contents (R249). -/
def State.keeps (s : State) (p : Nat) (t : TensorRec) : Option Alloc :=
  match (s.part p).own.lastFrame with
  | none => none
  | some f =>
    match f.tensor t.tid with
    | some u => if u.persist && t.persist && u.sameDecl t then s.alloc p t.tid else none
    | none => none

/-- The tensors of a layer, without repeats. -/
def LayerRec.tids (l : LayerRec) : List Nat :=
  [l.w, l.rt, l.g, l.st].foldl (fun r t => if t = 0 ∨ r.contains t then r else r ++ [t]) []

/-- Join a layer's tensors to the groups they share a tensor with (R368). -/
def joinGroup (ts : List Nat) (gs : List (List Nat)) : List (List Nat) :=
  let hit := gs.filter fun g => g.any ts.contains
  let rest := gs.filter fun g => !(g.any ts.contains)
  rest ++ [(hit.flatten ++ ts).foldl (fun r t => if r.contains t then r else r ++ [t]) []]

/-- The layer groups of a Frame (R368). -/
def Frame.groups (f : Frame) : List (List Nat) := f.layers.foldl (fun gs l => joinGroup l.tids gs) []

def Frame.bytesOf (f : Frame) (tid : Nat) : Nat :=
  match f.tensor tid with
  | some t => tensorBytes t
  | none => 0

def Frame.groupBytes (f : Frame) (g : List Nat) : Nat := g.foldl (fun n t => n + f.bytesOf t) 0

/-- Insert a group in descending order of total bytes; equal totals keep their order. -/
def insertGroup (f : Frame) (g : List Nat) : List (List Nat) → List (List Nat)
  | [] => [g]
  | h :: r => if f.groupBytes h < f.groupBytes g then g :: h :: r else h :: insertGroup f g r

/-- What an allocation comes to: the Frame store, every other allocation, the spread share and the slice in bytes. -/
structure Placed where
  store : Alloc
  allocs : Tab Alloc
  share : Nat
  slice : Nat
deriving DecidableEq, Repr

def stackZone (k : Nat) : Nat := 0x100000000000 + 0x2000000000 * k

/-- The allocation so far: what is placed, and what is taken in the spread zone and in each stack. -/
structure Placing where
  allocs : Tab Alloc
  spread : Taken
  stackTab : Tab Taken
deriving DecidableEq, Repr

/-- Note an allocation under its key. (DESIGN CHOICE, log 31) -/
def Placing.put (k : Nat) (a : Alloc) (x : Placing) : Placing := { x with allocs := Tab.put x.allocs k a }

/-- Place `size` bytes in the spread zone. -/
def Placing.spreadPut (key align size : Nat) (x : Placing) : Placing :=
  let o := firstFit x.spread align size
  { (x.put key { base := o, size := size, stack := none }) with spread := x.spread ++ [(o, o + size)] }

/-- Place `size` bytes in a stack's zone of `lim` bytes. -/
def Placing.stackPut (key k size lim : Nat) (x : Placing) : Option Placing :=
  let t := Tab.get [] x.stackTab k
  let o := firstFit t 64 size
  if lim < o + size then none
  else some { (x.put key { base := stackZone k + o, size := size, stack := some k }) with
              stackTab := Tab.put x.stackTab k (t ++ [(o, o + size)]) }

def Placing.free (k lim : Nat) (x : Placing) : Nat := lim - (Tab.get [] x.stackTab k).foldl (fun n r => n + (r.2 - r.1)) 0

/-- Place what is kept (R367, order 1). -/
def State.placeKept (s : State) (p : Nat) (f : Frame) (x : Placing) : Placing :=
  f.tensors.foldl (fun x t =>
    match s.keeps p t with
    | none => x
    | some a =>
      match a.stack with
      | none => { (x.put t.tid a) with spread := x.spread ++ [(a.base, a.base + a.size)] }
      | some k =>
        let o := a.base - stackZone k
        { (x.put t.tid a) with stackTab := Tab.put x.stackTab k (Tab.get [] x.stackTab k ++ [(o, o + a.size)]) }) x

def storeKey : Nat := 2 ^ 34

/-- The stack of a layer group: that of a kept member, else the one with the most free bytes, the lower number on a tie
(R368, R249). -/
def Placing.stackFor (lims : List (Nat × Nat)) (g : List Nat) (x : Placing) : Option Nat :=
  match g.findSome? fun t => (Tab.get { base := 0, size := 0, stack := none } x.allocs t).stack with
  | some k => some k
  | none => (lims.foldl (fun (b : Option (Nat × Nat)) kl =>
      let n := x.free kl.1 kl.2
      match b with
      | none => some (kl.1, n)
      | some c => if c.2 < n then some (kl.1, n) else b) none).map (·.1)

/-- Place the groups one after another. -/
def placeGroups (f : Frame) (lims : List (Nat × Nat)) : List (List Nat) → Placing → Option Placing
  | [], x => some x
  | g :: r, x =>
    match x.stackFor lims g with
    | none => none
    | some k =>
      let lim := ((lims.find? fun l => l.1 == k).map (·.2)).getD 0
      match g.foldl (fun (y : Option Placing) t => y.bind fun y =>
          if (Tab.get { base := 0, size := 0, stack := none } y.allocs t).size ≠ 0 then some y
          else y.stackPut t k (f.bytesOf t) lim) (some x) with
      | none => none
      | some x => placeGroups f lims r x

/-- The allocation of a Frame of `len` bytes in partition `p` (R367); none when it does not fit (R369, R410, R436). -/
def State.allocate (s : State) (p : Nat) (f : Frame) (len : Nat) : Option Placed :=
  let ks := s.stacksOf p
  let ns := ks.length
  if ns = 0 then none
  else
    let x := s.placeKept p f { allocs := [], spread := [], stackTab := [] }
    let inStack := x.stackTab ≠ []
    let x := x.spreadPut storeKey 64 len
    let basin := max 1 (min 16 (s.field (Reg.prtBasin p) 4 0))
    let x := x.spreadPut basinAllocKey gib (basin * gib)
    let groups := f.groups.foldl (fun gs g => insertGroup f g gs) []
    let grouped := groups.flatten
    let x := f.tensors.foldl (fun x t =>
      if grouped.contains t.tid ∨ (Tab.get { base := 0, size := 0, stack := none } x.allocs t.tid).size ≠ 0 then x
      else x.spreadPut t.tid 64 (tensorBytes t)) x
    let need := (x.spread.foldl (fun m r => max m r.2) 0 + ns * gib - 1) / (ns * gib)
    let old := s.field (Reg.prtHbmSpread p) 39 32
    let share := if inStack then old else need
    let sizes := ks.map fun k => (k, ((s.hbmRegion p k).map (·.2)).getD 0)
    if share < need ∨ sizes.any (fun z => decide (z.2 < share)) then none
    else
      let lims := sizes.map fun z => (z.1, gib * (z.2 - share))
      let slice := max 1 (min 1024 (s.field (Reg.prtStage p) 10 0)) * gib / ns / 2 ^ 26 * 2 ^ 26
      let x := lims.foldl (fun (y : Option Placing) l => y.bind fun y => y.stackPut (sliceKey l.1) l.1 slice l.2) (some x)
      match x.bind fun x => placeGroups f lims groups x with
      | none => none
      | some x =>
        if f.layers.any fun r => decide (slice < f.bytesOf r.w + f.bytesOf r.st + 64) then none
        else
          some { store := Tab.get { base := 0, size := 0, stack := none } x.allocs storeKey
                 allocs := Tab.drop x.allocs storeKey, share := share, slice := slice }

/-- Room for a Frame store of `len` bytes beside what is allocated now (R255). (DESIGN CHOICE, log 31) -/
def State.storeRoom (s : State) (p len : Nat) : Bool :=
  let total := (s.stacksOf p).foldl (fun n k => n + gib * ((s.hbmRegion p k).map (·.2)).getD 0) 0
  let used := (s.part p).own.allocs.foldl (fun n a => n + a.2.size) 0 +
    (match (s.part p).own.store with
    | some a => a.size
    | none => 0)
  decide (used + len ≤ total)

end Sys2Proof.Machine
end

