-- ==== Sys2Proof/Machine/FrameParse.lean ====
section
/-!
DEFINITION. The Frame byte string: its header, its sections and its records (spec 05_frame R216 to R250).
-/

namespace Sys2Proof.Machine

/-- A validation failure: the reason of R257, the section type and the byte offset. -/
structure Rej where
  reason : Nat
  sect : Nat
  off : Nat
deriving DecidableEq, Repr

def rejFormat : Nat := 0x01
def rejLength : Nat := 0x02
def rejCrc : Nat := 0x03
def rejSignature : Nat := 0x04
def rejGen : Nat := 0x05
def rejSection : Nat := 0x06
def rejField : Nat := 0x07
def rejOutside : Nat := 0x08
def rejOverlap : Nat := 0x09
def rejProgram : Nat := 0x0A
def rejBinding : Nat := 0x0B
def rejReference : Nat := 0x0C
def rejCapacity : Nat := 0x0D
def rejPersist : Nat := 0x0E
def rejNotDrained : Nat := 0x0F
def rejBusy : Nat := 0x10

/-- A check: it passes or ends validation. -/
abbrev Chk := Except Rej Unit

/-- The condition holds, or validation ends with the reason at the section and offset. -/
def chk (c : Bool) (reason sect off : Nat) : Chk := if c then .ok () else .error { reason := reason, sect := sect, off := off }

/-- Every check of a list, in order. -/
def allChk {α : Type} (f : α → Chk) : List α → Chk
  | [] => .ok ()
  | a :: r => do
    f a
    allChk f r

/-- Bytes [o, o + n) are zero; the first that is not is reported (R223). -/
def chkZero (d : List Byte) (sect o n : Nat) : Chk :=
  allChk (fun i => chk (leAt d (o + i) 1 == 0) rejField sect (o + i)) (List.range n)

/-! ### The header and the chain of sections (R216 to R218, R223) -/

/-- A section: type, count, offset of its header and body length. -/
structure Sect where
  typ : Nat
  count : Nat
  off : Nat
  len : Nat
deriving DecidableEq, Repr

/-- Offsets of the header (R218). -/
def hdrSigOff (d : List Byte) : Nat := leAt d 0x28 4
def hdrTotal (d : List Byte) : Nat := leAt d 0x08 4
/-- Where the body ends (R220). -/
def bodyEnd (d : List Byte) : Nat := if hdrSigOff d = 0 then hdrTotal d else hdrSigOff d

/-- The chain of section lengths from `pos` (R216, R223). -/
def sectChain (d : List Byte) (stop : Nat) : Nat → Nat → Except Rej (List Sect)
  | 0, pos => if pos = stop then .ok [] else .error { reason := rejLength, sect := 0, off := pos }
  | n + 1, pos =>
    if stop < pos + 16 then .error { reason := rejLength, sect := 0, off := 0x12 }
    else
      let len := leAt d (pos + 8) 4
      if len % 16 ≠ 0 ∨ stop < pos + 16 + len then .error { reason := rejLength, sect := 0, off := pos + 8 }
      else
        match sectChain d stop n (pos + 16 + len) with
        | .error e => .error e
        | .ok r => .ok ({ typ := leAt d pos 2, count := leAt d (pos + 4) 4, off := pos, len := len } :: r)

/-- The first stage of R257: structure and lengths; `len` is the command's LEN. -/
def frameStructure (d : List Byte) (len : Nat) : Except Rej (List Sect) := do
  chk (leAt d 0x00 4 == 0x4D524659) rejFormat 0 0x00
  chk (leAt d 0x06 2 == 128) rejFormat 0 0x06
  chk (leAt d 0x05 1 == 0x01) rejFormat 0 0x04
  chk (hdrTotal d == len) rejLength 0 0x08
  chk (hdrSigOff d == 0 || (decide (128 ≤ hdrSigOff d) && hdrSigOff d + 112 == hdrTotal d)) rejLength 0 0x28
  sectChain d (bodyEnd d) (leAt d 0x12 2) 128

/-- CRC over the body with the CRC field taken as zero (R220). -/
def frameCrcOk (d : List Byte) : Bool :=
  leAt d 0x0C 4 == crc32c (d.take 0x0C ++ [0, 0, 0, 0] ++ (d.drop 0x10).take (bodyEnd d - 0x10))

/-! ### Records -/

def up16 (n : Nat) : Nat := (n + 15) / 16 * 16

/-- The size of the record of a section at an offset (R224). -/
def recSize (typ : Nat) (d : List Byte) (o : Nat) : Nat :=
  if typ = 0x20 then up16 (16 + 8 * leAt d (o + 2) 2)
  else if typ = 0x21 then 64 + 16 * leAt d (o + 0xE) 1
  else if typ = 0x22 then 32 + (if leAt d (o + 0xB) 1 % 2 = 1 then up16 (leAt d (o + 0xC) 4) else 0)
  else if typ = 0x41 ∨ typ = 0x42 then up16 (16 + 8 * leAt d (o + 2) 2)
  else if typ = 0x43 then 8
  else if typ = 0x50 then 48
  else if typ = 0x60 then 64
  else 16

/-- The offsets of the records of a section that lie within its body, and where the last ends. -/
def recOffs (typ : Nat) (d : List Byte) (stop : Nat) : Nat → Nat → List Nat × Nat
  | 0, pos => ([], pos)
  | n + 1, pos =>
    if stop < pos + 16 ∧ (typ ≠ 0x43 ∨ stop < pos + 8) then ([], pos)
    else
      let e := pos + recSize typ d pos
      if stop < e then ([], pos)
      else
        let r := recOffs typ d stop n e
        (pos :: r.1, r.2)

def Sect.recs (c : Sect) (d : List Byte) : List Nat × Nat := recOffs c.typ d (c.off + 16 + c.len) c.count (c.off + 16)

/-- The records of a type, by offset. -/
def recsOf (d : List Byte) (ss : List Sect) (typ : Nat) : List Nat :=
  (ss.filter fun c => c.typ == typ).flatMap fun c => (c.recs d).1

def rectAt (d : List Byte) (o : Nat) : Rect :=
  { x0 := leAt d o 2, y0 := leAt d (o + 2) 2, x1 := leAt d (o + 4) 2, y1 := leAt d (o + 6) 2 }

def regionAt (d : List Byte) (o : Nat) : RegionRec := { rect := rectAt d o, region := leAt d (o + 8) 1 }

def programAt (d : List Byte) (o : Nat) : ProgramRec :=
  { id := leAt d o 2, ops := (List.range (leAt d (o + 2) 2)).map fun i => BitVec.ofNat 64 (leAt d (o + 16 + 8 * i) 8) }

def portAt (d : List Byte) (o : Nat) : PortRec :=
  { port := leAt d o 1, mode := leAt d (o + 1) 1, dx := signedOf 16 (leAt d (o + 2) 2), dy := signedOf 16 (leAt d (o + 4) 2)
    image := BitVec.ofNat 64 (leAt d (o + 8) 8) }

/-- The offsets of the port entries of a TILESETS record. -/
def portOffs (d : List Byte) (o : Nat) : List Nat := (List.range (leAt d (o + 0xE) 1)).map fun i => o + 64 + 16 * i

def tilesetAt (d : List Byte) (o : Nat) : TilesetRec :=
  { rect := rectAt d o, prog := leAt d (o + 8) 2, entry := leAt d (o + 0xA) 2, startq := leAt d (o + 0xC) 1
    ceLim := leAt d (o + 0xD) 1, base0 := leAt d (o + 0x10) 6, dx0 := signedOf 32 (leAt d (o + 0x18) 4)
    dy0 := signedOf 32 (leAt d (o + 0x1C) 4), base1 := leAt d (o + 0x20) 6, dx1 := signedOf 32 (leAt d (o + 0x28) 4)
    dy1 := signedOf 32 (leAt d (o + 0x2C) 4), ports := (portOffs d o).map (portAt d) }

def wmloadAt (d : List Byte) (o : Nat) : WmloadRec :=
  let inl := leAt d (o + 0xB) 1 % 2 == 1
  { rect := rectAt d o, wmaddr := leAt d (o + 8) 2, streamable := leAt d (o + 0xA) 1 == 1, inline := inl
    len := leAt d (o + 0xC) 4, tid := leAt d (o + 0x10) 4, fid := leAt d (o + 0x14) 2, off := leAt d (o + 0x18) 8
    data := if inl then (d.drop (o + 32)).take (leAt d (o + 0xC) 4) else [] }

def prodAt (d : List Byte) (o : Nat) : ProdRec :=
  let k := leAt d (o + 5) 1
  if k = 0 then .port { x := leAt d (o + 8) 2, y := leAt d (o + 0xA) 2 } (leAt d (o + 0xC) 1)
  else if k = 1 then .fountain (leAt d (o + 8) 2)
  else .gateway (leAt d (o + 8) 4)

def queueAt (d : List Byte) (o : Nat) : QueueRec :=
  let f := leAt d (o + 6) 1
  { t := { x := leAt d o 2, y := leAt d (o + 2) 2 }, q := leAt d (o + 4) 1, prod := prodAt d o, inlet := f % 2 == 1
    start := f / 2 % 2 == 1 }

def routeAt (d : List Byte) (o : Nat) : RouteRec :=
  if leAt d o 1 = 0 then
    .spread (leAt d (o + 2) 2) (leAt d (o + 4) 2) (leAt d (o + 6) 2) (leAt d (o + 8) 1 == 1) (leAt d (o + 9) 1)
  else .affinity (leAt d (o + 2) 2) (leAt d (o + 4) 2) (leAt d (o + 6) 2)

def nodeOffs (d : List Byte) (o : Nat) : List Nat := (List.range (leAt d (o + 2) 2)).map fun i => o + 16 + 8 * i

def nodeAt (d : List Byte) (o : Nat) : FountNode :=
  let w : Word := BitVec.ofNat 64 (leAt d o 8)
  { t := { x := fieldOf w 10 0, y := fieldOf w 20 11 }, parent := fieldOf w 32 21, q := fieldOf w 35 33, leaf := w.getLsbD 36 }

def fountAt (d : List Byte) (o : Nat) : FountRec := { fid := leAt d o 2, nodes := (nodeOffs d o).map (nodeAt d) }

def weirAt (d : List Byte) (o : Nat) : WeirRec :=
  { wid := leAt d o 2, sig := leAt d (o + 4) 2 % 2 == 1, rects := (nodeOffs d o).map (rectAt d) }

def floatAt (d : List Byte) (o : Nat) : FloatRec := { fid := leAt d o 2, init := leAt d (o + 2) 1 == 1 }

def dimOffs (o : Nat) : List Nat := (List.range 4).map fun i => o + 0x10 + 4 * i

def tensorAt (d : List Byte) (o : Nat) : TensorRec :=
  let f := leAt d (o + 0xA) 2
  { tid := leAt d o 4, fmt := leAt d (o + 4) 1, scl := leAt d (o + 5) 1, rank := leAt d (o + 6) 1, role := leAt d (o + 7) 1
    layer := leAt d (o + 8) 2, hasLayer := f % 2 == 1, persist := f / 2 % 2 == 1
    dims := ((dimOffs o).take (leAt d (o + 6) 1)).map fun a => leAt d a 4 }

def layerAt (d : List Byte) (o : Nat) : LayerRec :=
  let f := leAt d (o + 5) 1
  { layer := leAt d o 2, rule := leAt d (o + 2) 1, variant := leAt d (o + 3) 1, fallback := leAt d (o + 4) 1
    freeze := f % 2 == 1, fp64 := f / 2 % 2 == 1, sight := f / 4 % 2 == 1, root := leAt d (o + 6) 1
    refresh := leAt d (o + 8) 2, w := leAt d (o + 0xC) 4, rt := leAt d (o + 0x10) 4, g := leAt d (o + 0x14) 4
    st := leAt d (o + 0x18) 4, h := (List.range 8).map fun i => BitVec.ofNat 32 (leAt d (o + 0x20 + 4 * i) 4) }

/-- The decoded Frame. -/
def frameOfBytes (d : List Byte) (ss : List Sect) : Frame :=
  { gen := BitVec.ofNat 16 (leAt d 0x10 2), policy := BitVec.ofNat 32 (leAt d 0x14 4), seed := BitVec.ofNat 64 (leAt d 0x18 8)
    sightK := leAt d 0x20 2, maxhop := leAt d 0x22 1, stepWeir := leAt d 0x24 2
    signedBy := if hdrSigOff d = 0 then none else some (leAt d (hdrSigOff d + 5) 1)
    baymap := ((recsOf d ss 0x10).head?.map fun o => leAt d o 11).getD 0
    regions := (recsOf d ss 0x11).map (regionAt d), programs := (recsOf d ss 0x20).map (programAt d)
    tilesets := (recsOf d ss 0x21).map (tilesetAt d), wmloads := (recsOf d ss 0x22).map (wmloadAt d)
    queues := (recsOf d ss 0x30).map (queueAt d), routes := (recsOf d ss 0x40).map (routeAt d)
    founts := (recsOf d ss 0x41).map (fountAt d), weirs := (recsOf d ss 0x42).map (weirAt d)
    floats := (recsOf d ss 0x43).map (floatAt d), tensors := (recsOf d ss 0x50).map (tensorAt d)
    layers := (recsOf d ss 0x60).map (layerAt d) }

end Sys2Proof.Machine
end

