-- ==== Sys2Proof/Machine/FrameCheck.lean ====
section
/-!
DEFINITION. Validation of a Frame, in the order of R257 (spec 05_frame R216 to R258; 06_fabric R306, R308, R316;
08_plane R383 to R386; 02_arithmetic R63, R67, R70).
-/

namespace Sys2Proof.Machine

/-- What a Frame is checked against. -/
structure View where
  d : List Byte
  ss : List Sect
  f : Frame
  bays : Nat
  last : Option Frame
deriving DecidableEq, Repr

/-- The section types of R224: type, required, most records. -/
def sectTypes : List (Nat × Bool × Nat) :=
  [(0x10, true, 1), (0x11, false, 65536), (0x20, true, 65536), (0x21, true, 1032192), (0x22, false, 4194304),
   (0x30, false, 8257536), (0x40, false, 512), (0x41, false, 4096), (0x42, false, 4096), (0x43, false, 4096),
   (0x50, false, 1048576), (0x60, false, 65536)]

/-! ### Shared checks -/

/-- Every check of a list, each with the elements before it. -/
def allSeen {α : Type} (f : List α → α → Chk) : List α → List α → Chk
  | _, [] => .ok ()
  | seen, a :: r => do
    f seen a
    allSeen f (seen ++ [a]) r

/-- A logical tile of the Frame's bays (R225). -/
def View.inMap (v : View) (l : LT) : Bool := l.valid && v.f.baymap.testBit l.bay

/-- Every tile of a rectangle moved by (dx, dy) lies in the Frame's bays. -/
def View.rectIn (v : View) (r : Rect) (dx dy : Int) : Bool :=
  let x0 := (r.x0 : Int) + dx
  let x1 := (r.x1 : Int) + dx
  let y0 := (r.y0 : Int) + dy
  let y1 := (r.y1 : Int) + dy
  decide (0 ≤ x0) && decide (x1 < 1440) && decide (0 ≤ y0) && decide (y1 < 672) &&
    (List.range ((y1 / 96 - y0 / 96).toNat + 1)).all fun j => (List.range ((x1 / 120 - x0 / 120).toNat + 1)).all fun i =>
      v.f.baymap.testBit (((y0 / 96).toNat + j) * 12 + (x0 / 120).toNat + i)

/-- A rectangle of a record: its corners in order, and all of it in the map (R225). -/
def View.chkRect (v : View) (sect o : Nat) : Chk := do
  let r := rectAt v.d o
  chk (decide (r.x0 ≤ r.x1) && decide (r.y0 ≤ r.y1)) rejField sect o
  chk (v.rectIn r 0 0) rejOutside sect o

def Frame.hasTensor (f : Frame) (tid : Nat) : Bool := (f.tensor tid).isSome
def Frame.hasWeir (f : Frame) (wid : Nat) : Bool := (f.weir wid).isSome
def Frame.hasFloatRec (f : Frame) (fid : Nat) : Bool := f.floats.any fun r => r.fid == fid
def Frame.fount (f : Frame) (fid : Nat) : Option FountRec := f.founts.find? fun r => r.fid == fid

/-! ### The sections -/

/-- BAYMAP (R226). -/
def View.baymapRec (v : View) (o : Nat) : Chk := do
  let m := leAt v.d o 11
  chk (m / 2 ^ 84 == 0) rejField 0x10 o
  chkZero v.d 0x10 (o + 11) 5
  chk (m &&& v.bays == m) rejOutside 0x10 o

/-- REGIONS (R227). -/
def View.regionRec (v : View) (seen : List Nat) (o : Nat) : Chk := do
  v.chkRect 0x11 o
  chkZero v.d 0x11 (o + 9) 7
  chk (seen.all fun u => !(rectAt v.d u).meets (rectAt v.d o)) rejOverlap 0x11 o

/-- The first micro-op of a program that R229 does not allow: its encoding, and the structure of R134; `encl` holds the last
index and level of each enclosing loop. -/
def progBad (n : Nat) : Nat → List (Nat × Nat) → List Word → Option Nat
  | _, _, [] => none
  | k, encl, w :: r =>
    let encl := encl.filter fun e => decide (k ≤ e.1)
    match decodeUop w with
    | none => some k
    | some (.loop lvl _ len _ _ _) =>
      let last := k + len.toNat
      let bad := decide (min 511 (n - 1) < last) || match encl with
        | [] => false
        | e :: _ => decide (e.1 < last) || decide (lvl.toNat ≤ e.2)
      if bad then some k else progBad n (k + 1) ((last, lvl.toNat) :: encl) r
    | some (.bsel _ l0 l1 l2 l3) =>
      let last := k + l0.toNat + l1.toNat + l2.toNat + l3.toNat
      if min 511 (n - 1) < last then some k else progBad n (k + 1) encl r
    | some _ => progBad n (k + 1) encl r

/-- The weir groups that a program names. -/
def ProgramRec.wids (p : ProgramRec) : List Nat := p.ops.filterMap fun w => match decodeUop w with
  | some (.weir wid) => some wid.toNat
  | _ => none
/-- The floats that a program names, once each. -/
def ProgramRec.fids (p : ProgramRec) : List Nat :=
  (p.ops.filterMap fun w => match decodeUop w with
    | some (.float _ fid) => some fid.toNat
    | _ => none).foldl (fun r x => if r.contains x then r else r ++ [x]) []

/-- PROGRAMS (R228, R229, R246, R316). -/
def View.programRec (v : View) (seen : List Nat) (o : Nat) : Chk := do
  let p := programAt v.d o
  chk (decide (1 ≤ p.ops.length) && decide (p.ops.length ≤ 512)) rejField 0x20 (o + 2)
  chkZero v.d 0x20 (o + 4) 12
  chk (seen.all fun u => leAt v.d u 2 != p.id) rejField 0x20 o
  match progBad p.ops.length 0 [] p.ops with
  | some k => chk false rejProgram 0x20 (o + 16 + 8 * k)
  | none => .ok ()
  chk (p.wids.all v.f.hasWeir && p.fids.all v.f.hasFloatRec) rejReference 0x20 o
  chk (decide (p.fids.length ≤ 64)) rejField 0x20 o
  chkZero v.d 0x20 (o + 16 + 8 * p.ops.length) (recSize 0x20 v.d o - (16 + 8 * p.ops.length))

/-- A port entry of a tile set (R232, R225). -/
def View.portEntry (v : View) (r : Rect) (seen : List Nat) (e : Nat) : Chk := do
  let p := portAt v.d e
  let kind := fieldOf p.image 63 62
  chk (decide (p.port ≤ 15) && seen.all fun u => leAt v.d u 1 != p.port) rejField 0x21 e
  chk (decide (p.mode ≤ 1) || kind == 3) rejField 0x21 (e + 1)
  chkZero v.d 0x21 (e + 6) 2
  chk (fieldOf p.image 16 0 == 0 && ((kind != 3 && p.mode == 0) || fieldOf p.image 61 41 == 0)) rejField 0x21 (e + 8)
  if kind = 3 then .ok ()
  else if p.mode = 1 then chk (v.rectIn r p.dx p.dy) rejOutside 0x21 e
  else chk (v.inMap { x := fieldOf p.image 61 51, y := fieldOf p.image 50 41 }) rejOutside 0x21 e

/-- TILESETS (R230 to R232, R246, R308). -/
def View.tilesetRec (v : View) (seen : List Nat) (o : Nat) : Chk := do
  let t := tilesetAt v.d o
  v.chkRect 0x21 o
  let prog := v.f.program t.prog
  chk prog.isSome rejReference 0x21 o
  chk (decide (t.entry < (prog.map fun p => p.ops.length).getD 0)) rejProgram 0x21 (o + 0xA)
  chk (decide (t.startq ≤ 7)) rejField 0x21 (o + 0xC)
  chk (decide (1 ≤ t.ceLim)) rejField 0x21 (o + 0xD)
  chk (decide (t.ports.length ≤ 16)) rejField 0x21 (o + 0xE)
  chkZero v.d 0x21 (o + 0xF) 1
  chkZero v.d 0x21 (o + 0x16) 2
  chkZero v.d 0x21 (o + 0x26) 2
  chkZero v.d 0x21 (o + 0x30) 16
  allSeen (v.portEntry t.rect) [] (portOffs v.d o)
  chk (t.ports.all fun p => fieldOf p.image 63 62 != 3 || (v.f.fount (fieldOf p.image 36 25)).isSome) rejReference 0x21 o
  chk (((prog.map ProgramRec.wids).getD []).all fun w => match v.f.weir w with
    | some g => t.rect.tiles.all g.has
    | none => true) rejReference 0x21 o
  chk (seen.all fun u => !(rectAt v.d u).meets t.rect) rejOverlap 0x21 o

/-- WMLOADS (R233 to R236, R246). -/
def View.wmloadRec (v : View) (seen : List Nat) (o : Nat) : Chk := do
  let w := wmloadAt v.d o
  v.chkRect 0x22 o
  chk (w.wmaddr % 8 == 0) rejField 0x22 (o + 8)
  chk (decide (leAt v.d (o + 0xA) 1 ≤ 1)) rejField 0x22 (o + 0xA)
  chk (decide (leAt v.d (o + 0xB) 1 ≤ 1)) rejField 0x22 (o + 0xB)
  chk (w.len % 8 == 0 && decide (w.wmaddr + w.len ≤ 0x8000)) rejField 0x22 (o + 0xC)
  chk (v.f.hasTensor w.tid) rejReference 0x22 o
  chk (w.streamable || w.fid == 0xFFFF) rejField 0x22 (o + 0x14)
  chk (!w.streamable || v.f.hasFloatRec w.fid) rejReference 0x22 o
  chkZero v.d 0x22 (o + 0x16) 2
  if w.inline then chkZero v.d 0x22 (o + 32 + w.len) (up16 w.len - w.len) else .ok ()
  chk (seen.all fun u =>
    let x := wmloadAt v.d u
    !(x.rect.meets w.rect && decide (x.wmaddr < w.wmaddr + w.len) && decide (w.wmaddr < x.wmaddr + x.len))) rejOverlap 0x22 o

/-- The queue that a queue-kind port names at a tile. -/
def Frame.portQueue (f : Frame) (l : LT) (n : Nat) : Option (LT × Nat) :=
  match (f.tileset l).bind fun t => t.ports.find? fun p => p.port == n with
  | none => none
  | some p =>
    let w := p.imageAt l
    if fieldOf w 63 62 = 0 then some ({ x := fieldOf w 61 51, y := fieldOf w 50 41 }, fieldOf w 27 25) else none

/-- A leaf of the fountain delivers into the queue. -/
def FountRec.leafAt (g : FountRec) (l : LT) (q : Nat) : Bool := g.nodes.any fun n => n.leaf && decide (n.t = l) && n.q == q

/-- QUEUES (R238, R239). -/
def View.queueRec (v : View) (seen : List Nat) (o : Nat) : Chk := do
  let b := queueAt v.d o
  let pk := leAt v.d (o + 5) 1
  let key := fun (u : Nat) => (leAt v.d (u + 2) 2 * 65536 + leAt v.d u 2) * 256 + leAt v.d (u + 4) 1
  chk (v.inMap b.t) rejOutside 0x30 o
  chk (decide (b.q ≤ 7)) rejField 0x30 (o + 4)
  chk (decide (pk ≤ 2)) rejField 0x30 (o + 5)
  chk (decide (leAt v.d (o + 6) 1 ≤ 3) && (!b.start || pk == 2)) rejField 0x30 (o + 6)
  chkZero v.d 0x30 (o + 7) 1
  chkZero v.d 0x30 (o + 8 + (if pk = 0 then 5 else if pk = 1 then 2 else 4))
    (if pk = 0 then 3 else if pk = 1 then 6 else 4)
  chk (match seen.getLast? with
    | none => true
    | some u => decide (key u < key o)) rejBinding 0x30 o
  let g := v.f.regionOf b.t
  match b.prod with
  | .port l n => do
    chk (v.inMap l) rejOutside 0x30 (o + 8)
    chk (decide (v.f.portQueue l n = some (b.t, b.q))) rejBinding 0x30 o
    chk (b.inlet == decide (v.f.regionOf l ≠ g)) rejBinding 0x30 o
  | .fountain fid =>
    match v.f.fount fid with
    | none => chk false rejReference 0x30 o
    | some f => do
      chk (f.leafAt b.t b.q) rejBinding 0x30 o
      chk (b.inlet == decide (((f.nodes.head?.map fun n => v.f.regionOf n.t).getD g) ≠ g)) rejBinding 0x30 o
  | .gateway tid => do
    chk (v.f.hasTensor tid) rejReference 0x30 o
    chk b.inlet rejBinding 0x30 o

/-- Each queue-kind port resolves to a queue bound to it (R239), once the QUEUES section has been checked. -/
def View.portsBound (v : View) : Chk :=
  allChk (fun o => allChk (fun e =>
    let p := portAt v.d e
    chk (fieldOf p.image 63 62 != 0 || (rectAt v.d o).tiles.all fun l =>
      match v.f.portQueue l p.port with
      | none => false
      | some tq => v.f.queues.any fun b => decide (b.t = tq.1) && b.q == tq.2 && decide (b.prod = .port l p.port))
      rejBinding 0x21 e) (portOffs v.d o)) (recsOf v.d v.ss 0x21)

/-- ROUTES (R241). -/
def View.routeRec (v : View) (seen : List Nat) (o : Nat) : Chk := do
  let kind := leAt v.d o 1
  let region := leAt v.d (o + 2) 2
  chk (decide (kind ≤ 1)) rejField 0x40 o
  chkZero v.d 0x40 (o + 1) 1
  chk (decide (region ≤ 255) || region == 0xFFFF) rejField 0x40 (o + 2)
  if kind = 0 then do
    let m := leAt v.d (o + 9) 1
    chk (decide (leAt v.d (o + 8) 1 ≤ 1)) rejField 0x40 (o + 8)
    chk ((decide (1 ≤ m) && decide (m ≤ 64)) || m == 0xFF) rejField 0x40 (o + 9)
    chk (seen.all fun u => leAt v.d u 1 != 0 || leAt v.d (u + 2) 2 != region) rejField 0x40 o
  else do
    chk (decide (leAt v.d (o + 4) 2 ≤ 255)) rejField 0x40 (o + 4)
    chkZero v.d 0x40 (o + 8) 2
  chkZero v.d 0x40 (o + 0xA) 6

/-- A node of a fountain tree (R243, R244, R306). -/
def View.fountNode (v : View) (o i : Nat) (before : List Nat) : Chk := do
  let e := o + 16 + 8 * i
  let n := nodeAt v.d e
  let g := fountAt v.d o
  chk (leAt v.d e 8 / 2 ^ 37 == 0) rejField 0x41 e
  chk (v.inMap n.t) rejOutside 0x41 e
  chk (i != 0 || n.parent == 0xFFF) rejField 0x41 e
  chk (i == 0 || decide (n.parent < i)) rejBinding 0x41 e
  chk (i == 0 || decide (((g.nodes.take (i + 1)).drop 1).countP (fun m => m.parent == n.parent) ≤ 8)) rejBinding 0x41 e
  chk (decide (before.countP (fun u => (fountAt v.d u).nodes.any fun m => decide (m.t = n.t)) ≤ 15)) rejField 0x41 e

/-- FOUNTAINS (R243, R244, R306). -/
def View.fountRec (v : View) (seen : List Nat) (o : Nat) : Chk := do
  let g := fountAt v.d o
  chk (decide (g.fid ≤ 4095)) rejField 0x41 o
  chk (decide (1 ≤ g.nodes.length) && decide (g.nodes.length ≤ 4096)) rejField 0x41 (o + 2)
  chkZero v.d 0x41 (o + 4) 12
  chk (seen.all fun u => leAt v.d u 2 != g.fid) rejField 0x41 o
  allChk (fun i => v.fountNode o i seen) (List.range g.nodes.length)
  chkZero v.d 0x41 (o + 16 + 8 * g.nodes.length) (recSize 0x41 v.d o - (16 + 8 * g.nodes.length))

/-- The sender of a fountain is its node 0, and every leaf is bound (R239, R244), once FOUNTAINS has been checked. -/
def View.fountsBound (v : View) : Chk := do
  allChk (fun o => allChk (fun e =>
    let w := (portAt v.d e).image
    chk (fieldOf w 63 62 != 3 || match (v.f.fount (fieldOf w 36 25)).bind fun g => g.nodes.head? with
      | none => false
      | some n => (rectAt v.d o).tiles.all fun l => decide (l = n.t)) rejBinding 0x21 e) (portOffs v.d o)) (recsOf v.d v.ss 0x21)
  allChk (fun o =>
    let g := fountAt v.d o
    allChk (fun e =>
      let n := nodeAt v.d e
      chk (!n.leaf || v.f.queues.any fun b => decide (b.t = n.t) && b.q == n.q && decide (b.prod = .fountain g.fid))
        rejBinding 0x41 e) (nodeOffs v.d o)) (recsOf v.d v.ss 0x41)

/-- WEIRS (R245, R308). -/
def View.weirRec (v : View) (seen : List Nat) (o : Nat) : Chk := do
  let g := weirAt v.d o
  chk (decide (g.wid ≤ 4095)) rejField 0x42 o
  chk (decide (1 ≤ g.rects.length)) rejField 0x42 (o + 2)
  chk (decide (leAt v.d (o + 4) 2 ≤ 1)) rejField 0x42 (o + 4)
  chkZero v.d 0x42 (o + 6) 10
  chk (seen.all fun u => leAt v.d u 2 != g.wid) rejField 0x42 o
  allChk (fun e => do
    v.chkRect 0x42 e
    chk ((rectAt v.d e).tiles.all fun l => (v.f.tileset l).isSome) rejBinding 0x42 e) (nodeOffs v.d o)
  chk (g.members.all fun l => decide (seen.countP (fun u => (weirAt v.d u).has l) ≤ 15)) rejField 0x42 o
  chkZero v.d 0x42 (o + 16 + 8 * g.rects.length) (recSize 0x42 v.d o - (16 + 8 * g.rects.length))

/-- FLOATS (R245). -/
def View.floatRec (v : View) (seen : List Nat) (o : Nat) : Chk := do
  chk (decide (leAt v.d o 2 ≤ 4095)) rejField 0x43 o
  chk (decide (leAt v.d (o + 2) 1 ≤ 1)) rejField 0x43 (o + 2)
  chkZero v.d 0x43 (o + 3) 5
  chk (seen.all fun u => leAt v.d u 2 != leAt v.d o 2) rejField 0x43 o

/-- TENSORS (R247 to R249, R63, R67, R70). -/
def View.tensorRec (v : View) (seen : List Nat) (o : Nat) : Chk := do
  let t := tensorAt v.d o
  let blk := if t.scl = 1 then 32 else if t.scl = 2 then 16 else 1
  chk (t.tid != 0) rejField 0x50 o
  chk (seen.all fun u => leAt v.d u 4 != t.tid) rejField 0x50 o
  chk (decide (t.fmt ≤ 8)) rejField 0x50 (o + 4)
  chk (decide (t.scl ≤ 2) && (t.scl == 0 || decide (t.fmt ≤ 5))) rejField 0x50 (o + 5)
  chk (decide (1 ≤ t.rank) && decide (t.rank ≤ 4)) rejField 0x50 (o + 6)
  chk (decide (t.role ≤ 5)) rejField 0x50 (o + 7)
  chk (decide (leAt v.d (o + 0xA) 2 ≤ 3)) rejField 0x50 (o + 0xA)
  chkZero v.d 0x50 (o + 0xC) 4
  chkZero v.d 0x50 (o + 0x10 + 4 * t.rank) (16 - 4 * t.rank)
  chk (decide (tensorElems t ≤ 2 ^ 48)) rejField 0x50 (o + 0x10)
  chkZero v.d 0x50 (o + 0x20) 16
  chk (t.dims.getLastD 1 % blk == 0) rejField 0x50 o
  chk (!t.hasLayer || v.f.layers.any fun l => l.layer == t.layer) rejReference 0x50 o
  chk (match v.last.bind fun f => f.tensor t.tid with
    | none => true
    | some u => !u.persist || u.sameDecl t) rejPersist 0x50 o

/-- A binary32 value that is finite and at least 0. -/
def nonneg32 (h : Nat) : Bool := fFinite f32 h && (h == 0x80000000 || !fLess f32 h 0)
/-- Finite, at least 0 and below 1. -/
def frac32 (h : Nat) : Bool := nonneg32 h && fLess f32 h one32
/-- Finite and above 0. -/
def pos32 (h : Nat) : Bool := fFinite f32 h && fLess f32 0 h

/-- Under RULE 0x3 the matrix of W_TID is within the bounds of R251. -/
def Frame.matrixOk (f : Frame) (r : LayerRec) : Bool :=
  r.rule != 3 || match f.tensor r.w with
  | some w => let m := matrixOf w; decide (m.1 ≤ 8192) && decide (m.2 ≤ 8192)
  | none => false

/-- The hyper-parameters of an entry without FREEZE (R383, R385). -/
def LayerRec.hyperOk (r : LayerRec) : Bool :=
  let h := fun i => (r.h.getD i 0).toNat
  let dash := fun (is : List Nat) => is.all fun i => h i == 0
  pos32 (h 7) && h 6 == 0 && nonneg32 (h 3) && frac32 (h 0) &&
  (if r.rule = 1 then frac32 (h 1) && dash [2, 4, 5]
   else if r.rule = 2 then frac32 (h 1) && pos32 (h 2) && dash [4, 5]
   else if r.rule = 3 then frac32 (h 1) && pos32 (h 2) &&
     (if r.fallback = 2 then frac32 (h 4) && pos32 (h 5) else dash [4, 5])
   else nonneg32 (h 1) && nonneg32 (h 2) && dash [4, 5])

/-- The element count of S_TID (R386). -/
def LayerRec.stateCount (r : LayerRec) (n rows cols : Nat) : Nat :=
  if r.rule = 2 then 2 * n
  else if r.rule = 3 then (if r.fallback = 2 then 2 * n else n) + 2 * rows * rows + 2 * cols * cols
  else n

/-- The tensors of an entry without FREEZE (R385, R386). -/
def Frame.layerTensorsOk (f : Frame) (r : LayerRec) : Bool :=
  match f.tensor r.w, f.tensor r.rt, f.tensor r.g, f.tensor r.st with
  | some w, some rt, some g, some st =>
    let m := matrixOf w
    w.fmt == 7 && w.scl == 0 && rt.dims == w.dims && g.dims == w.dims && decide (6 ≤ g.fmt) && decide (g.fmt ≤ 8) && g.scl == 0 &&
      st.rank == 1 && st.fmt == 7 && tensorElems st == r.stateCount (tensorElems w) m.1 m.2 &&
      (r.rule != 4 || (decide (min m.1 m.2 ≤ 8192) && decide (max m.1 m.2 ≤ 65536))) && (!r.fp64 || decide (3 ≤ r.rule))
  | _, _, _, _ => false

/-- LAYERS (R222, R250, R251, R384, R385); the bounds of R251 hold for a frozen layer too. -/
def View.layerRec (v : View) (seen : List Nat) (o : Nat) : Chk := do
  let r := layerAt v.d o
  chk (seen.all fun u => leAt v.d u 2 != r.layer) rejField 0x60 o
  chk (decide (1 ≤ r.rule) && decide (r.rule ≤ 4)) rejField 0x60 (o + 2)
  chk (if r.rule ≤ 2 then decide (r.variant ≤ 1) else if r.rule = 3 then r.variant == 0
    else decide (1 ≤ r.variant) && decide (r.variant ≤ 15)) rejField 0x60 (o + 3)
  chk (if r.rule = 3 then r.fallback == 1 || r.fallback == 2 else r.fallback == 0) rejField 0x60 (o + 4)
  chk (decide (leAt v.d (o + 5) 1 ≤ 7)) rejField 0x60 (o + 5)
  chk (if r.rule = 3 then r.root == 2 || r.root == 4 else r.root == 0) rejField 0x60 (o + 6)
  chkZero v.d 0x60 (o + 7) 1
  chk (if r.rule = 3 then decide (1 ≤ r.refresh) else r.refresh == 0) rejField 0x60 (o + 8)
  chkZero v.d 0x60 (o + 0xA) 2
  chk (v.f.hasTensor r.w && v.f.hasTensor r.rt && (r.g == 0 || v.f.hasTensor r.g) && (r.st == 0 || v.f.hasTensor r.st))
    rejReference 0x60 o
  chk (r.g != 0 || r.freeze) rejField 0x60 (o + 0x14)
  chkZero v.d 0x60 (o + 0x1C) 4
  chk (v.f.matrixOk r) rejField 0x60 o
  chk (r.freeze || (v.f.stepWeir != 0xFFFF && r.hyperOk && v.f.layerTensorsOk r)) rejField 0x60 o

/-- The records of one section. -/
def View.records (v : View) (typ : Nat) (os : List Nat) : Chk :=
  if typ = 0x10 then allChk v.baymapRec os
  else if typ = 0x11 then allSeen v.regionRec [] os
  else if typ = 0x20 then allSeen v.programRec [] os
  else if typ = 0x21 then allSeen v.tilesetRec [] os
  else if typ = 0x22 then allSeen v.wmloadRec [] os
  else if typ = 0x30 then allSeen v.queueRec [] os
  else if typ = 0x40 then allSeen v.routeRec [] os
  else if typ = 0x41 then allSeen v.fountRec [] os
  else if typ = 0x42 then allSeen v.weirRec [] os
  else if typ = 0x43 then allSeen v.floatRec [] os
  else if typ = 0x50 then allSeen v.tensorRec [] os
  else allSeen v.layerRec [] os

/-- A section (R223, R224): its header, its length, its records and its padding. (DEDUCED, log 30) -/
def View.section (v : View) (c : Sect) : Chk := do
  chkZero v.d c.typ (c.off + 2) 2
  chkZero v.d c.typ (c.off + 0xC) 4
  let most := ((sectTypes.find? fun t => t.1 == c.typ).map (·.2.2)).getD 0
  chk (decide (c.count ≤ most) && (c.typ != 0x10 || c.count == 1)) rejSection c.typ (c.off + 4)
  let r := c.recs v.d
  let stop := c.off + 16 + c.len
  chk (r.1.length == c.count && c.off + 16 + up16 (r.2 - (c.off + 16)) == stop) rejLength c.typ c.off
  v.records c.typ r.1
  chkZero v.d c.typ r.2 (stop - r.2)

/-- Checks that wait until a type has been passed: R239 and R244 between sections. -/
def View.after (v : View) (typ : Nat) : Chk :=
  if typ = 0x30 then v.portsBound else if typ = 0x41 then v.fountsBound else .ok ()

/-- Types from `lo` below `hi` that no section stands for: a required one is missing (R224). -/
def View.absent (v : View) (lo hi off : Nat) : Chk :=
  allChk (fun t => if lo ≤ t.1 ∧ t.1 < hi then do
    chk (!t.2.1) rejSection t.1 off
    v.after t.1
  else .ok ()) sectTypes

/-- The sections in order (R224, R257 step 6): `lo` is the least type that may follow. -/
def View.sections (v : View) : Nat → List Sect → Chk
  | lo, [] => v.absent lo 0x8000 (bodyEnd v.d)
  | lo, c :: r =>
    if 0x8000 ≤ c.typ then v.sections lo r
    else do
      chk (sectTypes.any fun t => t.1 == c.typ) rejSection c.typ c.off
      v.absent lo c.typ c.off
      chk (decide (lo ≤ c.typ)) rejSection c.typ c.off
      v.section c
      v.after c.typ
      v.sections (c.typ + 1) r

/-! ### The stages of R257 -/

/-- The signature and its block (R252 to R254, R257 step 3). -/
def State.chkSignature (s : State) (p : Nat) (d : List Byte) : Chk := do
  let o := hdrSigOff d
  let cfg := s.reg (Reg.prtFramecfg p)
  if o = 0 then chk (!cfg.getLsbD 8) rejSignature 0 0x28
  else do
    let slot := leAt d (o + 5) 1
    let key := Tab.get none s.host.keys slot
    chk (leAt d o 4 == 0x47495359) rejSignature 0 o
    chk (leAt d (o + 4) 1 == 1) rejSignature 0 (o + 4)
    chk (decide (slot ≤ 7) && key.isSome && cfg.getLsbD slot) rejSignature 0 (o + 5)
    chk ((List.range 10).all fun i => leAt d (o + 6 + i) 1 == 0) rejSignature 0 (o + 6)
    chk (ecdsaVerify (key.getD []) (sha384 (d.take o)) ((d.drop (o + 0x10)).take 96)) rejSignature 0 (o + 0x10)

/-- The header's values in ascending order (R257 step 5). (DEDUCED, log 30) -/
def chkHeader (d : List Byte) (gen : Nat) : Chk := do
  chk (leAt d 0x10 2 != 0 && leAt d 0x10 2 != gen) rejGen 0 0x10
  chk (decide (leAt d 0x14 4 < 8)) rejField 0 0x14
  chk (decide (1 ≤ leAt d 0x22 1) && decide (leAt d 0x22 1 ≤ 64)) rejField 0 0x22
  chkZero d 0 0x23 1
  chkZero d 0 0x26 2
  chkZero d 0 0x2C 4
  chkZero d 0 0x40 64

/-- Every region of the partition's Frame is DRAINED (R259). -/
def State.allDrained (s : State) (p : Nat) : Bool :=
  ((s.frameOf p).regionIds).all fun r => decide ((s.region p r).st = .drained)

/-- Validation of the Frame bytes `d`, copied for a command with LEN `len`; `drain` for FRAME_APPLY in drain mode (R257):
the Frame and its allocation. (DEDUCED, log 30) -/
def State.validate (s : State) (p len : Nat) (drain : Bool) (d : List Byte) : Except Rej (Frame × Placed) := do
  let ss ← frameStructure d len
  chk (frameCrcOk d) rejCrc 0 0x0C
  s.chkSignature p d
  chkHeader d (s.field (Reg.prtFrameStat p) 63 48)
  let f := frameOfBytes d ss
  let bays := (s.baysOf p).foldl (fun m b => if s.isVoid b then m else m + 2 ^ b) 0
  let v : View := { d := d, ss := ss, f := f, bays := bays, last := (s.part p).own.lastFrame }
  chk (f.stepWeir == 0xFFFF || f.hasWeir f.stepWeir) rejReference 0 0x24
  v.sections 0 ss
  match s.allocate p f len with
  | none => .error { reason := rejCapacity, sect := 0, off := 0 }
  | some a => do
    chk (!drain || s.allDrained p) rejNotDrained 0 0
    .ok (f, a)

end Sys2Proof.Machine
end

