-- ==== Sys2Proof/Machine/Routes.lean ====
section
/-!
DEFINITION. Where packets travel: the intermediate tile or waypoint of a packet, the next hop of a flit, diversion and
escape routing (spec 06_fabric R286 to R291, R293, R325; 05_frame R241, R242).
-/

namespace Sys2Proof.Machine

/-! ### The path that the source chooses (R286, R288, R289, R293) -/

/-- A rectangle of physical coordinates: the least and the largest PX and PY. -/
structure Box where
  x0 : Nat
  x1 : Nat
  y0 : Nat
  y1 : Nat
deriving DecidableEq, Repr

def Box.count (b : Box) : Nat := (b.x1 + 1 - b.x0) * (b.y1 + 1 - b.y0)
/-- The k-th tile of a box. -/
def Box.tile (b : Box) (k : Nat) : PT := PT.ofXY (b.x0 + k % (b.x1 + 1 - b.x0)) (b.y0 + k / (b.x1 + 1 - b.x0))

/-- The bounding rectangle of the partition's bays; of all 84 when it has none. -/
def boundsOf (bays : List Nat) : Box :=
  let xs := if bays = [] then [0, 11] else bays.map fun b => b % 12
  let ys := if bays = [] then [0, 6] else bays.map fun b => b / 12
  { x0 := 128 * xs.foldl min 11, x1 := 128 * xs.foldl max 0 + 127, y0 := 96 * ys.foldl min 6, y1 := 96 * ys.foldl max 0 + 95 }

/-- The spread box of a source and a destination with its margins (R288). -/
def spreadBox (lim : Box) (a b : PT) (mx my : Nat) : Box :=
  { x0 := max lim.x0 (min a.px b.px - mx), x1 := min lim.x1 (max a.px b.px + mx)
    y0 := max lim.y0 (min a.py b.py - my), y1 := min lim.y1 (max a.py b.py + my) }

/-- A draw of router `t`'s generator from a box (R288, R289). (DESIGN CHOICE, log 36) -/
def State.drawTile (t : PT) (b : Box) (s : State) : PT × State :=
  let n := Config.spreadNext (s.router t).rng
  (b.tile (Config.spreadDraw n.toNat % max 1 b.count), s.modRouter t fun r => { r with rng := n })

/-- An intermediate tile that a packet of partition `p` may take (R289). -/
def State.midOk (s : State) (p : Nat) (t : PT) : Bool := decide (s.bayOwner t.bay = p) && !s.routerDark t

/-- The intermediate tile of a box: one that fails is drawn again once (R288, R289). -/
def State.spreadVia (t : PT) (p : Nat) (b : Box) (s : State) : Via × State :=
  let d := s.drawTile t b
  if d.2.midOk p d.1 then ({ midk := 1, at_ := d.1 }, d.2)
  else
    let e := d.2.drawTile t b
    (if e.2.midOk p e.1 then { midk := 1, at_ := e.1 } else Via.direct, e.2)

/-- The waypoint of the scarf entry for a host (R293, R294, R349). -/
def Router.waypoint (r : Router) (d : PT) : Option PT :=
  (r.active.find? fun e => fieldOf e.2.1 63 63 == 1 && fieldOf e.2.1 41 31 == d.px && fieldOf e.2.1 30 21 == d.py).bind
    fun e => if e.2.2.getLsbD 21 then some (PT.ofXY (fieldOf e.2.2 20 10) (fieldOf e.2.2 9 0)) else none

/-- A packet kind that takes its destination from a scarf entry by way of the two phases (R286, R293). -/
def viaScarf (op : Nat) : Bool := decide (op ≤ 6)

/-- The link of a gateway that a packet uses: from the tile fabric by its source, into it by its destination (R325). -/
def gatewayLink (c : Nat × Nat) : Nat := (c.1 + c.2) % 16

/-- The tile at which a packet leaves the mesh, or its destination. -/
def exitTile (p : Packet) : PT :=
  let d := p.dst.coords p.src
  if d.2 = 1023 then gatewayEntry d.1 (gatewayLink (p.src.coords p.dst)) else PT.ofXY d.1 d.2

/-- What a tile's router chooses for a packet that its tile sends. -/
def State.viaOf (t : PT) (p : Packet) (s : State) : Via × State :=
  let op := p.op.toNat
  if vcClass op = .control ∨ vcClass op = .escape then (Via.direct, s)
  else
    match (if viaScarf op then (s.router t).waypoint (exitTile p) else none) with
    | some w => ({ midk := 2, at_ := w }, s)
    | none =>
      let part := s.bayOwner t.bay
      let f := s.frameOf part
      match (s.hosted t).bind fun l => f.spreadOf (f.regionOf l) with
      | some (mx, my, false, _) => s.spreadVia t part (spreadBox (boundsOf (s.baysOf part)) t (exitTile p) mx my)
      | _ => (Via.direct, s)

/-- The VC on which a packet starts: phase 1 without an intermediate tile (R280, R286). -/
def startVc (op : Nat) (v : Via) : Nat := (vcClass op).vc (if v.midk = 0 then 1 else 0)

/-! ### The next hop (R286, R287, R290, R291) -/

/-- The way a packet goes on from a router: to the tile here, or out of a port on a VC, diverted or not. -/
inductive Way where
  | eject
  | go (d : Dir) (vc : Nat) (diverted : Bool)
deriving DecidableEq, Repr

/-- First along PX, then along PY (R286). -/
def toward (r t : PT) : Option Dir :=
  if r.px < t.px then some .east else if t.px < r.px then some .west
  else if r.py < t.py then some .south else if t.py < r.py then some .north else none

/-- The segment of the gateway beyond an edge tile is dark (R57, R324). -/
def State.gatewayDark (s : State) (r : PT) (d : Dir) : Bool := !s.segUp (gatewaySegment (gatewayAt r d))

/-- The next hop in a direction is a dark router or a DOWN link (R290). -/
def State.hopDead (s : State) (r : PT) (d : Dir) : Bool :=
  decide ((s.link r d).st = .down) || (match r.step d with
    | some u => s.routerDark u
    | none => s.gatewayDark r d)

/-- The entry of a router's escape table for a destination (R291). -/
def escapeEntry (r t : PT) : Nat := if r.bay ≠ t.bay then t.bay else if r.col ≠ t.col then 84 + t.col else 212 + t.row

/-- The port of that entry, one of the live ones. (DESIGN CHOICE, log 36) -/
def State.escapePort (s : State) (r t : PT) : Dir :=
  let live := allDirs.filter fun d => (r.step d).isSome && !s.hopDead r d
  (live[Config.escapeDir s.comp.escapeVer r.key (escapeEntry r t) % max 1 live.length]?).getD .north

/-- Where a descriptor leads: the tile, and the port of the gateway link when it goes to a gateway (R325). -/
def descEnd (q : Quad) : PT × Option Dir :=
  let x := descField q 111 101
  let y := descField q 100 91
  if y = 1023 then (gatewayEntry x (gatewayLink (descField q 69 59, descField q 58 49)), some (gatewayEdge x)) else (PT.ofXY x y, none)

/-- The way on the escape VC: at its end the packet leaves there (R291). -/
def State.escapeWay (s : State) (r : PT) (e : PT × Option Dir) (diverted : Bool) : Way :=
  if r = e.1 then
    match e.2 with
    | none => .eject
    | some d => .go d 7 diverted
  else .go (s.escapePort r e.1) 7 diverted

/-- The next hop at router `r` of a packet that came on `vc` (R286, R287, R290). -/
def State.wayOf (s : State) (r : PT) (vc : Nat) (q : Quad) : Way :=
  let e := descEnd q
  if vc = 7 then s.escapeWay r e false
  else
    let mid := PT.ofXY (descField q 90 80) (descField q 79 70)
    let early := decide (vc ≠ 6) && decide (vc % 2 = 0)
    let vc := if early && decide (r = mid) then vc + 1 else vc
    match (toward r (if early && decide (r ≠ mid) then mid else e.1)).orElse fun _ => e.2 with
    | none => .eject
    | some d => if s.hopDead r d then s.escapeWay r e true else .go d vc false

end Sys2Proof.Machine
end

