-- ==== Sys2Proof/Machine/Links.lean ====
section
/-!
DEFINITION. Links and routers: buffers and forwarding, the link state table, replay, return words, DOWN links and their
retest, rim gateways and the rim ring, and a cycle of the fabric (spec 06_fabric R270 to R291, R321 to R329; 01_organisation
R51, R59; 12_healing R549 to R551).
-/

namespace Sys2Proof.Machine

/-! ### Link states (R275, R283, R285) -/

/-- A link goes DOWN by R275: the event, the suspect steps, and the fence at the third time in 24 hours (R551). -/
def State.takeDown (r : PT) (d : Dir) (s : State) : State :=
  match r.step d with
  | none => s
  | some u =>
    let e := linkEnd r d
    let downs := recent s.now dayNs (s.link e.1 e.2).downs ++ [s.now]
    let s := (s.linkDown r d).rewriteEscape
    let s := s.setLink e.1 e.2 { s.link e.1 e.2 with downs := downs }
    let p := s.bayOwner r.bay
    let q := s.bayOwner u.bay
    let s := s.signal Ev.fabLinkDown p [r.bay, r.col, r.row, u.bay, u.col, u.row]
    let s := if p = 0 then s else s.suspect p Ev.fabLinkDown []
    let s := if q = 0 ∨ q = p then s else s.suspect q Ev.fabLinkDown []
    if 3 ≤ downs.length then s.fenceLink r d 0x0401 else s

/-- CREDIT to ONOFF, counted (R283). -/
def State.linkOnoff (r : PT) (d : Dir) (s : State) : State :=
  let s := s.setLink r d { s.link r d with st := .onoff, resyncGot := [] }
  s.modRouter r fun x => { x with onoff := BitVec.ofNat 16 (min (x.onoff.toNat + 1) 0xFFFF) }

/-- RESYNC fails: ONOFF, counted; at the fourth consecutive failure the event, and later attempts wait 1 ms (R283, R285). -/
def State.resyncFail (r : PT) (d : Dir) (s : State) : State :=
  let l := s.link r d
  let n := l.rsFails + 1
  let s := s.setLink r d { l with st := .onoff, resyncGot := [], rsFails := n, slow := l.slow || decide (4 ≤ n) }
  let s := s.modRouter r fun x => { x with rsfail := BitVec.ofNat 16 (min (x.rsfail.toNat + 1) 0xFFFF) }
  if n = 4 then s.signal Ev.fabResyncFail (s.bayOwner r.bay) [r.bay, r.col, r.row, d.key] else s

/-- Send a flit on a VC of a link: it takes the next LSEQ, spends a credit and waits in the replay buffer (R271, R274, R283). -/
def State.sendFlit (r : PT) (d : Dir) (vc : Nat) (f : Flit) (s : State) : State :=
  let l := s.link r d
  let f := f.onLink vc l.txSeq
  (s.setLink r d { l with txSeq := l.txSeq + 1, replay := l.replay ++ [f], spent := Tab.set 0 l.spent vc (Tab.get 0 l.spent vc + 1) }).emitOut
    (.meshFlit r d f)

/-- The payload of SYNC: OP 0x1F (R278). -/
def syncDesc : Quad := BitVec.ofNat 128 (0x1F * 2 ^ 123)

/-- RESYNC begins: every VC stops and SYNC is sent, a single flit of VC 6 (R280, R285). -/
def State.enterResync (r : PT) (d : Dir) (s : State) : State :=
  let s := s.setLink r d { s.link r d with st := .resync, resyncGot := [] }
  s.sendFlit r d 6 (mkFlit 3 false false syncDesc)

/-- A clock change holds this link in ONOFF: a ridge bridge or a rim gateway link (R283, R322, R325). -/
def State.bridgeHeld (s : State) (r : PT) (d : Dir) : Bool := (isRidge r d || (r.step d).isNone) && s.phys.clock.changing

/-- The link is not DOWN, and neither end is dark. -/
def State.linkLive (s : State) (r : PT) (d : Dir) : Bool := !s.hopDead r d && !s.routerDark r

/-! ### Reception and buffers (R274, R278, R281, R284, R285) -/

/-- A router drops a packet with a reserved OP; the second time in 24 hours fences it (R278, R549). -/
def State.badOp (r : PT) (s : State) : State :=
  let s := s.countEpdisc r
  let bad := recent s.now dayNs (s.router r).badOps ++ [s.now]
  let s := s.modRouter r fun x => { x with badOps := bad }
  let s := s.signal Ev.fabBadOp (s.bayOwner r.bay) [r.bay, r.col, r.row]
  if 2 ≤ bad.length then s.fenceRouter r 0x0402 else s

/-- The flits that wait at a router: those that came in on a port, or those of the packets that its tile sends. -/
def State.waiting (s : State) (r : PT) (i : Option Dir) (vc : Nat) : List Flit :=
  match i with
  | none => Tab.get [] (s.router r).inject vc
  | some d => Tab.get [] (s.link r d).bufs vc
def State.setWaiting (r : PT) (i : Option Dir) (vc : Nat) (fs : List Flit) (s : State) : State :=
  match i with
  | none => s.modRouter r fun x => { x with inject := Tab.set [] x.inject vc fs }
  | some d => s.setLink r d { s.link r d with bufs := Tab.set [] (s.link r d).bufs vc fs }

/-- STOP of a VC follows the free buffers: asserted at the lower limit, released at the higher (R284). -/
def State.stopBit (s : State) (r : PT) (d : Dir) (vc : Nat) : BitVec 8 :=
  let l := s.link r d
  let free := bufferSize r d - (Tab.get [] l.bufs vc).length
  let lim := stopLimits (bufferSize r d)
  if free ≤ lim.1 then l.stopOut ||| ((1 : BitVec 8) <<< vc) else if lim.2 ≤ free then l.stopOut &&& ~~~((1 : BitVec 8) <<< vc) else l.stopOut

/-- The state of the direction that comes in on port `d`: its sender's. -/
def State.senderState (s : State) (r : PT) (d : Dir) : LinkState :=
  match r.step d with
  | some u => (s.link u d.back).st
  | none => (s.link r d).st

/-- What a receiver sends back after a flit came or left: an acknowledgement, with a credit when one has left, and in ONOFF and
RESYNC a stop word after it (R274, R284). (DEDUCED, log 34) -/
def State.sendBack (r : PT) (d : Dir) (vc : Nat) (credit : Bool) (s : State) : State :=
  let s := s.setLink r d { s.link r d with stopOut := s.stopBit r d vc }
  let s := s.emitOut (.returnWord r d (ackWord ((s.link r d).rxSeq - 1) false vc credit))
  match s.senderState r d with
  | .onoff | .resync => s.emitOut (.returnWord r d (stopWord (s.link r d).stopOut))
  | _ => s

/-- The first packet of a buffer leaves it: its credits go back (R281, R283). -/
def State.leave (r : PT) (i : Option Dir) (vc n : Nat) (rest : List Flit) (s : State) : State :=
  let s := s.setWaiting r i vc rest
  match i with
  | none => s
  | some d => (List.range n).foldl (fun s _ => s.sendBack r d vc true) s

/-! ### Forwarding (R272, R276, R283, R286 to R290) -/

/-- A port may send `n` flits on a VC: credits in CREDIT, STOP in ONOFF, none in RESYNC (R283, R285), and room in the replay
buffer of 32 flits (R274). -/
def State.maySend (s : State) (r : PT) (d : Dir) (vc n : Nat) : Bool :=
  let l := s.link r d
  s.linkLive r d && decide (l.replay.length + n ≤ 32) && (match l.st with
    | .credit => decide (Tab.get 0 l.spent vc + n ≤ bufferSize r d)
    | .onoff => !l.stop.getLsbD vc
    | _ => false)

/-- A packet that the fabric brings to its end: one whose flits fail FCRC there is lost; one that no part of the state sent came
from outside (R272, R282). (DESIGN CHOICE, log 36) -/
def State.arrived (part : Nat) (fs : List Flit) (s : State) : State :=
  if fs.all Flit.crcGood = false then s.lose (fs.filter fun f => f.isHead)
  else if s.comp.net.any (Packet.isOf fs) then s
  else match fs with
    | [] => s
    | h :: b => { s with comp := { s.comp with net := s.comp.net ++ [packetOf part h b] } }

/-- The way round the ring from a segment to another: the fewer segments, on a tie anticlockwise, the way in which the numbers
rise (R51, R326). -/
def ringAcw (a b : Nat) : Bool := decide ((b + 24 - a) % 24 ≤ 12)

/-- A packet enters the rim ring at a segment. -/
def State.ringEnter (a b : Nat) (p : Packet) (s : State) : State :=
  { s with comp := { s.comp with ring := s.comp.ring ++ [{ at_ := a, dest := b, acw := ringAcw a b, away := none, p := p }] } }

/-- A packet as it crosses the tile fabric from the ring to gateway `g`. -/
def crossing (g : Nat) (p : Packet) : Packet := { p with dst := .gateway g }

/-- A packet leaves the tile fabric at gateway `g`: one of the ring goes on there, one for an HBM stack enters the ring, any
other is at its end (R325, R326). -/
def State.atGateway (g : Nat) (fs : List Flit) (s : State) : State :=
  match s.comp.ring.find? fun e => decide (e.away = some g) && (crossing g e.p).isOf fs with
  | some e => { s with comp := { s.comp with ring := s.comp.ring.map fun x =>
      if x = e then { e with at_ := gatewaySegment g, acw := ringAcw (gatewaySegment g) e.dest, away := none } else x } }
  | none =>
    match s.comp.net.find? (Packet.isOf fs) with
    | some p =>
      match p.dst with
      | .hbm n => s.ringEnter (gatewaySegment g) n p
      | _ => s
    | none => s.arrived 0 fs

/-- The flits of a packet go out of a port. -/
def State.sendOut (r : PT) (d : Dir) (vc : Nat) (fs : List Flit) (s : State) : State :=
  let s := fs.foldl (fun s f => s.sendFlit r d vc f) s
  if (r.step d).isNone then s.atGateway (gatewayAt r d) fs else s

/-- A packet moves to the escape VC here (R290, R328). -/
def State.countDivert (r : PT) (s : State) : State :=
  s.modRouter r fun x => { x with divert := BitVec.ofNat 32 (min (x.divert.toNat + 1) 0xFFFFFFFF) }

/-- A router sends on the packets of one buffer, in order, while their next hops take them; a packet goes on when it has come
whole. (DEDUCED, log 34) -/
def State.forwardFrom (r : PT) (i : Option Dir) (vc : Nat) : Nat → State → State
  | 0, s => s
  | n + 1, s =>
    match cutPacket (s.waiting r i vc) with
    | none => s
    | some (fs, rest) =>
      let gone := fun (s : State) => s.leave r i vc fs.length rest
      match fs with
      | [] => s
      | h :: _ =>
        if h.isHead = false then (gone s).forwardFrom r i vc n
        else if opReserved (descField h.data 127 123) then ((gone s).badOp r).forwardFrom r i vc n
        else
          match s.wayOf r vc h.data with
          | .eject => ((gone s).arrived (s.bayOwner r.bay) fs).forwardFrom r i vc n
          | .go d c diverted =>
            if s.maySend r d c fs.length then
              let s := if diverted then (gone s).countDivert r else gone s
              (s.sendOut r d c fs).forwardFrom r i vc n
            else s

/-- A router sends on what it can, from its tile, then from its ports (R317 gives this order of them). -/
def State.forward (r : PT) (s : State) : State :=
  [none, some Dir.north, some Dir.east, some Dir.south, some Dir.west].foldl (fun s i =>
    (List.range 8).foldl (fun s vc => s.forwardFrom r i vc (s.waiting r i vc).length) s) s

/-- A router receives a flit on port `d` (R274): a good one is acknowledged and buffered, and SYNC is consumed. (DEDUCED,
log 34) -/
def State.receiveFlit (r : PT) (d : Dir) (f : Flit) (s : State) : State :=
  let l := s.link r d
  if s.linkLive r d = false then s
  else if l.discarding ∧ f.lseq ≠ l.rxSeq then s
  else if f.checks = false ∨ f.lseq ≠ l.rxSeq then
    (s.setLink r d { l with discarding := true }).emitOut (.returnWord r d (ackWord l.rxSeq true 0 false))
  else
    let s := s.setLink r d { l with discarding := false, rxSeq := l.rxSeq + 1 }
    if f.ft = 3 ∧ descField f.data 127 123 = 0x1F then
      let s := s.emitOut (.returnWord r d (ackWord f.lseq false f.vc true))
      (List.range 8).foldl (fun s v =>
        s.emitOut (.returnWord r d (resyncWord v (bufferSize r d - (s.waiting r (some d) v).length)))) s
    else
      let s := s.setWaiting r (some d) f.vc (s.waiting r (some d) f.vc ++ [f])
      (s.sendBack r d f.vc false).forward r

/-- `LINK_FLIT_RECEIVE` (R274). (DEDUCED, log 34) -/
def execLinkFlitReceive (r : PT) (d : Dir) (f : Flit) (s : State) : Out := .next (s.receiveFlit r d f)

/-- `SYNC` (R285). -/
def execSync (r : PT) (d : Dir) (f : Flit) (s : State) : Out := .next (s.receiveFlit r d f)

/-- The flits of a replay buffer from LSEQ `n` on. (DEDUCED, log 35) -/
def replayFrom (n : BitVec 6) : List Flit → List Flit
  | [] => []
  | f :: r => if f.lseq = n then f :: r else replayFrom n r

/-- A return word reaches the sender of port `d`. (DEDUCED, log 35) -/
def State.returnWord (r : PT) (d : Dir) (w : BitVec 16) (s : State) : State :=
  let l := s.link r d
  let kind := w.toNat / 2 ^ 14
  if s.linkLive r d = false then s
  else if parity 16 w.toNat then
    match l.st with
    | .credit => s.linkOnoff r d
    | .resync => s.resyncFail r d
    | _ => s
  else State.forward r <| if kind = 1 then
    let aseq : BitVec 6 := w.extractLsb' 8 6
    if w.getLsbD 7 then
      let again := replayFrom aseq l.replay
      if again = [] then s
      else if l.fails = 4 ∧ again.length = l.replay.length then s.takeDown r d
      else
        let fails := if again.length = l.replay.length then l.fails + 1 else 1
        let s := s.setLink r d { l with replay := again, fails := fails }
        let s := s.modRouter r fun x => { x with retry := BitVec.ofNat 16 (min (x.retry.toNat + again.length) 0xFFFF) }
        again.foldl (fun s f => s.emitOut (.meshFlit r d f)) s
    else
      let left := replayFrom (aseq + 1) l.replay
      let acked := l.replay.any fun f => decide (f.lseq = aseq)
      let vc := w.toNat / 16 % 8
      let spent := if w.getLsbD 3 then Tab.set 0 l.spent vc (Tab.get 0 l.spent vc - 1) else l.spent
      if acked then s.setLink r d { l with replay := left, fails := 0, spent := spent }
      else s.setLink r d { l with spent := spent }
  else if kind = 2 then s.setLink r d { l with stop := w.extractLsb' 6 8 }
  else if kind = 3 ∧ l.st = .resync then
    let vc := w.toNat / 2 ^ 11 % 8
    let free := w.toNat / 16 % 128
    let got := (l.resyncGot.filter fun g => decide (g.1 ≠ vc)) ++ [(vc, free)]
    if got.length = 8 then
      let spent := got.foldl (fun t g => Tab.set 0 t g.1 (bufferSize r d - g.2)) []
      s.setLink r d { l with st := .credit, spent := spent, resyncGot := [], rsFails := 0, slow := false }
    else s.setLink r d { l with resyncGot := got }
  else s

/-- `RETURN_WORD` (R273). -/
def execReturnWord (r : PT) (d : Dir) (w : BitVec 16) (s : State) : Out := .next (s.returnWord r d w)

/-! ### Timers of a link (R283, R285) -/

/-- `LINK_ACK_TIMEOUT`: 256 cycles without a well-formed acknowledgement word. -/
def execLinkAckTimeout (r : PT) (d : Dir) (s : State) : Out :=
  .next (if s.linkLive r d ∧ (s.link r d).st = .credit then s.linkOnoff r d else s)

/-- `LINK_ONOFF_EXPIRE`: 4,096 clean cycles in ONOFF. -/
def execLinkOnoffExpire (r : PT) (d : Dir) (s : State) : Out :=
  .next (if s.linkLive r d ∧ (s.link r d).st = .onoff ∧ s.bridgeHeld r d = false ∧ (s.link r d).slow = false then s.enterResync r d
    else s)

/-- `LINK_RESYNC_TIMEOUT`: 1,024 cycles without completion. -/
def execLinkResyncTimeout (r : PT) (d : Dir) (s : State) : Out :=
  .next (if s.linkLive r d ∧ (s.link r d).st = .resync then s.resyncFail r d else s)

/-- `LINK_RESYNC_RETRY` (R285): a link that failed four times tries again after 1 ms. -/
def execLinkResyncRetry (r : PT) (d : Dir) (s : State) : Out :=
  .next (if s.linkLive r d ∧ (s.link r d).st = .onoff ∧ s.bridgeHeld r d = false ∧ (s.link r d).slow then
    (s.pass 1000000).enterResync r d else s)

/-- `LINK_RETEST` (R550): a DOWN link that is not fenced returns to service in ONOFF when every test flit was good. -/
def execLinkRetest (r : PT) (d : Dir) (good : Bool) (s : State) : Out :=
  .next (match r.step d with
    | none => s
    | some u =>
      if (s.link r d).st = .down ∧ good ∧ s.isFenced 3 (linkId r d) = false ∧ s.routerDark r = false ∧ s.routerDark u = false then
        let up := fun (l : Link) => { Link.reset with st := .onoff, downAt := l.downAt, downs := l.downs }
        ((s.setLink r d (up (s.link r d))).setLink u d.back (up (s.link u d.back))).rewriteEscape.forward r
      else s)

/-! ### Counters -/

/-- `FAB_CTL_CLR` (R328). -/
def execFabCtlClr (r : PT) (s : State) : Out :=
  .next (s.modRouter r fun x => { x with retry := 0, onoff := 0, rsfail := 0, epdisc := 0, divert := 0 })

/-- The sums of `FAB_CNT` over the tiles of a partition: discarded packets and diverted ones (R329). -/
def State.fabSums (s : State) (p : Nat) : Nat × Nat :=
  s.comp.routers.foldl (fun n kr => if s.bayOwner (kr.1 / 12288) = p then
    (n.1 + kr.2.epdisc.toNat, n.2 + kr.2.divert.toNat) else n) (0, 0)

/-- `PRT_FAB_CNT`: the sums, less those that PRT_FAB_CLR last saw (R329). (DEDUCED, log 125) -/
def State.fabCnt (s : State) (p : Nat) : Word :=
  let n := s.fabSums p
  let b := s.reg (Reg.prtFabCnt p)
  fld 63 32 (min (n.1 - fieldOf b 63 32) 0xFFFFFFFF) ||| fld 31 0 (min (n.2 - fieldOf b 31 0) 0xFFFFFFFF)

/-- `PRT_FAB_CLR` (R329). (DEDUCED, log 125) -/
def execPrtFabClr (p : Nat) (s : State) : Out :=
  let n := s.fabSums p
  .next ((s.setReg (Reg.prtFabCnt p) (fld 63 32 n.1 ||| fld 31 0 n.2)).setField (Reg.prtWeirStat p) 63 32 0)

/-! ### A cycle of the fabric (R276, R277, R325, R326) -/

/-- A packet enters the tile fabric from gateway `g`, at the entry tile of the link that its destination gives, when the buffer
there has room (R325): whether it did. -/
def State.enterAt (g vc : Nat) (p : Packet) (s : State) : Bool × State :=
  let t := gatewayEntry g (gatewayLink (p.dst.coords p.src))
  let d := gatewayEdge g
  let fs := p.flits Via.direct s.now
  if s.linkLive t d ∧ (s.waiting t (some d) vc).length + fs.length ≤ bufferSize t d then
    (true, fs.foldl (fun s f => s.receiveFlit t d (f.onLink vc (s.link t d).rxSeq)) s)
  else (false, s)

/-- A packet that has been sent enters the fabric: from a tile by its router, from a gateway by its link, from an HBM stack by
the rim ring; one that finds no room waits (R276, R288, R325). -/
def State.injectOne (p : Packet) (s : State) : State :=
  let wait := fun (s : State) => { s with comp := { s.comp with fresh := s.comp.fresh ++ [p] } }
  match p.src with
  | .tile t =>
    let v := s.viaOf t p
    let vc := startVc p.op.toNat v.1
    v.2.setWaiting t none vc (v.2.waiting t none vc ++ p.flits v.1 s.now)
  | .hbm n => s.ringEnter n (gatewaySegment (p.src.coords p.dst).1) p
  | _ =>
    let e := s.enterAt (p.src.coords p.dst).1 (startVc p.op.toNat Via.direct) p
    if e.1 then e.2 else wait e.2

/-- The next segment on the ring in a direction, and the first beyond it that is not dark (R57, R59); `n` bounds the search. -/
def segNext (acw : Bool) (a : Nat) : Nat := if acw then (a + 1) % 24 else (a + 23) % 24
def State.ringBeyond (s : State) (acw : Bool) : Nat → Nat → Nat
  | 0, a => a
  | n + 1, a => if s.segUp a then a else s.ringBeyond acw n (segNext acw a)

/-- The gateway of a segment through which ring traffic leaves and enters the tile fabric: its first. (DESIGN CHOICE, log 126) -/
def segmentGateway (n : Nat) : Nat := ((List.range 276).find? fun g => gatewaySegment g == n).getD 0

/-- One packet of the ring moves on (R51, R59, R326): to the next segment; round a dark one through the tile fabric on the
escape VC; at its segment it reaches its HBM stack or enters the tile fabric. A packet for a dark segment is lost with it. -/
def State.ringMove (e : RingPacket) (s : State) : State :=
  let keep := fun (x : RingPacket) (s : State) => { s with comp := { s.comp with ring := s.comp.ring ++ [x] } }
  if e.away.isSome then keep e s
  else if s.segUp e.dest = false ∨ s.segUp e.at_ = false then { s with comp := { s.comp with net := s.comp.net.erase e.p } }
  else if e.at_ = e.dest then
    match e.p.dst with
    | .hbm _ => s
    | _ =>
      let x := s.enterAt (e.p.src.coords e.p.dst).1 (startVc e.p.op.toNat Via.direct) e.p
      if x.1 then x.2 else keep e x.2
  else
    let next := segNext e.acw e.at_
    if s.segUp next then keep { e with at_ := next } s
    else
      let g := segmentGateway (s.ringBeyond e.acw 24 next)
      let x := s.enterAt (segmentGateway e.at_) 7 (crossing g e.p)
      if x.1 then keep { e with away := some g } x.2 else keep e x.2

/-- One cycle of the fabric: packets that were sent enter it, those on the ring move on, and every router that holds flits sends
on what it can. (DESIGN CHOICE, log 2; DESIGN CHOICE, log 36) -/
def State.fabricTick (s : State) : State :=
  let ring := s.comp.ring
  let s := ring.foldl (fun s e => s.ringMove e) { s with comp := { s.comp with ring := [] } }
  let fresh := s.comp.fresh
  let s := fresh.foldl (fun s p => s.injectOne p) { s with comp := { s.comp with fresh := [] } }
  s.comp.routers.foldl (fun s kr => s.forward (PT.ofKey kr.1)) s

end Sys2Proof.Machine
end

