-- ==== Sys2Proof/Machine/Scriber.lean ====
section
/-!
DEFINITION. The Scriber: free spares, the choice of a host, scarf tables, table changes by epoch and the published map
(spec 07_scriber R331 to R358, R371 to R377; 06_fabric R293, R294, R300, R301).
-/

namespace Sys2Proof

/-- The column group of a home place: its spare column (R31). -/
def PT.ownSpare (t : PT) : Nat := t.col / 16 * 16 + 15

end Sys2Proof

namespace Sys2Proof.Machine

/-! ### Free spares (R335, R336) -/

/-- The tile's array supply is on, and neither a fence nor a dark router takes it (R336). -/
def State.liveTile (s : State) (t : PT) : Bool :=
  decide ((s.bay t.bay).supply = .on) && !s.tileFenced t && !s.routerDark t

/-- What stands for the Frame of a partition that never had one: it sets every bay, so that only void bays are reserve bays
(R335). -/
def Frame.unset : Frame := { Frame.empty with baymap := 2 ^ 84 - 1 }

/-- A reserve bay of the partition whose Frame is `f` (R335). -/
def State.reserveBay (s : State) (f : Frame) (b : Nat) : Bool := s.isVoid b || !f.baymap.testBit b

/-- What a placement goes by: the Frame, the bays it may use, which of them are reserve bays, and which logical tiles need
a place of their own, and which tiles count as fenced (R530 step 3). -/
structure Site where
  f : Frame
  bays : List Nat
  reserve : List Nat
  named : LT → Bool
  out : List PT

/-- The placement of partition `p` for Frame `f`. -/
def State.site (s : State) (p : Nat) (f : Frame) : Site :=
  let bays := s.baysOf p
  { f := f, bays := bays, reserve := bays.filter fun b => s.reserveBay f b, named := f.isNamed, out := [] }

/-- A dry fit tries a logical tile on the tile (R530 step 3). -/
def State.tried (s : State) (t : PT) : Bool := s.comp.parts.any fun p => p.2.commit.trials.any fun e => decide (e.2 = t)

/-- A free spare (R336). -/
def State.freeSpare (s : State) (x : Site) (t : PT) : Bool :=
  x.bays.contains t.bay && !x.out.contains t && s.liveTile t && (t.isSpare || x.reserve.contains t.bay) && !s.tried t &&
    match s.hosted t with
    | some l => !x.named l
    | none => true

/-- The tiles of a bay that may be spares: its spare columns, or all of a reserve bay. -/
def bayPlaces (b : Nat) (all : Bool) : List PT :=
  (List.range 96).flatMap fun r =>
    if all then (List.range 128).map fun c => { bay := b, col := c, row := r }
    else (List.range 8).map fun g => { bay := b, col := 16 * g + 15, row := r }

def State.freeSpares (s : State) (x : Site) (b : Nat) : List PT :=
  (bayPlaces b (x.reserve.contains b)).filter fun t => s.freeSpare x t

/-- Home places of a bay that fail the test, in ascending LY, then LX of their logical tiles. -/
def State.lostHomes (s : State) (b : Nat) : List LT :=
  sortLT ((s.fencedIn b).foldl (fun ls t => match (if t.isSpare then none else t.homeOf) with
    | some l => if ls.contains l then ls else ls ++ [l]
    | none => ls) [])

/-- The element with the least value of `f`, the first on a tie. -/
def minBy {α : Type} (f : α → Nat) (l : List α) : Option α :=
  l.foldl (fun b a => match b with
    | none => some a
    | some c => if f a < f c then some a else some c) none

/-! ### Choosing a spare (R337 to R346) -/

/-- The hop limit of a logical tile (R343). -/
def Frame.hopLimit (f : Frame) (l : LT) : Nat :=
  match f.spreadOf (f.regionOf l) with
  | some (_, _, _, m) => if m = 0xFF then f.maxhop else m
  | none => f.maxhop

/-- The affinity of a bay for a region: peers and weights of the records that act for it (R344, R241). -/
def State.affinity (s : State) (f : Frame) (g b : Nat) : Nat :=
  let of := fun (n : Nat) => f.routes.filterMap fun r => match r with
    | .affinity k p w => if k = n then some (p, w) else none
    | _ => none
  let recs := if of g = [] then of 0xFFFF else of g
  recs.foldl (fun n pw =>
    if f.named.any fun l => decide (f.regionOf l = pw.1) && decide ((s.runsAt l).bay = b) then n + pw.2 else n) 0

/-- Scattering is allowed (R341). -/
def State.mayScatter (s : State) (p : Nat) (f : Frame) : Bool :=
  f.policy.getLsbD 0 && !(s.reg (Reg.prtScribeCfg p)).getLsbD 0

/-- Step 1: the free spare of the home bay with the fewest extra hops, then its own column group, the lower PY, the lower PX
(R340). -/
def State.spareAtHome (s : State) (x : Site) (l : LT) : Option PT :=
  minBy (fun t => ((hops t l.home * 2 + flag (decide (t.col ≠ l.home.ownSpare))) * 1024 + t.py) * 2048 + t.px)
    (s.freeSpares x l.bay)

/-- Why a placement fails (R346): 1 home bay exhausted and no scattering, 2 hop limit, 3 no candidate in the half.
(DEDUCED, log 40) -/
abbrev PlaceFail := Nat

/-- The host that R339 takes for a logical tile of partition `p`. (DEDUCED, log 40) -/
def State.chooseSpare (s : State) (p : Nat) (x : Site) (l : LT) : Except PlaceFail PT :=
  let lost := decide ((s.bay l.bay).supply ≠ .on)
  match (if lost then none else s.spareAtHome x l) with
  | some t => .ok t
  | none =>
    if s.mayScatter p x.f = false then .error 1
    else
      let keep := s.field (Reg.prtScribeCfg p) 15 8
      let cands := (x.bays.filter fun b => decide (b ≠ l.bay) && bayEast b == bayEast l.bay).flatMap fun b =>
        let free := s.freeSpares x b
        if x.reserve.contains b ∨ keep + 1 ≤ free.length then free else []
      if cands = [] then .error 3
      else
        let near := cands.filter fun t => lost || decide (hops t l.home ≤ x.f.hopLimit l)
        let g := x.f.regionOf l
        match minBy (fun t =>
            ((hops t l.home * 2 ^ 40 + (2 ^ 40 - 1 - s.affinity x.f g t.bay)) * 1024 + t.py) * 2048 + t.px) near with
        | some t => .ok t
        | none => .error 2

/-- A tile serves a partition from now on: what a latent fault of it may have touched (R520). -/
def State.serves (t : PT) (p : Nat) (s : State) : State :=
  if p = 0 then s
  else s.modTile t fun x => { x with plumb := { x.plumb with
    served := if x.plumb.served.contains p then x.plumb.served else x.plumb.served ++ [p] } }

/-- The record without the logical tiles that it has on tile `t`. -/
def State.unhost (t : PT) (s : State) : State :=
  s.modComp fun c => { c with hosts := c.hosts.filter fun e => decide (e.2 ≠ some t) }

/-- The recorded host of a logical tile (R350): a tile hosts one logical tile, so that one which is not named loses it (R334). -/
def State.setHost (l : LT) (t : PT) (s : State) : State :=
  ((s.serves t (s.ltPart l)).unhost t).modComp fun c => { c with hosts := Tab.set none c.hosts l.key (if t = l.home then none else some t) }

/-- The recorded host has failed: it is outside the bays, or a fence, a dark router or the supply has taken it, or another
logical tile has it. -/
def State.hostFailed (s : State) (bays : List Nat) (l : LT) : Bool :=
  let t := s.hostOf l
  !bays.contains t.bay || !s.liveTile t || s.comp.hosts.any fun e => decide (e.2 = some t) && decide (e.1 ≠ l.key)

/-- PLACE_NO_SPARE (R346). (DEDUCED, log 40) -/
def State.noSpare (p : Nat) (l : LT) (why : PlaceFail) (s : State) : State :=
  s.signal Ev.placeNoSpare p [p, l.x, l.y, l.bay, why]

/-- Place logical tiles in the order given (R351): those placed, and whether every one was. -/
def State.placeAll (p : Nat) (x : Site) : List LT → State → State × List LT × Bool
  | [], s => (s, [], true)
  | l :: r, s =>
    match s.chooseSpare p x l with
    | .error why => (s.noSpare p l why, [], false)
    | .ok t =>
      let q := (s.setHost l t).placeAll p x r
      (q.1, l :: q.2.1, q.2.2)

/-- The first logical tile that finds no host, and why, when they are placed in the order given. -/
def State.firstFail (p : Nat) (x : Site) : List LT → State → Option (LT × PlaceFail)
  | [], _ => none
  | l :: r, s =>
    match s.chooseSpare p x l with
    | .error why => some (l, why)
    | .ok t => State.firstFail p x r (s.setHost l t)

/-! ### The published map (R354, R371 to R376) -/

/-- The Frame by which logical tiles of a partition are named: the applied one, or the last (R333, R249). -/
def State.mapFrame (s : State) (p : Nat) : Frame :=
  match (s.part p).own.frame with
  | some f => f
  | none => ((s.part p).own.lastFrame).getD Frame.unset

/-- The off-home list in ascending LY, then LX. -/
def State.offHome (s : State) (p : Nat) : List LT := (s.mapFrame p).named.filter fun l => decide (s.hostOf l ≠ l.home)

/-- `PRT_MAP_DATA` of a logical tile (R376). -/
def State.mapEntry (s : State) (l : LT) : Word :=
  let t := s.hostOf l
  fld 63 63 1 ||| fld 62 52 l.x ||| fld 51 42 l.y ||| fld 41 35 t.bay ||| fld 34 28 t.col ||| fld 27 21 t.row |||
    fld 20 10 (hops t l.home) ||| fld 9 9 (flag (decide (t.bay ≠ l.bay)))

/-- Hosting records of a change that gives version `ver`, 26 logical tiles each (R354, R831). -/
def State.hostingRecs (s : State) (p ver : Nat) : Nat → List LT → List GrnRec
  | 0, _ => []
  | n + 1, ls =>
    match ls with
    | [] => []
    | _ =>
      let now := ls.take 26
      let body := leBytes 1 p ++ leBytes 1 now.length ++ leBytes 4 ver ++ leBytes 2 0 ++
        now.flatMap fun l => leBytes 8 ((s.mapEntry l).toNat / 2 ^ 21 % 2 ^ 42)
      s.record 0x0040 4 0 body :: s.hostingRecs p ver n (ls.drop 26)

/-- The changes of a partition's map that are still to be published. -/
def State.mapsDue (s : State) (p : Nat) : Nat := s.comp.pubs.countP fun u => decide (u.part = p) && u.what.isSome

/-- A change of hostings is recorded in the Grain log: `old` is the record before it, `ls` are the logical tiles moved (R354). -/
def State.recordHostings (p : Nat) (old : Tab (Option PT)) (ls : List LT) (s : State) : State :=
  if ls = [] then s
  else
    let rs := s.hostingRecs p (s.field (Reg.prtMapStat p) 63 32 + 1 + s.mapsDue p) ls.length ls
    let s := s.modGrain fun g => { g with waiting := g.waiting ++ rs }
    let s := s.modComp fun c => { c with
      pubs := c.pubs ++ [{ part := p, recs := rs, before := hostDiff old c.hosts, what := none }] }
    if p = 0 then s else s.modOwn p fun o => { o with moved := o.moved ++ ls.filter fun l => !o.moved.contains l }

/-- The slowest divider of the halves that hold bays of the partition (R373). -/
def State.slowDiv (s : State) (bays : List Nat) : Nat := bays.foldl (fun m b => max m (s.halfDiv b)) 0

/-- `PRT_MAP_COST` of the hostings now (R373, R376). -/
def State.mapCost (s : State) (p : Nat) : Word :=
  let off := s.offHome p
  let worst := off.foldl (fun m l => max m (hops (s.hostOf l) l.home)) 0
  let lat := ((worst + 2) * s.slowDiv (s.baysOf p) + 23) / 24
  fld 63 44 (off.countP fun l => decide ((s.hostOf l).bay ≠ l.bay)) ||| fld 26 16 worst ||| fld 15 0 (min lat 0xFFFF)

/-- A change of the map is published once every table of it has taken effect and its hosting records have committed (R371 to
R373, R826). -/
def State.publish (p : Nat) (s : State) : State :=
  let n := Notice.map p ((s.offHome p).map s.mapEntry) (s.mapCost p) (s.part p).own.moved.length
  let s := s.modOwn p fun o => { o with moved := [] }
  if s.comp.pubs.all fun u => decide (u.part ≠ p) then s.makeKnown n
  else s.modComp fun c => { c with pubs := giveNotice p n c.pubs }

/-! ### Scarf tables (R293, R294, R347, R349) -/

/-- Walk `n` hops in one direction over live routers and links; none where one is dark or DOWN. -/
def State.walk (s : State) (d : Dir) : Nat → PT → Option PT
  | 0, t => some t
  | n + 1, t =>
    match t.step d with
    | none => none
    | some u =>
      if (s.link t d).st = .down ∨ (s.link u d.back).st = .down ∨ s.routerDark u = true then none else s.walk d n u

def State.walkX (s : State) (x : Nat) (t : PT) : Option PT :=
  if t.px ≤ x then s.walk .east (x - t.px) t else s.walk .west (t.px - x) t
def State.walkY (s : State) (y : Nat) (t : PT) : Option PT :=
  if t.py ≤ y then s.walk .south (y - t.py) t else s.walk .north (t.py - y) t

/-- The dimension-ordered path, first along PX, is live; and the path first along PY. -/
def State.liveXY (s : State) (a b : PT) : Bool := ((s.walkX b.px a).bind (s.walkY b.py)).isSome
def State.liveYX (s : State) (a b : PT) : Bool := ((s.walkY b.py a).bind (s.walkX b.px)).isSome

/-- The scarf entry of a sender's host for a logical tile, with the destination's DEP (R294, R349). -/
def State.scarfEntry (s : State) (src : PT) (l : LT) (dep : Bool) : Word × Word :=
  let t := s.runsAt l
  let wv := !s.liveXY src t && s.liveYX src t
  (fld 63 63 1 ||| fld 62 52 l.x ||| fld 51 42 l.y ||| fld 41 31 t.px ||| fld 30 21 t.py ||| fld 20 20 (flag dep),
   if wv then fld 21 21 1 ||| fld 20 10 src.px ||| fld 9 0 t.py else 0)

/-- The named logical tiles whose program names float `fid`. -/
def Frame.floatTiles (f : Frame) (fid : Nat) : List LT :=
  f.named.filter fun l => match (f.tileset l).bind fun t => f.program t.prog with
    | some g => g.fids.contains fid
    | none => false

/-- A logical tile of the bays that the Frame sets with a property. -/
def Frame.findTile (f : Frame) (ok : LT → Bool) : Option LT :=
  (List.range 84).findSome? fun b =>
    if f.baymap.testBit b then
      (({ x0 := b % 12 * 120, y0 := b / 12 * 96, x1 := b % 12 * 120 + 119, y1 := b / 12 * 96 + 95 } : Rect).tiles).find? ok
    else none

/-- The floats of a Frame at INIT, each with its home and its shadows; a router is home to at most 4: the home is a tile that
names the float, else a named tile, else any tile of the Frame's bays (R316). (DESIGN CHOICE, log 37) -/
def Frame.initFloats (f : Frame) : Tab Float :=
  (f.floats.foldl (fun (acc : Tab Float × List LT) r =>
    let ts := f.floatTiles r.fid
    let free := fun (l : LT) => decide (acc.2.countP (fun m => decide (m = l)) < 4)
    let home := (((ts.find? free).orElse fun _ => (f.named.find? free).orElse fun _ => f.findTile free).getD { x := 0, y := 0 })
    let x : Float := { value := r.init, count := 0, home := home, shadows := ts.map fun l => (l.key, (r.init, 0)), early := [] }
    (Tab.put acc.1 r.fid x, acc.2 ++ [home])) ([], [])).1

/-- Whom a tile notifies of a float: seven tiles a node, the home the root, which has its own shadow too (R317).
(DESIGN CHOICE, log 37) -/
def Float.notifies (x : Float) (l : LT) : List LT :=
  let shadows := x.shadows.map fun sh => LT.ofKey sh.1
  let tree := x.home :: shadows.filter fun m => decide (m ≠ x.home)
  let i := tree.findIdx fun m => decide (m = l)
  (if l = x.home ∧ shadows.contains l = true then [l] else []) ++ (tree.drop (7 * i + 1)).take 7

/-- The fountain-node, weir and float tables of a logical tile's router (R297). -/
def Frame.fabOf (f : Frame) (fs : Tab Float) (l : LT) : FabTables :=
  { founts := f.founts.filter fun g => (g.nodeOf l).isSome
    weirs := f.weirs.filterMap fun w =>
      if w.has l then some { wid := w.wid, parent := f.weirParent w l, kids := f.weirChildren w l } else none
    floats := fs.filterMap fun kx =>
      if kx.2.home = l ∨ kx.2.shadows.any (fun sh => decide (sh.1 = l.key)) then
        some { fid := kx.1, home := kx.2.home, notify := kx.2.notifies l }
      else none }

/-- The logical tiles that a logical tile ever addresses (R293, R295): its ports' destinations, its neighbours in weir trees, its
children in fountains, the homes of its floats and those it notifies of them. -/
def Frame.addressed (f : Frame) (fs : Tab Float) (l : LT) : List LT :=
  let ports := match f.tileset l with
    | some t => t.ports.filterMap fun e => (e.destAt l).map fun d => ({ x := d.1.toNat, y := d.2.toNat } : LT)
    | none => []
  let x := f.fabOf fs l
  let founts := x.founts.flatMap fun g => ((g.nodeOf l).map fun i => (g.children i).map fun n => n.2.t).getD []
  let weirs := x.weirs.flatMap fun w => w.parent.toList ++ w.kids
  let floats := x.floats.flatMap fun r => r.home :: r.notify
  (ports ++ weirs ++ founts ++ floats).foldl (fun r m => if r.contains m then r else r ++ [m]) []

/-- The logical tiles whose routers have tables: the named ones and the homes of floats. -/
def Frame.tabled (f : Frame) (fs : Tab Float) : List LT :=
  f.named ++ (fs.map fun kx => kx.2.home).filter fun l => !f.isNamed l

/-- Some tile would need more than 64 scarf entries: the placement fails (R295). -/
def Frame.scarfFull (f : Frame) : Bool :=
  let fs := f.initFloats
  (f.tabled fs).any fun l => decide (64 < (f.addressed fs l).length)

/-- The scarf table of a logical tile's host; `dep` gives each destination's receive epoch. -/
def State.scarfTable (s : State) (p : Nat) (f : Frame) (dep : PT → Bool) (l : LT) : Tab (Word × Word) :=
  let es := (f.addressed (s.part p).run.floats l).map fun m => s.scarfEntry (s.runsAt l) m (dep (s.runsAt m))
  (List.range es.length).zip es

/-- Write the tables of every router that has any, and the full map, in place (R300), or into the inactive version (R296,
R297, R301). -/
def State.writeTables (p : Nat) (f : Frame) (inactive : Bool) (dep : PT → Bool) (s : State) : State :=
  let fs := (s.part p).run.floats
  let s := (f.tabled fs).foldl (fun s l =>
    let tab := s.scarfTable p f dep l
    let fab := f.fabOf fs l
    s.modRouter (s.runsAt l) fun r =>
      if r.tv != inactive then { r with scarf1 := tab, fab1 := fab } else { r with scarf0 := tab, fab0 := fab }) s
  let map := f.named.map fun l => (l.key, (s.runsAt l, dep (s.runsAt l)))
  s.modRun p fun r => if r.mapTv != inactive then { r with map1 := map } else { r with map0 := map }

/-- Tables in place: every destination keeps its receive epoch (R300, R329). -/
def State.tablesInPlace (p : Nat) (f : Frame) (s : State) : State :=
  (s.writeTables p f false (fun t => (s.router t).ep)).setField (Reg.prtFabEpoch p) 63 48 f.gen.toNat

/-- The partition's other bays whose tiles are trial hosts (R530 step 3). -/
def State.guestBays (s : State) (p : Nat) : List Nat :=
  (s.part p).commit.trials.filterMap fun e => if s.bayOwner e.2.bay = p then none else some e.2.bay

/-- A table change by epoch with every region in D (R301): the inactive version is written, EP and TV change, and with them the
version of the full map; EPOCH_FLIP. -/
def State.flipEpoch (p : Nat) (f : Frame) (gen : BitVec 16) (s : State) : State :=
  let bays := s.baysOf p
  let ep := match bays with
    | [] => false
    | b :: _ => !(s.bay b).rbase.ep
  let dep := fun (t : PT) => if bays.contains t.bay then ep else (s.router t).ep
  let s := s.writeTables p f true dep
  let s := bays.foldl (fun s b => s.modBayRouters b fun _ r => { r with tv := !r.tv, ep := ep, gen := gen }) s
  let s := ((s.part p).commit.trials.filterMap fun e => if bays.contains e.2.bay then none else some e.2).foldl (fun s t =>
    s.modRouter t fun r => { r with tv := !r.tv }) s
  let s := s.modRun p fun r => { r with mapTv := !r.mapTv }
  let s := (s.setField (Reg.prtFabEpoch p) 63 48 gen.toNat).bumpWrap (Reg.prtFabEpoch p) 47 32 1
  s.signal Ev.epochFlip p [p, gen.toNat, f.regionIds.length]

/-! ### Register reads (R376, R377) -/

/-- `PRT_MAP_DATA` as it reads now: an entry of the published list (R372). -/
def State.mapData (s : State) (p : Nat) : Word := (s.part p).own.map.getD (s.field (Reg.prtMapSel p) 19 0) 0

/-- `PRT_MAP_DATA_READ` (R376): with INC set a read advances INDEX. -/
def execPrtMapDataRead (f p : Nat) (s : State) : Out :=
  .next (
    if f ≠ 0 ∧ f ≠ p then s
    else
      let s := s.emitOut (.regData f (Reg.prtMapData p) (s.mapData p))
      if (s.reg (Reg.prtMapSel p)).getLsbD 20 then s.bumpWrap (Reg.prtMapSel p) 19 0 1 else s)

/-- The tiles of a bay that host a logical tile away from its home place. -/
def State.hostsAway (s : State) (b : Nat) : List (PT × LT) :=
  let places := ((s.comp.hosts.filterMap fun e => e.2) ++ s.comp.parts.flatMap fun p => p.2.commit.trials.map (·.2)).filter
    fun t => decide (t.bay = b)
  (places.foldl (fun r t => if r.contains t then r else r ++ [t]) []).filterMap fun t => match s.hosted t with
    | some l => if t = l.home then none else some (t, l)
    | none => none

/-- `SIL_SPARESTAT@b` (R377). -/
def State.spareStat (s : State) (b : Nat) : Word :=
  let p := s.bayOwner b
  let x := s.site p (s.mapFrame p)
  let away := s.hostsAway b
  fld 63 48 (s.freeSpares x b).length ||| fld 47 32 away.length ||| fld 31 16 (away.countP fun e => decide (e.2.bay ≠ b)) |||
    fld 0 0 (flag (decide (p ≠ 0) && x.reserve.contains b))

end Sys2Proof.Machine
end

