-- ==== Sys2Proof/Machine/FrameLoad.lean ====
section
/-!
DEFINITION. What a Frame writes into tiles: programs, configuration, ports, stochastic-rounding indices, WM windows and
floats (spec 05_frame R230 to R237, R260; 07_scriber R359, R360; 06_fabric R316).
-/

namespace Sys2Proof.Machine

/-- `TILE_SRIXn` of a logical tile (R231). -/
def srixAt (base : Nat) (dx dy : Int) (r : Rect) (l : LT) : BitVec 48 :=
  BitVec.ofInt 48 ((base : Int) + ((l.x : Int) - r.x0) * dx + ((l.y : Int) - r.y0) * dy)

/-- A port takes an image: its cursor starts at ADDR; the producer side is as it was (R161, R232). -/
def Port.configure (w : Word) (y : Port) : Port := { y with desc := w, cursor := w.extractLsb' 25 16 }

/-- The ports of a tile of the rectangle: those that it does not receive are zero (R232). -/
def Tile.setPorts (f : Frame) (l : LT) (x : Tile) : Tile :=
  (List.range 16).foldl (fun x n => x.modPort n (Port.configure (f.portImage l n))) x

/-- The configuration of logical tile `l` at its host: program, `TILE_CFG`, ports and indices; a tile in no tile set
takes ports of zero and no program (R230 to R232, R260 step 3). -/
def Tile.configure (f : Frame) (l : LT) (x : Tile) : Tile :=
  let x := x.setPorts f l
  match f.tileset l with
  | none => x
  | some r =>
    let x := match f.program r.prog with
      | some g => x.store 0xC000 (g.ops.flatMap fun (w : Word) => leBytes 8 w.toNat)
      | none => x
    { x with
      c := { x.c with entry := BitVec.ofNat 9 r.entry, startq := BitVec.ofNat 3 r.startq, ceLim := BitVec.ofNat 8 r.ceLim }
      r := { x.r with srix0 := srixAt r.base0 r.dx0 r.dy0 r.rect l, srix1 := srixAt r.base1 r.dx1 r.dy1 r.rect l } }

/-- Configure the host of a logical tile. -/
def State.configTile (f : Frame) (l : LT) (s : State) : State := s.modTile (s.runsAt l) (Tile.configure f l)

/-- Every tile of a bay takes ports of zero (R260 step 3). -/
def State.clearPorts (b : Nat) (s : State) : State :=
  s.modBayTiles b fun _ x => { x with r := { x.r with
    ports := Tab.mapVals Port.reset (fun _ y => Port.configure 0 y) x.r.ports } }

/-- An inline window: its data go to the tensor and to the tiles (R235). -/
def State.writeInline (p : Nat) (w : WmloadRec) (s : State) : State :=
  let d := padTo w.len w.data
  ((List.range w.rect.count).zip w.rect.tiles).foldl (fun s kl =>
    let s := match s.alloc p w.tid with
      | some a => (s.writeRange p (a.base + w.off + kl.1 * w.len) d).2
      | none => s
    s.modTile (s.runsAt kl.2) fun x => x.store w.wmaddr d) s

/-- Load every window of a Frame, fill 0 of those that stream (R260 step 4, R360): the poisoned blocks met. -/
def State.loadWindows (p : Nat) (f : Frame) (s : State) : List Nat × State :=
  f.wmloads.foldl (fun acc w =>
    if w.inline then (acc.1, acc.2.writeInline p w)
    else
      let r := acc.2.writeFill p w 0
      (acc.1 ++ r.1, r.2)) ([], s)

/-- The fill of each streamable window that a replay begins with: the one held when the step began (R530 step 5). -/
def State.startFill (s : State) (p i : Nat) : Nat := Tab.get 0 (s.part p).commit.startFills i

/-- Reload the windows of one logical tile at its host (R530 step 4, R561): inline data of pinned windows from `g`, the Frame as
its store holds it, every other window from its tensor, `fill` giving each streamable window's fill; the poisoned blocks met. -/
def State.loadTile (p : Nat) (f g : Frame) (fill : Nat → Nat) (l : LT) (s : State) : List Nat × State :=
  f.windows.foldl (fun acc iw =>
    let w := iw.2
    if w.rect.has l = false then acc
    else if w.inline ∧ w.streamable = false then
      let d := ((g.windows.find? fun e => e.1 == iw.1).map fun e => e.2.data).getD []
      (acc.1, acc.2.modTile (acc.2.runsAt l) fun x => x.store w.wmaddr (padTo w.len d))
    else
      let k := (l.y - w.rect.y0) * (w.rect.x1 + 1 - w.rect.x0) + (l.x - w.rect.x0)
      let r := acc.2.fillBytes p w (if w.streamable then fill iw.1 else 0) k
      if r.2.1 = [] then (acc.1, r.2.2.modTile (r.2.2.runsAt l) fun x => x.store w.wmaddr r.1)
      else (acc.1 ++ r.2.1, r.2.2)) ([], s)

/-- A Frame read from its bytes; bytes that are no Frame any more leave `f`. (DESIGN CHOICE, log 127) -/
def Frame.reread (f : Frame) (d : List Byte) : Frame :=
  match frameStructure d d.length with
  | .ok ss => frameOfBytes d ss
  | .error _ => f

/-- The Frame as the Frame store holds it, from which programs, configuration and inline data are reloaded, and the poisoned
blocks met (R256, R448). -/
def State.readStore (p : Nat) (f : Frame) (s : State) : Frame × List Nat × State :=
  match (s.part p).own.store with
  | some a => let r := s.readRange p a.base a.size; (f.reread r.1.data, r.1.bad, r.2)
  | none => (f, [], s)

/-- Give moved logical tiles of the placement of `f` their configuration, when it is applied, and their windows at their
hosts: the poisoned blocks met. -/
def State.loadMoved (p : Nat) (f : Frame) (fill : Nat → Nat) (ls : List LT) (s : State) : List Nat × State :=
  let q := if ls = [] then (f, [], s) else s.readStore p f
  ls.foldl (fun acc l =>
    let s := if (acc.2.part p).own.frame.isSome then
        (acc.2.configTile q.1 l).modTile (acc.2.runsAt l) fun x => { x with c := { x.c with gen := f.gen } }
      else acc.2
    let r := s.loadTile p f q.1 fill l
    (acc.1 ++ r.1, r.2)) (q.2.1, q.2.2)

/-- Each float takes the value it held when the step began, and so do its shadows (R530 step 5). -/
def State.restoreFloats (p : Nat) (s : State) : State :=
  let c := (s.part p).commit
  s.modRun p fun x => { x with floats := x.floats.map fun kf =>
    let v := (c.startFloats.find? fun e => e.1 == kf.1).isSome
    (kf.1, { kf.2 with value := v, shadows := kf.2.shadows.map fun sh => (sh.1, (v, kf.2.count)), early := [] }) }

/-- Each streamable window is rewritten with the fill it held when the step began (R530 step 5): the poisoned blocks
met. -/
def State.restoreFills (p : Nat) (s : State) : List Nat × State :=
  (s.frameOf p).windows.foldl (fun acc iw =>
    if iw.2.streamable then
      let j := s.startFill p iw.1
      let r := acc.2.writeFill p iw.2 j
      (acc.1 ++ r.1, r.2.setWindow p iw.1 { fill := j, writing := none })
    else acc) ([], s)

end Sys2Proof.Machine
end

