-- ==== Sys2Proof/Machine/Recovery.lean ====
section
/-!
DEFINITION. Step commit, dry fit, healing and REMAP (spec 11_detection R523 to R536, R545; 12_healing R559 to R568, R574 to
R576, R582; 07_scriber R351 to R354; 13_host R613, R614).
-/

namespace Sys2Proof.Machine

/-! ### Pieces shared by dry fits and heals -/

/-- POLICY bits of the Frame (R221). -/
def Frame.stopRemap (f : Frame) : Bool := f.policy.getLsbD 1
def Frame.xpart (f : Frame) : Bool := f.policy.getLsbD 2

/-- The discard order reaches every layer of the current step (R413, R530 step 6). -/
def State.discardStep (p : Nat) (s : State) : State :=
  (s.part p).pln.layers.foldl (fun s kl => if kl.2.gradStep = s.stepNo p then s.discardLayer p kl.1 else s) s

/-- The gradient count of every layer that is not frozen and is IDLE is zero (R561). -/
def State.zeroCounts (p : Nat) (s : State) : State :=
  (s.part p).pln.layers.foldl (fun s kl =>
    if (s.layer p kl.1).st = .idle then s.setLayer p kl.1 { s.layer p kl.1 with count := 0 } else s) s

/-- The purge that begins a recovery: every region, the held puts of the step (R664), and what the partition's gateways had
still to stream (R534). -/
def State.recoveryPurge (p : Nat) (s : State) : State :=
  let s := (s.purgeAll p).discardHeldPuts p
  s.modRun p fun r => { r with gateways := Tab.mapVals Gateway.reset (fun _ g =>
    { g with triggers := 0, pos := none, started := false }) r.gateways }

/-- With every region purged, each queue begins anew between the tiles that host its ends now, its inlets held
(R211, R869). -/
def State.relink (p : Nat) (s : State) : State :=
  let f := s.frameOf p
  let s := s.restoreQueues p f.queues
  (f.queues.filter fun b => b.inlet).foldl (fun s b => s.takeRecall p b) s

/-- Step 7 of R530: every region is reopened and the triggers of the step are issued again; a step that had not begun
begins. -/
def State.reopenAll (p : Nat) (s : State) : State :=
  let s := ((s.frameOf p).regionIds).foldl (fun s r => s.reopenRegion p r) s
  if (s.part p).commit.begun then s.triggerSchedule p else s.beginStep p

/-- Intensified plumb of a tile for 24 hours (R522). -/
def State.intensify (t : PT) (s : State) : State :=
  s.modTile t fun x => { x with plumb := { x.plumb with intensUntil := some (s.now + dayNs) } }

/-- The restart limit of R575 is reached; 0 reads as 1. -/
def State.restartLimit (s : State) (p : Nat) : Bool :=
  decide (max 1 (s.field Reg.fltReccfg 7 0) ≤ (recent s.now 1000000000 (s.part p).heal.restarts).length)

/-- MAP_CHANGED: the heal of a partition whose Frame sets STOP_REMAP stops with its regions DRAINED (R562). -/
def State.mapChanged (p : Nat) (s : State) : State :=
  let s := (s.discardStep p).zeroCounts p
  let s := s.modHeal p fun h => { h with st := .stopped, remapStop := true }
  let s := s.modCommit p fun c => { c with df := .none }
  s.signal Ev.mapChanged p [p, (s.stepNo p).toNat, (s.part p).heal.lost.length]

/-! ### Commit (R393, R527) -/

/-- PLN_GRAD_SHORT of layers whose gradient is not whole when STEP_WEIR completes (R393, R425). -/
def State.gradShort (p : Nat) (s : State) : State :=
  (s.part p).pln.layers.foldl (fun s kl =>
    match s.layerRec p kl.1 with
    | some r =>
      if kl.2.st = .idle ∧ 0 < kl.2.count ∧ kl.2.count < s.tensorSize p r.g then
        s.signal Ev.plnGradShort p [p, kl.1, (s.stepNo p).toNat, kl.2.count]
      else s
    | none => s) s

/-- Step s commits: the release, LASTCOMMIT, the grants, the held puts; step s + 1 begins (R523, R527, R664). -/
def State.commitStep (p : Nat) (s : State) : State :=
  let step := s.stepNo p
  let s := s.releaseWeir p (s.frameOf p).stepWeir
  let s := s.gradShort p
  let s := s.setField (Reg.prtCommitStat p) 63 32 (step.toNat % 2 ^ 32)
  let s := (s.part p).pln.layers.foldl (fun s kl => if kl.2.gradStep = step then s.grantLayer p kl.1 else s) s
  let s := s.releasePuts p step
  let s := s.modCommit p fun c => { c with
    bounds := (c.bounds ++ [(step.toNat, c.beganAt, s.now)]).drop (c.bounds.length + 1 - 1024), df := .none }
  let s := s.modPln p fun y => { y with
    firstReadyAt := if y.layers.any fun kl => decide (kl.2.st = .ready) then y.firstReadyAt else none }
  (s.setReg (Reg.prtStep p) (step + 1)).beginStep p

/-! ### Dry fit (R530 to R532) -/

/-- A dry fit ends with outcome fail (R532): 1 the replay was suspect TRIES times, 2 no trial host, 3 restart limit. -/
def State.dryfitFail (p why : Nat) (s : State) : State :=
  let s := (s.modCommit p fun c => { c with df := .none }).bump (Reg.prtDetCnt p) 15 0 1
  s.signal Ev.dryfitFail p [p, (s.stepNo p).toNat, why]

/-- A trial host in another partition of the same half whose Frame sets DRYFIT_XPART: the free spare with the fewest extra
hops (R530 step 3). -/
def State.guestSpare (s : State) (p : Nat) (l : LT) : Option PT :=
  let cands := ((List.range 8).map (· + 1)).flatMap fun q =>
    match (s.part q).own.frame with
    | some g =>
      if q ≠ p ∧ g.xpart then
        let x := s.site q g
        (x.bays.filter fun b => bayEast b == bayEast l.bay).flatMap fun b => s.freeSpares x b
      else []
    | none => []
  minBy (fun t => (hops t l.home * 1024 + t.py) * 2048 + t.px) cands

/-- The trial host of a named logical tile; a fenced host's only within the partition (R530 step 3, R356, R576). -/
def State.trialHost (s : State) (p : Nat) (x : Site) (l : LT) : Option PT :=
  match s.chooseSpare p x l with
  | .ok t => some t
  | .error _ => if x.f.xpart && !(s.part p).commit.fencedNow.contains l then s.guestSpare p l else none

/-- Give each logical tile its trial host in turn: false when one has none. -/
def State.placeTrials (p : Nat) (x : Site) : List LT → State → Bool × State
  | [], s => (true, s)
  | l :: r, s =>
    match s.trialHost p x l with
    | none => (false, s)
    | some t => ((s.serves t p).modCommit p fun c => { c with trials := Tab.put c.trials l.key t }).placeTrials p x r

/-- Steps 1 to 5 of a dry fit (R530); a poisoned read resets the partition's compute (R448, R449). -/
def State.startDryFit (p : Nat) (s : State) : State :=
  let f := s.frameOf p
  let s := s.recoveryPurge p
  let s := s.modCommit p fun c => { c with df := .placing, trials := [], settled := false }
  let c := (s.part p).commit
  if f.stopRemap ∧ c.fencedNow ≠ [] then s.mapChanged p
  else
    let named := sortLT c.named
    let x := { s.site p f with out := named.map s.hostOf }
    let q := s.placeTrials p x named
    if q.1 = false then (q.2.modCommit p fun c => { c with trials := [] }).dryfitFail p 2
    else
      let s := (q.2.flipEpoch p f f.gen).relink p
      let m := s.loadMoved p f (s.startFill p) named
      let r := m.2.restoreFills p
      let s := r.2.restoreFloats p
      match m.1 ++ r.1 with
      | b :: _ => s.poisonConsumed p b 4
      | [] => s.modCommit p fun c => { c with df := .waiting }

/-- A new dry fit of the step, which counts toward TRIES. -/
def State.newDryFit (p : Nat) (s : State) : State :=
  (s.modCommit p fun c => { c with tries := c.tries + 1, digests := [] }).startDryFit p

/-- SETTLE in nanoseconds (R526, R545). -/
def State.settleNs (s : State) (p : Nat) : Nat := max 10 (s.field (Reg.prtDetcfg p) 15 0) * 1000
/-- WEIR_LIMIT in nanoseconds (R509, R545). -/
def State.weirLimitNs (s : State) (p : Nat) : Nat := 1000000 * max 1 (s.field (Reg.prtDetcfg p) 39 24)
def State.triesMax (s : State) (p : Nat) : Nat := max 1 (s.field (Reg.prtDetcfg p) 47 40)

/-- When the settle time of the step ends: SETTLE after the hold at the root of STEP_WEIR, or after its timeout in a step
that is suspect. -/
def State.settleDue (s : State) (p : Nat) : Option Nat :=
  let w := weirOf p (s.frameOf p).stepWeir s
  match w.heldAt with
  | some t => some (t + s.settleNs p)
  | none => if w.timedOut && (s.part p).commit.suspect then some (w.firstAt + s.weirLimitNs p + s.settleNs p) else none

/-- `STEP_SETTLE` (R526 to R530): the step commits, or its dry fit begins; a replay goes on to its comparison, or to another
dry fit. -/
def execStepSettle (p : Nat) (s : State) : Out :=
  let c := (s.part p).commit
  .next (match s.settleDue p with
    | none => s
    | some t =>
      if (s.frameOf p).stepWeir = 0xFFFF ∨ c.settled ∨ (s.part p).heal.lost ≠ [] ∨ s.phys.power.halted ∨
          (s.part p).own.stopped then s
      else
        let s := s.passTo t
        match c.df with
        | .none => if c.suspect then s.newDryFit p else s.commitStep p
        | .replaying =>
          if c.suspect = false then s.modCommit p fun c => { c with df := .comparing, settled := true }
          else if s.triesMax p ≤ c.tries then s.dryfitFail p 1
          else s.newDryFit p
        | _ => s)

/-- Every layer has come where step 6 of R530 waits for it. -/
def State.layersRest (s : State) (p : Nat) : Bool :=
  (s.part p).pln.layers.all fun kl => match kl.2.st with
    | .staged | .held | .frozen | .copying => true
    | .idle => decide (kl.2.count = 0)
    | _ => false

/-- The gradient digests of the layers of the current step that are STAGED (R531). -/
def State.stagedDigests (s : State) (p : Nat) : Tab Word :=
  (s.part p).pln.layers.filterMap fun kl =>
    match kl.2.staged with
    | some g => if kl.2.st = .staged ∧ kl.2.gradStep = s.stepNo p then some (kl.1, g.digest) else none
    | none => none

/-- `DRYFIT_DIGEST_RECORD` (R530 steps 6 and 7, R576): digests recorded before a restart are kept. -/
def execDryfitDigestRecord (p : Nat) (s : State) : Out :=
  let c := (s.part p).commit
  .next (
    if c.df ≠ .waiting ∨ s.layersRest p = false ∨ s.phys.power.halted then s
    else
      let ds := if c.digests = [] then s.stagedDigests p else c.digests
      let s := (s.modCommit p fun c => { c with digests := ds, suspect := false, df := .replaying }).discardStep p
      let s := s.reopenAll p
      s.signal Ev.dryfitStart p [p, (s.stepNo p).toNat])

/-- The trial placement of a dry fit ends (R532, R576): the trial hosts of `keep` become recorded hosts; every other is withdrawn
by a table change, with the regions purged before it and reopened after it (R301). -/
def State.endTrials (p : Nat) (keep : List LT) (s : State) : State :=
  let f := s.frameOf p
  let ts := (s.part p).commit.trials
  let back := ts.filter fun e => !keep.contains (LT.ofKey e.1)
  let stay := ts.filter fun e => keep.contains (LT.ofKey e.1)
  let old := s.comp.hosts
  let s := stay.foldl (fun s e => s.setHost (LT.ofKey e.1) e.2) s
  let s := if back = [] then s.modCommit p fun c => { c with trials := [] }
    else
      let s := (s.purgeAll p).modCommit p fun c => { c with trials := [] }
      let s := back.foldl (fun s e => s.cycleTile e.2) s
      let s := (s.flipEpoch p f f.gen).relink p
      f.regionIds.foldl (fun s r => s.reopenRegion p r) s
  if stay = [] then s
  else (s.recordHostings p old (stay.map fun e => LT.ofKey e.1)).publish p

/-- Every layer with a recorded digest has come back to STAGED. -/
def State.replayStaged (s : State) (p : Nat) : Bool :=
  (s.part p).commit.digests.all fun d =>
    let x := s.layer p d.1
    decide (x.st = .staged) && decide (x.gradStep = s.stepNo p)

/-- `DRYFIT_COMPARE` (R530 step 9, R532): outcome equal or differ, and the commit of the step. -/
def execDryfitCompare (p : Nat) (s : State) : Out :=
  let c := (s.part p).commit
  .next (
    if c.df ≠ .comparing ∨ s.replayStaged p = false ∨ s.phys.power.halted then s
    else
      let now := s.stagedDigests p
      let bad := (c.digests.filter fun d => decide (Tab.get 0 now d.1 ≠ d.2)).map (·.1)
      if bad = [] then
        let s := (s.bump (Reg.prtDetCnt p) 47 32 1).signal Ev.dryfitEqual p [p, (s.stepNo p).toNat]
        let named := c.named.filter fun l => !c.fencedNow.contains l
        let s := named.foldl (fun s l => s.intensify (s.hostOf l)) s
        (s.endTrials p c.fencedNow).commitStep p
      else
        let s := (s.bump (Reg.prtDetCnt p) 31 16 1).signal Ev.dryfitDiffer p ([p, (s.stepNo p).toNat] ++ bad)
        let olds := c.named.map s.hostOf
        let s := s.endTrials p c.named
        let s := olds.foldl (fun s t => if s.tileFenced t then s else s.fenceTile t c.cause.toNat) s
        (s.taint p (s.stepNo p)).commitStep p)

/-! ### Healing (R559 to R564, R575, R576) -/

/-- HEAL_FAIL (R564): 1 no spare, 2 a poisoned read, 3 restart limit. -/
def State.healFail (p why : Nat) (s : State) : State :=
  let s := (s.discardStep p).bump Reg.fltRecov 15 0 1
  let s := s.modHeal p fun h => { h with st := .stopped, restarts := [] }
  s.signal Ev.healFail p [p, (s.stepNo p).toNat, why]

/-- A heal is complete: its counts and `PRT_HEAL_STAT` (R581, R582). -/
def State.healed (p : Nat) (s : State) : State :=
  let us := min ((s.now - (s.part p).heal.at_) / 1000) 0xFFFF
  let s := (s.bump Reg.fltRecov 31 16 1).bumpWrap (Reg.prtHealStat p) 63 48 1
  let s := s.setField (Reg.prtHealStat p) 47 32 us
  s.modHeal p fun h => { h with st := .none, remapStop := false, lost := [], restarts := [] }

/-- Logical tiles of a heal that have no live host now. -/
def State.toPlace (s : State) (p : Nat) : List LT :=
  (sortLT (s.part p).heal.lost).filter fun l => s.hostFailed (s.baysOf p) l

/-- The placement of the logical tiles that lost their hosts, recorded: those placed, and whether every one was (R354). -/
def State.placeLost (p : Nat) (f : Frame) (s : State) : State × List LT × Bool :=
  let q := s.placeAll p (s.site p f) (s.toPlace p)
  (q.1.recordHostings p s.comp.hosts q.2.1, q.2)

/-- A heal with every region DRAINED or without a Frame (R560): while the module is halted it waits before the windows, which
are tile work (R760). -/
def State.healInPlace (p : Nat) (s : State) : State :=
  let f := s.mapFrame p
  let q := s.placeLost p f
  if q.2.2 = false then q.1.healFail p 1
  else
    let s := q.1.tablesInPlace p f
    if s.phys.power.halted then s.modHeal p fun h => { h with st := .loading }
    else
      let r := s.loadMoved p f (s.startFill p) (s.part p).own.moved
      match r.1 with
      | b :: _ => ((r.2.publish p).healFail p 2).poisonConsumed p b 4
      | [] => ((r.2.relink p).publish p).healed p

/-- A heal that replays the current step (R561, R562, R564). -/
def State.healReplay (p : Nat) (s : State) : State :=
  let f := s.frameOf p
  let s := s.recoveryPurge p
  let s := s.modCommit p fun c =>
    if c.suspectAt ≤ (s.part p).heal.at_ then { c with suspect := false, cause := 0, named := [], settled := false }
    else { c with settled := false }
  if f.stopRemap then s.mapChanged p
  else
    let q := s.placeLost p f
    if q.2.2 = false then q.1.healFail p 1
    else
      let s := (q.1.flipEpoch p f f.gen).relink p
      let m := s.loadMoved p f (s.startFill p) (s.part p).own.moved
      let r := m.2.restoreFills p
      let s := r.2.restoreFloats p
      match m.1 ++ r.1 with
      | b :: _ => ((s.publish p).healFail p 2).poisonConsumed p b 4
      | [] =>
        let s := ((s.discardStep p).zeroCounts p).reopenAll p
        let us := (s.now - (s.part p).heal.at_) / 1000
        let s := s.signal Ev.healDone p [p, (s.stepNo p).toNat, q.2.1.length, us]
        (s.publish p).healed p

/-- Carry out the recovery that lost hosts of partition `p` ask for (R559 to R561, R576); with a dry fit in progress the dry
fit begins again with them among its named tiles. While the module is halted only the placement in place proceeds (R760).
(DESIGN CHOICE, log 61) -/
def State.healNow (p : Nat) (s : State) : State :=
  let x := s.part p
  let inPlace := decide (x.commit.df = .none) && !s.restartLimit p && (x.own.frame.isNone || s.allDrained p)
  if x.heal.lost = [] ∨ x.heal.st = .stopped ∨ (s.phys.power.halted = true ∧ inPlace = false) then s
  else if x.commit.df ≠ .none then
    let s := s.modCommit p fun c => { c with
      named := c.named ++ x.heal.lost.filter fun l => !c.named.contains l
      fencedNow := c.fencedNow ++ x.heal.lost.filter fun l => s.hostFailed (s.baysOf p) l && !c.fencedNow.contains l }
    if s.restartLimit p then (s.modHeal p fun h => { h with st := .none, lost := [], restarts := [] }).dryfitFail p 3
    else
      let s := s.startDryFit p
      if (s.part p).heal.remapStop then s else s.modHeal p fun h => { h with st := .none, lost := [] }
  else if s.restartLimit p then (s.recoveryPurge p).healFail p 3
  else if inPlace then s.healInPlace p
  else s.healReplay p

/-- `HEAL` (R559 to R564). (DESIGN CHOICE, log 61) -/
def execHeal (p : Nat) (s : State) : Out := .next (s.healNow p)

/-! ### REMAP (R563, R614) -/

/-- How far REMAP has come. -/
inductive Remapped where
  | done (placed : Nat)
  | failed
  | waits
deriving DecidableEq, Repr

/-- What REMAP does in a partition stopped under R562 (R563): it places the logical tiles without a host and changes the tables;
while the module is halted it waits before the windows, which are tile work (R760). -/
def State.remapNow (p : Nat) (s : State) : Remapped × State :=
  let f := s.frameOf p
  let q := s.placeLost p f
  if q.2.2 = false then (.failed, q.1)
  else
    let s := if q.2.1 = [] ∧ (s.part p).own.moved ≠ [] then q.1 else (q.1.flipEpoch p f f.gen).relink p
    if s.phys.power.halted then (.waits, s)
    else
      let moved := (s.part p).own.moved
      let m := s.loadMoved p f (s.startFill p) moved
      match m.1 with
      | b :: _ => (.failed, (m.2.publish p).poisonConsumed p b 4)
      | [] =>
        let s := m.2.publish p
        let s := s.modOwn p fun o => { o with stopped := false }
        let s := s.modCommit p fun c => { c with begun := false, suspect := false, named := [], fencedNow := [] }
        (.done moved.length, s.modHeal p fun h => { h with st := .none, remapStop := false, lost := [], restarts := [] })

/-- The partition commands begin by these checks (R602, R609, R610): DENIED for a partition that the function may not name,
or through a function whose partition does not exist; INVALID for bytes that must be zero and, through PF0, for a
partition that does not exist. -/
def State.withPart (f : Nat) (c : Cmd) (used : List (Nat × Nat)) (s : State) (k : Nat → State → State) : State :=
  let p := cmdPart f c
  if cmdPartOk f c && (f == 0 || s.partExists p) then
    if s.partExists p && c.tidy ((0x10, 1) :: used) then k p s else s.complete f c .invalid 0
  else s.complete f c .denied 0

/-- `REMAP` (R563, R610, R614). -/
def execRemap (f : Nat) (seq : Dword) (s : State) : Out :=
  .next (match s.command f seq 0x0203 with
    | none => s
    | some c => s.withPart f c [] fun p s =>
      if (s.part p).heal.remapStop = false then s.complete f c .invalid 0
      else
        let r := s.remapNow p
        match r.1 with
        | .done n => r.2.complete f c .ok n
        | .failed => if (r.2.command f c.seq 0x0203).isNone then r.2 else r.2.complete f c .failed 0
        | .waits => r.2)

end Sys2Proof.Machine
end

