-- ==== Sys2Proof/Machine/Detect.lean ====
section
/-!
DEFINITION. Weir timeouts, plumb slices, the step register, sighting, and the fault registers (spec 11_detection R509, R511 to
R522, R537 to R546; 12_healing R581; 08_plane R422 to R424).
-/

namespace Sys2Proof.Machine

/-! ### Weir timeouts (R509) -/

/-- Members whose own arrival has not come. -/
def State.absentees (s : State) (p wid : Nat) : List LT :=
  match (s.frameOf p).weir wid with
  | some w => w.members.filter fun l => !((weirOf p wid s).arrived.contains (l.key, l.key))
  | none => []

/-- `WEIR_TIMEOUT` (R509, R525, R530 step 2). -/
def execWeirTimeout (p wid : Nat) (s : State) : Out :=
  let x := weirOf p wid s
  .next (
    if x.arrived = [] ∨ x.timedOut ∨ x.heldAt.isSome ∨ s.phys.power.halted then s
    else
      let s := s.passTo (x.firstAt + s.weirLimitNs p)
      let s := s.setWeir p wid { x with timedOut := true }
      let ls := s.absentees p wid
      let s := s.signal Ev.weirTimeout p [p, wid, (s.stepNo p).toNat, ls.length]
      s.suspect p Ev.weirTimeout ls)

/-! ### Plumb slices (R511 to R522) -/

/-- Slices running in a bay. -/
def State.slices (s : State) (b : Nat) : Nat := s.comp.tiles.countP fun kt => decide (kt.1 / 12288 = b) && decide (kt.2.s.seq = .plumb)

/-- CONC as it reads (R546). -/
def State.plumbConc (s : State) (b : Nat) : Nat := max 1 (min 16 (s.field (Reg.silPlumbcfg b) 39 32))

/-- No IDLE tile of the bay was visited less recently (R515). (DESIGN CHOICE, log 55) -/
def State.leastRecent (s : State) (t : PT) : Bool :=
  let n := (s.tile t).plumb.last
  (decide ((s.bay t.bay).base.s.seq ≠ .idle) || decide (n ≤ (s.bay t.bay).base.plumb.last)) &&
    s.comp.tiles.all fun kt => decide (kt.1 / 12288 ≠ t.bay) || decide (kt.2.s.seq ≠ .idle) || decide (n ≤ kt.2.plumb.last)

/-- The tile enters PLUMB from its present state (R151, R202). -/
def Tile.enterPlumb (forced quiet : Bool) (x : Tile) : Tile :=
  { x with s := { x.s with before := x.s.seq, seq := .plumb }
           plumb := { x.plumb with forced := forced, quietAtStart := quiet } }

/-- `PLUMB_SLICE_START` (R515): a tile that has been IDLE for IDLE_MIN, the least recently visited, while slices are free.
(DESIGN CHOICE, log 55) -/
def execPlumbSliceStart (t : PT) (s : State) : Out :=
  let x := s.tile t
  .next (
    if x.s.seq ≠ .idle ∨ s.tileFenced t ∨ s.plumbConc t.bay ≤ s.slices t.bay ∨ s.leastRecent t = false ∨ s.phys.power.halted then s
    else
      let s := s.passTo (x.plumb.idleAt + 1000 * s.field (Reg.silPlumbcfg t.bay) 15 0)
      (s.modTile t (Tile.enterPlumb false x.quiet)).restall t)

/-- The revisit period of a tile in nanoseconds: FORCE, or 50 ms while plumb is intensified (R516, R522).
(DEDUCED, log 60) -/
def State.forceNs (s : State) (t : PT) : Nat :=
  let f := min 450 (s.field (Reg.silPlumbcfg t.bay) 31 16)
  1000000 * (if (s.tile t).plumb.intensUntil.isSome then min 50 f else f)

/-- `PLUMB_FORCE` (R516): the tile is halted and given a slice from HALTED. -/
def execPlumbForce (t : PT) (s : State) : Out :=
  let x := s.tile t
  let may := decide (x.s.seq = .idle) || decide (x.s.seq = .run) || decide (x.s.seq = .blocked) || decide (x.s.seq = .halted)
  .next (
    if may = false ∨ s.tileFenced t ∨ s.plumbConc t.bay ≤ s.slices t.bay ∨ s.phys.power.halted then s
    else
      let s := s.passTo (x.plumb.last + s.forceNs t)
      let s := s.bump (Reg.silPlumbstat t.bay) 23 8 1
      let q := x.quiet
      (s.haltTile t).modTile t (Tile.enterPlumb true q))

/-- LATENT_STEPS of a partition: the committed steps whose Tide overlaps the time since the tile's last pass (R520). -/
def State.latentSteps (p : Nat) (t : PT) (since : Nat) (s : State) : State :=
  let bs := (s.part p).commit.bounds
  let hit := bs.filter fun e => decide (e.2.1 < s.now) && decide (since < e.2.2)
  match hit.head?, hit.getLast?, bs.head? with
  | some a, some z, some o =>
    s.signal Ev.latentSteps p ([p] ++ tileOps (s.hosted t) t ++ [a.1, z.1, flag (decide (since < o.2.1))])
  | _, _, _ => s

/-- The partitions that a tile serves now, by a logical tile of theirs that it hosts. -/
def State.servesNow (s : State) (t : PT) : List Nat := if (s.hosted t).isSome ∧ s.ptPart t ≠ 0 then [s.ptPart t] else []

/-- The partitions in which a tile hosted a logical tile or served as a trial host since its last passing slice (R520). -/
def State.servedBy (s : State) (t : PT) : List Nat :=
  ((s.tile t).plumb.served ++ s.servesNow t).foldl (fun ps p => if ps.contains p then ps else ps ++ [p]) []

/-- A failed slice (R519, R520, R548): the tile enters the fence set, and its router when the router's test fails too. -/
def State.plumbFail (t : PT) (memory routerFails : Bool) (since : Nat) (s : State) : State :=
  let p := s.ptPart t
  let s := s.bump (Reg.silPlumbstat t.bay) 39 24 1
  let s := s.signal Ev.plumbFail p (tileOps (s.hosted t) t ++ [flag memory, s.now])
  let s := (s.servedBy t).foldl (fun s q => s.latentSteps q t since) s
  if routerFails then s.fenceRouter t Ev.plumbFail.code.toNat else s.fenceTile t Ev.plumbFail.code.toNat

/-- `PLUMB_SLICE_END` (R511, R512, R516, R519): the tile leaves PLUMB; a forced slice ends with RESUME.
(DESIGN CHOICE, log 55) -/
def execPlumbSliceEnd (t : PT) (r : SliceResult) (s : State) : Out :=
  let x := s.tile t
  .next (
    if x.s.seq ≠ .plumb then s
    else
      let pass := decide (r = .pass)
      let res := match r with
        | .pass => 1
        | .logicFail _ => 2
        | .memoryFail => 3
      let s := s.modTile t fun x => { x with
        s := { x.s with seq := x.s.before }
        plumb := { x.plumb with last := s.now, lastRes := res, seed := (x.plumb.seed + 1) % 64, forced := false
                                idleAt := s.now, late := false
                                lastPass := if pass then some s.now else x.plumb.lastPass
                                served := if pass then s.servesNow t else x.plumb.served } }
      let s := s.bumpWrap (Reg.silPlumbstat t.bay) 63 40 1
      let s := (if x.plumb.forced then s.resumeTile t else s).restall t
      match r with
      | .pass => s
      | .logicFail rf => s.plumbFail t false rf (x.plumb.lastPass.getD 0)
      | .memoryFail => s.plumbFail t true false (x.plumb.lastPass.getD 0))

/-- `PLUMB_LATE` (R517): 500 ms after the last visit, once for each. -/
def execPlumbLate (t : PT) (s : State) : Out :=
  let x := s.tile t
  .next (
    if x.s.seq = .off ∨ x.plumb.late ∨ s.tileFenced t ∨ s.phys.power.halted then s
    else
      let s := s.passTo (x.plumb.last + 500000000)
      let s := s.modTile t fun x => { x with plumb := { x.plumb with late := true } }
      s.signal Ev.plumbLate (s.ptPart t) (tileOps (s.hosted t) t))

/-- `INTENS_PLUMB_END` (R522). -/
def execIntensPlumbEnd (t : PT) (s : State) : Out :=
  .next (match (s.tile t).plumb.intensUntil with
    | none => s
    | some d => (s.passTo d).modTile t fun x => { x with plumb := { x.plumb with intensUntil := none } })

/-! ### The step register and the detection counts (R533, R545) -/

/-- A write of `PRT_STEP` takes effect while every region is DRAINED and no dry fit is in progress; the step begins when the
regions reopen (R523, R533). -/
def State.writeStep (p : Nat) (v : Word) (s : State) : State :=
  if s.partExists p = false ∨ s.allDrained p = false ∨ (s.part p).commit.df ≠ .none then s
  else
    let s := s.setReg (Reg.prtStep p) v
    s.modCommit p fun c => { c with
      suspect := false, cause := 0, named := [], fencedNow := [], tries := 0, digests := [], settled := false, begun := false }

/-- `PRT_STEP_WRITE` (R545). -/
def execPrtStepWrite (f p : Nat) (value : Word) (s : State) : Out :=
  .next (if f = 0 ∨ f = p then (s.staged (Reg.prtStep p) value).writeStep p value else s)

/-- `PRT_DET_CLR` (R545). -/
def execPrtDetClr (p : Nat) (s : State) : Out := .next (s.setReg (Reg.prtDetCnt p) 0)

/-! ### Sighting (R422 to R424, R537 to R542) -/

/-- The layers with SIGHT set. -/
def Frame.sighted (f : Frame) : List LayerRec := f.layers.filter fun r => r.sight

/-- `PRT_SIGHT_KEY` is a key from 2 to P − 1 (R424). -/
def State.sightKey (s : State) (p : Nat) : Option Nat :=
  let k := (s.reg (Reg.prtSightKey p)).toNat
  if 2 ≤ k ∧ k < 2 ^ 64 - 59 then some k else none

/-- The digest of a layer's W_TID (R422), with the poisoned blocks met. -/
def State.layerDigest (p k : Nat) (r : LayerRec) (s : State) : Nat × List Nat × State :=
  match s.alloc p r.w with
  | none => (0, [], s)
  | some a =>
    let n := s.tensorSize p r.w
    let q := s.readRange p a.base n
    (plnDigest k (elemsOf 32 (n / 4) q.1.data), q.1.bad, q.2)

/-- The valid peers: entry, module and partition (R537). -/
def State.peers (s : State) (p : Nat) : List (Nat × Dword × Nat) :=
  (List.range 16).filterMap fun i =>
    let r := s.reg (Reg.prtSightPeeri p i)
    if r.getLsbD 63 then some (i, r.extractLsb' 0 32, fieldOf r 35 32) else none

/-- The Joinery message that carries a layer's digest to a peer (R538, R673). (DESIGN CHOICE, log 57) -/
def State.sendDigest (p : Nat) (peer : Nat × Dword × Nat) (layer : Nat) (d : Word) (step : Word) (s : State) : State :=
  let h : PutHeader := { dst := peer.2.1, src := s.address, dpart := peer.2.2, spart := p, kind := 0x03, entry := 0, chunk := 0,
                         step := step, dpa := 0, poison := 0, len := 10, dfid := 0xFFFF, total := 0, flags := 0, cls := 0 }
  (s.sendTorus 0 h (leBytes 2 layer ++ leBytes 8 d.toNat)).2

/-- The digests of the step become ready: the registers, SIGHT_READY, and the messages to every peer (R423, R538). -/
def State.sightReady (p : Nat) (step : Word) (ds : Tab Word) (s : State) : State :=
  let s := ds.foldl (fun s e => s.setLayer p e.1 { s.layer p e.1 with digest := e.2, dstep := step }) s
  let s := s.signal Ev.sightReady p [p, step.toNat]
  let wait := 1000000 * max 1 (s.field (Reg.prtSightCfg p) 31 0)
  let s := s.modPart p fun x => { x with sight := { x.sight with
    open_ := true, step := step, deadline := s.now + wait, own := ds
    peers := if x.sight.step = step then x.sight.peers else [] } }
  (s.peers p).foldl (fun s q => ds.foldl (fun s e => s.sendDigest p q e.1 e.2 step) s) s

/-- `SIGHT_DIGEST` (R423): after the copy-ins of a sighted step every layer with SIGHT set is digested; a poisoned read resets
the partition's compute (R448). -/
def execSightDigest (p : Nat) (s : State) : Out :=
  let f := s.frameOf p
  let step := s.stepNo p - 1
  .next (match s.sightKey p with
    | none => s
    | some k =>
      let pend := (s.part p).pln.layers.any fun kl =>
        decide (kl.2.gradStep = step) && (decide (kl.2.st = .staged) || decide (kl.2.st = .copying) || decide (kl.2.st = .compute))
      if f.sightK = 0 ∨ s.stepNo p = 0 ∨ step.toNat % f.sightK ≠ 0 ∨ pend ∨ f.sighted = [] ∨ s.phys.power.halted then s
      else
        let q := f.sighted.foldl (fun (acc : Tab Word × List Nat × State) r =>
          let d := acc.2.2.layerDigest p k r
          (Tab.put acc.1 r.layer (BitVec.ofNat 64 d.1), acc.2.1 ++ d.2.1, d.2.2)) ([], [], s)
        match q.2.1 with
        | b :: _ => q.2.2.poisonConsumed p b 5
        | [] => q.2.2.sightReady p step q.1)

/-- A replica's digests have arrived: one for each sighted layer. -/
def digestsWhole (own ds : Tab Word) : Bool := own.all fun e => ds.any fun d => d.1 == e.1

/-- What the replicas make of a layer (R539). -/
inductive SightVote where
  | agree
  | majority (v : Word)
  | split
deriving DecidableEq, Repr

def sightVote (vs : List Word) : SightVote :=
  match vs with
  | [] => .agree
  | v :: _ =>
    if vs.all fun u => u == v then .agree
    else if vs.length < 3 then .split
    else match vs.find? fun u => decide (vs.length < 2 * vs.countP fun w => w == u) with
      | some u => .majority u
      | none => .split

/-- Every tile of the partition takes intensified plumb (R541, R522). -/
def State.intensifyAll (p : Nat) (s : State) : State :=
  (s.baysOf p).foldl (fun s b => s.modBayTiles b fun _ x => { x with plumb := { x.plumb with intensUntil := some (s.now + dayNs) } }) s

/-- A minority layer takes W_TID, S_TID and UPD of the majority replica, then R_TID and its windows (R541).
(DESIGN CHOICE, log 56) -/
def State.resyncLayer (p : Nat) (r : LayerRec) (s : State) : State :=
  let w := s.drawBytes (s.tensorSize p r.w)
  let s := match w.2.alloc p r.w with
    | some a => (w.2.writeRange p a.base w.1).2
    | none => w.2
  let v := s.drawBytes (s.tensorSize p r.st)
  let s := match v.2.alloc p r.st with
    | some a => (v.2.writeRange p a.base v.1).2
    | none => v.2
  let u := s.draw
  let s := u.2.setLayer p r.layer { u.2.layer p r.layer with upd := BitVec.ofNat 48 u.1 }
  let s := if r.rt = r.w then s
    else match (s.frameOf p).tensor r.rt, s.alloc p r.rt with
      | some t, some a => (s.writeRange p a.base (residentBytes t (elemsOf 32 (s.tensorSize p r.w / 4) w.1))).2
      | _, _ => s
  r.written.foldl (fun s t => s.refreshWindows p t) s

/-- `PRT_SIGHT_STAT` after a comparison. -/
def State.setSightStat (p n diff outcome : Nat) (step : Word) (s : State) : State :=
  s.setReg (Reg.prtSightStat p) (fld 63 32 (step.toNat % 2 ^ 32) ||| fld 31 24 n ||| fld 23 16 (min diff 255) ||| fld 2 0 outcome)

/-- `SIGHT_DECIDE` (R538 to R542): when all digests have arrived or WAIT has elapsed. -/
def execSightDecide (p : Nat) (s : State) : Out :=
  let g := (s.part p).sight
  .next (
    if g.open_ = false ∨ s.phys.power.halted then s
    else
      let here := (s.peers p).filterMap fun q =>
        let ds := Tab.get [] g.peers q.1
        if digestsWhole g.own ds then some ds else none
      let s := if here.length = (s.peers p).length then s else s.passTo g.deadline
      let s := s.modPart p fun x => { x with sight := { x.sight with open_ := false, peers := [] } }
      let n := here.length + 1
      if n < 2 then (s.setSightStat p n 0 5 g.step).signal Ev.sightIncomplete p [p, g.step.toNat, n]
      else
        let votes := g.own.map fun e => (e.1, e.2, sightVote (e.2 :: here.map fun ds => Tab.get 0 ds e.1))
        let diff := (votes.filter fun v => decide (v.2.2 ≠ .agree)).length
        if diff = 0 then s.setSightStat p n 0 1 g.step
        else
          let s := s.signal Ev.sightMismatch p [p, g.step.toNat, diff]
          if votes.any fun v => decide (v.2.2 = .split) then
            (s.setSightStat p n diff 4 g.step).signal Ev.sightRollback p [p, g.step.toNat]
          else
            let mine := votes.filter fun v => match v.2.2 with
              | .majority u => decide (u ≠ v.2.1)
              | _ => false
            if mine = [] then s.setSightStat p n diff 3 g.step
            else
              let s := (s.setSightStat p n diff 2 g.step).signal Ev.sightResync p [p, g.step.toNat, mine.length]
              let s := mine.foldl (fun s v => match s.layerRec p v.1 with
                | some r => s.resyncLayer p r
                | none => s) s
              s.intensifyAll p)

/-! ### Fault registers (R581) -/

/-- The fence set: entries on one of the lists, in order of entry. -/
def State.fenceSet (s : State) : List Fence := s.comp.fences.filter fun e => e.fuse || e.field || e.test

/-- The fence set as the registers show it: without the fences that are not yet published (R826). -/
def State.shownFences (s : State) : List Fence := s.fenceSet.filter s.fenceShown

/-- `FLT_FDATA0` of the selected entry. -/
def State.fenceData (s : State) : Word × Word :=
  match s.shownFences[s.field Reg.fltFsel 31 0]? with
  | none => (0, 0)
  | some e =>
    (fld 63 63 1 ||| fld 62 62 (flag e.test) ||| fld 61 61 (flag e.field) ||| fld 60 60 (flag e.fuse) ||| fld 59 56 e.kind |||
      fld 55 40 e.cause.toNat ||| fld 31 0 e.id, if e.field || e.test then e.tide else 0)

/-- `FLT_FDATA_READ` (R581): a read of `FLT_FDATA0` latches the entry; one of `FLT_FDATA1` gives its Tide and, with INC set,
advances INDEX. -/
def execFltFdataRead (second : Bool) (s : State) : Out :=
  .next (
    if second then
      let s := s.emitOut (.regData 0 Reg.fltFdata1 s.man.fltLatch)
      if (s.reg Reg.fltFsel).getLsbD 32 then s.bumpWrap Reg.fltFsel 31 0 1 else s
    else
      let d := s.fenceData
      (s.modMan fun m => { m with fltLatch := d.2 }).emitOut (.regData 0 Reg.fltFdata0 d.1))

/-- `FLT_CTL_CLR` (R581). -/
def execFltCtlClr (s : State) : Out := .next (s.setReg Reg.fltRecov 0)

end Sys2Proof.Machine
end

