-- ==== Sys2Proof/Machine/PlaneCmds.lean ====
section
/-!
DEFINITION. The commands of the Plane: step sizes, updates, grants, discards, copy-ins, layer control
(spec 08_plane R380, R389 to R398, R411 to R421, R428 to R430), and the end of a window fill (R361).
-/

namespace Sys2Proof.Machine

/-! ### Step sizes (R394 to R397) -/

/-- The register of the slot of an even or an odd step (R394). -/
def slotReg (p : Nat) (odd : Bool) : Nat := if odd then Reg.plnStep1 p else Reg.plnStep0 p

/-- The low 32 bits of a step number (R394). -/
def stepTag (step : Word) : Dword := step.extractLsb' 0 32

/-- The step size of a layer's step: the latched value, or the slot that holds its TAG (R396, R397). -/
def State.stepSize (s : State) (p : Nat) (step : Word) : Option Dword :=
  match (s.part p).pln.latched with
  | some (t, e) => if t = step then some e else slot
  | none => slot
where
  /-- The ETA of the slot that holds the step's TAG. -/
  slot : Option Dword :=
    let r := s.reg (slotReg p (step.getLsbD 0))
    if r.extractLsb' 0 32 = stepTag step then some (r.extractLsb' 32 32) else none

/-- A bit of `PLN_STEPSTAT` is set. -/
def State.stepFlag (p bit : Nat) (s : State) : State := s.setField (Reg.plnStepstat p) bit bit 1

/-- A write of a step-size slot (R395, R396): ignored with MISSLOT, BAD or LATE, or stored; HELD layers of its step
return to READY. -/
def State.writeSlot (p : Nat) (odd : Bool) (v : Word) (s : State) : State :=
  let tag := v.extractLsb' 0 32
  let late : Bool := match (s.part p).pln.latched with
    | some (t, _) => decide (stepTag t = tag)
    | none => false
  let missed := decide (tag.getLsbD 0 ≠ odd)
  let bad := !fFinite f32 (v.extractLsb' 32 32).toNat
  if missed ∨ bad then
    let s := if missed then s.stepFlag p 2 else s
    if bad then s.stepFlag p 3 else s
  else if late then s.stepFlag p 1
  else
    (s.setReg (slotReg p odd) v).modPln p fun y => { y with
      layers := Tab.mapVals Layer.reset (fun _ x =>
        if x.st = .held ∧ stepTag x.gradStep = tag then { x with st := .ready } else x) y.layers }

/-- `PLN_STEP_WRITE`: the slot of even steps or of odd steps (R395). -/
def execPlnStepWrite (p : Nat) (slot : Bool) (value : Word) (s : State) : Out :=
  .next (if s.partExists p then (s.staged (slotReg p slot) value).writeSlot p slot value else s)

/-- The layers of partition `p` in READY that have no step size, by number. -/
def State.sizeless (s : State) (p : Nat) : List Nat :=
  ((s.part p).pln.layers.filter fun kl => decide (kl.2.st = .ready) && (s.stepSize p kl.2.gradStep).isNone).map (·.1)

/-- `STEP_SIZE_STALE` (R397): WAIT after the first layer of the step became READY, the event once for the step, and every
READY layer of the step HELD. -/
def execStepSizeStale (p : Nat) (s : State) : Out :=
  .next (
    match (s.part p).pln.firstReadyAt, s.sizeless p with
    | some t, l :: ls =>
      let wait := max 1 (s.field (Reg.plnStepWait p) 31 0)
      let s := s.passTo (t + wait * 1000)
      let step := (s.layer p l).gradStep
      let s := (l :: ls).foldl (fun s k =>
        let x := s.layer p k
        if x.gradStep = step then s.setLayer p k { x with st := .held } else s) s
      if (s.part p).pln.staleRaised = some step then s
      else
        ((s.modPln p fun y => { y with staleRaised := some step }).bump (Reg.prtPlnCnt p) 63 48 1).signal
          Ev.stepSizeStale p [p, step.toNat]
    | _, _ => s)

/-! ### Updates (R380, R396, R411, R412, R418 to R423) -/

/-- The Plane engines run: their clock runs and the device has not stopped (R20, R756). (DEDUCED, log 59) -/
def State.enginesRun (s : State) : Bool := !s.phys.power.halted && !s.man.boot.fatalSince

/-- Layer `l` comes before layer `m` in the order in which layers are served (R380). (DEDUCED, log 44) -/
def servedFirst (a b : Nat × Nat × Nat) : Bool :=
  decide (a.1 < b.1) || (decide (a.1 = b.1) && (decide (a.2.1 < b.2.1) || (decide (a.2.1 = b.2.1) && decide (a.2.2 ≤ b.2.2))))

/-- Layer `l` of partition `p` is the first READY layer of the engine that is to update it. (DEDUCED, log 44) -/
def State.nextServed (s : State) (p l : Nat) : Bool :=
  let x := s.layer p l
  s.comp.parts.all fun kp => kp.2.pln.layers.all fun kl =>
    decide (kl.2.st ≠ .ready) || decide (s.engineFrom kl.2.engine ≠ s.engineFrom x.engine) ||
      servedFirst (x.readyAt, p, l) (kl.2.readyAt, kp.1, kl.1)

/-- The engine's work on an update by rule (R430). -/
def ruleWork (rule : Nat) : Nat := if rule = 3 then 2 else if rule = 4 then 4 else 1

/-- A layer enters COMPUTE on engine `e`: the step size is latched, the commit record is written with COMMIT and COPIED
zero (R396, R411, R412). -/
def State.beginCompute (p l e : Nat) (eta : Dword) (r : LayerRec) (a : Alloc) (s : State) : State :=
  let x := s.layer p l
  let off := s.ringNext p (s.layerStack p r)
  let g : Staged := { addr := a.base + off, off := off, order := s.lastOrder + 1, step := x.gradStep, upd := x.upd + 1
                      fallback := false, refreshed := false, committed := false, digest := 0 }
  let s := s.modPln p fun y => { y with latched := some (x.gradStep, eta) }
  let s := s.setField (Reg.plnStepstat p) 63 32 (stepTag x.gradStep).toNat
  let s := s.ringWrite p a off (commitRecord l (s.frameOf p).gen.toNat x.gradStep g.upd.toNat (s.stagedBytes p r - 64) 0 r.w)
  let s := s.setLayer p l { x with st := .compute, engine := e, staged := some g, granted := false }
  s.setEngine e { s.engine e with part := p, layer := l, work := ruleWork r.rule }

/-- Engine `e` scans the rings that are due before it takes new layers: its own after an interruption, and those of the fenced
engines whose layers have passed to it (R416, R558). -/
def State.scanRings (e : Nat) (s : State) : State :=
  (List.range 24).foldl (fun s m => if (s.engine m).scanned = false ∧ s.engineFrom m = e then s.ringScan m else s) s

/-- `LAYER_COMPUTE` (R398): a READY layer, next in its engine's order, with its step size, a free engine and room in the
staging ring. An engine scans the rings that are due first (R416, R558). -/
def execLayerCompute (p layer : Nat) (s : State) : Out :=
  .next (
    let e := s.engineFrom (s.layer p layer).engine
    let s := if s.enginesRun then s.scanRings e else s
    let x := s.layer p layer
    match s.layerRec p layer with
    | none => s
    | some r =>
      match s.stepSize p x.gradStep, s.slice p (s.layerStack p r) with
      | some eta, some a =>
        if s.enginesRun ∧ x.st = .ready ∧ (s.engine e).work = 0 ∧ s.nextServed p layer ∧
            s.ringUsed p (s.layerStack p r) + up64 (s.stagedBytes p r) ≤ a.size then
          s.beginCompute p layer e eta r a
        else s
      | _, _ => s)

/-- The rule of a Layer Table entry as the Plane's arithmetic takes it. -/
def plnRuleOf (f : Frame) (r : LayerRec) : PlnRule :=
  let m := ((f.tensor r.w).map matrixOf).getD (0, 0)
  { rule := r.rule, variant := r.variant, fallback := r.fallback, root := r.root, refresh := r.refresh, fp64 := r.fp64
    h := r.h.map (·.toNat), rows := m.1, cols := m.2 }

/-- The gradient's elements as binary32 (R399). -/
def gradWords (t : TensorRec) (d : List Byte) : List Nat :=
  (elemsOf (fmtWidth t.fmt) (tensorElems t) d).map fun v => gradElem t.fmt v

/-- A check fails: the staged copy is discarded and the layer is READY for the next engine; a second mismatch of the
engine within 24 hours fences it (R421). -/
def State.checkFailed (p l e : Nat) (s : State) : State :=
  let x := s.layer p l
  let s := s.setLayer p l { x with st := .ready, staged := none, granted := false, engine := s.engineFrom ((e + 1) % 24) }
  let s := (s.freeEngine e).beginCopies
  let old := recent s.now dayNs (s.engine e).mismatches
  let s := s.setEngine e { s.engine e with mismatches := old ++ [s.now] }
  let s := (s.bump (Reg.prtPlnCnt p) 31 16 1).bump (Reg.plnEcnt e) 31 16 1
  let s := s.signal Ev.plnCheck p [e, p, l, x.gradStep.toNat]
  if old = [] then s else s.fenceEngine e 0x0603 p

/-- The key of a layer's gradient digest for dry fits: the partition's sighting key, or a fixed odd number when it has
none (R531). (DESIGN CHOICE, log 43) -/
def State.gradKey (s : State) (p : Nat) : Nat := (s.sightKey p).getD 0x9E3779B9

/-- What the update read: words of W_TID, S_TID and G_TID, the poisoned blocks, the gradient's digest. -/
structure UpdateIn where
  w : List Nat
  st : List Nat
  g : List Nat
  bad : List Nat
  digest : Word
deriving DecidableEq, Repr

/-- Read a tensor whole: its bytes and the poisoned blocks. -/
def State.readTensor (p tid : Nat) (s : State) : List Byte × List Nat × State :=
  match s.alloc p tid with
  | none => ([], [], s)
  | some a =>
    let q := s.readRange p a.base (s.tensorSize p tid)
    (q.1.data, q.1.bad, q.2)

/-- The engine reads the tensors of a layer (R399 to R408, R448). -/
def State.readUpdate (p : Nat) (r : LayerRec) (s : State) : UpdateIn × State :=
  let w := s.readTensor p r.w
  let t := w.2.2.readTensor p r.st
  let g := t.2.2.readTensor p r.g
  let k := s.gradKey p
  let gw := match (s.frameOf p).tensor r.g with
    | some x => gradWords x g.1
    | none => []
  ({ w := elemsOf 32 (w.1.length / 4) w.1, st := elemsOf 32 (t.1.length / 4) t.1, g := gw, bad := w.2.1 ++ t.2.1 ++ g.2.1
     digest := BitVec.ofNat 64 (plnDigest k (elemsOf 32 (g.1.length / 4) g.1)) }, g.2.2)

/-- The 64-bit words of an engine's SRAM, 64 MiB (R378). -/
def sramWords : Nat := 2 ^ 23

/-- The SRAM holds the bytes that the engine works on, as far as it goes; what is written anew is in error no more (R155, R378).
(DEDUCED, log 130) -/
def Engine.hold (d : List Byte) (x : Engine) : Engine :=
  let n := min ((d.length + 7) / 8) sramWords
  { x with
    sram := (List.range n).foldl (fun t i => Tab.set 0 t i (BitVec.ofNat 64 (leAt d (8 * i) 8))) x.sram
    sramErrs := x.sramErrs.filter fun e => decide (n ≤ e.1) }

/-- A word that the engine's work goes through has more symbols in error than the code corrects (R155, R378). (DEDUCED, log 130) -/
def Engine.lost (n : Nat) (x : Engine) : Bool := x.sramErrs.any fun e => decide (8 * e.1 < n) && decide (2 < e.2)

/-- The update is staged: new W_TID and S_TID in the ring, the record with its FLAGS, the counts and the event of a
fall-back (R403 to R405, R411, R412). -/
def State.stageUpdate (p l e : Nat) (r : LayerRec) (a : Alloc) (g : Staged) (digest : Word) (res : PlnResult) (s : State) : State :=
  let x := s.layer p l
  let wn := s.tensorSize p r.w
  let d := res.w.flatMap (leBytes 4)
  let s := s.ringWrite p a (g.off + 64) (padTo wn d)
  let s := s.ringWrite p a (g.off + 64 + wn) (padTo (s.tensorSize p r.st) (res.s.flatMap (leBytes 4)))
  let fl := flag res.fallback + 2 * flag res.refreshed
  let s := s.ringWrite p a g.off
    (commitRecord l (s.frameOf p).gen.toNat g.step g.upd.toNat (s.stagedBytes p r - 64) fl r.w)
  let pend := if res.fallback then true else if res.refreshed then false else x.refPend
  let g := { g with fallback := res.fallback, refreshed := res.refreshed, digest := digest }
  let s := s.setLayer p l { x with st := .staged, staged := some g, refPend := pend, fbLast := res.fallback }
  let s := (s.bump (Reg.prtPlnCnt p) 15 0 res.retries).bump (Reg.plnEcnt e) 15 0 res.retries
  let s := s.setEngine e ((s.engine e).hold (d ++ res.s.flatMap (leBytes 4)))
  let s := (s.freeEngine e).beginCopies
  match res.failed with
  | none => s
  | some (f, delta) => (s.bump (Reg.prtPlnCnt p) 47 32 1).signal Ev.plnSingular p [p, l, g.step.toNat, f, delta]

/-- A step whose boundary the partition has passed has its grant under way (R413, R527). (DEDUCED, log 45) -/
def State.stepCommitted (s : State) (p : Nat) (step : Word) : Bool :=
  (s.part p).commit.bounds.any fun b => b.1 == step.toNat

/-- `LAYER_COMPUTE_DONE`: a check of the update fails, in the hardware (`mismatch`, R420) or by a checksum of its products (R418,
R419, R421), or the layer is STAGED (R398); a poisoned block stages nothing and resets the partition (R448). -/
def execLayerComputeDone (p layer : Nat) (mismatch : Bool) (s : State) : Out :=
  .next (
    let x := s.layer p layer
    let e := x.engine
    match x.staged, s.layerRec p layer with
    | some g, some r =>
      if x.st ≠ .compute ∨ s.enginesRun = false then s
      else if mismatch ∨ (s.engine e).lost (s.stagedBytes p r - 64) then s.checkFailed p layer e
      else
        let q := s.readUpdate p r
        match q.1.bad, s.slice p (s.layerStack p r) with
        | b :: _, _ => q.2.poisonConsumed p b 5
        | [], none => s
        | [], some a =>
          let eta := match (s.part p).pln.latched with
            | some (_, v) => v.toNat
            | none => 0
          let res := plnUpdate (plnRuleOf (s.frameOf p) r) eta g.upd.toNat x.refPend q.1.w q.1.st q.1.g
          if res.checked = false then q.2.checkFailed p layer e
          else
            let s := q.2.stageUpdate p layer e r a g q.1.digest res
            if s.stepCommitted p g.step then s.grantLayer p layer else s
    | _, _ => s)

/-- `PLN_COMMIT_GRANT`: the grant is sent after the step of the staged gradient has committed, and not before (R413 to
R415, R527, R528). (DEDUCED, log 45) -/
def execPlnCommitGrant (p layer : Nat) (s : State) : Out :=
  .next (
    match (s.layer p layer).staged with
    | some g => if s.stepCommitted p g.step then s.grantLayer p layer else s
    | none => s)

/-- `PLN_DISCARD_ORDER` (R398, R413). (DEDUCED, log 45) -/
def execPlnDiscardOrder (p layer : Nat) (s : State) : Out := .next (s.discardLayer p layer)

/-- `PLN_COPY_DONE`: the copy-in is complete and COPIED is written (R398, R414); the next staged layer begins (R415). -/
def execPlnCopyDone (p layer : Nat) (s : State) : Out :=
  .next (
    let x := s.layer p layer
    match x.staged, s.layerRec p layer with
    | some g, some r =>
      if x.st = .copying ∧ s.enginesRun then
        ((((s.copyIn p r g).finishCopy p r g).freeEngine x.engine)).beginCopies
      else s
    | _, _ => s)

/-! ### Layer control (R390, R429) -/

/-- The layer that `PRT_LAYER_SEL` names, when the applied Layer Table holds it. -/
def State.selLayer (s : State) (p : Nat) : Option LayerRec := s.layerRec p (s.field (Reg.prtLayerSel p) 15 0)

/-- A freeze or an unfreeze asked for: at once in IDLE and FROZEN, else when the layer next enters IDLE (R390). -/
def Layer.askFreeze (on : Bool) (x : Layer) : Layer :=
  if x.st = .idle ∨ x.st = .frozen then { x with st := if on then .frozen else .idle, count := 0, frz := none }
  else { x with frz := some on }

/-- `PRT_LAYER_CTL.FRZ` 0b01 (R390). -/
def State.freezeLayer (p : Nat) (s : State) : State :=
  match s.selLayer p with
  | none => s
  | some r => if (s.layer p r.layer).st = .frozen then s else s.setLayer p r.layer ((s.layer p r.layer).askFreeze true)

/-- `PRT_LAYER_CTL.FRZ` 0b10: ignored in a layer whose G_TID is 0 (R390). -/
def State.unfreezeLayer (p : Nat) (s : State) : State :=
  match s.selLayer p with
  | none => s
  | some r =>
    let x := s.layer p r.layer
    if r.g = 0 ∨ x.st = .idle then s else s.setLayer p r.layer (x.askFreeze false)

/-- `PRT_LAYER_CTL.SETUPD`: acts in IDLE and FROZEN only (R429). -/
def State.setUpd (p : Nat) (upd : BitVec 48) (s : State) : State :=
  match s.selLayer p with
  | none => s
  | some r =>
    let x := s.layer p r.layer
    if x.st = .idle ∨ x.st = .frozen then s.setLayer p r.layer { x with upd := upd } else s

def execLayerFreeze (p : Nat) (s : State) : Out := .next (s.freezeLayer p)
def execLayerUnfreeze (p : Nat) (s : State) : Out := .next (s.unfreezeLayer p)
def execLayerSetupd (p : Nat) (upd : BitVec 48) (s : State) : Out := .next (s.setUpd p upd)

/-- `PRT_PLN_CLR.CNT`: `PRT_PLN_CNT` and `PLN_STEPSTAT` [3:1] (R429). -/
def execPrtPlnClr (p : Nat) (s : State) : Out :=
  .next ((s.setReg (Reg.prtPlnCnt p) 0).setField (Reg.plnStepstat p) 3 1 0)

/-- `PLN_ECTL.CLR` (R430). -/
def execPlnEctlClr (e : Nat) (s : State) : Out := .next (s.setReg (Reg.plnEcnt e) 0)

/-! ### Window fills (R361, R448) -/

/-- What the end of a fill did: whether a window was written, and the first poisoned block. -/
structure FillEnd where
  wrote : Bool
  bad : Option Nat
deriving DecidableEq, Repr

/-- A copy-in that writes a tensor is in progress: a fill asked for since waits for its end (R363). -/
def State.copying (s : State) (p tid : Nat) : Bool :=
  (s.part p).pln.layers.any fun kl => decide (kl.2.st = .copying) && match s.layerRec p kl.1 with
    | some r => r.written.contains tid
    | none => false

/-- One window whose fill is being written: written into every tile of its rectangle (R361). -/
def State.endFill (p i : Nat) (w : WmloadRec) (e : FillEnd) (s : State) : FillEnd × State :=
  match (s.window p i).writing with
  | none => (e, s)
  | some j =>
    if s.copying p w.tid then (e, s)
    else
      let r := s.writeFill p w j
      match r.1 with
      | b :: _ => ({ e with bad := some (e.bad.getD b) }, r.2)
      | [] => ({ e with wrote := true }, r.2.setWindow p i { fill := j, writing := none })

/-- A window of a float still waits for its fill. -/
def State.fillsLeft (s : State) (p fid : Nat) : Bool :=
  (s.frameOf p).windows.any fun kw => kw.2.streamable && decide (kw.2.fid = fid) && (s.window p kw.1).writing.isSome

/-- `WINDOW_FILL_DONE`: the fill of the windows of float `fid` ends and the float is set (R361); copy-ins that waited for
it begin (R363). A poisoned block resets the partition (R448). It is tile work, which waits in a halt (R756, R760). -/
def execWindowFillDone (p fid : Nat) (s : State) : Out :=
  .next (
    if s.phys.power.halted then s
    else
    let r := (s.frameOf p).windows.foldl (fun acc kw =>
      if kw.2.streamable ∧ kw.2.fid = fid then acc.2.endFill p kw.1 kw.2 acc.1 else acc)
      (({ wrote := false, bad := none } : FillEnd), s)
    match r.1.bad with
    | some b => r.2.poisonConsumed p b 3
    | none => if r.1.wrote ∧ r.2.fillsLeft p fid = false then (r.2.floatApply p fid true).beginCopies else r.2)

end Sys2Proof.Machine
end

