-- ==== Sys2Proof/Machine/HbmCmds.lean ====
section
/-!
DEFINITION. The commands of the HBM controllers: patrol scrub, the suspect window, the clears
(spec 09_memory R452 to R456, R459, R460).
-/

namespace Sys2Proof.Machine

/-- The blocks of a stack: 96 GiB of 64 bytes (R431, R439). -/
def stackBlocks : Nat := 96 * 2 ^ 24

/-- A scrub pass begins at block 0; `HBM_SCRUB.PERIOD` takes effect here (R452, R454). -/
def State.beginPass (k : Nat) (s : State) : State :=
  s.setStack k { s.stack k with
    scrubPos := 0, scrubbing := true, passPoisoned := 0, passPeriod := s.field (Reg.hbmScrub k) 15 8 }

/-- A pass is complete: PASSES, and POISONED of the pass (R459). -/
def State.endPass (k : Nat) (s : State) : State :=
  let x := s.stack k
  let s := (s.bumpWrap (Reg.hbmScrub k) 63 32 1).setField (Reg.hbmScrub k) 31 16 (min x.passPoisoned 0xFFFF)
  s.setStack k { x with scrubPos := 0, scrubbing := false }

/-- `SCRUB_READ`: the scrub reads its next block, writes a corrected block back, counts a poisoned one and poisons an
uncorrectable one (R452, R453). (DESIGN CHOICE, log 135) -/
def execScrubRead (st : Nat) (s : State) : Out :=
  .next (
    if (s.stack st).up = false ∨ ((s.reg (Reg.hbmScrub st)).getLsbD 0 = false ∧ (s.stack st).scrubbing = false) then s
    else
      let s := if (s.stack st).scrubbing then s else s.beginPass st
      let x := s.stack st
      let n := if x.poison.contains x.scrubPos then x.passPoisoned + 1 else x.passPoisoned
      let s := (s.readBlock st x.scrubPos true).2
      let s := s.modStack st fun y => { y with scrubPos := x.scrubPos + 1, passPoisoned := n }
      if x.scrubPos + 1 = stackBlocks then s.endPass st else s)

/-- `HBM_CTL.SCRUBNOW`: the pass in progress is abandoned and a new one starts (R454). (DESIGN CHOICE, log 135) -/
def execHbmScrubnow (st : Nat) (s : State) : Out := .next (s.beginPass st)

/-- `HBM_CTL.CLR`: the error counts and the last error's log (R459). -/
def execHbmCtlClr (st : Nat) (s : State) : Out :=
  .next (((s.setReg (Reg.hbmErrcnt st) 0).setReg (Reg.hbmErrcnt2 st) 0).setReg (Reg.hbmElog0 st) 0)

/-- `PRT_HBM_CLR.CNT`: `PRT_HBM_POISON` (R460). -/
def execPrtHbmClr (p : Nat) (s : State) : Out := .next (s.setReg (Reg.prtHbmPoison p) 0)

/-- `HBM_SUSPECT_WINDOW_END`: the sliding window of a suspect stack holds fewer than UE_LIM blocks; the scrub period
returns to its setting (R455). (DEDUCED, log 49) -/
def execHbmSuspectWindowEnd (st : Nat) (s : State) : Out :=
  .next (
    let x := s.stack st
    let lim := s.field (Reg.hbmThresh st) 39 32
    if x.suspect = false ∨ lim = 0 then s
    else
      let s := if lim ≤ x.ueHist.length then s.passTo (x.ueHist.getD (x.ueHist.length - lim) 0 + dayNs) else s
      let hist := x.ueHist.filter fun t => decide (s.now < t + dayNs)
      (s.setStack st { x with suspect := false, ueHist := hist }).setField (Reg.hbmScrub st) 15 8 x.savedPeriod)

end Sys2Proof.Machine
end

