-- ==== Sys2Proof/Machine/Joiners.lean ====
section
/-!
DEFINITION. Joiner pairs, their takeover, sluice endpoints, basins, sends and receives
(spec 10_joiners R461 to R502).
-/

namespace Sys2Proof.Machine

/-! ### Endpoints and basins (R476 to R479) -/

/-- The endpoint number of a Joiner pair, a Sill controller and a Plane engine: bits [15:5] of its address (R476).
(DEDUCED, log 50) -/
def pairEp (k : Nat) : Nat := 0x100 + k
def sillEp (b : Nat) : Nat := 0x200 + b
def engineEp (e : Nat) : Nat := 0x300 + e
/-- The source address of an endpoint, BASIN zero (R476). (DEDUCED, log 50) -/
def epAddr (ep : Nat) : BitVec 16 := BitVec.ofNat 16 (ep * 32)
/-- The endpoint of an address. (DEDUCED, log 50) -/
def epOf (a : BitVec 16) : Nat := a.toNat / 32
/-- The pair of an endpoint, when it is a pair's. -/
def epPair (ep : Nat) : Option Nat := if 0x100 ≤ ep ∧ ep < 0x100 + 48 then some (ep - 0x100) else none

/-- An address that names a basin of an endpoint that exists: pair, Sill controller or engine (R476, R477). -/
def basinAddrOk (a : BitVec 16) : Bool :=
  let k := a.toNat / 8192
  let i := a.toNat / 32 % 256
  let n := a.toNat % 32
  (decide (k = 1) && decide (i < 48)) || (decide (k = 2) && decide (i < 84) && decide (n < 8)) ||
    (decide (k = 3) && decide (i < 24) && decide (n < 16))

/-- The units that a message of `len` payload bytes takes (R481). -/
def msgUnits (len : Nat) : Nat := (16 + len + 63) / 64

/-- The gate passes over written skips at the head and returns their units (R487). -/
def passSkips : List SlRec → Nat → List SlRec × Nat
  | [], n => ([], n)
  | r :: rs, n => if r.skip && r.written then passSkips rs (n + r.units) else (r :: rs, n)

def Basin.gate (b : Basin) : Basin :=
  let q := passSkips b.recs b.returning
  { b with recs := q.1, returning := q.2 }

/-- The message at the head, visible once written (R487, R491). -/
def Basin.head (b : Basin) : Option SlRec :=
  match b.recs with
  | r :: _ => if !r.skip && r.written then some r else none
  | [] => none

/-- The basin is empty and its source holds all its credits (R479). -/
def Basin.idle (b : Basin) : Bool := b.recs.isEmpty && b.returning == 0 && b.cr == b.units

/-! ### Records in sluice memory (R477, R480, R481) -/

/-- The bytes of a record: its header, and a message's payload; LEN and the payload of a skip are empty. -/
def SlRec.bytes (dst : Nat) (r : SlRec) : List Byte :=
  leBytes 2 dst ++ leBytes 2 r.src.toNat ++ leBytes 2 r.tag.toNat ++ leBytes 1 (if r.skip then 2 else 1) ++ leBytes 1 r.units ++
    leBytes 2 r.len ++ leBytes 2 r.seq.toNat ++ leBytes 4 r.tide.toNat ++ r.payload

/-- A record is written at its unit of basin `n` of endpoint `ep` (R480). -/
def State.landRecord (ep n : Nat) (r : SlRec) (s : State) : State :=
  s.writeSluice ep ((s.basin ep n).base.toNat + 64 * r.pos) (r.bytes (32 * ep + n))

/-! ### Stream counts (R495) -/

/-- Change the counts of a stream: its entry, a new one among the first 64, or the overflow entry. -/
def SendPort.count (dst tag : BitVec 16) (f : Stream → Stream) (x : SendPort) : SendPort :=
  if x.streams.any (fun t => t.dst == dst && t.tag == tag) then
    { x with streams := x.streams.map fun t => if t.dst = dst ∧ t.tag = tag then f t else t }
  else if x.streams.length < 64 then
    { x with streams := x.streams ++ [f { dst := dst, tag := tag, msgs := 0, stalls := 0, waitus := 0 }] }
  else { x with overflow := f x.overflow }

/-- Add to a saturating count of 32 bits (R17, R495). -/
def sat32 (a : BitVec 32) (n : Nat) : BitVec 32 := BitVec.ofNat 32 (min (a.toNat + n) (2 ^ 32 - 1))

/-! ### Sending (R482 to R485) -/

/-- A record is written at the write position and the source's credits are spent (R480, R482). -/
def Basin.putRec (skip : Bool) (src tag : BitVec 16) (units len : Nat) (now : Nat) (payload : List Byte) (b : Basin) : Basin :=
  let key := 65536 * src.toNat + tag.toNat
  let sq := Tab.get 0 b.seqs key
  { b with
    recs := b.recs ++ [{ skip := skip, src := src, tag := tag, units := units, len := len, seq := sq
                         tide := BitVec.ofNat 32 now, payload := payload, pos := b.w, written := false }]
    w := (b.w + units) % b.units
    cr := b.cr - units
    seqs := if skip then b.seqs else Tab.set 0 b.seqs key (sq + 1) }

/-- What the placement of a message gives (R482): sent, or no credits, and the basin. -/
def Basin.place (src tag : BitVec 16) (now : Nat) (payload : List Byte) (b : Basin) : Bool × Basin :=
  let m := msgUnits payload.length
  let e := b.units - b.w
  let put := Basin.putRec false src tag m payload.length now payload
  let skip := Basin.putRec true src tag e 0 now []
  if m ≤ e then (if m ≤ b.cr then (true, put b) else (false, b))
  else if e + m ≤ b.units then (if e + m ≤ b.cr then (true, put (skip b)) else (false, b))
  else if e ≤ b.cr then
    let b := skip b
    if m ≤ b.cr then (true, put b) else (false, b)
  else (false, b)

/-- The result of a send in `JNR_SENDRES.ST` (R500). -/
inductive SendRes where
  | sent | nocredit | tooLong | unbound | len
deriving DecidableEq, Repr

def SendRes.code : SendRes → BitVec 3
  | .sent => 0
  | .nocredit => 1
  | .tooLong => 2
  | .unbound => 3
  | .len => 4

def State.sendResult (ep : Nat) (r : SendRes) (s : State) : State := s.setSport ep { s.sport ep with sendRes := r.code }

/-- The event operands of a send: source, destination, tag, units (R483, R484). -/
def sendOps (ep : Nat) (dst tag : BitVec 16) (m : Nat) : List Nat := [(epAddr ep).toNat, dst.toNat, tag.toNat, m]

/-- A send of endpoint `ep` (R482 to R485, R495). (DEDUCED, log 51) -/
def State.sluiceSend (ep : Nat) (dst tag : BitVec 16) (try_ : Bool) (payload : List Byte) (s : State) : State :=
  let m := msgUnits payload.length
  let de := epOf dst
  let n := dst.toNat % 32
  let b := s.basin de n
  if basinAddrOk dst = false ∨ b.en = false ∨ b.src ≠ epAddr ep then
    (s.signal Ev.sluiceUnbound 0 (sendOps ep dst tag m)).sendResult ep .unbound
  else if b.units < m then (s.signal Ev.sluiceTooLong 0 (sendOps ep dst tag m)).sendResult ep .tooLong
  else
    let r := b.place (epAddr ep) tag s.now payload
    let s := s.setBasin de n r.2
    if r.1 then
      (s.setSport ep ((s.sport ep).count dst tag fun t => { t with msgs := sat32 t.msgs 1 })).sendResult ep .sent
    else if try_ then s.sendResult ep .nocredit
    else
      let x := (s.sport ep).count dst tag fun t => { t with stalls := sat32 t.stalls 1 }
      let w : SlSend := { dst := dst, tag := tag, payload := payload, since := s.now, reported := false }
      s.setSport ep { x with waiting := some w }

/-- A waiting send of `ep` tries again; when it is sent its wait is counted (R482, R495). -/
def State.retrySend (ep : Nat) (s : State) : State :=
  match (s.sport ep).waiting with
  | none => s
  | some w =>
    let de := epOf w.dst
    let n := w.dst.toNat % 32
    let r := (s.basin de n).place (epAddr ep) w.tag s.now w.payload
    let s := s.setBasin de n r.2
    if r.1 then
      let us := (s.now - w.since) / 1000
      let x := (s.sport ep).count w.dst w.tag fun t => { t with msgs := sat32 t.msgs 1, waitus := sat32 t.waitus us }
      (s.setSport ep { x with waiting := none }).sendResult ep .sent
    else s

/-- The source of a basin waits to send into it. -/
def State.retryInto (ep n : Nat) (s : State) : State :=
  let src := epOf (s.basin ep n).src
  match (s.sport src).waiting with
  | some w => if epOf w.dst = ep ∧ w.dst.toNat % 32 = n then s.retrySend src else s
  | none => s

/-! ### Pairs (R463 to R474) -/

/-- Pair `k` is live: not stopped, and its cluster's rim segment supplied (R50, R465). -/
def State.pairLive (s : State) (k : Nat) : Bool := !(s.pair k).stopped && s.phys.power.segs.getLsbD (2 * (k / 4))

/-- The live pair that serves the endpoint of pair `k` (R469). -/
def State.server (s : State) (k : Nat) : Option Nat :=
  (List.range 48).find? fun j => s.pairLive j && (s.pair j).adopted.getLsbD k

/-- The endpoint of pair `k` is served by a pair whose harts are not blocked in a read (R488). -/
def State.pairRuns (s : State) (k : Nat) : Bool :=
  match s.server k with
  | some _ => (s.pair k).readWait.isNone && !s.phys.power.halted
  | none => false

/-- The successor of a stopped pair (R470). -/
def State.successor (s : State) (k : Nat) : Option Nat :=
  ((List.range 12).flatMap fun i => (List.range 4).map fun p => ((k / 4 + i) % 12) * 4 + p).find? fun j => s.pairLive j

/-- Fresh basins for the endpoint of pair `j` in another cluster: unread messages and messages in flight are discarded,
the sources hold all credits (R472). The number of messages discarded. -/
def State.freshBasins (j : Nat) (s : State) : Nat × State :=
  (List.range 32).foldl (fun acc n =>
    let b := acc.2.basin (pairEp j) n
    let lost := b.recs.countP fun r => !r.skip
    (acc.1 + lost, acc.2.setBasin (pairEp j) n { b with recs := [], returning := 0, cr := b.units, w := 0 })) (0, s)

/-- The endpoint of pair `j` passes to a pair of cluster `c` (R471, R472). -/
def State.rehome (j c : Nat) (s : State) : State :=
  let s := s.setSport (pairEp j) { s.sport (pairEp j) with waiting := none }
  let s := s.setPair j { s.pair j with readWait := none }
  if (s.pair j).cluster = c then s
  else
    let r := s.freshBasins j
    let s := r.2.setPair j { r.2.pair j with cluster := c }
    let s := s.signal Ev.sluiceRehomed 0 [pairEp j, c, r.1]
    (List.range 32).foldl (fun s n => s.retryInto (pairEp j) n) s

/-- The engines that work for partition `p` or hold staged layers of it. -/
def State.enginesOf (s : State) (p : Nat) : List Nat :=
  (List.range 24).filter fun e => decide ((s.engine e).part = p) ||
    (s.part p).pln.layers.any fun kl => kl.2.engine == e && kl.2.staged.isSome

/-- The duties of a word restart on their new pair: the step commit of a partition scans its engines' rings
(R416, R468, R473). -/
def State.restartDuties (d : Word) (s : State) : State :=
  (List.range 8).foldl (fun s i =>
    if d.getLsbD (17 + i) then (s.enginesOf (i + 1)).foldl (fun s e => s.ringScan e) s else s) s

/-- The duties and endpoints of a pair that left service pass to its successor (R469 to R474). -/
def State.takeover (k : Nat) (s : State) : State :=
  let x := s.pair k
  match s.successor k with
  | none => s.signal Ev.jnrNone 0 []
  | some j =>
    let y := s.pair j
    let s := s.setPair j { y with duties := y.duties ||| x.duties, adopted := y.adopted ||| x.adopted }
    let s := s.setPair k { s.pair k with duties := 0, adopted := 0 }
    let s := (setBits 48 x.adopted.toNat).foldl (fun s e => s.rehome e (j / 4)) s
    s.restartDuties x.duties

/-! ### Commands of an endpoint's sluice port (R482 to R491, R500, R501) -/

/-- The endpoint that an operand numbers: the pairs from 0, the Sill controllers from 48, the Plane engines from 132 (R476).
(DESIGN CHOICE, log 53) -/
def sluiceEp (k : Nat) : Nat := if k < 48 then pairEp k else if k < 132 then sillEp (k - 48) else engineEp (k - 132)

/-- The endpoint that an operand numbers acts: a pair's harts, a Sill controller with its supply, or a Plane engine that works. -/
def State.epRuns (s : State) (k : Nat) : Bool :=
  if k < 48 then s.pairRuns k
  else if k < 132 then (s.bay (k - 48)).supply == .on
  else s.engineLive (k - 132) && s.enginesRun

/-- The binding of an endpoint's basins can be written: by the pair itself, or by Joinery over the management network (R478). -/
def State.canBind (s : State) (k : Nat) : Bool := if k < 48 then s.pairRuns k else (List.range 48).any s.pairLive

/-- The number of basins of an endpoint, and the units of one with the field SZ (R477). -/
def epBasins (k : Nat) : Nat := if k < 48 then 32 else if k < 132 then 8 else 16
def epUnits (k sz : Nat) : Nat := if k < 48 then 16 * 2 ^ sz else if k < 132 then 64 else 256

/-- `JNR_SEND`: a write while a send still waits blocks the hart (R501). The payload lies at `JNR_SENDADDR`.
(DESIGN CHOICE, log 54) -/
def execJnrSend (pair : Nat) (value : Word) (payload : List Byte) (s : State) : Out :=
  .next (
    let ep := sluiceEp pair
    if s.epRuns pair = false ∨ (s.sport ep).waiting.isSome then s
    else if 16368 < fieldOf value 14 0 then s.sendResult ep .len
    else
      let d := padTo (fieldOf value 14 0) payload
      (s.writeSluice ep (s.sport ep).sendAddr.toNat d).sluiceSend ep (value.extractLsb' 48 16) (value.extractLsb' 32 16)
        (value.getLsbD 17) d)

/-- What `JNR_RECVn` shows of a message (R500). -/
def recvWord (r : SlRec) : Word :=
  fld 63 48 r.src.toNat ||| fld 47 32 r.tag.toNat ||| fld 31 16 r.len ||| fld 9 0 r.pos

/-- A blocked read of the endpoint ends when its basin has a message (R488). -/
def State.wakeReader (ep n : Nat) (s : State) : State :=
  match epPair ep with
  | none => s
  | some k =>
    if (s.pair k).readWait = some n then
      match (s.basin ep n).head with
      | some r => (s.setPair k { s.pair k with readWait := none }).emitOut (.jnrData k (recvWord r))
      | none => s
    else s

/-- `SLUICE_MESSAGE`: record `idx` of a basin has been written; messages become visible in ring order (R480, R487, R491). -/
def execSluiceMessage (ep basin idx : Nat) (s : State) : Out :=
  .next (
    let b := s.basin ep basin
    let s := match b.recs[idx]? with
      | some r => if r.written then s else s.landRecord ep basin r
      | none => s
    let b := { b with recs := ((List.range b.recs.length).zip b.recs).map fun (r : Nat × SlRec) =>
      if r.1 = idx then { r.2 with written := true } else r.2 }
    (s.setBasin ep basin b.gate).wakeReader ep basin)

/-- `SLUICE_CREDIT`: credits return to the source and a waiting send proceeds (R482, R489). -/
def execSluiceCredit (ep basin : Nat) (s : State) : Out :=
  .next (
    let b := s.basin ep basin
    (s.setBasin ep basin { b with cr := b.cr + b.returning, returning := 0 }).retryInto ep basin)

/-- `JNR_RECV`: the head message, or zero from a basin that is not enabled; else the hart blocks (R488, R490). -/
def execJnrRecv (pair n : Nat) (s : State) : Out :=
  .next (
    let b := s.basin (pairEp pair) n
    if s.pairRuns pair = false then s
    else if b.en = false then s.emitOut (.jnrData pair 0)
    else
      match b.head with
      | some r => s.emitOut (.jnrData pair (recvWord r))
      | none => s.setPair pair { s.pair pair with readWait := some n })

/-- `JNR_REL`: the head message is freed and its units go back as credits (R489). -/
def execJnrRel (pair n : Nat) (s : State) : Out :=
  .next (
    let ep := sluiceEp pair
    let b := s.basin ep n
    match b.head with
    | some r =>
      if s.epRuns pair then
        s.setBasin ep n (Basin.gate { b with recs := b.recs.drop 1, returning := b.returning + r.units })
      else s
    | none => s)

/-- KiB of the enabled basins of an endpoint beside basin `n`. -/
def State.basinKib (s : State) (ep n : Nat) : Nat :=
  (List.range 32).foldl (fun t i => let b := s.basin ep i; if i ≠ n ∧ b.en then t + 2 ^ b.sz.toNat else t) 0

/-- `JNR_BASIN_BIND`: a write of `JNR_BASINn`, or Joinery for a Sill controller or an engine, binds the basin, or is refused with ST 1
or 2 and the basin stays (R477 to R479, R500). -/
def execJnrBasinBind (pair n : Nat) (value : Word) (s : State) : Out :=
  .next (
    let ep := sluiceEp pair
    let b := s.basin ep n
    let sz := fieldOf value 62 59
    let en := value.getLsbD 63
    if s.canBind pair = false ∨ epBasins pair ≤ n then s
    else if b.idle = false then s.setBasin ep n { b with st := 1 }
    else if pair < 48 ∧ (6 < sz ∨ (en = true ∧ 512 < s.basinKib ep n + 2 ^ sz)) then s.setBasin ep n { b with st := 2 }
    else
      let u := epUnits pair sz
      s.setBasin ep n { b with
        en := en, sz := BitVec.ofNat 4 sz, src := value.extractLsb' 32 16, st := 0, base := value.extractLsb' 0 19
        units := u, w := 0, cr := u, returning := 0, recs := [] })

/-! ### The stall watchdog and the stream counts (R495 to R498, R502) -/

/-- The destination endpoint of a stalled send itself waits to send to the stalled send's endpoint (R497).
(DEDUCED, log 52) -/
def State.mutual (s : State) (ep : Nat) (w : SlSend) : Option SlSend :=
  match (s.sport (epOf w.dst)).waiting with
  | some v => if epOf v.dst = ep then some v else none
  | none => none

/-- `SLUICE_STALL`: a send has waited for WATCH; once for each wait (R496 to R498). -/
def execSluiceStall (ep : Nat) (s : State) : Out :=
  .next (
    match (s.sport ep).waiting with
    | none => s
    | some w =>
      if w.reported then s
      else
        let s := s.passTo (w.since + max 1 (s.field Reg.jnrSluicecfg 31 0) * 1000)
        let s := s.setSport ep { s.sport ep with waiting := some { w with reported := true } }
        let de := epOf w.dst
        let tag := ((s.basin de (w.dst.toNat % 32)).recs.find? fun r => !r.skip).map (·.tag.toNat)
        let base := [(epAddr ep).toNat, w.dst.toNat, w.tag.toNat, tag.getD 0]
        match s.mutual ep w with
        | none => s.signal Ev.sluiceStall 0 (base ++ [0])
        | some v =>
          let s := s.setSport de { s.sport de with waiting := some { v with reported := true } }
          s.signal Ev.sluiceStall 0 (base ++ [1, (epAddr de).toNat, v.dst.toNat, v.tag.toNat]))

def SendPort.clear (x : SendPort) : SendPort := { x with streams := [], overflow := Stream.overflow }

/-- `JNR_STRCLR`: the counts of one endpoint or of all (R502). -/
def State.clearStreams (value : Word) (s : State) : State :=
  if value.getLsbD 16 then
    { s with man := { s.man with ports := Tab.mapVals SendPort.reset (fun _ x => x.clear) s.man.ports } }
  else
    let ep := fieldOf value 15 0 / 32
    s.setSport ep (s.sport ep).clear

def execJnrStrclr (value : Word) (s : State) : Out := .next (s.clearStreams value)

/-- The words of `JNR_STRDATA0` and `JNR_STRDATA1` for the entry selected; a running wait is counted as it grows
(R495, R502). -/
def State.streamData (s : State) : Word × Word :=
  let x := s.sport (s.field Reg.jnrStrsel 31 16 / 32)
  let n := s.field Reg.jnrStrsel 6 0
  let e := if n = 64 then some x.overflow else x.streams[n]?
  match e with
  | none => (0, 0)
  | some t =>
    let run := match x.waiting with
      | some w =>
        let own := x.streams.any fun u => u.dst == w.dst && u.tag == w.tag
        if (if own then w.dst = t.dst ∧ w.tag = t.tag else n = 64) then (s.now - w.since) / 1000 else 0
      | none => 0
    (fld 63 48 t.dst.toNat ||| fld 47 32 t.tag.toNat ||| fld 31 0 t.msgs.toNat,
     fld 63 32 t.stalls.toNat ||| fld 31 0 (sat32 t.waitus run).toNat)

/-- `JNR_STRDATA_READ`: a read of word 0 latches the entry; a read of word 1 gives the latched entry and, with INC,
advances ENTRY (R502). -/
def execJnrStrdataRead (second : Bool) (s : State) : Out :=
  .next (
    if second then
      let s := s.emitOut (.regData 0 Reg.jnrStrdata1 s.man.strLatch)
      if (s.reg Reg.jnrStrsel).getLsbD 32 then s.setField Reg.jnrStrsel 6 0 (s.field Reg.jnrStrsel 6 0 + 1) else s
    else
      let d := s.streamData
      (s.modMan fun m => { m with strLatch := d.2 }).emitOut (.regData 0 Reg.jnrStrdata0 d.1))

end Sys2Proof.Machine
end

