-- ==== Sys2Proof/Machine/Grain.lean ====
section
/-!
DEFINITION. The Grain log: slots, the writer, its areas, the chain, the readers (spec 18_identity_health R819 to R833,
R837).
-/

namespace Sys2Proof.Machine

/-! ### CRC-64 (R644, R820) -/

/-- One bit of the CRC-64 of ECMA-182, most significant bit first. -/
def crc64Bit (c : Nat) : Nat := if 2 ^ 63 ≤ c then (c * 2 % 2 ^ 64) ^^^ 0x42F0E1EBA9EA3693 else c * 2
def crc64Byte (c : Nat) (b : Byte) : Nat :=
  let c := c ^^^ (b.toNat * 2 ^ 56)
  crc64Bit (crc64Bit (crc64Bit (crc64Bit (crc64Bit (crc64Bit (crc64Bit (crc64Bit c)))))))
/-- CRC-64 with initial value all ones (R644). (PRESUMED, log 15) -/
def crc64 (d : List Byte) : Nat := d.foldl crc64Byte (2 ^ 64 - 1)

/-! ### Areas and slots (R819 to R823) -/

/-- The first slot of an area and its slots (R819). -/
def areaBase (a : Nat) : Nat := if a = 0 then 0 else if a = 1 then 786432 else if a = 2 then 966656 else 1032192
def areaSlots (a : Nat) : Nat := if a = 0 then 786432 else if a = 1 then 180224 else if a = 2 then 65536 else 16384

/-- The slot that holds sequence number `sq` of an area (R823). -/
def slotOf (a sq : Nat) : Nat := areaBase a + sq % areaSlots a

/-- The bytes of a record in its slot (R820). -/
def grnBytes (r : GrnRec) (sq boot : Nat) : List Byte :=
  let b := leBytes 2 r.type.toNat ++ leBytes 1 r.srck.toNat ++ leBytes 1 r.srci.toNat ++ leBytes 4 sq ++ leBytes 8 r.tide.toNat ++
    leBytes 8 boot ++ padTo 216 r.body
  b ++ leBytes 8 (crc64 b) ++ List.replicate 8 0

/-- The surge bucket record of a bay and a powered hour: bay, hour, microseconds and the keyed check (R746, R831).
(DESIGN CHOICE, log 92; DESIGN CHOICE, log 93) -/
def bucketRec (b hour us tide : Nat) : GrnRec :=
  { type := 0x0070, srck := 2, srci := BitVec.ofNat 8 b, tide := BitVec.ofNat 64 tide
    body := padTo 216 (leBytes 4 b ++ leBytes 4 hour ++ leBytes 8 us ++ leBytes 8 (Config.sillCheck b hour us).toNat) }

/-- The slots that the records written at test use in an area: the identity record, 720 zero buckets for every bay, one
LMS state record (R746, R810, R831). -/
def testSlots (a : Nat) : Nat := if a = 2 then 60480 else if a = 1 then 0 else 1

/-- What a slot holds when the module leaves test (R746, R810, R831). -/
def testSlot (k : Nat) : GrnSlot :=
  if k = 0 then
    .record (grnBytes { type := 0x0001, srck := 0, srci := 0, tide := 0, body := Config.identityBody.toList } 0 0)
  else if 966656 ≤ k ∧ k < 966656 + 60480 then
    let q := k - 966656
    .record (grnBytes (bucketRec (q % 84) (q / 84) 0 0) q 0)
  else if k = 1032192 then .record (grnBytes { type := 0x0080, srck := 4, srci := 0, tide := 0, body := List.replicate 216 0 } 0 0)
  else .free

def State.grain (s : State) : Grain := s.man.grain
def Grain.slot (g : Grain) (a sq : Nat) : GrnSlot := Tab.get (testSlot (slotOf a sq)) g.slots (slotOf a sq)
def Grain.setSlot (k : Nat) (x : GrnSlot) (g : Grain) : Grain := { g with slots := Tab.set (testSlot k) g.slots k x }
def Grain.nextSeq (g : Grain) (a : Nat) : Nat := Tab.get 0 g.next a
def Grain.setNext (a sq : Nat) (g : Grain) : Grain := { g with next := Tab.set 0 g.next a sq }

/-- The slots of an area that changed since test. -/
def Grain.areaList (g : Grain) (a : Nat) : Tab GrnSlot :=
  g.slots.filter fun e => decide (areaBase a ≤ e.1) && decide (e.1 < areaBase a + areaSlots a)

/-- The sector of a sequence number is retired (R824). -/
def Grain.retiredAt (g : Grain) (a sq : Nat) : Bool := g.retired.contains (slotOf a sq / 256)

/-- The first sequence number from `sq` on whose sector is not retired (R824). -/
def Grain.seek (a : Nat) (g : Grain) : Nat → Nat → Nat
  | 0, sq => sq
  | n + 1, sq => if g.retiredAt a sq then Grain.seek a g n ((sq / 256 + 1) * 256) else sq

/-- The area a record type belongs to (R819, R831). -/
def recArea (r : GrnRec) : Nat :=
  let t := r.type.toNat
  if t = 0x0080 then 3 else if t = 0x0070 then 2 else if t = 0x0050 ∨ t = 0x0051 then 1
  else if t = 0x0020 ∧ leAt r.body 2 1 = 0 then 1
  else 0

/-- Types that the lifetime area still admits at 98% (R827). -/
def lifetimeKept (t : Nat) : Bool := [0x0001, 0x0030, 0x0031, 0x0040].contains t

/-- The area in which a record is written: the lifetime area sends records to the rolling area as it fills (R827). -/
def Grain.areaFor (g : Grain) (r : GrnRec) : Nat :=
  let a := recArea r
  if a = 0 ∧ (g.full ∨ (g.near = true ∧ lifetimeKept r.type.toNat = false)) then 1 else a

/-! ### The writer (R824 to R828) -/

/-- Sources that wait rather than lose a record: LMS state, fence, withdrawal and hosting records (R825). -/
def mustWait (t : Nat) : Bool := [0x0080, 0x0030, 0x0031, 0x0040].contains t

/-- Rim segment 0 is supplied and the start scan is complete: the writer runs (R829, R866). -/
def State.writerRuns (s : State) : Bool := s.phys.power.segs.getLsbD 0 && s.grain.scanned

/-- `GRN_RECORD`: a record reaches the writer and is queued; one that finds the queue full is dropped, or its source waits
(R825). (DESIGN CHOICE, log 104) -/
def execGrnRecord (r : GrnRec) (s : State) : Out :=
  .next (
    if s.phys.power.segs.getLsbD 0 = false then s
    else if s.grain.queue.length < 4096 then
      s.modGrain fun g => { g with waiting := g.waiting.erase r, queue := g.queue ++ [r] }
    else if mustWait r.type.toNat then
      s.modGrain fun g => if g.waiting.contains r then g else { g with waiting := g.waiting ++ [r] }
    else
      let s := (s.modGrain fun g => { g with waiting := g.waiting.erase r }).bump Reg.grnStat 63 48 1
      let due : Bool := match s.grain.dropAt with
        | none => true
        | some t => decide (t + hourNs ≤ s.now)
      if due then
        (s.modGrain fun g => { g with dropAt := some s.now }).signal Ev.grnWriteFail 0 [s.grain.areaFor r, r.type.toNat]
      else s)

/-- The order in which queued records are taken: the cold-start record, LMS state records, records of module-fatal
events, then the rest; in order of arrival within each (R825, R829). -/
def recRank (r : GrnRec) : Nat :=
  let t := r.type.toNat
  if t = 0x0002 then 0 else if t = 0x0080 then 1 else if t = 0x0020 ∧ leAt r.body 2 1 = 3 then 2 else 3

/-- The record to be written next. -/
def nextRec (l : List GrnRec) : Option GrnRec :=
  [0, 1, 2, 3].findSome? fun k => l.find? fun r => recRank r == k

/-- One slot is abandoned: torn, counted (R822). -/
def State.tearSlot (a : Nat) (s : State) : State :=
  (s.modGrain fun g =>
    let sq := g.seek a 4096 (g.nextSeq a)
    (g.setSlot (slotOf a sq) .torn).setNext a (sq + 1)).bump Reg.grnStat 47 32 1

/-- `n` slots are abandoned. -/
def State.tearSlots (a : Nat) : Nat → State → State
  | 0, s => s
  | n + 1, s => State.tearSlots a n (s.tearSlot a)

/-- The chain after a committed lifetime record (R828). -/
def chainNext (c d : List Byte) : List Byte := sha384 (c ++ d.take 0xF8)

/-- The lifetime area's fill is reported at 98% and when it is full (R827). -/
def State.checkFull (s : State) : State :=
  let n := s.grain.nextSeq 0
  let s := if s.grain.near = false ∧ 98 * 786432 ≤ 100 * n then (s.modGrain fun g => { g with near := true }).signal Ev.grnFull 0 [n]
    else s
  if s.grain.full = false ∧ 786432 ≤ n then (s.modGrain fun g => { g with full := true }).signal Ev.grnFull 0 [n] else s

/-- The top-level leaf from which on `LMS_LOW` is raised (R811). -/
def lmsLowAt : Nat := 2 ^ 20 - 16

/-- A committed LMS state record gives the leaves it reserves; a new bottom tree starts at leaf 0 and is computed, and
few top-level leaves left are reported (R806 to R808, R811). -/
def State.lmsCommitted (topq limit : Nat) (s : State) : State :=
  let old := s.man.lms.topq
  let s := s.modLms fun x =>
    if x.topq = topq then { x with limit := limit, valid := true }
    else { x with topq := topq, limit := limit, botq := 0, ready := false, valid := true }
  if old < lmsLowAt ∧ lmsLowAt ≤ topq then s.signal Ev.lmsLow 0 [topq] else s

/-- A record's COMMIT is programmed (R821, R828); what waits for the record is made known (R826). -/
def State.commitRecordTo (a : Nat) (r : GrnRec) (s : State) : State :=
  let g := s.grain
  let sq := g.seek a 4096 (g.nextSeq a)
  let d := grnBytes r sq g.boots
  let s := s.modGrain fun g =>
    let g := (({ g with queue := g.queue.erase r }).setSlot (slotOf a sq) (.record d)).setNext a (sq + 1)
    if a = 0 then { g with chain := chainNext g.chain d, chainN := g.chainN + 1 } else g
  let s := (if a = 0 then s.checkFull else s).recordCommitted r
  if r.type = 0x0080 then s.lmsCommitted (leAt r.body 0 4) (leAt r.body 4 4) else s

/-- The next slot of an area can be programmed: it is free (R821, R824). -/
def Grain.canWrite (g : Grain) (a : Nat) : Bool :=
  decide (g.slot a (g.seek a 4096 (g.nextSeq a)) = .free) && (decide (a ≠ 0) || decide (g.nextSeq 0 < 786432))

/-- The next record is programmed and committed after `abandoned` slots; three abandoned slots for one
record are reported and the writer waits 1 s (R821, R822, R825). A ring slot not yet erased holds the writer (R824). -/
def State.commitNext (abandoned : Nat) (s : State) : State :=
    match nextRec s.grain.queue with
    | none => s
    | some r =>
      if s.writerRuns = false ∨ s.grain.retryAt.isSome then s
      else
        let a := s.grain.areaFor r
        if s.grain.canWrite a = false then s
        else
          let s := s.tearSlots a (min abandoned 3)
          let s := if a = 0 then s.checkFull else s
          if 3 ≤ abandoned then
            (s.modGrain fun g => { g with retryAt := some (s.now + 1000000000) }).signal Ev.grnWriteFail 0 [a, r.type.toNat]
          else
            let a := s.grain.areaFor r
            if s.grain.canWrite a then s.commitRecordTo a r else s

/-- `GRN_WRITE_RETRY`: one second after the failure the writer tries again (R822). -/
def execGrnWriteRetry (s : State) : Out :=
  .next (
    match s.grain.retryAt with
    | none => s
    | some t => (s.passTo t).modGrain fun g => { g with retryAt := none })

/-- The sequence number at which the sector after the current one of a ring begins, retired sectors skipped (R824). -/
def Grain.nextSector (g : Grain) (a : Nat) : Nat := g.seek a 4096 ((g.nextSeq a / 256 + 1) * 256)

/-- `GRN_SECTOR_ERASE`: the erase of the next ring sector completes and its slots are free, or it fails and the sector is
recorded as retired and skipped (R824). One erase for each sector that the write position enters. -/
def execGrnSectorErase (area : Nat) (good : Bool) (s : State) : Out :=
  .next (
    if area = 0 ∨ 3 < area ∨ s.writerRuns = false then s
    else
      let g := s.grain
      let sq := g.nextSector area
      let sec := slotOf area sq / 256
      if Tab.get 0 g.erased area = sq + 1 then s
      else if good then
        s.modGrain fun g =>
          (List.range 256).foldl (fun g i => g.setSlot (sec * 256 + i) .free) { g with erased := Tab.set 0 g.erased area (sq + 1) }
      else
        (s.modGrain fun g => { g with retired := g.retired ++ [sec] }).sendRecord 0x00C0 0 0 (leBytes 4 area ++ leBytes 4 sec))

/-! ### The start scan (R828, R829) -/

/-- The sequence number and the cold-start count of a committed record (R820). -/
def recSeq (d : List Byte) : Nat := leAt d 4 4
def recBoot (d : List Byte) : Nat := leAt d 0x10 8

/-- The write position of an area after a scan: past the last slot that is not free, or past the highest SEQ of a ring and
the torn slots after it (R822, R829). -/
def Grain.scanArea (g : Grain) (a : Nat) : Nat :=
  let l := g.areaList a
  if a = 0 then l.foldl (fun m e => max m (e.1 + 1)) (testSlots 0)
  else
    let top := l.foldl (fun m e => match e.2 with
      | .record d => max m (recSeq d + 1)
      | _ => m) (testSlots a)
    skipTorn 256 top
where
  /-- Past the torn slots from `sq` on. -/
  skipTorn : Nat → Nat → Nat
    | 0, sq => sq
    | n + 1, sq => if g.slot a sq = .torn then skipTorn n (sq + 1) else sq

/-- A committed record joins the chain (R828). -/
def chainSlot (c : List Byte × Nat) : GrnSlot → List Byte × Nat
  | .record d => (chainNext c.1 d, c.2 + 1)
  | _ => c

/-- The chain over the committed records of the lifetime area (R828). -/
def Grain.scanChain (g : Grain) : List Byte × Nat :=
  (g.areaList 0).foldl (fun c e => chainSlot c e.2) (chainSlot (List.replicate 48 0, 0) (testSlot 0))

/-- The newest BOOT in the log. -/
def Grain.newestBoot (g : Grain) : Nat := g.slots.foldl (fun m e => match e.2 with
  | .record d => max m (recBoot d)
  | _ => m) 0

/-- The code of the newest module-fatal event in the records of the newest cold start; 0 for none (R831). (DEDUCED, log 132) -/
def Grain.stopCause (g : Grain) : Nat :=
  let boot := g.newestBoot
  (g.slots.foldl (fun (m : Nat × Nat) e => match e.2 with
    | .record d =>
      if leAt d 0 2 = 0x0020 ∧ leAt d 0x1A 1 = 3 ∧ recBoot d = boot ∧ m.1 ≤ leAt d 8 8 then (leAt d 8 8, leAt d 0x18 2)
      else m
    | _ => m) (0, 0)).2

/-- The sector after the current one of a ring stands erased (R824). -/
def Grain.nextErased (g : Grain) (a : Nat) : Bool :=
  (List.range 256).all fun i => match g.slot a (g.nextSector a + i) with
    | .free => true
    | _ => false

/-- The start scan: write positions, the chain, the sectors that stand erased (R824, R828, R829). -/
def State.startScan (s : State) : State :=
  s.modGrain fun g =>
    let c := g.scanChain
    let g := { g with next := [], chain := c.1, chainN := c.2, scanned := true, retryAt := none, erased := [] }
    let g := [0, 1, 2, 3].foldl (fun h a => h.setNext a (g.scanArea a)) g
    let g := { g with erased := [1, 2, 3].foldl (fun t a => if g.nextErased a then Tab.set 0 t a (g.nextSector a + 1) else t) [] }
    { g with near := decide (98 * 786432 ≤ 100 * g.nextSeq 0), full := decide (786432 ≤ g.nextSeq 0) }

/-- The newest committed LMS state record: its TOPQ and LIMIT (R809, R810). (DEDUCED, log 101) -/
def Grain.lmsState (g : Grain) : Option (Nat × Nat) :=
  let read := fun (d : List Byte) => (leAt d 0x18 4, leAt d 0x1C 4)
  let new := (g.areaList 3).foldl (fun (m : Option (Nat × List Byte)) e => match e.2 with
    | .record d => (match m with
        | some (q, _) => if q ≤ recSeq d then some (recSeq d, d) else m
        | none => some (recSeq d, d))
    | _ => m) none
  match new with
  | some x => some (read x.2)
  | none => match g.slot 3 0 with
    | .record d => some (read d)
    | _ => none

/-- The key engine's state at a start (R805, R809 to R811): BOTQ at LIMIT; a used-up bottom tree asks for the next one.
(DEDUCED, log 102) -/
def State.startLms (s : State) : State :=
  match s.grain.lmsState with
  | none => s.modLms fun x => { x with valid := false, ready := false }
  | some (q, l) =>
    let s := s.modLms fun _ => { valid := true, topq := q, botq := l, limit := l, ready := false }
    let s := if l = 2 ^ 20 ∧ q + 1 < 2 ^ 20 then s.sendRecord 0x0080 4 0 (leBytes 4 (q + 1) ++ leBytes 4 64) else s
    if lmsLowAt ≤ q then s.signal Ev.lmsLow 0 [q] else s

/-! ### The readers (R832, R833, R835, R837) -/

def State.reader (s : State) : Inst → Reader
  | .pcie => s.man.rdPcie
  | .i3c => s.man.rdI3c
def State.setReader (i : Inst) (x : Reader) (s : State) : State :=
  match i with
  | .pcie => s.modMan fun m => { m with rdPcie := x }
  | .i3c => s.modMan fun m => { m with rdI3c := x }

/-- `n` bytes that the spec leaves open. (DESIGN CHOICE, log 99) -/
def State.openBytes : Nat → State → List Byte × State
  | 0, s => ([], s)
  | n + 1, s =>
    let d := s.draw
    let r := State.openBytes n d.2
    (BitVec.ofNat 8 d.1 :: r.1, r.2)

/-- The slot that a sequence number names is still held: its area's write position has passed it by less than a pass.
(DEDUCED, log 100) -/
def Grain.held (g : Grain) (a sq : Nat) : Bool := decide (sq < g.nextSeq a) && decide (g.nextSeq a ≤ sq + areaSlots a)

/-- The reader fetches slot SEQ of AREA into its buffer: 1 committed, 2 torn, 3 free or no longer held (R832, R837).
(DESIGN CHOICE, log 99) -/
def State.fetchSlot (i : Inst) (s : State) : State :=
  let x := s.reader i
  let a := fieldOf x.sel 63 62
  let sq := fieldOf x.sel 31 0
  let done := fun (st : Nat) (b : List Byte) (s : State) => s.setReader i { x with st := st, seq := BitVec.ofNat 32 sq, buf := b }
  if s.grain.held a sq = false then done 3 (List.replicate 256 0xFF) s
  else
    match s.grain.slot a sq with
    | .free => done 3 (List.replicate 256 0xFF) s
    | .torn =>
      let d := s.openBytes 256
      done 2 d.1 d.2
    | .record d => if recSeq d = sq then done 1 d s else done 3 (List.replicate 256 0xFF) s

/-- A write of `GRN_RSEL` (R832, R837). -/
def State.writeRsel (i : Inst) (v : Word) (s : State) : State :=
  (s.setReader i { s.reader i with sel := v &&& 0xC0000001FFFFFFFF, st := 0 }).fetchSlot i

def execGrnRselFetch (i : Inst) (value : Word) (s : State) : Out :=
  .next ((match i with
    | .pcie => s.staged Reg.grnRsel value
    | .i3c => s).writeRsel i value)

/-- With INC set, a read of `GRN_RDATA31` advances SEQ and starts the next fetch (R833). -/
def State.readLast (i : Inst) (s : State) : State :=
  let x := s.reader i
  if x.sel.getLsbD 32 then
    (s.setReader i { x with sel := withField x.sel 31 0 (fieldOf x.sel 31 0 + 1), st := 0 }).fetchSlot i
  else s

/-- `GRN_RDATA_READ`: the PCIe reader's last word is read (R833). -/
def execGrnRdataRead (s : State) : Out :=
  .next ((s.emitOut (.regData 0 (Reg.grnRdatak 31) (BitVec.ofNat 64 (leAt s.man.rdPcie.buf 248 8)))).readLast .pcie)

/-- `GRN_CTL.CLR`: DROPPED and BADSLOT (R837). -/
def execGrnCtlClr (s : State) : Out := .next (s.setField Reg.grnStat 63 32 0)

end Sys2Proof.Machine
end

