-- ==== Sys2Proof/Machine/BootOps.lean ====
section
/-!
DEFINITION. What bring-up, resets and power share: report codes, issue states and surge time, the warm reset, the state
without power (spec 12 R578, 13 R631, 16 R735 to R746, 17 R767 to R772, R785 to R788).
-/

namespace Sys2Proof.Machine

/-! ### Report codes (R768 to R770, R799, R831) -/

def State.boot (s : State) : Boot := s.man.boot

/-- The report code of a stage's result (R768). -/
def reportCode (n res : Nat) : Nat := n * 256 + res

def State.setCode (code : Nat) (s : State) : State := s.setField Reg.bootStage 63 48 code

/-- Milliseconds in the current stage. Before Tide runs, in stages 1 to 3, their number is open. -/
def State.stageMs (s : State) : Nat × State :=
  if s.boot.stage ≤ 3 then
    let d := s.draw
    (d.1 % 65536, d.2)
  else (min 65535 ((s.now - s.boot.stageAt) / 1000000), s)

/-- A stage report for the Grain log, by the boot ROM up to stage 7 and by Joinery after it (R831). -/
def State.stageRecord (code ms : Nat) (extra : List Byte) (s : State) : State :=
  s.sendRecord 0x0010 (if code / 256 ≤ 7 then 1 else 3) 0 (leBytes 2 code ++ leBytes 2 ms ++ leBytes 4 0 ++ extra)

/-- A stage begins (R768). -/
def State.beginStage (n : Nat) (s : State) : State :=
  (s.modBoot fun b => { b with stage := n, stageAt := s.now, st := .running }).setCode (reportCode n 0)

/-- The current stage posts its last code: `BOOT_STIMEk`, and its record; the records of stages 1 to 4 are written in
stage 5 (R769, R799). (DEDUCED, log 94) -/
def State.postEnd (code : Nat) (extra : List Byte) (s : State) : State :=
  let n := s.boot.stage
  let q := s.stageMs
  let s := q.2.setCode code
  let s := s.setField (Reg.bootStimek ((n - 1) / 4)) (16 * ((n - 1) % 4) + 15) (16 * ((n - 1) % 4)) q.1
  if n < 5 then s.modBoot fun b => { b with reports := b.reports ++ [(code, q.1)] }
  else
    let s := s.boot.reports.foldl (fun s r => s.stageRecord r.1 r.2 []) s
    (s.modBoot fun b => { b with reports := [] }).stageRecord code q.1 extra

/-- A stage passes, with units lost or not, or is skipped; the next one begins (R767, R768). (DEDUCED, log 94) -/
def State.passStage (res : Nat) (extra : List Byte) (s : State) : State :=
  let n := s.boot.stage
  (s.postEnd (reportCode n res) extra).beginStage (n + 1)

/-- `BOOT_FAIL` (R799). -/
def State.noteFail (code : Nat) (s : State) : State :=
  s.setReg Reg.bootFail (fld 63 48 code ||| fld 47 0 s.now)

/-- Bring-up stops at a failed stage (R770). -/
def State.failStage (code : Nat) (s : State) : State :=
  let s := (s.postEnd code []).noteFail code
  let s := s.modBoot fun b => { b with st := .failed, endAt := some s.now }
  s.signal Ev.bootStageFail 0 [code]

/-- The image is rejected with a reason and bring-up stops (R779). -/
def State.rejectImage (reason : Nat) (s : State) : State :=
  let code := reportCode s.boot.stage (0xA0 + reason)
  let s := (s.postEnd code []).noteFail code
  let s := s.modBoot fun b => { b with st := .failed, rejected := true, endAt := some s.now }
  s.signal Ev.imageReject 0 [code]

/-! ### Issue states and surge time (R734 to R737, R743) -/

/-- The issue states of `SIL_PWRSTAT.ISSUE` (R734, R764). -/
inductive Issue where
  | off | halted | braked | nominal | surge
deriving DecidableEq, Repr

def Issue.code : Issue → Nat
  | .off => 0
  | .halted => 1
  | .braked => 2
  | .nominal => 3
  | .surge => 4

/-- The divider of a bay's half (R681). -/
def State.bayDiv (s : State) (b : Nat) : Nat := if bayEast b then s.phys.clock.ecur else s.phys.clock.wcur

/-- The power block permits the bay's half to surge (R737). -/
def State.surgeOk (s : State) (b : Nat) : Bool := (s.reg Reg.pwrSurge).getLsbD (if bayEast b then 1 else 0)

/-- The issue state of a bay: the first row of R736 that applies. -/
def State.issueState (s : State) (b : Nat) : Issue :=
  let x := s.bay b
  if x.supply ≠ .on then .off
  else if s.phys.power.halted then .halted
  else if x.braked then .braked
  else if s.bayDiv b ≠ 10 then .nominal
  else if (s.reg (Reg.silPwrcfg b)).getLsbD 0 || !s.surgeOk b || x.stepped || x.refused || x.hot then .nominal
  else .surge

/-- Keep a bay's surge time: it begins, or it ends and is counted in the current hour (R743). -/
def State.settleBay (b : Nat) (s : State) : State :=
  let x := s.bay b
  match x.surgeAt with
  | none => if s.issueState b = .surge then s.setBay b { x with surgeAt := some s.now } else s
  | some t => if s.issueState b = .surge then s else s.setBay b { x with surgeAt := none, hour := x.hour + (s.now - t) / 1000 }

/-- After a change of what issue states depend on, every bay's surge time is kept. -/
def State.settleIssue (s : State) : State := (List.range 84).foldl (fun s b => s.settleBay b) s

/-- Microseconds in SURGE in the current hour (R764). -/
def State.surgeHour (s : State) (b : Nat) : Nat :=
  let x := s.bay b
  x.hour + (match x.surgeAt with
    | some t => (s.now - t) / 1000
    | none => 0)

/-- The microseconds of a powered hour. -/
def hourUs : Nat := 3600000000

/-- The sum of the window's buckets: 719 complete hours and the current one (R743, R744). (DEDUCED, log 88) -/
def State.wearSum (s : State) (b : Nat) : Nat := (s.bay b).wear.foldl (fun t w => t + w.1) 0 + s.surgeHour b

/-- The wear average in units of 0.01% (R744, R764). -/
def State.wearAvg (s : State) (b : Nat) : Nat := 10000 * s.wearSum b / (720 * hourUs)

/-! ### Losses of rim blocks and FAULT_N (R57, R861) -/

/-- The PCIe link falls; what it shows of its state until it is back is open. -/
def State.pcieDown (s : State) : State :=
  let d := s.draw
  d.2.modHost fun h => { h with pcie := { h.pcie with up := false, ltssm := BitVec.ofNat 8 d.1, width := 0, rate := 0, flit := false } }

/-! ### The warm reset (R578, R586, R631, R785 to R788, R818, R829) -/

/-- A register that a warm reset keeps: all but the blocks of the functions, the partitions and the Joiner pairs, the
partition regions of HBM, `STL_RATECAP`, and `BOOT_` beside `BOOT_CFG`, `BOOT_IMGADDR` and `BOOT_IMGLEN`
(R578, R631, R786, R787). (DEDUCED, log 69) -/
def warmKept (a : Nat) : Bool :=
  if a < 0x8000 then true
  else if a < 0x10000 then decide (a = Reg.bootCfg) || decide (a = Reg.bootImgaddr) || decide (a = Reg.bootImglen)
  else if a < 0x40000 then true
  else if a < 0x60000 then false
  else if a < 0xA00000 then decide (a ≠ Reg.stlRatecap)
  else if a < 0x1000000 then !(decide (0x80 ≤ a % 0x10000) && decide (a % 0x10000 < 0xC0))
  else false

/-- Every request for a report in progress fails with reason 2 (R818). -/
def Attest.cut (x : Attest) : Attest := if x.st = 1 ∨ x.st = 2 then { x with st := 4, reason := 2 } else x

/-- The functions return to their reset values; events held for their streams stay (R586, R631). -/
def State.resetFuncs (s : State) : State :=
  s.modHost fun h => { h with
    funcs := Tab.mapVals Func.reset (fun _ x => { Func.reset with events := x.events, lost := x.lost }) h.funcs, keys := [] }

/-- Every partition ends: its compute is reset, its staged updates completed or discarded (R416, R579, R631). -/
def State.endPartitions (s : State) : State :=
  let s := (List.range 24).foldl (fun s e => s.ringScan e) s
  let s := (List.range 8).foldl (fun s i => if s.partExists (i + 1) then s.computeReset (i + 1) else s) s
  let s := (List.range 9).foldl (fun s p => s.forgetRange p) s
  { s with comp := { s.comp with parts := [], flumes := [], net := [], fresh := [], pubs := s.comp.pubs.map Pub.silence } }

/-- Every tile that has supply moves to RESET (R631, R870). -/
def State.resetWafer (s : State) : State :=
  (List.range 84).foldl (fun s b => if (s.bay b).supply = .on then s.modBayTiles b fun _ x => x.toReset else s) s

/-- Every Joiner pair is reset; a stopped pair stays out of service (R466, R578). -/
def State.resetPairs (s : State) : State :=
  s.modMan fun m => { m with
    pairs := Tab.mapVals Pair.reset (fun _ x => { Pair.reset with stopped := x.stopped }) m.pairs
    cores := m.cores.map fun kc => (kc.1, { JnrCore.reset with held := kc.2.held })
    basins := [], ports := [] }

/-- The array voltage of a divider's operating point, in millivolts (R732). -/
def arrayVolts (d : Nat) : Nat := if d ≤ 10 then 800 else if d = 11 then 760 else 720

/-- The bays of a half whose array supply is on. -/
def State.arraysOn (s : State) (east : Bool) : List Nat :=
  (List.range 84).filter fun b => decide (bayEast b = east) && decide ((s.bay b).supply = .on)

/-- Every powered bay of a half is at `v` millivolts (R732). -/
def State.setArrays (east : Bool) (v : Nat) (s : State) : State :=
  (s.arraysOn east).foldl (fun s b => s.modBay b fun x => { x with volts := v }) s

/-- The time in which the slowest regulator of a half reaches `v` millivolts, at 40 mV/µs (R733). -/
def State.slewNs (s : State) (east : Bool) (v : Nat) : Nat :=
  (s.arraysOn east).foldl (fun m b => max m ((v - (s.bay b).volts) * 25)) 0

/-- The dividers return to ÷12, and the array voltages follow them (R701, R732). -/
def State.resetDividers (s : State) : State :=
  ((s.setReg Reg.clkHdiv 0x0C0C).modClock fun c =>
    { c with wcur := 12, ecur := 12, changing := false, wchg := false, echg := false }).setArrays false (arrayVolts 12)
    |>.setArrays true (arrayVolts 12)

/-- Bring-up begins again at stage 5 (R767, R788). -/
def State.restartBoot (s : State) : State :=
  let s := s.modBoot fun b => { b with
    st := .running, beganAt := s.now, endAt := none, rejected := false, image := none, running := none, liveImage := none
    reports := [], preMs := 0, asked := 0 }
  (s.beginStage 5).setField Reg.bootStage 31 30 1

/-- A warm reset; one requested during stages 1 to 4 is absorbed (R788). (DEDUCED, log 69) -/
def State.warmReset (s : State) : State :=
  if s.boot.stage < 5 then s
  else
    let s := s.resetFuncs.endPartitions.resetWafer.resetPairs
    let s := s.resetRegs warmKept
    let s := { s with comp := { s.comp with
      stackTab := Tab.mapVals Stack.reset (fun _ x => { x with up := false }) s.comp.stackTab } }
    let s := s.modMan fun m => { m with attPcie := m.attPcie.cut, attI3c := m.attI3c.cut, attQueue := [] }
    s.resetDividers.restartBoot.startScan.settleIssue

/-! ### Without power (R433, R553 to R555, R722) -/

/-- The state without supply: what the fuses, the Grain log and the straps hold stays; everything else is at its reset
value (R111, R722). Tide stands still. -/
def State.unpowered (latched : Bool) (s : State) : State :=
  let r := State.reset
  { r with
    pending := s.pending, tide := s.tide, out := s.out, free := s.free
    comp := { r.comp with fences := s.committedFences, hosts := s.committedHosts }
    man := { r.man with
      fuses := s.man.fuses, lms := { s.man.lms with ready := false }
      grain := { s.man.grain with queue := [], waiting := [], retryAt := none, scanned := false, dropAt := none }
      boot := { r.man.boot with rebuilt := s.man.boot.rebuilt, voids := s.man.boot.voids, grade := s.man.boot.grade,
                                perst := s.man.boot.perst }
      pins := { r.man.pins with i3cAddr := s.man.pins.i3cAddr } }
    phys := { r.phys with
      power := { r.phys.power with latched := latched, haltPin := s.phys.power.haltPin }
      clock := { r.phys.clock with settle := s.phys.clock.settle } } }

/-- The bucket of a bay's powered hour in the Grain log, when its record is there and its check matches (R746). -/
def Grain.bucket (g : Grain) (b h : Nat) : Option Nat :=
  let hit := (g.areaList 2).find? fun e => match e.2 with
    | .record d => decide (leAt d 0 2 = 0x0070) && decide (leAt d 0x18 4 = b) && decide (leAt d 0x1C 4 = h)
    | _ => false
  match hit with
  | some (_, .record d) =>
    let us := leAt d 0x20 8
    if BitVec.ofNat 64 (leAt d 0x28 8) = Config.sillCheck b h us then some us else none
  | _ => if h < 720 ∧ (g.areaList 2).all (fun e => decide (e.1 ≠ 966656 + h * 84 + b)) then some 0 else none

/-- The powered hour that follows a bay's newest bucket. -/
def Grain.nextHour (g : Grain) (b : Nat) : Nat :=
  (g.areaList 2).foldl (fun m e => match e.2 with
    | .record d => if leAt d 0 2 = 0x0070 ∧ leAt d 0x18 4 = b then max m (leAt d 0x1C 4 + 1) else m
    | _ => m) 720

/-- The Sill controller reads its buckets back; a missing one counts as 10% of its hour (R746). (DESIGN CHOICE, log 92) -/
def State.readBuckets (b : Nat) (s : State) : State :=
  let h := s.grain.nextHour b
  let w := (List.range 719).map fun i => match s.grain.bucket b (h - 719 + i) with
    | some us => (us, false)
    | none => (hourUs / 10, true)
  s.setBay b { s.bay b with wear := w, hourIdx := h, missing := w.countP fun x => x.2 }

end Sys2Proof.Machine
end

