-- ==== Sys2Proof/Machine/Resets.lean ====
section
/-!
DEFINITION. Function Level Resets, hot reset, PERST#, and the PCIe link going down and up (spec 13_host R584 to R586,
R594, R628 to R631; 19_module R865 to R868).
-/

namespace Sys2Proof.Machine

/-- A register of the `HST_` block of function `f` (R632). -/
def isHstReg (f a : Nat) : Bool := decide (Reg.hst f ≤ a) && decide (a < Reg.hst f + 0x58)

/-- A log of function `f` is disabled (R629). -/
def State.disableLog (f : Nat) (k : LogKind) (s : State) : State := s.setField (logCfg f k) (logEnBit k) (logEnBit k) 0

/-- The function's registers, slots, MSI-X state and configuration return to reset; its count of resets goes on
(R629, R630, R632). (DEDUCED, log 70) -/
def State.resetFunction (f : Nat) (s : State) : State :=
  let n := s.field (Reg.hstFuncstat f) 63 48
  let x := s.func f
  let s := s.resetRegs fun a => !isHstReg f a
  let s := s.setFunc f { Func.reset with events := x.events, lost := x.lost }
  s.setField (Reg.hstFuncstat f) 63 48 (min (n + 1) 0xFFFF)

/-- A pair named by a stall discards its waiting send, and all its duties restart (R473, R578). -/
def State.unstall (p : Nat) (s : State) : State :=
  (List.range 48).foldl (fun s j =>
    let d := (s.pair j).duties
    if (d.getLsbD p || d.getLsbD (8 + p) || d.getLsbD (16 + p)) then
      let stuck := (setBits 48 (s.pair j).adopted.toNat).filter fun k => match (s.sport (pairEp k)).waiting with
        | some w => w.reported
        | none => false
      if stuck = [] then s
      else (stuck.foldl (fun s k => s.setSport (pairEp k) { s.sport (pairEp k) with waiting := none }) s).restartDuties d
    else s) s

/-- `FUNCTION_LEVEL_RESET` of PFp, p = 1 to 8 (R578, R628, R629): the logs are disabled first, so that no entry is written
into them. -/
def execFunctionLevelReset (f : Nat) (s : State) : Out :=
  .next (
    if f = 0 ∨ 8 < f then s
    else
      let s := (s.disableLog f .completion).disableLog f .event
      let s := if s.partExists f then s.computeReset f else s
      let s := (s.resetFunction f).unstall f
      s.signal Ev.hstFlr f [f])

/-- `PF0_FLR` (R630): every DMA window, rate cap, key slot and partition is kept. -/
def execPf0Flr (s : State) : Out :=
  .next (
    let s := (s.disableLog 0 .completion).disableLog 0 .event
    (s.resetFunction 0).signal Ev.hstFlr 0 [0])

/-- `HOT_RESET`: received over the link, it takes the link down and causes a warm reset (R586). -/
def execHotReset (s : State) : Out :=
  .next (if s.host.pcie.up then s.pcieDown.warmReset else s)

/-- `PERST_ASSERT`: the PCIe controller is held in reset and the link is down; a warm reset, absorbed during stages 1 to 4
(R586, R788, R865). -/
def execPerstAssert (s : State) : Out :=
  .next (
    if s.boot.perst then s
    else
      let s := s.modBoot fun b => { b with perst := true }
      if s.segUp 0 then s.pcieDown.warmReset else s)

/-- `PERST_DEASSERT`: the PCIe controller is released and bring-up proceeds from the start of stage 5 (R865). -/
def execPerstDeassert (s : State) : Out :=
  .next (s.modBoot fun b => { b with perst := false, stageAt := if b.perst ∧ b.stage = 5 then s.now else b.stageAt })

/-- `HST_LINK_DOWN`: DL_Down is reported and recorded, and the same warm reset follows; the event appears in PF0's log once
the link is back (R586). -/
def execHstLinkDown (s : State) : Out :=
  .next (if s.host.pcie.up then s.pcieDown.warmReset.signal Ev.hstLinkDown 0 [] else s)

/-- Widths and rates of a trained link (R584, R633). (DESIGN CHOICE, log 68) -/
def linkWidths : List Nat := [1, 2, 4, 8, 16]
/-- Rates of a trained link, in GT/s, rounded down. (DESIGN CHOICE, log 68) -/
def linkRates : List Nat := [2, 5, 8, 16, 32, 64, 128]

/-- Entries that waited for the link are written, function by function (R586, R606, R620). -/
def State.flushHost (s : State) : State :=
  funcs.foldl (fun s f =>
    let s := s.flushCompletions f (s.func f).waiting.length
    s.flushEvents f (s.func f).events.length) s

/-- `PCIE_LINK_UP`: the link reaches L0 at a width and a rate that the partner decides (R584, R586, R594).
(DESIGN CHOICE, log 68) -/
def execPcieLinkUp (s : State) : Out :=
  .next (
    if s.host.pcie.up ∨ s.boot.perst ∨ s.segUp 0 = false then s
    else
      let w := s.draw
      let r := w.2.draw
      let m := r.2.draw
      let l := m.2.draw
      let s := l.2.modHost fun h => { h with pcie := {
        up := true, ltssm := BitVec.ofNat 8 l.1, width := linkWidths.getD (w.1 % 5) 16, rate := linkRates.getD (r.1 % 7) 128
        flit := decide (m.1 % 2 = 1), everUp := true } }
      s.flushHost)

end Sys2Proof.Machine
end

