-- ==== Sys2Proof/Machine/Power.lean ====
section
/-!
DEFINITION. The feed, supplies, surge, thermal limits, HALT_N and margins (spec 16_power R718 to R764; 12 R566, R731;
17 R767 to R769).
-/

namespace Sys2Proof

/-- The causes of `SIL_PWRSTAT.FCAUSE` (R764). -/
def FuseCause.code : FuseCause → Nat
  | .overcurrent => 1
  | .undervoltage => 2
  | .sillSupply => 3
  | .thermalTrip => 4
  | .powerGood => 5

end Sys2Proof

namespace Sys2Proof.Machine

/-! ### Loss of bays and rim segments (R57 to R59, R730, R731) -/

/-- A bay's array fuse opens: reported with its cause and counted, and the bay is lost (R566, R726, R730, R764). -/
def State.openBay (b : Nat) (c : FuseCause) (s : State) : State :=
  let s := if c = .sillSupply then s.modBay b fun x => { x with sill := false } else s
  let s := s.setField (Reg.silPwrstat b) 19 16 c.code
  let s := s.bump Reg.pwrCnt 47 32 1
  let s := s.signal Ev.pwrBayFuse (s.bayOwner b) [b, c.code]
  (s.loseBay b Ev.pwrBayFuse.code.toNat).settleBay b

/-- The flumes of a rim segment that partition `p` owns (R622). -/
def State.flumesIn (s : State) (p n : Nat) : List Nat :=
  (List.range 32).filter fun f => decide (3 * f / 4 = n) && decide (s.flumeOwner f = p)

/-- Each partition that held a region or a flume in the segment stops (R58, R731): 1 region, 2 flume, 3 both. -/
def State.segParts (n : Nat) (s : State) : State :=
  (List.range 8).foldl (fun s i =>
    let p := i + 1
    let k := flag (s.hbmRegion p n).isSome + 2 * flag (s.flumesIn p n ≠ [])
    if s.partExists p ∧ k ≠ 0 then s.signal Ev.rimSegPartLost p [p, n, k] else s) s

/-- The blocks of rim segment `n` are lost: its stack and engine, its ports, its Joiner cluster (R50, R57).
(DEDUCED, log 106) -/
def State.darkSegment (n : Nat) (s : State) : State :=
  let s := s.modPower fun w => { w with segs := w.segs &&& ~~~((1 : BitVec 24) <<< n) }
  let s := { s with comp := { s.comp with hbm := s.comp.hbm.filter fun c => decide (c.1 / 2 ^ 37 ≠ n) } }
  let s := (s.setStack n Stack.reset).setEngine n Engine.reset
  let s := s.modBoot fun b => { b with copies := b.copies.filter fun k => decide (k ≠ n) }
  let s := (List.range 32).foldl (fun s p => if 3 * p / 4 = n then
    (s.setStlp p { StlPort.reset with st := .off, lastFlit := s.now }).setField (Reg.stlPstat p) 26 24 6 else s) s
  if n % 2 = 0 then
    (List.range 4).foldl (fun s p =>
      let k := n / 2 * 4 + p
      let s := s.resetCores k true
      if (s.pair k).duties = 0 ∧ (s.pair k).adopted = 0 then s else s.takeover k) s
  else s

/-- The whole module has lost its root: PCIe, the root PLL and the boot ROM went with segment 0 (R57, R731). -/
def State.loseRoot (s : State) : State :=
  let s := s.pcieDown.modClock fun c => { c with rootLock := false, holdSince := none }
  s.modBoot fun b => { b with fatalSince := true, faultPin := true }

/-- A rim segment is lost; the loss of segment 0 is module-fatal, and no event of it can be delivered; THERM_N is
released (R57, R58, R731, R862). (DEDUCED, log 133) -/
def State.loseSegment (n : Nat) (s : State) : State :=
  let s := s.darkSegment n
  if n = 0 then s.loseRoot.modPins (fun p => { p with thermN := true }) else (s.signal Ev.rimSegLost 0 [n]).segParts n

/-- `RIM_SEG_LOST`: the segment's fuse opens (R731). -/
def execRimSegLost (n : Nat) (s : State) : Out :=
  .next (if s.segUp n = false ∨ 24 ≤ n then s else (s.bump Reg.pwrCnt 47 32 1).loseSegment n)

/-- `PWR_BAY_FUSE` (R730). A sill supply that fails while the array fuse is open takes the Sill controller with it (R57). -/
def execPwrBayFuse (b : Nat) (cause : FuseCause) (s : State) : Out :=
  .next (if (s.bay b).supply = .on ∨ (s.bay b).supply = .ramping then s.openBay b cause
    else if cause = .sillSupply ∧ b < 84 then s.modBay b fun x => { x with sill := false }
    else s)

/-! ### The feed (R719 to R722) -/

/-- `FEED_FAULT`: every array fuse opens; the writer commits the event's record from the bulk capacitance; every supply is
latched off (R720, R721). (DEDUCED, log 87) -/
def execFeedFault (s : State) : Out :=
  .next (
    if s.phys.power.feed = false then s
    else
      let e : Event := { code := Ev.feedFault.code, sev := Ev.feedFault.sev, part := 0, tide := s.tide, ops := [] }
      let r : GrnRec := { type := 0x0020, srck := 3, srci := 0, tide := s.tide, body := padTo 216 (eventBody e) }
      let s := if s.writerRuns then s.commitRecordTo (s.grain.areaFor r) r else s
      s.unpowered true)

/-! ### The start of the supplies (R719, R724 to R729, R746, R767) -/

/-- Fences at a cold start: the current test failures are gone, and a withdrawn entry leaves the field list (R554, R555).
(DEDUCED, log 63) -/
def Fence.atColdStart (e : Fence) : Fence := { e with test := false, field := e.field && !e.withdrawn, withdrawn := false }

/-- `COLD_START`: the feed has stayed above 44 V for 10 ms; stage 1 begins, the writer scans the log, the buckets are read
back (R719, R746, R767, R809, R811, R829). (DEDUCED, log 82; DESIGN CHOICE, log 86; DEDUCED, log 132) -/
def execColdStart (s : State) : Out :=
  .next (
    if s.phys.power.feed then s
    else
      let s := s.unpowered false
      let s := { s with tide := 0, comp := { s.comp with
        fences := (s.comp.fences.map Fence.atColdStart).filter fun e => e.fuse || e.field } }
      let s := s.modPower fun w => { w with feed := true }
      let s := s.startScan
      let cause := s.grain.stopCause
      let s := s.modGrain fun g => { g with boots := g.newestBoot + 1 }
      let s := s.sendRecord 0x0002 0 0 (leBytes 1 s.phys.clock.settle.toNat ++ leBytes 1 s.phys.clock.src ++ leBytes 2 cause)
      let s := (List.range 84).foldl (fun s b => s.readBuckets b) s
      let s := s.startLms
      (s.modBoot fun b => { b with beganAt := 0 }).beginStage 1)

/-- Rim power is good: every sill supply is on and FAULT_N is released; stage 2 begins (R724, R861). -/
def State.rimGood (res : Nat) (s : State) : State :=
  let s := (List.range 84).foldl (fun s b => s.modBay b fun x => { x with sill := true }) s
  let s := s.modBoot fun b => { b with faultPin := b.fatalSince }
  s.passStage res []

/-- `RIM_SEG_POWER_STEP`: segment `n` in its slot of 500 µs; one that does not report power good is left off, and without
segment 0 the module does not start (R724, R728). -/
def execRimSegPowerStep (n : Nat) (good : Bool) (s : State) : Out :=
  .next (
    let w := s.phys.power
    if w.feed = false ∨ s.boot.stage ≠ 1 ∨ n ≠ w.segSlot ∨ 24 ≤ n ∨ (n ≠ 0 ∧ s.segUp 0 = false) then s
    else
      let s := s.modPower fun w => { w with segSlot := n + 1, segs := if good then w.segs ||| ((1 : BitVec 24) <<< n) else w.segs }
      let s := if good ∨ n = 0 then s else s.signal Ev.rimSegLost 0 [n]
      if n = 23 then s.rimGood (if s.phys.power.segs = 0xFFFFFF then 0x01 else 0x02) else s)

/-- The bay powered in step `i` of the array sequence (R725). -/
def slotBay (i : Nat) : Nat := i / 2 / 6 * 12 + i / 2 % 6 + 6 * (i % 2)

/-- `SIL_PWRCTL.CLR`: DROOPS is cleared; VMIN restarts from the array voltage and SLACK from the canaries' present reading,
which is open (R764). (DESIGN CHOICE, log 91) -/
def State.clearMargin (b : Nat) (s : State) : State :=
  let k := s.draw
  k.2.modBay b fun x => { x with droops := 0, vmin := x.volts, slack := BitVec.ofNat 16 k.1 }

/-- A powered bay is at 0.72 V (R726). Its tiles are in RESET, with contents that are undefined (R111, R151); its routers are new. -/
def State.powerBay (b : Nat) (s : State) : State :=
  let x := { Tile.reset with s := { TileSeq.reset with seq := .reset } }
  let s := s.modBay b fun y => { y with supply := .on, volts := 720, base := x, rbase := Router.reset, hourAt := s.now }
  { s with comp := { s.comp with
    tiles := s.comp.tiles.filter fun kt => decide (kt.1 / 12288 ≠ b)
    routers := s.comp.routers.filter fun kr => decide (kr.1 / 12288 ≠ b) } }

/-- `BAY_POWER_STEP`: in its slot the bay's array ramps, or its fuse opens again and the bay is fenced (R725, R726). -/
def execBayPowerStep (b : Nat) (good : Bool) (s : State) : Out :=
  .next (
    let i := s.phys.power.baySlot
    if s.boot.stage ≠ 2 ∨ 84 ≤ i ∨ b ≠ slotBay i then s
    else
      let s := s.modPower fun w => { w with baySlot := i + 1 }
      let s := if good then (s.powerBay b).clearMargin b else s.openBay b .powerGood
      if i = 83 then
        s.passStage (if (List.range 84).all (fun b => decide ((s.bay b).supply = .on)) then 0x01 else 0x02) []
      else s)

/-! ### Draw limit and step-down (R738 to R741) -/

/-- The overload bucket, in tenths of a microsecond, up to the present: it fills by 1 µs for each microsecond above 30 kW
and drains by 0.1 µs for each other one (R738). -/
def Power.bucketNow (now : Nat) (w : Power) : Nat :=
  let us := (now - w.bucketAt) / 1000
  if 30000 < w.draw then w.bucket + 10 * us else w.bucket - us

/-- A new reading of the draw, in watts: the bucket is kept, the peak noted, and the time of a low draw (R738, R740,
R763). -/
def State.setDraw (d : Nat) (s : State) : State :=
  let s := s.modPower fun w => { w with
    bucket := w.bucketNow s.now, bucketAt := s.now, draw := d
    lowSince := if d ≤ 29000 then some (w.lowSince.getD s.now) else none }
  s.setField Reg.pwrExc 63 32 (max (s.field Reg.pwrExc 63 32) (d / 10))

/-- The SURGE bay that a step-down takes next: the highest wear average, the lower number on a tie (R739). -/
def State.nextHeld (s : State) : Option Nat :=
  ((List.range 84).filter fun b => decide (s.issueState b = .surge)).foldl (fun m b => match m with
    | none => some b
    | some a => if s.wearSum a < s.wearSum b then some b else some a) none

/-- One SURGE bay is held at NOMINAL. -/
def State.holdNext (s : State) : State :=
  match s.nextHeld with
  | none => s
  | some b =>
    let s := (s.modBay b fun x => { x with stepped := true }).settleBay b
    s.modPower fun w => { w with heldBays := w.heldBays ++ [b] }

/-- The step-down ends and is reported with the draw at its start and the bays it held (R739). -/
def State.endStepdown (s : State) : State :=
  let w := s.phys.power
  (s.modPower fun w => { w with stepping := false }).signal Ev.surgeStepdown 0 [w.stepDraw, w.heldBays.length]

/-- `SURGE_STEPDOWN`: the draw exceeds 36 kW, or the bucket reaches 199 ms; the first bay is held (R739). -/
def execSurgeStepdown (draw : Nat) (s : State) : Out :=
  .next (
    let s := s.setDraw draw
    if s.phys.power.stepping ∨ draw ≤ 30000 then s
    else
      let left := (1990000 - s.phys.power.bucket) / 10
      let s := if draw ≤ 36000 then (s.passTo (s.now + left * 1000)).setDraw draw else s
      let s := (s.modPower fun w => { w with stepping := true, stepDraw := draw }).bump Reg.pwrCnt 63 48 1
      s.holdNext)

/-- `STEPDOWN_STEP`: 10 µs on, the draw is 30 kW or less and the step-down ends, or one more bay is held (R739). -/
def execStepdownStep (draw : Nat) (s : State) : Out :=
  .next (
    if s.phys.power.stepping = false then s
    else
      let s := (s.pass 10000).setDraw draw
      if draw ≤ 30000 ∨ s.nextHeld = none then s.endStepdown else s.holdNext)

/-- `STEPDOWN_RELEASE`: with the bucket empty and the draw at 29 kW or less for 1 ms, the bay held last is released; the
next ones follow every 10 µs (R740). -/
def execStepdownRelease (draw : Nat) (s : State) : Out :=
  .next (
    let s := s.setDraw draw
    let w := s.phys.power
    match w.lowSince, w.heldBays.getLast? with
    | some t, some b =>
      if w.stepping then s
      else
        let ready := max (t + 1000000) (s.now + w.bucket * 1000)
        let s := if s.now < ready then s.passTo ready else s.pass 10000
        let s := s.setDraw draw
        let s := s.modPower fun w => { w with heldBays := w.heldBays.dropLast }
        (s.modBay b fun x => { x with stepped := false }).settleBay b
    | _, _ => s)

/-! ### The wear budget (R743 to R747) -/

/-- `SURGE_WEAR_EVAL`: at 10% surge is refused, below 8% it is permitted again (R744, R745). -/
def execSurgeWearEval (b : Nat) (s : State) : Out :=
  .next (
    let sum := s.wearSum b
    let full := 720 * hourUs
    if (s.bay b).sill = false then s
    else if (s.bay b).refused = false ∧ full ≤ 10 * sum then
      ((s.modBay b fun x => { x with refused := true }).settleBay b).signal Ev.surgeRefused 0 [b, s.wearAvg b]
    else if (s.bay b).refused = true ∧ 100 * sum < 8 * full then
      (s.modBay b fun x => { x with refused := false }).settleBay b
    else s)

/-- `SURGE_HOUR_END`: the hour's bucket goes to the Grain log with its keyed check, and the window moves on (R743, R746). -/
def execSurgeHourEnd (b : Nat) (s : State) : Out :=
  .next (
    if (s.bay b).sill = false then s
    else
      let s := s.passTo ((s.bay b).hourAt + hourNs)
      let us := s.surgeHour b
      let x := s.bay b
      let s := s.sendRecord 0x0070 2 b (bucketRec b x.hourIdx us s.now).body
      let gone := match x.wear with
        | (_, true) :: _ => 1
        | _ => 0
      s.setBay b { x with
        wear := x.wear.drop 1 ++ [(us, false)], missing := x.missing - gone, hour := 0, hourIdx := x.hourIdx + 1, hourAt := s.now
        surgeAt := x.surgeAt.map fun _ => s.now })

/-! ### Thermal limits (R748 to R754) -/

/-- A sensor reads above 95 °C somewhere, as the last readings say (R754). -/
def State.anyHot (s : State) : Bool :=
  s.phys.bays.any (fun kb => decide (95 < kb.2.temp)) || s.phys.power.segTemp.any fun kt => decide (95 < kt.2)

/-- THERM_N: low while a sensor reads above 95 °C, and after any trip until the next cold start; released without the supply
of segment 0 (R754, R857, R862). (DEDUCED, log 133) -/
def State.drawTherm (s : State) : State := s.modPins fun p => { p with thermN := !(s.segUp 0 && (s.anyHot || s.phys.power.trips)) }

/-- `THERM_SAMPLE` of a bay: held out of SURGE above 95 °C, reported once per excursion (R748, R749, R751).
(DEDUCED, log 90) -/
def State.sampleBay (b t : Nat) (s : State) : State :=
  let x := s.bay b
  let cool := if t < 90 then some (x.coolAt.getD s.now) else none
  let s := s.setBay b { x with temp := t, coolAt := cool }
  if 95 < t ∧ x.hot = false then
    let s := s.modBay b fun x => { x with hot := true, hotAt := s.now }
    ((s.bump Reg.pwrCnt 31 16 1).signal Ev.thermHigh (s.bayOwner b) [b, t]).settleBay b
  else s

/-- `THERM_SAMPLE` of a rim segment: its excursion ends at a reading of 95 °C or less (R753). -/
def State.sampleSeg (n t : Nat) (s : State) : State :=
  let hot := s.phys.power.segHot.getLsbD n
  let s := s.modPower fun w => { w with
    segTemp := Tab.set 0 w.segTemp n t, segHot := if 95 < t then w.segHot ||| ((1 : BitVec 24) <<< n) else w.segHot &&& ~~~((1 : BitVec 24) <<< n) }
  if 95 < t ∧ hot = false then (s.bump Reg.pwrCnt 31 16 1).signal Ev.thermHigh 0 [84 + n, t] else s

def execThermSample (u : ThermUnit) (readings : List Nat) (s : State) : Out :=
  .next (
    let t := readings.foldl max 0
    match u with
    | .bay b => if (s.bay b).sill then (s.sampleBay b t).drawTherm else s
    | .segment n => if s.segUp n then (s.sampleSeg n t).drawTherm else s)

/-- `THERM_BRAKE`: still above 95 °C 1 ms after THERM_HIGH (R750). -/
def execThermBrake (b : Nat) (s : State) : Out :=
  .next (
    let x := s.bay b
    if x.hot = false ∨ x.braked ∨ x.temp ≤ 95 then s
    else ((s.passTo (x.hotAt + 1000000)).modBay b fun x => { x with braked := true }).settleBay b)

/-- `THERM_RELEASE`: below 90 °C for 10 ms (R751). (DEDUCED, log 90) -/
def execThermRelease (b : Nat) (s : State) : Out :=
  .next (
    let x := s.bay b
    match x.coolAt with
    | some t =>
      if x.hot ∨ x.braked then
        ((s.passTo (t + 10000000)).modBay b fun x => { x with hot := false, braked := false, coolAt := none }).settleBay b
      else s
    | none => s)

/-- `THERM_TRIP`: an analog comparator opens the unit's fuse (R752, R754). -/
def execThermTrip (u : ThermUnit) (s : State) : Out :=
  .next (
    let trip := fun (part : Nat) (op : Nat) (s : State) =>
      ((s.modPower fun w => { w with trips := true }).drawTherm).signal Ev.thermTrip part [op]
    match u with
    | .bay b => if (s.bay b).supply = .on then (trip (s.bayOwner b) b s).openBay b .thermalTrip else s
    | .segment n => if s.segUp n ∧ n < 24 then (trip 0 (84 + n) s |>.bump Reg.pwrCnt 47 32 1).loseSegment n else s)

/-! ### Margins (R762, R764, R831) -/

/-- The droops counted, the lowest voltage and the smallest slack seen since the last sample are open (R762).
(DESIGN CHOICE, log 91) -/
def State.sampleMargin (b : Nat) (s : State) : State :=
  let v := s.draw
  let k := v.2.draw
  let d := k.2.draw
  d.2.modBay b fun x => { x with
    droops := BitVec.ofNat 16 (min 0xFFFF (x.droops.toNat + d.1)), vmin := min x.vmin v.1
    slack := if (BitVec.ofNat 16 k.1).toInt < x.slack.toInt then BitVec.ofNat 16 k.1 else x.slack }

/-- `MARGIN_RECORD`: the bay's margin readings, issue state and reading go to the Grain log (R762, R831). -/
def execMarginRecord (b : Nat) (s : State) : Out :=
  .next (
    if (s.bay b).sill = false then s
    else
      let s := s.sampleMargin b
      let x := s.bay b
      s.sendRecord 0x0050 2 b (leBytes 2 0 ++ leBytes 2 x.slack.toNat ++ leBytes 2 x.vmin ++ leBytes 2 x.droops.toNat ++
        leBytes 1 (s.issueState b).code ++ leBytes 1 x.temp))

/-- `SIL_PWRCTL_CLR` (R764). -/
def execSilPwrctlClr (b : Nat) (s : State) : Out := .next (s.clearMargin b)

/-! ### HALT_N (R755 to R761, R865) -/

/-- `HALT_N`: held low for 1 µs; a fall while the module is halted has no effect (R755, R758, R865). -/
def execHaltN (s : State) : Out :=
  .next (
    let s := s.modPower fun w => { w with haltPin := false }
    if s.phys.power.halted ∨ s.segUp 0 = false then s
    else
      let s := s.modPower fun w => { w with halted := true, haltAt := s.now }
      ((s.bump Reg.pwrCnt 15 0 1).signal Ev.haltAsserted 0 []).settleIssue)

/-- `HALT_N_RELEASE` (R759). -/
def execHaltNRelease (s : State) : Out := .next (s.modPower fun w => { w with haltPin := true })

/-- A stall age that was running when the module halted did not advance (R184). -/
def Tile.shiftStall (d : Nat) (x : Tile) : Tile := { x with s := { x.s with stallSince := x.s.stallSince.map fun a => a + d } }

/-- The time in which the module was halted counts toward no limit of R509 and R671 (R760), and toward no stall age (R184). -/
def State.shiftLimits (d : Nat) (s : State) : State :=
  { s with comp := { s.comp with
    tiles := s.comp.tiles.map fun kt => (kt.1, kt.2.shiftStall d)
    parts := Tab.mapVals Part.reset (fun _ x => { x with
    run := { x.run with weirs := Tab.mapVals Weir.reset (fun _ w =>
      if w.arrived = [] then w else { w with firstAt := w.firstAt + d }) x.run.weirs }
    puts := Tab.mapVals Put.reset (fun _ e =>
      if e.status = .sending ∨ e.status = .held then { e with startAt := e.startAt + d } else e) x.puts }) s.comp.parts } }

/-- `PWR_HALT.RESUME`: accepted while HALT_N is high; every tile and engine goes on, and the chunks that waited leave (R756, R759). -/
def State.resumeModule (s : State) : State :=
  let w := s.phys.power
  if w.halted = false ∨ w.haltPin = false then s
  else ((s.modPower fun w => { w with halted := false }).shiftLimits (s.now - w.haltAt)).settleIssue.sendWaiting

def execPwrResume (s : State) : Out := .next s.resumeModule

/-! ### Register writes (R737, R763) -/

/-- `PWR_SURGE`: the halves that may surge (R737). -/
def State.writeSurge (v : Word) (s : State) : State := (s.setReg Reg.pwrSurge (v &&& 3)).settleIssue

def execPwrSurgeWrite (value : Word) (s : State) : Out := .next ((s.staged Reg.pwrSurge value).writeSurge value)

/-- `PWR_CTL.CLR`: `PWR_CNT` and `PWR_EXC.PEAK` (R763). -/
def execPwrCtlClr (s : State) : Out := .next ((s.setReg Reg.pwrCnt 0).setField Reg.pwrExc 63 32 0)

end Sys2Proof.Machine
end

