-- ==== Sys2Proof/Machine/Clocks.lean ====
section
/-!
DEFINITION. The root PLL, the ripple mesh, the half dividers and the Tide time base (spec 15_clocks R681 to R717).
-/

namespace Sys2Proof.Machine

/-! ### Reference and root PLL (R690 to R695, R704) -/

/-- `ROOT_PLL_LOCK` (R690 to R694, R704): the root PLL locks to the reference, or to the boot oscillator trimmed to SYNC_IN;
with neither it stays unlocked. Tide starts at 0, and a PERIOD written before takes effect. (DEDUCED, log 82) -/
def execRootPllLock (refPresent syncTrimmed : Bool) (trim : BitVec 10) (s : State) : Out :=
  .next (
    let n := s.boot.stage
    if s.phys.clock.rootLock ∨ (n ≠ 2 ∧ n ≠ 3) ∨ s.boot.st ≠ .running ∨ s.segUp 0 = false then s
    else if refPresent = false ∧ syncTrimmed = false then s
    else
      let d := s.draw
      let s := d.2
      let s := s.modClock fun c => { c with rootLock := true, holdSince := none, src := if refPresent then 1 else 2, trim := trim, trimAt := 0 }
      let s := { s with tide := 0 }
      let s := match s.phys.time.heldPeriod with
        | some v => s.setField Reg.tideSync 19 0 v
        | none => s
      let s := s.modTime fun x => { x with heldPeriod := none, measAt := 0, lastEdge := none, trimEdges := 0, acc := 0 }
      s.modBoot fun b => { b with preMs := d.1, beganAt := 0, stageAt := 0 })

/-- `REF_HOLDOVER`: no reference edge for 1 µs (R695). -/
def execRefHoldover (s : State) : Out :=
  .next (
    let c := s.phys.clock
    if c.rootLock ∧ c.src = 1 ∧ c.holdSince = none then
      (s.modClock fun c => { c with holdSince := some s.now }).bump Reg.clkStat 47 32 1
    else s)

/-- `REF_RETURN`: within 10 ms (R695). -/
def execRefReturn (s : State) : Out :=
  .next (match s.phys.clock.holdSince with
    | some t => if s.now < t + 10000000 then s.modClock fun c => { c with holdSince := none } else s
    | none => s)

/-- `ROOT_PLL_UNLOCK`: 10 ms have passed in holdover, or the PLL has lost lock (R695). (DEDUCED, log 84) -/
def execRootPllUnlock (s : State) : Out :=
  .next (
    let c := s.phys.clock
    if c.rootLock = false then s
    else
      let s := match c.holdSince with
        | some t => s.passTo (t + 10000000)
        | none => s
      (s.modClock fun c => { c with rootLock := false, holdSince := none, src := 0 }).signal Ev.rootPllUnlock 0 [])

/-- `OSC_RETRIM` (R692, R693): every 100 ms against the reference; after 16 intervals between accepted edges against
SYNC_IN. -/
def execOscRetrim (trim : BitVec 10) (s : State) : Out :=
  .next (
    let c := s.phys.clock
    if c.rootLock = false then s
    else if c.src = 1 then
      if c.holdSince = none then
        let s := s.passTo (c.trimAt + 100000000)
        s.modClock fun c => { c with trim := trim, trimAt := s.now }
      else s
    else if 17 ≤ s.phys.time.trimEdges then
      (s.modClock fun c => { c with trim := trim, trimAt := s.now }).modTime fun x => { x with trimEdges := 1 }
    else s)

/-! ### Ripple mesh (R684 to R688, R700) -/

/-- The unlock test of a bay's half is suspended: its divider is changing, or stopped changing less than 10 µs ago (R686). -/
def State.rippleQuiet (s : State) (b : Nat) : Bool :=
  let c := s.phys.clock
  if bayEast b then c.echg || decide (s.now < c.eQuiet) else c.wchg || decide (s.now < c.wQuiet)

/-- `RIPPLE_UNLOCK`: the bay's clock stops and the bay is lost (R687). -/
def State.unlockRipple (b : Nat) (s : State) : State :=
  let s := (s.bump Reg.clkCnt 63 32 1).signal Ev.rippleUnlock (s.bayOwner b) [b]
  (s.loseBay b Ev.rippleUnlock.code.toNat).settleBay b

def execRippleUnlock (b : Nat) (s : State) : Out :=
  .next (if (s.bay b).ripple = false ∨ s.rippleQuiet b then s else s.unlockRipple b)

/-! ### Half dividers (R696 to R701) -/

/-- The larger divider is at most 4 times the smaller. -/
def ratioOk (w e : Nat) : Bool := decide (max w e ≤ 4 * min w e)

/-- Why a write of `CLK_HDIV` is refused: the first cause of R696 that holds. -/
def State.hdivCause (s : State) (w e : Nat) : Nat :=
  let out := fun d => decide (d < 10) || decide (48 < d)
  let p := s.reg Reg.pwrSurge
  if s.phys.clock.changing then 4
  else if out w || out e then 3
  else if ratioOk w e = false then 1
  else if (w = 10 ∧ p.getLsbD 0 = false) ∨ (e = 10 ∧ p.getLsbD 1 = false) then 2
  else 0

/-- Both ends of the 672 links that cross the ridge (R322, R323), and the ends of the rim gateway links, which follow the same
rules (R325). -/
def ridgeEnds : List (PT × Dir) :=
  ((List.range 7).flatMap fun r => (List.range 96).flatMap fun y =>
    [(⟨12 * r + 5, 127, y⟩, Dir.east), (⟨12 * r + 6, 0, y⟩, Dir.west)]) ++
  (List.range 276).flatMap fun g => (List.range 16).map fun k => (gatewayEntry g k, gatewayEdge g)

/-- The change notice: every bridge that is not DOWN enters ONOFF (R283, R322). -/
def State.noticeBridges (s : State) : State :=
  ridgeEnds.foldl (fun s e =>
    let l := s.link e.1 e.2
    if l.st = .down ∨ l.st = .onoff then s else s.setLink e.1 e.2 { l with st := .onoff, resyncGot := [] }) s

/-- The bridges resynchronise; one that waits 1 ms after failures goes on waiting (R283, R285, R698). -/
def State.resyncBridges (s : State) : State :=
  ridgeEnds.foldl (fun s e =>
    let l := s.link e.1 e.2
    if s.linkLive e.1 e.2 ∧ l.st = .onoff ∧ l.slow = false then s.enterResync e.1 e.2 else s) s

/-- A write of `CLK_HDIV` (R696 to R698). -/
def State.writeHdiv (v : Word) (s : State) : State :=
  let w := fieldOf v 5 0
  let e := fieldOf v 13 8
  let cause := s.hdivCause w e
  if cause ≠ 0 then
    let s := (s.setField Reg.clkHstat 39 37 cause).bump Reg.clkHstat 63 48 1
    if cause = 1 then s.signal Ev.clkRatioRefused 0 [w, e] else s
  else
    let s := s.setReg Reg.clkHdiv (v &&& 0x3F3F)
    let s := s.modClock fun c => { c with changing := true, wchg := decide (w ≠ c.wcur), echg := decide (e ≠ c.ecur) }
    s.noticeBridges

def execClkHdivWrite (value : Word) (s : State) : Out := .next ((s.staged Reg.clkHdiv value).writeHdiv value)

/-- The target dividers of the halves. -/
def State.wTarget (s : State) : Nat := s.field Reg.clkHdiv 5 0
def State.eTarget (s : State) : Nat := s.field Reg.clkHdiv 13 8

/-- One unit toward a target. -/
def stepToward (a t : Nat) : Nat := if a < t then a + 1 else if t < a then a - 1 else a

/-- One divider step of a half from `d` to `d'`, in 1 µs: a faster one waits until every bay of the half has reached its voltage,
a slower one lowers the voltage after it (R698, R733). -/
def State.stepHalf (east : Bool) (d d' : Nat) (s : State) : State :=
  let v := arrayVolts d'
  let s := if d' < d then (s.pass (max 1000 (s.slewNs east v))).setArrays east v else s.pass 1000
  let s := s.modClock fun c => if east then { c with ecur := d' } else { c with wcur := d' }
  if d' < d then s else s.setArrays east v

/-- `CLK_DIVIDER_STEP`: one unit; when both halves change, the half whose move keeps the ratio, the west half when both do
(R698). -/
def execClkDividerStep (s : State) : Out :=
  .next (
    let c := s.phys.clock
    let w := stepToward c.wcur s.wTarget
    let e := stepToward c.ecur s.eTarget
    if c.changing = false ∨ (w = c.wcur ∧ e = c.ecur) then s
    else
      let s := if w ≠ c.wcur ∧ (e = c.ecur ∨ ratioOk w c.ecur = true) then s.stepHalf false c.wcur w
        else s.stepHalf true c.ecur e
      s.settleIssue)

/-- `CLK_CHANGE_DONE`: every step is done (R698, R686). -/
def execClkChangeDone (s : State) : Out :=
  .next (
    let c := s.phys.clock
    if c.changing = false ∨ c.wcur ≠ s.wTarget ∨ c.ecur ≠ s.eTarget then s
    else
      let s := s.modClock fun c => { c with
        changing := false, wchg := false, echg := false
        wQuiet := if c.wchg then s.now + 10000 else c.wQuiet, eQuiet := if c.echg then s.now + 10000 else c.eQuiet }
      s.resyncBridges.bumpWrap Reg.clkCnt 31 0 1)

/-- `CLK_CTL.CLR` (R716). -/
def State.clearClk (s : State) : State :=
  ((s.setReg Reg.clkCnt 0).setField Reg.clkHstat 63 48 0).setField Reg.clkStat 47 32 0

def execClkCtlClr (s : State) : Out := .next s.clearClk

/-! ### Tide (R702 to R715) -/

/-- Nanoseconds of a second. -/
def secondNs : Nat := 1000000000

/-- SYNC_IN is usable: an edge has been accepted in the past 2 s (R711). -/
def State.syncLive (s : State) : Bool :=
  match s.phys.time.lastEdge with
  | some t => decide (s.now < t + 2 * secondNs)
  | none => false

/-- The parent ports that are UP (R711). -/
def State.parentsUp (s : State) : List Nat :=
  (List.range 32).filter fun p => (s.reg Reg.tideParent).getLsbD p && decide ((s.stlp p).st = .up)

/-- `TIDE_STAT.ACT`: 0 free-run, 1 SYNC_IN, 2 links (R711). -/
def State.tideSource (s : State) : Nat :=
  let links := decide (s.parentsUp ≠ [])
  match s.field Reg.tideCfg 33 32 with
  | 0 => 0
  | 1 => if s.syncLive then 1 else 0
  | 2 => if links then 2 else 0
  | _ => if links then 2 else if s.syncLive then 1 else 0

/-- P × round(T ÷ P) − T; the way of a tie is open (R711). (DESIGN CHOICE, log 83) -/
def syncOffset (t p : Nat) (up : Bool) : Int :=
  let r := t % p
  if 2 * r < p ∨ (2 * r = p ∧ up = false) then -(r : Int) else (p : Int) - r

/-- The mean of `STL_TIME.OFFSET` over ports, rounded toward zero (R711). -/
def State.linkOffset (s : State) (ps : List Nat) : Int :=
  (ps.foldl (fun (t : Int) p => t + signedOf 32 (s.field (Reg.stlTime p) 63 32)) 0).tdiv ps.length

/-- The offset of a measurement from the active source; none in free-run. -/
def State.tideOffset (s : State) : Option Int × State :=
  match s.tideSource with
  | 0 => (none, s)
  | 1 =>
    let d := s.draw
    (some (syncOffset (s.phys.time.lastEdge.getD 0) (max 1000 (s.field Reg.tideSync 19 0) * 1000) (d.1 % 2 == 1)), d.2)
  | _ => (some (s.linkOffset s.parentsUp), s)

/-- An integer within bounds. -/
def clampInt (lo hi x : Int) : Int := max lo (min hi x)

/-- `servo` of R706: the new integ and the slew. -/
def tideServo (integ off : Int) : Int × Int :=
  let integ := integ + off.tdiv 256
  (integ, clampInt (-500000) 500000 ((off * 1000).tdiv 8 + integ * 1000))

/-- `TIDE_SLEW` shows integ and the slew in force (R717). -/
def State.showSlew (s : State) : State :=
  s.setReg Reg.tideSlew (fld 63 32 (unsignedOf 32 s.phys.time.integ) ||| fld 31 0 (unsignedOf 32 s.phys.time.slew))

/-- One measurement with an offset: a step forward, or the slew for the next millisecond (R706, R708, R709).
(DEDUCED, log 84) -/
def State.steer (off : Int) (s : State) : State :=
  let s := s.setField Reg.tideStat 31 0 (unsignedOf 32 (clampInt (-(2 ^ 31)) (2 ^ 31 - 1) off))
  let near := decide (-20 ≤ off) && decide (off ≤ 20)
  let s := s.modTime fun x => { x with inRange := if near then min 64 (x.inRange + 1) else 0 }
  if (max 1 (s.field Reg.tideCfg 31 0) * 1000 : Nat) < off then (s.pass off.toNat).bump Reg.tideStat 47 32 1
  else
    let r := tideServo s.phys.time.integ off
    (s.modTime fun x => { x with integ := r.1, slew := r.2 }).showSlew

/-- `TIDE_MEASURE`: once every 1 ms (R706, R707). -/
def execTideMeasure (s : State) : Out :=
  .next (
    if s.phys.clock.rootLock = false then s
    else
      let s := s.passTo (s.phys.time.measAt + 1000000)
      let q := s.tideOffset
      let s := q.2
      let s := match q.1 with
        | some off => s.steer off
        | none => (s.modTime fun x => { x with inRange := 0, slew := x.integ * 1000 }).showSlew
      s.modTime fun x => { x with measAt := s.now })

/-- `SYNC_IN_EDGE` (R710): accepted when the level stays high for 100 ns and 900 µs have passed since the last accepted
edge. (DEDUCED, log 84) -/
def execSyncInEdge (highNs : Nat) (s : State) : Out :=
  .next (
    if s.phys.clock.rootLock = false then s
    else
      let apart : Bool := match s.phys.time.lastEdge with
        | some t => decide (t + 900000 ≤ s.now)
        | none => true
      if 100 ≤ highNs ∧ apart then
        s.modTime fun x => { x with lastEdge := some s.now, armed := true, trimEdges := x.trimEdges + 1 }
      else
        let s := s.bump Reg.tideSync 63 32 1
        let s := s.modTime fun x => { x with ignored := recent s.now secondNs x.ignored ++ [s.now] }
        let due : Bool := match s.phys.time.ignoredAt with
          | some t => decide (t + secondNs ≤ s.now)
          | none => true
        if due then
          (s.modTime fun x => { x with ignoredAt := some s.now }).signal Ev.syncEdgeIgnored 0 [s.phys.time.ignored.length]
        else s)

/-- `SYNC_LOST` (R713): SYNC_IN is the active source and 2 s pass without an accepted edge; once per loss. -/
def execSyncLost (s : State) : Out :=
  .next (
    let x := s.phys.time
    let src := s.field Reg.tideCfg 33 32
    match x.lastEdge with
    | some t =>
      if s.phys.clock.rootLock = false ∨ x.armed = false ∨ src = 0 ∨ src = 2 ∨ (src = 3 ∧ s.parentsUp ≠ []) then s
      else
        let s := s.passTo (t + 2 * secondNs)
        (s.modTime fun x => { x with armed := false, inRange := 0 }).signal Ev.syncLost 0 []
    | none => s)

/-- A write of `TIDE_SET` (R715). -/
def State.writeTideSet (v : Word) (s : State) : State :=
  if s.tide < v then { s with tide := v } else s.setField Reg.tideStat 60 60 1

def execTideSet (value : Word) (s : State) : Out := .next ((s.staged Reg.tideSet value).writeTideSet value)

/-- A write of `TIDE_CFG` (R711, R713). -/
def State.writeTideCfg (v : Word) (s : State) : State :=
  (s.setReg Reg.tideCfg (withField (v &&& 0x3FFFFFFFF) 31 0 (max 1 (fieldOf v 31 0)))).modTime fun x => { x with armed := false }

def execTideCfgWrite (value : Word) (s : State) : Out := .next ((s.staged Reg.tideCfg value).writeTideCfg value)

/-- A write of `TIDE_SYNC.PERIOD`: held until the root PLL locks; it restarts the count of intervals (R692, R717). -/
def State.writeTideSync (v : Word) (s : State) : State :=
  let n := max 1000 (min 1000000 (fieldOf v 19 0))
  if s.phys.clock.rootLock then (s.setField Reg.tideSync 19 0 n).modTime fun x => { x with trimEdges := 0 }
  else s.modTime fun x => { x with heldPeriod := some n }

def execTideSyncWrite (value : Word) (s : State) : Out := .next ((s.staged Reg.tideSync value).writeTideSync value)

/-- `TIDE_CTL.CLR` (R717). -/
def State.clearTide (s : State) : State := (s.setField Reg.tideSync 63 32 0).setField Reg.tideStat 47 32 0

def execTideCtlClr (s : State) : Out := .next s.clearTide

/-- One cycle of the Tide clock: 1, or under steering 0 or 2 (R705, R706). Without a locked root there is no such cycle.
(DESIGN CHOICE, log 2) -/
def State.tideTick (s : State) : State :=
  if s.phys.clock.rootLock then
    let a := s.phys.time.acc + s.phys.time.slew
    if 1000000000 ≤ a then (s.pass 2).modTime fun x => { x with acc := a - 1000000000 }
    else if a ≤ -1000000000 then s.modTime fun x => { x with acc := a + 1000000000 }
    else (s.pass 1).modTime fun x => { x with acc := a }
  else s

/-- What a cycle without a command does: Tide goes on and the fabric moves, in a halt too (R757). (DESIGN CHOICE, log 2) -/
def State.tick (s : State) : State := s.tideTick.fabricTick

end Sys2Proof.Machine
end

