-- ==== Sys2Proof/Machine/Stesum.lean ====
section
/-!
DEFINITION. Stesum ports: margins and swaps, the link layer, training and port states, time transfer (spec 14_links R636 to
R653, R659 to R661, R674 to R678).
-/

namespace Sys2Proof.Machine

/-! ### Packets that find no port (R659, R666) -/

/-- The response to a chunk: its header turned around (R665, R666). (DEDUCED, log 79) -/
def responseTo (h : PutHeader) (me : Dword) (status : Nat) : PutHeader :=
  { h with dst := h.src, src := me, dpart := h.spart, spart := h.dpart, kind := 0x02, chunk := status, poison := 0, len := 0
           flags := 0, cls := 0 }

/-- The entry that an instance of this module belongs to ends with a status, unless it has ended. -/
def State.endPut (p e : Nat) (step : Word) (st : PutStatus) (s : State) : State :=
  let x := s.put p e
  if x.status = .sending ∧ x.step = step then s.setPut p e { x with status := st, busy := [], unsent := [] } else s

/-- A dropped put chunk is answered to its source with NO_ROUTE; the source may be this module (R659). -/
def State.answerDropped (h : PutHeader) (s : State) : State :=
  if h.kind ≠ 0x01 then s
  else if h.src = s.address then s.endPut h.spart h.entry h.step .noRoute
  else (s.sendTorus 0 (responseTo h s.address 4) []).2

/-! ### Port states (R651 to R653, R660) -/

/-- The flits of a port that went DOWN leave by another UP port of its role, those of its replay buffer with RESENT set, or
their packets are dropped (R659, R660). (DESIGN CHOICE, log 74) -/
def State.divertFlits (p : Nat) (s : State) : State :=
  let fs := (s.stlp p).again.map StlFlit.resent ++ (s.stlp p).sendq
  let s := s.modStlp p fun x => { x with sendq := [], again := [] }
  let ps := (s.upPorts (s.portRole p)).filter fun q => decide (q ≠ p)
  if fs = [] then s
  else if ps = [] then
    (fs.filter StlFlit.sop).foldl (fun s f => (s.bump (Reg.stlPktcnt p) 31 0 1).answerDropped (headerOf f.payload)) s
  else
    let d := s.draw
    d.2.sendFlits (ps.getD (d.1 % ps.length) 0) fs

/-- The port goes DOWN with a cause; from UP it is reported (R651 to R653, R660). -/
def State.portDown (p cause : Nat) (s : State) : State :=
  let x := s.stlp p
  let wasUp := decide (x.st = .up)
  let s := s.setField (Reg.stlPstat p) 26 24 cause
  let s := s.setStlp p { x.leaveUp with st := .down, downAt := s.now, backoff := if wasUp then 1 else x.backoff }
  let s := if wasUp then s.signal Ev.stlPortDown 0 [p, cause] else s
  s.divertFlits p

/-! ### Margins and swaps (R638 to R643) -/

/-- A channel reading is below the limits of `STL_MARGIN` (R639). -/
def State.belowMargin (s : State) (p : Nat) (r : ChannelReading) : Bool :=
  let m := s.reg (Reg.stlMargin p)
  decide (r.pwr.toInt < signedOf 16 (fieldOf m 63 48)) || decide (r.eye.toNat < fieldOf m 47 40) ||
    decide (fieldOf m 31 0 < r.ser.toNat)

def Channels.reading (c : Channels) (n : Nat) : ChannelReading := Tab.get ChannelReading.zero c.readings n

/-- A direction of a port. -/
def StlPort.dir (x : StlPort) (rx : Bool) : Channels := if rx then x.rx else x.tx
def StlPort.setDir (rx : Bool) (c : Channels) (x : StlPort) : StlPort := if rx then { x with rx := c } else { x with tx := c }

/-- The channels that pass: those that carry a lane and are not weak, and the spares. -/
def Channels.passing (c : Channels) (weak : Nat) : List Nat := (c.map.filter fun n => decide (n ≠ weak)) ++ c.spares

/-- The `n` channels of a list with the widest eyes, the lower number on a tie. -/
def widest (c : Channels) : Nat → List Nat → List Nat
  | 0, _ => []
  | n + 1, l =>
    match l.foldl (fun m k => match m with
      | none => some k
      | some j => if (c.reading j).eye < (c.reading k).eye then some k else some j) (none : Option Nat) with
    | none => []
    | some k => k :: widest c n (l.filter fun j => decide (j ≠ k))

/-- A weak lane without a spare that passes: the direction drops to 8 lanes, or the port goes DOWN (R642). -/
def State.narrow (p lane : Nat) (rx : Bool) (s : State) : State :=
  let c := (s.stlp p).dir rx
  let weak := c.map.getD lane 18
  let pass := c.passing weak
  if pass.length < 8 then s.portDown p 2
  else
    let keep := (List.range 18).filter fun k => (widest c 8 pass).contains k
    let c := { c with width := 8, map := keep, spares := pass.filter fun k => !keep.contains k, out := c.out ++ [weak], swap := none }
    (s.modStlp p fun x => x.setDir rx c).signal Ev.stlSparesExhausted 0 [p, flag rx]

/-- A receive lane is weak: the swap onto a spare begins with the swap flit, and data stop (R639, R640, R642).
(DESIGN CHOICE, log 74) -/
def State.weakLane (p lane : Nat) (s : State) : State :=
  let c := (s.stlp p).rx
  if c.swap ≠ none then s
  else if c.spares = [] then s.narrow p lane true
  else
    let d := s.draw
    let spare := c.spares.getD (d.1 % c.spares.length) 0
    let s := (d.2.modStlp p fun x => { x with rx := { x.rx with swap := some (lane, spare) } }).llFall p
    s.sendControl p 3 (leBytes 1 lane ++ leBytes 1 spare)

/-- `STL_MARGIN_MEASURE` (R638, R639): once every 1 ms; the lowest weak lane is swapped. -/
def execStlMarginMeasure (port : Nat) (readings : List ChannelReading) (s : State) : Out :=
  .next (
    let x := s.stlp port
    if x.st = .off ∨ 32 ≤ port then s
    else
      let s := s.passTo (x.measAt + 1000000)
      let got := (List.range 18).map fun k => (k, readings.getD k ChannelReading.zero)
      let weak := (List.range 18).foldl (fun t k =>
        let n := if x.rx.map.contains k ∧ s.belowMargin port (readings.getD k ChannelReading.zero) then min 3 (Tab.get 0 x.rx.weak k + 1) else 0
        Tab.set 0 t k n) x.rx.weak
      let rdgs := got.foldl (fun t g => Tab.set ChannelReading.zero t g.1 g.2) ([] : Tab ChannelReading)
      let s := s.setStlp port { x with measAt := s.now, rx := { x.rx with readings := rdgs, weak := weak } }
      if x.st ≠ .up then s
      else match (List.range x.rx.map.length).find? fun l => decide (3 ≤ Tab.get 0 weak (x.rx.map.getD l 18)) with
        | some l => s.weakLane port l
        | none => s)

/-- Why a receive lane was swapped: 0 by its margins, 1 by retransmissions. At the sending end the cause is open.
(DESIGN CHOICE, log 74) -/
def State.swapCause (s : State) (p lane : Nat) (rx : Bool) : Nat × State :=
  if rx then (if 3 ≤ Tab.get 0 (s.stlp p).rx.weak ((s.stlp p).rx.map.getD lane 18) then 0 else 1, s)
  else
    let d := s.draw
    (d.1 % 2, d.2)

/-- The swap is done: the lane is remapped, the sending end replays, the link layer resynchronises (R640). -/
def State.finishSwap (p lane spare : Nat) (rx : Bool) (s : State) : State :=
  let q := s.swapCause p lane rx
  let s := q.2
  let c := (s.stlp p).dir rx
  let gone := c.map.getD lane 18
  let c := { c with map := c.map.set lane spare, spares := c.spares.filter fun k => decide (k ≠ spare)
                    out := c.out ++ [gone], weak := Tab.set 0 c.weak gone 0, swap := none }
  let s := s.modStlp p fun x => x.setDir rx c
  let s := if rx then s else s.replayPort p
  let s := (s.bump (Reg.stlLinkcnt p) 31 16 1).llResync p
  s.signal Ev.stlLaneSwap 0 [p, flag rx, lane, gone, spare, q.1]

/-- `STL_LANE_SWAP`: the spare has been trained and measured; one that fails stays out of service (R640 to R642).
(DESIGN CHOICE, log 81) -/
def execStlLaneSwap (port : Nat) (rx : Bool) (passes : Bool) (s : State) : Out :=
  .next (
    let x := s.stlp port
    match (x.dir rx).swap with
    | none => s
    | some (lane, spare) =>
      if x.st ≠ .up then s
      else if passes then s.finishSwap port lane spare rx
      else
        let c := x.dir rx
        let c := { c with spares := c.spares.filter fun k => decide (k ≠ spare), out := c.out ++ [spare], swap := none }
        let s := s.setStlp port (x.setDir rx c)
        if c.spares = [] then
          let s := s.narrow port lane rx
          if (s.stlp port).st = .up then (if rx then s else s.replayPort port).llResync port else s
        else if rx then s.weakLane port lane
        else s)

/-- `STL_SWAP_FLIT`: the sending end answers with the same flit and stops data on the direction; a flit that repeats the swap of this
end is the partner's answer (R640). (DESIGN CHOICE, log 73) -/
def execStlSwapFlit (port lane spare : Nat) (s : State) : Out :=
  .next (
    let x := s.stlp port
    if x.st = .up ∧ x.rx.swap = some (lane, spare) then s.setStlp port { x with lastFlit := s.now }
    else if x.st ≠ .up ∨ x.tx.map.length ≤ lane ∨ x.tx.spares.contains spare = false then s
    else
      let s := s.setStlp port { x with lastFlit := s.now, tx := { x.tx with swap := some (lane, spare) } }
      let s := if x.ll = .onoff then s else s.llFall port
      s.sendControl port 3 (leBytes 1 lane ++ leBytes 1 spare))

/-! ### Flits received (R645 to R650) -/

/-- Flits after the acknowledged one. -/
def afterAck (ack : BitVec 16) (l : List StlFlit) : List StlFlit :=
  if l.any fun f => f.seq == ack then (l.dropWhile fun f => f.seq != ack).drop 1 else l

/-- A data flit has failed: NAK in the next flit; after 4 failed retransmissions the lane with the most corrected symbols over
those attempts is weak (R646, R648). (DESIGN CHOICE, log 74) -/
def State.flitFailed (p : Nat) (s : State) : State :=
  let x := s.stlp p
  let s := s.setStlp p { x with nak := true, nakDue := true, attempts := x.attempts + 1 }
  if x.attempts + 1 < 5 then s
  else
    let d := s.draw
    (d.2.modStlp p fun x => { x with attempts := 0 }).weakLane p (d.1 % max 1 x.rx.map.length)

/-- Credits of an accepted flit; more than a buffer holds throws the link layer to ONOFF (R645, R650). -/
def State.takeCredits (p : Nat) (f : StlFlit) (s : State) : State :=
  let x := s.stlp p
  let v := f.cvc.toNat % 8
  let n := Tab.get 0 x.credits v + f.ccnt.toNat
  if f.ccnt = 0 then s
  else if vcBuffer v < n then
    if x.ll = .credit then s.llOnoff p
    else if x.ll = .onoff then s.setStlp p { x with llAt := s.now }
    else s
  else s.setStlp p { x with credits := Tab.set 0 x.credits v n }

/-- A data flit is accepted: it joins its receive buffer, and the port owes an acknowledgement (R645, R646, R650).
(DEDUCED, log 75) -/
def State.acceptFlit (p : Nat) (f : StlFlit) (s : State) : State :=
  let s := s.modStlp p fun x => { x with rxSeq := f.seq, nak := false, attempts := 0, lastData := s.now }.store f
  let s := s.takeCredits p f
  let n := (s.stlp p).txSeq
  let s := s.pump p
  if (s.stlp p).txSeq = n ∧ (s.stlp p).swapping = false then s.sendDataFlit p emptyFlit else s

/-- `STL_DATA_FLIT` (R645, R646, R648, R650). -/
def execStlDataFlit (port : Nat) (f : StlFlit) (s : State) : Out :=
  .next (
    let x := s.stlp port
    if x.st ≠ .up then s
    else if f.crcGood = false then s.flitFailed port
    else
      let s := s.setStlp port { x with lastFlit := s.now, replay := afterAck f.ack x.replay, stop := f.stop }
      let s := if f.nak then s.replayPort port else s
      if f.seq = x.rxSeq + 1 then s.acceptFlit port f
      else if x.nak then s
      else s.flitFailed port)

/-- `STL_REPLAY_TIMEOUT`: 1.5 µs without an acknowledgement (R646). -/
def execStlReplayTimeout (port : Nat) (s : State) : Out :=
  .next (
    let x := s.stlp port
    if x.st ≠ .up ∨ x.replay = [] then s else (s.passTo (x.lastSent + 1500)).replayPort port)

/-- `STL_IDLE_FLIT`: 5 µs without a data flit sent (R645). -/
def execStlIdleFlit (port : Nat) (s : State) : Out :=
  .next (
    let x := s.stlp port
    if x.st ≠ .up ∨ x.swapping then s else (s.passTo (x.lastSent + 5000)).sendDataFlit port emptyFlit)

/-- `STL_LINK_WATCHDOG`: 20 µs with no data flit accepted: from CREDIT to ONOFF, and in ONOFF the clean time begins again (R650). -/
def execStlLinkWatchdog (port : Nat) (s : State) : Out :=
  .next (
    let x := s.stlp port
    if x.st ≠ .up ∨ x.ll = .resync then s
    else
      let s := s.passTo (x.lastData + 20000)
      if x.ll = .credit then s.llOnoff port else s.modStlp port fun x => { x with llAt := s.now })

/-- `STL_ONOFF_EXPIRE`: 1 ms clean in ONOFF, and no swap in progress (R650). -/
def execStlOnoffExpire (port : Nat) (s : State) : Out :=
  .next (
    let x := s.stlp port
    if x.st ≠ .up ∨ x.ll ≠ .onoff ∨ x.rx.swap ≠ none ∨ x.tx.swap ≠ none then s
    else (s.passTo (x.llAt + 1000000)).llResync port)

/-- `STL_RESYNC_FLIT` (R650). (DESIGN CHOICE, log 73) -/
def execStlResyncFlit (port vc free : Nat) (s : State) : Out :=
  .next (
    let x := s.stlp port
    if x.st ≠ .up ∨ 7 ≤ vc then s
    else
      let s := s.setStlp port { x with lastFlit := s.now }
      if x.ll ≠ .resync then s
      else
        let got := Tab.put x.resync vc (min free (vcBuffer vc))
        if got.length = 7 then
          (s.modStlp port fun x => { x with
            ll := .credit, llAt := s.now, lastData := s.now, resync := [], stopOut := 0
            credits := got.filter fun e => decide (e.2 ≠ 0) }).pump port
        else s.modStlp port fun x => { x with resync := got })

/-- `STL_RESYNC_TIMEOUT`: 100 µs without completion (R650). -/
def execStlResyncTimeout (port : Nat) (s : State) : Out :=
  .next (
    let x := s.stlp port
    if x.st ≠ .up ∨ x.ll ≠ .resync then s else (s.passTo (x.llAt + 100000)).llFall port)

/-! ### Training (R641, R651 to R655, R661) -/

/-- A role's step of this module's coordinates, modulo the torus (R654, R655). -/
def State.neighbour (s : State) (role : Nat) : Nat × Nat × Nat :=
  let me := s.address
  let go := fun (d c n : Nat) => if role / 2 = d then (if role % 2 = 0 then (c + 1) % n else (c + n - 1) % n) else c
  (go 0 (addrX me) s.ringX, go 1 (addrY me) s.ringY, go 2 (addrZ me) s.ringZ)

/-- The check of R654. -/
def State.partnerOk (s : State) (p : Nat) (t : Training) : Bool :=
  let r := s.portRole p
  let a := t.partnerAddr
  decide (r < 6) && decide (addrSys a = addrSys s.address) && decide (t.partnerRole = r ^^^ 1) &&
    decide ((addrX a, addrY a, addrZ a) = s.neighbour r)

/-- The lanes of a direction from the channels that pass (R637, R641). (DEDUCED, log 76) -/
def trainChannels (pass : List Nat) (old : Channels) : Channels :=
  let ok := (List.range 18).filter fun k => pass.contains k
  let w := if 16 ≤ ok.length then 16 else 8
  { old with width := w, map := ok.take w, spares := ok.drop w, out := (List.range 18).filter fun k => !ok.contains k
             weak := [], swap := none }

/-- A training ends (R651): UP, or DOWN with cause 1 or 3. -/
def State.endTraining (p : Nat) (t : Training) (s : State) : State :=
  let x := s.stlp p
  let s := (s.setField (Reg.stlPstat p) 63 32 t.partnerAddr.toNat).setField (Reg.stlPstat p) 31 27 t.partnerPort
  let ok := fun (l : List Nat) => decide (8 ≤ ((List.range 18).filter fun k => l.contains k).length)
  let chans := ok t.rxPass && ok t.txPass
  if chans && s.partnerOk p t then
    let s := s.setStlp p { x with
      st := .up, rx := trainChannels t.rxPass x.rx, tx := trainChannels t.txPass x.tx, ll := .credit, llAt := s.now
      txSeq := 0, rxSeq := 0xFFFF, nak := false, nakDue := false, replay := [], attempts := 0, credits := fullCredits, owed := []
      resync := [], lastData := s.now, lastSent := s.now, lastFlit := s.now, backoff := 1, trained := true, roleWritten := false
      stop := 0, tx1 := none, echo := none, timeAt := s.now, held := [], stopOut := 0, sendq := x.again ++ x.sendq, again := [] }
    let s := if x.roleWritten then s.signal Ev.stlRackSwitch 0 [p, s.portRole p] else s
    s.pump p
  else
    let cause := if chans then 3 else 1
    let first := !x.trained
    let s := (s.setStlp p { x with trained := true }).portDown p cause
    if first then s.signal Ev.stlPortDown 0 [p, cause] else s

/-- `STL_TRAINING_DONE` (R651, R654). -/
def execStlTrainingDone (port : Nat) (found : Training) (s : State) : Out :=
  .next (if (s.stlp port).st = .training then s.endTraining port found else s)

/-- `STL_PORT_DOWN`: no flit received for 1 ms (R651, R653). -/
def execStlPortDown (port : Nat) (s : State) : Out :=
  .next (
    let x := s.stlp port
    if x.st ≠ .up then s else (s.passTo (x.lastFlit + 1000000)).portDown port 4)

/-- `STL_PCFG.EN`. -/
def State.portEn (s : State) (p : Nat) : Bool := (s.reg (Reg.stlPcfg p)).getLsbD 8

/-- `STL_RETRAIN_RETRY`: the wait of a DOWN port has passed (R652). -/
def execStlRetrainRetry (port : Nat) (s : State) : Out :=
  .next (
    let x := s.stlp port
    if x.st ≠ .down ∨ s.portEn port = false then s
    else (s.passTo (x.downAt + 1000000000 * x.backoff)).startTraining port)

/-- A port that is UP, or DOWN with EN set, trains (R651). -/
def State.retrain (p : Nat) (s : State) : State :=
  let x := s.stlp p
  if x.st = .up ∨ (x.st = .down ∧ s.portEn p = true) then s.startTraining p else s

/-- `STL_CTL.RETRAIN` (R651). -/
def execStlRetrain (port : Nat) (s : State) : Out := .next (s.retrain port)

/-- `STL_CTL.CLR` (R678). -/
def State.clearPort (p : Nat) (s : State) : State := (s.setReg (Reg.stlLinkcnt p) 0).setReg (Reg.stlPktcnt p) 0

def execStlCtlClr (port : Nat) (s : State) : Out := .next (s.clearPort port)

/-- A write of `STL_PCFG`: EN cleared takes any port but an OFF one DOWN; ROLE written retrains it (R651, R661, R678). -/
def State.writePcfg (p : Nat) (v : Word) (s : State) : State :=
  let s := s.setReg (Reg.stlPcfg p) (v &&& 0x107)
  if (s.stlp p).st = .off then s
  else if v.getLsbD 8 = false then if (s.stlp p).st = .down then s.setField (Reg.stlPstat p) 26 24 5 else s.portDown p 5
  else (s.modStlp p fun x => { x with roleWritten := true }).retrain p

def execStlPcfgWrite (port : Nat) (value : Word) (s : State) : Out := .next (if port < 32 then (s.staged (Reg.stlPcfg port) value).writePcfg port value else s)

/-- A write of `STL_ADDR` (R651, R654, R679). -/
def State.writeAddr (v : Word) (s : State) : State :=
  (List.range 32).foldl (fun s p => s.retrain p) (s.setReg Reg.stlAddr (v &&& 0xFFFFFFC0))

def execStlAddrWrite (value : Word) (s : State) : Out := .next ((s.staged Reg.stlAddr value).writeAddr value)

/-! ### Time transfer (R674, R675) -/

/-- `STL_TIME_FLIT_SEND`: T1, and the stamps of a time flit that the partner has sent since the last one, with T3 (R674). -/
def execStlTimeFlitSend (port : Nat) (s : State) : Out :=
  .next (
    let x := s.stlp port
    if x.st ≠ .up then s
    else
      let s := s.passTo (x.timeAt + 1000000)
      let e := x.echo.getD (0, 0)
      let s := s.setStlp port { x with timeAt := s.now, tx1 := some s.now, echo := none }
      s.sendControl port 2 (leBytes 8 s.now ++ leBytes 8 e.1 ++ leBytes 8 e.2 ++ leBytes 8 s.now))

/-- `v` as a register field of 32 bits, when it fits; the spec says nothing of one that does not.
(DESIGN CHOICE, log 80) -/
def fit32 (signed : Bool) (v : Int) (other : Nat) : Nat :=
  let ok := if signed then decide (-(2 ^ 31) ≤ v) && decide (v < 2 ^ 31) else decide (0 ≤ v) && decide (v < 2 ^ 32)
  if ok then unsignedOf 32 v else other % 2 ^ 32

/-- `STL_TIME_FLIT`: the partner returns T1 and T2 with T3; the arrival is T4 (R675). Which way a half nanosecond goes is
open. (DESIGN CHOICE, log 73; DESIGN CHOICE, log 80) -/
def execStlTimeFlit (port : Nat) (t1 t2 t3 : Word) (s : State) : Out :=
  .next (
    let x := s.stlp port
    if x.st ≠ .up then s
    else
      let s := s.setStlp port { x with lastFlit := s.now, echo := some (t3.toNat, s.now) }
      if x.tx1 ≠ some t1.toNat then s
      else
        let d := s.draw
        let o := d.2.draw
        let s := o.2
        let a : Int := (t2.toNat : Int) - t1.toNat
        let b : Int := (s.now : Int) - t3.toNat
        let half := fun (v : Int) => (v + (d.1 % 2 : Nat)) / 2
        let asym := signedOf 32 (s.field (Reg.stlAsym port) 31 0)
        s.setReg (Reg.stlTime port) (fld 63 32 (fit32 true (half (a - b) - asym) o.1) ||| fld 31 0 (fit32 false (half (a + b)) o.1)))

end Sys2Proof.Machine
end

