-- ==== Sys2Proof/Machine/StesumPuts.lean ====
section
/-!
DEFINITION. Transit, put chunks and responses, Joinery messages (spec 14_links R657 to R673, 11_detection R538).
-/

namespace Sys2Proof.Machine

/-! ### Transit (R657 to R659) -/

/-- The egress port of a packet that came in by `port`: the same index of R656 where that port is UP, else the lowest UP port
of the role (R657). -/
def State.egress (s : State) (port role : Nat) : Option Nat :=
  let ps := s.upPorts role
  let same := 5 * role + port % 5
  if port < 30 ∧ ps.contains same then some same else ps.head?

/-- `STL_TRANSIT` (R658, R659). -/
def execStlTransit (port : Nat) (h : PutHeader) (data : List Byte) (s : State) : Out :=
  .next (
    if (s.stlp port).st ≠ .up then s
    else match s.roleTo h.dst with
      | none => s
      | some role =>
        match s.egress port role with
        | some q => (s.sendPacket q { h with cls := s.classOut role h.cls } data).bump (Reg.stlPktcnt q) 63 32 1
        | none => (s.bump (Reg.stlPktcnt (s.portOfRole role)) 31 0 1).answerDropped h)

/-! ### The sending side (R662 to R666, R669, R671) -/

/-- `PUT_GO` (R663). -/
def State.writePutgo (p : Nat) (v : Word) (s : State) : State :=
  if v.getLsbD 8 ∧ s.partExists p then s.beginPut p (fieldOf v 5 0) else s

def execPutGo (p : Nat) (value : Word) (s : State) : Out := .next ((s.staged (Reg.prtStlPutgo p) value).writePutgo p value)

/-- `PUT_RESPONSE` (R666, R669). -/
def execPutResponse (h : PutHeader) (s : State) : Out :=
  .next (
    let p := h.dpart
    let x := s.put p h.entry
    if h.kind ≠ 0x02 ∨ h.dst ≠ s.address ∨ s.partExists p = false ∨ x.status ≠ .sending ∨ x.step ≠ h.step ∨ x.dst ≠ h.src then s
    else match h.chunk % 256 with
      | 0 => (s.setPut p h.entry { x with status := .done, busy := [], unsent := [] }).bumpWrap (Reg.prtStlCnt p) 31 0 1
      | 1 => s.endPut p h.entry h.step .window
      | 2 => s.endPut p h.entry h.step .nopart
      | 3 => s.setPut p h.entry { x with busy := x.busy ++ [(h.dpa - x.dpa.toNat) / 4096] }
      | 4 => s.endPut p h.entry h.step .noRoute
      | _ => s)

/-- `PUT_BUSY_RETRY`: a chunk answered BUSY is sent again after 10 µs, not in a halt (R666, R756). -/
def execPutBusyRetry (p entry : Nat) (s : State) : Out :=
  .next (
    let x := s.put p entry
    match x.busy with
    | [] => s
    | i :: r =>
      if x.status ≠ .sending ∨ s.phys.power.halted then s
      else ((s.pass 10000).setPut p entry { x with busy := r }).sendChunk p entry i)

/-- `PUT_TIMEOUT` (R671); the time of a halt does not count (R760). -/
def execPutTimeout (p entry : Nat) (s : State) : Out :=
  .next (
    let x := s.put p entry
    if x.status ≠ .sending ∨ s.phys.power.halted then s
    else
      let ms := max 1 (s.field (Reg.prtStlPutcfg p) 31 0)
      (s.passTo (x.startAt + 1000000 * ms)).endPut p entry x.step .timeout)

/-! ### The receiving side (R666 to R669) -/

/-- The identity of a chunk's instance (R667). -/
def putId (h : PutHeader) : PutId := { src := h.src, spart := h.spart, entry := h.entry, step := h.step }

/-- The range of a chunk lies in the inbound window and is assigned (R666, R680). -/
def State.inWindow (s : State) (p pa len : Nat) : Bool :=
  let b := s.reg (Reg.prtStlInbase p)
  b.getLsbD 63 && decide (fieldOf b 47 0 ≤ pa) && decide (pa + len ≤ s.field (Reg.prtStlInlim p) 47 0 + 1) && s.assigned p pa len

/-- Why a chunk is refused: the status of its answer, or none (R666). (DEDUCED, log 79) -/
def State.refuseChunk (s : State) (h : PutHeader) : Option Nat :=
  let p := h.dpart
  if addrSys h.src ≠ addrSys s.address then some 1
  else if p = 0 ∨ 8 < p ∨ s.partExists p = false then some 2
  else if s.inWindow p h.dpa h.len = false then some 1
  else if (s.part p).inbound.any (fun i => i.id == putId h) = false ∧ 64 ≤ (s.part p).inbound.countP (fun i => !i.dup) then some 3
  else none

/-- Answer a chunk's source (R666, R669). -/
def State.answerPut (h : PutHeader) (status : Nat) (s : State) : State := (s.sendTorus 0 (responseTo h s.address status) []).2

/-- Write a chunk; its poisoned blocks get the poison pattern (R668). -/
def State.writeChunk (h : PutHeader) (d : List Byte) (s : State) : State :=
  let s := (s.writeRange h.dpart h.dpa (padTo h.len d)).2
  (setBits 64 h.poison.toNat).foldl (fun s k =>
    let lo := h.dpa + 64 * k
    let hi := min (lo + 64) (h.dpa + h.len)
    if lo < hi then (s.poisonPa h.dpart lo).poisonPa h.dpart (hi - 1) else s) s

/-- The open instance of a chunk, or a new one (R667). -/
def State.instanceOf (s : State) (h : PutHeader) : Inbound :=
  ((s.part h.dpart).inbound.find? fun i => i.id == putId h).getD
    { id := putId h, got := [], dup := (s.part h.dpart).doneIds.contains (putId h) }

/-- Every chunk has been received: the float, the answer, and the identity joins the last 4,096 (R667, R669). -/
def State.closeInstance (h : PutHeader) (i : Inbound) (s : State) : State :=
  let p := h.dpart
  let s := s.modPart p fun x => { x with
    inbound := x.inbound.filter fun j => j.id != i.id
    doneIds := if i.dup then x.doneIds else (x.doneIds ++ [i.id]).drop (x.doneIds.length + 1 - 4096) }
  let s := if i.dup = false ∧ h.dfid ≠ 0xFFFF ∧ s.hasFloat p h.dfid.toNat then s.floatApply p h.dfid.toNat true else s
  s.answerPut h 0

/-- A chunk that is not refused (R667 to R669). (DEDUCED, log 79) -/
def State.takeChunk (h : PutHeader) (d : List Byte) (s : State) : State :=
  let p := h.dpart
  let i := s.instanceOf h
  let s := if i.dup then s.bump (Reg.prtStlStat p) 15 0 1 else s
  if i.got.contains h.chunk then s
  else
    let i := { i with got := i.got ++ [h.chunk] }
    let s := if i.dup then s else s.writeChunk h d
    if max 1 h.total ≤ i.got.length then s.closeInstance h i
    else s.modPart p fun x => { x with inbound := (x.inbound.filter fun j => j.id != i.id) ++ [i] }

/-- `PUT_CHUNK` (R666 to R669). -/
def execPutChunk (h : PutHeader) (data : List Byte) (s : State) : Out :=
  .next (
    if h.kind ≠ 0x01 ∨ h.dst ≠ s.address then s
    else match s.refuseChunk h with
      | some st =>
        let s := if st = 2 ∨ h.dpart = 0 ∨ 8 < h.dpart then s else s.bump (Reg.prtStlCnt h.dpart) 47 32 1
        s.answerPut h st
      | none => s.takeChunk h data)

/-! ### Joinery messages (R538, R673) -/

/-- `STL_JOINERY_MESSAGE`: a peer's digest of a layer for a step. (DESIGN CHOICE, log 57; DEDUCED, log 58) -/
def execStlJoineryMessage (h : PutHeader) (layer : Nat) (digest : Word) (s : State) : Out :=
  .next (
    let p := h.dpart
    let g := (s.part p).sight
    match (s.peers p).find? fun q => decide (q.2.1 = h.src) && decide (q.2.2 = h.spart) with
    | none => s
    | some q =>
      if h.kind ≠ 0x03 ∨ h.dst ≠ s.address ∨ s.partExists p = false ∨ (h.step ≠ g.step ∧ (g.open_ = true ∨ h.step < g.step)) then s
      else
        let old := if h.step = g.step then g.peers else []
        let ds := Tab.put (Tab.get [] old q.1) layer digest
        s.modPart p fun x => { x with sight := { g with step := h.step, peers := Tab.put old q.1 ds } })

end Sys2Proof.Machine
end

