-- ==== Sys2Proof/Machine/Bringup.lean ====
section
/-!
DEFINITION. Bring-up, stages 3 to 13, and the Joinery image (spec 17_bringup R766 to R790; 12_healing R548, R556, R571 to
R573; 04_dataflow R870).
-/

namespace Sys2Proof.Machine

/-- Bring-up runs stage `n`. -/
def State.inStage (s : State) (n : Nat) : Bool := decide (s.boot.stage = n) && decide (s.boot.st = .running) && s.segUp 0
/-- Bring-up began with a warm reset (R799). -/
def State.warm (s : State) : Bool := (s.reg Reg.bootStage).getLsbD 30
/-- The result of a stage that passes: with units lost or not (R768). -/
def passCode (lost : Bool) : Nat := if lost then 0x02 else 0x01

/-! ### Stages 3 to 5 (R686, R766, R769) -/

/-- `RIPPLE_LOCK`: stage 3; without a locked root PLL it fails, and a bay whose oscillator does not lock is lost. -/
def execRippleLock (unlocked : List Nat) (s : State) : Out :=
  .next (
    if s.inStage 3 = false then s
    else if s.phys.clock.rootLock = false then s.failStage 0x0381
    else
      let on := (List.range 84).filter fun b => decide ((s.bay b).supply = .on)
      let s := on.foldl (fun s b => if unlocked.contains b then s.unlockRipple b else s.modBay b fun x => { x with ripple := true }) s
      s.passStage (passCode (on.any fun b => unlocked.contains b)) [])

/-- `FUSE_READ`: stage 4. -/
def execFuseRead (checkGood : Bool) (s : State) : Out :=
  .next (
    if s.inStage 4 = false then s
    else if checkGood then s.passStage 0x01 [] else s.failStage 0x0481)

/-- Stage 6 waits for FETCH (R768, R773). -/
def State.waitFetch (s : State) : State := (s.modBoot fun b => { b with st := .waiting }).setCode (reportCode 6 0x10)

/-- The pairs of cluster 0 that may run the ROM, lowest first (R766). -/
def State.romPairs (s : State) : List Nat := (List.range 4).filter fun k => s.pairLive k && !s.isFenced 5 k

/-- `BOOT_ROM`: stage 5, once PERST# is released; pairs of cluster 0 that fail their self-test are fenced as KIND 5
(R547, R766, R769, R865). -/
def execBootRom (romGood : Bool) (failedPairs : List Nat) (s : State) : Out :=
  .next (
    if s.inStage 5 = false ∨ s.boot.perst then s
    else if romGood = false then s.failStage 0x0581
    else
      let bad := s.romPairs.filter fun k => failedPairs.contains k
      let s := bad.foldl (fun s k => (s.enterFence 5 k 0 0).setPair k { s.pair k with stopped := true } |>.resetCores k true) s
      match s.romPairs with
      | [] => s.failStage 0x0582
      | k :: _ => ((s.modBoot fun b => { b with pair := k }).passStage (passCode (bad ≠ [])) []).waitFetch)

/-! ### The image (R773 to R780) -/

/-- Fields of the image header (R775). -/
def Image.headLen (i : Image) : Nat := leAt i.head 0x008 4
def Image.bodyLen (i : Image) : Nat := leAt i.head 0x00C 4
def Image.version (i : Image) : Nat := leAt i.head 0x010 8
def Image.iface (i : Image) : Nat := leAt i.head 0x018 4
def Image.compat (i : Image) : Nat := leAt i.head 0x01C 4
def Image.manOff (i : Image) : Nat := leAt i.head 0x034 4
def Image.sigOff (i : Image) : Nat := leAt i.head 0x038 4
/-- Bytes of the signature block (R777). -/
def Image.sigAt (i : Image) (o n : Nat) : List Byte := (i.head.drop (i.sigOff + o)).take n
def Image.ekey (i : Image) : Nat := leAt i.head (i.sigOff + 4) 1
def Image.lkey (i : Image) : Nat := leAt i.head (i.sigOff + 5) 1
/-- The signed bytes of the head (R777). -/
def Image.signed (i : Image) : List Byte := i.head.take i.sigOff
/-- IMGHASH (R814). -/
def Image.hash (i : Image) : List Byte := sha384 i.signed

/-- Manifest entry of a bay: offset and length of its part, and its hash (R776). -/
def Image.partOff (i : Image) (b : Nat) : Nat := leAt i.head (i.manOff + 64 * b) 4
def Image.partLen (i : Image) (b : Nat) : Nat := leAt i.head (i.manOff + 64 * b + 4) 4
def Image.partHash (i : Image) (b : Nat) : List Byte := (i.head.drop (i.manOff + 64 * b + 16)).take 48

/-- The least and greatest image lengths (R774). -/
def imageMin : Nat := 2 ^ 16
def imageMax : Nat := 96 * 2 ^ 20

/-- An image of `len` bytes split at its HEAD_LEN. -/
def imageOf (d : List Byte) : Image := { head := d.take (leAt d 8 4), body := d.drop (leAt d 8 4) }

/-- What a fetch of the image brings: none when it ends with an error (R774). (DEDUCED, log 96) -/
def State.fetchImage (host : HostOutcome) (s : State) : Option Image × State :=
  let a := fieldOf (s.reg Reg.bootImgaddr) 63 12 * 4096
  let n := s.field Reg.bootImglen 31 0
  if n < imageMin ∨ imageMax < n then (none, s)
  else if s.dmaOk 0 a n = false then (none, s.dmaBlocked 0 a)
  else match host with
    | .good d => (some (imageOf (padTo n d)), s)
    | .poisoned _ _ => (none, s)
    | .aborted _ => (none, s)

/-- Lengths and offsets (R775, R776). -/
def Image.lengthsOk (i : Image) (len : Nat) : Bool :=
  let h := i.headLen
  let b := i.bodyLen
  let jnr := leAt i.head 0x020 4
  let jlen := leAt i.head 0x024 4
  let silc := leAt i.head 0x02C 4
  let slen := leAt i.head 0x030 4
  decide (h % 4096 = 0) && decide (2 ^ 16 ≤ h) && decide (h ≤ 12 * 2 ^ 20) && decide (b % 4096 = 0) && decide (b ≤ 84 * 2 ^ 20) &&
    decide (h + b = len) && decide (jnr + jlen ≤ i.sigOff) && decide (leAt i.head 0x028 4 < jlen) && decide (silc + slen ≤ i.sigOff) &&
    decide (slen ≤ 2 ^ 18) && decide (i.manOff + 84 * 64 ≤ i.sigOff) && decide (i.sigOff + 0xC10 ≤ h) &&
    (i.head.drop (i.sigOff + 0xC10)).all (fun x => x == 0) &&
    (List.range 84).all fun k => decide (i.partOff k % 4096 = 0) && decide (4096 ≤ i.partLen k) && decide (i.partLen k ≤ 2 ^ 20) &&
      decide (i.partOff k + i.partLen k ≤ b)

/-- The keys of the block are those fused for their slots, and neither slot is revoked (R777, R778). -/
def State.keysOk (s : State) (i : Image) : Bool :=
  let e := i.ekey
  let l := i.lkey
  decide (e < 4) && decide (l < 4) && !s.man.fuses.erevoke.getLsbD e && !s.man.fuses.lrevoke.getLsbD l &&
    sha384 (i.sigAt 0x008 96) == (Config.ecdsaDigest e).toList && sha384 (i.sigAt 0x0C8 56) == (Config.lmsDigest l).toList

/-- The reason for which an image is rejected at stage 7: the first check of R777 that fails. (PRESUMED, log 97) -/
def State.verifyReason (s : State) (i : Image) (len : Nat) : Option Nat :=
  if leAt i.head 0 4 ≠ 0x4E4A584F ∨ leAt i.head 5 1 ≠ 1 ∨ ofLe (i.sigAt 0 4) ≠ 0x4E474953 then some 1
  else if i.lengthsOk len = false then some 2
  else if leAt i.head 6 2 ≠ 0x00B1 then some 3
  else if s.keysOk i = false then some 4
  else if ecdsaVerify (i.sigAt 0x008 96) i.hash (i.sigAt 0x068 96) = false then some 5
  else if i.sigAt 0x0C8 8 ≠ lmsTypes ∨ lmsVerify (i.sigAt 0x0C8 56) i.signed (i.sigAt 0x100 2828) = false then some 6
  else none

/-- Every bay part's hash equals its HASH (R776, R777, R780). -/
def Image.partsOk (i : Image) : Bool :=
  (List.range 84).all fun b => sha384 ((i.body.drop (i.partOff b)).take (i.partLen b)) == i.partHash b

/-- `BOOT_IMAGE` and `BOOT_IMAGE2` of the image on pair 0's endpoint (R799). -/
def State.showImage (i : Image) (s : State) : State :=
  (s.setReg Reg.bootImage (BitVec.ofNat 64 i.version)).setReg Reg.bootImage2 (fld 63 32 i.iface ||| fld 31 24 i.ekey ||| fld 23 16 i.lkey)

/-- What the stage-7 record says of the image (R831). -/
def Image.recordBody (i : Image) : List Byte :=
  i.hash ++ leBytes 8 i.version ++ leBytes 4 i.iface ++ leBytes 1 i.ekey ++ leBytes 1 i.lkey

/-- A write of `BOOT_CTL.FETCH` is not ignored (R773). -/
def State.mayFetch (s : State) : Bool := decide (s.boot.stage = 6) && decide (s.boot.st = .waiting) && s.segUp 0

/-- `BOOT_FETCH`: a FETCH in stage 6; one that ends with an error posts 0x06A8 and stage 6 waits again (R773, R774, R779).
(DEDUCED, log 96) -/
def execBootFetch (host : HostOutcome) (s : State) : Out :=
  .next (
    if s.mayFetch = false then s
    else
      let s := s.modBoot fun b => { b with asked := b.asked &&& 2 }
      let q := s.fetchImage host
      match q.1 with
      | some i => (q.2.modBoot fun b => { b with image := some i, st := .running }).passStage 0x01 []
      | none =>
        let s := (q.2.postEnd 0x06A8 []).noteFail 0x06A8
        s.waitFetch)

/-- `IMAGE_VERIFY`: stage 7 (R775 to R779). -/
def execImageVerify (s : State) : Out :=
  .next (
    match s.boot.image with
    | none => s
    | some i =>
      if s.inStage 7 = false then s
      else match s.verifyReason i (s.field Reg.bootImglen 31 0) with
        | some r => s.rejectImage r
        | none => ((s.modBoot fun b => { b with running := some i }).showImage i).passStage 0x01 i.recordBody)

/-! ### Stage 8 (R433, R769, R780) -/

/-- A stack is trained; at a cold start every block of it is written with zeros (R433). -/
def State.trainStack (cold : Bool) (k : Nat) (s : State) : State :=
  let s := s.modStack k fun x => { x with up := true }
  if cold then
    let s := s.modStack k fun x => { x with poison := [], errs := [] }
    { s with comp := { s.comp with hbm := s.comp.hbm.filter fun c => decide (c.1 / 2 ^ 37 ≠ k) } }
  else s

/-- Where the two copies of the bay parts go: the lowest trained stack of each half, or both into one half (R50, R780). -/
def copyStacks (up : List Nat) : List Nat :=
  match up.find? (fun k => decide (k < 12)), up.find? (fun k => decide (12 ≤ k)) with
  | some w, some e => [w, e]
  | some k, none | none, some k => [k, k]
  | none, none => []

/-- Both copies of the bay parts are written into the device area (R434, R780, R791). (DESIGN CHOICE, log 20) -/
def State.placeParts (s : State) : State :=
  s.modBoot fun b => { b with copies := copyStacks ((List.range 24).filter fun k => s.segUp k && (s.stack k).up) }

/-- `HBM_TRAINING`: stage 8; the body's parts are hashed as they are placed. -/
def execHbmTraining (untrained : List Nat) (s : State) : Out :=
  .next (
    match s.boot.image with
    | none => s
    | some i =>
      if s.inStage 8 = false then s
      else
        let powered := (List.range 24).filter fun k => s.segUp k
        let ok := powered.filter fun k => !untrained.contains k
        let s := ok.foldl (fun s k => s.trainStack (!s.warm) k) s
        let s := s.placeParts
        if ok = [] then s.failStage 0x0881
        else if i.partsOk = false then s.rejectImage 7
        else s.passStage (passCode (ok.length < powered.length)) [])

/-! ### Stage 9 (R548, R556, R781 to R784, R789) -/

/-- A warm reset takes the fast path (R782). -/
def State.fastPath (s : State) : Bool :=
  s.warm && !(s.reg Reg.bootCfg).getLsbD 0 && s.boot.stage9.isSome && !s.boot.fencedSince && !s.boot.fatalSince

/-- The tile and direction of a link identifier (R547). -/
def linkOfId (i : Nat) : PT × Dir :=
  (tileOfId (i % 2 ^ 23), match i / 2 ^ 23 % 4 with
    | 0 => .north
    | 1 => .east
    | 2 => .south
    | _ => .west)

/-- The bay of a fenced tile, router or link. -/
def Fence.bay (e : Fence) : Nat := (tileOfId (e.id % 2 ^ 23)).bay

/-- At a cold start the routers and links of the fence set are taken out of the new fabric (R547, R551). -/
def State.applyFences (s : State) : State :=
  s.comp.fences.foldl (fun s e =>
    if e.kind = 2 ∧ s.isFenced 2 e.id then s.darken (tileOfId e.id)
    else if e.kind = 3 ∧ s.isFenced 3 e.id then
      let l := linkOfId e.id
      (s.linkDown l.1 l.2).rewriteEscape
    else s) s

/-- The visits of stage 9: four slices on every tile of the bay (R781). -/
def State.visitBay (b : Nat) (s : State) : State :=
  let s := s.modBayTiles b fun _ x => { x with plumb := { x.plumb with last := s.now, lastPass := some s.now, lastRes := 1, seed := 4 } }
  s.bumpWrap (Reg.silPlumbstat b) 63 40 49152

/-- Units of a bay on the fuse map that passed the test (R556). -/
def State.fusePassed (s : State) (b : Nat) (failed : Fence → Bool) : Nat :=
  s.comp.fences.countP fun e => e.fuse && decide (e.kind ≤ 3) && decide (e.bay = b) && !failed e

/-- Stage 9 in full: bays without a good part in either copy, then failing tiles, routers and links are fenced; units of the
fuse map that pass are reported bay by bay (R548, R556, R781). (DEDUCED, log 98) -/
def State.selfTest (tiles routers links badParts : List Nat) (s : State) : State :=
  let parts := if s.boot.copies = [] then List.range 84 else badParts
  let tested := (List.range 84).filter fun b => decide ((s.bay b).supply = .on) && !parts.contains b
  let s := parts.foldl (fun s b => if b < 84 ∧ (s.bay b).supply = .on then s.loseBay b 0 else s) s
  let s := if s.warm then s else s.applyFences
  let s := tested.foldl (fun s b => s.visitBay b) s
  let there := fun (t : PT) => t.valid && tested.contains t.bay
  let s := tiles.foldl (fun s k => if there (PT.ofKey k) then s.fenceTile (PT.ofKey k) 0 else s) s
  let s := routers.foldl (fun s k => if there (PT.ofKey k) then s.fenceRouter (PT.ofKey k) 0 else s) s
  let s := links.foldl (fun s i =>
    let l := linkOfId i
    if there l.1 ∧ (l.1.step l.2).isSome then s.fenceLink l.1 l.2 0 else s) s
  let failed := fun (e : Fence) =>
    if e.kind = 3 then links.contains e.id
    else (if e.kind = 1 then tiles else routers).contains (tileOfId e.id).key
  let s := tested.foldl (fun s b =>
    let n := s.fusePassed b failed
    if n = 0 then s else s.signal Ev.fuseDisagreePass (s.bayOwner b) [b, n]) s
  s.modBoot fun x => { x with stage9 := some s.now, fatalSince := false, fencedSince := false }

/-- `BAY_SELF_TEST`: stage 9, in full or skipped by the fast path; it waits while the module is halted (R781 to R784, R789).
(DEDUCED, log 98) -/
def execBaySelfTest (failedTiles failedRouters failedLinks badParts : List Nat) (s : State) : Out :=
  .next (
    if s.inStage 9 = false ∨ s.phys.power.halted then s
    else if s.fastPath then
      ((s.setField Reg.bootStage 31 31 1).signal Ev.bootFastpath 0 []).passStage 0x03 []
    else
      let n := s.fenceSet.length
      let s := s.selfTest failedTiles failedRouters failedLinks badParts
      s.passStage (passCode (n < s.fenceSet.length)) [])

/-! ### Stages 10 and 11 (R357, R571 to R573, R769) -/

/-- `ROUTE_BUILD`: stage 10; every router's tables are emptied and its epoch is 0. -/
def execRouteBuild (tablesGood : Bool) (s : State) : Out :=
  .next (
    if s.inStage 10 = false then s
    else if tablesGood = false then s.failStage 0x0A81
    else
      let s := (List.range 84).foldl (fun s b => if (s.bay b).supply = .on then
        s.modBayRouters b fun _ r => { r with gen := 0, tv := false, ep := false, scarf0 := [], scarf1 := [], fab0 := FabTables.empty, fab1 := FabTables.empty } else s) s
      s.rewriteEscape.passStage 0x01 [])

/-- The fence set, as the rebuild of the map compares it (R357). -/
def State.fenceKeys (s : State) : List (Nat × Nat) := s.fenceSet.map fun e => (e.kind, e.id)

/-- Place the logical tiles of a bay in it; true when every one found a place (R357). -/
def State.placeHome (x : Site) : List LT → State → Bool × State
  | [], s => (true, s)
  | l :: r, s =>
    match s.spareAtHome x l with
    | none => (false, s)
    | some t => (s.setHost l t).placeHome x r

/-- Rebuild one bay: whether it is complete (R357, R571); a fused void bay has no logical tiles (R43). -/
def State.rebuildBay (b : Nat) (s : State) : Bool × State :=
  if (s.bay b).supply ≠ .on ∨ s.isFenced 6 b ∨ s.man.fuses.voids.testBit b = true then (false, s)
  else s.placeHome { f := Frame.unset, bays := [b], reserve := [], named := fun _ => true, out := [] } (s.lostHomes b)

/-- Passing tiles of a bay. -/
def State.passing (s : State) (b : Nat) : Nat := 12288 - ((s.fencedIn b).foldl (fun l t => if l.contains t then l else l ++ [t]) []).length

/-- `n` further bays to void: those with the fewest passing tiles, the lower number first on a tie (R571). -/
def State.furtherVoids (s : State) : Nat → List Nat → List Nat
  | 0, v => v
  | n + 1, v =>
    match minBy (fun b => s.passing b * 128 + b) ((List.range 84).filter fun b => !v.contains b) with
    | some b => s.furtherVoids n (v ++ [b])
    | none => v

/-- The void set and the field grade from the fused void bays and the incomplete ones (R571). -/
def State.gradeOf (s : State) (u : List Nat) : List Nat × Nat :=
  let n := u.length
  if 8 < n then (u, 0)
  else
    let m := if n = 0 then 0 else if n ≤ 4 then 4 else 8
    (s.furtherVoids (m - n) u, 84 - m)

/-- A mask from bay numbers. -/
def maskOf (l : List Nat) : Nat := (List.range 84).foldl (fun m b => if l.contains b then m + 2 ^ b else m) 0

/-- The rebuild of the logical map: homes restored, other logical tiles placed in their home bays, the grade decided, those of
void bays without a host (R43, R354, R357, R571, R572): true when the grade is degraded. -/
def State.rebuildMap (s : State) : Bool × State :=
  let old := s.comp.hosts
  let s := { s with comp := { s.comp with hosts := [] } }
  let r := (List.range 84).foldl (fun (a : List Nat × State) b =>
    let q := a.2.rebuildBay b
    (if q.1 then a.1 else a.1 ++ [b], q.2)) ([], s)
  let s := r.2
  let u := (List.range 84).filter fun b => s.man.fuses.voids.testBit b || r.1.contains b
  let g := s.gradeOf u
  let s := s.modBoot fun x => { x with voids := maskOf g.1, grade := g.2, rebuilt := some s.fenceKeys }
  let s := s.modComp fun c => { c with hosts := c.hosts.filter fun e => !g.1.contains (LT.ofKey e.1).bay }
  let ls := (sortLT ((hostDiff old s.comp.hosts).map fun e => LT.ofKey e.1)).filter fun l => !g.1.contains l.bay
  let s := s.recordHostings 0 old ls
  if g.2 < s.man.fuses.grade then
    (true, s.signal Ev.gradeDegraded 0 [g.2, maskOf g.1 % 2 ^ 64, maskOf g.1 / 2 ^ 64])
  else (false, s)

/-- The fence set is that of the last rebuild (R357). -/
def State.sameFences (s : State) : Bool := match s.boot.rebuilt with
  | none => false
  | some ks => ks.all s.fenceKeys.contains && s.fenceKeys.all ks.contains

/-- `GRADING_AND_MAP`: stage 11 (R357, R571, R769). -/
def execGradingAndMap (s : State) : Out :=
  .next (
    if s.inStage 11 = false then s
    else if s.warm = false ∧ s.sameFences = false then
      let q := s.rebuildMap
      q.2.passStage (passCode q.1) []
    else s.passStage 0x01 [])

/-! ### Stages 12 and 13 (R468 to R470, R651, R769, R786, R861, R870) -/

/-- A port that is not UP trains in stage 12; what it found is given, or nothing passed. -/
def State.trainPort (found : List (Nat × Training)) (s : State) (p : Nat) : State :=
  let none_ : Training := { rxPass := [], txPass := [], partnerAddr := 0, partnerPort := 0, partnerRole := 7 }
  if s.segUp (3 * p / 4) = false ∨ (s.stlp p).st = .up then s
  else if s.portEn p = false then s.modStlp p fun x => { x with st := .down }
  else
    let t := ((found.find? fun e => e.1 == p).map fun e => e.2).getD none_
    (s.modStlp p fun x => { x with st := .training, trained := false, backoff := 1 }).endTraining p t

/-- `LINK_TRAINING`: stage 12. -/
def execLinkTraining (found : List (Nat × Training)) (s : State) : Out :=
  .next (
    if s.inStage 12 = false then s
    else
      let s := (List.range 32).foldl (fun s p => s.trainPort found p) s
      let down := (List.range 32).any fun p => s.portEn p && decide ((s.stlp p).st ≠ .up)
      s.passStage (passCode down) [])

/-- The pair that takes the duty or endpoint of pair `k` at stage 13: itself, or its successor (R468 to R470). -/
def State.taker (s : State) (k : Nat) : Option Nat := if s.pairLive k then some k else s.successor k

/-- Duty `d` goes to pair `d` or its successor, and the endpoint of pair `k` to pair `k` or its successor (R468 to R470). -/
def State.giveDuties (s : State) : State :=
  let s := (List.range 48).foldl (fun s k => match s.taker k with
    | none => s
    | some j =>
      let s := s.setPair j { s.pair j with adopted := (s.pair j).adopted ||| ((1 : BitVec 48) <<< k) }
      s.setPair k { s.pair k with cluster := j / 4 }) s
  (List.range 43).foldl (fun s d => match s.taker d with
    | none => s
    | some j => s.setPair j { s.pair j with duties := withField (s.pair j).duties d d 1 }) s

/-- A tile as stage 13 leaves it (R870). -/
def Tile.atReady (now : Nat) (x : Tile) : Tile :=
  let y := x.toReset
  { y with
    plumb := { y.plumb with idleAt := now }
    r := { y.r with ports := [] }, queues := [], s := { y.s with seq := .idle }
    c := { y.c with entry := 0, startq := 0, ceLim := 16, gen := 0 } }

/-- `BOOT_READY`: stage 13 (R769, R861, R870). -/
def execBootReady (s : State) : Out :=
  .next (
    if s.inStage 13 = false then s
    else
      let s := s.giveDuties
      let s := (List.range 84).foldl (fun s b => if (s.bay b).supply = .on then s.releaseBay b (Tile.atReady s.now) else s) s
      let s := s.postEnd 0x0D01 []
      s.modBoot fun b => { b with st := .ready, endAt := some s.now, faultPin := if s.warm then false else b.faultPin })

end Sys2Proof.Machine
end

