-- ==== Sys2Proof/Machine/Live.lean ====
section
/-!
DEFINITION. A pair that leaves service, and live replacement (spec 10_joiners R465, R466; 17_bringup R766, R791 to R798).
-/

namespace Sys2Proof.Machine

/-- Stages 5 to 7 run on a pair of cluster 0 that stops: bring-up restarts at stage 5 on the next one (R766). -/
def State.romPairLost (k : Nat) (s : State) : State :=
  let b := s.boot
  if 5 ≤ b.stage ∧ b.stage ≤ 7 ∧ b.st ≠ .failed ∧ b.pair = k then
    (s.modBoot fun b => { b with image := none }).beginStage 5
  else s

/-- `JNR_LOCKSTEP`: the pair stops and its duties pass on (R465, R466, R766). -/
def execJnrLockstep (pair : Nat) (s : State) : Out :=
  .next (
    if 48 ≤ pair ∨ s.pairLive pair = false then s
    else
      let s := ((s.setPair pair { s.pair pair with stopped := true, readWait := none }).resetCores pair true).signal Ev.jnrLockstep 0 [pair]
      (s.takeover pair).romPairLost pair)

/-! ### Live replacement -/

/-- `BOOT_LIVE.ST` (R799). -/
def State.liveSt (s : State) : Nat := s.field Reg.bootLive 63 60
def State.setLiveSt (n : Nat) (s : State) : State := s.setField Reg.bootLive 63 60 n

/-- A record of a live image: its code and the image (R831). (DESIGN CHOICE, log 93) -/
def State.liveRecord (code : Nat) (i : Image) (s : State) : State := s.sendRecord 0x0011 3 0 (leBytes 2 code ++ leBytes 6 0 ++ i.hash ++ leBytes 8 i.version)

/-- A live image is refused with a reason (R792). -/
def State.refuseLive (reason : Nat) (i : Image) (s : State) : State :=
  ((s.setLiveSt 5).setField Reg.bootLive 59 56 reason).liveRecord (0x0EA0 + reason) i

/-- Why a live image is refused: the checks of R777 on the head, COMPAT, then the hashes of R780 (R792). -/
def State.liveReason (s : State) (i : Image) : Option Nat :=
  match s.verifyReason i (s.field Reg.bootImglen 31 0) with
  | some r => some r
  | none =>
    let now := (s.boot.running.map Image.iface).getD 0
    if now < i.compat ∨ i.iface < now then some 9
    else if i.partsOk = false then some 7
    else none

/-- A write of `BOOT_CTL.LIVE` is not ignored (R791). -/
def State.mayLive (s : State) : Bool :=
  let st := s.liveSt
  decide (s.boot.st = .ready) && s.segUp 0 && (decide (st = 0) || decide (st = 4) || decide (st = 5) || decide (st = 6))

/-- `BOOT_LIVE`: a LIVE write (R791, R792, R795). -/
def execBootLive (host : HostOutcome) (s : State) : Out :=
  .next (
    let st := s.liveSt
    if s.mayLive = false then s
    else
      let s := s.modBoot fun b => { b with asked := b.asked &&& 1 }
      let q := s.fetchImage host
      match q.1 with
      | none => q.2.refuseLive 8 { head := [], body := [] }
      | some i =>
        let s := q.2
        match s.liveReason i with
        | some r => s.refuseLive r i
        | none =>
          let s := if st = 6 then s else s.setField Reg.bootLive 51 40 0
          let s := ((s.setLiveSt 3).setField Reg.bootLive 59 56 0).placeParts
          s.modBoot fun b => { b with liveImage := some i, liveAt := s.now })

/-- The live pairs of a cluster. -/
def State.livePairs (s : State) (c : Nat) : List Nat := ((List.range 4).map fun p => 4 * c + p).filter fun k => s.pairLive k

/-- The cluster to be replaced: the lowest that has a live pair and does not run the new image (R793).
(DEDUCED, log 95) -/
def State.liveCluster (s : State) : Option Nat :=
  (List.range 12).find? fun c => decide (s.livePairs c ≠ []) && !(s.reg Reg.bootLive).getLsbD (40 + c)

/-- Partition `p` is in a recovery (R795). -/
def State.inRecovery (s : State) (p : Nat) : Bool :=
  let x := s.part p
  (decide (x.heal.st ≠ .none) && decide (x.heal.st ≠ .stopped)) || decide (x.commit.df ≠ .none) || s.applying p || decide (x.queued ≠ [])

/-- A duty of the pair is in a recovery (R468, R795). -/
def State.pairInRecovery (s : State) (k : Nat) : Bool :=
  let d := (s.pair k).duties
  (List.range 8).any fun i => (d.getLsbD (1 + i) || d.getLsbD (9 + i) || d.getLsbD (17 + i)) && s.inRecovery (i + 1)

/-- Every basin of an endpoint is empty and its source holds all its credits (R479, R794). -/
def State.basinsIdle (s : State) (ep : Nat) : Bool := (List.range 32).all fun n => !(s.basin ep n).en || (s.basin ep n).idle

/-- The pairs of a cluster can be handed over: no recovery, no work and no message is left (R794, R795).
(DEDUCED, log 95) -/
def State.mayReplace (s : State) (c : Nat) : Bool :=
  (s.livePairs c).all fun k => !s.pairInRecovery k &&
    (setBits 48 (s.pair k).adopted.toNat).all fun e => s.basinsIdle (pairEp e) && (s.sport (pairEp e)).waiting.isNone

/-- `LIVE_CLUSTER_REPLACE`: the pairs of cluster `c` are handed over, reloaded and restored (R793, R794, R796). -/
def execLiveClusterReplace (c : Nat) (s : State) : Out :=
  .next (
    match s.boot.liveImage with
    | none => s
    | some i =>
      if s.liveSt ≠ 3 ∨ s.liveCluster ≠ some c ∨ s.mayReplace c = false then s
      else
        let s := (s.livePairs c).foldl (fun s k => (s.setPair k { s.pair k with readWait := none }).resetCores k false) s
        let s := s.setField Reg.bootLive (40 + c) (40 + c) 1
        let s := s.modBoot fun b => { b with liveAt := s.now }
        let s := if (s.server 0).any fun j => j / 4 == c then (s.modBoot fun b => { b with running := some i }).showImage i else s
        s.signal Ev.fwClusterReloaded 0 [c, i.version])

/-- `LIVE_REPLACE_STOP`: the replacement has waited 10 s for recoveries (R795). -/
def execLiveReplaceStop (s : State) : Out :=
  .next (
    match s.liveCluster with
    | none => s
    | some c =>
      if s.liveSt ≠ 3 ∨ (s.livePairs c).any (fun k => s.pairInRecovery k) = false then s
      else (s.passTo (s.boot.liveAt + 10 * secondNs)).setLiveSt 6)

/-- `SILL_RELOAD`: after the last cluster the Sill controllers reload, and the replacement is done (R797, R798, R831). -/
def execSillReload (s : State) : Out :=
  .next (
    match s.boot.liveImage with
    | none => s
    | some i =>
      if s.liveSt ≠ 3 ∨ s.liveCluster ≠ none then s
      else
        let s := s.modBoot fun b => { b with running := some i, liveImage := none }
        ((s.setLiveSt 4).showImage i).liveRecord 0x0E04 i)

end Sys2Proof.Machine
end

