-- ==== Sys2Proof/Machine/Attestation.lean ====
section
/-!
DEFINITION. The key engine and attestation, the identity and Grain-log registers as both sets show them, the writer's commits
(spec 18_identity R800 to R818, R820 to R827, R832 to R837).
-/

namespace Sys2Proof.Machine

/-! ### Attestation (R806 to R818) -/

def State.attest (s : State) : Inst → Attest
  | .pcie => s.man.attPcie
  | .i3c => s.man.attI3c
def State.setAttest (i : Inst) (x : Attest) (s : State) : State :=
  match i with
  | .pcie => s.modMan fun m => { m with attPcie := x }
  | .i3c => s.modMan fun m => { m with attI3c := x }

/-- The 64 bytes of a partition in the report (R814). -/
def State.reportPart (s : State) (p : Nat) : List Byte :=
  let x := (s.part p).own
  let gen := s.field (Reg.prtFrameStat p) 63 48
  match x.frame with
  | some f =>
    if x.present = false ∨ gen = 0 then List.replicate 64 0
    else
      leBytes 1 1 ++ leBytes 1 (flag f.signedBy.isSome) ++ leBytes 2 gen ++ leBytes 1 (f.signedBy.getD 0xFF) ++ leBytes 3 0 ++
        leBytes 8 (s.stepNo p).toNat ++ padTo 48 x.fhash
  | none => List.replicate 64 0

/-- The first four bytes of a report, "ATRT" as a number. -/
def reportMagic : Nat := 0x54525441

/-- The 256 bytes of the report before the partitions (R814). -/
def State.reportHead (s : State) (nonce : Tab Word) : List Byte :=
  let f := s.man.fuses
  let img := s.boot.running
  let num := fun (g : Image → Nat) => (img.map g).getD 0
  leBytes 4 reportMagic ++ leBytes 2 0x0100 ++ leBytes 2 0x00B1 ++ leBytes 16 f.serial.toNat ++ leBytes 1 f.grade ++
  leBytes 1 s.boot.grade ++ leBytes 6 0 ++ leBytes 11 f.voids ++ leBytes 5 0 ++ leBytes 11 s.boot.voids ++ leBytes 5 0 ++
  leBytes 8 s.now ++ leBytes 8 s.grain.boots ++ ((List.range 4).flatMap fun k => leBytes 8 (Tab.get 0 nonce k).toNat) ++
  (img.map Image.hash).getD (List.replicate 48 0) ++
  leBytes 8 (num Image.version) ++ leBytes 4 (num Image.iface) ++ leBytes 1 (num Image.ekey) ++ leBytes 1 (num Image.lkey) ++
  leBytes 2 0 ++ leBytes 8 s.grain.chainN ++ leBytes 8 0 ++ padTo 48 s.grain.chain ++ leBytes 16 0

/-- The 768 bytes of the report body (R814). -/
def State.reportBody (s : State) (nonce : Tab Word) : List Byte :=
  s.reportHead nonce ++ (List.range 8).flatMap fun i => s.reportPart (i + 1)

/-- Bytes of the signatures and of the report (R816). -/
def sigBytes : Nat := 96 + 5716
def reportLen : Nat := 768 + sigBytes

/-- The request at the head of the queue fails (R818). -/
def State.failHead (reason : Nat) (s : State) : State :=
  match s.man.attQueue with
  | [] => s
  | i :: r =>
    let s := s.setAttest i { s.attest i with st := 4, reason := reason }
    s.modMan fun m => { m with attQueue := r }

/-- A reservation is on its way to the log (R807, R808). -/
def State.reserving (s : State) : Bool := (s.grain.waiting ++ s.grain.queue).any fun r => r.type == 0x0080

/-- Ask for the next leaves: 64 more, or the next bottom tree (R807, R808). -/
def State.reserve (s : State) : State :=
  let x := s.man.lms
  if s.reserving then s
  else if x.botq < 2 ^ 20 then s.sendRecord 0x0080 4 0 (leBytes 4 x.topq ++ leBytes 4 (min (x.botq + 64) (2 ^ 20)))
  else s.sendRecord 0x0080 4 0 (leBytes 4 (x.topq + 1) ++ leBytes 4 64)

/-- Serve the request at the head: it fails for want of a state or of keys, waits for the trees, the chain or a reservation,
or its signing begins (R805 to R813, R828). -/
def State.startSigning (s : State) : State :=
  let x := s.man.lms
  match s.man.attQueue with
  | [] => s
  | i :: _ =>
    let a := s.attest i
    if a.st ≠ 1 ∨ s.segUp 0 = false then s
    else if x.valid = false then s.failHead 3
    else if x.botq = 2 ^ 20 ∧ 2 ^ 20 ≤ x.topq + 1 then s.failHead 4
    else if x.ready = false ∨ s.grain.scanned = false then s
    else if x.limit ≤ x.botq then s.reserve
    else s.setAttest i { a with st := 2, body := s.reportBody a.nonce }

/-- A GO of either set (R812, R813). -/
def State.writeGo (i : Inst) (s : State) : State :=
  let a := s.attest i
  if a.st = 1 ∨ a.st = 2 ∨ s.segUp 0 = false then s
  else
    let s := s.setAttest i { a with st := 1, reason := 0 }
    (s.modMan fun m => { m with attQueue := m.attQueue ++ [i] }).startSigning

/-- `ATTEST_GO`. -/
def execAttestGo (i : Inst) (s : State) : Out := .next (s.writeGo i)

/-- `KEY_TREES_READY`: the authentication paths are complete (R805). -/
def execKeyTreesReady (s : State) : Out :=
  .next (if s.segUp 0 ∧ s.man.lms.valid then (s.modLms fun x => { x with ready := true }).startSigning else s)

/-- `ATTEST_SIGN_DONE`: the report of the request in progress is written and the leaf is spent, and a bottom tree used up asks for the
next one; the next request is served (R807, R808, R813, R816, R818). (DEDUCED, log 101) -/
def execAttestSignDone (s : State) : Out :=
  .next (
    let s := s.startSigning
    match s.man.attQueue with
    | [] => s
    | i :: r =>
      let a := s.attest i
      if a.st ≠ 2 then s
      else
        let x := s.man.lms
        let leaf := x.botq
        let sig := padTo sigBytes (ecdsaSign devicePriv a.body ++ hssSign x.topq leaf a.body)
        let s := s.setAttest i { a with st := 3, reason := 0, report := a.body ++ sig, body := [] }
        let s := (s.modLms fun x => { x with botq := leaf + 1 }).modMan fun m => { m with attQueue := r }
        let s := if leaf + 1 = 2 ^ 20 ∧ x.topq + 1 < 2 ^ 20 then s.reserve else s
        (s.signal Ev.attestIssued 0 [match i with
          | .pcie => 0
          | .i3c => 1, x.topq, leaf]).startSigning)

/-- `GRN_RECORD_COMMIT` (R821, R822, R825): a committed reservation lets the waiting request go on; one that cannot be written
ends it with reason 1 (R807, R818, R826). -/
def execGrnRecordCommit (abandoned : Nat) (s : State) : Out :=
  .next (
    let lms : Bool := match nextRec s.grain.queue with
      | some r => r.type == 0x0080
      | none => false
    let t := s.commitNext abandoned
    let failed := s.grain.retryAt.isNone && t.grain.retryAt.isSome
    if lms && failed then t.failHead 1 else if lms then t.startSigning else t)

/-! ### The identity and log registers of a set (R834 to R837) -/

/-- Eight bytes of a byte string, as a register shows them. -/
def wordAt (d : List Byte) (k : Nat) : Word := BitVec.ofNat 64 (leAt d (8 * k) 8)

/-- The `ID_` register at offset `a` below 0x3000 (R836). -/
def State.idReg (s : State) (i : Inst) (a : Nat) : Word :=
  let f := s.man.fuses
  let x := s.attest i
  let l := s.man.lms
  if a = 0 then f.serial.extractLsb' 0 64
  else if a = 0x8 then f.serial.extractLsb' 64 64
  else if a = 0x10 then fld 47 32 0x00B1 ||| fld 31 24 f.grade
  else if a = 0x18 then BitVec.ofNat 64 f.voids
  else if a = 0x20 then BitVec.ofNat 64 (f.voids / 2 ^ 64 % 2 ^ 20)
  else if a = 0x28 then fld 31 0 s.grain.boots
  else if 0x40 ≤ a ∧ a < 0xA0 then wordAt devicePub ((a - 0x40) / 8)
  else if 0xA0 ≤ a ∧ a < 0xE0 then wordAt (padTo 64 devicePubHss) ((a - 0xA0) / 8)
  else if a = 0x108 then fld 63 60 x.st ||| fld 59 56 x.reason ||| fld 15 0 x.report.length
  else if 0x110 ≤ a ∧ a < 0x130 then Tab.get 0 x.nonce ((a - 0x110) / 8)
  else if a = 0x140 then fld 63 43 l.topq ||| fld 42 22 l.botq ||| fld 21 1 l.limit ||| fld 0 0 (flag l.ready)
  else if 0x1000 ≤ a ∧ a < 0x3000 then wordAt x.report ((a - 0x1000) / 8)
  else 0

/-- The oldest sequence number that an area still holds: a ring loses a slot when it is used again or its sector has been
erased (R823, R824, R837). (DEDUCED, log 100) -/
def Grain.first (g : Grain) (a : Nat) : Nat :=
  if a = 0 then 0
  else
    let e := Tab.get 0 g.erased a
    max (g.nextSeq a - areaSlots a) (if e = 0 then 0 else e + 255 - areaSlots a)

/-- The `GRN_` register at offset `a` from 0x30100 to 0x302FF (R837). -/
def State.grnReg (s : State) (i : Inst) (a : Nat) : Word :=
  let g := s.grain
  let r := s.reader i
  if a = Reg.grnStat then
    (s.reg a &&& 0xFFFFFFFF00000000) ||| fld 3 3 (flag g.scanned) ||| fld 2 2 (flag g.full) ||| fld 1 1 (flag g.near) |||
      fld 0 0 (flag g.scanned)
  else if 0x30108 ≤ a ∧ a < 0x30128 then
    let n := (a - 0x30108) / 8
    fld 63 32 (g.nextSeq n) ||| fld 31 0 (g.first n)
  else if a = Reg.grnRsel then r.sel
  else if a = Reg.grnRstat then fld 63 62 r.st ||| fld 31 0 r.seq.toNat
  else if 0x30140 ≤ a ∧ a < 0x30170 then wordAt g.chain ((a - 0x30140) / 8)
  else if 0x30200 ≤ a ∧ a < 0x30300 then wordAt r.buf ((a - 0x30200) / 8)
  else 0

end Sys2Proof.Machine
end

