-- ==== Sys2Proof/Machine/FrameApply.lean ====
section
/-!
DEFINITION. FRAME_CHECK and FRAME_APPLY (spec 05_frame R255 to R267; 07_scriber R338, R350, R351, R371; 13_host R610, R611,
R616).
-/

namespace Sys2Proof.Machine

/-! ### Step 1: placement (R338, R350, R351, R367) -/

/-- Logical tiles hosted at home places of bays that the Frame sets (R338), with the places they lose. -/
def State.evicted (s : State) (p : Nat) (f : Frame) : List (LT × PT) :=
  s.comp.hosts.filterMap fun e => match e.2 with
    | some t =>
      let l := LT.ofKey e.1
      if s.bayOwner l.bay = p ∧ t.isSpare = false ∧ f.baymap.testBit t.bay ∧ l.bay ≠ t.bay then some (l, t) else none
    | none => none

/-- The logical tiles that take their home places back (R338). -/
def State.takeHomes (es : List (LT × PT)) (s : State) : State :=
  es.foldl (fun s e => match e.2.homeOf with
    | some m => if s.liveTile e.2 then s.setHost m e.2 else s
    | none => s) s

/-- Place the logical tiles for a Frame: the named ones that lost a host to the Frame or whose host has failed; one that is not
named takes no spare (R334). The logical tiles whose host changed, and whether every one was placed. -/
def State.placeFrame (p : Nat) (f : Frame) (s : State) : State × List LT × Bool :=
  let bays := s.baysOf p
  let es := s.evicted p f
  let back := es.filterMap fun e => e.2.homeOf.bind fun m => if s.liveTile e.2 && decide (s.hostOf m ≠ e.2) then some m else none
  let need := sortLT ((es.map (·.1)).filter f.isNamed ++ f.named.filter fun l => s.hostFailed bays l && !back.contains l)
  let q := ((es.foldl (fun s e => s.unhost e.2) s).takeHomes es).placeAll p (s.site p f) need
  let ls := sortLT (back ++ q.2.1)
  (q.1.recordHostings p s.comp.hosts ls, ls, q.2.2 && !f.scarfFull)

/-- The allocations take effect: their record, the spread share, the basin and the slice (R367, R409, R436). -/
def State.setPlaced (p : Nat) (a : Placed) (s : State) : State :=
  let s := s.modOwn p fun o => { o with store := some a.store, allocs := a.allocs }
  let ks := s.stacksOf p
  let s := s.setReg (Reg.prtHbmSpread p) (fld 39 32 a.share ||| fld 31 24 ks.length ||| fld 23 0 (ks.foldl (fun m k => m + 2 ^ k) 0))
  let s := match s.alloc p basinAllocKey with
    | some b => s.setField (Reg.prtBasin p) 43 32 (b.base / gib)
    | none => s
  s.setField (Reg.prtStage p) 47 32 (a.slice / 2 ^ 26)

/-! ### The later steps (R260) -/

/-- Steps 2 and 3: every tile of the partition is reset and emptied, then configured. -/
def State.configFrame (p : Nat) (f : Frame) (s : State) : State :=
  let bays := s.baysOf p
  let s := s.regionsEmptied p
  let s := bays.foldl (fun s b => (s.cycleBay b).clearPorts b) s
  f.named.foldl (fun s l => s.configTile f l) s

/-- Step 6: the Layer Table, each layer with its UPD (R389, R390, R398). (DESIGN CHOICE, log 33) -/
def State.setLayers (p : Nat) (f : Frame) (kept : Nat → Bool) (s : State) : State :=
  let place := fun (r : LayerRec) => s.layerStack p r
  s.modPln p fun y =>
    let upd := fun (r : LayerRec) => if kept r.w then Tab.get 0 y.recs r.w else 0
    { y with
      layers := f.layers.foldl (fun ls r => Tab.set Layer.reset ls r.layer
        { Layer.reset with st := if r.freeze then .frozen else .idle, upd := upd r, engine := place r }) []
      recs := y.recs.filter fun e => kept e.1
      firstReadyAt := none }

/-- Step 8: GEN and the header's values, every region DRAINED, the step's record afresh (R219, R260, R616). -/
def State.finishApply (p : Nat) (f : Frame) (s : State) : State :=
  let s := (s.baysOf p).foldl (fun s b =>
    (s.modBayTiles b fun _ x => { x with c := { x.c with gen := f.gen } }).modBayRouters b fun _ r => { r with gen := f.gen }) s
  let s := ((s.setField (Reg.prtFrameStat p) 63 48 f.gen.toNat).setField (Reg.prtFrameStat p) 47 32 0).setField
    (Reg.prtFrameStat p) 19 16 0
  let s := (s.setFrameSt p .ready).setReg (Reg.prtFrameSeed p) f.seed
  let s := s.setReg (Reg.prtFramePolicy p) (fld 55 48 f.maxhop ||| fld 47 32 f.sightK ||| fld 31 0 f.policy.toNat)
  let s := (List.range 4).foldl (fun s k => s.setReg (Reg.prtDrainedk p k) 0) s
  let s := s.modRun p fun r => { r with regions := [] }
  let s := f.regionIds.foldl (fun s r =>
    (s.setRegion p r { st := .drained, mode := .purge, goAt := s.now }).setField (Reg.prtDrainedk p (r / 64)) (r % 64) (r % 64) 1) s
  let s := s.modCommit p fun c => { Commit.reset with bounds := c.bounds }
  let s := s.modHeal p fun h => { Heal.reset with restarts := h.restarts }
  let s := s.relink p
  s.signal Ev.frameApplied p [p, f.gen.toNat]

/-- FRAME_APPLY_FAIL at a step: the partition is purged and has no Frame (R263). The allocations are those of the last
applied Frame. -/
def State.applyFail (p step : Nat) (old : PartOwn) (share : Nat) (s : State) : State :=
  let s := s.regionsEmptied p
  let s := (s.baysOf p).foldl (fun s b => s.cycleBay b) s
  let s := s.dropFrame p
  let s := s.modOwn p fun o => { o with store := old.store, allocs := old.allocs }
  let s := s.setField (Reg.prtHbmSpread p) 39 32 share
  s.signal Ev.frameApplyFail p [p, step]

/-- The body of a Frame (R220). -/
def frameBody (d : List Byte) : List Byte := if leAt d 0x28 4 = 0 then d else d.take (leAt d 0x28 4)

/-- The steps of an application before the placement: the partition is purged in epoch mode, its layers are reset and its
old Frame ends (R259 to R261, R417). -/
def State.applyBegin (p : Nat) (epoch : Bool) (s : State) : State :=
  let s := if epoch ∧ (s.part p).own.frame.isSome then s.purgeAll p else s
  (s.planeReset p).modOwn p fun o => { o with frame := none }

/-- The Frame store takes the Frame (R255, R367). -/
def State.applyStore (p : Nat) (d : List Byte) (a : Placed) (s : State) : State := ((s.setPlaced p a).writeRange p a.store.base d).2

/-- The steps after the windows are loaded: the tables change, READY is shown, and with AUTO_OPEN the regions reopen
(R261, R523). -/
def State.applyEnd (p : Nat) (epoch open_ : Bool) (d : List Byte) (f : Frame) (kept : Nat → Bool)
    (s : State) : State :=
  let s := s.modRun p fun r => { r with
    weirs := [], fnodes := [], windows := [], floats := f.initFloats, chunksUsed := 0
    gateways := Tab.mapVals Gateway.reset (fun _ g => { g with triggers := 0, pos := none, started := false }) r.gateways }
  let s := s.setLayers p f kept
  let s := s.modOwn p fun o => { o with
    frame := some f, lastFrame := some f, placed := true, schedule := [], stopped := false
    fhash := sha384 (frameBody d) }
  let s := if epoch then s.flipEpoch p f f.gen else s.tablesInPlace p f
  let s := (s.finishApply p f).publish p
  if open_ then (f.regionIds.foldl (fun s r => s.reopenRegion p r) s).maybeBegin p else s

/-- The layers that keep their UPD: those whose tensor the old placement keeps. (DESIGN CHOICE, log 33) -/
def State.keptBy (s : State) (p : Nat) (f : Frame) (t : Nat) : Bool :=
  match f.tensor t with
  | some r => (s.keeps p r).isSome
  | none => false

/-- Application of a validated Frame (R259 to R263, R815): the failing step, or none. A poisoned Frame store or tensor fails it
and resets nothing else (R448). (DESIGN CHOICE, log 32) -/
def State.applyFrame (p : Nat) (epoch open_ : Bool) (d : List Byte) (f : Frame) (s : State) : Option Nat × State :=
  let old := (s.part p).own
  let share := s.field (Reg.prtHbmSpread p) 39 32
  let q := (s.applyBegin p epoch).placeFrame p f
  match q.2.2, s.allocate p f d.length with
  | true, some a =>
    let r := (q.1.applyStore p d a).readStore p f
    if r.2.1 ≠ [] then (some 3, r.2.2.applyFail p 3 old share)
    else
      let w := (r.2.2.configFrame p r.1).loadWindows p r.1
      if w.1 ≠ [] then (some 4, w.2.applyFail p 4 old share)
      else (none, w.2.applyEnd p epoch open_ d f (s.keptBy p f))
  | _, _ => (some 1, q.1.applyFail p 1 old share)

/-! ### The commands (R255, R257, R265, R610, R611) -/

/-- A rejection: FRAME_REJECT, `PRT_FRAME_STAT`, `PRT_FRAME_REJ` and the completion (R257). (DEDUCED, log 30) -/
def State.rejectFrame (f p : Nat) (c : Cmd) (e : Rej) (s : State) : State :=
  let s := (s.setField (Reg.prtFrameStat p) 31 24 e.reason).setField (Reg.prtFrameStat p) 15 0 e.sect
  let s := s.setReg (Reg.prtFrameRej p) (BitVec.ofNat 64 e.off)
  let s := s.signal Ev.frameReject p [p, e.reason, e.sect, e.off]
  s.complete f c (if e.reason = rejBusy then .retry else .failed) (2 ^ 32 * e.off + 2 ^ 16 * e.sect + e.reason)

/-- The Frame of a command is copied, and only the copy is validated and applied, or why it is not copied (R255): a source that
is poisoned or not assigned ends the copy. (DESIGN CHOICE, log 32) -/
def State.fetchFrame (p pa len : Nat) (s : State) : Except Rej (List Byte) × State :=
  if len < 128 ∨ 2 ^ 30 < len ∨ len % 16 ≠ 0 then (.error { reason := rejLength, sect := 0, off := 0 }, s)
  else if s.storeRoom p len = false then (.error { reason := rejCapacity, sect := 0, off := 0 }, s)
  else
    let r := s.readRange p pa len
    let d := padTo len r.1.data
    (.ok d, r.2.modOwn p fun o => { o with copy := some d })

/-- The copy of a command's Frame is given up. -/
def State.dropCopy (p : Nat) (s : State) : State := s.modOwn p fun o => { o with copy := none }

/-- A validated Frame waits in APPLYING, before step `step` or before the first with 0: for the dry fit in progress (R533), or
for the end of a halt (R760). (DESIGN CHOICE, log 32) -/
def State.applyWaits (f p step : Nat) (c : Cmd) (fr : Frame) (s : State) : State :=
  let s := ((s.setFrameSt p .applying).setField (Reg.prtFrameStat p) 47 32 fr.gen.toNat).setField (Reg.prtFrameStat p) 19 16 step
  s.modFunc f fun x => { x with inflight := x.inflight.map fun e => if e.seq = c.seq then { e with begun := true } else e }

/-- While the module is halted an application in drain mode places the Frame, which is no tile work, and waits before step 2; a
placement that fails is left for the end of the halt (R760). -/
def State.applyHalted (f p : Nat) (c : Cmd) (fr : Frame) (s : State) : State :=
  let q := s.placeFrame p fr
  if (c.at 0x11 1).testBit 0 ∨ (s.part p).heal.lost ≠ [] then s.applyWaits f p 0 c fr
  else if q.2.2 then q.1.applyWaits f p 2 c fr
  else s.applyWaits f p 1 c fr

/-- A validated Frame is applied once the heal or dry fit in progress is complete (R262, R533), and the command completes, unless
a reset in that heal has ended it. (DESIGN CHOICE, log 32) -/
def State.applyNow (f p : Nat) (c : Cmd) (d : List Byte) (fr : Frame) (s : State) : State :=
  let s := s.healNow p
  if (s.command f c.seq 0x0202).isNone then s
  else if (s.part p).commit.df ≠ .none then s.applyWaits f p 0 c fr
  else if s.phys.power.halted then s.applyHalted f p c fr
  else
    let mode := c.at 0x11 1
    let r := s.applyFrame p (mode.testBit 0) (mode.testBit 1) d fr
    let s := r.2.dropCopy p
    match r.1 with
    | none => s.complete f c .ok 0
    | some step => s.complete f c .failed (2 ^ 8 * step)

/-- The copy is validated (R255, R257); `was` is the Frame state before VALIDATING. -/
def State.frameBytes (f p : Nat) (c : Cmd) (apply : Bool) (was : FrameSt) (d : List Byte) (s : State) : State :=
  match s.validate p (c.at 0x20 4) (apply && !(c.at 0x11 1).testBit 0) d with
  | .error e => ((s.setFrameSt p was).dropCopy p).rejectFrame f p c e
  | .ok v =>
    if apply then s.applyNow f p c d v.1
    else ((s.setFrameSt p was).dropCopy p).complete f c .ok 0

/-- An application that waits goes on from its copy, which it does not validate again (R255, R265). -/
def State.applyAgain (f p : Nat) (c : Cmd) (s : State) : State :=
  match (s.part p).own.copy with
  | none => s
  | some d => s.applyNow f p c d (Frame.empty.reread d)

/-- A Frame command of partition `p`: validation, and for FRAME_APPLY application. One that passes while a dry fit is in
progress waits for it in APPLYING; a heal in progress is completed first (R262, R533). -/
def State.frameCommand (f p : Nat) (c : Cmd) (apply : Bool) (s : State) : State :=
  if c.begun then s.applyAgain f p c
  else if 2 ≤ s.frameSt p then s.rejectFrame f p c { reason := rejBusy, sect := 0, off := 0 }
  else if apply ∧ (c.at 0x11 1).testBit 0 = false ∧ s.frameSt p = 0 then s.complete f c .invalid 0
  else
    let was := if (s.part p).own.frame.isSome then FrameSt.ready else FrameSt.none
    let q := s.fetchFrame p (c.at 0x18 8) (c.at 0x20 4)
    match q.1 with
    | .error e => q.2.rejectFrame f p c e
    | .ok d => q.2.frameBytes f p c apply was d

/-- The applications of partition `p` that wait. -/
def State.waitingFrames (s : State) (p : Nat) : List (Nat × Cmd) :=
  funcs.flatMap fun f => ((s.func f).inflight.filter fun c => c.begun && decide (c.opcode.toNat = 0x0202) &&
    decide (cmdPart f c = p)).map fun c => (f, c)

/-- `PLACEMENT_QUEUED` (R351, R352): once the placement in progress has completed, the requests that waited are handled: an
application first, then the logical tiles whose hosts were fenced meanwhile, each placed again from step 1. -/
def execPlacementQueued (p : Nat) (s : State) : Out :=
  let s := (s.waitingFrames p).foldl (fun s e => s.applyAgain e.1 p e.2) s
  let ls := (s.part p).queued
  .next (
    if ls = [] ∨ s.placing p then s
    else
      let s := s.modPart p fun x => { x with queued := [] }
      let s := s.modHeal p fun h => { h with
        st := .purging, lost := h.lost ++ ls.filter fun l => !h.lost.contains l
        at_ := if h.lost = [] then s.now else h.at_ }
      s.healNow p)

/-- `FRAME_CHECK` (R255, R257, R610). -/
def execFrameCheck (f : Nat) (seq : Dword) (s : State) : Out :=
  .next (match s.command f seq 0x0201 with
    | none => s
    | some c => s.withPart f c [(0x18, 8), (0x20, 4)] fun p s => s.frameCommand f p c false)

/-- `FRAME_APPLY` (R255 to R263, R610). (DESIGN CHOICE, log 71) -/
def execFrameApply (f : Nat) (seq : Dword) (s : State) : Out :=
  .next (match s.command f seq 0x0202 with
    | none => s
    | some c => s.withPart f c [(0x11, 1), (0x18, 8), (0x20, 4)] fun p s =>
        if c.at 0x11 1 < 4 then s.frameCommand f p c true else s.complete f c .invalid 0)

end Sys2Proof.Machine
end

