-- ==== Sys2Proof/Machine/HostCmds.lean ====
section
/-!
DEFINITION. The command aperture, the module's own commands, gateways' commands, flumes, BAR2 and the logs (spec 13_host R596
to R627, 05_frame R240).
-/

namespace Sys2Proof.Machine

/-! ### The aperture (R601 to R606) -/

/-- A record's bytes as a byte list. -/
def Slot.data (x : Slot) : List Byte := leBytes 64 x.bytes.toNat

/-- The command of an accepted record. -/
def Slot.cmd (x : Slot) : Cmd :=
  let d := x.data
  { seq := BitVec.ofNat 32 (leAt d 0 4), opcode := BitVec.ofNat 16 (leAt d 4 2), irq := (leAt d 6 1).testBit 0
    vector := leAt d 7 1 % 64, tag := BitVec.ofNat 64 (leAt d 8 8), bytes := x.bytes, begun := false }

def opcodes : List Nat := [0x0001, 0x0101, 0x0102, 0x0103, 0x0104, 0x0201, 0x0202, 0x0203, 0x0204, 0x0205, 0x0206]

/-- A record is rejected: its entry, vector 0, the count and HST_CMD_REJECT (R605, R621). -/
def State.rejectRecord (f : Nat) (st : Status) (result : Nat) (s : State) : State :=
  let next := s.field (Reg.hstCmdstat f) 63 32
  let s := s.bump (Reg.hstCmdstat f) 15 0 1
  let s := s.postEntry f 1 (completionEntry next 0 st.code 0 result s.now)
  s.signal Ev.hstCmdReject f [f, next, st.code]

/-- `COMMAND_RECORD` (R603 to R606, R771): slot NEXT is examined once stage 13 has passed, it is complete, the completion log is
enabled and has a free entry; an unknown opcode completes with INVALID (R609). -/
def execCommandRecord (f : Nat) (s : State) : Out :=
  let next := s.field (Reg.hstCmdstat f) 63 32
  let n := next % 16384
  let x := Tab.get Slot.reset (s.func f).slots n
  .next (
    if x.mask ≠ 0xFFFF ∨ s.logRoom f .completion = false ∨ 8 < f ∨ s.man.boot.st ≠ .ready then s
    else
      let s := s.modFunc f fun y => { y with slots := Tab.set Slot.reset y.slots n Slot.reset }
      if (crc32c (x.data.take 0x3C)) ≠ leAt x.data 0x3C 4 then s.rejectRecord f .rejCrc 0
      else if leAt x.data 0 4 ≠ next then s.rejectRecord f .rejSeq (leAt x.data 0 4)
      else
        let c := x.cmd
        let s := s.setField (Reg.hstCmdstat f) 63 32 (next + 1)
        let s := s.modFunc f fun y => { y with inflight := y.inflight ++ [c] }
        if opcodes.contains c.opcode.toNat then s else s.complete f c .invalid 0)

/-- `NOP_COMMAND` (R607, R610): it completes once every earlier accepted command of its function has completed. -/
def execNopCommand (f : Nat) (seq : Dword) (s : State) : Out :=
  .next (match s.command f seq 0x0001 with
    | none => s
    | some c =>
      if ((s.func f).inflight.head?.map fun d => d.seq) ≠ some seq then s
      else if c.tidy [] then s.complete f c .ok 0 else s.complete f c .invalid 0)

/-! ### PART_CREATE and PART_DELETE (R596 to R600, R356) -/

/-- The commands of function `f` of the same kind that were accepted before `c` have begun: PART_CREATE, PART_DELETE, KEY_LOAD and
FENCE_WITHDRAW run one at a time, and the copies queue in the order of acceptance (R607, R622). -/
def State.inTurn (s : State) (f : Nat) (kind : List Nat) (c : Cmd) : Bool :=
  ((s.func f).inflight.takeWhile fun d => decide (d.seq ≠ c.seq)).all fun d => d.begun || !kind.contains d.opcode.toNat

/-- The commands that only PF0 gives, which run one at a time (R607). -/
def moduleCommands : List Nat := [0x0101, 0x0102, 0x0103, 0x0104]

/-- A command that only PF0 may give waits for its turn: DENIED from another function, INVALID for bytes that must be zero. -/
def State.onlyPf0 (f : Nat) (c : Cmd) (used : List (Nat × Nat)) (s : State) (k : State → State) : State :=
  if s.inTurn f moduleCommands c = false then s
  else if f ≠ 0 then s.complete f c .denied 0
  else if c.tidy used then k s
  else s.complete f c .invalid 0

/-- The regions of a descriptor: stack, BASE and SIZE (R597). -/
def descRegions (d : List Byte) : List (Nat × Nat × Nat) :=
  (List.range 24).map fun k => (k, leAt d (0x20 + 2 * k) 1, leAt d (0x21 + 2 * k) 1)

/-- Why the descriptor is refused (R598 reasons 2 to 4), 0 when it is not. (DESIGN CHOICE, log 64) -/
def State.descReason (s : State) (d : List Byte) : Nat :=
  let bays := leAt d 0 11
  let fl := leAt d 0x10 4
  let rs := (descRegions d).filter fun r => decide (r.2.2 ≠ 0)
  let zero := (d.drop 0x0B).take 5 ++ (d.drop 0x14).take 12 ++ (d.drop 0x50).take 48
  if bays % 2 ^ 84 = 0 ∨ 2 ^ 84 ≤ bays ∨ (setBits 84 bays).any (fun b => decide (s.bayOwner b ≠ 0)) ∨ zero.any (fun b => b ≠ 0) then 2
  else if rs = [] ∨ (descRegions d).any (fun r => decide (r.2.2 = 0) && decide (r.2.1 ≠ 0)) ∨
      rs.any (fun r => decide (95 < r.2.1 + r.2.2)) ∨
      rs.any (fun r => ((List.range 8).map (· + 1)).any fun q => match s.hbmRegion q r.1 with
        | some e => decide (e.1 < r.2.1 + r.2.2) && decide (r.2.1 < e.1 + e.2)
        | none => false) then 3
  else if fl = 0 ∨ (setBits 32 fl).any (fun x => decide (s.flumeOwner x ≠ 0)) then 4
  else 0

/-- Give or release what a partition owns: the owner of bays and flumes. -/
def State.setBayOwner (b p : Nat) (s : State) : State := s.setField (Reg.prtBayownk (b / 16)) (4 * (b % 16) + 3) (4 * (b % 16)) p
def State.setFlumeOwner (x p : Nat) (s : State) : State := s.setField (Reg.prtFlumeown (x / 16)) (4 * (x % 16) + 3) (4 * (x % 16)) p

/-- The `PRT_` registers and the Plane step registers of partition `p`. -/
def isPartReg (p a : Nat) : Bool :=
  (decide (0x50100 + 0x1000 * p ≤ a) && decide (a < 0x51000 + 0x1000 * p)) ||
    (decide (0x4000000 + 0x100 * p ≤ a) && decide (a < 0x4000100 + 0x100 * p))

/-- What a new partition owns (R599). -/
def State.ownParts (p : Nat) (d : List Byte) (s : State) : State :=
  let s := (setBits 84 (leAt d 0 11)).foldl (fun s b => s.setBayOwner b p) s
  let s := (setBits 32 (leAt d 0x10 4)).foldl (fun s x => s.setFlumeOwner x p) s
  (descRegions d).foldl (fun s r => if r.2.2 = 0 then s else
    s.setReg (Reg.hbmPregp r.1 (p - 1)) (fld 63 63 1 ||| fld 54 48 r.2.1 ||| fld 46 40 r.2.2)) s

/-- Logical tiles of bays of partition `p` whose host lies outside its bays, or is fenced or otherwise lost (R356, R784). -/
def State.strangers (s : State) (p : Nat) : List LT :=
  let away := s.comp.hosts.filterMap fun e => match e.2 with
    | some t => if s.bayOwner t.bay ≠ p ∨ s.liveTile t = false then some (LT.ofKey e.1) else none
    | none => none
  let home := (s.baysOf p).flatMap fun b => (s.lostHomes b).filter fun l => decide (s.hostOf l = l.home)
  sortLT ((away ++ home).filter fun l => decide (s.bayOwner l.bay = p) && !s.isVoid l.bay)

/-- PART_CREATE with its descriptor (R598, R599): the reason of a failure, or none. -/
def State.createPart (p : Nat) (d : List Byte) (s : State) : Option Nat × State :=
  match s.descReason d with
  | 0 =>
    let n := (s.resetRegs fun a => !isPartReg p a).setPart p { Part.reset with own := { PartOwn.reset with present := true } }
    let n := (n.ownParts p d).forgetRange p
    let x := { n.site p Frame.unset with named := fun _ => true }
    let ls := n.strangers p
    match n.firstFail p x ls with
    | some (l, why) => (some 5, s.raise Ev.placeNoSpare p [p, l.x, l.y, l.bay, why])
    | none =>
      let q := (n.placeAll p x ls).1.recordHostings p n.comp.hosts ls
      (none, if ls = [] then q else q.publish p)
  | r => (some r, s)

/-- `PART_CREATE` (R597 to R599). -/
def execPartCreate (f : Nat) (seq : Dword) (host : HostOutcome) (s : State) : Out :=
  .next (match s.command f seq 0x0101 with
    | none => s
    | some c => s.onlyPf0 f c [(0x10, 1), (0x18, 8)] fun s =>
      let p := c.at 0x10 1
      let a := c.at 0x18 8
      if p = 0 ∨ 8 < p ∨ s.partExists p then s.complete f c .failed 1
      else if s.dmaOk 0 a 128 = false then (s.dmaBlocked 0 a).complete f c .failed 6
      else
        match host with
        | .good d =>
          let r := s.createPart p (padTo 128 d)
          match r.1 with
          | none => r.2.complete f c .ok 0
          | some w => r.2.complete f c .failed w
        | _ => s.complete f c .failed 6)

/-- PART_DELETE (R600). -/
def State.deletePart (p : Nat) (s : State) : State :=
  let s := if (s.part p).own.frame.isSome then s.purgeAll p else s
  let s := ((s.planeReset p).abortCommands p).dropFrame p
  let bays := s.baysOf p
  let s := bays.foldl (fun s b => s.setBayOwner b 0) (s.forgetRange p)
  let s := (List.range 32).foldl (fun s x => if s.flumeOwner x = p then s.setFlumeOwner x 0 else s) s
  let s := (List.range 24).foldl (fun s k => s.setReg (Reg.hbmPregp k (p - 1)) 0) s
  (s.setPart p Part.reset).modComp fun c => { c with pubs := c.pubs.map fun u => if u.part = p then u.silence else u }

/-- `PART_DELETE` (R600). -/
def execPartDelete (f : Nat) (seq : Dword) (s : State) : Out :=
  .next (match s.command f seq 0x0102 with
    | none => s
    | some c => s.onlyPf0 f c [(0x10, 1)] fun s =>
      let p := c.at 0x10 1
      if p = 0 ∨ 8 < p ∨ s.partExists p = false then s.complete f c .failed 1
      else (s.deletePart p).complete f c .ok 0)

/-! ### Keys and withdrawals (R612, R613) -/

/-- A key slot takes a key or is emptied; `PRT_KEYSTAT` shows it. -/
def State.setKey (k : Nat) (v : Option (List Byte)) (s : State) : State :=
  (s.modHost fun h => { h with keys := Tab.set none h.keys k v }).setField Reg.prtKeystat k k (flag v.isSome)

/-- `KEY_LOAD` (R610, R612). -/
def execKeyLoad (f : Nat) (seq : Dword) (host : HostOutcome) (s : State) : Out :=
  .next (match s.command f seq 0x0103 with
    | none => s
    | some c => s.onlyPf0 f c [(0x10, 1), (0x11, 1), (0x18, 8)] fun s =>
      let k := c.at 0x10 1
      let a := c.at 0x18 8
      if 7 < k ∨ 1 < c.at 0x11 1 then s.complete f c .invalid 0
      else if c.at 0x11 1 = 1 then (s.setKey k none).complete f c .ok 0
      else if s.dmaOk 0 a 96 = false then (s.dmaBlocked 0 a).complete f c .denied 0
      else
        match host with
        | .good d =>
          let d := padTo 96 d
          if p384Point d then (s.setKey k (some d)).complete f c .ok 0 else s.complete f c .failed 1
        | _ => s.complete f c .failed 0)

/-- `FENCE_WITHDRAW` (R554, R610, R613): a withdrawal record goes to the Grain log, and marks the entry
once it has committed (R826).
(DEDUCED, log 63) -/
def execFenceWithdraw (f : Nat) (seq : Dword) (s : State) : Out :=
  .next (match s.command f seq 0x0104 with
    | none => s
    | some c => s.onlyPf0 f c [(0x10, 1), (0x14, 4)] fun s =>
      let k := c.at 0x10 1
      let id := c.at 0x14 4
      if k = 0 ∨ 4 < k then s.complete f c .invalid 0
      else
        let hit := fun (e : Fence) => decide (e.kind = k) && decide (e.id = id) && e.field
        let found := s.comp.fences.any hit
        let s := s.sendAwaited (.withdraw k id) 0x0031 4 0 (leBytes 2 k ++ leBytes 2 0 ++ leBytes 4 id)
        s.complete f c .ok (flag found))

/-! ### Gateway commands (R615, R616) -/

/-- A recovery of the partition has not yet come to step 7 of R530. -/
def State.beforeReplay (s : State) (p : Nat) : Bool :=
  decide ((s.part p).heal.lost ≠ []) || decide ((s.part p).commit.df = .placing) || decide ((s.part p).commit.df = .waiting)

/-- `GATE_RUN` (R615). -/
def execGateRun (f : Nat) (seq : Dword) (s : State) : Out :=
  .next (match s.command f seq 0x0204 with
    | none => s
    | some c => s.withPart f c [(0x14, 4)] fun p s =>
      let tid := c.at 0x14 4
      let bs := s.gateBindings p tid
      if s.frameSt p ≠ 1 ∨ bs = [] then s.complete f c .invalid 0
      else if s.canTrigger p tid = false ∨ s.beforeReplay p then s.complete f c .retry 0
      else (s.triggerTid p tid).complete f c .ok bs.length)

/-- Put a TID into the step schedule in ascending order. -/
def insertTid (t : Nat) : List Nat → List Nat
  | [] => [t]
  | u :: r => if t = u then u :: r else if t < u then t :: u :: r else u :: insertTid t r

/-- `GATE_ARM` (R616). (DEDUCED, log 65) -/
def execGateArm (f : Nat) (seq : Dword) (s : State) : Out :=
  .next (match s.command f seq 0x0205 with
    | none => s
    | some c => s.withPart f c [(0x11, 1), (0x14, 4)] fun p s =>
      let tid := c.at 0x14 4
      let arm := c.at 0x11 1
      let old := (s.part p).own.schedule
      if 1 < arm ∨ s.gateBindings p tid = [] then s.complete f c .invalid old.length
      else
        let new := if arm = 1 then insertTid tid old else old.filter fun t => decide (t ≠ tid)
        if 64 < new.length then s.complete f c .failed old.length
        else (s.modOwn p fun o => { o with schedule := new }).complete f c .ok new.length)

/-! ### Flumes (R622 to R624, R626) -/

/-- `FLUME_COPY` (R622, R626): it queues on its flume. -/
def execFlumeCopy (f : Nat) (seq : Dword) (s : State) : Out :=
  .next (match s.command f seq 0x0206 with
    | none => s
    | some c =>
      if c.begun ∨ s.inTurn f [0x0206] c = false then s
      else s.withPart f c [(0x11, 1), (0x12, 1), (0x18, 8), (0x20, 8), (0x28, 4)] fun p s =>
        let fl := c.at 0x11 1
        let len := c.at 0x28 4
        if 1 < c.at 0x12 1 ∨ len = 0 ∨ 2 ^ 30 < len then s.complete f c .invalid 0
        else if 31 < fl ∨ s.flumeOwner fl ≠ p then s.complete f c .denied 0
        else if s.dmaOk f (c.at 0x18 8) len = false then s.complete f c .denied 0
        else if 16 < (s.flume fl).length then s.complete f c .retry 0
        else
          let s := s.modFunc f fun x => { x with inflight := x.inflight.map fun e => if e.seq = c.seq then { e with begun := true } else e }
          s.setFlume fl (s.flume fl ++ [{ f := f, seq := seq, part := p, toHost := c.at 0x12 1 == 1, host := c.at 0x18 8,
                                          pa := c.at 0x20 8, len := len }]))

/-- Memory writes to the host of the bytes of a copy, block by block; a poisoned block goes as zeros with EP set (R624).
`n` bounds the blocks. -/
def State.hostBlocks (f : Nat) (bad : List Nat) : Nat → Nat → Nat → List Byte → State → State
  | 0, _, _, _, s => s
  | n + 1, pa, host, d, s =>
    let m := unitPart 64 pa d.length
    if m = 0 then s
    else
      let ep := bad.contains (64 * (pa / 64))
      let s := s.emitOut (.hostWrite f host (if ep then List.replicate m 0 else d.take m) ep)
      s.hostBlocks f bad n (pa + m) (host + m) (d.drop m)

/-- The result of a copy: bytes moved, and the blocks of poison met (R609, R623, R624). -/
def copyEnd (moved len bad : Nat) : Status × Nat :=
  if moved < len then (.failed, 2 ^ 40 + moved)
  else if bad = 0 then (.ok, moved)
  else (.poisoned, 2 ^ 48 * min bad 0xFFFF + moved)

/-- A copy from HBM to the host (R624, R448). -/
def State.copyToHost (c : Copy) (s : State) : (Status × Nat) × State :=
  let r := s.readRange c.part c.pa c.len
  let s := r.2.hostBlocks c.f r.1.bad (c.len / 64 + 2) c.pa c.host r.1.data
  (copyEnd r.1.n c.len r.1.bad.length, s.reportPoison c.part r.1.bad)

/-- The pattern in every block that a completion with EP set covers (R624). -/
def State.poisonCopied (c : Copy) (moved : Nat) (blocks : List Nat) (s : State) : State :=
  blocks.foldl (fun s b =>
    let lo := c.pa + 64 * b
    let hi := min (lo + 64) (c.pa + moved)
    if lo < hi then (s.poisonPa c.part lo).poisonPa c.part (hi - 1) else s) s

/-- A copy from the host to HBM (R623, R624). -/
def State.copyFromHost (c : Copy) (h : HostOutcome) (s : State) : (Status × Nat) × State :=
  match h with
  | .good d =>
    let w := s.writeRange c.part c.pa (padTo c.len d)
    (copyEnd w.1 c.len 0, w.2)
  | .poisoned d bs =>
    let w := s.writeRange c.part c.pa (padTo c.len d)
    (copyEnd w.1 c.len bs.length, w.2.poisonCopied c w.1 bs)
  | .aborted d =>
    let d := d.take (c.len - 1)
    let w := s.writeRange c.part c.pa d
    if w.1 < d.length then ((.failed, 2 ^ 40 + w.1), w.2) else ((.failed, 2 * 2 ^ 40 + w.1), w.2)

/-- `FLUME_COPY_DONE` (R610, R622 to R624, R626): the copy at the head of the flume is carried out and completes; a flume of a
lost segment carries nothing out (R57, R58), nor does one in a halt (R756).
(DESIGN CHOICE, log 71) -/
def execFlumeCopyDone (flume : Nat) (host : HostOutcome) (s : State) : Out :=
  .next (match s.flume flume with
    | [] => s
    | c :: r =>
      if s.segUp (3 * flume / 4) = false ∨ s.phys.power.halted then s
      else
      let s := s.setFlume flume r
      match s.command c.f c.seq 0x0206 with
      | none => s
      | some cmd =>
        if s.dmaOk c.f c.host c.len = false then (s.dmaBlocked c.f c.host).complete c.f cmd .denied 0
        else
          let q := if c.toHost then s.copyToHost c else s.copyFromHost c host
          q.2.complete c.f cmd q.1.1 q.1.2)

/-- `HST_RATE_LIMIT` (R627): at most once a second for a function. -/
def execHstRateLimit (f : Nat) (s : State) : Out :=
  let due : Bool := match (s.func f).rateAt with
    | none => true
    | some t => decide (t + 1000000000 ≤ s.now)
  .next (
    if due ∧ f ≤ 8 then
      let s := (s.modFunc f fun x => { x with rateAt := some s.now }).bump (Reg.hstFuncstat f) 31 16 1
      s.signal Ev.hstRateLimit f [f]
    else s)

/-! ### BAR2 (R588, R592, R625, R438) -/

/-- The partition address at BAR2 offset 0 of function `f`. -/
def State.bar2Base (s : State) (f : Nat) : Nat :=
  let n := 2 ^ (s.func f).bar2Log
  (s.reg (Reg.hstBar2win f)).toNat / n * n

/-- Bytes of an access that lie in the BAR, split at 4 KiB of partition addresses: each is assigned or not as a whole. -/
def State.writeAssigned (p : Nat) : Nat → Nat → List Byte → State → State
  | 0, _, _, s => s
  | n + 1, pa, d, s =>
    let m := unitPart 4096 pa d.length
    if m = 0 then s else ((s.writeRange p pa (d.take m)).2).writeAssigned p n (pa + m) (d.drop m)

def State.readAssigned (p : Nat) : Nat → Nat → Nat → State → List Byte × List Nat × State
  | 0, _, _, s => ([], [], s)
  | n + 1, pa, len, s =>
    let m := unitPart 4096 pa len
    if m = 0 then ([], [], s)
    else
      let r := s.readRange p pa m
      let q := State.readAssigned p n (pa + m) (len - m) r.2
      (padTo m r.1.data ++ q.1, r.1.bad ++ q.2.1, q.2.2)

/-- `BAR2_WRITE` (R625). -/
def execBar2Write (f : Nat) (off : Nat) (data : List Byte) (s : State) : Out :=
  .next (
    if f = 0 ∨ 8 < f ∨ s.partExists f = false ∨ 2 ^ (s.func f).bar2Log < off + data.length then s
    else s.writeAssigned f (data.length / 4096 + 2) (s.bar2Base f + off) data)

/-- `BAR2_READ` (R448, R592, R625): poison is answered with EP set and zero data. -/
def execBar2Read (f : Nat) (off len : Nat) (s : State) : Out :=
  .next (
    if f = 0 ∨ 8 < f ∨ 2 ^ (s.func f).bar2Log < off + len then s
    else if s.partExists f = false then s.emitOut (.bar2Data f (List.replicate len 0) false)
    else
      let r := s.readAssigned f (len / 4096 + 2) (s.bar2Base f + off) len
      if r.2.1 = [] then r.2.2.emitOut (.bar2Data f r.1 false)
      else (r.2.2.emitOut (.bar2Data f (List.replicate len 0) true)).reportPoison f r.2.1)

/-! ### Logs (R617 to R621) -/

/-- The bits of a log's configuration other than EN and LOG2N. -/
def logOther : LogKind → Word
  | .completion => 0
  | .event => 0xFE0000

/-- LOG2N as it reads: 6 to 16 (R632). -/
def log2n (v : Word) : Nat := max 6 (min 16 (fieldOf v 4 0))

/-- What a log holds back is written while it has room. -/
def State.flushLog (f : Nat) (k : LogKind) (s : State) : State :=
  match k with
  | .completion => s.flushCompletions f (s.func f).waiting.length
  | .event => s.flushEvents f (s.func f).events.length

/-- A write of a log's configuration (R617): EN = 1 begins the log at entry 0 in phase 1, unless its ring lies in no DMA
window; LOG2N does not change while the log is enabled. -/
def State.writeLogCfg (f : Nat) (k : LogKind) (v : Word) (s : State) : State :=
  let r := logCfg f k
  let n := if s.logEn f k then s.field r 4 0 else log2n v
  let en := logEnBit k
  let s := s.setReg r (withField ((s.reg r &&& ~~~(logOther k)) ||| (v &&& logOther k)) 4 0 n)
  if v.getLsbD en = false then s.setField r en en 0
  else
    let base := fieldOf (s.reg (logBase f k)) 63 12 * 4096
    if s.dmaOk f base (32 * 2 ^ n) then
      let s := (s.setField r en en 1).setReg (logHead f k) 0
      let s := (s.setField (logTail f k) 15 0 0).setField (logTail f k) 16 16 1
      s.flushLog f k
    else (s.setField r en en 0).dmaBlocked f base

/-- `LOG_ENABLE` (R617). -/
def execLogEnable (f : Nat) (k : LogKind) (value : Word) (s : State) : Out :=
  .next (if 8 < f then s else (s.staged (logCfg f k) value).writeLogCfg f k value)

/-- A write of HEAD frees entries, and what waits is written (R617). -/
def State.writeLogHead (f : Nat) (k : LogKind) (v : Word) (s : State) : State :=
  (s.setReg (logHead f k) (v &&& 0xFFFF)).flushLog f k

/-- `LOG_HEAD_WRITE` (R617). -/
def execLogHeadWrite (f : Nat) (k : LogKind) (value : Word) (s : State) : Out :=
  .next (if 8 < f then s else (s.staged (logHead f k) value).writeLogHead f k value)

/-- `HST_CTL_CLR` (R633). -/
def State.clearHst (s : State) : State :=
  let s := s.setReg Reg.hstLinkcnt 0
  funcs.foldl (fun s f => s.setReg (Reg.hstFuncstat f) 0) s
def execHstCtlClr (s : State) : Out := .next s.clearHst

end Sys2Proof.Machine
end

