-- ==== Sys2Proof/Machine/RegRead.lean ====
section
/-!
DEFINITION. What every register of PF0 BAR0 and of a partition's step registers reads, its live fields included (R8, R16;
the register maps of the spec), and how a read of the host is answered (R12 to R15, R592, R595).
-/

namespace Sys2Proof.Machine

/-- Instance and offset of an address in `n` blocks of `size` bytes from `base`. -/
def inBlock (base size n a : Nat) : Option (Nat × Nat) :=
  if base ≤ a ∧ a < base + n * size then some ((a - base) / size, (a - base) % size) else none

/-- The bits of 64 conditions. -/
def maskOfBits (n : Nat) (f : Nat → Bool) : Word := (List.range n).foldl (fun w i => if f i then w ||| ((1 : Word) <<< i) else w) 0

/-! ### Bays: `SIL_` (R162, R215, R327, R330, R377, R546, R583, R764) -/

/-- The tile that `SIL_TSEL` selects; none while ROW is above 95 (R163). -/
def State.selTile (s : State) (b : Nat) : Option PT :=
  let r := s.field (Reg.silTsel b) 22 16
  if r ≤ 95 then some { bay := b, col := s.field (Reg.silTsel b) 6 0, row := r } else none

/-- `SIL_QSTAT` of a tile (R215). -/
def State.qstat (s : State) (t : PT) : Word :=
  let x := s.tile t
  let q := fun (n : Nat) => Tab.get Queue.reset x.queues n
  fld 63 63 (flag (s.stalled t)) ||| fld 62 48 x.s.progress.toNat |||
    (maskOfBits 8 fun n => decide ((q n).spilled ≠ 0)) <<< 40 |||
    (List.range 8).foldl (fun w n => w ||| fld (5 * n + 4) (5 * n) (q n).depth) 0

/-- `SIL_PLUMBTILE` of a tile (R546). -/
def State.plumbTile (s : State) (t : PT) : Word :=
  let x := (s.tile t).plumb
  let on : Bool := match x.intensUntil with
    | some u => decide (s.now < u)
    | none => false
  fld 63 63 (flag on) ||| fld 62 60 x.lastRes ||| fld 39 0 x.last

/-- The links with an end in bay `b`, each once (R32, R330). -/
def bayLinks (b : Nat) : List (PT × Dir) :=
  let own := (List.range 12288).flatMap fun k =>
    let t := PT.ofKey (12288 * b + k)
    [(t, Dir.east), (t, Dir.south)]
  let west := (List.range 96).map fun r => (({ bay := b, col := 0, row := r } : PT), Dir.west)
  let north := (List.range 128).map fun c => (({ bay := b, col := c, row := 0 } : PT), Dir.north)
  (own ++ west ++ north).filter fun e => (e.1.step e.2).isSome

/-- A direction of the link is in one of these states (R283). -/
def State.linkIn (s : State) (ls : List LinkState) (e : PT × Dir) : Bool :=
  ls.contains (s.link e.1 e.2).st || (match e.1.step e.2 with
    | some u => ls.contains (s.link u e.2.back).st
    | none => false)

/-- `SIL_FABSTAT@b` (R330). -/
def State.fabstat (s : State) (b : Nat) : Word :=
  let ls := bayLinks b
  fld 63 48 ((List.range 12288).countP fun k => s.routerDark (PT.ofKey (12288 * b + k))) |||
    fld 47 32 (ls.countP (s.linkIn [.down])) ||| fld 31 16 (ls.countP (s.linkIn [.onoff, .resync]))

/-- `SIL_RIDGE@b` (R330): the bridges of both directions on the east edge of a bay of column 5 (R323). -/
def State.ridge (s : State) (b : Nat) : Word :=
  let es := if b % 12 = 5 then (List.range 96).flatMap fun r =>
      [(({ bay := b, col := 127, row := r } : PT), Dir.east), ({ bay := b + 1, col := 0, row := r }, .west)] else []
  fld 16 16 (flag s.phys.clock.changing) ||| fld 15 0 (es.countP fun e => [LinkState.onoff, .resync].contains (s.link e.1 e.2).st)

/-- `SIL_FENCE@b` (R583). -/
def State.silFence (s : State) (b : Nat) : Word :=
  let es := s.shownFences.filter fun e => decide (e.kind = 1) && decide ((tileOfId e.id).bay = b)
  fld 63 48 (es.countP fun e => e.fuse) ||| fld 47 32 (es.countP fun e => e.field) ||| fld 31 16 (es.countP fun e => e.test) |||
    fld 1 1 (flag (s.isVoid b)) ||| fld 0 0 (flag (s.isFenced 6 b))

/-- `SIL_PWRSTAT.SUPPLY` (R764). -/
def Supply.code : Supply → Nat
  | .off => 0
  | .ramping => 1
  | .on => 2
  | .open_ => 3

/-- `SIL_PWRSTAT@b` (R764). (DESIGN CHOICE, log 89) -/
def State.pwrstat (s : State) (b : Nat) : Word :=
  let x := s.bay b
  fld 63 48 x.volts ||| fld 47 32 (Config.reading (101 + b) s.now) ||| fld 31 24 x.temp |||
    fld 19 16 (s.field (Reg.silPwrstat b) 19 16) ||| fld 11 8 (s.issueState b).code ||| fld 1 0 x.supply.code

/-- A `SIL_` register of bay `b`, powered or not. (DEDUCED, log 105) -/
def State.silLit (s : State) (b off : Nat) : Word :=
  let a := 0x100000 + 0x10000 * b + off
  let x := s.bay b
  match off with
  | 0x408 | 0x428 => 0
  | 0x410 => ((s.selTile b).map s.qstat).getD 0
  | 0x430 => s.fabstat b
  | 0x438 => s.ridge b
  | 0x440 => s.spareStat b
  | 0x488 => (s.reg a &&& 0xFFFFFFFFFFFFFF00) ||| fld 4 0 (s.slices b)
  | 0x490 => ((s.selTile b).map s.plumbTile).getD 0
  | 0x4A0 => s.silFence b
  | 0x500 => s.pwrstat b
  | 0x510 =>
    fld 63 48 (s.wearAvg b) ||| fld 47 16 (s.surgeHour b) ||| fld 11 2 x.missing ||| fld 1 1 (flag x.stepped) |||
      fld 0 0 (flag x.refused)
  | 0x518 => fld 63 48 x.droops.toNat ||| fld 47 32 x.vmin ||| fld 31 16 x.slack.toNat
  | _ => s.reg a

/-- The fields of a dark bay that report its loss (R595, R764): ST of the windows, DARK, LOST, FCAUSE, ISSUE and SUPPLY.
(DEDUCED, log 105) -/
def silLossMask (off : Nat) : Word :=
  match off with
  | 0x400 | 0x420 => 0xE000000000000000
  | 0x430 => 0xFFFF000000000000
  | 0x4A0 => 0x1
  | 0x500 => 0xF0F03
  | _ => 0

def State.silReg (s : State) (b off : Nat) : Word :=
  if (s.bay b).supply = .on then s.silLit b off else s.silLit b off &&& silLossMask off

/-! ### Partitions: `PRT_` and the step registers (R214, R267, R329, R376, R428, R429, R460, R545, R582, R635, R680) -/

def LayerState.code : LayerState → Nat
  | .idle => 0
  | .ready => 1
  | .held => 2
  | .compute => 3
  | .staged => 4
  | .copying => 5
  | .frozen => 6

def DfState.code : DfState → Nat
  | .none => 0
  | .placing => 1
  | .waiting => 2
  | .replaying => 3
  | .comparing => 4

def HealState.code : HealState → Nat
  | .none => 0
  | .purging => 1
  | .placing => 2
  | .loading => 3
  | .reopening => 4
  | .stopped => 5

def PutStatus.code : PutStatus → Nat
  | .idle => 0
  | .held => 1
  | .sending => 2
  | .done => 3
  | .window => 4
  | .nopart => 5
  | .noRoute => 6
  | .timeout => 7
  | .aborted => 8

/-- Layers of a partition in one of these states (R428, R429). -/
def State.layersIn (s : State) (p : Nat) (ls : List LayerState) : Nat :=
  (s.part p).pln.layers.countP fun kl => ls.contains kl.2.st

/-- A placement request of the partition is in progress or queued: `PRT_MAP_STAT.PEND` (R352, R376). (DEDUCED, log 41) -/
def State.placementPending (s : State) (p : Nat) : Bool :=
  let x := s.part p
  decide (x.queued ≠ []) || (decide (x.heal.lost ≠ []) && decide (x.heal.st ≠ .stopped)) || decide (x.commit.df = .placing) ||
    s.applying p

/-- The logical tiles of a partition that have no host now: `PRT_HEAL_STAT.UNHOSTED` (R582). -/
def State.unhosted (s : State) (p : Nat) : List LT :=
  ((s.strangers p ++ (s.part p).heal.lost ++ (s.part p).queued).filter fun l => s.hostFailed (s.baysOf p) l).foldl
    (fun ls l => if ls.contains l then ls else ls ++ [l]) []

/-- `PRT_LAYER_STAT` and `PRT_LAYER_REC` of the selected layer (R429). -/
def State.layerStat (s : State) (p : Nat) : Word :=
  match s.selLayer p with
  | none => 0
  | some r =>
    let x := s.layer p r.layer
    fld 63 63 1 ||| fld 62 62 (flag x.refPend) ||| fld 61 61 (flag x.fbLast) ||| fld 60 56 x.engine ||| fld 55 52 x.st.code |||
      fld 47 0 x.upd.toNat

def State.layerAddr (s : State) (p : Nat) : Word :=
  match s.selLayer p with
  | none => 0
  | some r =>
    let x := s.layer p r.layer
    if x.st = .staged ∨ x.st = .copying then fld 47 0 ((x.staged.map fun g => g.addr).getD 0) else 0

/-- `PRT_TENSOR_LOC` (R376). -/
def State.tensorLoc (s : State) (p : Nat) : Word :=
  let tid := s.field (Reg.prtTensorSel p) 31 0
  match (s.frameOf p).tensor tid, s.alloc p tid with
  | some _, some a => fld 63 63 1 ||| fld 62 56 (a.stack.getD 0x7F) ||| fld 47 0 a.base
  | _, _ => 0

/-- The put entry that `PRT_STL_PUTSEL` selects (R680). -/
def State.selPut (s : State) (p : Nat) : Put := s.put p (s.field (Reg.prtStlPutsel p) 5 0)

def Put.wordA (x : Put) : Word := fld 47 0 x.spa.toNat
def Put.wordB (x : Put) : Word := fld 63 32 x.dst.toNat ||| fld 30 0 x.bytes
def Put.wordC (x : Put) : Word := fld 63 60 x.dpart.toNat ||| fld 47 0 x.dpa.toNat
def Put.wordD (x : Put) : Word :=
  fld 63 63 (flag x.armed) ||| fld 62 62 (flag x.hold) ||| fld 61 61 (flag x.wen) ||| fld 43 32 x.wid.toNat |||
    fld 31 16 x.dfid.toNat ||| fld 3 0 x.status.code

/-- `PRT_STAT` (R635). -/
def State.prtStat (s : State) (p : Nat) : Word :=
  if s.partExists p = false then 0
  else
    fld 63 63 1 ||| fld 47 40 (s.baysOf p).length ||| fld 39 32 (s.stacksOf p).length |||
      (maskOfBits 32 fun f => decide (s.flumeOwner f = p))

/-- The fields of `PRT_` registers that the register file does not store. -/
def State.prtLive (s : State) (p off : Nat) : Option Word :=
  let a := 0x50000 + 0x1000 * p + off
  let x := s.part p
  let v := s.reg a
  match off with
  | 0x108 => some (maskOfBits 64 fun b => decide (s.bayOwner b = p))
  | 0x110 => some (maskOfBits 20 fun i => decide (s.bayOwner (64 + i) = p))
  | 0x118 => some (v ||| fld 6 0 x.own.schedule.length)
  | 0x420 => some (v ||| fld 31 0 (s.chunksOf p).length)
  | 0x448 => some (v ||| fld 2 0 (s.regionCode p x.run.selRegion))
  | 0x608 => some (s.fabCnt p)
  | 0x610 => some (v ||| fld 11 0 (s.weirsPending p))
  | 0x700 => some (v ||| fld 1 1 (flag (s.placementPending p)))
  | 0x718 => some (s.mapData p)
  | 0x730 => some (s.tensorLoc p)
  | 0x800 =>
    some (fld 63 32 (s.stepNo p).toNat ||| fld 31 16 (s.layersIn p [.staged, .copying]) ||| fld 15 0 (s.layersIn p [.held]))
  | 0x820 => some (s.layerStat p)
  | 0x830 => some (((s.selLayer p).map fun r => (s.layer p r.layer).digest).getD 0)
  | 0x838 => some (((s.selLayer p).map fun r => (s.layer p r.layer).dstep).getD 0)
  | 0x840 => some (s.layerAddr p)
  | 0xA08 => some (v ||| fld 31 24 x.commit.tries ||| fld 19 16 x.commit.df.code ||| fld 0 0 (flag x.commit.suspect))
  | 0xB00 => some (v ||| fld 31 28 x.heal.st.code ||| fld 27 8 (s.unhosted p).length)
  | 0xC20 => some (s.selPut p).wordA
  | 0xC28 => some (s.selPut p).wordB
  | 0xC30 => some (s.selPut p).wordC
  | 0xC38 => some (s.selPut p).wordD
  | 0xC48 => some (v ||| fld 22 16 (x.inbound.countP fun i => !i.dup))
  | _ => none

/-- The `HST_` function registers of a function (R632); `INFLIGHT` is live. -/
def State.hstReg (s : State) (f off : Nat) : Word :=
  let v := s.reg (Reg.hst f + off)
  if off = 0 then v ||| fld 31 16 (s.func f).inflight.length else v

/-- A register in partition p's window: zero while it does not exist, but for `HST_` registers and `PRT_STAT` (R592). -/
def State.prtReg (s : State) (p off : Nat) : Word :=
  if off < 0x100 then s.hstReg p off
  else if off = 0x100 then s.prtStat p
  else if s.partExists p = false then 0
  else (s.prtLive p off).getD (s.reg (0x50000 + 0x1000 * p + off))

/-- A step register of partition p (R428, R592). -/
def State.stepReg (s : State) (p off : Nat) : Word :=
  let v := s.reg (0x4000000 + 0x100 * p + off)
  if s.partExists p = false then 0 else if off = 0x10 then v ||| fld 0 0 (flag (decide (s.layersIn p [.held] ≠ 0))) else v

/-! ### Rim blocks: `STL_`, `PLN_`, `HBM_`, `JNR_` (R430, R459, R502, R678) -/

def PortState.code : PortState → Nat
  | .off => 0
  | .training => 1
  | .up => 2
  | .down => 3

def LlState.code : LlState → Nat
  | .credit => 0
  | .onoff => 1
  | .resync => 2

/-- A register of optical port `p` (R678). -/
def State.stlReg (s : State) (p off : Nat) : Word :=
  let a := 0x60000 + 0x800 * p + off
  let x := s.stlp p
  let live :=
    if off = 0x000 then
      s.reg a ||| fld 12 8 (min x.rx.width x.tx.width) ||| fld 7 4 x.ll.code ||| fld 2 0 x.st.code
    else if off = 0x010 then
      (maskOfBits 18 fun c => x.rx.out.contains c) <<< 36 ||| (maskOfBits 18 fun c => x.rx.map.contains c) <<< 18 |||
        (maskOfBits 18 fun c => x.rx.spares.contains c)
    else if 0x020 ≤ off ∧ off < 0x0B0 ∧ off % 8 = 0 then
      let r := x.rx.reading ((off - 0x20) / 8)
      fld 63 48 r.pwr.toNat ||| fld 47 40 r.eye.toNat ||| fld 31 0 r.ser.toNat
    else s.reg a
  if s.segUp (3 * p / 4) then live else if off = 0x000 then s.reg a &&& 0x7000000 else 0

/-- A register of Plane engine `e` (R430). -/
def State.plnReg (s : State) (e off : Nat) : Word :=
  let x := s.engine e
  if s.segUp e = false then 0
  else if off = 0x000 then
    fld 63 63 (flag (s.isFenced 4 e)) ||| fld 62 62 (flag (decide (recent s.now dayNs x.mismatches ≠ []))) |||
      fld 51 48 x.part ||| fld 47 32 x.layer ||| fld 2 0 x.work
  else s.reg (0x800000 + 0x10000 * e + off)

/-- A register of HBM stack `k` (R459). -/
def State.hbmReg (s : State) (k off : Nat) : Word :=
  let x := s.stack k
  if s.segUp k = false then (if off = 0 then fld 1 1 1 else 0)
  else if off = 0x000 then
    fld 55 48 (Config.reading (201 + k) s.now) ||| fld 3 3 (flag x.suspect) ||| fld 2 2 (flag x.scrubbing) ||| fld 0 0 (flag x.up)
  else s.reg (0xA00000 + 0x10000 * k + off)

/-- A register of Joiner cluster `c` (R502). -/
def State.jnrReg (s : State) (c off : Nat) : Word :=
  let a := 0x1000000 + 0x100000 * c + off
  let k := fun (p : Nat) => 4 * c + p
  if s.segUp (2 * c) = false then 0
  else if off = 0x000 then
    s.reg a ||| (maskOfBits 4 fun p => (s.pair (k p)).stopped) <<< 4 ||| (maskOfBits 4 fun p => s.pairLive (k p))
  else if 0x040 ≤ off ∧ off < 0x060 ∧ off % 8 = 0 then (s.pair (k ((off - 0x40) / 8))).duties
  else if 0x060 ≤ off ∧ off < 0x080 ∧ off % 8 = 0 then (s.pair (k ((off - 0x60) / 8))).adopted.setWidth 64
  else if a = Reg.jnrStrdata0 then s.streamData.1
  else if a = Reg.jnrStrdata1 then s.man.strLatch
  else s.reg a

/-! ### Module blocks: `BOOT_`, `CLK_`, `TIDE_`, `PWR_`, `FLT_`, `HST_` (R581, R633, R716, R717, R763, R799) -/

def BootState.code : BootState → Nat
  | .running => 0
  | .waiting => 1
  | .ready => 2
  | .failed => 3

/-- `BOOT_STAGE` (R799). -/
def State.bootStage (s : State) : Word :=
  let b := s.boot
  let ms := b.preMs + ((b.endAt.getD s.now) - b.beganAt) / 1000000
  (s.reg Reg.bootStage &&& 0xFFFF0000C0000000) ||| fld 47 44 b.st.code ||| fld 39 32 b.stage ||| fld 23 0 (min ms 0xFFFFFF)

def State.bootReg (s : State) (a : Nat) : Word :=
  if a = Reg.bootStage then s.bootStage
  else if a = Reg.bootLive then s.reg a ||| fld 55 52 (if s.liveSt = 3 then s.liveCluster.getD 0 else 0)
  else if a = Reg.bootKeys then fld 7 4 s.man.fuses.lrevoke.toNat ||| fld 3 0 s.man.fuses.erevoke.toNat
  else s.reg a

/-- A `CLK_` or `TIDE_` register (R716, R717). -/
def State.clkReg (s : State) (a : Nat) : Word :=
  let c := s.phys.clock
  let v := s.reg a
  if a = Reg.clkStat then
    v ||| fld 63 63 (flag c.rootLock) ||| fld 62 62 (flag c.holdSince.isSome) ||| fld 61 60 c.src ||| fld 59 58 c.settle.toNat |||
      fld 25 16 c.trim.toNat
  else if a = Reg.clkHstat then
    v ||| fld 33 33 (flag c.echg) ||| fld 32 32 (flag c.wchg) ||| fld 13 8 c.ecur ||| fld 5 0 c.wcur
  else if a = Reg.clkRipple0 then maskOfBits 64 fun b => (s.bay b).ripple
  else if a = Reg.clkRipple1 then maskOfBits 20 fun i => (s.bay (64 + i)).ripple
  else if a = Reg.tideNow then s.tide
  else if a = Reg.tideStat then
    v ||| fld 63 63 (flag (decide (64 ≤ s.phys.time.inRange) && decide (s.tideSource ≠ 0))) ||| fld 62 61 s.tideSource
  else v

/-- A `PWR_` register (R763). (DESIGN CHOICE, log 89) -/
def State.pwrReg (s : State) (a : Nat) : Word :=
  let w := s.phys.power
  let v := s.reg a
  if a = Reg.pwrStat then
    let hot := max (s.phys.bays.foldl (fun m kb => max m kb.2.temp) 0) (w.segTemp.foldl (fun m kt => max m kt.2) 0)
    fld 63 48 (w.draw / 10) ||| fld 47 32 (Config.reading 0 s.now) ||| fld 31 24 hot ||| fld 7 7 (flag w.halted) |||
      fld 6 6 (flag w.haltPin) ||| fld 5 5 (flag ((List.range 84).any fun b => (s.bay b).stepped)) ||| fld 4 4 (flag w.trips)
  else if a = Reg.pwrExc then v ||| fld 31 0 (w.bucketNow s.now / 10)
  else if a = Reg.pwrRim then w.segs.setWidth 64
  else if a = Reg.pwrBayon0 then maskOfBits 64 fun b => decide ((s.bay b).supply = .on)
  else if a = Reg.pwrBayon1 then maskOfBits 20 fun i => decide ((s.bay (64 + i)).supply = .on)
  else v

/-- A `FLT_` register (R581). -/
def State.fltReg (s : State) (a : Nat) : Word :=
  let b := s.boot
  if a = Reg.fltStat then
    fld 63 56 b.grade ||| fld 55 48 s.man.fuses.grade ||| fld 47 40 (setBits 84 b.voids).length |||
      fld 39 32 (s.fenceSet.countP fun e => decide (e.kind = 6)) ||| fld 31 0 s.shownFences.length
  else if a = Reg.fltVoid0 then BitVec.ofNat 64 b.voids
  else if a = Reg.fltVoid1 then BitVec.ofNat 64 (b.voids / 2 ^ 64 % 2 ^ 20)
  else if a = Reg.fltFdata0 then s.fenceData.1
  else if a = Reg.fltFdata1 then s.man.fltLatch
  else s.reg a

/-- `HST_LINKSTAT` (R633). -/
def State.linkstat (s : State) : Word :=
  let l := s.host.pcie
  fld 39 32 l.ltssm.toNat ||| fld 23 16 l.width ||| fld 15 8 l.rate ||| fld 1 1 (flag l.flit) ||| fld 0 0 (flag l.up)

/-! ### Every register -/

/-- The register of the management blocks at `a` below 0x4_0000; `i` names the set of registers of R835. -/
def State.manReg (s : State) (i : Inst) (a : Nat) : Word :=
  if a < 0x8000 then s.idReg i a
  else if a < 0x10000 then s.bootReg a
  else if a < 0x20000 then s.clkReg a
  else if a < 0x30000 then s.pwrReg a
  else if a < 0x30100 then s.fltReg a
  else s.grnReg i a

/-- The 64-bit value at the 8-byte aligned address `a` of Machine/RegMap.lean, as a read finds it; an unassigned address
reads zero (R12). -/
def State.readReg (s : State) (a : Nat) : Word :=
  if a < 0x40000 then s.manReg .pcie a
  else if a < 0x40100 then s.hstReg 0 (a - 0x40000)
  else if a = Reg.hstLinkstat then s.linkstat
  else match inBlock 0x51000 0x1000 8 a with
  | some (i, off) => s.prtReg (i + 1) off
  | none => match inBlock 0x60000 0x800 32 a with
  | some (p, off) => if a = Reg.stlAddr ∨ a = Reg.stlTorus ∨ a = Reg.stlRatecap then s.reg a else s.stlReg p off
  | none => match inBlock 0x100000 0x10000 84 a with
  | some (b, off) => s.silReg b off
  | none => match inBlock 0x800000 0x10000 24 a with
  | some (e, off) => s.plnReg e off
  | none => match inBlock 0xA00000 0x10000 24 a with
  | some (k, off) => s.hbmReg k off
  | none => match inBlock 0x1000000 0x100000 12 a with
  | some (c, off) => s.jnrReg c off
  | none => match inBlock 0x4000100 0x100 8 a with
  | some (i, off) => s.stepReg (i + 1) off
  | none => s.reg a

end Sys2Proof.Machine
end

