-- ==== Sys2Proof/Machine/Windows.lean ====
section
/-!
DEFINITION. The host's windows onto tiles and routers: `SIL_TDATA` and `SIL_RTDATA` (R162 to R164, R327, R328).
-/

namespace Sys2Proof.Machine

/-- An access of the bay's window is over: its ST, and ADDR advances by 8 when INC is set (R162, R327).
(DEDUCED, log 39) -/
def State.endAccess (sel inc lo st : Nat) (s : State) : State :=
  let s := s.setField sel 63 61 st
  if (s.reg sel).getLsbD inc then s.setField sel (lo + 15) lo (s.field sel (lo + 15) lo + 8) else s

/-- The tile that the bay's window reaches, or the ST of the failure: 1 OFF, 2 no such tile (R162, R163). -/
def State.windowTile (s : State) (b : Nat) : Except Nat PT :=
  match s.selTile b with
  | none => .error 2
  | some t => if (s.tile t).s.seq = .off then .error 1 else .ok t

/-- A raw read of 8 bytes of a tile: ST and the data (R106, R157 to R159, R163). -/
def State.rawRead (t : PT) (a : Nat) (s : State) : Nat × Word × State :=
  let before := s.tile t
  match before.readLocal t (s.hosted t) a 8 with
  | .ok (d, x) => (0, BitVec.ofNat 64 (ofLe d), (s.setTile t x).ceHigh t before)
  | .error (.uncorr w) => (4, 0, s.sramUncorr t w)
  | .error _ => (2, 0, s)

/-- A raw write of 8 bytes of a tile (R106, R122, R163). -/
def State.rawWrite (t : PT) (a : Nat) (v : Word) (s : State) : Nat × State :=
  let x := s.tile t
  if accessible a 8 = false then (2, s)
  else if memAt a = some .im ∧ (x.s.seq = .run ∨ x.s.seq = .blocked) then (3, s)
  else if 0xF000 ≤ a then (0, s.writeTileReg t (a - 0xF000) v)
  else (0, s.modTile t fun y => y.store a (leBytes 8 v.toNat))

/-- `SIL_TDATA_ACCESS`: a read, or a write of the value given, of the selected tile's 8 bytes at ADDR; it never blocks
(R162, R163). A bay whose Sill controller has no supply answers zero (R595). (DEDUCED, log 105) -/
def execSilTdataAccess (b : Nat) (write : Option Word) (s : State) : Out :=
  .next (
    let sel := Reg.silTsel b
    let a := s.field sel 47 32
    let reply := fun (v : Word) (s : State) => if write.isSome then s else s.emitOut (.regData 0 (Reg.silTdata b) v)
    if 84 ≤ b ∨ (s.bay b).sill = false then reply 0 s
    else
      match s.windowTile b with
      | .error st => reply 0 (s.endAccess sel 23 32 st)
      | .ok t =>
        match write with
        | none =>
          let r := s.rawRead t a
          reply r.2.1 (r.2.2.endAccess sel 23 32 r.1)
        | some v =>
          let r := s.rawWrite t a v
          r.2.endAccess sel 23 32 r.1)

/-! ### The router space (R327, R328) -/

/-- The code of a port in `FAB_PORTST` (R328). -/
def State.portCode (s : State) (t : PT) (d : Dir) : Nat :=
  if (t.step d).isNone then 4
  else match (s.link t d).st with
    | .credit => 0
    | .onoff => 1
    | .resync => 2
    | .down => 3

/-- A word of a scarf table of 64 entries of 16 bytes (R294). -/
def scarfWord (tab : Tab (Word × Word)) (off : Nat) : Word :=
  let e := Tab.get ((0 : Word), (0 : Word)) tab (off / 16)
  if off % 16 = 0 then e.1 else e.2

/-- The 8 bytes at a router offset; none at a reserved address. The private tables' contents are open.
(DESIGN CHOICE, log 38) -/
def State.routerWord (s : State) (t : PT) (a : Nat) : Option Word :=
  let r := s.router t
  if a = 0x00 then some (fld 63 48 r.gen.toNat ||| fld 1 1 (flag r.tv) ||| fld 0 0 (flag r.ep))
  else if a = 0x08 then
    some (fld 11 9 (s.portCode t .west) ||| fld 8 6 (s.portCode t .south) ||| fld 5 3 (s.portCode t .east) |||
      fld 2 0 (s.portCode t .north))
  else if a = 0x10 then some (fld 63 48 r.retry.toNat ||| fld 47 32 r.onoff.toNat ||| fld 31 16 r.rsfail.toNat)
  else if a = 0x18 then some (fld 63 32 r.epdisc.toNat ||| fld 31 0 r.divert.toNat)
  else if a = 0x20 then some 0
  else if 0x400 ≤ a ∧ a < 0x800 then some (scarfWord r.scarf0 (a - 0x400))
  else if 0x800 ≤ a ∧ a < 0xC00 then some (scarfWord r.scarf1 (a - 0x800))
  else if 0x1000 ≤ a ∧ a < 0x3000 then some (Config.routerTable s.comp.escapeVer t.key a)
  else none

/-- `SIL_RTDATA_ACCESS`: a read of the selected router's space, or a write, refused but for `FAB_CTL` (R327, R328).
(DEDUCED, log 39) -/
def execSilRtdataAccess (b : Nat) (write : Option Word) (s : State) : Out :=
  .next (
    let sel := Reg.silRtsel b
    let a := s.field sel 15 0
    let reply := fun (v : Word) (s : State) => if write.isSome then s else s.emitOut (.regData 0 (Reg.silRtdata b) v)
    if 84 ≤ b ∨ (s.bay b).sill = false then reply 0 s
    else
      match s.windowTile b with
      | .error st => reply 0 (s.endAccess sel 16 0 st)
      | .ok t =>
        match s.routerWord t a, write with
        | none, _ => reply 0 (s.endAccess sel 16 0 2)
        | some v, none => reply v (s.endAccess sel 16 0 0)
        | some _, some v =>
          if a = 0x20 then
            let s := if v.getLsbD 0 then after (execFabCtlClr t s) s else s
            s.endAccess sel 16 0 0
          else s.endAccess sel 16 0 3)

end Sys2Proof.Machine
end

