-- ==== Sys2Proof/Machine/RegWrite.lean ====
section
/-!
DEFINITION. Reads and writes of BAR0 by the host: addresses, widths, staging and latching (R8 to R15, R589 to R593), the
command aperture (R601 to R603), the MSI-X table, and `REGISTER_WRITE`.
-/

namespace Sys2Proof.Machine

/-! ### Addresses (R588 to R593) -/

/-- What an offset of BAR0 reaches: a register, a dword of the aperture, of the MSI-X table, of its pending bits, or nothing. -/
inductive BusTarget where
  | reg (a : Nat)
  | slot (off : Nat)
  | msix (off : Nat)
  | pba (off : Nat)
  | none
deriving DecidableEq, Repr

/-- The map of PF0's BAR0 (R589) and of a partition function's (R590). (DESIGN CHOICE, log 9) -/
def busTarget (f off : Nat) : BusTarget :=
  if f = 0 then
    if 0x4000000 ≤ off then .none
    else if 0x2000000 ≤ off ∧ off < 0x2100000 then .slot (off - 0x2000000)
    else if 0x2100000 ≤ off ∧ off < 0x2100400 then .msix (off - 0x2100000)
    else if 0x2101000 ≤ off ∧ off < 0x2101008 then .pba (off - 0x2101000)
    else .reg off
  else if 8 < f then .none
  else if off < 0x100000 then .slot off
  else if off < 0x101000 then .reg (0x50000 + 0x1000 * f + (off - 0x100000))
  else if 0x200000 ≤ off ∧ off < 0x200100 then .reg (0x4000000 + 0x100 * f + (off - 0x200000))
  else if 0x300000 ≤ off ∧ off < 0x300400 then .msix (off - 0x300000)
  else if 0x301000 ≤ off ∧ off < 0x301008 then .pba (off - 0x301000)
  else .none

/-- The partition whose window or step registers hold the register, and the offset in its window; `HST_` registers and
`PRT_STAT` are there while it does not exist (R591, R592). -/
def partOfReg (a : Nat) : Option Nat :=
  match inBlock 0x51000 0x1000 8 a with
  | some (i, off) => if off ≤ 0x100 then none else some (i + 1)
  | none => (inBlock 0x4000100 0x100 8 a).map fun r => r.1 + 1

/-! ### Reads (R13 to R15) -/

/-- Bytes of the MSI-X table: address, data, mask, 16 an entry. -/
def State.msixRead (s : State) (f off : Nat) : Word :=
  let e := Tab.get ((0 : Word), (0 : Dword), true) (s.func f).msix (off / 16)
  if off % 16 < 8 then e.1 else (e.2.1.setWidth 64) ||| (BitVec.ofNat 64 (flag e.2.2) <<< 32)

/-- The 8 bytes at an 8-byte aligned offset of function `f`'s BAR0; an aperture reads zero (R593). -/
def State.busWord (s : State) (f off : Nat) : Word :=
  match busTarget f off with
  | .reg a => s.readReg a
  | .slot _ => 0
  | .msix o => s.msixRead f o
  | .pba _ => (s.func f).msixPend
  | .none => 0

/-- The bits [8 (o + n) − 1 : 8 o] of a word. -/
def wordBytes (w : Word) (o n : Nat) : Word := (w >>> (8 * o)) &&& BitVec.ofNat 64 (2 ^ (8 * n) - 1)

/-- A read of `n` bytes of a register that has no further action: an unaligned read returns zero (R13, R15); a 32-bit read
of the low half latches the high half, which the next read of the high half returns (R14).
(DEDUCED, log 10; DEDUCED, log 11) -/
def State.hostRead (f off n : Nat) (s : State) : Word × State :=
  let o := off % 8
  let w := s.busWord f (off - o)
  match busTarget f (off - o) with
  | .reg a =>
    if n = 8 then if o = 0 then (w, s) else (0, s)
    else if n = 4 then
      if o = 0 then (wordBytes w 0 4, { s with latch := Tab.set none s.latch a (some (w.extractLsb' 32 32)) })
      else if o = 4 then
        match Tab.get none s.latch a with
        | some d => (d.setWidth 64, { s with latch := Tab.set none s.latch a none })
        | none => (wordBytes w 4 4, s)
      else (0, s)
    else if n < 4 ∧ off % 4 + n ≤ 4 then (wordBytes w o n, s)
    else (0, s)
  | _ => if n ≤ 8 ∧ (off % 4 + n ≤ 4 ∨ (n = 8 ∧ o = 0)) then (wordBytes w o n, s) else (0, s)

/-! ### Writes that follow the access code (R8, R10, R11, R16) -/

/-- The value of a field that reads as the nearest legal one. -/
def clampField (w : Word) (c : Nat × Nat × Nat × Nat) : Word :=
  let hi := c.1 + c.2.1 - 1
  withField w hi c.1 (max c.2.2.1 (min c.2.2.2 (fieldOf w hi c.1)))

/-- What a write of `v` leaves in a register that holds `old`: RW bits stored, W1C bits cleared, all others kept. -/
def RegRow.written (r : RegRow) (old v : Word) : Word :=
  r.clamp.foldl clampField (((old &&& ~~~r.rw) ||| (v &&& r.rw)) &&& ~~~(v &&& r.w1c))

/-- A write from function `f` by the access code; a register that takes writes only from PF0 ignores others (R591). -/
def State.writeCode (f a : Nat) (v : Word) (s : State) : State :=
  match regRow a with
  | none => s
  | some r => if r.pf0 ∧ f ≠ 0 then s else s.setReg a (r.written (s.reg a) v)

/-! ### Registers whose writes act -/

/-- `PRT_DRAIN_CTL` (R214): every write selects the region; GO in a legal mode drains it, REOPEN reopens it, and both
together do neither. (DEDUCED, log 29) -/
def State.writeDrainCtl (p : Nat) (v : Word) (s : State) : State :=
  let r := fieldOf v 7 0
  let s := s.modRun p fun x => { x with selRegion := r }
  match v.getLsbD 10, v.getLsbD 11 with
  | true, false =>
    match fieldOf v 9 8 with
    | 0 => s.drainGo p r .boundary
    | 1 => s.drainGo p r .immediate
    | 2 => s.drainGo p r .purge
    | _ => s
  | false, true => s.reopenGo p r
  | _, _ => s

/-- `PRT_LAYER_CTL` (R390, R429). -/
def State.writeLayerCtl (p : Nat) (v : Word) (s : State) : State :=
  let s := if v.getLsbD 49 then s.setUpd p (v.extractLsb' 0 48) else s
  match fieldOf v 51 50 with
  | 1 => s.freezeLayer p
  | 2 => s.unfreezeLayer p
  | _ => s

/-- A put entry's settings, ignored while it is HELD or SENDING (R662, R680). -/
def State.writePutReg (p off : Nat) (v : Word) (s : State) : State :=
  let e := s.field (Reg.prtStlPutsel p) 5 0
  let x := s.put p e
  if x.active then s
  else if off = 0xC20 then s.setPut p e { x with spa := v.extractLsb' 0 48 }
  else if off = 0xC28 then s.setPut p e { x with dst := v.extractLsb' 32 32, len := v.extractLsb' 0 31 }
  else if off = 0xC30 then s.setPut p e { x with dpart := v.extractLsb' 60 4, dpa := v.extractLsb' 0 48 }
  else
    s.setPut p e { x with
      armed := v.getLsbD 63, hold := v.getLsbD 62, wen := v.getLsbD 61, wid := v.extractLsb' 32 12, dfid := v.extractLsb' 16 16 }

/-- A write of an `HST_` function register of function `g` (R617, R632): BASE is not written while its log is enabled;
PF0 has no BAR2. -/
def State.writeHst (f g off : Nat) (v : Word) (s : State) : State :=
  let a := Reg.hst g + off
  if off = 0x08 then if s.logEn g .completion then s else s.writeCode f a v
  else if off = 0x10 then s.writeLogCfg g .completion v
  else if off = 0x18 then s.writeLogHead g .completion v
  else if off = 0x28 then if s.logEn g .event then s else s.writeCode f a v
  else if off = 0x30 then s.writeLogCfg g .event v
  else if off = 0x38 then s.writeLogHead g .event v
  else if off = 0x48 ∧ g = 0 then s
  else s.writeCode f a v

/-- A write of a `PRT_` register of an existing partition. -/
def State.writePrt (f p off : Nat) (v : Word) (s : State) : State :=
  match off with
  | 0x430 =>
    let s := if v.getLsbD 0 then after (execFlowClrSpill p s) s else s
    let s := if v.getLsbD 1 then after (execFlowClrPeak p s) s else s
    if v.getLsbD 2 then after (execFlowClrDiscard p s) s else s
  | 0x440 => s.writeDrainCtl p v
  | 0x618 => if v.getLsbD 0 then after (execPrtFabClr p s) s else s
  | 0x828 => s.writeLayerCtl p v
  | 0x850 => if v.getLsbD 0 then after (execPrtPlnClr p s) s else s
  | 0x910 => if v.getLsbD 0 then after (execPrtHbmClr p s) s else s
  | 0xA00 => s.writeStep p v
  | 0xAC0 => if v.getLsbD 0 then after (execPrtDetClr p s) s else s
  | 0xC20 | 0xC28 | 0xC30 | 0xC38 => s.writePutReg p off v
  | 0xC40 => s.writePutgo p v
  | _ => s.writeCode f (0x50000 + 0x1000 * p + off) v

/-- A write of a partition's step register (R395, R428). -/
def State.writeStepReg (f p off : Nat) (v : Word) (s : State) : State :=
  if off = 0 then s.writeSlot p false v
  else if off = 8 then s.writeSlot p true v
  else s.writeCode f (0x4000000 + 0x100 * p + off) v

/-- A write of a `SIL_` register of bay `b`: the window registers write through the window (R162, R327), `SIL_PWRCFG` bears on
the issue state (R736, R764). -/
def State.writeSil (f b off : Nat) (v : Word) (s : State) : State :=
  let a := 0x100000 + 0x10000 * b + off
  if off = 0x408 then (if f = 0 then after (execSilTdataAccess b (some v) s) s else s) else
  if off = 0x428 then (if f = 0 then after (execSilRtdataAccess b (some v) s) s else s) else
  if off = 0x508 then (s.writeCode f a v).settleBay b
  else if off = 0x520 then if v.getLsbD 0 then s.clearMargin b else s
  else s.writeCode f a v

/-- A write of an optical port's register (R651, R678). -/
def State.writeStl (f p off : Nat) (v : Word) (s : State) : State :=
  if off = 0x008 then s.writePcfg p v
  else if off = 0x0D0 then
    let s := if v.getLsbD 0 then s.clearPort p else s
    if v.getLsbD 1 then s.retrain p else s
  else s.writeCode f (0x60000 + 0x800 * p + off) v

/-- A write of `HBM_SCRUB`: clearing EN ends a pass (R452); while the period is held at 1 hour, PERIOD is the setting to
which it returns (R455). (DEDUCED, log 49) -/
def State.writeScrub (f k : Nat) (v : Word) (s : State) : State :=
  let a := Reg.hbmScrub k
  let x := s.stack k
  let t := s.writeCode f a v
  let t := if x.suspect then (t.setStack k { x with savedPeriod := t.field a 15 8 }).setField a 15 8 1 else t
  if v.getLsbD 0 then t else t.modStack k fun y => { y with scrubbing := false, scrubPos := 0 }

/-- A write of an HBM controller's register (R454, R459). -/
def State.writeHbm (f k off : Nat) (v : Word) (s : State) : State :=
  if off = 0x30 then s.writeScrub f k v
  else if off = 0x40 then
    let s := if v.getLsbD 0 then after (execHbmCtlClr k s) s else s
    if v.getLsbD 1 then after (execHbmScrubnow k s) s else s
  else s.writeCode f (0xA00000 + 0x10000 * k + off) v

/-- A write of `BOOT_CTL` (R773, R791, R799): a FETCH or LIVE that is not ignored is asked for, and BOOT_FETCH or BOOT_LIVE
carries it out with what host memory answers. (DESIGN CHOICE, log 12) -/
def State.writeBootCtl (v : Word) (s : State) : State :=
  let fetch := v.getLsbD 0 && s.mayFetch
  let live := v.getLsbD 1 && s.mayLive
  s.modBoot fun b => { b with asked := b.asked ||| BitVec.ofNat 2 (flag fetch + 2 * flag live) }

/-- A write of a register below 0x4_0000, by one set of the management registers (R835). (DESIGN CHOICE, log 103) -/
def State.writeMan (f a : Nat) (v : Word) (s : State) : State :=
  if a = Reg.bootCtl then (if f = 0 then s.writeBootCtl v else s) else
  if a = Reg.idAttctl then if v.getLsbD 0 then s.writeGo .pcie else s
  else if 0x110 ≤ a ∧ a < 0x130 then
    s.setAttest .pcie { s.attest .pcie with nonce := Tab.set 0 (s.attest .pcie).nonce ((a - 0x110) / 8) v }
  else if a = Reg.clkHdiv then s.writeHdiv v
  else if a = Reg.clkCtl then if v.getLsbD 0 then s.clearClk else s
  else if a = Reg.tideCfg then s.writeTideCfg v
  else if a = Reg.tideSync then s.writeTideSync v
  else if a = Reg.tideSet then s.writeTideSet v
  else if a = Reg.tideCtl then if v.getLsbD 0 then s.clearTide else s
  else if a = Reg.pwrSurge then s.writeSurge v
  else if a = Reg.pwrHalt then if v.getLsbD 0 then s.resumeModule else s
  else if a = Reg.pwrCtl then if v.getLsbD 0 then after (execPwrCtlClr s) s else s
  else if a = Reg.fltCtl then if v.getLsbD 0 then after (execFltCtlClr s) s else s
  else if a = Reg.grnRsel then s.writeRsel .pcie v
  else if a = Reg.grnCtl then if v.getLsbD 0 then after (execGrnCtlClr s) s else s
  else s.writeCode f a v

/-- A whole register at its aligned address is written by function `f`; the registers of a partition that does not exist
ignore it (R592). -/
def State.writeReg (f a : Nat) (v : Word) (s : State) : State :=
  if a < 0x40000 then s.writeMan f a v
  else if a < 0x40100 then s.writeHst f 0 (a - 0x40000) v
  else if a = Reg.hstCtl then if v.getLsbD 0 then s.clearHst else s
  else if (match partOfReg a with
    | some p => !s.partExists p
    | none => false) then s
  else match inBlock 0x51000 0x1000 8 a with
  | some (i, off) => if off < 0x100 then s.writeHst f (i + 1) off v else s.writePrt f (i + 1) off v
  | none => if a = Reg.stlAddr then s.writeAddr v else match inBlock 0x60000 0x800 32 a with
  | some (p, off) => s.writeStl f p off v
  | none => match inBlock 0x100000 0x10000 84 a with
  | some (b, off) => s.writeSil f b off v
  | none => match inBlock 0x800000 0x10000 24 a with
  | some (e, off) => if off = 0x10 then (if v.getLsbD 0 then after (execPlnEctlClr e s) s else s) else s
  | none => match inBlock 0xA00000 0x10000 24 a with
  | some (k, off) => s.writeHbm f k off v
  | none => if a = Reg.jnrStrclr then s.clearStreams v else match inBlock 0x4000100 0x100 8 a with
  | some (i, off) => s.writeStepReg f (i + 1) off v
  | none => s.writeCode f a v

/-! ### The aperture and the MSI-X table (R601, R603, R621) -/

/-- Write dword `o / 4` of a slot. -/
def Slot.put (i : Nat) (d : Dword) (x : Slot) : Slot :=
  let m : BitVec 512 := 0xFFFFFFFF <<< (32 * i)
  { mask := x.mask ||| ((1 : BitVec 16) <<< i), bytes := (x.bytes &&& ~~~m) ||| (d.setWidth 512 <<< (32 * i)) }

/-- A dword written to the aperture (R603); whether a dword of a slot that is already complete is replaced is open.
(DESIGN CHOICE, log 66) -/
def State.writeSlotDword (f off : Nat) (d : Dword) (s : State) : State :=
  let n := off / 64
  let x := Tab.get Slot.reset (s.func f).slots n
  let put := fun (s : State) => s.modFunc f fun y => { y with slots := Tab.set Slot.reset y.slots n (x.put (off % 64 / 4) d) }
  if x.mask = 0xFFFF then
    let k := s.draw
    if k.1 % 2 = 0 then k.2 else put k.2
  else put s

/-- A dword written to the MSI-X table; a vector that is pending is sent when its mask is cleared. -/
def State.writeMsix (f off : Nat) (d : Dword) (s : State) : State :=
  let v := off / 16
  let e := Tab.get ((0 : Word), (0 : Dword), true) (s.func f).msix v
  let e' := match off % 16 / 4 with
    | 0 => (withField e.1 31 0 d.toNat, e.2.1, e.2.2)
    | 1 => (withField e.1 63 32 d.toNat, e.2.1, e.2.2)
    | 2 => (e.1, d, e.2.2)
    | _ => (e.1, e.2.1, d.getLsbD 0)
  let s := s.modFunc f fun x => { x with msix := Tab.set (0, 0, true) x.msix v e' }
  if (s.func f).msixPend.getLsbD v ∧ e'.2.2 = false then
    (s.modFunc f fun x => { x with msixPend := withField x.msixPend v v 0 }).emitOut (.msix f v)
  else s

/-- A dword reaches the aperture or the MSI-X table. -/
def State.writeDword (f off : Nat) (d : Dword) (s : State) : State :=
  match busTarget f off with
  | .slot o => s.writeSlotDword f o d
  | .msix o => s.writeMsix f o d
  | _ => s

/-! ### The write (R13 to R15) -/

/-- `REGISTER_WRITE`: a write of `width` bits, 32 or 64, at an offset of function `f`'s BAR0. Narrower and unaligned ones are
ignored; a 32-bit write of a high half writes the register with the low half last written (R13 to R15).
(DEDUCED, log 11) -/
def State.hostWrite (f off width : Nat) (v : Word) (s : State) : State :=
  let o := off % 8
  if width = 64 then
    if o ≠ 0 then s
    else
      match busTarget f off with
      | .reg a => (s.staged a v).writeReg f a v
      | _ => (s.writeDword f off (v.extractLsb' 0 32)).writeDword f (off + 4) (v.extractLsb' 32 32)
  else if width = 32 then
    if off % 4 ≠ 0 then s
    else
      match busTarget f (off - o) with
      | .reg a =>
        if o = 0 then s.staged a v
        else s.writeReg f a (((v.extractLsb' 0 32).setWidth 64 <<< 32) ||| (Tab.get 0 s.stage a).setWidth 64)
      | _ => s.writeDword f off (v.extractLsb' 0 32)
  else s

def execRegisterWrite (f off width : Nat) (value : Word) (s : State) : Out := .next (s.hostWrite f off width value)

end Sys2Proof.Machine
end

