-- ==== Sys2Proof/Machine/I3c.lean ====
section
/-!
DEFINITION. The I3C target (R834, R835, R860): private writes and reads of its address space, and its dynamic address.
-/

namespace Sys2Proof.Machine

/-- The aligned 8 bytes at `a` as the I3C target reads them (R834). -/
def State.i3cWord (s : State) (a : Nat) : Word :=
  if a < 0x3000 then s.idReg .i3c a
  else if a = Reg.bootStage then s.bootStage
  else if a = Reg.fltStat ∨ a = Reg.pwrStat then s.readReg a
  else if Reg.grnStat ≤ a ∧ a < 0x30300 then s.grnReg .i3c a
  else 0

def State.i3cByte (s : State) (a : Nat) : Byte := (s.i3cWord (a / 8 * 8)).extractLsb' (8 * (a % 8)) 8

/-- One byte of a word replaced. -/
def setByte (w : Word) (i : Nat) (d : Byte) : Word := withField w (8 * i + 7) (8 * i) d.toNat

/-- The bytes of a private write that fall on the nonce (R834, R836). -/
def nonceBytes (a : Nat) : List Byte → Tab Word → Tab Word
  | [], t => t
  | d :: r, t =>
    let t := if 0x110 ≤ a ∧ a < 0x130 then
      Tab.set 0 t ((a - 0x110) / 8) (setByte (Tab.get 0 t ((a - 0x110) / 8)) (a % 8) d)
      else t
    nonceBytes (a + 1) r t

/-- The byte that a write from `p` puts at `a`. -/
def writtenAt (p : Nat) (ds : List Byte) (a : Nat) : Option Byte := if a < p then none else ds[a - p]?

/-- `GRN_RSEL` after a write from `p`: the bytes written over the rest of its value; none when no byte of it is written. -/
def rselWritten (p : Nat) (ds : List Byte) (old : Word) : Option Word :=
  if (List.range 8).any fun i => (writtenAt p ds (Reg.grnRsel + i)).isSome then
    some ((List.range 8).foldl (fun w i => match writtenAt p ds (Reg.grnRsel + i) with
      | some d => setByte w i d
      | none => w) old)
  else none

/-- `I3C_PRIVATE_WRITE`: three address bytes, least significant first, then data, accepted only by `ID_NONCEk`, `ID_ATTCTL`
and `GRN_RSEL` of the target's own set (R834, R835). -/
def execI3cPrivateWrite (bytes : List Byte) (s : State) : Out :=
  .next (
    if s.segUp 0 = false ∨ bytes.length < 3 then s
    else
      let p := ofLe (bytes.take 3)
      let ds := bytes.drop 3
      let s := s.modPins fun x => { x with i3cPtr := p }
      let x := s.attest .i3c
      let s := s.setAttest .i3c { x with nonce := nonceBytes p ds x.nonce }
      let s := match writtenAt p ds Reg.idAttctl with
        | some d => if d.getLsbD 0 then s.writeGo .i3c else s
        | none => s
      match rselWritten p ds (s.reader .i3c).sel with
      | some v => s.writeRsel .i3c v
      | none => s)

/-- The address of the last byte of `GRN_RDATA31`. -/
def rdataEnd : Nat := Reg.grnRdatak 31 + 7

/-- `I3C_PRIVATE_READ`: `n` bytes from the address last written, one up for each; a read of the last byte of `GRN_RDATA31`
reads that register, which with INC set advances the target's own reader (R833, R834). -/
def execI3cPrivateRead (n : Nat) (s : State) : Out :=
  .next (
    if s.segUp 0 = false then s
    else
      let p := s.man.pins.i3cPtr
      let s := s.emitOut (.i3cData ((List.range n).map fun i => s.i3cByte (p + i)))
      let s := s.modPins fun x => { x with i3cPtr := p + n }
      if p ≤ rdataEnd ∧ rdataEnd < p + n then s.readLast .i3c else s)

/-- `I3C_DYNAMIC_ADDRESS`: SETDASA or ENTDAA (R860). -/
def execI3cDynamicAddress (a : BitVec 7) (s : State) : Out :=
  .next (if s.segUp 0 then s.modPins fun x => { x with dyn := some a } else s)

end Sys2Proof.Machine
end

