-- ==== Sys2Proof/Machine/Dispatch.lean ====
section
/-!
DEFINITION. The meaning of each command, one arm per constructor of Instr.
-/

namespace Sys2Proof.Machine

def exec (i : Instr) (s : State) : Host.Outcome State Fault Refusal :=
  match i with
  | .nop t => Sys2Proof.Machine.execNop t s
  | .loop t lvl trip len unt uq utk => Sys2Proof.Machine.execLoop t lvl trip len unt uq utk s
  | .bsel t q len0 len1 len2 len3 => Sys2Proof.Machine.execBsel t q len0 len1 len2 len3 s
  | .emit t port tk val => Sys2Proof.Machine.execEmit t port tk val s
  | .weir t wid => Sys2Proof.Machine.execWeir t wid s
  | .float t act fid => Sys2Proof.Machine.execFloat t act fid s
  | .endOp t => Sys2Proof.Machine.execEndOp t s
  | .halt t => Sys2Proof.Machine.execHalt t s
  | .mov t dst src w => Sys2Proof.Machine.execMov t dst src w s
  | .lds t sel now len src => Sys2Proof.Machine.execLds t sel now len src s
  | .seta t a base stride => Sys2Proof.Machine.execSeta t a base stride s
  | .adda t a imm => Sys2Proof.Machine.execAdda t a imm s
  | .tags t a full count => Sys2Proof.Machine.execTags t a full count s
  | .rget t port dst w off => Sys2Proof.Machine.execRget t port dst w off s
  | .dot t fa fb xa xb srca srcb acc clr wb wbd => Sys2Proof.Machine.execDot t fa fb xa xb srca srcb acc clr wb wbd s
  | .fma t dst src1 src2 src3 => Sys2Proof.Machine.execFma t dst src1 src2 src3 s
  | .xadd t dst src1 src2 => Sys2Proof.Machine.execXadd t dst src1 src2 s
  | .vop t fn dst src1 src2 sel => Sys2Proof.Machine.execVop t fn dst src1 src2 sel s
  | .cvt t tf rm sat ixs src dst pk layer sf => Sys2Proof.Machine.execCvt t tf rm sat ixs src dst pk layer sf s
  | .cvtb t tf rm xs sf ixs as ad ak layer tag => Sys2Proof.Machine.execCvtb t tf rm xs sf ixs as ad ak layer tag s
  | .rreg t v reg => Sys2Proof.Machine.execRreg t v reg s
  | .wreg t v reg => Sys2Proof.Machine.execWreg t v reg s
  | .tileStart t => Sys2Proof.Machine.execTileStart t s
  | .sequencerUnblock t => Sys2Proof.Machine.execSequencerUnblock t s
  | .taggedWaitProceed t slot => Sys2Proof.Machine.execTaggedWaitProceed t slot s
  | .parkedRequestComplete t entry => Sys2Proof.Machine.execParkedRequestComplete t entry s
  | .reissue t => Sys2Proof.Machine.execReissue t s
  | .tileResetDone t => Sys2Proof.Machine.execTileResetDone t s
  | .tileHalt t => Sys2Proof.Machine.execTileHalt t s
  | .tileResume t => Sys2Proof.Machine.execTileResume t s
  | .tileReset t => Sys2Proof.Machine.execTileReset t s
  | .tileClrtags t => Sys2Proof.Machine.execTileClrtags t s
  | .tileEccClr t => Sys2Proof.Machine.execTileEccClr t s
  | .qsend p => Sys2Proof.Machine.execQsend p s
  | .wrRaw p => Sys2Proof.Machine.execWrRaw p s
  | .wrTag p => Sys2Proof.Machine.execWrTag p s
  | .rdRaw p => Sys2Proof.Machine.execRdRaw p s
  | .rdTag p => Sys2Proof.Machine.execRdTag p s
  | .rdKeep p => Sys2Proof.Machine.execRdKeep p s
  | .fount p => Sys2Proof.Machine.execFount p s
  | .rdData p => Sys2Proof.Machine.execRdData p s
  | .wrAck p => Sys2Proof.Machine.execWrAck p s
  | .qAck p => Sys2Proof.Machine.execQAck p s
  | .qCredit p => Sys2Proof.Machine.execQCredit p s
  | .err p => Sys2Proof.Machine.execErr p s
  | .close p => Sys2Proof.Machine.execClose p s
  | .recall p => Sys2Proof.Machine.execRecall p s
  | .weirArr p => Sys2Proof.Machine.execWeirArr p s
  | .weirRel p => Sys2Proof.Machine.execWeirRel p s
  | .floatOp p => Sys2Proof.Machine.execFloatOp p s
  | .floatVal p => Sys2Proof.Machine.execFloatVal p s
  | .rimWr p => Sys2Proof.Machine.execRimWr p s
  | .rimRd p => Sys2Proof.Machine.execRimRd p s
  | .linkFlitReceive r d f => Sys2Proof.Machine.execLinkFlitReceive r d f s
  | .returnWord r d w => Sys2Proof.Machine.execReturnWord r d w s
  | .linkAckTimeout r d => Sys2Proof.Machine.execLinkAckTimeout r d s
  | .linkOnoffExpire r d => Sys2Proof.Machine.execLinkOnoffExpire r d s
  | .sync r d f => Sys2Proof.Machine.execSync r d f s
  | .linkResyncTimeout r d => Sys2Proof.Machine.execLinkResyncTimeout r d s
  | .linkResyncRetry r d => Sys2Proof.Machine.execLinkResyncRetry r d s
  | .linkRetest r d good => Sys2Proof.Machine.execLinkRetest r d good s
  | .fabCtlClr r => Sys2Proof.Machine.execFabCtlClr r s
  | .prtFabClr p => Sys2Proof.Machine.execPrtFabClr p s
  | .spill t => Sys2Proof.Machine.execSpill t s
  | .spillBasinDone t q => Sys2Proof.Machine.execSpillBasinDone t q s
  | .refill t q => Sys2Proof.Machine.execRefill t q s
  | .drainBoundary p r => Sys2Proof.Machine.execDrainBoundary p r s
  | .drainImmediate p r => Sys2Proof.Machine.execDrainImmediate p r s
  | .drainPurge p r => Sys2Proof.Machine.execDrainPurge p r s
  | .reopen p r => Sys2Proof.Machine.execReopen p r s
  | .closeNoAnswer p c q => Sys2Proof.Machine.execCloseNoAnswer p c q s
  | .drainTimeout p r => Sys2Proof.Machine.execDrainTimeout p r s
  | .regionDrained p r => Sys2Proof.Machine.execRegionDrained p r s
  | .flowClrDiscard p => Sys2Proof.Machine.execFlowClrDiscard p s
  | .flowClrPeak p => Sys2Proof.Machine.execFlowClrPeak p s
  | .flowClrSpill p => Sys2Proof.Machine.execFlowClrSpill p s
  | .nopCommand f seq => Sys2Proof.Machine.execNopCommand f seq s
  | .commandRecord f => Sys2Proof.Machine.execCommandRecord f s
  | .partCreate f seq host => Sys2Proof.Machine.execPartCreate f seq host s
  | .partDelete f seq => Sys2Proof.Machine.execPartDelete f seq s
  | .keyLoad f seq host => Sys2Proof.Machine.execKeyLoad f seq host s
  | .fenceWithdraw f seq => Sys2Proof.Machine.execFenceWithdraw f seq s
  | .frameCheck f seq => Sys2Proof.Machine.execFrameCheck f seq s
  | .frameApply f seq => Sys2Proof.Machine.execFrameApply f seq s
  | .remap f seq => Sys2Proof.Machine.execRemap f seq s
  | .gateRun f seq => Sys2Proof.Machine.execGateRun f seq s
  | .gateArm f seq => Sys2Proof.Machine.execGateArm f seq s
  | .gatewayStream p c q => Sys2Proof.Machine.execGatewayStream p c q s
  | .flumeCopy f seq => Sys2Proof.Machine.execFlumeCopy f seq s
  | .flumeCopyDone flume host => Sys2Proof.Machine.execFlumeCopyDone flume host s
  | .hstRateLimit f => Sys2Proof.Machine.execHstRateLimit f s
  | .bar2Write f off data => Sys2Proof.Machine.execBar2Write f off data s
  | .bar2Read f off len => Sys2Proof.Machine.execBar2Read f off len s
  | .logEnable f k value => Sys2Proof.Machine.execLogEnable f k value s
  | .logHeadWrite f k value => Sys2Proof.Machine.execLogHeadWrite f k value s
  | .functionLevelReset f => Sys2Proof.Machine.execFunctionLevelReset f s
  | .pf0Flr => Sys2Proof.Machine.execPf0Flr s
  | .hotReset => Sys2Proof.Machine.execHotReset s
  | .perstAssert => Sys2Proof.Machine.execPerstAssert s
  | .hstLinkDown => Sys2Proof.Machine.execHstLinkDown s
  | .hstCtlClr => Sys2Proof.Machine.execHstCtlClr s
  | .placementQueued p => Sys2Proof.Machine.execPlacementQueued p s
  | .heal p => Sys2Proof.Machine.execHeal p s
  | .stepSettle p => Sys2Proof.Machine.execStepSettle p s
  | .dryfitDigestRecord p => Sys2Proof.Machine.execDryfitDigestRecord p s
  | .dryfitCompare p => Sys2Proof.Machine.execDryfitCompare p s
  | .weirTimeout p wid => Sys2Proof.Machine.execWeirTimeout p wid s
  | .plumbSliceStart t => Sys2Proof.Machine.execPlumbSliceStart t s
  | .plumbForce t => Sys2Proof.Machine.execPlumbForce t s
  | .plumbSliceEnd t r => Sys2Proof.Machine.execPlumbSliceEnd t r s
  | .plumbLate t => Sys2Proof.Machine.execPlumbLate t s
  | .intensPlumbEnd t => Sys2Proof.Machine.execIntensPlumbEnd t s
  | .prtStepWrite f p value => Sys2Proof.Machine.execPrtStepWrite f p value s
  | .prtDetClr p => Sys2Proof.Machine.execPrtDetClr p s
  | .sightDigest p => Sys2Proof.Machine.execSightDigest p s
  | .sightDecide p => Sys2Proof.Machine.execSightDecide p s
  | .plnStepWrite p slot value => Sys2Proof.Machine.execPlnStepWrite p slot value s
  | .stepSizeStale p => Sys2Proof.Machine.execStepSizeStale p s
  | .layerCompute p layer => Sys2Proof.Machine.execLayerCompute p layer s
  | .layerComputeDone p layer mismatch => Sys2Proof.Machine.execLayerComputeDone p layer mismatch s
  | .plnCommitGrant p layer => Sys2Proof.Machine.execPlnCommitGrant p layer s
  | .plnDiscardOrder p layer => Sys2Proof.Machine.execPlnDiscardOrder p layer s
  | .plnCopyDone p layer => Sys2Proof.Machine.execPlnCopyDone p layer s
  | .layerFreeze p => Sys2Proof.Machine.execLayerFreeze p s
  | .layerUnfreeze p => Sys2Proof.Machine.execLayerUnfreeze p s
  | .layerSetupd p upd => Sys2Proof.Machine.execLayerSetupd p upd s
  | .prtPlnClr p => Sys2Proof.Machine.execPrtPlnClr p s
  | .plnEctlClr e => Sys2Proof.Machine.execPlnEctlClr e s
  | .scrubRead st => Sys2Proof.Machine.execScrubRead st s
  | .hbmScrubnow st => Sys2Proof.Machine.execHbmScrubnow st s
  | .hbmCtlClr st => Sys2Proof.Machine.execHbmCtlClr st s
  | .prtHbmClr p => Sys2Proof.Machine.execPrtHbmClr p s
  | .jnrLockstep pair => Sys2Proof.Machine.execJnrLockstep pair s
  | .jnrSend pair value payload => Sys2Proof.Machine.execJnrSend pair value payload s
  | .sluiceMessage ep basin idx => Sys2Proof.Machine.execSluiceMessage ep basin idx s
  | .sluiceCredit ep basin => Sys2Proof.Machine.execSluiceCredit ep basin s
  | .jnrRecv pair n => Sys2Proof.Machine.execJnrRecv pair n s
  | .jnrRel pair n => Sys2Proof.Machine.execJnrRel pair n s
  | .jnrBasinBind pair n value => Sys2Proof.Machine.execJnrBasinBind pair n value s
  | .sluiceStall ep => Sys2Proof.Machine.execSluiceStall ep s
  | .jnrStrclr value => Sys2Proof.Machine.execJnrStrclr value s
  | .coldStart => Sys2Proof.Machine.execColdStart s
  | .rimSegPowerStep n good => Sys2Proof.Machine.execRimSegPowerStep n good s
  | .bayPowerStep b good => Sys2Proof.Machine.execBayPowerStep b good s
  | .rootPllLock refPresent syncTrimmed trim => Sys2Proof.Machine.execRootPllLock refPresent syncTrimmed trim s
  | .rippleLock unlocked => Sys2Proof.Machine.execRippleLock unlocked s
  | .fuseRead checkGood => Sys2Proof.Machine.execFuseRead checkGood s
  | .bootRom romGood failedPairs => Sys2Proof.Machine.execBootRom romGood failedPairs s
  | .bootFetch host => Sys2Proof.Machine.execBootFetch host s
  | .imageVerify => Sys2Proof.Machine.execImageVerify s
  | .hbmTraining untrained => Sys2Proof.Machine.execHbmTraining untrained s
  | .baySelfTest failedTiles failedRouters failedLinks badParts => Sys2Proof.Machine.execBaySelfTest failedTiles failedRouters failedLinks badParts s
  | .routeBuild tablesGood => Sys2Proof.Machine.execRouteBuild tablesGood s
  | .gradingAndMap => Sys2Proof.Machine.execGradingAndMap s
  | .linkTraining found => Sys2Proof.Machine.execLinkTraining found s
  | .bootReady => Sys2Proof.Machine.execBootReady s
  | .bootLive host => Sys2Proof.Machine.execBootLive host s
  | .liveClusterReplace c => Sys2Proof.Machine.execLiveClusterReplace c s
  | .liveReplaceStop => Sys2Proof.Machine.execLiveReplaceStop s
  | .sillReload => Sys2Proof.Machine.execSillReload s
  | .feedFault => Sys2Proof.Machine.execFeedFault s
  | .pwrBayFuse b cause => Sys2Proof.Machine.execPwrBayFuse b cause s
  | .rimSegLost n => Sys2Proof.Machine.execRimSegLost n s
  | .surgeStepdown draw => Sys2Proof.Machine.execSurgeStepdown draw s
  | .stepdownStep draw => Sys2Proof.Machine.execStepdownStep draw s
  | .stepdownRelease draw => Sys2Proof.Machine.execStepdownRelease draw s
  | .surgeWearEval b => Sys2Proof.Machine.execSurgeWearEval b s
  | .surgeHourEnd b => Sys2Proof.Machine.execSurgeHourEnd b s
  | .thermSample u readings => Sys2Proof.Machine.execThermSample u readings s
  | .thermBrake b => Sys2Proof.Machine.execThermBrake b s
  | .thermRelease b => Sys2Proof.Machine.execThermRelease b s
  | .thermTrip u => Sys2Proof.Machine.execThermTrip u s
  | .marginRecord b => Sys2Proof.Machine.execMarginRecord b s
  | .haltN => Sys2Proof.Machine.execHaltN s
  | .pwrResume => Sys2Proof.Machine.execPwrResume s
  | .pwrSurgeWrite value => Sys2Proof.Machine.execPwrSurgeWrite value s
  | .pwrCtlClr => Sys2Proof.Machine.execPwrCtlClr s
  | .silPwrctlClr b => Sys2Proof.Machine.execSilPwrctlClr b s
  | .refHoldover => Sys2Proof.Machine.execRefHoldover s
  | .refReturn => Sys2Proof.Machine.execRefReturn s
  | .rootPllUnlock => Sys2Proof.Machine.execRootPllUnlock s
  | .oscRetrim trim => Sys2Proof.Machine.execOscRetrim trim s
  | .rippleUnlock b => Sys2Proof.Machine.execRippleUnlock b s
  | .clkHdivWrite value => Sys2Proof.Machine.execClkHdivWrite value s
  | .clkDividerStep => Sys2Proof.Machine.execClkDividerStep s
  | .clkChangeDone => Sys2Proof.Machine.execClkChangeDone s
  | .clkCtlClr => Sys2Proof.Machine.execClkCtlClr s
  | .tideMeasure => Sys2Proof.Machine.execTideMeasure s
  | .syncInEdge highNs => Sys2Proof.Machine.execSyncInEdge highNs s
  | .syncLost => Sys2Proof.Machine.execSyncLost s
  | .tideSet value => Sys2Proof.Machine.execTideSet value s
  | .tideCfgWrite value => Sys2Proof.Machine.execTideCfgWrite value s
  | .tideSyncWrite value => Sys2Proof.Machine.execTideSyncWrite value s
  | .tideCtlClr => Sys2Proof.Machine.execTideCtlClr s
  | .stlMarginMeasure port readings => Sys2Proof.Machine.execStlMarginMeasure port readings s
  | .stlLaneSwap port rx passes => Sys2Proof.Machine.execStlLaneSwap port rx passes s
  | .stlDataFlit port f => Sys2Proof.Machine.execStlDataFlit port f s
  | .stlReplayTimeout port => Sys2Proof.Machine.execStlReplayTimeout port s
  | .stlIdleFlit port => Sys2Proof.Machine.execStlIdleFlit port s
  | .stlLinkWatchdog port => Sys2Proof.Machine.execStlLinkWatchdog port s
  | .stlOnoffExpire port => Sys2Proof.Machine.execStlOnoffExpire port s
  | .stlResyncFlit port vc free => Sys2Proof.Machine.execStlResyncFlit port vc free s
  | .stlResyncTimeout port => Sys2Proof.Machine.execStlResyncTimeout port s
  | .stlTrainingDone port found => Sys2Proof.Machine.execStlTrainingDone port found s
  | .stlPortDown port => Sys2Proof.Machine.execStlPortDown port s
  | .stlRetrainRetry port => Sys2Proof.Machine.execStlRetrainRetry port s
  | .stlRetrain port => Sys2Proof.Machine.execStlRetrain port s
  | .stlCtlClr port => Sys2Proof.Machine.execStlCtlClr port s
  | .stlPcfgWrite port value => Sys2Proof.Machine.execStlPcfgWrite port value s
  | .stlAddrWrite value => Sys2Proof.Machine.execStlAddrWrite value s
  | .stlTimeFlitSend port => Sys2Proof.Machine.execStlTimeFlitSend port s
  | .stlTimeFlit port t1 t2 t3 => Sys2Proof.Machine.execStlTimeFlit port t1 t2 t3 s
  | .stlTransit port h data => Sys2Proof.Machine.execStlTransit port h data s
  | .putGo p value => Sys2Proof.Machine.execPutGo p value s
  | .putChunk h data => Sys2Proof.Machine.execPutChunk h data s
  | .putResponse h => Sys2Proof.Machine.execPutResponse h s
  | .putBusyRetry p entry => Sys2Proof.Machine.execPutBusyRetry p entry s
  | .putTimeout p entry => Sys2Proof.Machine.execPutTimeout p entry s
  | .stlJoineryMessage h layer digest => Sys2Proof.Machine.execStlJoineryMessage h layer digest s
  | .attestGo i0 => Sys2Proof.Machine.execAttestGo i0 s
  | .keyTreesReady => Sys2Proof.Machine.execKeyTreesReady s
  | .attestSignDone => Sys2Proof.Machine.execAttestSignDone s
  | .grnRecord r => Sys2Proof.Machine.execGrnRecord r s
  | .grnRecordCommit abandoned => Sys2Proof.Machine.execGrnRecordCommit abandoned s
  | .grnWriteRetry => Sys2Proof.Machine.execGrnWriteRetry s
  | .grnSectorErase area good => Sys2Proof.Machine.execGrnSectorErase area good s
  | .grnRselFetch i0 value => Sys2Proof.Machine.execGrnRselFetch i0 value s
  | .grnRdataRead => Sys2Proof.Machine.execGrnRdataRead s
  | .grnCtlClr => Sys2Proof.Machine.execGrnCtlClr s
  | .i3cPrivateWrite bytes => Sys2Proof.Machine.execI3cPrivateWrite bytes s
  | .i3cPrivateRead n => Sys2Proof.Machine.execI3cPrivateRead n s
  | .i3cDynamicAddress a => Sys2Proof.Machine.execI3cDynamicAddress a s
  | .silTdataAccess b write => Sys2Proof.Machine.execSilTdataAccess b write s
  | .silRtdataAccess b write => Sys2Proof.Machine.execSilRtdataAccess b write s
  | .prtMapDataRead f p => Sys2Proof.Machine.execPrtMapDataRead f p s
  | .fltFdataRead second => Sys2Proof.Machine.execFltFdataRead second s
  | .jnrStrdataRead second => Sys2Proof.Machine.execJnrStrdataRead second s
  | .fltCtlClr => Sys2Proof.Machine.execFltCtlClr s
  | .registerWrite f off width value => Sys2Proof.Machine.execRegisterWrite f off width value s
  | .stlSwapFlit port lane spare => Sys2Proof.Machine.execStlSwapFlit port lane spare s
  | .perstDeassert => Sys2Proof.Machine.execPerstDeassert s
  | .haltNRelease => Sys2Proof.Machine.execHaltNRelease s
  | .pcieLinkUp => Sys2Proof.Machine.execPcieLinkUp s
  | .windowFillDone p fid => Sys2Proof.Machine.execWindowFillDone p fid s
  | .hbmSuspectWindowEnd st => Sys2Proof.Machine.execHbmSuspectWindowEnd st s

end Sys2Proof.Machine
end

