-- ==== Sys2Proof/Machine/Step.lean ====
section
/-!
DEFINITION. One step: the command at the front of the queue, or one cycle of the Tide clock when the queue is empty.
-/

namespace Sys2Proof.Machine

/-- Take the command at the front of `pending` and run it with the queue's rest; on an empty queue one cycle of the Tide
clock passes. (DESIGN CHOICE, log 1; DESIGN CHOICE, log 2) -/
def step (s : State) : Host.Outcome State Fault Refusal :=
  match s.pending with
  | [] => .next s.tick
  | i :: r => exec i { s with pending := r }

/-- The state with the command that a word spells in front of its queue: no word spells one. (DESIGN CHOICE, log 5) -/
def State.withFetchWord (s : State) (nbits w : Nat) : State :=
  match decodeTableWord nbits w with
  | none => s
  | some i => { s with pending := i :: s.pending }

end Sys2Proof.Machine
end

