-- ==== Sys2Proof/Safety.lean ====
section
/-!
DEFINITION. The terms of the claims: that a command completes, the canonical form of the sparse tables, what a command
leaves unchanged, and that an event has been raised.
-/

namespace Sys2Proof

/-- The command completes in the state. -/
def Completes (i : Instr) (s : Machine.State) : Prop := ∃ t, Machine.exec i s = .next t

/-- Every byte memory and the register file of the state is in its canonical form. -/
def Canonical (s : Machine.State) : Prop :=
  Tab.rising 0 s.regs = true ∧ Tab.wf (0 : Byte) s.comp.hbm = true ∧
    Tab.wf Machine.Part.reset s.comp.parts = true ∧ Tab.wf Machine.Bay.reset s.phys.bays = true

/-- The command by which tile `t` issues a micro-op. -/
def Uop.instr (t : PT) : Uop → Instr
  | .nop => .nop t
  | .loop lvl trip len unt uq utk => .loop t lvl trip len unt uq utk
  | .bsel q l0 l1 l2 l3 => .bsel t q l0 l1 l2 l3
  | .emit port tk val => .emit t port tk val
  | .weir wid => .weir t wid
  | .float act fid => .float t act fid
  | .endOp => .endOp t
  | .halt => .halt t
  | .mov dst src w => .mov t dst src w
  | .lds sel now len src => .lds t sel now len src
  | .seta a base stride => .seta t a base stride
  | .adda a imm => .adda t a imm
  | .tags a full count => .tags t a full count
  | .rget port dst w off => .rget t port dst w off
  | .dot fa fb xa xb sa sb acc clr wb wbd => .dot t fa fb xa xb sa sb acc clr wb wbd
  | .fma dst s1 s2 s3 => .fma t dst s1 s2 s3
  | .xadd dst s1 s2 => .xadd t dst s1 s2
  | .vop fn dst s1 s2 sel => .vop t fn dst s1 s2 sel
  | .cvt tf rm sat ixs src dst pk layer sf => .cvt t tf rm sat ixs src dst pk layer sf
  | .cvtb tf rm xs sf ixs as ad ak layer tag => .cvtb t tf rm xs sf ixs as ad ak layer tag
  | .rreg v reg => .rreg t v reg
  | .wreg v reg => .wreg t v reg

namespace Machine

/-! ### Frames: `t` is `s` but for one part of the state -/

/-- The registers at the addresses of `A` may differ, and nothing else. -/
def OnlyRegs (A : List Nat) (s t : State) : Prop := t = { s with regs := t.regs } ∧ ∀ a, a ∉ A → t.reg a = s.reg a

/-- Tile `x` may differ. -/
def OnlyTile (x : PT) (s t : State) : Prop :=
  t = { s with comp := { s.comp with tiles := t.comp.tiles } } ∧ ∀ u : PT, u.key ≠ x.key → t.tile u = s.tile u

/-- Router `r` may differ. -/
def OnlyRouter (r : PT) (s t : State) : Prop :=
  t = { s with comp := { s.comp with routers := t.comp.routers } } ∧ ∀ u : PT, u.key ≠ r.key → t.router u = s.router u

/-- Partition `p` may differ. -/
def OnlyPart (p : Nat) (s t : State) : Prop :=
  t = { s with comp := { s.comp with parts := t.comp.parts } } ∧ ∀ q, q ≠ p → t.part q = s.part q

/-- Bay `b` may differ. -/
def OnlyBay (b : Nat) (s t : State) : Prop :=
  t = { s with phys := { s.phys with bays := t.phys.bays } } ∧ ∀ c, c ≠ b → t.bay c = s.bay c

/-- Optical port `n` may differ. -/
def OnlyPort (n : Nat) (s t : State) : Prop :=
  t = { s with phys := { s.phys with stl := t.phys.stl } } ∧ ∀ m, m ≠ n → t.stlp m = s.stlp m

/-- Joiner pair `k` may differ. -/
def OnlyPair (k : Nat) (s t : State) : Prop :=
  t = { s with man := { s.man with pairs := t.man.pairs } } ∧ ∀ j, j ≠ k → t.pair j = s.pair j

/-- Basin `n` of endpoint `ep` may differ. -/
def OnlyBasin (ep n : Nat) (s t : State) : Prop :=
  t = { s with man := { s.man with basins := t.man.basins } } ∧
    ∀ e m, basinKey e m ≠ basinKey ep n → t.basin e m = s.basin e m

/-- HBM stack `k`'s state beside its bytes may differ. -/
def OnlyStack (k : Nat) (s t : State) : Prop :=
  t = { s with comp := { s.comp with stackTab := t.comp.stackTab } } ∧ ∀ j, j ≠ k → t.stack j = s.stack j

/-- The tiles have their registers, memories, queues and state as before. -/
def SameTiles (s t : State) : Prop := ∀ u : PT, t.tile u = s.tile u

/-- No packet waits to enter the fabric or the rim ring, and no router holds a flit. -/
def FabricEmpty (s : State) : Prop := s.comp.fresh = [] ∧ s.comp.ring = [] ∧ ∀ r i vc, s.waiting r i vc = []

/-! ### Events -/

/-- The registers that logging writes: the event log's TAIL and `HST_FUNCSTAT` of a function (R620, R626, R632). -/
def IsLogReg (a : Nat) : Prop := ∃ f, a = Reg.hstEvlogTail f ∨ a = Reg.hstFuncstat f

/-- Only the logs differ: their registers, what functions hold, what has left the module, and the records on their way to
the Grain log. -/
def LogFrame (s t : State) : Prop :=
  t = { s with regs := t.regs, out := t.out, host := { s.host with funcs := t.host.funcs },
               man := { s.man with grain := { s.man.grain with waiting := t.man.grain.waiting } } } ∧
    ∀ a, ¬ IsLogReg a → t.reg a = s.reg a

/-- The Grain record of an event (R21, R831). -/
def eventRecord (id : EventId) (part : Nat) (ops : List Nat) (tide : Word) : GrnRec :=
  { type := 0x0020, srck := 3, srci := 0, tide := tide,
    body := padTo 216 (eventBody { code := id.code, sev := id.sev, part := part, tide := tide, ops := ops }) }

/-- From `s` to `t` event `id` is raised: its record is on its way to the Grain log, the logs take it, and the action of
its severity follows (R20 to R22). -/
def Signals (id : EventId) (part : Nat) (ops : List Nat) (s t : State) : Prop :=
  ∃ u, LogFrame s u ∧ (∃ l, u.man.grain.waiting = s.man.grain.waiting ++ eventRecord id part ops s.tide :: l) ∧
    t = u.stopFor id.sev part

/-- Only bring-up's own state differs. -/
def OnlyBoot (s t : State) : Prop := t = { s with man := { s.man with boot := t.man.boot } }

/-- From `s` to `t` the module has had a warm reset (R578, R586, R631, R701, R785 to R788). -/
structure WarmReset (s t : State) : Prop where
  /-- Bring-up is at stage 5, without an image. -/
  boot : t.boot.stage = 5 ∧ t.boot.st = .running ∧ t.boot.image = none ∧ t.boot.perst = s.boot.perst
  code : t.field Reg.bootStage 63 48 = 0x0500
  /-- Every register that is not kept has its reset value. -/
  regs : ∀ a, warmKept a = false → a ≠ Reg.bootStage → a ≠ Reg.clkHdiv → t.reg a = regReset a
  /-- Every partition has ended; the hostings stay. -/
  parts : ∀ p, t.part p = Part.reset
  hosts : t.comp.hosts = s.comp.hosts
  /-- Every Joiner pair is reset and every endpoint with it; a stopped pair stays stopped. -/
  pairs : ∀ k, ∃ b, t.pair k = { Pair.reset with stopped := b } ∧ ((s.pair k).stopped = true → b = true)
  basins : t.man.basins = [] ∧ t.man.ports = []
  hbmStacks : ∀ k, (t.stack k).up = false
  /-- Both dividers are at 12. -/
  dividers : t.phys.clock.wcur = 12 ∧ t.phys.clock.ecur = 12
  /-- Every tile with supply is in RESET. -/
  tiles : ∀ x : PT, x.valid = true → (s.bay x.bay).supply = .on → (t.tile x).s.seq = .reset

/-- Stage `n` of bring-up is over and the next one runs (R767, R768). -/
def StageOver (n : Nat) (t : State) : Prop :=
  t.boot.stage = n + 1 ∧ t.boot.st = .running ∧ t.field Reg.bootStage 63 48 = 256 * (n + 1)

/-- Bring-up has stopped at a failed stage with a code, and BOOT_STAGE_FAIL is raised (R768, R770, R799). -/
def StageFails (code : Nat) (t : State) : Prop :=
  ∃ u, Signals Ev.bootStageFail 0 [code] u t ∧ u.boot.st = .failed ∧ u.field Reg.bootStage 63 48 = code ∧ u.field Reg.bootFail 63 48 = code

/-- The image is rejected with a code, and IMAGE_REJECT is raised (R768, R779, R799). -/
def ImageRejected (code : Nat) (t : State) : Prop :=
  ∃ u, Signals Ev.imageReject 0 [code] u t ∧ u.boot.st = .failed ∧ u.boot.rejected = true ∧ u.field Reg.bootStage 63 48 = code ∧
    u.field Reg.bootFail 63 48 = code

/-! ### Exact sums -/

/-- Additions of exact-sum words in some grouping. -/
inductive SumTree where
  | word (w : Quad)
  | add (a b : SumTree)
deriving DecidableEq, Repr

/-- The words summed. -/
def SumTree.words : SumTree → List Quad
  | .word w => [w]
  | .add a b => a.words ++ b.words

/-- The sum in the grouping of the tree. -/
def SumTree.sum : SumTree → Quad
  | .word w => w
  | .add a b => xsAdd a.sum b.sum

/-- A finite word (R74). -/
def FiniteWord (w : Quad) : Prop := xsWin w < 0xF0

/-- Every word and every sum on the way is finite: none is range exceeded (R78, R80). -/
def SumTree.Exact : SumTree → Prop
  | .word w => FiniteWord w
  | .add a b => a.Exact ∧ b.Exact ∧ FiniteWord (xsAdd a.sum b.sum)

/-! ### Micro-ops -/

/-- Tile `t` is in RUN on clocks that run, neither a write nor an end-of-iteration check waits, and the word at its PC is micro-op
`u`; `x` is the tile once the word has been read, which may have corrected it (R105, R125, R127, R157). -/
def Fetches (s : State) (t : PT) (u : Uop) (x : Tile) : Prop :=
  (s.tile t).s.seq = .run ∧ s.runs (s.ptPart t) = true ∧ (s.tile t).s.done = none ∧ (s.tile t).s.check = none ∧ (s.tile t).s.pc.toNat < 512 ∧
    ∃ d, (s.tile t).load (0xC000 + 8 * (s.tile t).s.pc.toNat) 8 = .ok (d, x) ∧ decodeUop (BitVec.ofNat 64 (ofLe d)) = some u

/-! ### Packets -/

/-- A packet on its way to tile `t` arrives there: its router is not dark, its clock runs, it is not in PLUMB, and the packet
has the tile's epoch (R298, R518). -/
def Arrives (s : State) (t : PT) (p : Packet) : Prop :=
  p.dst = .tile t ∧ (s.tile t).s.seq ≠ .plumb ∧ s.reaches t = true ∧ s.epochOk t p = true

/-- Only the packets on their way differ, and which of them the fabric has yet to take. -/
def OnlyNet (s t : State) : Prop := t = { s with comp := { s.comp with net := t.comp.net, fresh := t.comp.fresh } }

/-- Only tile `x` and the packets on their way differ. -/
def OnlyTileNet (x : PT) (s t : State) : Prop :=
  OnlyTile x { s with comp := { s.comp with net := t.comp.net, fresh := t.comp.fresh } } t

/-- Only router `r` and what has left the module differ. -/
def OnlyRouterOut (r : PT) (s t : State) : Prop := OnlyRouter r { s with out := t.out } t

/-- The command by which a remote request is served. -/
def requestInstr (p : Packet) : Option Instr :=
  if p.op = opWrRaw then some (.wrRaw p)
  else if p.op = opWrTag then some (.wrTag p)
  else if p.op = opRdRaw then some (.rdRaw p)
  else if p.op = opRdTag then some (.rdTag p)
  else if p.op = opRdKeep then some (.rdKeep p)
  else none

/-- The tile keeps its registers, its memories, their tags and its configuration. -/
def SameData (x y : Tile) : Prop :=
  y.r.v = x.r.v ∧ y.r.a = x.r.a ∧ y.r.k0 = x.r.k0 ∧ y.r.k1 = x.r.k1 ∧ y.r.ports = x.r.ports ∧ y.r.srix0 = x.r.srix0 ∧
    y.r.srix1 = x.r.srix1 ∧ y.mem = x.mem ∧ y.amTag = x.amTag ∧ y.pmTag = x.pmTag ∧ y.c = x.c

end Machine

end Sys2Proof
end

