-- ==== Sys2Proof/Certificates/Slice0/Obligations.lean ====
section
/-!
DEFINITION. The claims about the model, for the provers.
-/

open Sys2Proof Sys2Proof.Machine

/-- A step answers what exec answers for the command in front, on the rest of the queue; with an empty queue it is one
Tide cycle. For every command c, queue rest r and state s, a step of s with c in front of r is exec of c on s with the
queue r. With nothing waiting, a step is one cycle of Tide and of the fabric. Where no packet and no flit is in the
fabric, the state after it differs only in Tide and in the part of a cycle that steering has gathered, and Tide grows
by 0, 1 or 2 (or stays at its highest value); without a locked root PLL nothing changes then. The queue, and what an
idle step is, are the model's own (log entries 1 and 2). (R705, R706, 95_what_each_step_holds.md, 00_scope.md) -/
def Obligations.StepRunsFrontCommand : Prop :=
  (∀ (c : Instr) (r : List Instr) (s : State), step { s with pending := c :: r } = exec c { s with pending := r }) ∧
  (∀ s : State, s.pending = [] → step s = .next (s.tideTick.fabricTick)) ∧
  (∀ s : State, s.pending = [] → FabricEmpty s →
    ∃ t, step s = .next t ∧
      t = { s with tide := t.tide, phys := { s.phys with time := { s.phys.time with acc := t.phys.time.acc } } } ∧
      s.now ≤ t.now ∧ t.now ≤ s.now + 2 ∧
      (s.phys.clock.rootLock = true → s.phys.time.acc = 0 → s.phys.time.slew = 0 → s.now < 2 ^ 64 - 1 → t.now = s.now + 1) ∧
      (s.phys.clock.rootLock = false → t = s))

/-- For every state and every n, n steps run the first n waiting commands, lose none, repeat none, and never stop. From
every state whose queue holds at least n commands, n steps answer a next state whose queue is the old queue without
its first n commands. So no command stops the block with a fault or a refusal, and none adds, drops or reorders
commands that wait. The queue is the model's own (log entry 1). (95_what_each_step_holds.md, 00_scope.md) -/
def Obligations.QueueRunsInOrderAndNeverStops : Prop :=
  ∀ (n : Nat) (s : State), n ≤ s.pending.length →
    ∃ t, Host.Core.run core n s = .next t ∧ t.pending = s.pending.drop n

/-- Right after reset the queue is empty, the feed and every supply is off, every tile is OFF, every register reads its
reset value. In State.reset nothing waits, nothing has left the module, Tide is 0, the feed is off and no rim segment,
bay array or sill is supplied, every tile is OFF with empty tags, every stored register has the Reset column's value,
and every byte memory is in its canonical form. The values that the spec does not give are the model's (log entries 6
and 7). (R16, R45, R151, R719, 00_scope.md) -/
def Obligations.ResetIsUnpoweredAndEmpty : Prop :=
  State.reset.pending = [] ∧ State.reset.out = [] ∧ State.reset.now = 0 ∧ State.reset.phys.power.feed = false ∧
    State.reset.phys.power.segs = 0 ∧
    (∀ b, (State.reset.bay b).supply = .off ∧ (State.reset.bay b).sill = false) ∧
    (∀ t : PT, (State.reset.tile t).s.seq = .off ∧ (State.reset.tile t).amTag = 0 ∧ (State.reset.tile t).pmTag = 0) ∧
    (∀ a, State.reset.reg a = regReset a) ∧ Canonical State.reset

/-- A counter field saturates at all ones, keeps that value, and leaves every other field and register. Counting n in a
field adds n and stops at all ones; a saturated field keeps its value until it is cleared; other fields of the
register and all other registers are as before. Every count of the model whose map does not say that it wraps goes
through this operation. (R17) -/
def Obligations.CountersSaturate : Prop :=
  ∀ (s : State) (a hi lo n : Nat), lo ≤ hi → hi < 64 →
    (s.bump a hi lo n).field a hi lo = min (s.field a hi lo + n) (2 ^ (hi + 1 - lo) - 1) ∧
    (s.field a hi lo = 2 ^ (hi + 1 - lo) - 1 → (s.bump a hi lo n).field a hi lo = s.field a hi lo) ∧
    (∀ h l, l ≤ h → h < 64 → h < lo ∨ hi < l → (s.bump a hi lo n).field a h l = s.field a h l) ∧
    OnlyRegs [a] s (s.bump a hi lo n)

/-- A register write acts by its width through the staging value; RW fields are stored, W1C bits cleared, RO, reserved and
unassigned ones left. A 64-bit write of a register at its aligned offset writes it whole and sets its staging value; a
32-bit write of the low half changes the staging value and nothing else; a 32-bit write of the high half writes the
register with that half and the staging value; a write of another width or off its alignment changes nothing. A 64-bit
write by PF0 of BOOT_IMGADDR, TIDE_PARENT, or STL_ASYM of port 3 stores the bits of its RW fields and leaves its
reserved bits zero; a write of TIDE_STAT clears bit 60 where it writes 1 and leaves the rest; a write of TIDE_SLEW
(RO) or of the unassigned offset 0x3F000 changes no register. A write of SIL_TDATA or SIL_RTDATA by PF0 is the bay's
window access, and FETCH of BOOT_CTL, where a fetch may begin, is asked for. Every other register, and all of the
state but that register and its staging value, is as before. (R8, R11, R12, R13, R14, R15, R678, R717, R799) -/
def Obligations.RegisterWritesByWidthAndAccessCode : Prop :=
  (
    (∀ (f off a : Nat) (v : Word) (s : State), off % 8 = 0 → busTarget f off = .reg a →
      (∃ t, exec (.registerWrite f off 64 v) s = .next t ∧ t = (s.setStage a (v.extractLsb' 0 32)).writeReg f a v) ∧
      (∃ t, exec (.registerWrite f off 32 v) s = .next t ∧ t = { s with stage := t.stage } ∧
        Tab.get 0 t.stage a = v.extractLsb' 0 32 ∧ ∀ c, c ≠ a → Tab.get 0 t.stage c = Tab.get 0 s.stage c) ∧
      (∃ t, exec (.registerWrite f (off + 4) 32 v) s = .next t ∧
        t = s.writeReg f a ((v.extractLsb' 0 32).setWidth 64 <<< 32 ||| (Tab.get 0 s.stage a).setWidth 64))) ∧
    (∀ (f off width : Nat) (v : Word) (s : State),
      (width ≠ 64 → width ≠ 32 → exec (.registerWrite f off width v) s = .next s) ∧
      (off % 8 ≠ 0 → exec (.registerWrite f off 64 v) s = .next s) ∧
      (off % 4 ≠ 0 → exec (.registerWrite f off 32 v) s = .next s))) ∧
  (
    (∀ (s : State) (v : Word), ∀ am ∈ [(Reg.bootImgaddr, (0xFFFFFFFFFFFFF000 : Word)), (Reg.tideParent, 0xFFFFFFFF), (Reg.stlAsym 3, 0xFFFFFFFF)],
      s.reg am.1 &&& ~~~am.2 = 0 →
      ∃ t, exec (.registerWrite 0 am.1 64 v) s = .next t ∧ t.reg am.1 = v &&& am.2 ∧
        OnlyRegs [am.1] { s with stage := t.stage } t) ∧
    (∀ (s : State) (v : Word),
      ∃ t, exec (.registerWrite 0 Reg.tideStat 64 v) s = .next t ∧
        (∀ i, i < 64 → (t.reg Reg.tideStat).getLsbD i =
          if i = 60 then (s.reg Reg.tideStat).getLsbD 60 && !v.getLsbD 60 else (s.reg Reg.tideStat).getLsbD i) ∧
        OnlyRegs [Reg.tideStat] { s with stage := t.stage } t) ∧
    (∀ (s : State) (v : Word), ∀ a ∈ [Reg.tideSlew, 0x3F000],
      ∃ t, exec (.registerWrite 0 a 64 v) s = .next t ∧ t = { s with stage := t.stage }) ∧
    (∀ (s : State) (b : Nat) (v : Word), b < 84 →
      exec (.registerWrite 0 (Reg.silTdata b) 64 v) s = exec (.silTdataAccess b (some v)) (s.setStage (Reg.silTdata b) (v.extractLsb' 0 32)) ∧
      exec (.registerWrite 0 (Reg.silRtdata b) 64 v) s = exec (.silRtdataAccess b (some v)) (s.setStage (Reg.silRtdata b) (v.extractLsb' 0 32))) ∧
    (∀ (s : State) (v : Word), s.mayFetch = true →
      ∃ t, exec (.registerWrite 0 Reg.bootCtl 64 v) s = .next t ∧ t.boot.asked.getLsbD 0 = (s.boot.asked.getLsbD 0 || v.getLsbD 0) ∧
        t = { s with stage := t.stage, man := { s.man with boot := { s.boot with asked := t.boot.asked } } }))

/-- Decoding the word of every legal micro-op gives that micro-op back, with every operand. For each of the 22 micro-ops
and every value of its fields that is not reserved, the decoder of a tile's sequencer reads the word that the encoding
of R131 gives it as that micro-op. So no bit of an encoding is dropped and no two legal micro-ops share a word. (R127,
R128, R129, R131) -/
def Obligations.MicroOpWordsRoundTrip : Prop :=
  ∀ u : Uop, u.wf = true → decodeUop (encodeUop u) = some u

/-- A fetched micro-op is carried out, or stops in BLOCKED with its cause or in FAULT when illegal; one that its tile does
not fetch changes nothing. For each of the 22 micro-ops: where a running tile fetches the micro-op, its command
answers the next state that the micro-op's effect gives, or, where the effect must wait, is illegal, meets an
uncorrectable word or a flush token, the state of that stop. A micro-op's command at a tile that is not in RUN, or
whose clocks or partition have stopped, changes nothing. A wait leaves the tile in BLOCKED with BLK and BLKARG naming
what it waits for; a wait for tags takes its place among the waiters of its slots, behind the requests parked there,
and keeps it when it waits again; a destination without a scarf entry also raises SCARF_MISS with the tile and the
destination. An illegal micro-op takes it to FAULT with its FCAUSE and raises TILE_ILLEGAL. In all, PC, the vector and
address registers, the scale registers, ports, memories and tags are as before, and every other tile is. (R105, R119,
R127, R151, R154, R160, R295) -/
def Obligations.MicroOpsRunOrStop : Prop :=
  (
    (∀ (s : State) (t : PT) (u : Uop) (x : Tile), Fetches s t u x →
      ∃ n, exec (u.instr t) s = .next n ∧
        (∀ r, uopBody t u (s.setTile t x) = .ok r → n = r.ceHigh t (s.tile t)) ∧
        (∀ e, uopBody t u (s.setTile t x) = .error e → n = ((s.setTile t x).stopUop t e).ceHigh t (s.tile t))) ∧
    (∀ (s : State) (t : PT) (u : Uop), (s.tile t).s.seq ≠ .run ∨ s.runs (s.ptPart t) = false → exec (u.instr t) s = .next s)) ∧
  (
    ∀ (s : State) (t : PT),
      (∀ blk arg, let n := s.stopUop t (.block blk arg)
        (n.tile t).s.seq = .blocked ∧ (n.tile t).s.blk = blk ∧ (n.tile t).s.blkarg = arg ∧
        (n.tile t).s.pc = (s.tile t).s.pc ∧ SameData (s.tile t) (n.tile t) ∧ (n.tile t).queues = (s.tile t).queues ∧ OnlyTile t s n) ∧
      (∀ blk an slots, let n := s.stopUop t (.tags blk an slots)
        (n.tile t).s.seq = .blocked ∧ (n.tile t).s.blk = blk ∧ (n.tile t).s.blkarg = an ∧ (n.tile t).s.pc = (s.tile t).s.pc ∧
        SameData (s.tile t) (n.tile t) ∧ (n.tile t).queues = (s.tile t).queues ∧ OnlyTile t s n ∧
        ((s.tile t).q.waiting = none → (n.tile t).q.waiting = some { slots := slots, full := decide (blk = 2), ahead := (s.tile t).q.parked.length }) ∧
        (∀ w, (s.tile t).q.waiting = some w → w.slots = slots → w.full = decide (blk = 2) → (n.tile t).q.waiting = some w)) ∧
      (∀ l blk arg, let n := s.stopUop t (.scarf l blk arg)
        (n.tile t).s.seq = .blocked ∧ (n.tile t).s.blk = blk ∧ (n.tile t).s.blkarg = arg ∧ (n.tile t).s.pc = (s.tile t).s.pc ∧
        SameData (s.tile t) (n.tile t) ∧ (n.tile t).queues = (s.tile t).queues ∧ (∀ v : PT, v.key ≠ t.key → n.tile v = s.tile v) ∧
        ∃ u, OnlyTile t s u ∧ Signals Ev.scarfMiss (s.ptPart t) [t.bay, t.col, t.row, l.x, l.y] u n) ∧
      (∀ c, let n := s.stopUop t (.illegal c)
        (n.tile t).s.seq = .fault ∧ (n.tile t).s.fcause = c ∧ (n.tile t).s.pc = (s.tile t).s.pc ∧
        SameData (s.tile t) (n.tile t) ∧ (∀ v : PT, v.key ≠ t.key → n.tile v = s.tile v) ∧
        ∃ u, OnlyTile t s u ∧
          Signals Ev.tileIllegal (s.ptPart t) (tileOps (s.hosted t) t ++ [(s.tile t).s.pc.toNat, c]) u n))

/-- A retiring micro-op advances PC, the progress counter and both signatures; a counted loop repeats its body, then ends.
With no loop active, a retirement leaves the tile in RUN at the next index with progress one higher, nothing blocked,
and both signatures stepped by the same word. At the last index of a counted loop with trips left it goes back to the
loop's first index with one trip fewer; with one trip left it goes on after the loop, which ends. Registers, memories
and tags stay, and every other tile and all else do. (R132, R133, R134, R136, R151, R182, R507) -/
def Obligations.MicroOpRetirement : Prop :=
  (∀ (s : State) (t : PT) (op next kind : Nat),
    (s.tile t).r.loops = [] → (s.tile t).s.seq = .run →
    let n := s.retire t op next kind
    (n.tile t).s.pc = BitVec.ofNat 10 next ∧ (n.tile t).s.seq = .run ∧ (n.tile t).s.blk = 0 ∧
    (n.tile t).s.progress = (s.tile t).s.progress + 1 ∧
    (n.tile t).s.sigSeq = sigStep (s.tile t).s.sigSeq ((s.tile t).s.pc.toNat % 512 + 512 * op + 2 ^ 15 * kind) ∧
    (n.tile t).s.sigChk = sigStep (s.tile t).s.sigChk ((s.tile t).s.pc.toNat % 512 + 512 * op + 2 ^ 15 * kind) ∧
    (n.tile t).r.loops = [] ∧ SameData (s.tile t) (n.tile t) ∧ OnlyTile t s n) ∧
  (∀ (s : State) (t : PT) (op next kind : Nat) (l : LoopReg),
    (s.tile t).r.loops = [l] → (s.tile t).s.seq = .run → l.lvl < 4 → l.unt = false → l.last < next →
    let n := s.retire t op next kind
    (n.tile t).s.seq = .run ∧ SameData (s.tile t) (n.tile t) ∧ OnlyTile t s n ∧
    (1 < l.cnt → (n.tile t).s.pc = BitVec.ofNat 10 l.first ∧ (n.tile t).r.loops = [{ l with cnt := l.cnt - 1 }]) ∧
    (l.cnt ≤ 1 → (n.tile t).s.pc = BitVec.ofNat 10 next ∧ (n.tile t).r.loops = []))

/-- NOP, LOOP, BSEL, END and HALT complete with the sequencing effects the spec gives them. Where fetched: NOP retires to
the next index. LOOP, with its body inside IM and inside an active loop of a lower level if there is one, starts the
loop with its trips (0 stands for 2^24) and retires into its body. BSEL, where a look at its queue finds an end-of-
iteration token of choice v at the head, pops it and goes to alternative v, or past all of them when that one is
empty. END ends the invocation: IDLE, no loop active. HALT retires and halts with its invocation kept. (R131, R132,
R134, R135, R136, R149, R151) -/
def Obligations.ControlMicroOpsComplete : Prop :=
  ∀ (s : State) (t : PT) (x : Tile),
    (Fetches s t .nop x → exec (.nop t) s = .next (((s.setTile t x).next t 0x00).ceHigh t (s.tile t))) ∧
    (∀ lvl trip len unt uq utk, Fetches s t (.loop lvl trip len unt uq utk) x → (s.tile t).s.pc.toNat + len.toNat ≤ 511 → len.toNat ≠ 0 →
      (∀ o, (x.r.loops.find? fun l => decide (l.lvl < 4)) = some o → o.lvl < lvl.toNat ∧ (s.tile t).s.pc.toNat + len.toNat ≤ o.last) →
      let lp : LoopReg := { lvl := lvl.toNat, cnt := if trip.toNat = 0 then 2 ^ 24 else trip.toNat, first := (s.tile t).s.pc.toNat + 1, last := (s.tile t).s.pc.toNat + len.toNat, unt := unt, uq := uq.toNat, utk := utk.toNat }
      ∃ n, exec (.loop t lvl trip len unt uq utk) s = .next n ∧ (n.tile t).r.loops = lp :: x.r.loops ∧
        (n.tile t).s.pc = (s.tile t).s.pc + 1 ∧ (n.tile t).s.seq = .run) ∧
    (∀ q l0 l1 l2 l3 e y, Fetches s t (.bsel q l0 l1 l2 l3) x → x.look q.toNat 0 1 = .ok ([e], y) → e.tok = true → e.kind = 3 →
      e.val < 4 → x.s.pc.toNat + 1 + l0.toNat + l1.toNat + l2.toNat + l3.toNat ≤ 512 →
      ∃ n, exec (.bsel t q l0 l1 l2 l3) s = .next n ∧
        let lens := [l0.toNat, l1.toNat, l2.toNat, l3.toNat]
        let stop := x.s.pc.toNat + 1 + lens.foldl (· + ·) 0
        let start := x.s.pc.toNat + 1 + (lens.take e.val).foldl (· + ·) 0
        let s1 := ((s.setTile t x).setTile t y).popQ t q.toNat
        let alt : LoopReg := { lvl := 4, cnt := stop, first := start, last := start + lens.getD e.val 0 - 1, unt := false, uq := 0, utk := 0 }
        n = (if lens.getD e.val 0 = 0 then s1.retire t 0x02 stop 3
          else (s1.modTile t fun y => { y with r := { y.r with loops := alt :: y.r.loops } }).retire t 0x02 start 3).ceHigh t (s.tile t)) ∧
    (Fetches s t .endOp x →
      ∃ n, exec (.endOp t) s = .next n ∧ (n.tile t).s.seq = .idle ∧ (n.tile t).s.inv = false ∧ (n.tile t).r.loops = [] ∧
        (n.tile t).s.progress = x.s.progress + 1 ∧ (n.tile t).mem = x.mem ∧ (n.tile t).r.v = x.r.v ∧
        ∀ v : PT, v.key ≠ t.key → n.tile v = s.tile v) ∧
    (Fetches s t .halt x → x.r.loops = [] → x.s.seq = .run →
      ∃ n, exec (.halt t) s = .next n ∧ (n.tile t).s.seq = .halted ∧ (n.tile t).s.inv = true ∧
        (n.tile t).s.pc = BitVec.ofNat 10 (x.s.pc.toNat + 1) ∧ (n.tile t).mem = x.mem ∧
        ∀ v : PT, v.key ≠ t.key → n.tile v = s.tile v)

/-- Two finite exact-sum words add exactly in the finer window; a sum that leaves the significand is range exceeded. For
finite words A and B, with I the lower window index and S the exact sum in units of I: when S lies in −2^119 to 2^119
− 1 the sum is the finite word of index I and significand S, and otherwise it is range exceeded. (R78) -/
def Obligations.ExactSumAdds : Prop :=
  ∀ a b : Quad, FiniteWord a → FiniteWord b →
    let i := min (xsWin a) (xsWin b)
    let s := xsSig a * 2 ^ (4 * (xsWin a - i)) + xsSig b * 2 ^ (4 * (xsWin b - i))
    (-(2 ^ 119) ≤ s ∧ s < 2 ^ 119 → xsWin (xsAdd a b) = i ∧ xsSig (xsAdd a b) = s) ∧
    (s < -(2 ^ 119) ∨ 2 ^ 119 ≤ s → xsNum (xsAdd a b) = .range)

/-- A sum with a special word is NaN, then the infinity, then range exceeded, in that precedence, in either order. NaN if
either word is NaN or they are +Inf and −Inf; else the infinity if either is one; else range exceeded if either is.
The sum of two words does not depend on their order. (R79) -/
def Obligations.SpecialSumsFollowPrecedence : Prop :=
  ∀ a b : Quad,
    (xsNum a = .nan ∨ xsNum b = .nan → xsNum (xsAdd a b) = .nan) ∧
    (∀ n, xsNum a = .inf n → xsNum b = .inf (!n) → xsNum (xsAdd a b) = .nan) ∧
    (∀ n, xsNum a = .inf n → xsNum b ≠ .nan → xsNum b ≠ .inf (!n) → xsNum (xsAdd a b) = .inf n) ∧
    (xsNum a = .range → xsNum b = .range ∨ FiniteWord b → xsNum (xsAdd a b) = .range) ∧
    xsAdd a b = xsAdd b a

/-- Where no sum is range exceeded, the final word depends only on the words summed, not on their order or grouping. Two
groupings of additions of the same words, in any order, in which no word or sum on the way is range exceeded, give the
same word. Its window index is the minimum over the words, and its significand their exact total in that window. (R80) -/
def Obligations.ExactSumsIgnoreOrderAndGrouping : Prop :=
  ∀ a : SumTree, a.Exact →
    (∀ b : SumTree, b.Exact → b.words.Perm a.words → b.sum = a.sum) ∧
    (∀ w ∈ a.words, xsWin a.sum ≤ xsWin w) ∧ (∃ w ∈ a.words, xsWin w = xsWin a.sum) ∧
    xsSig a.sum = (a.words.map fun w => xsSig w * 2 ^ (4 * (xsWin w - xsWin a.sum))).sum

/-- A source operand reads the vector group, the bytes or registers at the address register, the oldest queue entries, or
zeros. Every word that is read lies under the code: an uncorrectable one stops the read, and a corrected one is
written back. Kind 0 reads the low bytes of the group. Kind 1 reads the bytes at An.CUR, or whole tile registers
there; POST adds STRIDE; a tagged read waits (BLK 2) while a slot lacks the full tag or an earlier waiter could
proceed, then empties its slots where it reaches them, unless KEEP. Kind 2 looks at the oldest entries, up to the
first token: it takes data entries and pops them unless PEEK, waits (BLK 1) for too few, finds a flush behind those
before it, and is illegal at another token. Kind 3 reads zeros. Nothing else of the tile changes. (R106, R115, R117,
R119, R128, R129, R156, R174, R180) -/
def Obligations.SourceOperands : Prop :=
  ∀ (s : State) (t : PT) (o : Ops) (n : Nat), let an := opsNum o 8
    let a := (s.tile t).areg an
    let post (x : Tile) : Tile := if o.getLsbD 3 then x.setCur an (a.cur + a.stride) else x
    (opsKind o = 3 → s.readOp t o n = .ok (List.replicate n 0, s)) ∧
    (opsKind o = 0 →
      (∀ x, (s.tile t).need (vWords (opsNum o 32) ((n + 15) / 16)).contains = .ok x →
        s.readOp t o n = .ok (((s.tile t).regs (opsNum o 32) ((n + 15) / 16)).take n, s.setTile t x)) ∧
      (∀ e, (s.tile t).need (vWords (opsNum o 32) ((n + 15) / 16)).contains = .error e → s.readOp t o n = .error e)) ∧
    (opsKind o = 1 → ∀ y, (s.tile t).need (fun w => decide (w = aWord an)) = .ok y →
      (o.getLsbD 4 = false → accessible a.cur.toNat n = true → a.cur.toNat < 0xF000 → ∀ d x, y.load a.cur.toNat n = .ok (d, x) →
        s.readOp t o n = .ok (d, (s.setTile t y).setTile t (post x))) ∧
      (o.getLsbD 4 = false → accessible a.cur.toNat n = true → 0xF000 ≤ a.cur.toNat → a.cur.toNat % 8 = 0 → n % 8 = 0 →
        ∀ x, (y.need fun w => (List.range (n / 8)).any fun i => regWords (a.cur.toNat - 0xF000 + 8 * i) w) = .ok x →
          s.readOp t o n = .ok ((List.range (n / 8)).flatMap fun i => leBytes 8 (readTileReg t (s.hosted t) x (a.cur.toNat - 0xF000 + 8 * i)).toNat,
            (s.setTile t y).setTile t (post x))) ∧
      (o.getLsbD 4 = false → accessible a.cur.toNat n = false → s.readOp t o n = .error (.illegal 3)) ∧
      (o.getLsbD 4 = true → tagSlots a.cur.toNat n = none → s.readOp t o n = .error (.illegal 3)) ∧
      (o.getLsbD 4 = true → ∀ sl, tagSlots a.cur.toNat n = some sl →
        (y.mustWaitLocal sl true = true → s.readOp t o n = .error (.tags 2 an sl)) ∧
        (y.mustWaitLocal sl true = false → ∀ d x, y.load a.cur.toNat n = .ok (d, x) →
          s.readOp t o n = .ok (d, (s.setTile t y).setTile t
            (post (if o.getLsbD 5 = false ∧ tagReaches a.cur.toNat n = true then x.setTags sl false else x)))) ∧
        ((s.tile t).ready sl true = false → y.mustWaitLocal sl true = true) ∧
        ((s.tile t).ready sl true = true → (s.tile t).q.parked = [] → (s.tile t).q.held = [] → y.mustWaitLocal sl true = false))) ∧
    (opsKind o = 2 → let q := opsNum o 8
      let k := (n + 15) / 16
      let vis := ((s.tile t).queue q).visible
      (∀ es x, (s.tile t).look q 0 k = .ok (es, x) → es <+: vis.take k ∧ (∀ e ∈ es.dropLast, e.tok = false) ∧
        ((∀ e ∈ es, e.tok = false) → es.length = k ∧
          s.readOp t o n = .ok ((es.flatMap fun e => leBytes 16 e.data.toNat).take n,
            if o.getLsbD 3 then s.setTile t x else (s.setTile t x).popN t q k)) ∧
        (∀ b e, es = b ++ [e] → e.tok = true → s.readOp t o n =
          .error (if e.kind = 4 then .flush q (((s.tile t).queue q).popped + b.length) else .illegal 1))) ∧
      ((∀ e ∈ vis.take k, e.tok = false) → (vis.take k).length < k → s.readOp t o n = .error (.block 1 q)))

/-- A destination operand writes the vector group, the bytes or registers at the address register and no other, sends
through a port, or discards. Kind 0 writes the registers of the group and leaves every other. Kind 1, where the bytes
lie in WM, AM or PM, writes exactly the bytes at An.CUR, or whole tile registers there; POST adds STRIDE; a tagged
write waits (BLK 3) while a slot lacks the empty tag or an earlier waiter could proceed, then fills its slots where it
reaches them; a write of IM, of the spillway or of a reserved address is illegal. Kind 2 sends the bytes through the
port, as a memory write or as entries by the port's kind. Kind 3 discards. Only this tile changes for kinds 0 and 1.
(R106, R116, R117, R119, R128, R129, R137, R156) -/
def Obligations.DestinationOperands : Prop :=
  ∀ (s : State) (t : PT) (o : Ops) (d : List Byte),
    (opsKind o = 3 → s.writeOp t o d = .ok s) ∧
    (opsKind o = 2 → let n := opsNum o 16
      s.writeOp t o d = if ((s.tile t).port n).kind = 1 ∨ ((s.tile t).port n).kind = 2 then s.sendWrite t n d
        else s.sendEntries t n (flitsOf ((d.length + 15) / 16) d) false) ∧
    (opsKind o = 0 → d.length ≤ 64 → ∃ r, s.writeOp t o d = .ok r ∧ OnlyTile t s r ∧
      (∀ i, i < (d.length + 15) / 16 →
        Tab.get (0 : Quad) (r.tile t).r.v (opsNum o 32 + i) = BitVec.ofNat 128 (ofLe ((d.drop (16 * i)).take 16))) ∧
      (∀ j, j < opsNum o 32 ∨ opsNum o 32 + (d.length + 15) / 16 ≤ j →
        Tab.get (0 : Quad) (r.tile t).r.v j = Tab.get (0 : Quad) (s.tile t).r.v j) ∧
      r.tile t = { s.tile t with r := { (s.tile t).r with v := (r.tile t).r.v }, defects := (r.tile t).defects }) ∧
    (opsKind o = 1 → let an := opsNum o 8
      let a := ((s.tile t).areg an).cur.toNat
      ∀ y, (s.tile t).need (fun w => decide (w = aWord an)) = .ok y →
      ((a + d.length ≤ 0xA800 ∨ 0xB000 ≤ a ∧ a + d.length ≤ 0xC000) →
        (o.getLsbD 4 = false ∨ ∃ sl, tagSlots a d.length = some sl ∧ y.mustWaitLocal sl false = false) →
        ∃ r, s.writeOp t o d = .ok r ∧ OnlyTile t s r ∧ memRead (r.tile t).mem a d.length = d ∧
          (∀ b, b < a ∨ a + d.length ≤ b → Tab.get (0 : Byte) (r.tile t).mem b = Tab.get (0 : Byte) (s.tile t).mem b) ∧
          ((r.tile t).areg an).cur = (if o.getLsbD 3 then ((s.tile t).areg an).cur + ((s.tile t).areg an).stride else ((s.tile t).areg an).cur) ∧
          (r.tile t).r.v = (s.tile t).r.v ∧ (r.tile t).queues = (s.tile t).queues ∧ (r.tile t).s = (s.tile t).s ∧
          (∀ sl k, o.getLsbD 4 = true → tagSlots a d.length = some sl → k < 448 →
            (r.tile t).tagOf k = ((s.tile t).tagOf k || (tagReaches a d.length && sl.contains k)))) ∧
      (o.getLsbD 4 = false → 0xF000 ≤ a → a + d.length ≤ 0xF200 → a % 8 = 0 → d.length % 8 = 0 →
        s.writeOp t o d = .ok (((s.setTile t y).writeRegs t (a - 0xF000) (d.length / 8) d).modTile t fun x =>
          if o.getLsbD 3 then x.setCur an ((x.areg an).cur + (x.areg an).stride) else x)) ∧
      (o.getLsbD 4 = false → 0 < d.length → (0xA800 ≤ a ∧ a < 0xB000 ∨ 0xC000 ≤ a ∧ a < 0xF000 ∨ 0xF200 ≤ a) →
        s.writeOp t o d = .error (.illegal 3)) ∧
      (∀ sl, o.getLsbD 4 = true → tagSlots a d.length = some sl → y.mustWaitLocal sl false = true →
        s.writeOp t o d = .error (.tags 3 an sl)))

/-- A send through a queue port or fountain spends credits, numbers its entries and sends its packets; a memory port sends
a write. Through a queue port with a scarf entry, enough credits and no hold: one QSEND goes to the destination queue
with the port's SEQ and phase, k credits are spent, SEQ, the send count and the unacknowledged count grow by k. A
fountain port spends the same, sends one FOUNT to each child of its node, and delivers to the node's own leaf queue
when it has one. Without credit or while held it waits (BLK 4). Without a scarf entry it waits with SCARF_MISS. A
memory port sends a write at its cursor with the tile's next tag, keeps it until it is answered (the micro-op waits
for it, log 121), and moves the cursor, wrapping after WRAP × 64 bytes. Nothing of the tile's registers or memories
changes. (R137, R160, R167, R168, R169, R170, R200, R277, R278, R293, R295, R303) -/
def Obligations.PortSends : Prop :=
  ∀ (s : State) (t : PT) (n : Nat), let p := (s.tile t).port n
    let sent (k : Nat) (stop : Bool) : Port := { p with prod := { p.prod with
      credits := p.prod.credits - k, seq := p.prod.seq + BitVec.ofNat 4 k, sent := p.prod.sent + k,
      unacked := p.prod.unacked + k, atStop := stop } }
    (∀ (body : List Flitem) (stop : Bool) (h : PT) (dep : Bool), p.kind ≠ 3 → p.prod.held = false → body.length ≤ p.prod.credits →
      p.prod.closing = none → (s.router t).scarf p.lt = some (h, dep) →
      ∃ r, s.sendEntries t n body stop = .ok r ∧ (r.tile t).port n = sent body.length stop ∧
        (∀ m, m ≠ n → (r.tile t).port m = (s.tile t).port m) ∧
        (∃ pk : Packet, r.comp.net = s.comp.net ++ [pk] ∧ r.comp.fresh = s.comp.fresh ++ [pk] ∧ pk.op = opQsend ∧ pk.dst = .tile h ∧
          pk.src = .tile t ∧ pk.addr = BitVec.ofNat 16 (p.addr % 8 + 8 * flag p.prod.phase) ∧ pk.seq = p.prod.seq ∧ pk.ep = dep ∧
          pk.body = body) ∧
        OnlyTileNet t s r ∧ r.tile t = { s.tile t with r := { (s.tile t).r with ports := (r.tile t).r.ports } }) ∧
    (∀ (body : List Flitem) (stop : Bool) f nd, p.kind = 3 → p.prod.held = false → body.length ≤ p.prod.credits → p.prod.closing = none →
      s.fountRow t (p.addr % 4096) = some f → f.nodes[0]? = some nd → s.runsAt nd.t = t →
      (∀ c ∈ f.children 0, ((s.router t).scarf c.2.t).isSome = true) →
      ∃ r, s.sendEntries t n body stop =
          .ok (if nd.leaf then r.acceptAll t nd.q p.prod.phase (s.router t).ep p.prod.seq body else r) ∧
        (r.tile t).port n = sent body.length stop ∧ (∀ m, m ≠ n → (r.tile t).port m = (s.tile t).port m) ∧
        r.comp.net = s.comp.net ++ (f.children 0).filterMap (fun c => ((s.router t).scarf c.2.t).map fun d =>
          { op := opFount, dst := .tile d.1, src := .tile t, tag := 0, addr := BitVec.ofNat 16 (f.fid + 4096 * flag p.prod.phase),
            seq := p.prod.seq, ep := d.2, ext := 0, part := s.ptPart t, body := body }) ∧
        OnlyTileNet t s r ∧ r.tile t = { s.tile t with r := { (s.tile t).r with ports := (r.tile t).r.ports } }) ∧
    (∀ body stop, p.prod.held = true ∨ p.prod.credits < body.length → s.sendEntries t n body stop = .error (.block 4 n)) ∧
    (∀ body stop, p.kind ≠ 3 → p.prod.held = false → body.length ≤ p.prod.credits → (s.router t).scarf p.lt = none →
      s.sendEntries t n body stop = .error (.scarf p.lt 4 n)) ∧
    (∀ body stop f c, p.kind = 3 → p.prod.held = false → body.length ≤ p.prod.credits → s.fountRow t (p.addr % 4096) = some f →
      ((f.children 0).find? fun c => ((s.router t).scarf c.2.t).isNone) = some c →
      s.sendEntries t n body stop = .error (.scarf c.2.t 4 n)) ∧
    (∀ (d : List Byte) (h : PT) (dep : Bool), (s.router t).scarf p.lt = some (h, dep) →
      ∃ r, s.sendWrite t n d = .ok r ∧
        (r.tile t).port n = { p with cursor := BitVec.ofNat 16 (if p.wrap ≠ 0 ∧ p.addr + p.wrap * 64 ≤ p.cursor.toNat + d.length
          then p.addr else p.cursor.toNat + d.length) } ∧
        (∀ m, m ≠ n → (r.tile t).port m = (s.tile t).port m) ∧
        (∃ pk : Packet, r.comp.net = s.comp.net ++ [pk] ∧ r.comp.fresh = s.comp.fresh ++ [pk] ∧
          (r.tile t).q.out = (s.tile t).q.out ++ [pk] ∧
          pk.op = (if p.kind = 1 then opWrTag else opWrRaw) ∧ pk.dst = .tile h ∧ pk.src = .tile t ∧ pk.addr = p.cursor ∧
          pk.tag = (s.tile t).q.tag ∧ pk.ep = dep ∧ pkData pk = padTo (16 * ((d.length + 15) / 16)) d) ∧
        (r.tile t).q.tag = (s.tile t).q.tag + 1 ∧ (r.tile t).s = { (s.tile t).s with done := some { op := 0, next := 0, kind := 7, port := n } } ∧
        (r.tile t).r.v = (s.tile t).r.v ∧ (r.tile t).mem = (s.tile t).mem ∧ OnlyTileNet t s r) ∧
    (∀ (d : List Byte), (s.router t).scarf p.lt = none → s.sendWrite t n d = .error (.scarf p.lt 4 n))

/-- MOV, LDS, SETA, ADDA, TAGS, RGET and RREG complete with the moves the spec gives them. Where fetched, and the words
that are read not uncorrectable: MOV writes to DST the 16, 32, 48 or 64 bytes read from SRC. LDS loads K0 or K1: the
shadow buffer, or with NOW the active buffer with its cursor at 0. SETA and ADDA write An alone. TAGS sets or clears
the tags of its slots and no other. RGET sends a raw read to the port's address plus OFF and waits (BLK 5); once the
answer has come it writes it to DST. RREG copies a tile register to lanes 0 and 1 and zeros the rest. Each then
retires to the next index. (R128, R137, R138, R147, R151, R156, R161) -/
def Obligations.DataMovementCompletes : Prop :=
  ∀ (s : State) (t : PT) (x : Tile), let s0 := s.setTile t x
    let fin (r : State) (op : Nat) : Host.Outcome State Fault Refusal := .next ((r.next t op).ceHigh t (s.tile t))
    (∀ dst src w d s1 s2, Fetches s t (.mov dst src w) x → s0.readOp t src (16 * (w.toNat + 1)) = .ok (d, s1) →
      s1.writeOp t dst d = .ok s2 → exec (.mov t dst src w) s = fin s2 0x08) ∧
    (∀ sel now len src d s1, Fetches s t (.lds sel now len src) x → s0.readOp t src 16 = .ok (d, s1) →
      let n := if len.toNat = 0 then 16 else len.toNat
      let k := if sel then (s1.tile t).r.k1 else (s1.tile t).r.k0
      let k' : ScaleReg := if now then { k with active := d, len := n, cursor := 0 } else { k with shadow := d, shadowLen := n, loaded := true }
      exec (.lds t sel now len src) s = fin (s1.modTile t fun y =>
        let y := y.rewritten fun w => decide (w = kWord sel (!now) 0 ∨ w = kWord sel (!now) 1)
        if sel then { y with r := { y.r with k1 := k' } } else { y with r := { y.r with k0 := k' } }) 0x09) ∧
    (∀ a base stride, Fetches s t (.seta a base stride) x → ∃ r, exec (.seta t a base stride) s = fin r 0x0A ∧
      (r.tile t).areg a.toNat = { cur := base, stride := stride } ∧ (∀ b, b ≠ a.toNat → (r.tile t).areg b = x.areg b) ∧
      (r.tile t) = { x with r := { x.r with a := (r.tile t).r.a }, defects := (r.tile t).defects } ∧ OnlyTile t s r) ∧
    (∀ a imm y, Fetches s t (.adda a imm) x → x.need (fun w => decide (w = aWord a.toNat)) = .ok y → ∃ r, exec (.adda t a imm) s = fin r 0x0B ∧
      (r.tile t).areg a.toNat = { x.areg a.toNat with cur := (x.areg a.toNat).cur + imm } ∧
      (∀ b, b ≠ a.toNat → (r.tile t).areg b = x.areg b) ∧
      (r.tile t) = { y with r := { y.r with a := (r.tile t).r.a }, defects := (r.tile t).defects } ∧ OnlyTile t s r) ∧
    (∀ a full count k y, Fetches s t (.tags a full count) x → x.need (fun w => decide (w = aWord a.toNat)) = .ok y → slotAt (x.areg a.toNat).cur.toNat = some k →
      let n := if count.toNat = 0 then 256 else count.toNat
      (k + n ≤ 160 ∨ 192 ≤ k ∧ k + n ≤ 448) →
      ∃ r, exec (.tags t a full count) s = fin r 0x0C ∧
        (∀ j, j < 448 → (r.tile t).tagOf j = if k ≤ j ∧ j < k + n then full else x.tagOf j) ∧
        (r.tile t) = { y with amTag := (r.tile t).amTag, pmTag := (r.tile t).pmTag } ∧ OnlyTile t s r) ∧
    (∀ port dst w off h dep, Fetches s t (.rget port dst w off) x → x.s.arrived = false →
      (x.port port.toNat).kind = 1 ∨ (x.port port.toNat).kind = 2 → (s0.router t).scarf (x.port port.toNat).lt = some (h, dep) →
      ∃ n, exec (.rget t port dst w off) s = .next n ∧ (n.tile t).s.seq = .blocked ∧ (n.tile t).s.blk = 5 ∧
        (n.tile t).s.blkarg = port.toNat ∧ (n.tile t).s.arrived = true ∧ (n.tile t).s.pc = x.s.pc ∧ (n.tile t).r = x.r ∧
        (n.tile t).mem = x.mem ∧
        ∃ pk : Packet, n.comp.net = s.comp.net ++ [pk] ∧ n.comp.fresh = s.comp.fresh ++ [pk] ∧ (n.tile t).q.out = x.q.out ++ [pk] ∧ pk.op = opRdRaw ∧
          pk.dst = .tile h ∧ pk.src = .tile t ∧ pk.tag = x.q.tag ∧ pk.ep = dep ∧ pk.addr = BitVec.ofNat 16 ((x.port port.toNat).addr + off.toNat) ∧
          pkBytes pk = 16 * (w.toNat + 1)) ∧
    (∀ port dst w off d s2, Fetches s t (.rget port dst w off) x → x.s.arrived = true → x.q.got = some d →
      s0.writeOp t dst d = .ok s2 → exec (.rget t port dst w off) s = fin s2 0x0D) ∧
    (∀ v reg y, Fetches s t (.rreg v reg) x → x.need (regWords (8 * reg.toNat)) = .ok y → ∃ r, exec (.rreg t v reg) s = fin r 0x1C ∧
      Tab.get (0 : Quad) (r.tile t).r.v v.toNat = (readTileReg t (s0.hosted t) y (8 * reg.toNat)).setWidth 128 ∧
      (∀ j, j ≠ v.toNat → Tab.get (0 : Quad) (r.tile t).r.v j = Tab.get (0 : Quad) x.r.v j) ∧
      (r.tile t) = { y with r := { y.r with v := (r.tile t).r.v }, defects := (r.tile t).defects } ∧ OnlyTile t s r)

/-- A write of a tile register stores its fields; XSTAT is cleared by ones; CTL halts, resumes or resets; read-only ones
stay. WREG, and every other write of a tile register, acts by the offset: CFG takes ENTRY, STARTQ and CE_LIM; XSTAT
loses the bits written 1; a one to ECC.CLR clears both counts; SRIX0 and SRIX1 take 48 bits; An, ports and tags are
written only in IDLE, HALTED or RESET; ID, STATE, LOOP and SIG do not change. WREG of a register other than CTL
retires to the next index; a WREG of CTL with RESET set leaves the tile in RESET, one with HALT set retires and leaves
it in HALTED with its invocation kept, one with neither retires. (R102, R112, R147, R149, R151, R160) -/
def Obligations.TileRegisterWrites : Prop :=
  (∀ (s : State) (t : PT) (x y : Tile) (v : BitVec 5) (reg : BitVec 6), Fetches s t (.wreg v reg) x →
    x.need (fun w => decide (w = vWord v.toNat 0)) = .ok y → let q := Tab.get (0 : Quad) x.r.v v.toNat
    (reg.toNat ≠ 2 → ∃ r, exec (.wreg t v reg) s = .next ((r.next t 0x1D).ceHigh t (s.tile t)) ∧
      r.tile t = y.writeReg (8 * reg.toNat) (q.setWidth 64) ∧ OnlyTile t s r) ∧
    (reg.toNat = 2 → q.getLsbD 2 = false → q.getLsbD 0 = false → ∃ r, exec (.wreg t v reg) s = .next ((r.next t 0x1D).ceHigh t (s.tile t)) ∧
      SameData y (r.tile t) ∧ (r.tile t).s.seq = .run ∧ (r.tile t).s.pc = x.s.pc ∧ (r.tile t).queues = x.queues ∧ OnlyTile t s r) ∧
    (reg.toNat = 2 → q.getLsbD 2 = false → q.getLsbD 0 = true → x.r.loops = [] →
      ∃ n, exec (.wreg t v reg) s = .next n ∧ (n.tile t).s.seq = .halted ∧ (n.tile t).s.inv = true ∧
        (n.tile t).s.pc = BitVec.ofNat 10 (x.s.pc.toNat + 1) ∧ (n.tile t).mem = x.mem ∧ (n.tile t).r.v = x.r.v ∧
        (q.getLsbD 3 = true → (n.tile t).amTag = 0 ∧ (n.tile t).pmTag = 0)) ∧
    (reg.toNat = 2 → q.getLsbD 2 = true →
      ∃ n, exec (.wreg t v reg) s = .next n ∧ (n.tile t).s.seq = .reset ∧ (n.tile t).s.pc = x.s.pc ∧ (n.tile t).amTag = 0 ∧
        (n.tile t).pmTag = 0 ∧ (n.tile t).mem = x.mem)) ∧
  (∀ (x : Tile) (v : Word),
    (x.writeReg 0x18 v).c.entry = v.extractLsb' 32 9 ∧ (x.writeReg 0x18 v).c.startq = v.extractLsb' 16 3 ∧
    (x.writeReg 0x18 v).c.ceLim = v.extractLsb' 8 8 ∧
    (x.writeReg 0x20 v).c.xstat = x.c.xstat &&& ~~~(v.extractLsb' 0 8) ∧
    x.writeReg 0x28 v = (if v.getLsbD 0 then { x with c := { x.c with ce := 0, ue := 0 } } else x) ∧
    (x.writeReg 0x40 v).r.srix0 = v.extractLsb' 0 48 ∧ (x.writeReg 0x48 v).r.srix1 = v.extractLsb' 0 48 ∧
    (∀ off ∈ [0x00, 0x08, 0x30, 0x38, 0x180], x.writeReg off v = x) ∧
    (x.s.seq ≠ .idle → x.s.seq ≠ .halted → x.s.seq ≠ .reset → ∀ off, 0x50 ≤ off → x.writeReg off v = x) ∧
    (x.s.seq = .idle ∨ x.s.seq = .halted ∨ x.s.seq = .reset →
      (∀ i, i < 8 → (x.writeReg (0x50 + 8 * i) v).areg i = { cur := v.extractLsb' 0 16, stride := v.extractLsb' 16 16 }) ∧
      (∀ i, i < 16 → ((x.writeReg (0xC0 + 8 * i) v).port i).desc = v &&& 0xFFFFFFFFFFFE0000 ∧
        ((x.writeReg (0xC0 + 8 * i) v).port i).cursor = v.extractLsb' 25 16) ∧
      (∀ i j, i < 3 → j < 64 → (x.writeReg (0x140 + 8 * i) v).tagOf (64 * i + j) = v.getLsbD j) ∧
      (∀ i j, i < 4 → j < 64 → (x.writeReg (0x160 + 8 * i) v).tagOf (192 + 64 * i + j) = v.getLsbD j)))

/-- DOT, FMA, XADD and VOP complete with their result in its register or operand and their status bits set. Where fetched
and its operands can be read and written: FMA and VOP write their four lanes to DST and set their status bits in
XSTAT; XADD writes the exact sum; a DOT of narrow elements adds the tree of its products to ACC, or to zero with CLR,
takes its scale bytes (at the cursor of K0 and K1, which advances, and at the end of the active buffer returns to 0,
with the shadow buffer in its place once one is loaded), and with WB writes ACC to WBD. A DOT of BF16 leaves its
binary32 sum in lane 0 and zeros above. Each then retires to the next index. The residues of the datapath agree in
these states (where they mismatch, the spec states no result: log 23). (R78, R82, R84, R85, R86, R102, R138, R139,
R140, R141, R142, R156) -/
def Obligations.ArithmeticCompletes : Prop :=
  ∀ (s : State) (t : PT) (x : Tile), let s0 := s.setTile t x
    let fin (r : State) (op : Nat) : Host.Outcome State Fault Refusal := .next ((r.next t op).ceHigh t (s.tile t))
    (∀ dst a b c da s1 db s2 dc s3 s4, Fetches s t (.fma dst a b c) x →
      s0.readOp t a 16 = .ok (da, s1) → s1.readOp t b 16 = .ok (db, s2) → s2.readOp t c 16 = .ok (dc, s3) →
      let r := lanes4 fun i => fFma fmtB32 (lane (quadOf da) i) (lane (quadOf db) i) (lane (quadOf dc) i)
      s3.writeOp t dst (leBytes 16 r.1.toNat) = .ok s4 → (s0.tile t).defects.mac = false →
      exec (.fma t dst a b c) s = fin (s4.modTile t fun y => { y with c := { y.c with xstat := y.c.xstat ||| r.2 } }) 0x11) ∧
    (∀ dst a b da s1 db s2 s3, Fetches s t (.xadd dst a b) x → s0.readOp t a 16 = .ok (da, s1) → s1.readOp t b 16 = .ok (db, s2) →
      s2.writeOp t dst (leBytes 16 (xsAdd (quadOf da) (quadOf db)).toNat) = .ok s3 → (s0.tile t).defects.mac = false →
      exec (.xadd t dst a b) s = fin (if xsAdd (quadOf da) (quadOf db) = xsRange then s3.rangeExceeded t else s3) 0x12) ∧
    (∀ fn dst a b sel da s1 db s2 s3, Fetches s t (.vop fn dst a b sel) x →
      s0.readOp t a 16 = .ok (da, s1) → s1.readOp t b 16 = .ok (db, s2) →
      let r := vopResult fn.toNat (quadOf da) (quadOf db) sel.toNat
      s2.writeOp t dst (leBytes 16 r.1.toNat) = .ok s3 →
      exec (.vop t fn dst a b sel) s = fin (s3.modTile t fun y => { y with c := { y.c with xstat := y.c.xstat ||| r.2 } }) 0x13) ∧
    (∀ fa fb xa xb a b acc clr wb wbd da s1 db s2 ka kb, let n := dotCount fa.toNat fb.toNat
      let per (c : BitVec 2) : Nat := if blockOf c.toNat = 0 then 0 else n / blockOf c.toNat
      Fetches s t (.dot fa fb xa xb a b acc clr wb wbd) x → fa.toNat ≠ 6 →
      s0.readOp t a ((n * fmtWidth fa.toNat + 7) / 8) = .ok (da, s1) → s1.readOp t b ((n * fmtWidth fb.toNat + 7) / 8) = .ok (db, s2) →
      s2.takeScale t false (per xa) = .ok ka → ka.2.takeScale t true (per xb) = .ok kb → (s0.tile t).defects.mac = false →
      ∀ old s3, (clr = true ∧ s3 = kb.2 ∧ old = 0 ∨ clr = false ∧ kb.2.readV t acc.toNat = .ok (old, s3)) →
      let r := dotNarrow fa.toNat fb.toNat xa.toNat xb.toNat da db ka.1 kb.1 (if clr then xsZero else old)
      let s4 := if r.2 then (s3.modTile t fun y => y.setV acc.toNat r.1).rangeExceeded t else s3.modTile t fun y => y.setV acc.toNat r.1
      (wb = false → exec (.dot t fa fb xa xb a b acc clr wb wbd) s = fin s4 0x10) ∧
      (∀ s5, wb = true → s4.writeBack t wbd (leBytes 16 r.1.toNat) = .ok s5 →
        exec (.dot t fa fb xa xb a b acc clr wb wbd) s = fin s5 0x10)) ∧
    (∀ xa xb a b acc clr wb wbd da s1 db s2 ka kb old s3, Fetches s t (.dot 6 6 xa xb a b acc clr wb wbd) x → blockOf xa.toNat = 0 → blockOf xb.toNat = 0 →
      s0.readOp t a 32 = .ok (da, s1) → s1.readOp t b 32 = .ok (db, s2) → (s0.tile t).defects.mac = false →
      s2.takeScale t false 0 = .ok ka → ka.2.takeScale t true 0 = .ok kb →
      (clr = true ∧ s3 = kb.2 ∧ old = 0 ∨ clr = false ∧ kb.2.readV t acc.toNat = .ok (old, s3)) →
      let r := dotBf16 da db (if clr then 0 else lane old 0)
      let s4 := s3.modTile t fun y => (y.setV acc.toNat (BitVec.ofNat 128 r.1)).orXstat r.2
      (wb = false → exec (.dot t 6 6 xa xb a b acc clr wb wbd) s = fin s4 0x10) ∧
      (∀ s5, wb = true → s4.writeBack t wbd (leBytes 16 (BitVec.ofNat 128 r.1).toNat) = .ok s5 →
        exec (.dot t 6 6 xa xb a b acc clr wb wbd) s = fin s5 0x10)) ∧
    (∀ (k1 : Bool) (n : Nat) (d : List Byte) (r : State), 0 < n → s.takeScale t k1 n = .ok (d, r) →
      let k := if k1 then (s.tile t).r.k1 else (s.tile t).r.k0
      let k' := if k1 then (r.tile t).r.k1 else (r.tile t).r.k0
      d = (k.active.drop k.cursor).take n ∧ k.cursor + n ≤ k.len ∧
      (k.cursor + n < k.len → k' = { k with cursor := k.cursor + n }) ∧
      (k.cursor + n = k.len → k.loaded = false → k' = { k with cursor := 0 }) ∧
      (k.cursor + n = k.len → k.loaded = true → k' = { k with cursor := 0, active := k.shadow, len := k.shadowLen, loaded := false }) ∧
      (if k1 then (r.tile t).r.k0 = (s.tile t).r.k0 else (r.tile t).r.k1 = (s.tile t).r.k1) ∧ (r.tile t).r.v = (s.tile t).r.v ∧ OnlyTile t s r)

/-- VOP's functions act as named, FMAX and FMIN return the number beside a NaN, blocks and roundings follow their rules.
AND, OR and XOR combine the 128 bits and set no status. SHUF's lane i is SRC1's lane SEL[2i+1:2i]. FMAX and FMIN of
two numbers return one of them; beside one NaN they return the other operand, and beside two the canonical quiet NaN;
FMAX(−0, +0) is +0 and FMIN(−0, +0) is −0. A block with an element that is no finite number gives zeros and the scale
byte 0xFF; a block of zeros the scale byte 0. Rounding toward zero never exceeds the magnitude, to nearest is within
half a unit and even at a tie, stochastic is one of the two neighbours; an exact value is kept. (R87, R89, R93, R94,
R95, R96, R142) -/
def Obligations.NumberFunctions : Prop :=
  (∀ (a b : Quad) (sel : Nat), vopResult 4 a b sel = (a &&& b, 0) ∧ vopResult 5 a b sel = (a ||| b, 0) ∧ vopResult 6 a b sel = (a ^^^ b, 0)) ∧
  (∀ (a b : Quad) (sel i : Nat), i < 4 → lane (vopResult 7 a b sel).1 i = lane a (sel / 4 ^ i % 4)) ∧
  (∀ a b : Nat, decFmt fmtB32 a = .nan → decFmt fmtB32 b ≠ .nan → (fMax fmtB32 a b).1 = b ∧ (fMax fmtB32 b a).1 = b ∧
    (fMin fmtB32 a b).1 = b ∧ (fMin fmtB32 b a).1 = b) ∧
  (∀ a b : Nat, decFmt fmtB32 a = .nan → decFmt fmtB32 b = .nan → (fMax fmtB32 a b).1 = 0x7FC00000 ∧ (fMin fmtB32 a b).1 = 0x7FC00000) ∧
  (fMax fmtB32 0x80000000 0).1 = 0 ∧ (fMin fmtB32 0x80000000 0).1 = 0x80000000 ∧ (fMax fmtB32 0 0x80000000).1 = 0 ∧
  (fMin fmtB32 0 0x80000000).1 = 0x80000000 ∧
  (∀ a b : Nat, decFmt fmtB32 a ≠ .nan → decFmt fmtB32 b ≠ .nan →
    ((fMax fmtB32 a b).1 = a ∨ (fMax fmtB32 a b).1 = b) ∧ ((fMin fmtB32 a b).1 = a ∨ (fMin fmtB32 a b).1 = b)) ∧
  (∀ (c : Nat) (md : List RMode) (fp : Bool) (vs : List Sys2Proof.Machine.Num) (v : Sys2Proof.Machine.Num), v ∈ vs → (∀ n m e, v ≠ .fin n m e) →
    convBlock c md fp vs = (vs.map fun _ => 0, 0xFF, xfNanOut)) ∧
  (∀ (c : Nat) (md : List RMode) (fp : Bool) (vs : List Sys2Proof.Machine.Num), (∀ v ∈ vs, ∃ n e, v = .fin n 0 e) → (convBlock c md fp vs).2.1 = 0) ∧
  (∀ (md : RMode) (m : Nat) (e lsb : Int), lsb ≤ e → roundAt md m e lsb = (m * 2 ^ (e - lsb).toNat, true)) ∧
  (∀ (md : RMode) (m k : Nat) (e : Int), 0 < k → let q := (roundAt md m e (e + (k : Int))).1
    (q = m / 2 ^ k ∨ q = m / 2 ^ k + 1) ∧ (m % 2 ^ k = 0 → q = m / 2 ^ k) ∧ ((roundAt md m e (e + (k : Int))).2 = decide (m % 2 ^ k = 0)) ∧
    (md = .zero → q = m / 2 ^ k) ∧
    (md = .nearest → 2 * q * 2 ^ k ≤ 2 * m + 2 ^ k ∧ 2 * m ≤ 2 * q * 2 ^ k + 2 ^ k ∧ (2 * (m % 2 ^ k) = 2 ^ k → q % 2 = 0)))

/-- CVT appends its converted elements to the pack register; CVTB writes a block's elements and its scale byte. Where
fetched and readable: a CVT of one exact-sum word whose pack register does not fill appends one element of TF above
those held, sets its status bits, and in stochastic mode advances the index register by one; with PK set the 16 bytes
go to DST and the register empties. A CVT of one exact-sum word or of four binary32 values appends each of its
elements in turn, and each time the next would not fit the register goes to DST and empties. CVTB reads its N values
through AS, writes the elements of the block to AD and its scale byte to AK, each register advancing past what it
reads or writes, and sets the status bits. (R89, R93, R94, R95, R97, R102, R143, R144, R145) -/
def Obligations.ConversionsComplete : Prop :=
  ∀ (s : State) (t : PT) (x : Tile), let s0 := s.setTile t x
    let fin (r : State) (op : Nat) : Host.Outcome State Fault Refusal := .next ((r.next t op).ceHigh t (s.tile t))
    (∀ tf rm sat ixs src dst pk layer d s1, let w := fmtWidth tf.toNat
      Fetches s t (.cvt tf rm sat ixs src dst pk layer false) x → s0.readOp t src 16 = .ok (d, s1) →
      (s1.tile t).r.pack.count + 2 * w ≤ 128 →
      ∀ md, s1.modes t rm ixs layer 1 = [md] →
      let e := convNum tf.toNat md sat false (xsNum (quadOf d))
      let k := (s1.tile t).r.pack
      let k' : Pack := { bits := k.bits ||| (BitVec.ofNat 128 (e.1 % 2 ^ w) <<< k.count), count := k.count + w }
      let y := if rm.toNat = 2 then (s1.tile t).addSrix ixs 1 else s1.tile t
      ∃ s2, OnlyTile t s1 s2 ∧
      s2.tile t = { y with c := { y.c with xstat := y.c.xstat ||| e.2 }, r := { y.r with pack := k' } } ∧
      (pk = false → exec (.cvt t tf rm sat ixs src dst pk layer false) s = fin s2 0x18) ∧
      (pk = true → 0 < w → ∀ s3, s2.writeOp t dst (leBytes 16 k'.bits.toNat) = .ok s3 →
        exec (.cvt t tf rm sat ixs src dst pk layer false) s =
          fin (s3.modTile t fun y => { y with r := { y.r with pack := { bits := 0, count := 0 } } }) 0x18)) ∧
    (∀ tf rm sat ixs src dst pk layer sf d s1 s3, let w := fmtWidth tf.toNat
      Fetches s t (.cvt tf rm sat ixs src dst pk layer sf) x → s0.readOp t src 16 = .ok (d, s1) →
      let n := if sf then 4 else 1
      let rs := ((convSources sf n d).zip (s1.modes t rm ixs layer n)).map fun vm => convNum tf.toNat vm.2 sat sf vm.1
      ((s1.advanceIndex t rm ixs n).modTile t (Tile.orXstat (rs.foldl (fun f r => f ||| r.2) 0))).packAll t dst w (rs.map (·.1)) = .ok s3 →
      let k := (s3.tile t).r.pack
      (pk = false ∨ k.count = 0 → exec (.cvt t tf rm sat ixs src dst pk layer sf) s = fin s3 0x18) ∧
      (pk = true → k.count ≠ 0 → ∀ s4, s3.writeOp t dst (leBytes 16 k.bits.toNat) = .ok s4 →
        exec (.cvt t tf rm sat ixs src dst pk layer sf) s =
          fin (s4.modTile t fun y => { y with r := { y.r with pack := { bits := 0, count := 0 } } }) 0x18)) ∧
    (∀ (u : State) (dst : Ops) (w e : Nat) (es : List Nat), let k := (u.tile t).r.pack
      let k' : Pack := { bits := k.bits ||| (BitVec.ofNat 128 (e % 2 ^ w) <<< k.count), count := k.count + w }
      (k'.count + w ≤ 128 → u.packAll t dst w (e :: es) = (u.modTile t fun y => { y with r := { y.r with pack := k' } }).packAll t dst w es) ∧
      (128 < k'.count + w → ∀ u', u.writeOp t dst (leBytes 16 k'.bits.toNat) = .ok u' → u.packAll t dst w (e :: es) =
        (u'.modTile t fun y => { y with r := { y.r with pack := { bits := 0, count := 0 } } }).packAll t dst w es) ∧
      u.packAll t dst w [] = .ok u) ∧
    (∀ tf rm xs sf ixs as ad ak layer tag d s1, let n := blockOf xs.toNat
      Fetches s t (.cvtb tf rm xs sf ixs as ad ak layer tag) x → s0.readRun t as.toNat tag (if sf then n / 4 else n) = .ok (d, s1) →
      let r := convBlock tf.toNat (s1.modes t rm ixs layer n) sf (convSources sf n d)
      let y := if rm.toNat = 2 then (s1.tile t).addSrix ixs n else s1.tile t
      ∃ s2, OnlyTile t s1 s2 ∧ s2.tile t = { y with c := { y.c with xstat := y.c.xstat ||| r.2.2 } } ∧ ∀ s3 s4,
      s2.writeRun t ad.toNat (leBytes (n * fmtWidth tf.toNat / 8) (packElems (fmtWidth tf.toNat) r.1)) = .ok s3 →
      s3.writeRun t ak.toNat [r.2.1] = .ok s4 → exec (.cvtb t tf rm xs sf ixs as ad ak layer tag) s = fin s4 0x19)

/-- EMIT sends its token; WEIR arrives, and at the root completes its group's instance; FLOAT sends its change to the home
or waits on its shadow. Where fetched: EMIT through a queue port with a credit sends one QSEND with a token of kind TK
and value VAL, with its source, generation and step, and retires; through a fountain port it sends as R303 says. WEIR,
with everything the tile sent answered, blocks (BLK 6) and its arrival is recorded; once its children's have come too,
a member below the root sends WEIR_ARR to its parent, the root of STEP_WEIR holds the instance, and the root of
another group releases it: the phase toggles, WEIR_REL goes to its children, and its own WEIR retires. With something
unanswered WEIR blocks without arriving. FLOAT set or clear blocks (BLK 7) with its FLOAT_OP on the way to the home; a
wait retires when the tile's shadow holds the value, and blocks otherwise. (R136, R171, R173, R309, R311, R312, R317,
R318, R526) -/
def Obligations.SyncMicroOpsComplete : Prop :=
  ∀ (s : State) (t : PT) (x : Tile), let s0 := s.setTile t x
    (∀ port tk val h dep, Fetches s t (.emit port tk val) x → let q := x.port port.toNat
      q.kind = 0 → q.prod.held = false → 1 ≤ q.prod.credits → q.prod.closing = none → (s.router t).scarf q.lt = some (h, dep) →
      ∃ r, exec (.emit t port tk val) s = .next ((r.next t 0x03).ceHigh t (s.tile t)) ∧
        (∃ (pk : Packet) (f : Flitem), r.comp.net = s.comp.net ++ [pk] ∧ pk.op = opQsend ∧ pk.dst = .tile h ∧ pk.src = .tile t ∧
          pk.addr = BitVec.ofNat 16 (q.addr % 8 + 8 * flag q.prod.phase) ∧ pk.seq = q.prod.seq ∧ pk.ep = dep ∧ pk.body = [f] ∧
          f.tok = true ∧ f.data.toNat % 8 = tk.toNat ∧ f.data.toNat / 8 % 65536 = val.toNat ∧
          (∀ l, s.hosted t = some l → l.valid = true → f.data.toNat / 2 ^ 59 % 1024 = l.y ∧ f.data.toNat / 2 ^ 69 % 2048 = l.x ∧
            f.data.toNat / 2 ^ 80 % 65536 = x.c.gen.toNat ∧ f.data.toNat / 2 ^ 96 = (s.stepNo (s.ptPart t)).toNat % 2 ^ 32)) ∧
        ((r.tile t).port port.toNat).prod = { q.prod with
          credits := q.prod.credits - 1, seq := q.prod.seq + 1, sent := q.prod.sent + 1, unacked := q.prod.unacked + 1,
          atStop := decide (tk.toNat = 1 ∨ tk.toNat = 4) } ∧
        r.tile t = { x with r := { x.r with ports := (r.tile t).r.ports } } ∧ OnlyTileNet t s r) ∧
    (∀ port tk val r, Fetches s t (.emit port tk val) x → (x.port port.toNat).kind = 3 →
      s0.sendEntries t port.toNat [s0.token t tk.toNat val.toNat] (tk.toNat == 1 || tk.toNat == 4) = .ok r →
      exec (.emit t port tk val) s = .next ((r.next t 0x03).ceHigh t (s.tile t))) ∧
    (∀ wid, Fetches s t (.weir wid) x → x.s.arrived = false → x.allAnswered = false →
      exec (.weir t wid) s = .next ((s0.blocked t 6 0).ceHigh t (s.tile t))) ∧
    (∀ wid l w, Fetches s t (.weir wid) x → x.s.arrived = false → x.allAnswered = true →
      s.hosted t = some l → s.runsAt l = t → let p := s.ltPart l
      let y := weirOf p wid.toNat s
      (s.frameOf p).weir wid.toNat = some w → w.sig = false → y.behind.contains l.key = false →
      y.arrived.contains (l.key, l.key) = false →
      ((s.frameOf p).stepWeir = wid.toNat → x.s.sigSeq = x.s.sigChk) →
      let full := (s.weirKids t wid.toNat).all fun c => y.arrived.contains (l.key, c.key)
      let waits (n : State) : Prop := (n.tile t).s.seq = .blocked ∧ (n.tile t).s.blk = 6 ∧ (n.tile t).s.arrived = true ∧
        (n.tile t).s.pc = x.s.pc ∧ (n.tile t).r = x.r ∧ (n.tile t).mem = x.mem ∧
        (weirOf p wid.toNat n).arrived = y.arrived ++ [(l.key, l.key)] ∧ (weirOf p wid.toNat n).phase = y.phase
      (full = false → ∃ n, exec (.weir t wid) s = .next n ∧ waits n ∧ n.comp.net = s.comp.net) ∧
      (∀ m d, full = true → ((s.weirRow t wid.toNat).bind fun r => r.parent) = some m → (s.router t).scarf m = some d →
        ∃ n, exec (.weir t wid) s = .next n ∧ waits n ∧
          n.comp.net = s.comp.net ++ [weirPacket opWeirArr p wid.toNat y.phase t d.1 d.2]) ∧
      (full = true → ((s.weirRow t wid.toNat).bind fun r => r.parent) = none → (s.frameOf p).stepWeir = wid.toNat →
        ∃ n, exec (.weir t wid) s = .next n ∧ waits n ∧ n.comp.net = s.comp.net ∧ (weirOf p wid.toNat n).heldAt = some s.now ∧
          (n.part p).commit.settled = false) ∧
      (full = true → ((s.weirRow t wid.toNat).bind fun r => r.parent) = none → (s.frameOf p).stepWeir ≠ wid.toNat →
        (s.frameOf p).weirRoot w = some l → l ∈ w.members → (∀ kp ∈ (s.part p).puts, kp.2.armed = false) →
        ∃ n, exec (.weir t wid) s = .next n ∧ (weirOf p wid.toNat n).phase = !y.phase ∧
          n.comp.net = s.comp.net ++ (s.weirKids t wid.toNat).filterMap (fun c => ((s.router t).scarf c).map fun d =>
            weirPacket opWeirRel p wid.toNat y.phase t d.1 d.2) ∧
          (x.r.loops = [] → (n.tile t).s.seq = .run ∧ (n.tile t).s.pc = BitVec.ofNat 10 (x.s.pc.toNat + 1) ∧
            (n.tile t).s.arrived = false ∧ (n.tile t).mem = x.mem ∧ (n.tile t).r = x.r))) ∧
    (∀ act fid r d, Fetches s t (.float act fid) x → x.s.arrived = false → act.toNat < 2 → s.floatRow t fid.toNat = some r →
      (s.router t).scarf r.home = some d →
      ∃ n, exec (.float t act fid) s = .next n ∧ (n.tile t).s.seq = .blocked ∧ (n.tile t).s.blk = 7 ∧ (n.tile t).s.arrived = true ∧
        (n.tile t).s.pc = x.s.pc ∧ (n.tile t).r = x.r ∧ (n.tile t).mem = x.mem ∧
        ∃ pk : Packet, n.comp.net = s.comp.net ++ [pk] ∧ (n.tile t).q.out = x.q.out ++ [pk] ∧ pk.op = opFloatOp ∧
          pk.dst = .tile d.1 ∧ pk.src = .tile t ∧ pk.ep = d.2 ∧ pk.tag = x.q.tag ∧
          pk.addr = BitVec.ofNat 16 (fid.toNat + 4096 * act.toNat)) ∧
    (∀ act fid l v c, Fetches s t (.float act fid) x → x.s.arrived = false → 2 ≤ act.toNat → s0.hosted t = some l →
      s0.shadow (s0.ptPart t) fid.toNat l = some (v, c) →
      (v = decide (act.toNat = 2) → exec (.float t act fid) s = .next ((s0.next t 0x05).ceHigh t (s.tile t))) ∧
      (v ≠ decide (act.toNat = 2) → exec (.float t act fid) s = .next ((s0.blocked t 7 0).ceHigh t (s.tile t))))

/-- The first range-exceeded word of a tile in a step sets XSTAT.RANGE and raises XSUM_RANGE; further ones set nothing. In
a step in which the tile has produced none yet, XSTAT.RANGE is set and XSUM_RANGE raised with the logical tile and the
step; in the same step a further one leaves the state as it is. Registers, memories, sequencer and queues stay. (R84) -/
def Obligations.RangeExceededOncePerStep : Prop :=
  ∀ (s : State) (t : PT), let p := s.ptPart t
    let n := s.rangeExceeded t
    ((s.tile t).c.rangeStep ≠ some (s.stepNo p) → (n.tile t).c.xstat = (s.tile t).c.xstat ||| 0x40 ∧
      (n.tile t).c.rangeStep = some (s.stepNo p) ∧ (n.tile t).r = (s.tile t).r ∧ (n.tile t).mem = (s.tile t).mem ∧
      (n.tile t).s = (s.tile t).s ∧ (n.tile t).queues = (s.tile t).queues ∧
      ∃ u, OnlyTile t s u ∧ Signals Ev.xsumRange p (tileOps (u.hosted t) t ++ [(s.stepNo p).toNat]) u n) ∧
    ((s.tile t).c.rangeStep = some (s.stepNo p) → n = s)

/-- Start, unblock, reset-done, halt, resume, reset, CLRTAGS and ECC.CLR move the sequencer as the spec says. A start
token at the head of STARTQ starts an idle tile at ENTRY, popped, no loop active, every cursor at its port's address.
A flush token there is popped. A blocked tile whose micro-op can issue goes to RUN; one that waited for its write, now
answered, retires. Reset done: RESET to IDLE. HALT: IDLE, RUN, BLOCKED to HALTED. RESUME: HALTED to RUN with an
invocation, else IDLE. RESET empties tags, loops and pack register and answers each parked request with RESET. CLRTAGS
empties the tags of a still tile. ECC.CLR clears both counts. Memories and vector registers stay, and other tiles.
(R112, R149, R151, R152, R160, R179) -/
def Obligations.SequencerCommandsComplete : Prop :=
  ∀ (s : State) (t : PT), let x := s.tile t
    (∀ e st q' y, x.s.seq = .idle → s.runs (s.ptPart t) = true → x.look x.c.startq.toNat 0 1 = .ok ([e], y) →
      (x.queue x.c.startq.toNat).pop = some (e, st, q') → e.tok = true → e.kind = 0 → ∃ n, exec (.tileStart t) s = .next n ∧ (n.tile t).s.seq = .run ∧ (n.tile t).s.inv = true ∧
        (n.tile t).s.pc = x.c.entry.setWidth 10 ∧ (n.tile t).r.loops = [] ∧ (n.tile t).queue x.c.startq.toNat = q' ∧
        (∀ kp ∈ (n.tile t).r.ports, kp.2.cursor = BitVec.ofNat 16 kp.2.addr) ∧ (n.tile t).mem = x.mem ∧ (n.tile t).r.v = x.r.v ∧
        (n.tile t).r.a = x.r.a ∧ ∀ v : PT, v.key ≠ t.key → n.tile v = s.tile v) ∧
    (∀ e st q' y, x.s.seq = .idle → s.runs (s.ptPart t) = true → x.look x.c.startq.toNat 0 1 = .ok ([e], y) →
      (x.queue x.c.startq.toNat).pop = some (e, st, q') → e.tok = true → e.kind = 4 → ∃ n, exec (.tileStart t) s = .next n ∧
        (n.tile t).s.seq = .idle ∧ (n.tile t).queue x.c.startq.toNat = q' ∧ (n.tile t).mem = x.mem ∧ (n.tile t).r = x.r ∧
        ∀ v : PT, v.key ≠ t.key → n.tile v = s.tile v) ∧
    (x.s.seq = .blocked → s.runs (s.ptPart t) = true → x.s.done = none → x.s.check = none → s.available t = true →
      ∃ n, exec (.sequencerUnblock t) s = .next n ∧ (n.tile t).s.seq = .run ∧ (n.tile t).s.blk = 0 ∧ (n.tile t).s.pc = x.s.pc ∧
        SameData x (n.tile t) ∧ (n.tile t).r = x.r ∧ OnlyTile t s n) ∧
    (∀ d, x.s.seq = .blocked → s.runs (s.ptPart t) = true → x.s.done = some d → x.writing = false → x.s.lost = false →
      exec (.sequencerUnblock t) s =
        .next ((s.modTile t fun x => { x with s := { x.s with done := none } }).retire t d.op d.next d.kind)) ∧
    (x.s.seq = .reset → s.tileFenced t = false → s.phys.power.halted = false →
      ∃ n, exec (.tileResetDone t) s = .next n ∧ (n.tile t).s.seq = .idle ∧ SameData x (n.tile t) ∧ OnlyTile t s n) ∧
    (x.s.seq = .idle ∨ x.s.seq = .run ∨ x.s.seq = .blocked →
      ∃ n, exec (.tileHalt t) s = .next n ∧ (n.tile t).s.seq = .halted ∧ (x.s.seq ≠ .idle → (n.tile t).s.inv = true) ∧
        (n.tile t).s.pc = x.s.pc ∧ (n.tile t).r = x.r ∧ SameData x (n.tile t) ∧ OnlyTile t s n) ∧
    (x.s.seq = .halted → ∃ n, exec (.tileResume t) s = .next n ∧ (n.tile t).s.seq = (if x.s.inv then .run else .idle) ∧
        (n.tile t).s.pc = x.s.pc ∧ (n.tile t).r = x.r ∧ SameData x (n.tile t) ∧ OnlyTile t s n) ∧
    (x.s.seq ≠ .off → ∃ n, exec (.tileReset t) s = .next n ∧ (n.tile t).s.seq = .reset ∧ (n.tile t).amTag = 0 ∧ (n.tile t).pmTag = 0 ∧
        (n.tile t).r.loops = [] ∧ (n.tile t).r.pack.count = 0 ∧ (n.tile t).q.parked = [] ∧ (n.tile t).q.reissues = [] ∧
        (n.tile t).s.sigSeq = 0xFFFFFFFF ∧ (n.tile t).mem = x.mem ∧ (n.tile t).r.v = x.r.v ∧ (n.tile t).queues = x.queues ∧
        n.comp.net = s.comp.net ++ x.q.parked.map (fun p => errAnswer p errReset) ∧ OnlyTileNet t s n) ∧
    (x.s.seq = .idle ∨ x.s.seq = .halted ∨ x.s.seq = .reset → ∃ n, exec (.tileClrtags t) s = .next n ∧
        n.tile t = { x with amTag := 0, pmTag := 0 } ∧ OnlyTile t s n) ∧
    (∃ n, exec (.tileEccClr t) s = .next n ∧ n.tile t = { x with c := { x.c with ce := 0, ue := 0 } } ∧ OnlyTile t s n)

/-- A remote request that need not wait is performed at its tile and answered: writes store their bytes, reads answer
theirs. For each of the five requests at a memory address: WR_RAW and WR_TAG store exactly the packet's bytes and
answer WR_ACK; RD_RAW, RD_TAG and RD_KEEP answer RD_DATA with the bytes and store nothing. WR_TAG fills its slots and
RD_TAG empties them where the access reaches them; the other three leave every tag. The answer goes back to the source
with the request's tag. Vector and address registers stay, and every other tile. At a register, WR_RAW writes it with
the packet's low 8 bytes under its own rules, RD_RAW answers its value, and a tagged request is REFUSED. (R115, R116,
R117, R121, R122, R157, R160, R182, R278, R298) -/
def Obligations.RemoteRequestsAreServed : Prop :=
  (∀ (s : State) (t : PT) (p : Packet) (c : Instr), requestInstr p = some c → Arrives s t p → reqOk p = true → p.addr.toNat < 0xF000 →
    imBusy p (s.tile t) = false →
    ((p.op = opWrTag ∨ p.op = opRdTag ∨ p.op = opRdKeep) → (s.tile t).mustWait p (s.tile t).q.parked.length = false) →
    (pkWrite p = true → ∃ n, exec c s = .next n ∧ n.comp.net = s.comp.net.erase p ++ [answer p opWrAck p.addr []] ∧
      memRead (n.tile t).mem p.addr.toNat (pkBytes p) = pkData p ∧
      (∀ b, b < p.addr.toNat ∨ p.addr.toNat + pkBytes p ≤ b → Tab.get (0 : Byte) (n.tile t).mem b = Tab.get (0 : Byte) (s.tile t).mem b) ∧
      (∀ k, k < 448 → (n.tile t).tagOf k =
        ((s.tile t).tagOf k || (decide (p.op = opWrTag) && tagReaches p.addr.toNat (pkBytes p) && (pkSlots p).contains k))) ∧
      (n.tile t).s.progress = (s.tile t).s.progress + 1 ∧ (n.tile t).s.seq = (s.tile t).s.seq ∧ (n.tile t).r = (s.tile t).r ∧
      (n.tile t).queues = (s.tile t).queues ∧ OnlyTileNet t s n) ∧
    (pkWrite p = false → ∀ d x, (s.tile t).load p.addr.toNat (pkBytes p) = .ok (d, x) →
      ∃ n, exec c s = .next n ∧ n.comp.net = s.comp.net.erase p ++ [answer p opRdData p.addr (flitsOf (pkBytes p / 16) d)] ∧
      (n.tile t).mem = (s.tile t).mem ∧
      (∀ k, k < 448 → (n.tile t).tagOf k =
        ((s.tile t).tagOf k && !(decide (p.op = opRdTag) && tagReaches p.addr.toNat (pkBytes p) && (pkSlots p).contains k))) ∧
      (n.tile t).s.progress = (s.tile t).s.progress + 1 ∧ (n.tile t).s.seq = (s.tile t).s.seq ∧ (n.tile t).r = (s.tile t).r ∧
      (n.tile t).queues = (s.tile t).queues ∧ ∀ v : PT, v.key ≠ t.key → n.tile v = s.tile v)) ∧
  (∀ (s : State) (t : PT) (p : Packet), Arrives s t p → 0xF000 ≤ p.addr.toNat →
    (p.op = opWrRaw → reqOk p = true → exec (.wrRaw p) s =
      .next ((((s.take p).writeTileReg t (p.addr.toNat - 0xF000) (BitVec.ofNat 64 (ofLe ((pkData p).take 8)))).send
        (answer p opWrAck p.addr [])).answered t)) ∧
    (p.op = opRdRaw → reqOk p = true → ∀ y, (s.tile t).checked (regWords (p.addr.toNat - 0xF000)) = .ok y →
      ∃ n v, exec (.rdRaw p) s = .next n ∧ v = readTileReg t (s.hosted t) (s.tile t) (p.addr.toNat - 0xF000) ∧
      n.comp.net = s.comp.net.erase p ++ [answer p opRdData p.addr [{ data := v.setWidth 128, tok := false }]] ∧
      SameData y (n.tile t) ∧ (n.tile t).queues = (s.tile t).queues ∧ ∀ v : PT, v.key ≠ t.key → n.tile v = s.tile v) ∧
    (∀ c, requestInstr p = some c → p.op = opWrTag ∨ p.op = opRdTag ∨ p.op = opRdKeep →
      ∃ n, exec c s = .next n ∧ n.comp.net = s.comp.net.erase p ++ [errAnswer p errRefused] ∧ SameData (s.tile t) (n.tile t)))

/-- A malformed request is REFUSED, a write to IM of a running tile IM_BUSY, a fifth waiter BUSY, a stale epoch discarded.
A request whose size, alignment or target is malformed is answered REFUSED; a write to IM in RUN or BLOCKED IM_BUSY; a
tagged request that must wait is parked while fewer than 4 are, and else answered BUSY. In none of these does a
memory, tag or register change. One of another epoch is discarded, counted, and for a read or tagged write answered
RESET. At a dark router or a tile whose clock has stopped nothing happens but its removal. Each answer is progress of
the tile. (R119, R121, R122, R123, R298) -/
def Obligations.RemoteRequestsTurnedAway : Prop :=
  ∀ (s : State) (t : PT) (p : Packet) (c : Instr), requestInstr p = some c → p.dst = .tile t → (s.tile t).s.seq ≠ .plumb →
    (Arrives s t p →
      (reqOk p = false → ∃ n, exec c s = .next n ∧ n.comp.net = s.comp.net.erase p ++ [errAnswer p errRefused] ∧
        SameData (s.tile t) (n.tile t) ∧ (n.tile t).queues = (s.tile t).queues ∧ OnlyTileNet t s n) ∧
      (reqOk p = true → imBusy p (s.tile t) = true → ∃ n, exec c s = .next n ∧
        n.comp.net = s.comp.net.erase p ++ [errAnswer p errImBusy] ∧ SameData (s.tile t) (n.tile t) ∧ OnlyTileNet t s n) ∧
      (reqOk p = true → imBusy p (s.tile t) = false → (p.op = opWrTag ∨ p.op = opRdTag ∨ p.op = opRdKeep) →
        (s.tile t).mustWait p (s.tile t).q.parked.length = true →
        ((s.tile t).q.parked.length < 4 → ∃ n, exec c s = .next n ∧ n.comp.net = s.comp.net.erase p ∧
          n.tile t = { s.tile t with q := { (s.tile t).q with parked := (s.tile t).q.parked ++ [p] } } ∧ OnlyTileNet t s n) ∧
        (4 ≤ (s.tile t).q.parked.length → ∃ n, exec c s = .next n ∧ n.comp.net = s.comp.net.erase p ++ [errAnswer p errBusy] ∧
          SameData (s.tile t) (n.tile t) ∧ (n.tile t).q = (s.tile t).q ∧ OnlyTileNet t s n))) ∧
    (s.reaches t = true → s.epochOk t p = false → ∃ n, exec c s = .next n ∧
      n.comp.net = s.comp.net.erase p ++ (if p.op = opWrRaw then [] else [errAnswer p errReset]) ∧
      (n.router t).epdisc = BitVec.ofNat 32 (min ((s.router t).epdisc.toNat + 1) 0xFFFFFFFF) ∧ SameData (s.tile t) (n.tile t) ∧
      (n.tile t).queues = (s.tile t).queues ∧ ∀ v : PT, v.key ≠ t.key → n.tile v = s.tile v) ∧
    (s.reaches t = false → ∃ n, exec c s = .next n ∧ OnlyNet s n ∧ n.comp.net = s.comp.net.erase p)

/-- A parked request or held writeback whose slots are ready is carried out; a re-issue sends its request again. A parked
request that need no longer wait leaves its entry and is served. On a slot, a held writeback that is ready comes
first: it stores its bytes and fills its slots where it reaches them; else the first parked request that is ready is
served. A re-issue at a tile in RUN or BLOCKED sends the request again, no earlier than its time; in another state it
waits. While HALT_N or a plumb slice holds the tile's clock, nothing that waits proceeds. (R119, R123, R124, R150,
R299) -/
def Obligations.ParkedWaitersProceed : Prop :=
  ∀ (s : State) (t : PT), let x := s.tile t
    (∀ i p, x.q.parked[i]? = some p → s.clockStands t = false → x.mustWait p i = false →
      exec (.parkedRequestComplete t i) s = .next ((s.modTile t (Tile.unpark i)).serve t p)) ∧
    (∀ i p, x.q.parked[i]? = some p → x.mustWait p i = true → exec (.parkedRequestComplete t i) s = .next s) ∧
    (∀ slot w, x.q.held = [w] → w.slots.contains slot = true → x.ready w.slots false = true → x.s.seq ≠ .halted →
      s.clockStands t = false → x.q.parked = [] →
      ∃ n, exec (.taggedWaitProceed t slot) s = .next n ∧ (n.tile t).q.held = [] ∧
        memRead (n.tile t).mem w.addr w.data.length = w.data ∧
        (∀ b, b < w.addr ∨ w.addr + w.data.length ≤ b → Tab.get (0 : Byte) (n.tile t).mem b = Tab.get (0 : Byte) x.mem b) ∧
        (∀ k, k < 448 → (n.tile t).tagOf k = (x.tagOf k || (tagReaches w.addr w.data.length && w.slots.contains k))) ∧
        (n.tile t).r = x.r ∧ OnlyTile t s n) ∧
    (∀ slot p, x.q.held = [] → x.q.waiting = none → x.q.parked = [p] → (pkSlots p).contains slot = true → x.parkedReady p = true → s.clockStands t = false →
      exec (.taggedWaitProceed t slot) s = .next ((s.modTile t (Tile.unpark 0)).serve t p)) ∧
    (∀ slot, x.q.held = [] → x.q.parked = [] → x.localReady [slot] 0 = true → x.s.seq = .blocked → s.available t = true →
      exec (.taggedWaitProceed t slot) s = .next (s.unblock t)) ∧
    (∀ r rest, x.q.reissues = r :: rest →
      (x.s.seq = .run ∨ x.s.seq = .blocked → s.runs (s.ptPart t) = true →
        ∃ n, exec (.reissue t) s = .next n ∧ n.comp.net = s.comp.net ++ [r.req] ∧
          n.tile t = { x with q := { x.q with reissues := rest } } ∧ (r.at_ < 2 ^ 64 → r.at_ ≤ n.now)) ∧
      (x.s.seq ≠ .run → x.s.seq ≠ .blocked → exec (.reissue t) s = .next s))

/-- A response ends its outstanding request: RD_DATA stores and retires its RGET, BUSY and RESET re-issue, the rest do
not. Where the tile has the request outstanding: WR_ACK ends it, and the micro-op that wrote retires once all its
writes are acknowledged. RD_DATA ends it and, for a blocked RGET whose destination can be written, writes the data
there and retires it. ERR BUSY or RESET sets a re-issue of the same request 256 cycles later; REFUSED and IM_BUSY end
it and raise TILE_ILLEGAL with FCAUSE 4; UNCORR ends it; after these three the micro-op stays blocked. A response that
answers nothing outstanding is discarded and counted. (R122, R124, R125, R298, R299) -/
def Obligations.ResponsesReachTheirRequester : Prop :=
  ∀ (s : State) (t : PT) (p r : Packet), p.dst = .tile t → s.reaches t = true → let x := s.tile t
    let s0 := s.take p
    (x.asked p writeOps = some r → let s1 := s0.modTile t fun y => { y with q := { y.q with out := y.q.out.erase r } }
      (x.s.done = none → exec (.wrAck p) s = .next s1) ∧
      (∀ d, x.s.done = some d → x.s.lost = false → (s1.tile t).writing = false → exec (.wrAck p) s =
        .next ((s1.modTile t fun y => { y with s := { y.s with done := none } }).retire t d.op d.next d.kind))) ∧
    (x.asked p readOps = some r →
      let s1 := (s0.modTile t (Tile.answeredBy r)).modTile t fun y => { y with q := { y.q with got := some (pkData p) } }
      (∀ port dst w off s2, x.uopAt = some (.rget port dst w off) → x.s.arrived = true → x.s.seq = .blocked →
        s1.writeOp t dst (pkData p) = .ok s2 → exec (.rdData p) s = .next (s2.next t 0x0D)) ∧
      (x.s.arrived = false → exec (.rdData p) s = .next s1)) ∧
    (x.asked p (readOps ++ writeOps) = some r →
      (p.addr.toNat % 8 = errBusy ∨ p.addr.toNat % 8 = errReset → ∃ n, exec (.err p) s = .next n ∧
        n.tile t = { x with q := { x.q with reissues := x.q.reissues ++ [{ req := r, at_ := s.now + s.cycles t.bay 256 }] } } ∧
        n.comp.net = s.comp.net.erase p ∧ OnlyTileNet t s n) ∧
      (p.addr.toNat % 8 = errRefused ∨ p.addr.toNat % 8 = errImBusy → ∃ n u, exec (.err p) s = .next n ∧ OnlyTileNet t s u ∧
        (u.tile t).q.out = x.q.out.erase r ∧ (u.tile t).s.fcause = 4 ∧ (u.tile t).s.lost = true ∧ (u.tile t).s.seq = x.s.seq ∧
        Signals Ev.tileIllegal (u.ptPart t) (tileOps (u.hosted t) t ++ [x.s.pc.toNat, 4]) u n) ∧
      (p.addr.toNat % 8 = errUncorr → exec (.err p) s =
        .next (s0.modTile t fun y => { y.answeredBy r with s := { y.s with lost := true } }))) ∧
    (x.asked p writeOps = none → exec (.wrAck p) s = .next (s0.countEpdisc t)) ∧
    (x.asked p readOps = none → exec (.rdData p) s = .next (s0.countEpdisc t)) ∧
    (x.asked p (readOps ++ writeOps) = none → exec (.err p) s = .next (s0.countEpdisc t))

/-- QSEND and FOUNT place their entries, Q_CREDIT and Q_ACK restore their port, CLOSE holds a port, RECALL tells the
inlet. Entries of a QSEND arrive in order of their numbers. One with the expected number joins the queue and is
acknowledged to its producer's port with its EP; one ahead is held; a stale token is discarded, counted, and its
number taken; one at a closed inlet is discarded and counted. FOUNT is copied to each child and enters the node's leaf
queue. Credits of the port's phase raise its credits, at most to 16, and acknowledgements lower its count; those of
another phase change no port and are counted. At a fountain node they count for their branch, and what every branch
has freed goes on to the parent. CLOSE marks the port, which holds and answers with RECALL at its stop point, at once
when it is there. RECALL records the credits and the send count at its queue, which is confirmed when all 16 credits
are accounted for (log 122). (R165, R167, R168, R169, R200, R212, R279, R303, R304, R305, R869) -/
def Obligations.QueuePacketsComplete : Prop :=
  ∀ (s : State) (t : PT) (p : Packet),
    (Arrives s t p → exec (.qsend p) s = .next ((s.take p).acceptAll t (p.addr.toNat % 8) (p.addr.getLsbD 3) p.ep p.seq p.body)) ∧
    (∀ (u : State) (q : Nat) (phase ep : Bool) (sq : BitVec 4) (f : Flitem) (fs : List Flitem),
      u.acceptAll t q phase ep sq (f :: fs) =
        (u.acceptAll t q phase ep sq [f]).acceptAll t q phase ep (sq + 1) fs ∧ u.acceptAll t q phase ep sq [] = u) ∧
    (Arrives s t p → ∀ f, p.body = [f] → let q := p.addr.toNat % 8
      let qu := (s.tile t).queue q
      let e : QEntry := { data := f.data, tok := f.tok, ep := p.ep, phase := p.addr.getLsbD 3 }
      let current := f.tok = true → BitVec.ofNat 16 (f.data.toNat / 2 ^ 80) = (s.tile t).c.gen
      (qu.closed = false → current →
        ∃ n, exec (.qsend p) s = .next n ∧ (n.tile t).mem = (s.tile t).mem ∧ (n.tile t).r = (s.tile t).r ∧
          ((n.tile t).queue q).accepted = qu.accepted + 1 ∧
          (qu.next = p.seq → qu.early = [] → ((n.tile t).queue q).fifo = qu.fifo ++ [e] ∧ ((n.tile t).queue q).next = qu.next + 1 ∧
            ((n.tile t).queue q).early = []) ∧
          (qu.next ≠ p.seq → ((n.tile t).queue q).fifo = qu.fifo ∧ ((n.tile t).queue q).next = qu.next ∧
            ((n.tile t).queue q).early = qu.early ++ [(p.seq.toNat, some e)]) ∧
          (∀ m, m ≠ q → (n.tile t).queue m = (s.tile t).queue m) ∧
          (∀ l b l' port, s.hosted t = some l → s.binding l q = some b → b.prod = .port l' port →
            n.comp.net = s.comp.net.erase p ++ [creditPacket opQAck (.tile (s.runsAt l')) (.tile t) (s.ltPart l) port 1 (p.addr.getLsbD 3) p.ep 0])) ∧
      (qu.closed = true → current → ∃ n, exec (.qsend p) s = .next n ∧ n.comp.net = s.comp.net.erase p ∧ SameTiles s n ∧
        n.field (Reg.prtFlowDiscard (s.ptPart t)) 31 0 = min (s.field (Reg.prtFlowDiscard (s.ptPart t)) 31 0 + 1) (2 ^ 32 - 1)) ∧
      (¬ current → ∃ n, exec (.qsend p) s = .next n ∧ n.comp.net = s.comp.net.erase p ∧
          (n.tile t).queue q = (if qu.next = p.seq then Queue.settle 16 { qu with next := qu.next + 1 }
            else { qu with early := qu.early ++ [(p.seq.toNat, none)] }) ∧
          n.field (Reg.prtFlowDiscard (s.ptPart t)) 63 32 = min (s.field (Reg.prtFlowDiscard (s.ptPart t)) 63 32 + 1) (2 ^ 32 - 1))) ∧
    (Arrives s t p → ∀ l f i nd, s.hosted t = some l → s.fountRow t (p.addr.toNat % 4096) = some f → f.nodeOf l = some i →
      f.nodes[i]? = some nd → s.runsAt nd.t = t → (∀ c ∈ f.children i, ((s.router t).scarf c.2.t).isSome = true) →
      let copies := (f.children i).filterMap fun c => ((s.router t).scarf c.2.t).map fun d =>
        ({ op := opFount, dst := .tile d.1, src := .tile t, tag := 0, addr := BitVec.ofNat 16 (f.fid + 4096 * flag (p.addr.getLsbD 12)),
           seq := p.seq, ep := d.2, ext := 0, part := p.part, body := p.body } : Packet)
      let s1 : State := { s with comp := { s.comp with net := s.comp.net.erase p ++ copies, fresh := s.comp.fresh.erase p ++ copies } }
      exec (.fount p) s = .next (if nd.leaf then s1.acceptAll t nd.q (p.addr.getLsbD 12) (s.router t).ep p.seq p.body else s1)) ∧
    (p.dst = .tile t → s.reaches t = true → p.ext = 0 → let port := p.addr.toNat % 16
      let pr := ((s.tile t).port port).prod
      (p.addr.getLsbD 9 = pr.phase →
        (∃ n, exec (.qCredit p) s = .next n ∧ ((n.tile t).port port).prod = { pr with credits := min (pr.credits + p.addr.toNat / 16 % 32) 16 } ∧
          (∀ m, m ≠ port → (n.tile t).port m = (s.tile t).port m) ∧ (n.tile t).queues = (s.tile t).queues ∧ n.comp.net = s.comp.net.erase p ∧
          OnlyTileNet t s n) ∧
        (∃ n, exec (.qAck p) s = .next n ∧ ((n.tile t).port port).prod = { pr with unacked := pr.unacked - p.addr.toNat / 16 % 32 } ∧
          (∀ m, m ≠ port → (n.tile t).port m = (s.tile t).port m) ∧ (n.tile t).queues = (s.tile t).queues ∧ n.comp.net = s.comp.net.erase p ∧
          OnlyTileNet t s n)) ∧
      (p.addr.getLsbD 9 ≠ pr.phase → exec (.qCredit p) s = .next ((s.take p).countEpdisc t) ∧ exec (.qAck p) s = .next ((s.take p).countEpdisc t))) ∧
    (∀ u l f i c, p.dst = .tile t → s.reaches t = true → p.ext ≠ 0 → p.src = .tile u → u ≠ t → s.hosted t = some l →
      s.fountRow t (p.ext.toNat - 1) = some f → f.nodeOf l = some i → (s.hosted u).bind f.nodeOf = some c →
      exec (.qCredit p) s = .next ((s.take p).fountainReturn .credit p.part f i (c + 1) (p.addr.toNat / 16 % 32) (p.addr.getLsbD 9)) ∧
      exec (.qAck p) s = .next ((s.take p).fountainReturn .ack p.part f i (c + 1) (p.addr.toNat / 16 % 32) (p.addr.getLsbD 9))) ∧
    (∀ (P i b n : Nat) (ph : Bool) (f : FountRec) nd pn, f.nodes[i]? = some nd → i ≠ 0 → f.nodes[nd.parent]? = some pn →
      let c := (s.fnode P f.fid i).counts ph
      let low := fnodeLow f i (Tab.set 0 c.credits b (Tab.get 0 c.credits b + n))
      let r := s.fountainReturn .credit P f i b n ph
      ((r.fnode P f.fid i).counts ph).credits = Tab.set 0 c.credits b (Tab.get 0 c.credits b + n) ∧
      ((r.fnode P f.fid i).counts ph).credited = low ∧
      r.comp.net = s.comp.net ++ (if low ≤ c.credited then [] else
        [creditPacket opQCredit (.tile (s.runsAt pn.t)) (.tile (s.runsAt nd.t)) P 0 (low - c.credited) ph (s.router (s.runsAt nd.t)).ep (1 + f.fid)])) ∧
    (∀ g, p.dst = .gateway g → let key := p.ext.toNat - 1
      let pr := (s.gateway p.part key).prod
      (pr.phase = p.addr.getLsbD 9 →
        (∃ n, exec (.qCredit p) s = .next n ∧ (n.gateway p.part key).prod = { pr with credits := min (pr.credits + p.addr.toNat / 16 % 32) 16 }) ∧
        (∃ n, exec (.qAck p) s = .next n ∧ (n.gateway p.part key).prod = { pr with unacked := pr.unacked - p.addr.toNat / 16 % 32 })) ∧
      (∃ n, exec (.close p) s = .next n ∧ (n.gateway p.part key).prod.closing = some ((s.take p).closeMode p) ∧
        (n.gateway p.part key).prod.credits = pr.credits ∧ (p.src, p.ep) ∈ (n.gateway p.part key).prod.closers ∧
        (pr.held = true → n.comp.net = s.comp.net.erase p ++ [recallPacket (.gateway g) p.part 0 pr (p.src, p.ep)]))) ∧
    (Arrives s t p → let port := p.addr.toNat % 16
      let pr := ((s.tile t).port port).prod
      let stops := (s.take p).closeMode p ≠ .boundary ∨ pr.atStop = true
      ∃ n, exec (.close p) s = .next n ∧ let pn := ((n.tile t).port port).prod
        pn = { pr with closing := some ((s.take p).closeMode p), closers := pn.closers, held := pn.held } ∧ (p.src, p.ep) ∈ pn.closers ∧
        (pr.held = true → pn.held = true ∧ n.comp.net = s.comp.net.erase p ++ [recallPacket (.tile t) p.part port pr (p.src, p.ep)]) ∧
        (pr.held = false → stops → pn.held = true ∧
          n.comp.net = s.comp.net.erase p ++ pn.closers.map (recallPacket (.tile t) (s.ptPart t) port pr)) ∧
        (pr.held = false → ¬ stops → pn.held = false ∧ n.comp.net = s.comp.net.erase p) ∧
        (n.tile t).queues = (s.tile t).queues ∧ OnlyTileNet t s n) ∧
    (∀ l q, p.dst = .tile t → s.reaches t = true → s.hosted t = some l → s.queueOf p.part l p.src (p.addr.toNat % 16) = some q →
      let qu := (s.tile t).queue q
      ∃ n, exec (.recall p) s = .next n ∧ ((n.tile t).queue q).recalled = some (p.addr.toNat / 16 % 32, p.addr.toNat / 512 % 16) ∧
        ((n.tile t).queue q).fifo = qu.fifo ∧ n.comp.net = s.comp.net.erase p ∧
        (((n.tile t).queue q).confirmed = true ↔ (qu.confirmed = true ∨ qu.accepted % 16 = p.addr.toNat / 512 % 16 ∧
          (p.addr.toNat / 16 % 32 ≠ 0 ∨ qu.accepted ≠ qu.popped ∨ s.sentTo t q ≤ qu.accepted))))

/-- An arrival is counted or held by its phase, a release passes on and retires, a float's home applies, notifies and
retires its FLOAT in order. A WEIR_ARR of the current phase at a member that has released the last one is recorded
once; when all that its node waits for have come the node's own goes to its parent. One of the other phase, or one
withdrawn by a purge, does not count; one at a member that has not yet released is held. A WEIR_REL at a member that
waits for it takes it off those that wait, goes to its children, and retires its WEIR. FLOAT_OP at the home sets the
value, adds one to the count, notifies those below the home in the float's tree, and retires the FLOAT that sent it.
FLOAT_VAL goes on down the tree and is applied in count order: the next one at once, completing a FLOAT that waits for
its value, a later one is held. (R309, R311, R312, R313, R317, R318, R361) -/
def Obligations.WeirAndFloatPacketsComplete : Prop :=
  ∀ (s : State) (t : PT) (p : Packet), p.dst = .tile t → s.reaches t = true → let s0 := s.take p
    let id := p.addr.toNat % 4096
    let ph := p.addr.getLsbD 12
    (∀ u l c, p.src = .tile u → s.hosted t = some l → s.hosted u = some c → let x := weirOf p.part id s
      let e := (l.key, c.key)
      let here := s.runsAt l
      (ph ≠ x.phase → exec (.weirArr p) s = .next s0) ∧
      (ph = x.phase → l ≠ c → e ∈ x.withdrawn → ∃ n, exec (.weirArr p) s = .next n ∧
        weirOf p.part id n = { x with withdrawn := x.withdrawn.erase e } ∧ n.comp.net = s.comp.net.erase p ∧ SameTiles s n) ∧
      (ph = x.phase → (l = c ∨ e ∉ x.withdrawn) → l.key ∈ x.behind → e ∉ x.early → ∃ n, exec (.weirArr p) s = .next n ∧
        weirOf p.part id n = { x with early := x.early ++ [e] } ∧ n.comp.net = s.comp.net.erase p ∧ SameTiles s n) ∧
      (ph = x.phase → (l = c ∨ e ∉ x.withdrawn) → l.key ∉ x.behind → e ∉ x.arrived →
        let x1 : Weir := { x with arrived := x.arrived ++ [e], firstAt := if x.arrived = [] then s.now else x.firstAt }
        let full := x1.arrived.contains (l.key, l.key) && (s.weirKids here id).all fun k => x1.arrived.contains (l.key, k.key)
        (full = false → ∃ n, exec (.weirArr p) s = .next n ∧ weirOf p.part id n = x1 ∧ n.comp.net = s.comp.net.erase p ∧ SameTiles s n) ∧
        (∀ m d, full = true → ((s.weirRow here id).bind fun r => r.parent) = some m → (s.router here).scarf m = some d →
          ∃ n, exec (.weirArr p) s = .next n ∧ weirOf p.part id n = x1 ∧ SameTiles s n ∧
            n.comp.net = s.comp.net.erase p ++ [weirPacket opWeirArr p.part id x.phase here d.1 d.2]) ∧
        (full = true → ((s.weirRow here id).bind fun r => r.parent) = none → (s.frameOf p.part).stepWeir = id →
          ∃ n, exec (.weirArr p) s = .next n ∧ weirOf p.part id n = { x1 with heldAt := some s.now } ∧ SameTiles s n) ∧
        (full = true → ((s.weirRow here id).bind fun r => r.parent) = none → (s.frameOf p.part).stepWeir ≠ id →
          exec (.weirArr p) s = .next ((s0.setWeir p.part id x1).releaseWeir p.part id)))) ∧
    (∀ l, s.hosted t = some l → let x := weirOf p.part id s
      let here := s.runsAt l
      let kids := s.weirKids here id
      (l.key ∈ x.behind → (∀ k ∈ kids, ((s.router here).scarf k).isSome = true) → ∃ n s1, exec (.weirRel p) s = .next n ∧
        s1.comp.net = s.comp.net.erase p ++ kids.filterMap (fun k => ((s.router here).scarf k).map fun d =>
          weirPacket opWeirRel p.part id (!x.phase) here d.1 d.2) ∧
        (weirOf p.part id s1).behind = x.behind.filter (fun k => decide (k ≠ l.key)) ∧
        (weirOf p.part id s1).arrived = x.arrived ++ x.early.filter (fun e => decide (e.1 = l.key)) ∧
        (weirOf p.part id s1).early = x.early.filter (fun e => decide (e.1 ≠ l.key)) ∧ (weirOf p.part id s1).phase = x.phase ∧
        SameTiles s s1 ∧ n = s1.retireWeir here id ∧
        ((s.tile here).s.arrived = true → (s.tile here).uopAt = some (.weir (BitVec.ofNat 12 id)) → (s.tile here).s.seq = .blocked →
          (s.tile here).r.loops = [] → (n.tile here).s.seq = .run ∧ (n.tile here).s.arrived = false ∧
            (n.tile here).s.pc = BitVec.ofNat 10 ((s.tile here).s.pc.toNat + 1) ∧ SameData (s.tile here) (n.tile here))) ∧
      (l.key ∉ x.behind → exec (.weirRel p) s = .next s0)) ∧
    (∀ u, p.src = .tile u → s.hasFloat p.part id = true → let v := decide (p.addr.toNat / 4096 % 4 = 0)
      let home := s.runsAt (s.float p.part id).home
      let below := ((s.floatRow home id).map fun r => r.notify).getD []
      (∀ k ∈ below, ((s.router home).scarf k).isSome = true) →
      ∃ n s1, exec (.floatOp p) s = .next n ∧ n = (if v then s1 else s1.nextFills p.part id).retireFloat u p ∧
        (s1.float p.part id).value = v ∧ (s1.float p.part id).count = (s.float p.part id).count + 1 ∧
        s1.comp.net = s.comp.net.erase p ++ below.filterMap (fun k => ((s.router home).scarf k).map fun d =>
          floatVal p.part id v ((s.float p.part id).count + 1) home d.1 d.2) ∧
        SameTiles s s1 ∧
        (∀ act f, (s.tile u).q.out.any (fun r => decide (r.op = opFloatOp) && decide (r.tag = p.tag)) = true →
          (s.tile u).uopAt = some (.float act f) → act.toNat < 2 → (s.tile u).s.arrived = true → (s.tile u).s.seq = .blocked →
          (s.tile u).r.loops = [] → (n.tile u).s.seq = .run ∧ (n.tile u).s.arrived = false ∧
            (n.tile u).s.pc = BitVec.ofNat 10 ((s.tile u).s.pc.toNat + 1) ∧ SameData (s.tile u) (n.tile u))) ∧
    (∀ l sv sn, s.hosted t = some l → s.shadow p.part id l = some (sv, sn) → let n : BitVec 16 := p.ext.setWidth 16
      let x := s.float p.part id
      let below := if p.src = .tile t then [] else ((s.floatRow t id).map fun r => r.notify).getD []
      let sent := s.comp.net.erase p ++ below.filterMap (fun k => ((s.router t).scarf k).map fun d => floatVal p.part id ph n t d.1 d.2)
      (∀ k ∈ below, ((s.router t).scarf k).isSome = true) →
      (n = sn + 1 → x.early = [] → ∃ r, exec (.floatVal p) s = .next r ∧ r.shadow p.part id l = some (ph, n) ∧
        ((s.tile t).s.seq ≠ .blocked ∨ (s.tile t).r.loops = [] → r.comp.net = sent) ∧
        (∀ v : PT, v.key ≠ t.key → r.tile v = s.tile v) ∧
        (∀ act f, (s.tile t).uopAt = some (.float act f) → f.toNat = id → act.toNat = (if ph then 2 else 3) →
          (s.tile t).s.seq = .blocked → (s.tile t).s.blk = 7 → (s.tile t).s.done = none → (s.tile t).r.loops = [] →
          (r.tile t).s.seq = .run ∧ (r.tile t).s.pc = BitVec.ofNat 10 ((s.tile t).s.pc.toNat + 1) ∧ SameData (s.tile t) (r.tile t)) ∧
        ((s.tile t).s.seq ≠ .blocked → r.tile t = s.tile t)) ∧
      (n ≠ sn + 1 → (n - sn).toNat < 2 ^ 15 → n ≠ sn → ∃ r, exec (.floatVal p) s = .next r ∧ r.comp.net = sent ∧
        (r.float p.part id).early = x.early ++ [(l.key, n, ph)] ∧ r.shadow p.part id l = some (sv, sn) ∧ SameTiles s r))

/-- RIM_WR stores its bytes in HBM and is acknowledged, RIM_RD answers its bytes; poison answers UNCORR, a foreign address
REFUSED. At an HBM stack that is not lost: a write of an assigned range, whose address body flit 0 holds, is carried
out by the merging write and answered WR_ACK; a read of one, of at most 64 bytes, answers its bytes where none is
poisoned, and UNCORR with the partition's recovery where one is. An address not assigned to the packet's partition is
REFUSED, and neither memory nor tiles change. A packet to a lost stack is lost. (R57, R278, R438, R440, R447, R448,
R449) -/
def Obligations.RimTrafficCompletes : Prop :=
  ∀ (s : State) (p : Packet) (k : Nat), p.dst = .hbm k → let s0 := s.take p
    let d := (p.body.drop 1).flatMap fun f => leBytes 16 f.data.toNat
    let pa := rimAddr p
    let n := min p.addr.toNat 64
    (∀ f fs, p.body = f :: fs → pa = f.data.toNat % 2 ^ 48) ∧
    (s.segUp k = false → exec (.rimWr p) s = .next s0 ∧ exec (.rimRd p) s = .next s0 ∧ OnlyNet s s0) ∧
    (s.segUp k = true →
      (s.assigned p.part pa d.length = true →
        exec (.rimWr p) s = .next ((s0.writeRange p.part pa d).2.send (answer p opWrAck p.addr []))) ∧
      (s.assigned p.part pa d.length = false → ∃ n, exec (.rimWr p) s = .next n ∧ OnlyNet s n ∧
        n.comp.net = s.comp.net.erase p ++ [errAnswer p errRefused]) ∧
      (s.assigned p.part pa n = true → let r := s0.readRange p.part pa n
        (r.1.bad = [] → exec (.rimRd p) s = .next (r.2.send (answer p opRdData p.addr (flitsOf (opN n) r.1.data)))) ∧
        (∀ b bs, r.1.bad = b :: bs → exec (.rimRd p) s = .next ((r.2.send (errAnswer p errUncorr)).poisonConsumed p.part b k))) ∧
      (s.assigned p.part pa n = false → ∃ n, exec (.rimRd p) s = .next n ∧ OnlyNet s n ∧
        n.comp.net = s.comp.net.erase p ++ [errAnswer p errRefused]))

/-- A good flit in sequence is acknowledged, buffered and sent on when its packet is whole; a bad or unexpected one is
answered NAK and discarded. On a live link: a flit whose codes check and whose LSEQ is the expected one is
acknowledged with its LSEQ, and the next is expected. It joins the buffer of its VC, whose STOP bit follows the
buffers left free; a single flit that the router can send on leaves on its next hop with that link's LSEQ, and its
credit goes back; at its end it leaves the buffer; with a reserved OP it is dropped, counted and FAB_BAD_OP raised. A
SYNC flit brings 8 resync words with the free buffers. One that fails is answered with a NAK of the LSEQ expected,
once, and until that flit comes all others are dropped in silence. A DOWN link or one at a dark router does nothing.
(Whole packets and the moments of words: log 34.) (R271, R272, R273, R274, R278, R281, R284, R285, R286, R290) -/
def Obligations.LinkReception : Prop :=
  ∀ (s : State) (r : PT) (d : Dir) (f : Flit), let l := s.link r d
    let good := s.linkLive r d = true ∧ f.checks = true ∧ f.lseq = l.rxSeq
    let ack := Output.returnWord r d (ackWord f.lseq false f.vc false)
    (good → (f.ft ≠ 3 ∨ f.data.toNat / 2 ^ 123 ≠ 0x1F) →
      ∃ n, exec (.linkFlitReceive r d f) s = .next (n.forward r) ∧ OnlyRouterOut r s n ∧
        n.link r d = { l with discarding := false, rxSeq := l.rxSeq + 1, bufs := Tab.set [] l.bufs f.vc (Tab.get [] l.bufs f.vc ++ [f]),
                              stopOut := (n.link r d).stopOut } ∧
        (∀ v, v ≠ f.vc → (n.link r d).stopOut.getLsbD v = l.stopOut.getLsbD v) ∧
        (let free := bufferSize r d - ((Tab.get [] l.bufs f.vc).length + 1)
         let lim := stopLimits (bufferSize r d)
         (n.link r d).stopOut.getLsbD f.vc = if free ≤ lim.1 then true else if lim.2 ≤ free then false else l.stopOut.getLsbD f.vc) ∧
        n.out = (match s.senderState r d with
          | .onoff | .resync => [Output.returnWord r d (stopWord (n.link r d).stopOut)]
          | _ => []) ++ ack :: s.out) ∧
    ((∀ i v, v < 8 → cutPacket (s.waiting r i v) = none) → s.forward r = s) ∧
    (good → f.ft = 3 → f.data.toNat / 2 ^ 123 ≠ 0x1F → s.senderState r d = .credit → s.waiting r (some d) f.vc = [] →
      (∀ i v, v < 8 → cutPacket (s.waiting r i v) = none) → let back := Output.returnWord r d (ackWord f.lseq false f.vc true)
      (∀ d2 c, opReserved (f.data.toNat / 2 ^ 123) = false → s.wayOf r f.vc f.data = .go d2 c false → s.maySend r d2 c 1 = true →
        (r.step d2).isSome = true → ∃ n, exec (.linkFlitReceive r d f) s = .next n ∧
          n.out = .meshFlit r d2 (f.onLink c (s.link r d2).txSeq) :: back :: ack :: s.out ∧ n.waiting r (some d) f.vc = [] ∧
          (n.link r d2).txSeq = (s.link r d2).txSeq + 1 ∧ Tab.get 0 (n.link r d2).spent c = Tab.get 0 (s.link r d2).spent c + 1 ∧
          (n.link r d2).replay = (s.link r d2).replay ++ [f.onLink c (s.link r d2).txSeq] ∧ OnlyRouterOut r s n) ∧
      (opReserved (f.data.toNat / 2 ^ 123) = false → s.wayOf r f.vc f.data = .eject → s.comp.net.any (Packet.isOf [f]) = true →
        ∃ n, exec (.linkFlitReceive r d f) s = .next n ∧ n.out = back :: ack :: s.out ∧ n.waiting r (some d) f.vc = [] ∧
          OnlyRouterOut r s n) ∧
      (opReserved (f.data.toNat / 2 ^ 123) = true → recent s.now dayNs (s.router r).badOps = [] →
        ∃ n u, exec (.linkFlitReceive r d f) s = .next n ∧ OnlyRouterOut r s u ∧ u.out = back :: ack :: s.out ∧
          (u.router r).epdisc = BitVec.ofNat 32 (min ((s.router r).epdisc.toNat + 1) 0xFFFFFFFF) ∧
          Signals Ev.fabBadOp (s.bayOwner r.bay) [r.bay, r.col, r.row] u n)) ∧
    (good → f.ft = 3 → f.data.toNat / 2 ^ 123 = 0x1F →
      ∃ n, exec (.sync r d f) s = .next n ∧ n.link r d = { l with discarding := false, rxSeq := l.rxSeq + 1 } ∧
        n.out = ((List.range 8).map fun v => Output.returnWord r d (resyncWord v (bufferSize r d - (Tab.get [] l.bufs v).length))).reverse ++
          .returnWord r d (ackWord f.lseq false f.vc true) :: s.out ∧ OnlyRouterOut r s n) ∧
    (s.linkLive r d = true → (f.checks = false ∨ f.lseq ≠ l.rxSeq) → l.discarding = false →
      ∃ n, exec (.linkFlitReceive r d f) s = .next n ∧ exec (.sync r d f) s = .next n ∧ n.link r d = { l with discarding := true } ∧
        n.out = .returnWord r d (ackWord l.rxSeq true 0 false) :: s.out ∧ OnlyRouterOut r s n) ∧
    (s.linkLive r d = false ∨ (l.discarding = true ∧ f.lseq ≠ l.rxSeq) →
      exec (.linkFlitReceive r d f) s = .next s ∧ exec (.sync r d f) s = .next s)

/-- An acknowledgement empties the replay buffer, a NAK replays it, STOP bits are kept, 8 resync words restore the
credits. On a live link, a word of good parity: an acknowledgement drops the flits up to its ASEQ and returns its VC's
credit; a NAK keeps the flits from its ASEQ, sends them again and counts them as retries, and at the fifth failure of
the first one the link goes DOWN; a stop word sets the STOP bits; the eighth resync word in RESYNC takes the link to
CREDIT with each VC's credits from its FREE; an idle word does nothing. Then the router sends on what it can. A parity
error takes CREDIT to ONOFF and ends a RESYNC; in ONOFF it changes nothing. On a link that is not live a word does
nothing. (R273, R274, R275, R283, R284, R285) -/
def Obligations.ReturnWordsAreTaken : Prop :=
  ∀ (s : State) (r : PT) (d : Dir) (w : BitVec 16),
    (s.linkLive r d = false → exec (.returnWord r d w) s = .next s) ∧
    (s.linkLive r d = true → let l := s.link r d
    let kind := w.toNat / 2 ^ 14
    let aseq : BitVec 6 := w.extractLsb' 8 6
    (parity 16 w.toNat = false →
      (kind = 0 → exec (.returnWord r d w) s = .next (s.forward r)) ∧
      (kind = 1 → w.getLsbD 7 = false → ∃ n, exec (.returnWord r d w) s = .next (n.forward r) ∧
        ((∃ f ∈ l.replay, f.lseq = aseq) → (n.link r d).replay = replayFrom (aseq + 1) l.replay ∧ (n.link r d).fails = 0) ∧
        ((∀ f ∈ l.replay, f.lseq ≠ aseq) → (n.link r d).replay = l.replay ∧ (n.link r d).fails = l.fails) ∧ (n.link r d).st = l.st ∧
        (∀ v, Tab.get 0 (n.link r d).spent v = if v = w.toNat / 16 % 8 ∧ w.getLsbD 3 = true then Tab.get 0 l.spent v - 1 else Tab.get 0 l.spent v) ∧
        n.out = s.out ∧ OnlyRouterOut r s n) ∧
      (kind = 1 → w.getLsbD 7 = true → let again := replayFrom aseq l.replay
        (again ≠ [] → (l.fails ≠ 4 ∨ again.length ≠ l.replay.length) → ∃ n, exec (.returnWord r d w) s = .next (n.forward r) ∧
          (n.link r d).replay = again ∧ n.out = (again.map fun f => Output.meshFlit r d f).reverse ++ s.out ∧
          (n.link r d).fails = (if again.length = l.replay.length then l.fails + 1 else 1) ∧
          (n.router r).retry = BitVec.ofNat 16 (min ((s.router r).retry.toNat + again.length) 0xFFFF) ∧ OnlyRouterOut r s n) ∧
        (again ≠ [] → l.fails = 4 → again.length = l.replay.length →
          exec (.returnWord r d w) s = .next ((s.takeDown r d).forward r)) ∧
        (again = [] → exec (.returnWord r d w) s = .next (s.forward r))) ∧
      (kind = 2 → ∃ n, exec (.returnWord r d w) s = .next (n.forward r) ∧ n.link r d = { l with stop := w.extractLsb' 6 8 } ∧
        n.out = s.out ∧ OnlyRouterOut r s n) ∧
      (kind = 3 → l.st = .resync → let vc := w.toNat / 2 ^ 11 % 8
        let got := (l.resyncGot.filter fun g => decide (g.1 ≠ vc)) ++ [(vc, w.toNat / 16 % 128)]
        (got.length = 8 → ∃ n, exec (.returnWord r d w) s = .next (n.forward r) ∧ (n.link r d).st = .credit ∧ (n.link r d).rsFails = 0 ∧
          (n.link r d).slow = false ∧ ((got.map (·.1)).Nodup → ∀ g ∈ got, Tab.get 0 (n.link r d).spent g.1 = bufferSize r d - g.2) ∧
          n.out = s.out ∧ OnlyRouterOut r s n) ∧
        (got.length ≠ 8 → ∃ n, exec (.returnWord r d w) s = .next (n.forward r) ∧ n.link r d = { l with resyncGot := got } ∧
          OnlyRouterOut r s n)) ∧
      (kind = 3 → l.st ≠ .resync → exec (.returnWord r d w) s = .next (s.forward r))) ∧
    (parity 16 w.toNat = true →
      (l.st = .credit → ∃ n, exec (.returnWord r d w) s = .next n ∧ n.link r d = { l with st := .onoff, resyncGot := [] } ∧
        (n.router r).onoff = BitVec.ofNat 16 (min ((s.router r).onoff.toNat + 1) 0xFFFF) ∧ OnlyRouterOut r s n) ∧
      (l.st = .resync → exec (.returnWord r d w) s = .next (s.resyncFail r d)) ∧ (l.st = .onoff → exec (.returnWord r d w) s = .next s)))

/-- Link timers follow the state table; a good retest brings a DOWN link back in ONOFF at both ends; the clears zero their
counts. On a live link: without an acknowledgement CREDIT goes to ONOFF, counted. A clean ONOFF goes to RESYNC with a
SYNC flit sent, and so does the retry of a link that has failed four times, 1 ms later. A RESYNC that does not
complete goes to ONOFF, counted; the fourth failure raises FAB_RESYNC_FAIL. A good retest of a DOWN link that nothing
fences puts both ends in ONOFF. FAB_CTL.CLR zeroes the router's counts, PRT_CTL.FAB_CLR makes the partition's sums and
its weir count read 0 (log 125), and no other field. (R283, R285, R328, R329, R550) -/
def Obligations.LinkTimersMoveTheStateTable : Prop :=
  ∀ (s : State) (r : PT) (d : Dir), let l := s.link r d
    let synced (f : Flit) : Link := { l with
      st := .resync, resyncGot := [], txSeq := l.txSeq + 1, replay := l.replay ++ [f], spent := Tab.set 0 l.spent 6 (Tab.get 0 l.spent 6 + 1) }
    let isSync (f : Flit) : Prop := f.lseq = l.txSeq ∧ f.vc = 6 ∧ f.ft = 3 ∧ f.data.toNat / 2 ^ 123 = 0x1F
    (s.linkLive r d = true →
      (l.st = .credit → ∃ n, exec (.linkAckTimeout r d) s = .next n ∧ n.link r d = { l with st := .onoff, resyncGot := [] } ∧
        (n.router r).onoff = BitVec.ofNat 16 (min ((s.router r).onoff.toNat + 1) 0xFFFF) ∧ n.out = s.out ∧ OnlyRouterOut r s n) ∧
      (l.st = .onoff → s.bridgeHeld r d = false → l.slow = false → ∃ n f, exec (.linkOnoffExpire r d) s = .next n ∧
        n.link r d = synced f ∧ isSync f ∧ n.out = .meshFlit r d f :: s.out ∧ OnlyRouterOut r s n) ∧
      (l.st = .onoff → s.bridgeHeld r d = false → l.slow = true → ∃ n f, exec (.linkResyncRetry r d) s = .next n ∧
        n.link r d = synced f ∧ isSync f ∧ n.out = .meshFlit r d f :: s.out ∧ n.tide = (s.pass 1000000).tide) ∧
      (l.st = .resync → l.rsFails ≠ 3 → ∃ n, exec (.linkResyncTimeout r d) s = .next n ∧
        n.link r d = { l with st := .onoff, resyncGot := [], rsFails := l.rsFails + 1, slow := l.slow || decide (4 ≤ l.rsFails + 1) } ∧
        (n.router r).rsfail = BitVec.ofNat 16 (min ((s.router r).rsfail.toNat + 1) 0xFFFF) ∧ OnlyRouterOut r s n) ∧
      (l.st = .resync → l.rsFails = 3 → ∃ n u, exec (.linkResyncTimeout r d) s = .next n ∧ OnlyRouterOut r s u ∧
        (u.link r d).st = .onoff ∧ (u.link r d).slow = true ∧
        Signals Ev.fabResyncFail (s.bayOwner r.bay) [r.bay, r.col, r.row, d.key] u n)) ∧
    (∀ u, r.step d = some u → r.key ≠ u.key → l.st = .down → s.isFenced 3 (linkId r d) = false →
      s.routerDark r = false → s.routerDark u = false →
      ∃ n, exec (.linkRetest r d true) s = .next (n.forward r) ∧ (n.link r d).st = .onoff ∧ (n.link u d.back).st = .onoff ∧
        (n.link r d).replay = [] ∧ (n.link r d).rxSeq = 0 ∧ n.regs = s.regs ∧ n.out = s.out ∧ SameTiles s n) ∧
    (exec (.linkRetest r d false) s = .next s) ∧
    (∃ n, exec (.fabCtlClr r) s = .next n ∧ OnlyRouter r s n ∧
      n.router r = { s.router r with retry := 0, onoff := 0, rsfail := 0, epdisc := 0, divert := 0 }) ∧
    (∀ p, 1 ≤ p → p ≤ 8 → ∃ n, exec (.prtFabClr p) s = .next n ∧
      ((s.fabSums p).1 < 2 ^ 32 → (s.fabSums p).2 < 2 ^ 32 → n.fabCnt p = 0) ∧ n.field (Reg.prtWeirStat p) 63 32 = 0 ∧
      n.field (Reg.prtWeirStat p) 31 0 = s.field (Reg.prtWeirStat p) 31 0 ∧ OnlyRegs [Reg.prtFabCnt p, Reg.prtWeirStat p] s n)

/-- GO in boundary or immediate mode closes the inlets, purge empties at once; drained, stuck and reopened follow the
table. Outside APPLYING, for an OPEN region of an applied Frame: boundary and immediate go to CLOSING with one CLOSE
to each inlet's producer, or to EMPTYING without inlets. Purge goes to PURGING and closes; each of its tiles is reset,
its queues emptied, and the entries discarded counted. At a limit a CLOSING or EMPTYING region is STUCK with
DRAIN_TIMEOUT; an unanswered close is taken as returned. A region whose recalls are confirmed and whose tiles are
quiet, or whose purge is done, is DRAINED with its bit, its status and REGION_DRAINED (past DRAIN_LIMIT it is STUCK
first). REOPEN of a DRAINED region opens it and clears its bit. (R152, R200, R201, R203, R204, R206, R207, R208, R214,
R523) -/
def Obligations.DrainsMoveTheRegion : Prop :=
  ∀ (s : State) (p r : Nat), let x := s.region p r
    let ins := (s.frameOf p).inlets r
    (s.applying p = false → (s.part p).own.frame.isSome = true →
      (∀ c m, (c, m) ∈ [(Instr.drainBoundary p r, DrainMode.boundary), (Instr.drainImmediate p r, DrainMode.immediate)] →
        (x.st = .opened → ins ≠ [] → (∀ b ∈ ins, (s.prodOf p b).isSome = true) → ∃ n l, exec c s = .next n ∧
          n.region p r = { st := .closing, mode := m, goAt := s.now } ∧ n.comp.net = s.comp.net ++ l ∧ l.length = ins.length ∧
          (∀ pk ∈ l, pk.op = opClose ∧ pk.part = p) ∧ n.regs = s.regs ∧ (n.part p).run.selRegion = r) ∧
        (x.st = .opened → ins = [] → ∃ n, exec c s = .next n ∧ n.region p r = { st := .emptying, mode := m, goAt := s.now } ∧
          n.comp.net = s.comp.net ∧ n.regs = s.regs ∧ SameTiles s n) ∧
        (x.st ≠ .opened → ∃ n, exec c s = .next n ∧ n.region p r = x ∧ SameTiles s n)) ∧
      (x.st = .opened ∨ x.st = .closing ∨ x.st = .emptying ∨ x.st = .stuck → ∃ u,
        exec (.drainPurge p r) s = .next ((ins.foldl (fun s b => s.closeInlet p true b) u).purgeTiles p r) ∧ u.region p r = { st := .purging, mode := .purge, goAt := s.now } ∧ u.comp.net = s.comp.net ∧
        u.regs = s.regs ∧ SameTiles s u) ∧
      (x.st = .drained → ∃ n u, exec (.reopen p r) s = .next (n.maybeBegin p) ∧ (u.region p r).st = .opened ∧
        u.field (Reg.prtDrainedk p (r / 64)) (r % 64) (r % 64) = 0 ∧ SameTiles s u ∧
        n = (u.restoreQueues p ins).refreshShadows p r) ∧
      (x.st ≠ .drained → (s.part p).commit.begun = true → ∃ n, exec (.reopen p r) s = .next n ∧ n.region p r = x ∧ SameTiles s n)) ∧
    (x.st = .closing ∨ x.st = .emptying → ∃ n u, exec (.drainTimeout p r) s = .next n ∧ (u.region p r).st = .stuck ∧ SameTiles s u ∧
      u.regs = s.regs ∧ (x.goAt + max 1 (s.field (Reg.prtFlowcfg p) 47 32) * 1000 < 2 ^ 64 →
        x.goAt + max 1 (s.field (Reg.prtFlowcfg p) 47 32) * 1000 ≤ u.now) ∧
      Signals Ev.drainTimeout p [p, r, u.notQuiet p r] u n) ∧
    (s.inletsConfirmed p r = true →
      (x.st = .purging ∨ ((x.st = .stuck ∨ x.st = .emptying ∧ s.now < s.drainLimit p r) ∧ s.notQuiet p r = 0)) →
      ∃ n u, exec (.regionDrained p r) s = .next n ∧ u.region p r = { x with st := .drained } ∧
        u.field (Reg.prtDrainedk p (r / 64)) (r % 64) (r % 64) = 1 ∧ SameTiles s u ∧
        OnlyRegs [Reg.prtDrainedk p (r / 64), Reg.prtDrainStat p] { s with comp := u.comp } u ∧
        Signals Ev.regionDrained p [p, r, x.mode.code, min ((s.now - x.goAt) / 1000) 0xFFFF] u n) ∧
    (s.inletsConfirmed p r = true → x.st = .emptying → s.drainLimit p r ≤ s.now → s.notQuiet p r = 0 →
      exec (.regionDrained p r) s = .next ((s.stick p r).enterDrained p r)) ∧
    ((x.st = .closing ∨ x.st = .emptying → s.now < s.drainLimit p r) →
      s.inletsConfirmed p r = false ∨ ((x.st = .emptying ∨ x.st = .stuck) ∧ s.notQuiet p r ≠ 0) ∨ x.st = .opened ∨ x.st = .closing ∨
        x.st = .drained → exec (.regionDrained p r) s = .next s) ∧
    (∀ (c : LT) (q : Nat) (b : QueueRec), (s.frameOf p).queues = [b] → b.t = c → b.q = q → b.inlet = true → (s.frameOf p).regionOf c = r →
      x.st = .purging → ((s.tile (s.runsAt c)).queue q).confirmed = false → ((s.tile (s.runsAt c)).queue q).recalled = none →
      ∃ n, exec (.closeNoAnswer p c q) s = .next n ∧ ((n.tile (s.runsAt c)).queue q).confirmed = true ∧
        ((n.tile (s.runsAt c)).queue q).closed = true ∧ n.regs = s.regs) ∧
    (∀ t : PT, (s.tile t).s.seq ≠ .off →
      let n := (s.cycleTile t).emptyQueues p t
      let gone := (s.tile t).queues.foldl (fun n kq => n + kq.2.held) 0
      (n.tile t).s.seq = (if s.tileFenced t then .reset else .idle) ∧ (n.tile t).amTag = 0 ∧ (n.tile t).pmTag = 0 ∧
      (n.tile t).r.loops = [] ∧ (n.tile t).q.parked = [] ∧ (∀ kq ∈ (n.tile t).queues, kq.2.held = 0) ∧
      (n.tile t).mem = (s.tile t).mem ∧ (n.tile t).r.v = (s.tile t).r.v ∧
      n.field (Reg.prtFlowDiscard p) 31 0 = min (s.field (Reg.prtFlowDiscard p) 31 0 + gone) (2 ^ 32 - 1) ∧
      (∀ v : PT, v.key ≠ t.key → n.tile v = s.tile v))

/-- Spill and refill move the oldest entries out and back in order; a gateway streams its token and its tensor as credits
allow. On a stalled tile SPILL spills each queue with 16 entries. Spilling a queue moves its oldest entries, the
segment first, then one chunk, within SPILL_QMAX; read together (segment, chunks, storage) the queue is as before;
events and entries are counted; an entry whose word is uncorrectable is not spilled. A basin write commits the oldest
chunk that is not. REFILL of a committed chunk that fits moves it behind the segment. The FLOW_CLR actions zero their
counts, or set the peak to the chunks in use. A triggered gateway that is not held takes one trigger, sends to the
host and epoch of the full map its start token where START is set, then the next entries of the tensor as credits
allow, and ends after the last; without a trigger it sends nothing. (R167, R168, R187, R188, R189, R190, R193, R196,
R197, R214, R240, R296) -/
def Obligations.SpillRefillAndStream : Prop :=
  (∀ (s : State) (t : PT), s.phys.power.halted = false → (s.tile t).stallCond = true → s.field (Reg.prtFlowcfg (s.ptPart t)) 15 0 ≠ 0 →
    (s.passTo (s.stallDue t)).stalled t = true →
    exec (.spill t) s = .next ((((List.range 8).foldl (fun s q => if 16 ≤ ((s.tile t).queue q).depth then s.spillQueue t q else s)
      (s.passTo (s.stallDue t))).modTile t fun x => { x with s := { x.s with stall := 0, stallSince := none } }).restall t)) ∧
  (∀ (s : State) (t : PT) (q c : Nat), let qu := (s.tile t).queue q
    let n := s.spillCount t q
    let a := min n qu.cells
    qu.spilled + n ≤ s.field (Reg.prtFlowcfg (s.ptPart t)) 31 16 → n ≠ 0 → n ≤ qu.fifo.length → s.freeChunk (s.ptPart t) = some c →
    (∀ w, ((s.tile t).checked fun w => (List.range n).any fun i => (queueWords q (qu.place i)).contains w) = .error w →
      s.spillQueue t q = s.sramUncorr t w) ∧
    ∀ x, ((s.tile t).checked fun w => (List.range n).any fun i => (queueWords q (qu.place i)).contains w) = .ok x →
    let r := s.spillQueue t q
    let qn := (r.tile t).queue q
    qn.seg = qu.seg ++ qu.fifo.take a ∧ qn.fifo = qu.fifo.drop n ∧
    qn.chunks = qu.chunks ++ (if n = a then [] else [{ num := c, entries := (qu.fifo.take n).drop a, committed := false }]) ∧
    (qu.chunks = [] → qn.seg ++ (qn.chunks.flatMap fun c => c.entries) ++ qn.fifo = qu.seg ++ qu.fifo) ∧
    (x.c = (s.tile t).c →
      r.field (Reg.prtSpillEvents (s.ptPart t)) 31 0 = min (s.field (Reg.prtSpillEvents (s.ptPart t)) 31 0 + 1) (2 ^ 32 - 1)) ∧
    (r.tile t).mem = (s.tile t).mem ∧ (r.tile t).r = (s.tile t).r ∧ (∀ v : PT, v.key ≠ t.key → r.tile v = s.tile v)) ∧
  (∀ (s : State) (t : PT) (q : Nat) (c : Chunk) (r : List Chunk), ((s.tile t).queue q).chunks = c :: r → c.committed = false → c ∉ r →
    ∃ n, exec (.spillBasinDone t q) s = .next n ∧ ((n.tile t).queue q).chunks = { c with committed := true } :: r ∧
      ((n.tile t).queue q).fifo = ((s.tile t).queue q).fifo ∧ ((n.tile t).queue q).seg = ((s.tile t).queue q).seg) ∧
  (∀ (s : State) (t : PT) (q : Nat) (c : Chunk) (r : List Chunk) (al : Alloc), let qu := (s.tile t).queue q
    qu.chunks = c :: r → c.committed = true → qu.seg.length + c.entries.length ≤ 15 → s.alloc (s.ptPart t) basinAllocKey = some al →
    (s.readRange (s.ptPart t) (al.base + 256 * c.num) 256).1.bad = [] →
    ∃ n, exec (.refill t q) s = .next n ∧ ((n.tile t).queue q).seg = qu.seg ++ c.entries ∧ ((n.tile t).queue q).chunks = r ∧
      ((n.tile t).queue q).fifo = qu.fifo) ∧
  (∀ (s : State) (p : Nat),
    (∃ n, exec (.flowClrDiscard p) s = .next n ∧ n.reg (Reg.prtFlowDiscard p) = 0 ∧ OnlyRegs [Reg.prtFlowDiscard p] s n) ∧
    (∃ n, exec (.flowClrPeak p) s = .next n ∧ n.field (Reg.prtBasinUse p) 63 32 = (s.chunksOf p).length % 2 ^ 32 ∧
      n.field (Reg.prtBasinUse p) 31 0 = s.field (Reg.prtBasinUse p) 31 0 ∧ OnlyRegs [Reg.prtBasinUse p] s n) ∧
    (∃ n, exec (.flowClrSpill p) s = .next n ∧ n.reg (Reg.prtSpillEvents p) = 0 ∧ n.reg (Reg.prtSpillEntries p) = 0 ∧
      OnlyRegs [Reg.prtSpillEvents p, Reg.prtSpillEntries p] s n)) ∧
  (∀ (s : State) (p : Nat) (c : LT) (q tid : Nat) (b : QueueRec) (a : Alloc) (te : TensorRec) (d : PT × Bool), (s.frameOf p).queues = [b] → b.t = c → b.q = q →
    b.prod = .gateway tid → s.mapOf p c = some d → let g := s.gateway p (gwKey c q)
    (g.prod.held = true ∨ (g.pos = none ∧ g.triggers = 0) → exec (.gatewayStream p c q) s = .next s) ∧
    (g.prod.held = false → (g.pos ≠ none ∨ g.triggers ≠ 0) → s.phys.power.halted = false → g.prod.credits = 0 →
      s.alloc p tid = some a → (s.frameOf p).tensor tid = some te → (b.start = false ∨ g.pos ≠ none ∧ g.started = true) →
      0 < tensorBytes te → g.pos.getD 0 < (tensorBytes te + 15) / 16 →
      ∃ n, exec (.gatewayStream p c q) s = .next n ∧ n.comp.net = s.comp.net ∧ (n.gateway p (gwKey c q)).pos = some (g.pos.getD 0) ∧
        (n.gateway p (gwKey c q)).triggers = (if g.pos = none then g.triggers - 1 else g.triggers)) ∧
    (g.prod.held = false → g.pos = none → g.triggers ≠ 0 → s.phys.power.halted = false → g.prod.credits = 1 → b.start = true →
      s.alloc p tid = some a → (s.frameOf p).tensor tid = some te → 0 < tensorBytes te →
      ∃ n pk, exec (.gatewayStream p c q) s = .next n ∧ n.comp.net = s.comp.net ++ [pk] ∧ pk.op = opQsend ∧ pk.dst = .tile d.1 ∧ pk.ep = d.2 ∧
        pk.seq = g.prod.seq ∧ pk.body.length = 1 ∧ (∀ f ∈ pk.body, f.tok = true ∧ f.data.toNat % 8 = 0) ∧
        (n.gateway p (gwKey c q)).prod.credits = 0 ∧ (n.gateway p (gwKey c q)).triggers = g.triggers - 1) ∧
    (∀ k, g.prod.held = false → g.pos = some k → g.started = true → s.phys.power.halted = false → 1 ≤ g.prod.credits → g.prod.credits ≤ 4 →
      g.prod.credits ≤ (tensorBytes te + 15) / 16 - k → s.alloc p tid = some a → (s.frameOf p).tensor tid = some te →
      let rd := (s.setGateway p (gwKey c q) g).readRange p (a.base + 16 * k) (min (16 * g.prod.credits) (tensorBytes te - 16 * k))
      rd.1.bad = [] → ∃ n pk, exec (.gatewayStream p c q) s = .next n ∧ n.comp.net = rd.2.comp.net ++ [pk] ∧ pk.op = opQsend ∧
        pk.dst = .tile d.1 ∧ pk.ep = d.2 ∧ pk.seq = g.prod.seq ∧ pk.body = flitsOf g.prod.credits rd.1.data ∧
        (n.gateway p (gwKey c q)).prod.credits = 0 ∧
        (n.gateway p (gwKey c q)).pos = if k + g.prod.credits = (tensorBytes te + 15) / 16 then none else some (k + g.prod.credits)))

/-- Each statistics clear zeroes the counts that its register map names and changes no other register, tile or memory.
PRT_CTL.DET_CLR, PRT_PLN_CLR, PLN_ECTL.CLR, HBM_CTL.CLR, PRT_HBM_CLR, FLT_CTL.CLR, HST_CTL.CLR, PWR_CTL.CLR,
CLK_CTL.CLR, TIDE_CTL.CLR, STL_CTL.CLR, GRN_CTL.CLR and JNR_STRCLR set to zero the registers or fields given here and
leave the rest of those registers and every other one. SIL_PWRCTL.CLR empties the bay's droop count and takes its
array voltage as the lowest; what its margins then read is open (log 91). (R328, R430, R459, R460, R545, R581, R633,
R678, R717, R763, R837) -/
def Obligations.ClearActionsZeroTheirCounts : Prop :=
  ∀ s : State,
    (∀ p, ∃ n, exec (.prtDetClr p) s = .next n ∧ n.reg (Reg.prtDetCnt p) = 0 ∧ OnlyRegs [Reg.prtDetCnt p] s n) ∧
    (∀ p, 1 ≤ p → p ≤ 8 → ∃ n, exec (.prtPlnClr p) s = .next n ∧ n.reg (Reg.prtPlnCnt p) = 0 ∧ n.field (Reg.plnStepstat p) 3 1 = 0 ∧
      n.field (Reg.plnStepstat p) 63 4 = s.field (Reg.plnStepstat p) 63 4 ∧ n.field (Reg.plnStepstat p) 0 0 = s.field (Reg.plnStepstat p) 0 0 ∧
      OnlyRegs [Reg.prtPlnCnt p, Reg.plnStepstat p] s n) ∧
    (∀ e, ∃ n, exec (.plnEctlClr e) s = .next n ∧ n.reg (Reg.plnEcnt e) = 0 ∧ OnlyRegs [Reg.plnEcnt e] s n) ∧
    (∀ k, ∃ n, exec (.hbmCtlClr k) s = .next n ∧ n.reg (Reg.hbmErrcnt k) = 0 ∧ n.reg (Reg.hbmErrcnt2 k) = 0 ∧ n.reg (Reg.hbmElog0 k) = 0 ∧
      OnlyRegs [Reg.hbmErrcnt k, Reg.hbmErrcnt2 k, Reg.hbmElog0 k] s n) ∧
    (∀ p, ∃ n, exec (.prtHbmClr p) s = .next n ∧ n.reg (Reg.prtHbmPoison p) = 0 ∧ OnlyRegs [Reg.prtHbmPoison p] s n) ∧
    (∃ n, exec .fltCtlClr s = .next n ∧ n.reg Reg.fltRecov = 0 ∧ OnlyRegs [Reg.fltRecov] s n) ∧
    (∃ n, exec .hstCtlClr s = .next n ∧ n.reg Reg.hstLinkcnt = 0 ∧ (∀ f, f ≤ 8 → n.reg (Reg.hstFuncstat f) = 0) ∧
      OnlyRegs (Reg.hstLinkcnt :: funcs.map Reg.hstFuncstat) s n) ∧
    (∃ n, exec .pwrCtlClr s = .next n ∧ n.reg Reg.pwrCnt = 0 ∧ n.field Reg.pwrExc 63 32 = 0 ∧ n.field Reg.pwrExc 31 0 = s.field Reg.pwrExc 31 0 ∧
      OnlyRegs [Reg.pwrCnt, Reg.pwrExc] s n) ∧
    (∃ n, exec .clkCtlClr s = .next n ∧ n.reg Reg.clkCnt = 0 ∧ n.field Reg.clkHstat 63 48 = 0 ∧ n.field Reg.clkStat 47 32 = 0 ∧
      n.field Reg.clkHstat 47 0 = s.field Reg.clkHstat 47 0 ∧ n.field Reg.clkStat 31 0 = s.field Reg.clkStat 31 0 ∧
      OnlyRegs [Reg.clkCnt, Reg.clkHstat, Reg.clkStat] s n) ∧
    (∃ n, exec .tideCtlClr s = .next n ∧ n.field Reg.tideSync 63 32 = 0 ∧ n.field Reg.tideStat 47 32 = 0 ∧
      n.field Reg.tideSync 31 0 = s.field Reg.tideSync 31 0 ∧ n.field Reg.tideStat 31 0 = s.field Reg.tideStat 31 0 ∧
      n.field Reg.tideStat 63 48 = s.field Reg.tideStat 63 48 ∧ OnlyRegs [Reg.tideSync, Reg.tideStat] s n) ∧
    (∀ p, ∃ n, exec (.stlCtlClr p) s = .next n ∧ n.reg (Reg.stlLinkcnt p) = 0 ∧ n.reg (Reg.stlPktcnt p) = 0 ∧
      OnlyRegs [Reg.stlLinkcnt p, Reg.stlPktcnt p] s n) ∧
    (∃ n, exec .grnCtlClr s = .next n ∧ n.field Reg.grnStat 63 32 = 0 ∧ n.field Reg.grnStat 31 0 = s.field Reg.grnStat 31 0 ∧
      OnlyRegs [Reg.grnStat] s n) ∧
    (∀ v : Word, ∃ n, exec (.jnrStrclr v) s = .next n ∧
      (v.getLsbD 16 = false → n.sport (fieldOf v 15 0 / 32) = (s.sport (fieldOf v 15 0 / 32)).clear ∧
        ∀ e, e ≠ fieldOf v 15 0 / 32 → n.sport e = s.sport e) ∧
      (v.getLsbD 16 = true → ∀ e, (n.sport e).streams = []) ∧
      n = { s with man := { s.man with ports := n.man.ports } }) ∧
    (∀ b, ∃ n, exec (.silPwrctlClr b) s = .next n ∧ (n.bay b).droops = 0 ∧ (n.bay b).vmin = (s.bay b).volts ∧
      OnlyBay b { s with free := n.free } n)

/-- A complete record in order is accepted, a bad one rejected; NOP, KEY_LOAD and FENCE_WITHDRAW take effect and complete.
COMMAND_RECORD takes the full slot NEXT, empties it and, where CRC and sequence agree and the opcode is known, adds it
to the commands in progress and advances NEXT; else it completes with its reason and changes no NEXT. A NOP at the
head completes OK: where the log has room one entry is written at TAIL, which advances, and the command is in progress
no more. KEY_LOAD fills or empties its slot; FENCE_WITHDRAW records the withdrawal, which marks the field entry once
the record commits, and says whether it was found. Those two, PART_CREATE and PART_DELETE wait their turn, and only
PF0 may give them. (R602, R603, R604, R605, R606, R607, R609, R610, R612, R613, R617, R618) -/
def Obligations.CommandsAreTakenAndCompleted : Prop :=
  (∀ (s : State) (f : Nat), let next := s.field (Reg.hstCmdstat f) 63 32
    let x := Tab.get Slot.reset (s.func f).slots (next % 16384)
    f ≤ 8 → x.mask = 0xFFFF → s.logRoom f .completion = true → s.man.boot.st = .ready →
    (crc32c (x.data.take 0x3C) = leAt x.data 0x3C 4 → leAt x.data 0 4 = next → opcodes.contains x.cmd.opcode.toNat = true →
      ∃ n, exec (.commandRecord f) s = .next n ∧ n.field (Reg.hstCmdstat f) 63 32 = (next + 1) % 2 ^ 32 ∧
        (n.func f).inflight = (s.func f).inflight ++ [x.cmd] ∧ Tab.get Slot.reset (n.func f).slots (next % 16384) = Slot.reset ∧
        (∀ i, i ≠ next % 16384 → Tab.get Slot.reset (n.func f).slots i = Tab.get Slot.reset (s.func f).slots i) ∧
        OnlyRegs [Reg.hstCmdstat f] { s with host := n.host } n) ∧
    (crc32c (x.data.take 0x3C) ≠ leAt x.data 0x3C 4 → ∃ u : State, exec (.commandRecord f) s = .next (u.rejectRecord f .rejCrc 0) ∧
      Tab.get Slot.reset (u.func f).slots (next % 16384) = Slot.reset ∧ u = { s with host := u.host }) ∧
    (crc32c (x.data.take 0x3C) = leAt x.data 0x3C 4 → leAt x.data 0 4 ≠ next →
      ∃ u : State, exec (.commandRecord f) s = .next (u.rejectRecord f .rejSeq (leAt x.data 0 4)) ∧ u = { s with host := u.host })) ∧
  (∀ (s : State) (f : Nat) (seq : Dword) (c : Cmd), s.command f seq 0x0001 = some c → ((s.func f).inflight.head?.map fun d => d.seq) = some seq →
    c.tidy [] = true → s.canComplete f = true → (s.func f).waiting = [] → c.irq = false → f ≤ 8 →
    let t := s.field (Reg.hstClogTail f) 15 0
    let a := 4096 * fieldOf (s.reg (Reg.hstClogBase f)) 63 12 + 32 * t
    s.dmaOk f a 32 = true →
    ∃ n, exec (.nopCommand f seq) s = .next n ∧
      n.out = .hostWrite f a (withPhase (completionEntry c.seq.toNat c.opcode.toNat 0 c.tag.toNat 0 s.now)
        ((s.reg (Reg.hstClogTail f)).getLsbD 16)) false :: s.out ∧
      n.field (Reg.hstClogTail f) 15 0 = (t + 1) % s.logSize f .completion % 2 ^ 16 ∧
      (∀ d ∈ (n.func f).inflight, d.seq ≠ c.seq) ∧ (n.func f).waiting = [] ∧ n.comp = s.comp ∧ n.phys = s.phys ∧ n.man = s.man) ∧
  (∀ (s : State) (seq : Dword) (h : HostOutcome) (c : Cmd), s.command 0 seq 0x0103 = some c → s.inTurn 0 moduleCommands c = true →
    c.tidy [(0x10, 1), (0x11, 1), (0x18, 8)] = true →
    c.at 0x10 1 ≤ 7 →
    (c.at 0x11 1 = 1 → ∃ u : State, exec (.keyLoad 0 seq h) s = .next (u.complete 0 c .ok 0) ∧ Tab.get none u.host.keys (c.at 0x10 1) = none ∧
      (∀ k, k ≠ c.at 0x10 1 → Tab.get none u.host.keys k = Tab.get none s.host.keys k) ∧
      u.field Reg.prtKeystat (c.at 0x10 1) (c.at 0x10 1) = 0) ∧
    (∀ d, c.at 0x11 1 = 0 → s.dmaOk 0 (c.at 0x18 8) 96 = true → h = .good d → p384Point (padTo 96 d) = true →
      ∃ u : State, exec (.keyLoad 0 seq h) s = .next (u.complete 0 c .ok 0) ∧ Tab.get none u.host.keys (c.at 0x10 1) = some (padTo 96 d) ∧
        u.field Reg.prtKeystat (c.at 0x10 1) (c.at 0x10 1) = 1)) ∧
  (∀ (s : State) (seq : Dword) (c : Cmd), s.command 0 seq 0x0104 = some c → s.inTurn 0 moduleCommands c = true → c.tidy [(0x10, 1), (0x14, 4)] = true →
    1 ≤ c.at 0x10 1 → c.at 0x10 1 ≤ 4 → let hit (e : Fence) : Bool := decide (e.kind = c.at 0x10 1) && decide (e.id = c.at 0x14 4) && e.field
    ∃ u : State, exec (.fenceWithdraw 0 seq) s = .next (u.complete 0 c .ok (flag (s.comp.fences.any hit))) ∧
      u.comp.fences = s.comp.fences ∧
      (∃ r, r.type = 0x0031 ∧ u.man.grain.waiting = s.man.grain.waiting ++ [r] ∧
        u.comp.pubs = s.comp.pubs ++ [{ part := 0, recs := [r], before := [], what := some (.withdraw (c.at 0x10 1) (c.at 0x14 4)) }]) ∧
      (s.makeKnown (.withdraw (c.at 0x10 1) (c.at 0x14 4))).comp.fences = s.comp.fences.map (fun e => if hit e then { e with withdrawn := true } else e) ∧
      u.regs = s.regs ∧ SameTiles s u) ∧
  (∀ (s : State) (f : Nat) (seq : Dword) (h : HostOutcome) (c : Cmd), f ≠ 0 → s.inTurn f moduleCommands c = true →
    (s.command f seq 0x0103 = some c → exec (.keyLoad f seq h) s = .next (s.complete f c .denied 0)) ∧
    (s.command f seq 0x0104 = some c → exec (.fenceWithdraw f seq) s = .next (s.complete f c .denied 0)) ∧
    (s.command f seq 0x0101 = some c → exec (.partCreate f seq h) s = .next (s.complete f c .denied 0)) ∧
    (s.command f seq 0x0102 = some c → exec (.partDelete f seq) s = .next (s.complete f c .denied 0)))
  ∧ (∀ (s : State) (f : Nat) (seq : Dword) (h : HostOutcome) (c : Cmd), s.inTurn f moduleCommands c = false →
    (s.command f seq 0x0103 = some c → exec (.keyLoad f seq h) s = .next s) ∧ (s.command f seq 0x0104 = some c → exec (.fenceWithdraw f seq) s = .next s) ∧
    (s.command f seq 0x0101 = some c → exec (.partCreate f seq h) s = .next s) ∧ (s.command f seq 0x0102 = some c → exec (.partDelete f seq) s = .next s))

/-- Partitions are created and deleted, Frames checked and applied, gateways run and armed, flumes copy, and each command
completes. PART_CREATE with an admissible descriptor gives the bays, flumes and regions it lists to the partition,
which then exists; PART_DELETE ends it and frees them. FRAME_CHECK of a Frame that passes completes OK and changes no
Frame; FRAME_APPLY applies it and completes OK, or FAILED with the step. An application waits for a dry fit or a halt.
REMAP recovers and completes with its count. GATE_RUN triggers its tensor; GATE_ARM sets the schedule in TID order.
FLUME_COPY queues; at its end the bytes have moved and it completes. (R255, R257, R259, R263, R563, R597, R599, R600,
R611, R615, R616, R622) -/
def Obligations.PartitionAndWorkCommandsComplete : Prop :=
  (∀ (s : State) (seq : Dword) (d : List Byte) (c : Cmd), s.command 0 seq 0x0101 = some c → c.tidy [(0x10, 1), (0x18, 8)] = true →
    let p := c.at 0x10 1
    s.inTurn 0 moduleCommands c = true → 1 ≤ p → p ≤ 8 → s.partExists p = false → s.dmaOk 0 (c.at 0x18 8) 128 = true →
    let r := s.createPart p (padTo 128 d)
    (r.1 = none → exec (.partCreate 0 seq (.good d)) s = .next (r.2.complete 0 c .ok 0)) ∧
    (∀ w, r.1 = some w → exec (.partCreate 0 seq (.good d)) s = .next (r.2.complete 0 c .failed w)) ∧
    (s.descReason (padTo 128 d) = 0 → s.comp.hosts = [] → s.comp.fences = [] → r.1 = none ∧ r.2.partExists p = true ∧
      (∀ b, b < 84 → r.2.bayOwner b = if (leAt (padTo 128 d) 0 11).testBit b then p else s.bayOwner b) ∧
      (∀ x, x < 32 → r.2.flumeOwner x = if (leAt (padTo 128 d) 0x10 4).testBit x then p else s.flumeOwner x))) ∧
  (∀ (s : State) (seq : Dword) (c : Cmd), s.command 0 seq 0x0102 = some c → c.tidy [(0x10, 1)] = true →
    let p := c.at 0x10 1
    s.inTurn 0 moduleCommands c = true → 1 ≤ p → p ≤ 8 → s.partExists p = true → exec (.partDelete 0 seq) s = .next ((s.deletePart p).complete 0 c .ok 0) ∧
      (s.deletePart p).partExists p = false ∧ (∀ b, b < 84 → (s.deletePart p).bayOwner b ≠ p)) ∧
  (∀ (s : State) (f : Nat) (seq : Dword) (c : Cmd), let p := cmdPart f c
    cmdPartOk f c = true → s.partExists p = true →
    (s.command f seq 0x0201 = some c → c.tidy [(0x10, 1), (0x18, 8), (0x20, 4)] = true → c.begun = false → s.frameSt p < 2 →
      ∀ d s1, s.fetchFrame p (c.at 0x18 8) (c.at 0x20 4) = (.ok d, s1) →
      let t := (s1.setFrameSt p (if (s.part p).own.frame.isSome then .ready else .none)).dropCopy p
      (∀ v, s1.validate p (c.at 0x20 4) false d = .ok v → exec (.frameCheck f seq) s = .next (t.complete f c .ok 0)) ∧
      (∀ e, s1.validate p (c.at 0x20 4) false d = .error e → exec (.frameCheck f seq) s = .next (t.rejectFrame f p c e))) ∧
    (s.command f seq 0x0202 = some c → c.tidy [(0x10, 1), (0x11, 1), (0x18, 8), (0x20, 4)] = true → c.at 0x11 1 < 4 → c.begun = false →
      (s.frameSt p = 1 ∨ s.frameSt p = 0 ∧ (c.at 0x11 1).testBit 0 = true) → ∀ d s1 v, s.fetchFrame p (c.at 0x18 8) (c.at 0x20 4) = (.ok d, s1) →
      s1.validate p (c.at 0x20 4) (!(c.at 0x11 1).testBit 0) d = .ok v → let h := s1.healNow p
      (h.command f seq 0x0202).isSome = true →
      let r := h.applyFrame p ((c.at 0x11 1).testBit 0) ((c.at 0x11 1).testBit 1) d v.1
      ((h.part p).commit.df = .none → h.phys.power.halted = false →
        (r.1 = none → exec (.frameApply f seq) s = .next ((r.2.dropCopy p).complete f c .ok 0)) ∧
        (∀ k, r.1 = some k → exec (.frameApply f seq) s = .next ((r.2.dropCopy p).complete f c .failed (2 ^ 8 * k)))) ∧
      ((h.part p).commit.df ≠ .none → exec (.frameApply f seq) s = .next (h.applyWaits f p 0 c v.1)) ∧
      ((h.part p).commit.df = .none → h.phys.power.halted = true → exec (.frameApply f seq) s = .next (h.applyHalted f p c v.1))) ∧
    (∀ e s1, s.command f seq 0x0201 = some c → c.tidy [(0x10, 1), (0x18, 8), (0x20, 4)] = true → c.begun = false → s.frameSt p < 2 →
      s.fetchFrame p (c.at 0x18 8) (c.at 0x20 4) = (.error e, s1) → exec (.frameCheck f seq) s = .next (s1.rejectFrame f p c e)) ∧
    (s.command f seq 0x0203 = some c → c.tidy [(0x10, 1)] = true →
      ((s.part p).heal.remapStop = false → exec (.remap f seq) s = .next (s.complete f c .invalid 0)) ∧
      ((s.part p).heal.remapStop = true → (∀ n, (s.remapNow p).1 = .done n → exec (.remap f seq) s = .next ((s.remapNow p).2.complete f c .ok n)) ∧
        ((s.remapNow p).1 = .failed → ((s.remapNow p).2.command f seq 0x0203).isSome = true →
          exec (.remap f seq) s = .next ((s.remapNow p).2.complete f c .failed 0)) ∧
        ((s.remapNow p).1 = .waits → exec (.remap f seq) s = .next (s.remapNow p).2))) ∧
    (s.command f seq 0x0204 = some c → c.tidy [(0x10, 1), (0x14, 4)] = true → s.frameSt p = 1 → let tid := c.at 0x14 4
      s.gateBindings p tid ≠ [] → s.beforeReplay p = false →
      (s.canTrigger p tid = true → exec (.gateRun f seq) s = .next ((s.triggerTid p tid).complete f c .ok (s.gateBindings p tid).length)) ∧
      (s.canTrigger p tid = false → exec (.gateRun f seq) s = .next (s.complete f c .retry 0))) ∧
    (s.command f seq 0x0205 = some c → c.tidy [(0x10, 1), (0x11, 1), (0x14, 4)] = true → let tid := c.at 0x14 4
      s.gateBindings p tid ≠ [] →
      (c.at 0x11 1 = 1 → (insertTid tid (s.part p).own.schedule).length ≤ 64 → ∃ u : State, (u.part p).own.schedule = insertTid tid (s.part p).own.schedule ∧
        OnlyPart p s u ∧ exec (.gateArm f seq) s = .next (u.complete f c .ok (insertTid tid (s.part p).own.schedule).length)) ∧
      (c.at 0x11 1 = 0 → ∃ u : State, (u.part p).own.schedule = (s.part p).own.schedule.filter (fun t => decide (t ≠ tid)) ∧ OnlyPart p s u ∧
        ((u.part p).own.schedule.length ≤ 64 → exec (.gateArm f seq) s = .next (u.complete f c .ok (u.part p).own.schedule.length)))) ∧
    (s.command f seq 0x0206 = some c → c.begun = false → s.inTurn f [0x0206] c = true → c.tidy [(0x10, 1), (0x11, 1), (0x12, 1), (0x18, 8), (0x20, 8), (0x28, 4)] = true →
      c.at 0x12 1 ≤ 1 → 1 ≤ c.at 0x28 4 → c.at 0x28 4 ≤ 2 ^ 30 → c.at 0x11 1 ≤ 31 → s.flumeOwner (c.at 0x11 1) = p →
      s.dmaOk f (c.at 0x18 8) (c.at 0x28 4) = true → (s.flume (c.at 0x11 1)).length ≤ 16 →
      ∃ n k, exec (.flumeCopy f seq) s = .next n ∧ n.flume (c.at 0x11 1) = s.flume (c.at 0x11 1) ++ [k] ∧
        k = { f := f, seq := seq, part := p, toHost := c.at 0x12 1 == 1, host := c.at 0x18 8, pa := c.at 0x20 8, len := c.at 0x28 4 } ∧
        (∀ x, x ≠ c.at 0x11 1 → n.flume x = s.flume x) ∧ n.regs = s.regs ∧ SameTiles s n)) ∧
  (∀ (s : State) (fl : Nat) (h : HostOutcome) (k : Copy) (r : List Copy) (c : Cmd), s.flume fl = k :: r → let s0 := s.setFlume fl r
    s.segUp (3 * fl / 4) = true → s.phys.power.halted = false → s0.command k.f k.seq 0x0206 = some c →
    (s0.dmaOk k.f k.host k.len = false → exec (.flumeCopyDone fl h) s = .next ((s0.dmaBlocked k.f k.host).complete k.f c .denied 0)) ∧
    (s0.dmaOk k.f k.host k.len = true → k.toHost = true → exec (.flumeCopyDone fl h) s = .next ((s0.copyToHost k).2.complete k.f c (s0.copyToHost k).1.1 (s0.copyToHost k).1.2)) ∧
    (s0.dmaOk k.f k.host k.len = true → k.toHost = false → exec (.flumeCopyDone fl h) s = .next ((s0.copyFromHost k h).2.complete k.f c (s0.copyFromHost k h).1.1 (s0.copyFromHost k h).1.2)))

/-- Enabling a log starts it at entry 0 in phase 1, HEAD frees entries, BAR2 reads and writes its window, a rate cap is
reported. A write of a log's configuration with EN and a ring inside a DMA window enables it with TAIL and HEAD 0 and
phase 1; without EN it is disabled; with a ring outside, it stays disabled and the request counts as blocked. A write
of HEAD stores 16 bits and what waits is written. BAR2 of an existing partition writes HBM through its window and
reads it: good data, or zeros with EP where a block is poisoned; beyond the window nothing happens. A rate cap counts
and is reported at most once a second. (R438, R448, R588, R592, R617, R619, R625, R627, R632) -/
def Obligations.LogsBarsAndRateLimit : Prop :=
  (∀ (s : State) (f : Nat) (k : LogKind) (v : Word), f ≤ 8 → let m := if s.logEn f k then s.field (logCfg f k) 4 0 else log2n v
    (v.getLsbD (logEnBit k) = false → ∃ n, exec (.logEnable f k v) s = .next n ∧ n.logEn f k = false ∧ OnlyRegs [logCfg f k] { s with stage := n.stage } n) ∧
    (v.getLsbD (logEnBit k) = true → s.dmaOk f (fieldOf (s.reg (logBase f k)) 63 12 * 4096) (32 * 2 ^ m) = true →
      ∃ u : State, exec (.logEnable f k v) s = .next (u.flushLog f k) ∧ u.logEn f k = true ∧ u.field (logCfg f k) 4 0 = m ∧ u.reg (logHead f k) = 0 ∧
        u.field (logTail f k) 15 0 = 0 ∧ (u.reg (logTail f k)).getLsbD 16 = true ∧ OnlyRegs [logCfg f k, logHead f k, logTail f k] { s with stage := u.stage } u) ∧
    (v.getLsbD (logEnBit k) = true → s.dmaOk f (fieldOf (s.reg (logBase f k)) 63 12 * 4096) (32 * 2 ^ m) = false →
      ∃ u : State, exec (.logEnable f k v) s = .next (u.dmaBlocked f (fieldOf (s.reg (logBase f k)) 63 12 * 4096)) ∧ u.logEn f k = false ∧
        OnlyRegs [logCfg f k] { s with stage := u.stage } u) ∧
    (∃ u : State, exec (.logHeadWrite f k v) s = .next (u.flushLog f k) ∧ u.reg (logHead f k) = v &&& 0xFFFF ∧ Tab.get 0 u.stage (logHead f k) = v.extractLsb' 0 32 ∧ OnlyRegs [logHead f k] { s with stage := u.stage } u)) ∧
  (∀ (s : State) (f off : Nat) (d : List Byte), 1 ≤ f → f ≤ 8 →
    (s.partExists f = true → off + d.length ≤ 2 ^ (s.func f).bar2Log →
      exec (.bar2Write f off d) s = .next (s.writeAssigned f (d.length / 4096 + 2) (s.bar2Base f + off) d)) ∧
    (2 ^ (s.func f).bar2Log < off + d.length → exec (.bar2Write f off d) s = .next s) ∧
    (∀ len, off + len ≤ 2 ^ (s.func f).bar2Log →
      (s.partExists f = false → exec (.bar2Read f off len) s = .next (s.emitOut (.bar2Data f (List.replicate len 0) false))) ∧
      (s.partExists f = true → let r := s.readAssigned f (len / 4096 + 2) (s.bar2Base f + off) len
        (r.2.1 = [] → exec (.bar2Read f off len) s = .next (r.2.2.emitOut (.bar2Data f r.1 false))) ∧
        (r.2.1 ≠ [] → exec (.bar2Read f off len) s = .next ((r.2.2.emitOut (.bar2Data f (List.replicate len 0) true)).reportPoison f r.2.1))))) ∧
  (∀ (s : State) (f : Nat), f ≤ 8 →
    ((s.func f).rateAt = none ∨ (∃ t, (s.func f).rateAt = some t ∧ t + 1000000000 ≤ s.now) →
      ∃ n u : State, exec (.hstRateLimit f) s = .next n ∧ (u.func f).rateAt = some s.now ∧
        u.field (Reg.hstFuncstat f) 31 16 = min (s.field (Reg.hstFuncstat f) 31 16 + 1) (2 ^ 16 - 1) ∧
        OnlyRegs [Reg.hstFuncstat f] { s with host := u.host } u ∧ Signals Ev.hstRateLimit f [f] u n) ∧
    (∀ t, (s.func f).rateAt = some t → s.now < t + 1000000000 → exec (.hstRateLimit f) s = .next s))

/-- Function resets, a hot reset, PERST# and a lost link leave what the ladder's rungs lay down; the link comes up
trained. A Function Level Reset returns the function's registers, slots, MSI-X state and commands to reset, keeps its
events, counts itself and raises HST_FLR; of a partition function it first resets the partition's compute: its tiles
are in RESET (or OFF) and its Frame is gone. A hot reset, PERST# and a lost link take the link down and, at stage 5 or
later, cause the warm reset, before it nothing more; the lost link raises HST_LINK_DOWN. PERST# released starts stage
5's time. PCIE_LINK_UP brings the link up at a width and rate of the standard. (R265, R578, R584, R586, R628, R629,
R630, R631, R785, R787, R788, R865) -/
def Obligations.ResetsTakeTheirEffect : Prop :=
  ∀ s : State,
    (∀ f, 1 ≤ f → f ≤ 8 → ∃ v u n : State, exec (.functionLevelReset f) s = .next n ∧ Signals Ev.hstFlr f [f] (u.unstall f) n ∧
      v = (if s.partExists f then ((s.disableLog f .completion).disableLog f .event).computeReset f else (s.disableLog f .completion).disableLog f .event) ∧
      (∃ e l, u.func f = { Func.reset with events := e, lost := l }) ∧ (∀ g, g ≠ f → u.func g = v.func g) ∧
      (∀ a, isHstReg f a = true → a ≠ Reg.hstFuncstat f → u.reg a = regReset a) ∧
      u.field (Reg.hstFuncstat f) 63 48 = min (v.field (Reg.hstFuncstat f) 63 48 + 1) 0xFFFF ∧
      (∀ a, isHstReg f a = false → u.reg a = v.reg a) ∧ u.comp = v.comp ∧ u.phys = v.phys ∧ u.man = v.man) ∧
    (∀ p, 1 ≤ p → p ≤ 8 → let u := s.computeReset p
      (∀ x : PT, x.valid = true → s.bayOwner x.bay = p → (u.tile x).s.seq = .reset ∨ (u.tile x).s.seq = .off) ∧
        (u.part p).own.frame = none ∧ (u.part p).own.stopped = false ∧ u.frameSt p = 0 ∧ u.field (Reg.prtFrameStat p) 63 48 = 0) ∧
    (∃ u n : State, exec .pf0Flr s = .next n ∧ Signals Ev.hstFlr 0 [0] u n ∧
      u.func 0 = { Func.reset with events := (s.func 0).events, lost := (s.func 0).lost } ∧ (∀ g, g ≠ 0 → u.func g = s.func g) ∧
      (∀ a, isHstReg 0 a = true → a ≠ Reg.hstFuncstat 0 → u.reg a = regReset a) ∧
      u.field (Reg.hstFuncstat 0) 63 48 = min (s.field (Reg.hstFuncstat 0) 63 48 + 1) 0xFFFF ∧
      (∀ a, isHstReg 0 a = false → u.reg a = s.reg a) ∧ u.comp = s.comp ∧ u.phys = s.phys ∧ u.man = s.man) ∧
    (s.host.pcie.up = true → ∃ n, exec .hotReset s = .next n ∧ n.host.pcie.up = false ∧ (5 ≤ s.boot.stage → WarmReset s n) ∧
      (s.boot.stage < 5 → n = s.pcieDown)) ∧
    (s.boot.perst = false → s.segUp 0 = true → ∃ n, exec .perstAssert s = .next n ∧ n.boot.perst = true ∧ n.host.pcie.up = false ∧
      (5 ≤ s.boot.stage → ∃ u : State, OnlyBoot s u ∧ WarmReset u n) ∧ (s.boot.stage < 5 → n.regs = s.regs ∧ n.comp = s.comp ∧ n.phys = s.phys)) ∧
    (s.boot.perst = true → exec .perstAssert s = .next s) ∧
    (∃ n, exec .perstDeassert s = .next n ∧ n.boot.perst = false ∧ OnlyBoot s n ∧
      (s.boot.perst = true → s.boot.stage = 5 → n.boot.stageAt = s.now)) ∧
    (s.host.pcie.up = true → ∃ u n : State, exec .hstLinkDown s = .next n ∧ Signals Ev.hstLinkDown 0 [] u n ∧ u.host.pcie.up = false ∧
      (5 ≤ s.boot.stage → WarmReset s u) ∧ (s.boot.stage < 5 → u = s.pcieDown)) ∧
    (s.host.pcie.up = false → s.boot.perst = false → s.segUp 0 = true → ∃ n, exec .pcieLinkUp s = .next n ∧ n.host.pcie.up = true ∧
      n.host.pcie.width ∈ linkWidths ∧ n.host.pcie.rate ∈ linkRates ∧ n.comp = s.comp ∧ n.phys = s.phys ∧ n.boot = s.boot) ∧
    (s.boot.perst = true → exec .pcieLinkUp s = .next s)

/-- A settled step commits, a suspect one is dry-fitted and compared; a heal ends complete or stopped, and takes what was
queued. STEP_SETTLE at the end of the settle time: a step that is not suspect commits: PRT_STEP is the next step and
that step begins clean; a suspect one gets a dry fit; a replay that settled clean goes to its comparison. When every
layer rests, the digests are recorded, DRYFIT_START is raised and the replay runs. Equal digests count, raise
DRYFIT_EQUAL and commit; others count, raise DRYFIT_DIFFER and commit. A heal leaves its partition healed with no host
lost, or stopped; PLACEMENT_QUEUED empties the queue of requests into such a heal; an application that waited goes on
first. (R352, R523, R526, R527, R530, R531, R532, R559, R560, R561, R564, R575) -/
def Obligations.RecoveryCommandsComplete : Prop :=
  (∀ (s : State) (p : Nat), 1 ≤ p → p ≤ 8 → let n := s.commitStep p
    n.stepNo p = s.stepNo p + 1 ∧ (n.part p).commit.begun = true ∧ (n.part p).commit.suspect = false ∧ (n.part p).commit.named = [] ∧
      (n.part p).commit.tries = 0 ∧ (n.part p).commit.df = .none ∧ (n.part p).commit.settled = false) ∧
  (∀ (s : State) (p t : Nat), s.settleDue p = some t → (s.frameOf p).stepWeir ≠ 0xFFFF → (s.part p).commit.settled = false →
    (s.part p).heal.lost = [] → s.phys.power.halted = false → (s.part p).own.stopped = false → let c := (s.part p).commit
    (c.df = .none → c.suspect = false → exec (.stepSettle p) s = .next ((s.passTo t).commitStep p)) ∧
    (c.df = .none → c.suspect = true → exec (.stepSettle p) s = .next (((s.passTo t).modCommit p fun c => { c with tries := c.tries + 1, digests := [] }).startDryFit p)) ∧
    (c.df = .replaying → c.suspect = true → s.triesMax p ≤ c.tries → ∃ u n, exec (.stepSettle p) s = .next n ∧
      u.field (Reg.prtDetCnt p) 15 0 = min (s.field (Reg.prtDetCnt p) 15 0 + 1) 0xFFFF ∧ (u.part p).commit.df = .none ∧
      Signals Ev.dryfitFail p [p, (u.stepNo p).toNat, 1] u n) ∧
    (c.df = .replaying → c.suspect = false → ∃ n, exec (.stepSettle p) s = .next n ∧
      (n.part p).commit = { c with df := .comparing, settled := true } ∧ OnlyPart p (s.passTo t) n)) ∧
  (∀ (s : State) (p : Nat), (s.part p).commit.df = .waiting → s.layersRest p = true → (s.part p).commit.begun = true → s.phys.power.halted = false →
    ∃ u n : State, exec (.dryfitDigestRecord p) s = .next n ∧ Signals Ev.dryfitStart p [p, (s.stepNo p).toNat] (u.reopenAll p) n ∧ u.stepNo p = s.stepNo p ∧
      (u.part p).commit.df = .replaying ∧ (u.part p).commit.suspect = false ∧
      (u.part p).commit.digests = (if (s.part p).commit.digests = [] then s.stagedDigests p else (s.part p).commit.digests)) ∧
  (∀ (s : State) (p : Nat), 1 ≤ p → p ≤ 8 → (s.part p).commit.df = .comparing → s.replayStaged p = true → s.phys.power.halted = false →
    let bad := ((s.part p).commit.digests.filter fun d => decide (Tab.get 0 (s.stagedDigests p) d.1 ≠ d.2)).map (·.1)
    (bad = [] → ∃ u n, Signals Ev.dryfitEqual p [p, (s.stepNo p).toNat] (s.bump (Reg.prtDetCnt p) 47 32 1) u ∧
      exec (.dryfitCompare p) s = .next n ∧ n.stepNo p = s.stepNo p + 1 ∧ (n.part p).commit.trials = []) ∧
    (bad ≠ [] → ∃ u w n : State, Signals Ev.dryfitDiffer p ([p, (s.stepNo p).toNat] ++ bad) (s.bump (Reg.prtDetCnt p) 31 16 1) u ∧
      exec (.dryfitCompare p) s = .next n ∧ n = w.commitStep p ∧ (n.part p).commit.df = .none ∧ n.stepNo p = s.stepNo p + 1)) ∧
  (∀ (s : State) (p : Nat), (s.part p).heal.lost ≠ [] → (s.part p).heal.st ≠ .stopped → (s.part p).heal.remapStop = false →
    s.phys.power.halted = false → ∃ n, exec (.heal p) s = .next n ∧ (((n.part p).heal.st = .none ∧ (n.part p).heal.lost = []) ∨ (n.part p).heal.st = .stopped)) ∧
  (∀ (s : State) (p : Nat), (s.part p).queued ≠ [] → (s.part p).heal.remapStop = false → s.waitingFrames p = [] → s.placing p = false →
    s.phys.power.halted = false → ∃ n, exec (.placementQueued p) s = .next n ∧ (n.part p).queued = [] ∧
      (((n.part p).heal.st = .none ∧ (n.part p).heal.lost = []) ∨ (n.part p).heal.st = .stopped)) ∧
  (∀ (s : State) (p f : Nat) (c : Cmd), s.waitingFrames p = [(f, c)] → ((s.applyAgain f p c).part p).queued = [] →
    exec (.placementQueued p) s = .next (s.applyAgain f p c))

/-- Weir timeouts make the step suspect with its absentees; plumb slices start, are forced, end and are late; PRT_STEP is
written. A weir timeout raises WEIR_TIMEOUT, and the step is suspect with every absent member named. A slice takes the
least recently visited IDLE tile to PLUMB while slices are free, and at its period's end any tile with FORCED counted.
A slice that passes returns the tile to its state, visited and passed now, with the next seed; a failed one raises
PLUMB_FAIL and fences the tile in RESET. PLUMB_LATE is raised 500 ms after the last visit. Intensified plumb ends at
its time. PRT_STEP is written while every region is DRAINED and no dry fit is in progress, else discarded. (R509,
R511, R512, R515, R516, R517, R519, R522, R525, R533, R538, R541) -/
def Obligations.DetectionCommandsComplete : Prop :=
  (∀ (s : State) (p wid : Nat), let x := weirOf p wid s
    x.arrived ≠ [] → x.timedOut = false → x.heldAt = none → s.phys.power.halted = false →
    ∃ u v n : State, exec (.weirTimeout p wid) s = .next n ∧ Signals Ev.weirTimeout p [p, wid, (s.stepNo p).toNat, (s.absentees p wid).length] u v ∧
      weirOf p wid u = { x with timedOut := true } ∧ u.tide = (s.passTo (x.firstAt + s.weirLimitNs p)).tide ∧
      n = v.suspect p Ev.weirTimeout (s.absentees p wid) ∧ (n.part p).commit.suspect = true ∧ (weirOf p wid n).timedOut = true ∧
      (∀ l ∈ s.absentees p wid, l ∈ (n.part p).commit.named)) ∧
  (∀ (s : State) (t : PT), (s.tile t).s.seq = .idle → s.tileFenced t = false → s.slices t.bay < s.plumbConc t.bay → s.leastRecent t = true →
    s.phys.power.halted = false → ∃ n, exec (.plumbSliceStart t) s = .next n ∧ (n.tile t).s.seq = .plumb ∧ (n.tile t).s.before = .idle ∧
      (n.tile t).plumb.forced = false ∧ (n.tile t).plumb.quietAtStart = (s.tile t).quiet ∧ SameData (s.tile t) (n.tile t) ∧
      OnlyTile t (s.passTo ((s.tile t).plumb.idleAt + 1000 * s.field (Reg.silPlumbcfg t.bay) 15 0)) n) ∧
  (∀ (s : State) (t : PT), ((s.tile t).s.seq = .idle ∨ (s.tile t).s.seq = .run ∨ (s.tile t).s.seq = .blocked ∨ (s.tile t).s.seq = .halted) →
    s.tileFenced t = false → s.slices t.bay < s.plumbConc t.bay → s.phys.power.halted = false →
    ∃ n, exec (.plumbForce t) s = .next n ∧ (n.tile t).s.seq = .plumb ∧ (n.tile t).s.before = .halted ∧ (n.tile t).plumb.forced = true ∧
      n.field (Reg.silPlumbstat t.bay) 23 8 = min (s.field (Reg.silPlumbstat t.bay) 23 8 + 1) 0xFFFF ∧ SameData (s.tile t) (n.tile t) ∧
      OnlyTile t { s with regs := n.regs, tide := n.tide } n) ∧
  (∀ (s : State) (t : PT), (s.tile t).s.seq = .plumb →
    (∃ n, exec (.plumbSliceEnd t .pass) s = .next n ∧ (n.tile t).plumb.last = s.now ∧ (n.tile t).plumb.lastPass = some s.now ∧
      (n.tile t).plumb.lastRes = 1 ∧ (n.tile t).plumb.idleAt = s.now ∧ (n.tile t).plumb.late = false ∧ (n.tile t).plumb.seed = ((s.tile t).plumb.seed + 1) % 64 ∧ SameData (s.tile t) (n.tile t) ∧
      ((s.tile t).plumb.forced = false → (n.tile t).s.seq = (s.tile t).s.before) ∧
      ((s.tile t).plumb.forced = true → (s.tile t).s.before = .halted → (n.tile t).s.seq = if (s.tile t).s.inv then .run else .idle) ∧
      n.field (Reg.silPlumbstat t.bay) 63 40 = (s.field (Reg.silPlumbstat t.bay) 63 40 + 1) % 2 ^ 24 ∧ OnlyTile t { s with regs := n.regs } n) ∧
    ((s.tile t).s.before ≠ .off → ∃ u v n : State, exec (.plumbSliceEnd t .memoryFail) s = .next n ∧
      Signals Ev.plumbFail (u.ptPart t) (tileOps (u.hosted t) t ++ [1, s.now]) u v ∧ (u.tile t).plumb.lastRes = 3 ∧
      (n.tile t).s.seq = .reset ∧ n.isFenced 1 (tileId t) = true)) ∧
  (∀ (s : State) (t : PT), (s.tile t).s.seq ≠ .off → (s.tile t).plumb.late = false → s.tileFenced t = false → s.phys.power.halted = false →
    ∃ u n, exec (.plumbLate t) s = .next n ∧ Signals Ev.plumbLate (s.ptPart t) (tileOps (s.hosted t) t) u n ∧
      u.tile t = { s.tile t with plumb := { (s.tile t).plumb with late := true } } ∧ OnlyTile t (s.passTo ((s.tile t).plumb.last + 500000000)) u) ∧
  (∀ (s : State) (t : PT), (s.tile t).plumb.late = true → exec (.plumbLate t) s = .next s) ∧
  (∀ (s : State) (t : PT) (d : Nat), (s.tile t).plumb.intensUntil = some d → ∃ n, exec (.intensPlumbEnd t) s = .next n ∧
    n.tile t = { s.tile t with plumb := { (s.tile t).plumb with intensUntil := none } } ∧ OnlyTile t (s.passTo d) n) ∧
  (∀ (s : State) (p : Nat) (v : Word),
    (s.partExists p = true → s.allDrained p = true → (s.part p).commit.df = .none → ∃ n, exec (.prtStepWrite p p v) s = .next n ∧
      exec (.prtStepWrite 0 p v) s = .next n ∧ n.stepNo p = v ∧ (n.part p).commit.suspect = false ∧ (n.part p).commit.begun = false ∧
      (n.part p).commit.tries = 0 ∧ OnlyPart p { s with regs := n.regs, stage := n.stage } n ∧
      OnlyRegs [Reg.prtStep p] { s with comp := n.comp, stage := n.stage } n) ∧
    (s.partExists p = false ∨ s.allDrained p = false ∨ (s.part p).commit.df ≠ .none →
      exec (.prtStepWrite 0 p v) s = .next (s.staged (Reg.prtStep p) v)) ∧
    (∀ f, f ≠ 0 → f ≠ p → exec (.prtStepWrite f p v) s = .next s))

/-- Sighted layers are digested and sent; peers' digests are kept; the replicas are compared when all have come or WAIT is
over. At a sighted step with a key and no update pending, the digests of every sighted layer become ready in its
registers and the wait for the peers begins. A peer's message for the open step keeps its digest of the layer, and one
of a stranger changes nothing. When every peer's digests have come and agree, PRT_SIGHT_STAT says equal of all
replicas; where none has come within WAIT it says incomplete and SIGHT_INCOMPLETE is raised. The bits of the digest
message, and which peer sends what, are the model's choice (log 57). (R422, R423, R537, R538, R539, R540, R673) -/
def Obligations.SightingComparesReplicas : Prop :=
  (∀ (s : State) (p : Nat) (step : Word) (ds : Tab Word), 1 ≤ p → p ≤ 8 → Tab.rising 0 ds = true → let n := s.sightReady p step ds
    (n.part p).sight.open_ = true ∧ (n.part p).sight.step = step ∧ (n.part p).sight.own = ds ∧
      (n.part p).sight.deadline = s.now + 1000000 * max 1 (s.field (Reg.prtSightCfg p) 31 0) ∧
      ∀ e ∈ ds, (n.layer p e.1).digest = e.2 ∧ (n.layer p e.1).dstep = step) ∧
  (∀ (s : State) (p k : Nat), let f := s.frameOf p
    let step := s.stepNo p - 1
    s.sightKey p = some k → f.sightK ≠ 0 → s.stepNo p ≠ 0 → step.toNat % f.sightK = 0 → f.sighted ≠ [] → s.phys.power.halted = false →
    ((s.part p).pln.layers.all fun kl => decide (kl.2.gradStep ≠ step) || !(kl.2.st == .staged || kl.2.st == .copying || kl.2.st == .compute)) = true →
    ((∃ (u : State) (ds : Tab Word), exec (.sightDigest p) s = .next (u.sightReady p step ds) ∧ Tab.rising 0 ds = true ∧
        ∀ l, (∃ r ∈ f.sighted, r.layer = l) ↔ ∃ e ∈ ds, e.1 = l) ∨
      (∃ (u : State) (b : Nat), exec (.sightDigest p) s = .next (u.poisonConsumed p b 5))) ∧
    (∀ r, f.sighted = [r] → let q := s.layerDigest p k r
      (q.2.1 = [] → exec (.sightDigest p) s = .next (q.2.2.sightReady p step [(r.layer, BitVec.ofNat 64 q.1)])))) ∧
  (∀ (s : State) (h : PutHeader) (l : Nat) (d : Word), let p := h.dpart
    let g := (s.part p).sight
    (∀ q : Nat × Dword × Nat, (s.peers p).find? (fun q => decide (q.2.1 = h.src) && decide (q.2.2 = h.spart)) = some q → h.kind = 0x03 → h.dst = s.address →
      s.partExists p = true → h.step = g.step → ∃ n, exec (.stlJoineryMessage h l d) s = .next n ∧
        Tab.get 0 (Tab.get [] (n.part p).sight.peers q.1) l = d ∧ (n.part p).sight.own = g.own ∧
        (∀ i, i ≠ q.1 → Tab.get [] (n.part p).sight.peers i = Tab.get [] g.peers i) ∧ OnlyPart p s n) ∧
    ((s.peers p).find? (fun q => decide (q.2.1 = h.src) && decide (q.2.2 = h.spart)) = none → exec (.stlJoineryMessage h l d) s = .next s)) ∧
  (∀ (s : State) (p : Nat), let g := (s.part p).sight
    g.open_ = true → s.phys.power.halted = false →
    (s.peers p ≠ [] → (∀ q ∈ s.peers p, digestsWhole g.own (Tab.get [] g.peers q.1) = true) →
      (∀ q ∈ s.peers p, ∀ e ∈ g.own, Tab.get 0 (Tab.get [] g.peers q.1) e.1 = e.2) →
      ∃ n, exec (.sightDecide p) s = .next n ∧ (n.part p).sight = { g with open_ := false, peers := [] } ∧
        n.reg (Reg.prtSightStat p) = (fld 63 32 (g.step.toNat % 2 ^ 32) ||| fld 31 24 ((s.peers p).length + 1) ||| fld 2 0 1) ∧
        OnlyPart p { s with regs := n.regs } n ∧ OnlyRegs [Reg.prtSightStat p] { s with comp := n.comp } n) ∧
    (s.peers p ≠ [] → (∀ q ∈ s.peers p, digestsWhole g.own (Tab.get [] g.peers q.1) = false) →
      ∃ u n, exec (.sightDecide p) s = .next n ∧ Signals Ev.sightIncomplete p [p, g.step.toNat, 1] u n ∧ u.tide = (s.passTo g.deadline).tide ∧
        u.reg (Reg.prtSightStat p) = (fld 63 32 (g.step.toNat % 2 ^ 32) ||| fld 31 24 1 ||| fld 2 0 5) ∧
        (u.part p).sight.open_ = false))

/-- A step size is stored in its slot or flagged and ignored; WAIT over holds the layers; freeze, unfreeze and SETUPD act
on a layer. A write of a slot with another parity's TAG sets MISSLOT, one whose ETA is not finite BAD (both where both
hold), one of the latched step LATE, and each is ignored; any other is stored and the HELD layers of its step are
READY. WAIT after the first READY layer its step's layers without a step size are HELD, the count rises and
STEP_SIZE_STALE is raised once. A freeze of an IDLE layer freezes it, an unfreeze of a FROZEN one (with G_TID) makes
it IDLE, each with its count zero; in other states it waits. SETUPD writes the update count in IDLE and FROZEN only.
(R390, R394, R395, R396, R397, R429) -/
def Obligations.StepSizesAndLayerControl : Prop :=
  (∀ (s : State) (p : Nat) (odd : Bool) (v : Word), 1 ≤ p → p ≤ 8 → s.partExists p = true → Tab.rising 0 (s.part p).pln.layers = true →
    let tag := v.extractLsb' 0 32
    let late : Bool := match (s.part p).pln.latched with
      | some (t, _) => decide (stepTag t = tag)
      | none => false
    let fin := fFinite f32 (v.extractLsb' 32 32).toNat
    ∃ n, exec (.plnStepWrite p odd v) s = .next n ∧
      (tag.getLsbD 0 ≠ odd ∨ fin = false →
        n.field (Reg.plnStepstat p) 2 2 = (if tag.getLsbD 0 ≠ odd then 1 else s.field (Reg.plnStepstat p) 2 2) ∧
        n.field (Reg.plnStepstat p) 3 3 = (if fin = false then 1 else s.field (Reg.plnStepstat p) 3 3) ∧
        OnlyRegs [Reg.plnStepstat p] { s with stage := n.stage } n) ∧
      (tag.getLsbD 0 = odd → fin = true → late = true → n.field (Reg.plnStepstat p) 1 1 = 1 ∧
        OnlyRegs [Reg.plnStepstat p] { s with stage := n.stage } n) ∧
      (tag.getLsbD 0 = odd → fin = true → late = false → n.reg (slotReg p odd) = v ∧
        OnlyRegs [slotReg p odd] { s with comp := n.comp, stage := n.stage } n ∧
        OnlyPart p { s with regs := n.regs, stage := n.stage } n ∧ ∀ l, n.layer p l =
          if (s.layer p l).st = .held ∧ stepTag (s.layer p l).gradStep = tag then { s.layer p l with st := .ready } else s.layer p l)) ∧
  (∀ (s : State) (p l t : Nat) (ls : List Nat), (s.part p).pln.firstReadyAt = some t → s.sizeless p = l :: ls →
    (s.part p).pln.staleRaised ≠ some (s.layer p l).gradStep → let step := (s.layer p l).gradStep
    ∃ u n : State, exec (.stepSizeStale p) s = .next n ∧ Signals Ev.stepSizeStale p [p, step.toNat] u n ∧
      u.tide = (s.passTo (t + max 1 (s.field (Reg.plnStepWait p) 31 0) * 1000)).tide ∧
      u.field (Reg.prtPlnCnt p) 63 48 = min (s.field (Reg.prtPlnCnt p) 63 48 + 1) 0xFFFF ∧ (u.part p).pln.staleRaised = some step ∧
      ∀ k, n.layer p k = if k ∈ l :: ls ∧ (s.layer p k).gradStep = step then { s.layer p k with st := .held } else s.layer p k) ∧
  (∀ (s : State) (p : Nat) (r : LayerRec) (upd : BitVec 48), s.selLayer p = some r → let x := s.layer p r.layer
    ∃ n m k, exec (.layerFreeze p) s = .next n ∧ exec (.layerUnfreeze p) s = .next m ∧ exec (.layerSetupd p upd) s = .next k ∧
      n.layer p r.layer = (if x.st = .frozen then x else if x.st = .idle then { x with st := .frozen, count := 0, frz := none }
        else { x with frz := some true }) ∧
      m.layer p r.layer = (if r.g = 0 ∨ x.st = .idle then x else if x.st = .frozen then { x with st := .idle, count := 0, frz := none }
        else { x with frz := some false }) ∧
      k.layer p r.layer = (if x.st = .idle ∨ x.st = .frozen then { x with upd := upd } else x) ∧
      (∀ l, l ≠ r.layer → n.layer p l = s.layer p l ∧ m.layer p l = s.layer p l ∧ k.layer p l = s.layer p l) ∧
      OnlyPart p s n ∧ OnlyPart p s m ∧ OnlyPart p s k) ∧
  (∀ (s : State) (p : Nat) (upd : BitVec 48), s.selLayer p = none →
    exec (.layerFreeze p) s = .next s ∧ exec (.layerUnfreeze p) s = .next s ∧ exec (.layerSetupd p upd) s = .next s)

/-- A READY layer is computed, staged, granted and copied in; a failed check and a discard order undo it; a fill sets its
float. A READY layer next in order, with its step size, a free engine and room in the ring, enters COMPUTE: the size
is latched for the step and the engine has the work. Its end stages the new tensors with the rule's result and frees
the engine; a mismatch, a lost word of the engine's memory or a failed checksum discards the copy, counts, raises
PLN_CHECK and leaves the layer READY for the next engine. A grant of a committed step lets the oldest staged copy
begin, COMMIT written; its end leaves the layer IDLE with its update count. A discard order leaves it IDLE with
nothing staged. A window's fill ends written, with its float set. (R361, R396, R398, R411, R412, R413, R414, R415,
R421) -/
def Obligations.LayersComputeStageAndCommit : Prop :=
  (∀ (z : State) (p l : Nat) (r : LayerRec) (eta : Dword) (a : Alloc), let e := z.engineFrom (z.layer p l).engine
    let s := z.scanRings e
    let x := s.layer p l
    1 ≤ p → p ≤ 8 → z.enginesRun = true → s.enginesRun = true → s.layerRec p l = some r → s.stepSize p x.gradStep = some eta →
    s.slice p (s.layerStack p r) = some a → x.st = .ready → (s.engine e).work = 0 → s.nextServed p l = true →
    s.ringUsed p (s.layerStack p r) + up64 (s.stagedBytes p r) ≤ a.size →
    ∃ n g, exec (.layerCompute p l) z = .next n ∧ n.layer p l = { x with st := .compute, engine := e, staged := some g, granted := false } ∧
      g.step = x.gradStep ∧ g.upd = x.upd + 1 ∧ g.committed = false ∧ g.off = s.ringNext p (s.layerStack p r) ∧ g.addr = a.base + g.off ∧
      n.engine e = { s.engine e with part := p, layer := l, work := ruleWork r.rule } ∧
      (n.part p).pln.latched = some (x.gradStep, eta) ∧ n.field (Reg.plnStepstat p) 63 32 = (stepTag x.gradStep).toNat) ∧
  (∀ (s : State) (p l : Nat) (g : Staged) (r : LayerRec), let x := s.layer p l
    x.staged = some g → s.layerRec p l = some r → x.st = .compute → s.enginesRun = true → let bad := (s.engine x.engine).lost (s.stagedBytes p r - 64)
    (∀ b, b = true ∨ bad = true → exec (.layerComputeDone p l b) s = .next (s.checkFailed p l x.engine)) ∧
    (∃ u v n : State, s.checkFailed p l x.engine = n ∧ Signals Ev.plnCheck p [x.engine, p, l, x.gradStep.toNat] u v ∧
      u.layer p l = { x with st := .ready, staged := none, granted := false, engine := s.engineFrom ((x.engine + 1) % 24) } ∧
      ((∀ q m, (s.layer q m).st ≠ .staged) → (u.engine x.engine).work = 0) ∧
      n = if recent s.now dayNs (s.engine x.engine).mismatches = [] then v else v.fenceEngine x.engine 0x0603 p) ∧
    (∀ a, let q := s.readUpdate p r
      let res := plnUpdate (plnRuleOf (s.frameOf p) r) (match (s.part p).pln.latched with
        | some (_, v) => v.toNat
        | none => 0) g.upd.toNat x.refPend q.1.w q.1.st q.1.g
      bad = false → (∀ b bs, q.1.bad = b :: bs → exec (.layerComputeDone p l false) s = .next (q.2.poisonConsumed p b 5)) ∧
      (q.1.bad = [] → s.slice p (s.layerStack p r) = some a → res.checked = false →
        exec (.layerComputeDone p l false) s = .next (q.2.checkFailed p l x.engine)) ∧
      (q.1.bad = [] → s.slice p (s.layerStack p r) = some a → res.checked = true → s.stepCommitted p g.step = false → x.granted = false →
      (∀ q m, (s.layer q m).st ≠ .staged) → ∃ n, exec (.layerComputeDone p l false) s = .next n ∧ n.layer p l = { x with
        st := .staged, fbLast := res.fallback
        refPend := (if res.fallback then true else if res.refreshed then false else x.refPend)
        staged := some { g with fallback := res.fallback, refreshed := res.refreshed, digest := q.1.digest } } ∧
        n.engine x.engine = { (s.engine x.engine).hold (res.w.flatMap (leBytes 4) ++ res.s.flatMap (leBytes 4)) with part := 0, layer := 0, work := 0 }))) ∧
  (∀ (s : State) (p l : Nat) (g : Staged), let x := s.layer p l
    x.staged = some g →
    (s.stepCommitted p g.step = true → x.st = .staged → (∀ q m, (q, m) ≠ (p, l) → (s.layer q m).st ≠ .staged) → ∃ n, exec (.plnCommitGrant p l) s = .next n ∧ (n.layer p l).granted = true ∧
      (((s.setLayer p l { x with granted := true }).copyReady p l = true →
        n.layer p l = { x with st := .copying, granted := true, staged := some { g with committed := true } }) ∧
       ((s.setLayer p l { x with granted := true }).copyReady p l = false → (n.layer p l).st = .staged))) ∧
    (s.stepCommitted p g.step = false → exec (.plnCommitGrant p l) s = .next s)) ∧
  (∀ (s : State) (p l : Nat), let x := s.layer p l
    ((x.st = .ready ∨ x.st = .held ∨ x.st = .compute ∨ x.st = .staged) → (∀ q m, (q, m) ≠ (p, l) → (s.layer q m).st ≠ .staged) →
      ∃ n, exec (.plnDiscardOrder p l) s = .next n ∧ n.layer p l = { x.toIdle with engine := s.homeEngine p l }) ∧
    ((x.st = .idle ∨ x.st = .frozen ∨ x.st = .copying) → exec (.plnDiscardOrder p l) s = .next s)) ∧
  (∀ (s : State) (p l : Nat) (g : Staged) (r : LayerRec), let x := s.layer p l
    x.staged = some g → s.layerRec p l = some r → x.st = .copying → s.enginesRun = true → (∀ q m, (s.layer q m).st ≠ .staged) →
    ∃ n, exec (.plnCopyDone p l) s = .next n ∧ n.layer p l = { x.toIdle with upd := g.upd, engine := s.layerStack p r } ∧
      (n.engine x.engine).scanned = (s.engine x.engine).scanned) ∧
  (∀ (s : State) (p fid i j : Nat) (w : WmloadRec), (s.frameOf p).windows = [(i, w)] → w.streamable = true → w.fid = fid →
    (s.window p i).writing = some j → s.phys.power.halted = false → s.copying p w.tid = false → (s.writeFill p w j).1 = [] →
    ∃ n, exec (.windowFillDone p fid) s = .next n ∧ n.window p i = { fill := j, writing := none } ∧ (n.float p fid).value = true ∧
      (n.float p fid).count = (s.float p fid).count + 1)

/-- A write within one block reads back as written and changes no other byte; a whole block clears poison, a part does
not. Where a partition address is assigned, bytes written within one aligned 64-byte block that is neither poisoned
nor in error read back as written, with no poison met, and every other byte of HBM is as before. A write of a whole
block does so of a poisoned one too, which is then poisoned no more. A part written to a poisoned block is not
performed: no byte changes, the block stays poisoned, PWDROP counts it and HBM_POISON_WRITE is raised. (R437, R439,
R440, R443, R446, R447) -/
def Obligations.HbmBlocksReadAsWritten : Prop :=
  ∀ (s : State) (p pa k rel : Nat) (d : List Byte), 1 ≤ p → p ≤ 8 → s.decodePa p pa = some (k, rel) → d ≠ [] → pa % 64 + d.length ≤ 64 →
    let whole := pa % 64 = 0 ∧ d.length = 64
    ((whole ∨ (¬ (rel / 64) ∈ (s.stack k).poison ∧ Tab.get [] (s.stack k).errs (rel / 64) = [])) → let w := s.writeRange p pa d
      w.1 = d.length ∧ ¬ (rel / 64) ∈ (w.2.stack k).poison ∧
        (w.2.readRange p pa d.length).1 = { data := d, bad := [], n := d.length } ∧
        ∀ key, (key < hbmKey k rel ∨ hbmKey k rel + d.length ≤ key) → Tab.get 0 w.2.comp.hbm key = Tab.get 0 s.comp.hbm key) ∧
    (¬ whole → (rel / 64) ∈ (s.stack k).poison → let w := s.writeRange p pa d
      w.1 = d.length ∧ (rel / 64) ∈ (w.2.stack k).poison ∧ w.2.comp.hbm = s.comp.hbm ∧
        w.2.field (Reg.hbmErrcnt2 k) 63 32 = min (s.field (Reg.hbmErrcnt2 k) 63 32 + 1) 0xFFFFFFFF ∧
        eventRecord Ev.hbmPoisonWrite 0 [k, rel] s.tide ∈ w.2.man.grain.waiting)

/-- The scrub reads block after block, repairs, poisons and counts, ends its pass; a new pass and the end of suspicion
take effect. A scrub read of a stack that is up, in a pass: a good block is passed over; one with one or two bytes in
error is written back and counted; one with 3 to 6, or with more that the code does not take for a codeword, is
poisoned, counted and reported by HBM_UE; one taken for another codeword holds that; a poisoned one only counts
towards the pass. After the last block PASSES rises, POISONED is the pass's count and no pass runs. SCRUBNOW begins a
pass at block 0 with the period of the register. When its window holds fewer blocks than UE_LIM a stack is suspect no
more and scrubs at its own period. (R443, R444, R445, R446, R452, R453, R454, R455, R459) -/
def Obligations.PatrolScrubVisitsEveryBlock : Prop :=
  ∀ (s : State) (k : Nat), k < 24 → let x := s.stack k
    let b := x.scrubPos
    (x.up = true → x.scrubbing = true → b + 1 ≠ stackBlocks →
      (b ∉ x.poison → Tab.get [] x.errs b = [] → ∃ n, exec (.scrubRead k) s = .next n ∧ n.stack k = { x with scrubPos := b + 1 } ∧ OnlyStack k s n) ∧
      (b ∉ x.poison → ∀ bs, Tab.get [] x.errs b = bs → bs ≠ [] → bs.length ≤ 2 → ∃ n, exec (.scrubRead k) s = .next n ∧
        (n.stack k).scrubPos = b + 1 ∧ Tab.get [] (n.stack k).errs b = [] ∧ (n.stack k).poison = x.poison ∧
        n.field (Reg.hbmErrcnt k) 63 32 = min (s.field (Reg.hbmErrcnt k) 63 32 + 1) 0xFFFFFFFF ∧
        n.field (Reg.hbmErrcnt2 k) 31 0 = min (s.field (Reg.hbmErrcnt2 k) 31 0 + 1) 0xFFFFFFFF ∧ n.comp.hbm = s.comp.hbm) ∧
      (b ∉ x.poison → ∀ bs, Tab.get [] x.errs b = bs → 3 ≤ bs.length →
        bs.length ≤ 6 ∨ rsDecode (storedWord (s.blockData k b) bs) = none → ∃ n, exec (.scrubRead k) s = .next n ∧
        (n.stack k).scrubPos = b + 1 ∧ b ∈ (n.stack k).poison ∧
        n.field (Reg.hbmErrcnt k) 31 16 = min (s.field (Reg.hbmErrcnt k) 31 16 + 1) 0xFFFF ∧
        (let p := s.regionOwner k (b * 64)
         eventRecord Ev.hbmUe p [k, b * 64, Config.hbmChannel k b % 32, p] s.tide ∈ n.man.grain.waiting)) ∧
      (b ∉ x.poison → ∀ bs w fixed, Tab.get [] x.errs b = bs → 7 ≤ bs.length → rsDecode (storedWord (s.blockData k b) bs) = some (w, fixed) →
        ∃ n, exec (.scrubRead k) s = .next n ∧ (n.stack k).scrubPos = b + 1 ∧ Tab.get [] (n.stack k).errs b = [] ∧
          n.comp.hbm = memWrite s.comp.hbm (hbmKey k (64 * b)) ((w.take 64).map (BitVec.ofNat 8))) ∧
      (b ∈ x.poison → ∃ n, exec (.scrubRead k) s = .next n ∧
        n.stack k = { x with scrubPos := b + 1, passPoisoned := x.passPoisoned + 1 } ∧ OnlyStack k s n)) ∧
    (x.up = true → x.scrubbing = true → b + 1 = stackBlocks → b ∉ x.poison → Tab.get [] x.errs b = [] →
      ∃ n, exec (.scrubRead k) s = .next n ∧ (n.stack k).scrubbing = false ∧ (n.stack k).scrubPos = 0 ∧
        n.field (Reg.hbmScrub k) 63 32 = (s.field (Reg.hbmScrub k) 63 32 + 1) % 2 ^ 32 ∧
        n.field (Reg.hbmScrub k) 31 16 = min x.passPoisoned 0xFFFF) ∧
    (x.up = true → x.scrubbing = false → (s.reg (Reg.hbmScrub k)).getLsbD 0 = true →
      exec (.scrubRead k) s = exec (.scrubRead k) (s.beginPass k)) ∧
    (∃ n, exec (.hbmScrubnow k) s = .next n ∧ OnlyStack k s n ∧
      n.stack k = { x with scrubPos := 0, scrubbing := true, passPoisoned := 0, passPeriod := s.field (Reg.hbmScrub k) 15 8 }) ∧
    (x.suspect = true → s.field (Reg.hbmThresh k) 39 32 ≠ 0 → x.ueHist.length < s.field (Reg.hbmThresh k) 39 32 →
      ∃ n, exec (.hbmSuspectWindowEnd k) s = .next n ∧ (n.stack k).suspect = false ∧
        n.field (Reg.hbmScrub k) 15 8 = x.savedPeriod % 256 ∧ n.field (Reg.hbmScrub k) 63 16 = s.field (Reg.hbmScrub k) 63 16 ∧
        OnlyRegs [Reg.hbmScrub k] { s with comp := n.comp } n)

/-- A stopped pair's duties and endpoints pass to its successor; a send is placed, refused or waits, and a long wait is
reported. A pair that fails lockstep stops, JNR_LOCKSTEP is raised, and the first live pair of its cluster or of the
next ones takes its duties and endpoints; with none left JNR_NONE follows. A send's payload stands at SENDADDR; it is
refused with LEN, UNBOUND or TOO_LONG and the events of the last two; a placed one is SENT; without credits a TRY send
returns NOCREDIT and any other waits from now. A send that has waited for WATCH raises SLUICE_STALL once, naming its
opposite when each waits on the other. A port that still waits takes no new send. (R465, R466, R469, R470, R472, R474,
R483, R484, R485, R496, R497, R501) -/
def Obligations.SluicePortsAndTakeover : Prop :=
  (∀ (s : State) (k : Nat), k < 48 → s.pairLive k = true → ∃ u v n : State, exec (.jnrLockstep k) s = .next n ∧
    Signals Ev.jnrLockstep 0 [k] u v ∧ u.pair k = { s.pair k with stopped := true, readWait := none } ∧
      OnlyPair k { s with man := { s.man with cores := u.man.cores } } u ∧ u.man.cores = (s.resetCores k true).man.cores ∧
    (v.successor k = none → n = (v.signal Ev.jnrNone 0 []).romPairLost k) ∧
    (∀ j, v.successor k = some j → v.pairLive j = true ∧ j ≠ k ∧ (n.pair j).duties = (s.pair j).duties ||| (s.pair k).duties ∧
      (n.pair j).adopted = (s.pair j).adopted ||| (s.pair k).adopted ∧ (n.pair k).stopped = true ∧ (n.pair k).duties = 0 ∧ (n.pair k).adopted = 0)) ∧
  (∀ (s : State) (k : Nat) (v : Word) (pl : List Byte), let ep := sluiceEp k
    let dst := v.extractLsb' 48 16
    let tag := v.extractLsb' 32 16
    let len := fieldOf v 14 0
    let m := msgUnits len
    let b := s.basin (epOf dst) (dst.toNat % 32)
    let q := b.place (epAddr ep) tag s.now (padTo len pl)
    let s1 := s.writeSluice ep (s.sport ep).sendAddr.toNat (padTo len pl)
    let bound := basinAddrOk dst = true ∧ b.en = true ∧ b.src = epAddr ep
    s.epRuns k = true →
    ((s.sport ep).waiting.isSome = true → exec (.jnrSend k v pl) s = .next s) ∧
    ((s.sport ep).waiting = none →
      (16368 < len → ∃ n, exec (.jnrSend k v pl) s = .next n ∧ n.sport ep = { s.sport ep with sendRes := 4 } ∧
        n = { s with man := { s.man with ports := n.man.ports } }) ∧
      (len ≤ 16368 → ¬ bound → ∃ u n, exec (.jnrSend k v pl) s = .next n ∧ Signals Ev.sluiceUnbound 0 (sendOps ep dst tag m) s1 u ∧
        n.sport ep = { s.sport ep with sendRes := 3 } ∧ n = { u with man := { u.man with ports := n.man.ports } }) ∧
      (len ≤ 16368 → bound → b.units < m → ∃ u n, exec (.jnrSend k v pl) s = .next n ∧ Signals Ev.sluiceTooLong 0 (sendOps ep dst tag m) s1 u ∧
        n.sport ep = { s.sport ep with sendRes := 2 } ∧ n = { u with man := { u.man with ports := n.man.ports } }) ∧
      (len ≤ 16368 → bound → m ≤ b.units → ∃ n, exec (.jnrSend k v pl) s = .next n ∧ n.basin (epOf dst) (dst.toNat % 32) = q.2 ∧
        (q.1 = true → (n.sport ep).sendRes = 0 ∧ (n.sport ep).waiting = none) ∧
        (q.1 = false → v.getLsbD 17 = true → n.sport ep = { s.sport ep with sendRes := 1 }) ∧
        (q.1 = false → v.getLsbD 17 = false → (n.sport ep).waiting =
          some { dst := dst, tag := tag, payload := padTo len pl, since := s.now, reported := false }) ∧
        n = { s1 with man := { s1.man with basins := n.man.basins, ports := n.man.ports } }))) ∧
  (∀ (s : State) (ep : Nat) (w : SlSend), (s.sport ep).waiting = some w →
    (w.reported = true → exec (.sluiceStall ep) s = .next s) ∧
    (w.reported = false → ∃ (u n : State) (ops : List Nat), exec (.sluiceStall ep) s = .next n ∧ Signals Ev.sluiceStall 0 ops u n ∧
      u.tide = (s.passTo (w.since + max 1 (s.field Reg.jnrSluicecfg 31 0) * 1000)).tide ∧
      ops.take 3 = [(epAddr ep).toNat, w.dst.toNat, w.tag.toNat] ∧
      ((s.sport (epOf w.dst)).waiting = none → ops.getD 4 9 = 0 ∧ (u.sport ep).waiting = some { w with reported := true }) ∧
      (∀ x, epOf w.dst ≠ ep → (s.sport (epOf w.dst)).waiting = some x → epOf x.dst = ep →
        ops.drop 4 = [1, (epAddr (epOf w.dst)).toNat, x.dst.toNat, x.tag.toNat] ∧ (u.sport ep).waiting = some { w with reported := true } ∧
          (u.sport (epOf w.dst)).waiting = some { x with reported := true })))

/-- A message is placed at the write position with its skip; it is read in ring order, released, and its credits return.
Placing M units at write position w of a basin of B units with cr credits, e = B - w: M up to e needs M credits and
advances w; e + M up to B needs both and writes the skip and the message at 0; else the skip goes alone, then the
message if its credits are left. A written record at the head is visible, and a blocked reader takes it. A read shows
the head, zero of a basin that is not enabled, or blocks; a release frees it, and its units return as credits. A basin
is bound only while empty with all credits, and a pair's within 512 KiB. (R477, R478, R479, R481, R482, R487, R488,
R489, R490, R491) -/
def Obligations.BasinsFollowTheRingRules : Prop :=
  (∀ (b : Basin) (src tag : BitVec 16) (now : Nat) (pl : List Byte), let m := msgUnits pl.length
    let e := b.units - b.w
    let q := b.place src tag now pl
    b.w < b.units → b.cr ≤ b.units → m ≤ b.units →
    (m ≤ e → (q.1 = true ↔ m ≤ b.cr) ∧ (m ≤ b.cr → q.2.w = (b.w + m) % b.units ∧ q.2.cr = b.cr - m ∧
      ∃ r, q.2.recs = b.recs ++ [r] ∧ r.skip = false ∧ r.pos = b.w ∧ r.units = m ∧ r.payload = pl ∧ r.written = false) ∧ (b.cr < m → q.2 = b)) ∧
    (e < m → e + m ≤ b.units → (q.1 = true ↔ e + m ≤ b.cr) ∧ (e + m ≤ b.cr → q.2.w = m % b.units ∧ q.2.cr = b.cr - (e + m) ∧
      ∃ k r, q.2.recs = b.recs ++ [k, r] ∧ k.skip = true ∧ k.pos = b.w ∧ k.units = e ∧ k.seq = r.seq ∧ r.skip = false ∧ r.pos = 0 ∧ r.payload = pl) ∧
      (b.cr < e + m → q.2 = b)) ∧
    (b.units < e + m → e < m → e ≤ b.cr → (q.1 = true ↔ e + m ≤ b.cr) ∧ (b.cr < e + m → q.2.w = 0 ∧ q.2.cr = b.cr - e ∧
      ∃ k, q.2.recs = b.recs ++ [k] ∧ k.skip = true ∧ k.pos = b.w ∧ k.units = e))) ∧
  (∀ (s : State) (ep n : Nat) (r : SlRec) (rs : List SlRec), let b := s.basin ep n
    b.recs = r :: rs → r.skip = false → r.written = false →
    ∃ t, exec (.sluiceMessage ep n 0) s = .next t ∧ t.basin ep n = { b with recs := { r with written := true } :: rs } ∧
      (t.basin ep n).head = some { r with written := true } ∧
      (∀ k, epPair ep = some k → (s.pair k).readWait = some n → (t.pair k).readWait = none ∧ t.out = .jnrData k (recvWord r) :: s.out) ∧
      (epPair ep = none → t.out = s.out ∧ OnlyBasin ep n { s with man := { s.man with sluice := t.man.sluice } } t) ∧
      t.man.sluice = (s.writeSluice ep (b.base.toNat + 64 * r.pos) (r.bytes (32 * ep + n))).man.sluice) ∧
  (∀ (s : State) (ep n : Nat), let b := s.basin ep n
    let c := { b with cr := b.cr + b.returning, returning := 0 }
    ((s.sport (epOf b.src)).waiting = none → ∃ t, exec (.sluiceCredit ep n) s = .next t ∧ t.basin ep n = c ∧ OnlyBasin ep n s t) ∧
    (∀ w, (s.sport (epOf b.src)).waiting = some w → epOf w.dst = ep → w.dst.toNat % 32 = n → let q := c.place (epAddr (epOf b.src)) w.tag s.now w.payload
      ∃ t, exec (.sluiceCredit ep n) s = .next t ∧ t.basin ep n = q.2 ∧
        (q.1 = true → (t.sport (epOf b.src)).waiting = none ∧ (t.sport (epOf b.src)).sendRes = 0) ∧ (q.1 = false → t.man.ports = s.man.ports))) ∧
  (∀ (s : State) (k n : Nat), s.pairRuns k = true → let ep := pairEp k
    let b := s.basin ep n
    (b.en = false → exec (.jnrRecv k n) s = .next (s.emitOut (.jnrData k 0))) ∧
    (∀ r, b.en = true → b.head = some r → exec (.jnrRecv k n) s = .next (s.emitOut (.jnrData k (recvWord r)))) ∧
    (b.en = true → b.head = none → ∃ t, exec (.jnrRecv k n) s = .next t ∧ t.pair k = { s.pair k with readWait := some n } ∧ OnlyPair k s t)) ∧
  (∀ (s : State) (k n : Nat), s.epRuns k = true → let ep := sluiceEp k
    let b := s.basin ep n
    (∀ r rs, b.recs = r :: rs → r.skip = false → r.written = true → (∀ x, rs.head? = some x → x.skip = false) →
      ∃ t, exec (.jnrRel k n) s = .next t ∧ t.basin ep n = { b with recs := rs, returning := b.returning + r.units } ∧ OnlyBasin ep n s t) ∧
    (b.head = none → exec (.jnrRel k n) s = .next s)) ∧
  (∀ (s : State) (k n : Nat) (v : Word), s.canBind k = true → n < epBasins k → let ep := sluiceEp k
    let b := s.basin ep n
    let sz := fieldOf v 62 59
    (b.idle = false → ∃ t, exec (.jnrBasinBind k n v) s = .next t ∧ t.basin ep n = { b with st := 1 } ∧ OnlyBasin ep n s t) ∧
    (b.idle = true → k < 48 → (6 < sz ∨ (v.getLsbD 63 = true ∧ 512 < s.basinKib ep n + 2 ^ sz)) → ∃ t, exec (.jnrBasinBind k n v) s = .next t ∧
      t.basin ep n = { b with st := 2 } ∧ OnlyBasin ep n s t) ∧
    (b.idle = true → (k < 48 → sz ≤ 6 ∧ (v.getLsbD 63 = true → s.basinKib ep n + 2 ^ sz ≤ 512)) → ∃ t, exec (.jnrBasinBind k n v) s = .next t ∧ OnlyBasin ep n s t ∧
      t.basin ep n = { b with en := v.getLsbD 63, sz := BitVec.ofNat 4 sz, src := v.extractLsb' 32 16, st := 0, base := v.extractLsb' 0 19
                              units := epUnits k sz, w := 0, cr := epUnits k sz, returning := 0, recs := [] }))

/-- From the cold start to the boot ROM each stage of bring-up powers, locks and checks its units, then passes or stops
with its code. A cold start clears all but fuses, Grain log and fence lists, sets Tide to 0 and begins stage 1. Each
rim segment in its slot is powered or left off; after the last every sill is on and stage 2 begins. Each bay in its
slot is powered with its tiles in RESET, or its fuse opens and it is fenced; the last ends stage 2. The root PLL locks
to the reference or a trimmed oscillator with Tide at 0. Stage 3 locks the bays' oscillators and loses those that do
not; without a root it fails. Stage 4 passes or fails with the fuses' check, stage 5 with the ROM's and its pairs'.
(R433, R554, R555, R687, R704, R719, R724, R725, R726, R728, R766, R769) -/
def Obligations.BringUpStagesOneToFive : Prop :=
  ∀ s : State,
    (s.phys.power.feed = false → ∃ t, exec .coldStart s = .next t ∧ t.tide = 0 ∧ t.boot.stage = 1 ∧ t.boot.st = .running ∧
      t.field Reg.bootStage 63 48 = 0x0100 ∧ t.phys.power.feed = true ∧ t.phys.power.segs = 0 ∧ (∀ b, (t.bay b).supply = .off) ∧
      t.comp.hbm = [] ∧ t.comp.parts = [] ∧ t.man.fuses = s.man.fuses ∧ t.pending = s.pending ∧
      t.comp.fences = ((s.committedFences.map Fence.atColdStart).filter fun e => e.fuse || e.field) ∧ t.comp.hosts = s.committedHosts) ∧
    (∀ (n : Nat) (good : Bool), let w := s.phys.power
      let v := s.modPower fun w => { w with segSlot := n + 1, segs := if good then w.segs ||| ((1 : BitVec 24) <<< n) else w.segs }
      w.feed = true → s.boot.stage = 1 → n = w.segSlot → n < 24 → (n = 0 ∨ s.segUp 0 = true) →
      ∃ t, exec (.rimSegPowerStep n good) s = .next t ∧
        (n ≠ 23 → (good = true ∨ n = 0) → t = v) ∧ (n ≠ 23 → good = false → n ≠ 0 → Signals Ev.rimSegLost 0 [n] v t) ∧
        (n = 23 → StageOver 1 t ∧ t.phys.power = v.phys.power ∧ ∀ b, b < 84 → (t.bay b).sill = true)) ∧
    (∀ (b : Nat) (good : Bool), let i := s.phys.power.baySlot
      s.boot.stage = 2 → i < 84 → b = slotBay i → ∃ t, exec (.bayPowerStep b good) s = .next t ∧ t.phys.power.baySlot = i + 1 ∧
        (good = true → (t.bay b).supply = .on ∧ ∀ x : PT, x.valid = true → x.bay = b → (t.tile x).s.seq = .reset ∧ t.router x = Router.reset) ∧
        (good = false → (t.bay b).supply = .open_ ∧ t.isFenced 6 b = true) ∧ (i = 83 → StageOver 2 t) ∧ (i ≠ 83 → t.boot.stage = 2)) ∧
    (∀ (ref sync : Bool) (trim : BitVec 10), s.phys.clock.rootLock = false → (s.boot.stage = 2 ∨ s.boot.stage = 3) → s.boot.st = .running →
      s.segUp 0 = true →
      (ref = true ∨ sync = true → ∃ t, exec (.rootPllLock ref sync trim) s = .next t ∧ t.phys.clock.rootLock = true ∧ t.phys.clock.trim = trim ∧
        t.phys.clock.src = (if ref then 1 else 2) ∧ t.tide = 0 ∧ t.phys.time.heldPeriod = none ∧ t.boot.stage = s.boot.stage ∧
        (∀ v, s.phys.time.heldPeriod = some v → t.field Reg.tideSync 19 0 = v % 2 ^ 20) ∧ t.comp = s.comp) ∧
      (ref = false → sync = false → exec (.rootPllLock ref sync trim) s = .next s)) ∧
    (∀ un : List Nat, s.inStage 3 = true →
      (s.phys.clock.rootLock = false → ∃ t, exec (.rippleLock un) s = .next t ∧ StageFails 0x0381 t) ∧
      (s.phys.clock.rootLock = true → ∃ t, exec (.rippleLock un) s = .next t ∧ StageOver 3 t ∧
        ∀ b, b < 84 → (s.bay b).supply = .on → (b ∉ un → (t.bay b).ripple = true ∧ (t.bay b).supply = .on) ∧
          (b ∈ un → (t.bay b).ripple = false ∧ t.isFenced 6 b = true))) ∧
    (s.inStage 4 = true → (∃ t, exec (.fuseRead true) s = .next t ∧ StageOver 4 t) ∧ (∃ t, exec (.fuseRead false) s = .next t ∧ StageFails 0x0481 t)) ∧
    (∀ bad : List Nat, s.inStage 5 = true → s.boot.perst = false → let ok := s.romPairs.filter fun k => !bad.contains k
      (∃ t, exec (.bootRom false bad) s = .next t ∧ StageFails 0x0581 t) ∧
      (ok = [] → ∃ t, exec (.bootRom true bad) s = .next t ∧ StageFails 0x0582 t) ∧
      (∀ k ks, ok = k :: ks → ∃ t, exec (.bootRom true bad) s = .next t ∧ t.boot.stage = 6 ∧ t.boot.st = .waiting ∧ t.boot.pair = k ∧
        t.field Reg.bootStage 63 48 = 0x0610 ∧ ∀ j ∈ s.romPairs, j ∈ bad → (t.pair j).stopped = true)) ∧
    (s.boot.perst = true → ∀ g bad, exec (.bootRom g bad) s = .next s)

/-- Fetch, verification, training, self-test, routes, map, links and the last stage each pass, wait, or stop with the code
of what failed. A fetch that brings the image ends stage 6, one that fails posts 0x06A8 and stage 6 waits again. The
image passes every check of R777, or is rejected with its first reason. Stage 8 brings trained stacks up, zeroed at a
cold start; it fails with none, and rejects an image with a bad part. Stage 9 waits in a halt, is skipped by the fast
path, or visits and fences the units that fail. Stage 10 empties the route tables; stage 11 knows the fence set that
the map is built for; stage 12 trains ports. After stage 13 the module is ready: duties and endpoints are given and
tiles in RESET are IDLE unless fenced. (R433, R468, R469, R548, R571, R769, R774, R777, R779, R782, R789, R870) -/
def Obligations.BringUpStagesSixToThirteen : Prop :=
  ∀ s : State,
    (∀ h : HostOutcome, s.boot.stage = 6 → s.boot.st = .waiting → s.segUp 0 = true →
      (∀ i, (s.fetchImage h).1 = some i → ∃ t, exec (.bootFetch h) s = .next t ∧ StageOver 6 t ∧ t.boot.image = some i) ∧
      ((s.fetchImage h).1 = none → ∃ t, exec (.bootFetch h) s = .next t ∧ t.boot.stage = 6 ∧ t.boot.st = .waiting ∧
        t.field Reg.bootFail 63 48 = 0x06A8 ∧ t.field Reg.bootStage 63 48 = 0x0610)) ∧
    (∀ i, s.boot.image = some i → s.inStage 7 = true →
      (s.verifyReason i (s.field Reg.bootImglen 31 0) = none → ∃ t, exec .imageVerify s = .next t ∧ StageOver 7 t ∧ t.boot.running = some i ∧
        t.reg Reg.bootImage = BitVec.ofNat 64 i.version) ∧
      (∀ r, s.verifyReason i (s.field Reg.bootImglen 31 0) = some r → ∃ t, exec .imageVerify s = .next t ∧ ImageRejected (0x07A0 + r) t)) ∧
    (∀ i un, s.boot.image = some i → s.inStage 8 = true → let ok := ((List.range 24).filter fun k => s.segUp k).filter fun k => !un.contains k
      (ok = [] → ∃ t, exec (.hbmTraining un) s = .next t ∧ StageFails 0x0881 t) ∧
      (ok ≠ [] → i.partsOk = false → ∃ t, exec (.hbmTraining un) s = .next t ∧ ImageRejected 0x08A7 t) ∧
      (ok ≠ [] → i.partsOk = true → ∃ t, exec (.hbmTraining un) s = .next t ∧ StageOver 8 t ∧ ∀ k ∈ ok, (t.stack k).up = true ∧
        t.boot.copies = copyStacks ((List.range 24).filter fun k => t.segUp k && (t.stack k).up) ∧ (s.warm = false → (t.stack k).poison = [] ∧ (t.stack k).errs = [] ∧ ∀ o, o < 2 ^ 37 → Tab.get 0 t.comp.hbm (hbmKey k o) = 0) ∧
        (s.warm = true → t.comp.hbm = s.comp.hbm))) ∧
    (∀ ti ro li bp : List Nat, s.inStage 9 = true → let pa := if s.boot.copies = [] then List.range 84 else bp
      (s.phys.power.halted = true → exec (.baySelfTest ti ro li bp) s = .next s) ∧
      (s.phys.power.halted = false → s.fastPath = true → ∃ t, exec (.baySelfTest ti ro li bp) s = .next t ∧ StageOver 9 t ∧
        t.field Reg.bootStage 31 31 = 1 ∧ eventRecord Ev.bootFastpath 0 [] s.tide ∈ t.man.grain.waiting ∧ SameTiles s t ∧ t.comp.fences = s.comp.fences) ∧
      (s.phys.power.halted = false → s.fastPath = false → ∃ t, exec (.baySelfTest ti ro li bp) s = .next t ∧ StageOver 9 t ∧
        t.boot.stage9 = some s.now ∧ t.boot.fatalSince = false ∧ t.boot.fencedSince = false ∧
        (∀ b, b < 84 → (s.bay b).supply = .on → b ∈ pa → t.isFenced 6 b = true ∧ (t.bay b).supply = .open_) ∧
        (∀ x : PT, x.valid = true → (s.bay x.bay).supply = .on → x.bay ∉ pa → x.key ∈ ti → t.isFenced 1 (tileId x) = true ∧
          ((s.tile x).s.seq ≠ .off → (t.tile x).s.seq = .reset)))) ∧
    (s.inStage 10 = true → (∃ t, exec (.routeBuild false) s = .next t ∧ StageFails 0x0A81 t) ∧
      (∃ t, exec (.routeBuild true) s = .next t ∧ StageOver 10 t ∧ ∀ x : PT, x.valid = true → (s.bay x.bay).supply = .on →
        (t.router x).scarf0 = [] ∧ (t.router x).scarf1 = [] ∧ (t.router x).fab0 = FabTables.empty ∧ (t.router x).fab1 = FabTables.empty ∧ (t.router x).ep = false ∧ (t.router x).gen = 0)) ∧
    (s.inStage 11 = true → ∃ t, exec .gradingAndMap s = .next t ∧ StageOver 11 t ∧ t.comp.fences = s.comp.fences ∧
      (s.warm = false → s.sameFences = false → t.boot.rebuilt = some s.fenceKeys) ∧
      (s.warm = true ∨ s.sameFences = true → t.comp.hosts = s.comp.hosts ∧ t.boot.grade = s.boot.grade ∧ t.boot.rebuilt = s.boot.rebuilt)) ∧
    (∀ found, s.inStage 12 = true → ∃ t, exec (.linkTraining found) s = .next t ∧ StageOver 12 t ∧
      ∀ p, p < 32 → s.segUp (3 * p / 4) = true → ((s.stlp p).st = .up → (t.stlp p).st = .up) ∧
        ((s.stlp p).st ≠ .up → s.portEn p = false → (t.stlp p).st = .down)) ∧
    (s.inStage 13 = true → ∃ t, exec .bootReady s = .next t ∧ t.boot.st = .ready ∧ t.boot.stage = 13 ∧ t.boot.endAt = some s.now ∧
      t.field Reg.bootStage 63 48 = 0x0D01 ∧
      (∀ k, k < 48 → s.pairLive k = true → (t.pair k).adopted.getLsbD k = true ∧ (k < 43 → (t.pair k).duties.getLsbD k = true)) ∧
      ((∀ e ∈ s.comp.fences, e.kind = 1 ∨ e.kind = 2 → (tileOfId e.id).valid = true) →
       ∀ x : PT, x.valid = true → (s.bay x.bay).supply = .on → (s.tile x).s.seq = .reset →
        (s.tileFenced x = false → (t.tile x).s.seq = .idle ∧ (t.tile x).queues = [] ∧ (t.tile x).c.gen = 0) ∧
        (s.tileFenced x = true → t.tile x = s.tile x)))

/-- A live image replaces the running one cluster by cluster; a fault of the feed, a fuse, a rim segment or a trip takes
its units down. A LIVE write while ready: an image that cannot be fetched is refused with reason 8, one that fails a
check with that check's, else the replacement runs. Each cluster that can be handed over is marked and reported; a
recovery of 10 s stops it; after the last cluster the image is the running one. A feed fault leaves only fuses, Grain
log, committed fences and hostings, and Tide, latched off. A bay's fuse leaves it open, its tiles OFF, fenced as KIND
6 and reported. A rim segment takes its stack, ports and bytes; segment 0 takes the root and PCIe. A thermal trip does
so with THERM_N low until the next cold start. (R57, R566, R720, R721, R730, R731, R752, R754, R791, R792, R793, R797) -/
def Obligations.LiveReplacementAndSupplyLoss : Prop :=
  ∀ s : State,
    (∀ h : HostOutcome, s.boot.st = .ready → s.segUp 0 = true → (s.liveSt = 0 ∨ s.liveSt = 4 ∨ s.liveSt = 5 ∨ s.liveSt = 6) →
      ((s.fetchImage h).1 = none → ∃ t, exec (.bootLive h) s = .next t ∧ t.liveSt = 5 ∧ t.field Reg.bootLive 59 56 = 8) ∧
      (∀ i r, (s.fetchImage h).1 = some i → (s.fetchImage h).2.liveReason i = some r → ∃ t, exec (.bootLive h) s = .next t ∧ t.liveSt = 5 ∧
        t.field Reg.bootLive 59 56 = r ∧ t.boot = { s.boot with asked := s.boot.asked &&& 1 }) ∧
      (∀ i, (s.fetchImage h).1 = some i → (s.fetchImage h).2.liveReason i = none → ∃ t, exec (.bootLive h) s = .next t ∧ t.liveSt = 3 ∧
        t.field Reg.bootLive 59 56 = 0 ∧ t.boot.liveImage = some i ∧ t.boot.liveAt = s.now ∧
        t.boot.copies = copyStacks ((List.range 24).filter fun k => s.segUp k && (s.stack k).up) ∧
        t.field Reg.bootLive 51 40 = if s.liveSt = 6 then s.field Reg.bootLive 51 40 else 0)) ∧
    (∀ i c, s.boot.liveImage = some i → s.liveSt = 3 →
      (s.liveCluster = some c → s.mayReplace c = true → ∃ u t, exec (.liveClusterReplace c) s = .next t ∧
        Signals Ev.fwClusterReloaded 0 [c, i.version] u t ∧ (u.reg Reg.bootLive).getLsbD (40 + c) = true ∧ u.boot.liveAt = s.now ∧
        u.boot.liveImage = some i ∧ SameTiles s u ∧ u.comp.parts = s.comp.parts) ∧
      (s.liveCluster = some c → (s.livePairs c).any (fun k => s.pairInRecovery k) = true → ∃ t, exec .liveReplaceStop s = .next t ∧ t.liveSt = 6 ∧
        t.tide = (s.passTo (s.boot.liveAt + 10 * secondNs)).tide ∧ OnlyRegs [Reg.bootLive] { s with tide := t.tide } t) ∧
      (s.liveCluster = none → ∃ t, exec .sillReload s = .next t ∧ t.liveSt = 4 ∧ t.boot.running = some i ∧ t.boot.liveImage = none ∧
        t.reg Reg.bootImage = BitVec.ofNat 64 i.version)) ∧
    (s.phys.power.feed = true → ∃ t, exec .feedFault s = .next t ∧ t.phys.power.feed = false ∧ t.phys.power.latched = true ∧ t.phys.power.segs = 0 ∧
      (∀ b, (t.bay b).supply = .off) ∧ (∀ x, (t.tile x).s.seq = .off) ∧ (∀ a, t.reg a = regReset a) ∧ t.tide = s.tide ∧ t.pending = s.pending ∧
      (s.comp.pubs = [] → t.comp.fences = s.comp.fences ∧ t.comp.hosts = s.comp.hosts) ∧
      (s.writerRuns = false → t.comp.fences = s.committedFences ∧ t.comp.hosts = s.committedHosts) ∧ t.man.fuses = s.man.fuses ∧ t.boot.st = State.reset.boot.st) ∧
    (∀ b c, b < 84 → ((s.bay b).supply = .on ∨ (s.bay b).supply = .ramping) → ∃ t, exec (.pwrBayFuse b c) s = .next t ∧ (t.bay b).supply = .open_ ∧
      (t.bay b).ripple = false ∧ (t.bay b).volts = 0 ∧ t.isFenced 6 b = true ∧ t.field (Reg.silPwrstat b) 19 16 = c.code ∧
      t.field Reg.pwrCnt 47 32 = min (s.field Reg.pwrCnt 47 32 + 1) 0xFFFF ∧ (∀ x : PT, x.valid = true → x.bay = b → t.tile x = Tile.reset) ∧
      eventRecord Ev.pwrBayFuse (s.bayOwner b) [b, c.code] s.tide ∈ t.man.grain.waiting) ∧
    (∀ b c, (s.bay b).supply ≠ .on → (s.bay b).supply ≠ .ramping → exec (.pwrBayFuse b c) s =
      .next (if c = .sillSupply ∧ b < 84 then s.modBay b fun x => { x with sill := false } else s)) ∧
    (∀ n, s.segUp n = true → n < 24 → ∃ t, exec (.rimSegLost n) s = .next t ∧ t.segUp n = false ∧ (t.stack n).up = false ∧
      (∀ p, p < 32 → 3 * p / 4 = n → (t.stlp p).st = .off) ∧ t.field Reg.pwrCnt 47 32 = min (s.field Reg.pwrCnt 47 32 + 1) 0xFFFF ∧
      (n ≠ 0 → eventRecord Ev.rimSegLost 0 [n] s.tide ∈ t.man.grain.waiting) ∧
      (n = 0 → t.host.pcie.up = false ∧ t.phys.clock.rootLock = false ∧ t.man.pins.thermN = true ∧ t.boot.fatalSince = true ∧ t.boot.faultPin = true)) ∧
    (∀ b, b < 84 → (s.bay b).supply = .on → ∃ t, exec (.thermTrip (.bay b)) s = .next t ∧ t.phys.power.trips = true ∧ t.man.pins.thermN = !s.segUp 0 ∧
      (t.bay b).supply = .open_ ∧ t.isFenced 6 b = true ∧ eventRecord Ev.thermTrip (s.bayOwner b) [b] s.tide ∈ t.man.grain.waiting) ∧
    (∀ n, n < 24 → s.segUp n = true → ∃ t, exec (.thermTrip (.segment n)) s = .next t ∧ t.phys.power.trips = true ∧ t.man.pins.thermN = !(decide (n ≠ 0) && s.segUp 0) ∧
      t.segUp n = false ∧ eventRecord Ev.thermTrip 0 [84 + n] s.tide ∈ t.man.grain.waiting)

/-- Step-downs, wear budgets, thermal limits and HALT_N hold and release surge and issue as laid down, count, and raise
their events. A draw above 36 kW starts a step-down that holds a bay of highest wear; each 10 us it ends at 30 kW with
SURGE_STEPDOWN or holds one more; cool and empty, the last bay held is released. Wear of 10% refuses surge with
SURGE_REFUSED, below 8% permits it; each hour's bucket is recorded. Above 95 C a unit counts and raises THERM_HIGH
once, THERM_N is low, and a bay still hot after 1 ms brakes until it has been below 90 C for 10 ms. A margin record
leaves for the Grain log. HALT_N halts the module once, counted and reported; RESUME with HALT_N high ends it.
PWR_SURGE keeps its two bits. (R734, R739, R740, R743, R744, R745, R749, R750, R751, R755, R759, R762) -/
def Obligations.SurgeThermalAndHaltLimits : Prop :=
  ∀ s : State,
    (∀ d, let u := s.setDraw d
      (s.phys.power.stepping = false → 36000 < d → ∃ t, exec (.surgeStepdown d) s = .next t ∧ t.phys.power.stepping = true ∧ t.phys.power.draw = d ∧
        t.phys.power.stepDraw = d ∧ t.tide = s.tide ∧ t.field Reg.pwrCnt 63 48 = min (s.field Reg.pwrCnt 63 48 + 1) 0xFFFF ∧
        (∀ b, u.nextHeld = some b → (t.bay b).stepped = true ∧ t.phys.power.heldBays = s.phys.power.heldBays ++ [b]) ∧
        (u.nextHeld = none → t.phys.power.heldBays = s.phys.power.heldBays)) ∧
      (s.phys.power.stepping = false → 30000 < d → d ≤ 36000 → ∃ t, exec (.surgeStepdown d) s = .next t ∧ t.phys.power.stepping = true ∧
        t.phys.power.stepDraw = d ∧ t.tide = (u.passTo (u.now + (1990000 - u.phys.power.bucket) / 10 * 1000)).tide ∧
        t.field Reg.pwrCnt 63 48 = min (s.field Reg.pwrCnt 63 48 + 1) 0xFFFF) ∧
      (d ≤ 30000 ∨ s.phys.power.stepping = true → exec (.surgeStepdown d) s = .next u ∧ u.phys.power.draw = d ∧ u.phys.power.stepping = s.phys.power.stepping)) ∧
    (∀ d, s.phys.power.stepping = true → let u := (s.pass 10000).setDraw d
      (d ≤ 30000 ∨ u.nextHeld = none → ∃ v t, exec (.stepdownStep d) s = .next t ∧ v = u.modPower (fun w => { w with stepping := false }) ∧
        Signals Ev.surgeStepdown 0 [s.phys.power.stepDraw, s.phys.power.heldBays.length] v t) ∧
      (∀ b, 30000 < d → u.nextHeld = some b → ∃ t, exec (.stepdownStep d) s = .next t ∧ (t.bay b).stepped = true ∧
        t.phys.power.heldBays = s.phys.power.heldBays ++ [b] ∧ t.tide = (s.pass 10000).tide)) ∧
    (∀ d b, d ≤ 29000 → s.phys.power.stepping = false → s.phys.power.heldBays.getLast? = some b → ∃ t, exec (.stepdownRelease d) s = .next t ∧
      (t.bay b).stepped = false ∧ t.phys.power.heldBays = s.phys.power.heldBays.dropLast ∧ s.now ≤ t.now) ∧
    (∀ b, (s.bay b).sill = true →
      ((s.bay b).refused = false → 720 * hourUs ≤ 10 * s.wearSum b → ∃ u t, exec (.surgeWearEval b) s = .next t ∧
        Signals Ev.surgeRefused 0 [b, s.wearAvg b] u t ∧ (t.bay b).refused = true ∧ OnlyBay b s u) ∧
      ((s.bay b).refused = true → 100 * s.wearSum b < 8 * (720 * hourUs) → ∃ t, exec (.surgeWearEval b) s = .next t ∧ (t.bay b).refused = false ∧
        OnlyBay b s t) ∧
      (let u := s.passTo ((s.bay b).hourAt + hourNs)
       ∃ t r, exec (.surgeHourEnd b) s = .next t ∧ t.man.grain.waiting = s.man.grain.waiting ++ [r] ∧ r.type = 0x0070 ∧
        r.body = padTo 216 (bucketRec b (s.bay b).hourIdx (u.surgeHour b) u.now).body ∧
        (t.bay b).wear = (s.bay b).wear.drop 1 ++ [(u.surgeHour b, false)] ∧ (t.bay b).hour = 0 ∧ (t.bay b).hourIdx = (s.bay b).hourIdx + 1 ∧
        (t.bay b).hourAt = u.now ∧ t.tide = u.tide)) ∧
    (∀ b rs, (s.bay b).sill = true → let x := rs.foldl max 0
      ∃ t, exec (.thermSample (.bay b) rs) s = .next t ∧ (t.bay b).temp = x ∧ t.man.pins.thermN = !(s.segUp 0 && (t.anyHot || s.phys.power.trips)) ∧ (95 < x → t.anyHot = true ∧ (t.bay b).hot = true) ∧
        (95 < x → (s.bay b).hot = false → (t.bay b).hotAt = s.now ∧ t.field Reg.pwrCnt 31 16 = min (s.field Reg.pwrCnt 31 16 + 1) 0xFFFF ∧
          eventRecord Ev.thermHigh (s.bayOwner b) [b, x] s.tide ∈ t.man.grain.waiting) ∧
        (x ≤ 95 → (t.bay b).hot = (s.bay b).hot ∧ t.regs = s.regs)) ∧
    (∀ n rs, n < 24 → s.segUp n = true → let x := rs.foldl max 0
      ∃ t, exec (.thermSample (.segment n) rs) s = .next t ∧ t.phys.power.segHot.getLsbD n = decide (95 < x) ∧
        t.man.pins.thermN = !(s.segUp 0 && (t.anyHot || s.phys.power.trips)) ∧ (95 < x → t.anyHot = true) ∧ (95 < x → s.phys.power.segHot.getLsbD n = false →
          eventRecord Ev.thermHigh 0 [84 + n, x] s.tide ∈ t.man.grain.waiting)) ∧
    (∀ b, let x := s.bay b
      (x.hot = true → x.braked = false → 95 < x.temp → ∃ t, exec (.thermBrake b) s = .next t ∧ (t.bay b).braked = true ∧
        t.tide = (s.passTo (x.hotAt + 1000000)).tide ∧ OnlyBay b { s with tide := t.tide } t) ∧
      (∀ a, x.coolAt = some a → (x.hot = true ∨ x.braked = true) → ∃ t, exec (.thermRelease b) s = .next t ∧ (t.bay b).hot = false ∧
        (t.bay b).braked = false ∧ t.tide = (s.passTo (a + 10000000)).tide ∧ OnlyBay b { s with tide := t.tide } t) ∧
      (x.sill = true → ∃ t r, exec (.marginRecord b) s = .next t ∧ t.man.grain.waiting = s.man.grain.waiting ++ [r] ∧ r.type = 0x0050 ∧
        (t.bay b).vmin ≤ x.vmin ∧ x.droops.toNat ≤ (t.bay b).droops.toNat ∧
        OnlyBay b { s with free := t.free, man := t.man } t)) ∧
    (s.phys.power.halted = false → s.segUp 0 = true → ∃ t, exec .haltN s = .next t ∧ t.phys.power.halted = true ∧ t.phys.power.haltPin = false ∧
      t.phys.power.haltAt = s.now ∧ t.field Reg.pwrCnt 15 0 = min (s.field Reg.pwrCnt 15 0 + 1) 0xFFFF ∧
      eventRecord Ev.haltAsserted 0 [] s.tide ∈ t.man.grain.waiting ∧ (∀ b, b < 84 → (t.bay b).surgeAt = none) ∧ SameTiles s t) ∧
    (s.phys.power.halted = true ∨ s.segUp 0 = false → exec .haltN s = .next (s.modPower fun w => { w with haltPin := false })) ∧
    (exec .haltNRelease s = .next (s.modPower fun w => { w with haltPin := true })) ∧
    (s.phys.power.halted = true → s.phys.power.haltPin = true → (∀ kx ∈ s.comp.parts, ∀ ke ∈ kx.2.puts, ke.2.unsent = []) → ∃ t, exec .pwrResume s = .next t ∧ t.phys.power.halted = false ∧ t.regs = s.regs ∧
      t.tide = s.tide ∧ (∀ x, SameData (s.tile x) (t.tile x) ∧ (t.tile x).s.seq = (s.tile x).s.seq ∧ (t.tile x).queues = (s.tile x).queues ∧
        (t.tile x).q = (s.tile x).q)) ∧
    (s.phys.power.halted = false ∨ s.phys.power.haltPin = false → exec .pwrResume s = .next s) ∧
    (∀ v, ∃ t, exec (.pwrSurgeWrite v) s = .next t ∧ t.reg Reg.pwrSurge = v &&& 3 ∧ SameTiles s t ∧
      ∀ b, b < 84 → ((t.bay b).surgeAt.isSome = true ↔ t.issueState b = .surge))

/-- The root, the dividers and Tide follow their rules: holdover, unlock, one-unit steps, refusals, forward steps and
slew. Lost reference edges begin a counted holdover, ended by their return or, 10 ms on, by ROOT_PLL_UNLOCK. Re-trims
are stored on time. A CLK_HDIV write is refused with its first cause, counted, and by ratio reported; an accepted one
moves the dividers one unit each 1 us, faster once the voltage is reached, and ends with both at target, counted. An
unlocked bay is lost. A measurement in free run slews by integ alone; an offset beyond STEP steps Tide forward, any
other gives the servo's slew. A SYNC_IN edge is accepted or ignored and counted; its loss after 2 s is reported.
TIDE_SET moves Tide forward only. (R686, R687, R692, R693, R695, R696, R698, R706, R709, R710, R713, R715) -/
def Obligations.ClocksAndTideAreSteered : Prop :=
  ∀ s : State, let c := s.phys.clock
    let x := s.phys.time
    (c.rootLock = true → c.src = 1 → c.holdSince = none → ∃ t, exec .refHoldover s = .next t ∧ t.phys.clock = { c with holdSince := some s.now } ∧
      t.field Reg.clkStat 47 32 = min (s.field Reg.clkStat 47 32 + 1) 0xFFFF ∧ OnlyRegs [Reg.clkStat] { s with phys := t.phys } t) ∧
    (∀ a, c.holdSince = some a → (s.now < a + 10000000 → exec .refReturn s = .next (s.modClock fun c => { c with holdSince := none })) ∧
      (a + 10000000 ≤ s.now → exec .refReturn s = .next s)) ∧
    (c.rootLock = true → ∃ u t, exec .rootPllUnlock s = .next t ∧ Signals Ev.rootPllUnlock 0 [] u t ∧ u.phys.clock.rootLock = false ∧
      u.phys.clock.src = 0 ∧ (∀ a, c.holdSince = some a → u.tide = (s.passTo (a + 10000000)).tide) ∧ (c.holdSince = none → u.tide = s.tide)) ∧
    (∀ tr, c.rootLock = true →
      (c.src = 1 → c.holdSince = none → ∃ t, exec (.oscRetrim tr) s = .next t ∧ t.phys.clock.trim = tr ∧ t.phys.clock.trimAt = t.now ∧
        t.tide = (s.passTo (c.trimAt + 100000000)).tide ∧ t.regs = s.regs) ∧
      (c.src ≠ 1 → 17 ≤ x.trimEdges → ∃ t, exec (.oscRetrim tr) s = .next t ∧ t.phys.clock.trim = tr ∧ t.phys.time.trimEdges = 1 ∧ t.tide = s.tide)) ∧
    (∀ b, b < 84 → (s.bay b).ripple = true → s.rippleQuiet b = false → ∃ t, exec (.rippleUnlock b) s = .next t ∧ (t.bay b).ripple = false ∧
      t.isFenced 6 b = true ∧ t.field Reg.clkCnt 63 32 = min (s.field Reg.clkCnt 63 32 + 1) 0xFFFFFFFF ∧
      eventRecord Ev.rippleUnlock (s.bayOwner b) [b] s.tide ∈ t.man.grain.waiting) ∧
    (∀ v, let w := fieldOf v 5 0
      let e := fieldOf v 13 8
      (s.hdivCause w e ≠ 0 → ∃ u t, exec (.clkHdivWrite v) s = .next t ∧ u.field Reg.clkHstat 39 37 = s.hdivCause w e ∧
        u.field Reg.clkHstat 63 48 = min (s.field Reg.clkHstat 63 48 + 1) 0xFFFF ∧ OnlyRegs [Reg.clkHstat] { s with stage := u.stage } u ∧
        (s.hdivCause w e = 1 → Signals Ev.clkRatioRefused 0 [w, e] u t) ∧ (s.hdivCause w e ≠ 1 → t = u)) ∧
      (s.hdivCause w e = 0 → ∃ t, exec (.clkHdivWrite v) s = .next t ∧ t.reg Reg.clkHdiv = v &&& 0x3F3F ∧ t.phys.clock.changing = true ∧
        t.phys.clock.wcur = c.wcur ∧ t.phys.clock.ecur = c.ecur ∧ OnlyRegs [Reg.clkHdiv] { s with comp := t.comp, phys := t.phys, stage := t.stage } t ∧ SameTiles s t)) ∧
    (let w := stepToward c.wcur s.wTarget
     let e := stepToward c.ecur s.eTarget
     (c.changing = true → (w ≠ c.wcur ∨ e ≠ c.ecur) → ∃ t, exec .clkDividerStep s = .next t ∧
       ((w ≠ c.wcur ∧ (e = c.ecur ∨ ratioOk w c.ecur = true)) → t.phys.clock = { c with wcur := w } ∧
         t.tide = (s.pass (if w < c.wcur then max 1000 (s.slewNs false (arrayVolts w)) else 1000)).tide ∧
         ∀ b, b < 84 → bayEast b = false → (s.bay b).supply = .on → (t.bay b).volts = arrayVolts w) ∧
       (¬ (w ≠ c.wcur ∧ (e = c.ecur ∨ ratioOk w c.ecur = true)) → t.phys.clock = { c with ecur := e } ∧
         t.tide = (s.pass (if e < c.ecur then max 1000 (s.slewNs true (arrayVolts e)) else 1000)).tide ∧
         ∀ b, b < 84 → bayEast b = true → (s.bay b).supply = .on → (t.bay b).volts = arrayVolts e) ∧ t.regs = s.regs ∧ SameTiles s t)) ∧
    (c.changing = true → c.wcur = s.wTarget → c.ecur = s.eTarget → ∃ t, exec .clkChangeDone s = .next t ∧ t.phys.clock.changing = false ∧
      t.field Reg.clkCnt 31 0 = (s.field Reg.clkCnt 31 0 + 1) % 2 ^ 32 ∧ (c.wchg = true → t.phys.clock.wQuiet = s.now + 10000) ∧
      (c.echg = true → t.phys.clock.eQuiet = s.now + 10000) ∧ SameTiles s t) ∧
    (c.rootLock = true → let u := s.passTo (x.measAt + 1000000)
      (u.tideSource = 0 → ∃ t, exec .tideMeasure s = .next t ∧ t.phys.time = { x with inRange := 0, slew := x.integ * 1000, measAt := u.now } ∧
        t.tide = u.tide ∧ OnlyRegs [Reg.tideSlew] { u with phys := t.phys } t) ∧
      (∀ off, u.tideOffset.1 = some off → ∃ t, exec .tideMeasure s = .next t ∧
        (((max 1 (s.field Reg.tideCfg 31 0) * 1000 : Nat) : Int) < off → t.tide = (u.pass off.toNat).tide ∧ t.phys.time.integ = x.integ ∧
          t.field Reg.tideStat 47 32 = min (s.field Reg.tideStat 47 32 + 1) 0xFFFF) ∧
        (off ≤ ((max 1 (s.field Reg.tideCfg 31 0) * 1000 : Nat) : Int) → t.tide = u.tide ∧ t.phys.time.integ = x.integ + off.tdiv 256 ∧
          t.phys.time.slew = clampInt (-500000) 500000 ((off * 1000).tdiv 8 + (x.integ + off.tdiv 256) * 1000)) ∧
        t.phys.time.inRange = (if -20 ≤ off ∧ off ≤ 20 then min 64 (x.inRange + 1) else 0))) ∧
    (∀ hi, c.rootLock = true → let apart := ∀ a, x.lastEdge = some a → a + 900000 ≤ s.now
      (100 ≤ hi ∧ apart → exec (.syncInEdge hi) s = .next (s.modTime fun x => { x with lastEdge := some s.now, armed := true, trimEdges := x.trimEdges + 1 })) ∧
      (¬ (100 ≤ hi ∧ apart) → ∃ t, exec (.syncInEdge hi) s = .next t ∧ t.phys.time.lastEdge = x.lastEdge ∧ t.phys.time.trimEdges = x.trimEdges ∧
        t.field Reg.tideSync 63 32 = min (s.field Reg.tideSync 63 32 + 1) 0xFFFFFFFF ∧ SameTiles s t)) ∧
    (∀ a, x.lastEdge = some a → c.rootLock = true → x.armed = true →
      (s.field Reg.tideCfg 33 32 = 1 ∨ (s.field Reg.tideCfg 33 32 = 3 ∧ s.parentsUp = [])) → ∃ u t, exec .syncLost s = .next t ∧
        Signals Ev.syncLost 0 [] u t ∧ u.phys.time = { x with armed := false, inRange := 0 } ∧ u.tide = (s.passTo (a + 2 * secondNs)).tide) ∧
    (∀ v, (s.tide < v → exec (.tideSet v) s = .next { s.staged Reg.tideSet v with tide := v }) ∧
      (v ≤ s.tide → ∃ t, exec (.tideSet v) s = .next t ∧ t.tide = s.tide ∧ t.field Reg.tideStat 60 60 = 1 ∧ OnlyRegs [Reg.tideStat] { s with stage := t.stage } t)) ∧
    (∀ v, ∃ t, exec (.tideCfgWrite v) s = .next t ∧ t.field Reg.tideCfg 33 32 = fieldOf v 33 32 ∧
      t.field Reg.tideCfg 31 0 = max 1 (fieldOf v 31 0) ∧ t.phys.time = { x with armed := false } ∧ OnlyRegs [Reg.tideCfg] { s with phys := t.phys, stage := t.stage } t) ∧
    (∀ v, let n := max 1000 (min 1000000 (fieldOf v 19 0))
      (c.rootLock = true → ∃ t, exec (.tideSyncWrite v) s = .next t ∧ t.field Reg.tideSync 19 0 = n ∧ t.phys.time = { x with trimEdges := 0 } ∧
        OnlyRegs [Reg.tideSync] { s with phys := t.phys, stage := t.stage } t) ∧
      (c.rootLock = false → exec (.tideSyncWrite v) s = .next ((s.staged Reg.tideSync v).modTime fun x => { x with heldPeriod := some n })))

/-- A weak lane is swapped onto a spare; data flits are accepted in order, acknowledged and replayed; the link layer falls
and resynchronises. A margin reading is stored each 1 ms. A swap flit of a known spare stops data and is answered; a
spare that passes takes the lane, counted and reported. A good flit in sequence is accepted: its number is the next
acknowledged, its ACK empties the replay buffer, and an acknowledgement leaves; the flits of a packet stay in their
buffer until it is whole; a bad one or one out of sequence asks for a NAK once. A time-out replays all; silence sends
an empty flit. Without accepted data CREDIT falls to ONOFF, counted, and ONOFF begins its wait again; clean for 1 ms
RESYNC begins with seven resync flits; the seventh received restores the credits; 100 us without end is ONOFF again.
(R639, R640, R642, R645, R646, R650) -/
def Obligations.StesumLanesAndLinkLayer : Prop :=
  ∀ (s : State) (p : Nat), let x := s.stlp p
    (∀ rs, x.st = .up → p < 32 → (∀ k, k < 18 → s.belowMargin p (rs.getD k ChannelReading.zero) = false) →
      (x.rx.map.length ≤ 18 ∧ ∀ k ∈ x.rx.map, k < 18) → Tab.rising 0 x.rx.weak = true →
      ∃ t, exec (.stlMarginMeasure p rs) s = .next t ∧ (t.stlp p).measAt = t.now ∧ t.tide = (s.passTo (x.measAt + 1000000)).tide ∧
        (∀ k, k < 18 → (t.stlp p).rx.reading k = rs.getD k ChannelReading.zero ∧ Tab.get 0 (t.stlp p).rx.weak k = 0) ∧
        OnlyPort p { s with tide := t.tide } t) ∧
    (∀ lane spare, x.st = .up → x.rx.swap ≠ some (lane, spare) → lane < x.tx.map.length → x.tx.spares.contains spare = true → ∃ t, exec (.stlSwapFlit p lane spare) s = .next t ∧
      (t.stlp p).tx.swap = some (lane, spare) ∧ (t.stlp p).ll = .onoff ∧ (t.stlp p).lastFlit = s.now ∧
      (∃ f, t.out = .stlFlit p f :: s.out ∧ f.payload = leBytes 1 lane ++ leBytes 1 spare) ∧ OnlyPort p { s with out := t.out } t) ∧
    (∀ lane spare, x.st = .up → x.rx.swap = some (lane, spare) → exec (.stlSwapFlit p lane spare) s = .next (s.setStlp p { x with lastFlit := s.now })) ∧
    (∀ lane spare, x.st = .up → x.rx.swap = some (lane, spare) → lane < x.rx.map.length → ∃ u t c, exec (.stlLaneSwap p true true) s = .next t ∧
      (c = 0 ∨ c = 1) ∧ Signals Ev.stlLaneSwap 0 [p, 1, lane, x.rx.map.getD lane 18, spare, c] u t ∧ (u.stlp p).rx.map = x.rx.map.set lane spare ∧
      spare ∉ (u.stlp p).rx.spares ∧ (u.stlp p).rx.swap = none ∧ (u.stlp p).ll = .resync ∧
      u.field (Reg.stlLinkcnt p) 31 16 = min (s.field (Reg.stlLinkcnt p) 31 16 + 1) 0xFFFF) ∧
    (∀ f : StlFlit, x.st = .up →
      (f.crcGood = true → f.seq = x.rxSeq + 1 → f.nak = false → ∃ t, exec (.stlDataFlit p f) s = .next t ∧ (t.stlp p).rxSeq = f.seq ∧
        (t.stlp p).nak = false ∧ (t.stlp p).attempts = 0 ∧ (t.stlp p).lastData = s.now ∧ (t.stlp p).lastFlit = s.now ∧ (t.stlp p).stop = f.stop ∧
        (f.eop = false → f.len ≠ 0 → (t.stlp p).held = Tab.set 0 x.held f.vc (Tab.get 0 x.held f.vc + 1)) ∧
        (f.eop = true → f.len ≠ 0 → (t.stlp p).held = Tab.set 0 x.held f.vc 0) ∧
        (x.swapping = false → ∃ g rest, (∃ q, t.out = q ++ s.out ∧ .stlFlit p g ∈ q) ∧ g.ack = f.seq ∧ (t.stlp p).replay = afterAck f.ack x.replay ++ rest ∧
          rest ≠ [])) ∧
      (f.crcGood = true → f.seq ≠ x.rxSeq + 1 → f.nak = false → x.nak = true →
        exec (.stlDataFlit p f) s = .next (s.setStlp p { x with lastFlit := s.now, replay := afterAck f.ack x.replay, stop := f.stop })) ∧
      (f.crcGood = false → x.attempts + 1 < 5 → ∃ t, exec (.stlDataFlit p f) s = .next t ∧ t.stlp p = { x with nak := true, nakDue := true, attempts := x.attempts + 1 } ∧
        OnlyPort p s t)) ∧
    (x.st = .up → x.replay ≠ [] → x.swapping = false → ∃ t, exec (.stlReplayTimeout p) s = .next t ∧
      t.out = (x.replay.map fun f => Output.stlFlit p f).reverse ++ s.out ∧ (t.stlp p).replay = x.replay ∧ (t.stlp p).lastSent = t.now ∧
      t.tide = (s.passTo (x.lastSent + 1500)).tide ∧
      t.field (Reg.stlLinkcnt p) 63 32 = min (s.field (Reg.stlLinkcnt p) 63 32 + x.replay.length) 0xFFFFFFFF) ∧
    (x.st = .up → x.swapping = false → ∃ t f, exec (.stlIdleFlit p) s = .next t ∧ t.out = .stlFlit p f :: s.out ∧ f.len = 0 ∧ f.seq = x.txSeq ∧ f.ack = x.rxSeq ∧
      (t.stlp p).txSeq = x.txSeq + 1 ∧ (t.stlp p).replay = x.replay ++ [f] ∧ t.tide = (s.passTo (x.lastSent + 5000)).tide ∧
      OnlyPort p { s with out := t.out, tide := t.tide } t) ∧
    (x.st = .up → x.ll = .credit → ∃ t, exec (.stlLinkWatchdog p) s = .next t ∧ (t.stlp p).ll = .onoff ∧ (t.stlp p).llAt = t.now ∧
      t.field (Reg.stlLinkcnt p) 15 0 = min (s.field (Reg.stlLinkcnt p) 15 0 + 1) 0xFFFF ∧ t.tide = (s.passTo (x.lastData + 20000)).tide ∧ t.out = s.out) ∧
    (x.st = .up → x.ll = .onoff → ∃ t, exec (.stlLinkWatchdog p) s = .next t ∧ t.stlp p = { x with llAt := t.now } ∧
      t.tide = (s.passTo (x.lastData + 20000)).tide ∧ OnlyPort p { s with tide := t.tide } t) ∧
    (x.st = .up → x.ll = .onoff → x.rx.swap = none → x.tx.swap = none → ∃ t, exec (.stlOnoffExpire p) s = .next t ∧ (t.stlp p).ll = .resync ∧
      (t.stlp p).owed = [] ∧ t.out.length = s.out.length + 7 ∧ t.tide = (s.passTo (x.llAt + 1000000)).tide ∧
      OnlyPort p { s with out := t.out, tide := t.tide } t) ∧
    (∀ vc free, x.st = .up → x.ll = .resync → vc < 7 → let got := Tab.put x.resync vc (min free (vcBuffer vc))
      (got.length ≠ 7 → ∃ t, exec (.stlResyncFlit p vc free) s = .next t ∧ t.stlp p = { x with lastFlit := s.now, resync := got } ∧ OnlyPort p s t) ∧
      (got.length = 7 → ∃ t, exec (.stlResyncFlit p vc free) s = .next t ∧ (t.stlp p).ll = .credit ∧ (t.stlp p).resync = [] ∧
        (x.sendq = [] → (∀ v, Tab.get 0 (t.stlp p).credits v = Tab.get 0 (got.filter fun e => decide (e.2 ≠ 0)) v) ∧ t.out = s.out))) ∧
    (x.st = .up → x.ll = .resync → ∃ t, exec (.stlResyncTimeout p) s = .next t ∧ (t.stlp p).ll = .onoff ∧ (t.stlp p).resync = [] ∧
      t.tide = (s.passTo (x.llAt + 100000)).tide ∧ OnlyPort p { s with tide := t.tide } t)

/-- Training ends UP with full credits or DOWN with its cause; silence, EN, ROLE and ADDR move the port; time flits give
offset and delay. A training with 8 channels each way and the partner that the torus expects ends UP: fresh numbers,
full credits, CREDIT; otherwise DOWN with cause 1 or 3, reported when the port had not trained. 1 ms without a flit
takes an UP port DOWN with cause 4, reported. A DOWN port with EN trains after its wait, which doubles; RETRAIN, a
ROLE written and a new address train at once; EN cleared is DOWN with cause 5. A time flit carries its T1; the
partner's answer to it leaves OFFSET and DELAY in STL_TIME where both fit; which way a half nanosecond goes is open
(log 80). (R651, R652, R653, R654, R661, R674, R675, R678, R679) -/
def Obligations.StesumPortsAndTime : Prop :=
  ∀ (s : State) (p : Nat), p < 32 → let x := s.stlp p
    (∀ t : Training, x.st = .training → let wide := fun (l : List Nat) => 8 ≤ ((List.range 18).filter fun k => l.contains k).length
      (wide t.rxPass → wide t.txPass → s.partnerOk p t = true → x.sendq = [] → x.again = [] → ∃ u n, exec (.stlTrainingDone p t) s = .next n ∧ n.stlp p = u.stlp p ∧
        (u.stlp p).st = .up ∧ (u.stlp p).ll = .credit ∧ (u.stlp p).txSeq = 0 ∧ (u.stlp p).rxSeq = 0xFFFF ∧ (u.stlp p).credits = fullCredits ∧
        (u.stlp p).replay = [] ∧ (u.stlp p).roleWritten = false ∧ (u.stlp p).backoff = 1 ∧
        u.field (Reg.stlPstat p) 63 32 = t.partnerAddr.toNat ∧ u.field (Reg.stlPstat p) 31 27 = t.partnerPort % 32 ∧
        (x.roleWritten = true → Signals Ev.stlRackSwitch 0 [p, s.portRole p] u n)) ∧
      (¬ (wide t.rxPass ∧ wide t.txPass) → ∃ n, exec (.stlTrainingDone p t) s = .next n ∧ (n.stlp p).st = .down ∧ (n.stlp p).trained = true ∧
        n.field (Reg.stlPstat p) 26 24 = 1 ∧ (x.trained = false → eventRecord Ev.stlPortDown 0 [p, 1] s.tide ∈ n.man.grain.waiting)) ∧
      (wide t.rxPass → wide t.txPass → s.partnerOk p t = false → ∃ n, exec (.stlTrainingDone p t) s = .next n ∧ (n.stlp p).st = .down ∧
        n.field (Reg.stlPstat p) 26 24 = 3)) ∧
    (x.st = .up → ∃ n, exec (.stlPortDown p) s = .next n ∧ (n.stlp p).st = .down ∧ (n.stlp p).replay = [] ∧ (n.stlp p).again = [] ∧ (n.stlp p).sendq = [] ∧
      n.field (Reg.stlPstat p) 26 24 = 4 ∧ n.tide = (s.passTo (x.lastFlit + 1000000)).tide ∧
      eventRecord Ev.stlPortDown 0 [p, 4] n.tide ∈ n.man.grain.waiting) ∧
    (x.st = .down → s.portEn p = true → ∃ n, exec (.stlRetrainRetry p) s = .next n ∧ (n.stlp p).st = .training ∧
      (n.stlp p).backoff = min 64 (2 * x.backoff) ∧ n.tide = (s.passTo (x.downAt + 1000000000 * x.backoff)).tide ∧ OnlyPort p { s with tide := n.tide } n) ∧
    ((x.st = .up ∨ (x.st = .down ∧ s.portEn p = true)) → ∃ n, exec (.stlRetrain p) s = .next n ∧ (n.stlp p).st = .training ∧ (n.stlp p).replay = [] ∧
      OnlyPort p s n) ∧
    ((x.st = .off ∨ x.st = .training ∨ (x.st = .down ∧ s.portEn p = false)) → exec (.stlRetrain p) s = .next s) ∧
    (∀ v, (v.getLsbD 8 = true → (x.st = .up ∨ x.st = .down) → ∃ n, exec (.stlPcfgWrite p v) s = .next n ∧ n.reg (Reg.stlPcfg p) = v &&& 0x107 ∧
        (n.stlp p).st = .training ∧ (n.stlp p).roleWritten = true ∧ OnlyPort p { s with regs := n.regs, stage := n.stage } n ∧
        OnlyRegs [Reg.stlPcfg p] { s with phys := n.phys, stage := n.stage } n) ∧
      (v.getLsbD 8 = false → x.st ≠ .off → ∃ n, exec (.stlPcfgWrite p v) s = .next n ∧ n.reg (Reg.stlPcfg p) = v &&& 0x107 ∧ (n.stlp p).st = .down ∧
        n.field (Reg.stlPstat p) 26 24 = 5)) ∧
    (∀ v, ∃ n, exec (.stlAddrWrite v) s = .next n ∧ n.reg Reg.stlAddr = v &&& 0xFFFFFFC0 ∧
      (n.stlp p).st = (if x.st = .up ∨ (x.st = .down ∧ s.portEn p = true) then .training else x.st)) ∧
    (x.st = .up → ∃ n f, exec (.stlTimeFlitSend p) s = .next n ∧ n.out = .stlFlit p f :: s.out ∧ (n.stlp p).tx1 = some n.now ∧
      f.payload = leBytes 8 n.now ++ leBytes 8 (x.echo.getD (0, 0)).1 ++ leBytes 8 (x.echo.getD (0, 0)).2 ++ leBytes 8 n.now ∧
      n.tide = (s.passTo (x.timeAt + 1000000)).tide ∧ OnlyPort p { s with out := n.out, tide := n.tide } n) ∧
    (∀ t1 t2 t3 : Word, x.st = .up → ∃ n, exec (.stlTimeFlit p t1 t2 t3) s = .next n ∧ (n.stlp p).echo = some (t3.toNat, s.now) ∧
      (n.stlp p).lastFlit = s.now ∧ (x.tx1 ≠ some t1.toNat → n.regs = s.regs) ∧
      (x.tx1 = some t1.toNat → OnlyRegs [Reg.stlTime p] { s with phys := n.phys, free := n.free } n ∧
        let a : Int := (t2.toNat : Int) - t1.toNat
        let b : Int := (s.now : Int) - t3.toNat
        let asym := signedOf 32 (s.field (Reg.stlAsym p) 31 0)
        ∃ h : Int, (h = 0 ∨ h = 1) ∧
          (0 ≤ (a + b + h) / 2 → (a + b + h) / 2 < 2 ^ 32 → ((n.field (Reg.stlTime p) 31 0 : Nat) : Int) = (a + b + h) / 2) ∧
          (-(2 ^ 31) ≤ (a - b + h) / 2 - asym → (a - b + h) / 2 - asym < 2 ^ 31 →
            signedOf 32 (n.field (Reg.stlTime p) 63 32) = (a - b + h) / 2 - asym)))

/-- A put instance ends outside memory, is held, or leaves in chunks of 4,096 bytes; responses, retries and the time-out
end or go on with it. A GO of an entry with no instance in progress takes the step number: outside memory it ends with
WINDOW; held it waits for the commit; else its chunks leave in order with their headers and bytes (in a halt they wait
for its end), and without a port it is NO_ROUTE, counted. A GO of an entry in progress is counted. The matching
response gives DONE, counted, WINDOW, NOPART or NO_ROUTE, or BUSY, whose chunk leaves again after 10 us; another
response changes nothing. TIMEOUT comes PUTCFG ms after the start. What leaves is stated for a put to the module
itself, whose chunks go to no port, and for memory without errors. (R659, R663, R664, R665, R666, R669, R671, R680,
R756) -/
def Obligations.PutsAreSentAndEnd : Prop :=
  ∀ (s : State) (p e : Nat), let x := s.put p e
    let chunks := (x.bytes + 4095) / 4096
    let clean := ∀ k, (s.stack k).poison = [] ∧ (s.stack k).errs = []
    let chunk := fun (step : Word) (eager : Bool) (i : Nat) =>
      let n := min 4096 (x.bytes - 4096 * i)
      Output.stlPacket
        { dst := x.dst, src := s.address, dpart := x.dpart.toNat, spart := p, kind := 0x01, entry := e, chunk := i, step := step
          dpa := x.dpa.toNat + 4096 * i, poison := 0, len := n, dfid := x.dfid, total := chunks, flags := if eager then 2 else 0, cls := 0 }
        (s.readRange p (x.spa.toNat + 4096 * i) n).1.data
    (∀ v : Word, v.getLsbD 8 = false → exec (.putGo p v) s = .next (s.staged (Reg.prtStlPutgo p) v)) ∧
    (∀ v : Word, v.getLsbD 8 = true → v.toNat % 64 = e → s.partExists p = true →
      (x.active = true → ∃ t, exec (.putGo p v) s = .next t ∧
        t.field (Reg.prtStlCnt p) 63 48 = min (s.field (Reg.prtStlCnt p) 63 48 + 1) 0xFFFF ∧ OnlyRegs [Reg.prtStlCnt p] { s with stage := t.stage } t) ∧
      (x.active = false → s.assigned p x.spa.toNat x.bytes = false → ∃ t, exec (.putGo p v) s = .next t ∧
        t.put p e = { x with step := s.stepNo p, status := .window, eager := false } ∧ OnlyPart p { s with stage := t.stage } t) ∧
      (x.active = false → s.assigned p x.spa.toNat x.bytes = true → x.hold = true → (s.frameOf p).stepWeir ≠ 0xFFFF →
        ∃ t, exec (.putGo p v) s = .next t ∧ OnlyPart p { s with stage := t.stage } t ∧
          t.put p e = { x with step := s.stepNo p, status := .held, eager := false, startAt := s.now, busy := [], unsent := [] }) ∧
      (x.active = false → s.assigned p x.spa.toNat x.bytes = true → (x.hold = false ∨ (s.frameOf p).stepWeir = 0xFFFF) → s.phys.power.halted = true →
        ∃ t, exec (.putGo p v) s = .next t ∧ OnlyPart p { s with stage := t.stage } t ∧ t.put p e =
          { x with step := s.stepNo p, status := .sending, eager := !x.hold, startAt := s.now, busy := [], unsent := List.range chunks }) ∧
      (x.active = false → s.assigned p x.spa.toNat x.bytes = true → (x.hold = false ∨ (s.frameOf p).stepWeir = 0xFFFF) → s.phys.power.halted = false → clean →
        (x.dst = s.address → ∃ t, exec (.putGo p v) s = .next t ∧
          t.put p e = { x with step := s.stepNo p, status := .sending, eager := !x.hold, startAt := s.now, busy := [], unsent := [] } ∧
          t.out = ((List.range chunks).map (chunk (s.stepNo p) (!x.hold))).reverse ++ s.out ∧ OnlyPart p { s with out := t.out, stage := t.stage } t) ∧
        (∀ role, s.roleTo x.dst = some role → s.upPorts role = [] → ∃ t, exec (.putGo p v) s = .next t ∧ (t.put p e).status = .noRoute ∧
          (t.put p e).step = s.stepNo p ∧ t.out = s.out ∧
          t.field (Reg.stlPktcnt (s.portOfRole role)) 31 0 = min (s.field (Reg.stlPktcnt (s.portOfRole role)) 31 0 + 1) 0xFFFFFFFF))) ∧
    (∀ h : PutHeader, h.dpart = p → h.entry = e →
      ((h.kind ≠ 0x02 ∨ h.dst ≠ s.address ∨ x.status ≠ .sending ∨ x.step ≠ h.step ∨ x.dst ≠ h.src) → exec (.putResponse h) s = .next s) ∧
      (h.kind = 0x02 → h.dst = s.address → s.partExists p = true → x.status = .sending → x.step = h.step → x.dst = h.src →
        (h.chunk % 256 = 0 → ∃ t, exec (.putResponse h) s = .next t ∧ t.put p e = { x with status := .done, busy := [], unsent := [] } ∧
          t.field (Reg.prtStlCnt p) 31 0 = (s.field (Reg.prtStlCnt p) 31 0 + 1) % 2 ^ 32 ∧ OnlyPart p { s with regs := t.regs } t ∧
          OnlyRegs [Reg.prtStlCnt p] { s with comp := t.comp } t) ∧
        (h.chunk % 256 = 1 → ∃ t, exec (.putResponse h) s = .next t ∧ t.put p e = { x with status := .window, busy := [], unsent := [] } ∧ OnlyPart p s t) ∧
        (h.chunk % 256 = 2 → ∃ t, exec (.putResponse h) s = .next t ∧ t.put p e = { x with status := .nopart, busy := [], unsent := [] } ∧ OnlyPart p s t) ∧
        (h.chunk % 256 = 3 → ∃ t, exec (.putResponse h) s = .next t ∧ OnlyPart p s t ∧
          t.put p e = { x with busy := x.busy ++ [(h.dpa - x.dpa.toNat) / 4096] }) ∧
        (h.chunk % 256 = 4 → ∃ t, exec (.putResponse h) s = .next t ∧ t.put p e = { x with status := .noRoute, busy := [], unsent := [] } ∧ OnlyPart p s t))) ∧
    (∀ i r, x.status = .sending → x.busy = i :: r → x.dst = s.address → s.phys.power.halted = false → clean → ∃ t, exec (.putBusyRetry p e) s = .next t ∧
      t.put p e = { x with busy := r } ∧ t.out = chunk x.step x.eager i :: s.out ∧ t.tide = (s.pass 10000).tide ∧
      OnlyPart p { s with out := t.out, tide := t.tide } t) ∧
    (x.status = .sending → s.phys.power.halted = false → ∃ t, exec (.putTimeout p e) s = .next t ∧ t.put p e = { x with status := .timeout, busy := [], unsent := [] } ∧
      t.tide = (s.passTo (x.startAt + 1000000 * max 1 (s.field (Reg.prtStlPutcfg p) 31 0))).tide ∧ OnlyPart p { s with tide := t.tide } t)

/-- An inbound chunk is refused with its status or written once, counted and acknowledged; a transit packet leaves by its
egress port or is dropped. An inbound chunk of no partition is answered NOPART, outside the window WINDOW, beyond 64
open instances BUSY, the last two counted. An accepted one is written once, with its poisoned blocks; a chunk of an
instance already acknowledged is only counted and tracked. The last chunk closes the instance, sets its float once,
and is answered DONE. A transit packet leaves by the egress port in its class, counted, its flits sent or waiting;
without a port it is dropped and counted, and a put of this module ends NO_ROUTE. An answer is stated where the source
is the module itself, which no port separates. (R657, R658, R659, R665, R666, R667, R668, R669, R680) -/
def Obligations.PutsAreReceivedAndPassedOn : Prop :=
  ∀ (s : State) (p : Nat),
    (∀ (h : PutHeader) (d : List Byte), h.kind = 0x01 → h.dst = s.address → h.dpart = p → addrSys h.src = addrSys s.address →
      let id : PutId := { src := h.src, spart := h.spart, entry := h.entry, step := h.step }
      let b := s.reg (Reg.prtStlInbase p)
      let window := b.getLsbD 63 = true ∧ fieldOf b 47 0 ≤ h.dpa ∧ h.dpa + h.len ≤ s.field (Reg.prtStlInlim p) 47 0 + 1 ∧ s.assigned p h.dpa h.len = true
      let known := ∃ i ∈ (s.part p).inbound, i.id = id
      let answer := fun (st : Nat) => Output.stlPacket { h with dst := h.src, src := s.address, dpart := h.spart, spart := p, kind := 0x02, chunk := st, poison := 0, len := 0, flags := 0, cls := 0 } []
      ((p = 0 ∨ 8 < p ∨ s.partExists p = false) → h.src = s.address → exec (.putChunk h d) s = .next (s.emitOut (answer 2))) ∧
      (1 ≤ p → p ≤ 8 → s.partExists p = true →
        ((¬ window ∨ (¬ known ∧ 64 ≤ (s.part p).inbound.countP (fun i => !i.dup))) → ∃ t, exec (.putChunk h d) s = .next t ∧ t.comp = s.comp ∧
          t.field (Reg.prtStlCnt p) 47 32 = min (s.field (Reg.prtStlCnt p) 47 32 + 1) 0xFFFF ∧
          (h.src = s.address → (window → t.out = answer 3 :: s.out) ∧ (¬ window → t.out = answer 1 :: s.out))) ∧
        (window → (known ∨ (s.part p).inbound.countP (fun i => !i.dup) < 64) → let i := s.instanceOf h
          (h.chunk ∈ i.got → ∃ t, exec (.putChunk h d) s = .next t ∧ t.comp = s.comp ∧ t.out = s.out) ∧
          (h.chunk ∉ i.got → ∃ t, exec (.putChunk h d) s = .next t ∧
            (i.dup = true → t.comp.hbm = s.comp.hbm ∧ t.field (Reg.prtStlStat p) 15 0 = min (s.field (Reg.prtStlStat p) 15 0 + 1) 0xFFFF) ∧
            (i.dup = false → t.comp.hbm = (s.writeRange p h.dpa (padTo h.len d)).2.comp.hbm ∧
              (∀ k < 64, h.poison.getLsbD k = true → 64 * k < h.len → ∀ a, s.decodePa p (64 * ((h.dpa + 64 * k) / 64)) = some a →
                a.2 / 64 ∈ (t.stack a.1).poison)) ∧
            (i.got.length + 1 < max 1 h.total → ∃ j ∈ (t.part p).inbound, j.id = id ∧ j.got = i.got ++ [h.chunk] ∧ j.dup = i.dup) ∧
            (max 1 h.total ≤ i.got.length + 1 → (∀ j ∈ (t.part p).inbound, j.id ≠ id) ∧ (i.dup = false → id ∈ (t.part p).doneIds) ∧
              (h.src = s.address → ∃ out, t.out = answer 0 :: out) ∧
              (i.dup = false → h.dfid ≠ 0xFFFF → s.hasFloat p h.dfid.toNat = true → (t.float p h.dfid.toNat).value = true ∧
                (t.float p h.dfid.toNat).count = (s.float p h.dfid.toNat).count + 1)))))) ∧
    (∀ (h : PutHeader) (d : List Byte), h.kind = 0x01 → h.dst = s.address → h.dpart = p → 1 ≤ p → p ≤ 8 → addrSys h.src ≠ addrSys s.address →
      ∃ t, exec (.putChunk h d) s = .next t ∧ t.comp = s.comp ∧
        t.field (Reg.prtStlCnt p) 47 32 = min (s.field (Reg.prtStlCnt p) 47 32 + 1) 0xFFFF) ∧
    (∀ (port : Nat) (h : PutHeader) (d : List Byte),
      (((s.stlp port).st ≠ .up ∨ s.roleTo h.dst = none) → exec (.stlTransit port h d) s = .next s) ∧
      (∀ role, (s.stlp port).st = .up → s.roleTo h.dst = some role →
        (∀ q, s.egress port role = some q → let fs := packetFlits { h with cls := s.classOut role h.cls } d
          ∃ t, exec (.stlTransit port h d) s = .next t ∧ t.comp = s.comp ∧
            t.field (Reg.stlPktcnt q) 63 32 = min (s.field (Reg.stlPktcnt q) 63 32 + 1) 0xFFFFFFFF ∧
            t.out.length + (t.stlp q).sendq.length = s.out.length + (s.stlp q).sendq.length + fs.length ∧
            ((∀ vc, (s.stlp q).maySend vc = false) → (t.stlp q).sendq = (s.stlp q).sendq ++ fs)) ∧
        (s.egress port role = none → let n := Reg.stlPktcnt (s.portOfRole role)
          (h.kind ≠ 0x01 → ∃ t, exec (.stlTransit port h d) s = .next t ∧ t.field n 31 0 = min (s.field n 31 0 + 1) 0xFFFFFFFF ∧ OnlyRegs [n] s t) ∧
          (h.kind = 0x01 → h.src = s.address → (s.put h.spart h.entry).status = .sending → (s.put h.spart h.entry).step = h.step →
            ∃ t, exec (.stlTransit port h d) s = .next t ∧ (t.put h.spart h.entry).status = .noRoute ∧
              t.field n 31 0 = min (s.field n 31 0 + 1) 0xFFFFFFFF))))

/-- A GO starts, queues or fails; trees ready and a done signature go on; records are queued, committed with chain and
leaves, retried; ring sectors erased. A GO begins signing over the body with its nonce where leaves are left, waits
behind another request, asks for 64 more leaves, or fails with reason 3 or 4; one in progress is left. Trees that
become ready begin the waiting request. A done signature gives the report, 6,580 bytes for a whole body: the body, its
ECDSA signature and its HSS signature with the leaf, which is spent and reported; a bottom tree used up asks for the
next one. A record is queued, waits, or is dropped and counted when 4,096 are queued. The next record is committed in
its area's next free slot; one of the lifetime area joins the chain; an LMS state record gives its leaves, and few
trees left are reported; where no slot is free nothing happens. Three abandoned slots are counted and reported, the
record stays, and the writer tries again after 1 s. An erased sector has 256 free slots; one that fails is retired and
recorded. (R805, R807, R808, R812, R813, R816, R818, R821, R822, R824, R825, R828) -/
def Obligations.ReportsAndLogRecords : Prop :=
  ∀ (s : State), let k := s.man.lms
    let g := s.man.grain
    (∀ i : Inst, let a := s.attest i
      ((a.st = 1 ∨ a.st = 2) → exec (.attestGo i) s = .next s) ∧
      (a.st ≠ 1 → a.st ≠ 2 → s.segUp 0 = true →
        (s.man.attQueue = [] → k.valid = true → k.ready = true → g.scanned = true → k.botq < k.limit → k.botq < 2 ^ 20 →
          ∃ t, exec (.attestGo i) s = .next t ∧ t.attest i = { a with st := 2, reason := 0, body := s.reportBody a.nonce } ∧ t.man.attQueue = [i] ∧
            (∀ j, j ≠ i → t.attest j = s.attest j) ∧
            t = { s with man := { s.man with attPcie := t.man.attPcie, attI3c := t.man.attI3c, attQueue := [i] } }) ∧
        (∀ j r, s.man.attQueue = j :: r → (s.attest j).st = 2 → ∃ t, exec (.attestGo i) s = .next t ∧ t.attest i = { a with st := 1, reason := 0 } ∧
          t.man.attQueue = j :: r ++ [i] ∧ t.attest j = s.attest j) ∧
        (s.man.attQueue = [] → k.valid = false → ∃ t, exec (.attestGo i) s = .next t ∧ t.attest i = { a with st := 4, reason := 3 } ∧ t.man.attQueue = []) ∧
        (s.man.attQueue = [] → k.valid = true → k.botq = 2 ^ 20 → 2 ^ 20 ≤ k.topq + 1 → ∃ t, exec (.attestGo i) s = .next t ∧
          t.attest i = { a with st := 4, reason := 4 } ∧ t.man.attQueue = []) ∧
        (s.man.attQueue = [] → k.valid = true → k.ready = true → g.scanned = true → k.limit ≤ k.botq → s.reserving = false →
          (k.botq < 2 ^ 20 ∨ k.topq + 1 < 2 ^ 20) → ∃ t q n, exec (.attestGo i) s = .next t ∧ t.attest i = { a with st := 1, reason := 0 } ∧
            t.man.attQueue = [i] ∧ t.man.grain.waiting = g.waiting ++ [{ type := 0x0080, srck := 4, srci := 0, tide := s.tide, body := padTo 216 (leBytes 4 q ++ leBytes 4 n) }] ∧
            (k.botq < 2 ^ 20 → q = k.topq ∧ n = min (k.botq + 64) (2 ^ 20)) ∧ (2 ^ 20 ≤ k.botq → q = k.topq + 1 ∧ n = 64)))) ∧
    (s.segUp 0 = true → k.valid = true →
      (s.man.attQueue = [] → exec .keyTreesReady s = .next (s.modLms fun x => { x with ready := true })) ∧
      (∀ i r, s.man.attQueue = i :: r → (s.attest i).st = 1 → g.scanned = true → k.botq < k.limit → k.botq < 2 ^ 20 →
        ∃ t, exec .keyTreesReady s = .next t ∧ t.man.lms.ready = true ∧ (t.attest i).st = 2 ∧ (t.attest i).body = s.reportBody (s.attest i).nonce)) ∧
    (∀ i r, s.man.attQueue = i :: r → (s.attest i).st = 2 → (∀ j q, r = j :: q → (s.attest j).st ≠ 1) →
      ∃ t sig, exec .attestSignDone s = .next t ∧ (t.attest i).st = 3 ∧ (t.attest i).report = (s.attest i).body ++ sig ∧
        sig = padTo 5812 (ecdsaSign devicePriv (s.attest i).body ++ hssSign k.topq k.botq (s.attest i).body) ∧ sig.length = 5812 ∧
        ((s.attest i).body.length = 768 → (t.attest i).report.length = 6580) ∧ t.man.attQueue = r ∧ t.man.lms = { k with botq := k.botq + 1 } ∧
        eventRecord Ev.attestIssued 0 [match i with | .pcie => 0 | .i3c => 1, k.topq, k.botq] s.tide ∈ t.man.grain.waiting ∧
        (k.botq + 1 = 2 ^ 20 → k.topq + 1 < 2 ^ 20 → s.reserving = false →
          { type := 0x0080, srck := 4, srci := 0, tide := s.tide, body := padTo 216 (leBytes 4 (k.topq + 1) ++ leBytes 4 64) } ∈ t.man.grain.waiting)) ∧
    (∀ i j r, s.man.attQueue = i :: j :: r → (s.attest i).st = 2 → (s.attest j).st = 1 → s.segUp 0 = true → k.valid = true → k.ready = true →
      g.scanned = true → k.botq + 1 < k.limit → k.botq + 1 < 2 ^ 20 →
      ∃ t, exec .attestSignDone s = .next t ∧ (t.attest i).st = 3 ∧ (t.attest j).st = 2 ∧ t.man.attQueue = j :: r ∧ t.man.lms.botq = k.botq + 1) ∧
    (∀ r : GrnRec,
      (s.segUp 0 = false → exec (.grnRecord r) s = .next s) ∧
      (s.segUp 0 = true → g.queue.length < 4096 → ∃ t, exec (.grnRecord r) s = .next t ∧ t.man.grain.queue = g.queue ++ [r] ∧
        t.man.grain.waiting = g.waiting.erase r ∧ t = { s with man := { s.man with grain := t.man.grain } }) ∧
      (s.segUp 0 = true → 4096 ≤ g.queue.length → mustWait r.type.toNat = true → ∃ t, exec (.grnRecord r) s = .next t ∧
        r ∈ t.man.grain.waiting ∧ t.man.grain.queue = g.queue ∧ t.regs = s.regs) ∧
      (s.segUp 0 = true → 4096 ≤ g.queue.length → mustWait r.type.toNat = false → ∃ t, exec (.grnRecord r) s = .next t ∧ t.man.grain.queue = g.queue ∧
        t.field Reg.grnStat 63 48 = min (s.field Reg.grnStat 63 48 + 1) 0xFFFF ∧
        (g.dropAt = none → eventRecord Ev.grnWriteFail 0 [g.areaFor r, r.type.toNat] s.tide ∈ t.man.grain.waiting ∧ t.man.grain.dropAt = some s.now))) ∧
    (∀ r : GrnRec, nextRec g.queue = some r → s.writerRuns = true → g.retryAt = none → let a := g.areaFor r
      let sq := g.seek a 4096 (g.nextSeq a)
      let d := grnBytes r sq g.boots
      (g.canWrite a = decide (g.slot a sq = .free ∧ (a ≠ 0 ∨ g.nextSeq 0 < 786432))) ∧
      (∀ n, g.canWrite a = false → r.type ≠ 0x0080 → exec (.grnRecordCommit n) s = .next s) ∧
      (g.canWrite a = true → ∃ t, exec (.grnRecordCommit 0) s = .next t ∧
        t.man.grain.slot a sq = .record d ∧ t.man.grain.nextSeq a = sq + 1 ∧ t.man.grain.queue = g.queue.erase r ∧
        (a = 0 → t.man.grain.chain = chainNext g.chain d ∧ t.man.grain.chainN = g.chainN + 1) ∧ (a ≠ 0 → t.man.grain.chain = g.chain) ∧
        (r.type ≠ 0x0080 → t.man.lms = k) ∧
        (r.type = 0x0080 → let q := leAt r.body 0 4
          t.man.lms.topq = q ∧ t.man.lms.limit = leAt r.body 4 4 ∧ t.man.lms.valid = true ∧
          (k.topq < lmsLowAt → lmsLowAt ≤ q → eventRecord Ev.lmsLow 0 [q] s.tide ∈ t.man.grain.waiting) ∧
          (k.topq = q → t.man.lms.botq = k.botq ∧ t.man.lms.ready = k.ready) ∧ (k.topq ≠ q → t.man.lms.botq = 0 ∧ t.man.lms.ready = false))) ∧
      (∀ n, 3 ≤ n → g.canWrite a = true → ∃ t, exec (.grnRecordCommit n) s = .next t ∧ t.man.grain.queue = g.queue ∧ t.man.grain.retryAt = some (s.now + 1000000000) ∧
        t.field Reg.grnStat 47 32 = min (s.field Reg.grnStat 47 32 + 3) 0xFFFF ∧
        eventRecord Ev.grnWriteFail 0 [a, r.type.toNat] s.tide ∈ t.man.grain.waiting)) ∧
    (∀ at_, g.retryAt = some at_ → ∃ t, exec .grnWriteRetry s = .next t ∧ t.tide = (s.passTo at_).tide ∧
      t = { s with tide := t.tide, man := { s.man with grain := { g with retryAt := none } } }) ∧
    (∀ area, 1 ≤ area → area ≤ 3 → s.writerRuns = true → let sq := g.nextSector area
      let sec := slotOf area sq / 256
      (Tab.get 0 g.erased area = sq + 1 → ∀ good, exec (.grnSectorErase area good) s = .next s) ∧
      (Tab.get 0 g.erased area ≠ sq + 1 →
        (∃ t, exec (.grnSectorErase area true) s = .next t ∧ Tab.get 0 t.man.grain.erased area = sq + 1 ∧
          (∀ c, Tab.get (testSlot c) t.man.grain.slots c = if c / 256 = sec then .free else Tab.get (testSlot c) g.slots c) ∧
          t = { s with man := { s.man with grain := { g with slots := t.man.grain.slots, erased := t.man.grain.erased } } }) ∧
        (∃ t, exec (.grnSectorErase area false) s = .next t ∧ t.man.grain.retired = g.retired ++ [sec] ∧ t.man.grain.slots = g.slots ∧
          t.man.grain.waiting = g.waiting ++ [{ type := 0x00C0, srck := 0, srci := 0, tide := s.tide, body := padTo 216 (leBytes 4 area ++ leBytes 4 sec) }])))

/-- The tile and router windows, the selected reads that advance, the log readers, and the I3C target read and write as
their registers say. A window access reads or writes the selected tile's 8 bytes, or fails with ST 1, 2 or 3 and no
effect; an uncorrectable word gives ST 4; the router's space is read, and written at FAB_CTL only; ADDR advances by 8
with INC. MAP_DATA, FLT_FDATA, JNR_STRDATA and GRN_RDATA31 reads give the entry selected, latched by the first word of
a pair, and advance their index with INC. A log reader fetches a committed slot, marks a torn one, and gives all ones
for one that is free or no longer held. The I3C target takes a pointer and bytes for its nonce, its GO and its
reader's selection and ignores others; a read gives bytes from the pointer on, zero where nothing is; its dynamic
address is kept. (R162, R163, R327, R328, R376, R502, R581, R832, R833, R834, R835, R860) -/
def Obligations.WindowsAndSelectedReads : Prop :=
  ∀ (s : State),
    (∀ b, b < 84 → (s.bay b).sill = true → let a := s.field (Reg.silTsel b) 47 32
      let ended := fun (t : State) (st : Nat) => t.field (Reg.silTsel b) 63 61 = st ∧
        t.field (Reg.silTsel b) 47 32 = if (s.reg (Reg.silTsel b)).getLsbD 23 then (a + 8) % 2 ^ 16 else a
      (s.selTile b = none → ∃ t, exec (.silTdataAccess b none) s = .next t ∧ ended t 2 ∧ t.out = .regData 0 (Reg.silTdata b) 0 :: s.out ∧ SameTiles s t) ∧
      (∀ x, s.selTile b = some x →
        ((s.tile x).s.seq = .off → ∀ w, ∃ t, exec (.silTdataAccess b w) s = .next t ∧ ended t 1 ∧ SameTiles s t ∧ OnlyRegs [Reg.silTsel b] { s with out := t.out } t) ∧
        ((s.tile x).s.seq ≠ .off →
          (∀ d y, (s.tile x).readLocal x (s.hosted x) a 8 = .ok (d, y) → ∃ t rest, exec (.silTdataAccess b none) s = .next t ∧ ended t 0 ∧
            t.out = .regData 0 (Reg.silTdata b) (BitVec.ofNat 64 (ofLe d)) :: rest) ∧
          (∀ e, (s.tile x).readLocal x (s.hosted x) a 8 = .error e → (∀ w, e ≠ .uncorr w) → ∃ t, exec (.silTdataAccess b none) s = .next t ∧ ended t 2 ∧
            t.out = .regData 0 (Reg.silTdata b) 0 :: s.out ∧ SameTiles s t) ∧
          (∀ w, (s.tile x).readLocal x (s.hosted x) a 8 = .error (.uncorr w) → ∃ t, exec (.silTdataAccess b none) s = .next t ∧
            t.field (Reg.silTsel b) 63 61 = 4) ∧
          (∀ v : Word, accessible a 8 = false → ∃ t, exec (.silTdataAccess b (some v)) s = .next t ∧ ended t 2 ∧ SameTiles s t) ∧
          (∀ v : Word, accessible a 8 = true → memAt a = some .im → ((s.tile x).s.seq = .run ∨ (s.tile x).s.seq = .blocked) →
            ∃ t, exec (.silTdataAccess b (some v)) s = .next t ∧ ended t 3 ∧ SameTiles s t) ∧
          (∀ v : Word, accessible a 8 = true → a < 0xF000 → ¬ (memAt a = some .im ∧ ((s.tile x).s.seq = .run ∨ (s.tile x).s.seq = .blocked)) →
            ∃ t, exec (.silTdataAccess b (some v)) s = .next t ∧ ended t 0 ∧ t.tile x = (s.tile x).store a (leBytes 8 v.toNat) ∧ t.out = s.out ∧
              ∀ u : PT, u.key ≠ x.key → t.tile u = s.tile u)))) ∧
    (∀ b, b < 84 → (s.bay b).sill = true → ∀ x, s.selTile b = some x → (s.tile x).s.seq ≠ .off → let a := s.field (Reg.silRtsel b) 15 0
      let ended := fun (t : State) (st : Nat) => t.field (Reg.silRtsel b) 63 61 = st ∧
        t.field (Reg.silRtsel b) 15 0 = if (s.reg (Reg.silRtsel b)).getLsbD 16 then (a + 8) % 2 ^ 16 else a
      (∀ v, s.routerWord x a = some v → ∃ t, exec (.silRtdataAccess b none) s = .next t ∧ ended t 0 ∧ t.out = .regData 0 (Reg.silRtdata b) v :: s.out ∧ t.comp = s.comp) ∧
      (s.routerWord x a = none → ∀ w, ∃ t, exec (.silRtdataAccess b w) s = .next t ∧ ended t 2 ∧ t.comp = s.comp) ∧
      (∀ v : Word, a ≠ 0x20 → (s.routerWord x a).isSome = true → ∃ t, exec (.silRtdataAccess b (some v)) s = .next t ∧ ended t 3 ∧ t.comp = s.comp ∧ t.out = s.out) ∧
      (∀ v : Word, a = 0x20 → ∃ t, exec (.silRtdataAccess b (some v)) s = .next t ∧ ended t 0 ∧
        t.router x = if v.getLsbD 0 then { s.router x with retry := 0, onoff := 0, rsfail := 0, epdisc := 0, divert := 0 } else s.router x)) ∧
    (∀ f p, (f ≠ 0 → f ≠ p → exec (.prtMapDataRead f p) s = .next s) ∧
      ((f = 0 ∨ f = p) → ∃ t, exec (.prtMapDataRead f p) s = .next t ∧ t.out = .regData f (Reg.prtMapData p) (s.mapData p) :: s.out ∧
        t.field (Reg.prtMapSel p) 19 0 = (if (s.reg (Reg.prtMapSel p)).getLsbD 20 then (s.field (Reg.prtMapSel p) 19 0 + 1) % 2 ^ 20 else s.field (Reg.prtMapSel p) 19 0) ∧
        OnlyRegs [Reg.prtMapSel p] { s with out := t.out } t)) ∧
    (∃ t, exec (.fltFdataRead false) s = .next t ∧ t.out = .regData 0 Reg.fltFdata0 s.fenceData.1 :: s.out ∧ t.man.fltLatch = s.fenceData.2 ∧ t.regs = s.regs) ∧
    (∃ t, exec (.fltFdataRead true) s = .next t ∧ t.out = .regData 0 Reg.fltFdata1 s.man.fltLatch :: s.out ∧
      t.field Reg.fltFsel 31 0 = (if (s.reg Reg.fltFsel).getLsbD 32 then (s.field Reg.fltFsel 31 0 + 1) % 2 ^ 32 else s.field Reg.fltFsel 31 0) ∧
      OnlyRegs [Reg.fltFsel] { s with out := t.out } t) ∧
    (∃ t, exec (.jnrStrdataRead false) s = .next t ∧ t.out = .regData 0 Reg.jnrStrdata0 s.streamData.1 :: s.out ∧ t.man.strLatch = s.streamData.2 ∧ t.regs = s.regs) ∧
    (∃ t, exec (.jnrStrdataRead true) s = .next t ∧ t.out = .regData 0 Reg.jnrStrdata1 s.man.strLatch :: s.out ∧
      t.field Reg.jnrStrsel 6 0 = (if (s.reg Reg.jnrStrsel).getLsbD 32 then (s.field Reg.jnrStrsel 6 0 + 1) % 128 else s.field Reg.jnrStrsel 6 0) ∧
      OnlyRegs [Reg.jnrStrsel] { s with out := t.out } t) ∧
    (∀ (i : Inst) (v : Word), let a := v.toNat / 2 ^ 62
      let sq := v.toNat % 2 ^ 32
      ∃ t, exec (.grnRselFetch i v) s = .next t ∧ (t.reader i).sel = v &&& 0xC0000001FFFFFFFF ∧ (t.reader i).seq.toNat = sq ∧
        (∀ j, j ≠ i → t.reader j = s.reader j) ∧
        (∀ d, s.man.grain.held a sq = true → s.man.grain.slot a sq = .record d → recSeq d = sq → (t.reader i).st = 1 ∧ (t.reader i).buf = d) ∧
        (s.man.grain.held a sq = true → s.man.grain.slot a sq = .torn → (t.reader i).st = 2) ∧
        ((s.man.grain.held a sq = false ∨ s.man.grain.slot a sq = .free) → (t.reader i).st = 3 ∧ (t.reader i).buf = List.replicate 256 0xFF)) ∧
    (let x := s.reader .pcie
      ∃ t, exec .grnRdataRead s = .next t ∧ t.out = .regData 0 (Reg.grnRdatak 31) (BitVec.ofNat 64 (leAt x.buf 248 8)) :: s.out ∧
        (x.sel.getLsbD 32 = false → t = { s with out := t.out }) ∧
        (x.sel.getLsbD 32 = true → (t.reader .pcie).sel.toNat % 2 ^ 32 = (x.sel.toNat + 1) % 2 ^ 32 ∧
          (t.reader .pcie).sel.toNat / 2 ^ 32 = x.sel.toNat / 2 ^ 32 ∧ (t.reader .pcie).seq.toNat = (x.sel.toNat + 1) % 2 ^ 32)) ∧
    (∀ bytes : List Byte, (s.segUp 0 = false ∨ bytes.length < 3) → exec (.i3cPrivateWrite bytes) s = .next s) ∧
    (s.segUp 0 = true → ∀ (p : Nat) (ds : List Byte), p < 2 ^ 24 → let w := Instr.i3cPrivateWrite (leBytes 3 p ++ ds)
      let u := { s with man := { s.man with pins := { s.man.pins with i3cPtr := p } } }
      ((∀ a, p ≤ a → a < p + ds.length → ¬ (0x110 ≤ a ∧ a < 0x130) ∧ a ≠ Reg.idAttctl ∧ ¬ (Reg.grnRsel ≤ a ∧ a < Reg.grnRsel + 8)) → exec w s = .next u) ∧
      (∀ k, k < 4 → p = Reg.idNoncek k → ds.length = 8 → ∃ t, exec w s = .next t ∧ Tab.get 0 (t.attest .i3c).nonce k = BitVec.ofNat 64 (ofLe ds) ∧
        (∀ j, j ≠ k → Tab.get 0 (t.attest .i3c).nonce j = Tab.get 0 (s.attest .i3c).nonce j) ∧
        t = { u with man := { u.man with attI3c := { u.man.attI3c with nonce := t.man.attI3c.nonce } } }) ∧
      (p = Reg.idAttctl → ∀ d : Byte, ds = [d] → d.getLsbD 0 = true → exec w s = .next (u.writeGo .i3c)) ∧
      (p = Reg.grnRsel → ds.length = 8 → ∃ t, exec w s = .next t ∧ (t.reader .i3c).sel = BitVec.ofNat 64 (ofLe ds) &&& 0xC0000001FFFFFFFF ∧ t.man.pins.i3cPtr = p)) ∧
    (∀ n, s.segUp 0 = true → let p := s.man.pins.i3cPtr
      ∃ t, exec (.i3cPrivateRead n) s = .next t ∧ t.out = .i3cData ((List.range n).map fun i => s.i3cByte (p + i)) :: s.out ∧ t.man.pins.i3cPtr = p + n ∧
        ((n = 0 ∨ rdataEnd < p ∨ p + n ≤ rdataEnd) → t = { s with out := t.out, man := { s.man with pins := t.man.pins } })) ∧
    (∀ a, (a < 16 → s.i3cByte a = s.man.fuses.serial.extractLsb' (8 * a) 8) ∧ (0x30300 ≤ a → s.i3cByte a = 0)) ∧
    (∀ a, s.segUp 0 = true → ∃ t, exec (.i3cDynamicAddress a) s = .next t ∧ t.man.pins.dyn = some a ∧
      t = { s with man := { s.man with pins := t.man.pins } })
end

