-- ==== Sys2Proof/Laws/Tab.lean ====
section
/-!
SUPPORT. Laws of sparse tables and byte memories: what a read finds after a change, and that a change keeps the canonical
form.
-/

namespace Sys2Proof

variable {α : Type}

@[simp] theorem Tab.get_nil (d : α) (k : Nat) : Tab.get d [] k = d := rfl

/-- Putting a value makes the key read it. -/
@[simp] theorem Tab.get_put_same (d : α) (t : Tab α) (k : Nat) (v : α) : Tab.get d (Tab.put t k v) k = v := by
  induction t with
  | nil => simp [Tab.put, Tab.get]
  | cons p r ih =>
    obtain ⟨j, w⟩ := p
    simp only [Tab.put]
    split
    · simp [Tab.get]
    · split
      · simp [Tab.get]
      · rename_i h _
        simp [Tab.get, h, ih]

/-- Putting a value leaves every other key. -/
theorem Tab.get_put_ne (d : α) (t : Tab α) {k j : Nat} (v : α) (h : j ≠ k) :
    Tab.get d (Tab.put t k v) j = Tab.get d t j := by
  induction t with
  | nil => simp [Tab.put, Tab.get, Ne.symm h]
  | cons p r ih =>
    obtain ⟨i, w⟩ := p
    simp only [Tab.put]
    split
    · rename_i e
      subst e
      simp [Tab.get, Ne.symm h]
    · split
      · simp [Tab.get, Ne.symm h]
      · simp only [Tab.get, ih]

/-- A dropped key reads the default; every other key is left. -/
theorem Tab.get_drop (d : α) (t : Tab α) (k j : Nat) :
    Tab.get d (Tab.drop t k) j = if j = k then d else Tab.get d t j := by
  induction t with
  | nil => simp [Tab.drop, Tab.get]
  | cons p r ih =>
    obtain ⟨i, w⟩ := p
    simp only [Tab.drop]
    split
    · rename_i e
      subst e
      rw [ih]
      split
      · rfl
      · rename_i h
        simp [Tab.get, Ne.symm h]
    · rename_i e
      simp only [Tab.get, ih]
      split
      · rename_i e2
        subst e2
        simp [e]
      · rfl

/-- What a key reads after a key is set. -/
theorem Tab.get_set [DecidableEq α] (d : α) (t : Tab α) (k : Nat) (v : α) (j : Nat) :
    Tab.get d (Tab.set d t k v) j = if j = k then v else Tab.get d t j := by
  unfold Tab.set
  split
  · rename_i h
    rw [Tab.get_drop, h]
  · by_cases h : j = k
    · subst h
      simp
    · rw [Tab.get_put_ne _ _ _ h, if_neg h]

@[simp] theorem Tab.get_set_same [DecidableEq α] (d : α) (t : Tab α) (k : Nat) (v : α) :
    Tab.get d (Tab.set d t k v) k = v := by simp [Tab.get_set]

theorem Tab.get_set_ne [DecidableEq α] (d : α) (t : Tab α) {k j : Nat} (v : α) (h : j ≠ k) :
    Tab.get d (Tab.set d t k v) j = Tab.get d t j := by simp [Tab.get_set, h]

/-- What a key reads does not depend on the default that the table was set with. -/
theorem Tab.get_set_other [DecidableEq α] (d e : α) (t : Tab α) {k j : Nat} (v : α) (h : j ≠ k) :
    Tab.get d (Tab.set e t k v) j = Tab.get d t j := by
  unfold Tab.set
  split
  · rw [Tab.get_drop, if_neg h]
  · exact Tab.get_put_ne _ _ _ h

/-! ### The canonical form -/

theorem Tab.rising_mono {lo lo' : Nat} (h : lo' ≤ lo) {t : Tab α} (ht : Tab.rising lo t = true) : Tab.rising lo' t = true := by
  cases t with
  | nil => rfl
  | cons p r =>
    obtain ⟨j, w⟩ := p
    simp only [Tab.rising, Bool.and_eq_true, decide_eq_true_eq] at ht ⊢
    exact ⟨by omega, ht.2⟩

theorem Tab.rising_drop {lo : Nat} {t : Tab α} (k : Nat) (ht : Tab.rising lo t = true) : Tab.rising lo (Tab.drop t k) = true := by
  induction t generalizing lo with
  | nil => rfl
  | cons p r ih =>
    obtain ⟨j, w⟩ := p
    simp only [Tab.rising, Bool.and_eq_true, decide_eq_true_eq] at ht
    simp only [Tab.drop]
    split
    · exact Tab.rising_mono (by omega) (ih ht.2)
    · simp only [Tab.rising, Bool.and_eq_true, decide_eq_true_eq]
      exact ⟨ht.1, ih ht.2⟩

theorem Tab.rising_put {lo : Nat} {t : Tab α} {k : Nat} (v : α) (hk : lo ≤ k) (ht : Tab.rising lo t = true) :
    Tab.rising lo (Tab.put t k v) = true := by
  induction t generalizing lo with
  | nil => simp [Tab.put, Tab.rising, hk]
  | cons p r ih =>
    obtain ⟨j, w⟩ := p
    simp only [Tab.rising, Bool.and_eq_true, decide_eq_true_eq] at ht
    simp only [Tab.put]
    split
    · rename_i e
      subst e
      simpa [Tab.rising] using ht
    · split
      · simp only [Tab.rising, Bool.and_eq_true, decide_eq_true_eq]
        exact ⟨hk, by omega, ht.2⟩
      · simp only [Tab.rising, Bool.and_eq_true, decide_eq_true_eq]
        exact ⟨ht.1, ih (by omega) ht.2⟩

theorem Tab.mem_drop {t : Tab α} {k : Nat} {p : Nat × α} (h : p ∈ Tab.drop t k) : p ∈ t := by
  induction t with
  | nil => simp [Tab.drop] at h
  | cons q r ih =>
    obtain ⟨j, w⟩ := q
    simp only [Tab.drop] at h
    split at h
    · exact List.mem_cons_of_mem _ (ih h)
    · rcases List.mem_cons.1 h with h | h
      · exact h ▸ List.mem_cons_self ..
      · exact List.mem_cons_of_mem _ (ih h)

theorem Tab.mem_put {t : Tab α} {k : Nat} {v : α} {p : Nat × α} (h : p ∈ Tab.put t k v) : p = (k, v) ∨ p ∈ t := by
  induction t with
  | nil => simpa [Tab.put] using h
  | cons q r ih =>
    obtain ⟨j, w⟩ := q
    simp only [Tab.put] at h
    split at h
    · rcases List.mem_cons.1 h with h | h
      · exact .inl h
      · exact .inr (List.mem_cons_of_mem _ h)
    · split at h
      · rcases List.mem_cons.1 h with h | h
        · exact .inl h
        · exact .inr h
      · rcases List.mem_cons.1 h with h | h
        · exact .inr (h ▸ List.mem_cons_self ..)
        · exact (ih h).imp id (List.mem_cons_of_mem _)

/-- Setting a key keeps the canonical form. -/
theorem Tab.wf_set [DecidableEq α] (d : α) {t : Tab α} (k : Nat) (v : α) (h : Tab.wf d t = true) :
    Tab.wf d (Tab.set d t k v) = true := by
  simp only [Tab.wf, Bool.and_eq_true, List.all_eq_true, decide_eq_true_eq] at h ⊢
  unfold Tab.set
  split
  · exact ⟨Tab.rising_drop k h.1, fun p hp => h.2 p (Tab.mem_drop hp)⟩
  · rename_i hv
    refine ⟨Tab.rising_put v (Nat.zero_le k) h.1, fun p hp => ?_⟩
    rcases Tab.mem_put hp with e | hp
    · subst e
      exact hv
    · exact h.2 p hp

theorem Tab.rising_filter (f : Nat × α → Bool) {t : Tab α} {lo : Nat} (h : Tab.rising lo t = true) :
    Tab.rising lo (t.filter f) = true := by
  induction t generalizing lo with
  | nil => rfl
  | cons p r ih =>
    obtain ⟨j, w⟩ := p
    simp only [Tab.rising, Bool.and_eq_true, decide_eq_true_eq] at h
    simp only [List.filter]
    split
    · simp only [Tab.rising, Bool.and_eq_true, decide_eq_true_eq]
      exact ⟨h.1, ih h.2⟩
    · exact Tab.rising_mono (by omega) (ih h.2)

namespace Machine

/-! ### Byte memories -/

/-- A byte read after a store: the stored bytes inside the range, the old ones outside. -/
theorem get_memWrite (m : List Host.Cell) (a : Nat) (d : List Byte) (x : Nat) :
    Tab.get 0 (memWrite m a d) x = if a ≤ x ∧ x < a + d.length then d.getD (x - a) 0 else Tab.get 0 m x := by
  induction d generalizing m a with
  | nil =>
    have : ¬ (a ≤ x ∧ x < a + ([] : List Byte).length) := by simp
    rw [if_neg this]
    rfl
  | cons b r ih =>
    simp only [memWrite, ih, Tab.get_set, List.length_cons]
    by_cases h1 : x = a
    · subst h1
      simp
    · by_cases h2 : a + 1 ≤ x ∧ x < a + 1 + r.length
      · rw [if_pos h2, if_pos (by omega)]
        obtain ⟨k, rfl⟩ : ∃ k, x = a + (k + 1) := ⟨x - a - 1, by omega⟩
        have e1 : a + (k + 1) - (a + 1) = k := by omega
        have e2 : a + (k + 1) - a = k + 1 := by omega
        rw [e1, e2]
        simp [List.getD]
      · rw [if_neg h2, if_neg h1, if_neg (by omega)]

/-- Every store keeps the canonical form of a byte memory. -/
theorem wf_memWrite {m : List Host.Cell} (a : Nat) (d : List Byte) (h : Tab.wf (0 : Byte) m = true) :
    Tab.wf (0 : Byte) (memWrite m a d) = true := by
  induction d generalizing m a with
  | nil => exact h
  | cons b r ih => exact ih (a + 1) (Tab.wf_set 0 a b h)

@[simp] theorem memRead_length (m : List Host.Cell) (a n : Nat) : (memRead m a n).length = n := by simp [memRead]

/-- A read of the bytes just stored gives them back. -/
theorem memRead_memWrite_same (m : List Host.Cell) (a : Nat) (d : List Byte) : memRead (memWrite m a d) a d.length = d := by
  apply List.ext_getElem
  · simp
  · intro i h1 h2
    simp only [memRead, List.getElem_map, List.getElem_range, get_memWrite]
    rw [if_pos (by omega)]
    have : a + i - a = i := by omega
    rw [this]
    simp [List.getD, h2]

/-- A read that meets no stored byte finds what it found before. -/
theorem memRead_memWrite_apart (m : List Host.Cell) (a b n : Nat) (d : List Byte) (h : b + n ≤ a ∨ a + d.length ≤ b) :
    memRead (memWrite m a d) b n = memRead m b n := by
  simp only [memRead]
  apply List.map_congr_left
  intro i hi
  rw [get_memWrite, if_neg]
  have := List.mem_range.1 hi
  omega

end Machine

end Sys2Proof
end

