-- ==== Sys2Proof/Laws/State.lean ====
section
/-!
SUPPORT. One lemma for each field that an update of the state leaves, and the field that it changes.
-/

namespace Sys2Proof.Machine

variable (s : State)

/-! ### `State.modComp` -/

@[simp] theorem State.modComp_pending (f : Compute → Compute) : (s.modComp f).pending = s.pending := rfl
@[simp] theorem State.modComp_tide (f : Compute → Compute) : (s.modComp f).tide = s.tide := rfl
@[simp] theorem State.modComp_regs (f : Compute → Compute) : (s.modComp f).regs = s.regs := rfl
@[simp] theorem State.modComp_stage (f : Compute → Compute) : (s.modComp f).stage = s.stage := rfl
@[simp] theorem State.modComp_latch (f : Compute → Compute) : (s.modComp f).latch = s.latch := rfl
@[simp] theorem State.modComp_out (f : Compute → Compute) : (s.modComp f).out = s.out := rfl
@[simp] theorem State.modComp_host (f : Compute → Compute) : (s.modComp f).host = s.host := rfl
@[simp] theorem State.modComp_man (f : Compute → Compute) : (s.modComp f).man = s.man := rfl
@[simp] theorem State.modComp_phys (f : Compute → Compute) : (s.modComp f).phys = s.phys := rfl
@[simp] theorem State.modComp_free (f : Compute → Compute) : (s.modComp f).free = s.free := rfl

/-! ### `State.modHost` -/

@[simp] theorem State.modHost_pending (f : HostSide → HostSide) : (s.modHost f).pending = s.pending := rfl
@[simp] theorem State.modHost_tide (f : HostSide → HostSide) : (s.modHost f).tide = s.tide := rfl
@[simp] theorem State.modHost_regs (f : HostSide → HostSide) : (s.modHost f).regs = s.regs := rfl
@[simp] theorem State.modHost_stage (f : HostSide → HostSide) : (s.modHost f).stage = s.stage := rfl
@[simp] theorem State.modHost_latch (f : HostSide → HostSide) : (s.modHost f).latch = s.latch := rfl
@[simp] theorem State.modHost_out (f : HostSide → HostSide) : (s.modHost f).out = s.out := rfl
@[simp] theorem State.modHost_comp (f : HostSide → HostSide) : (s.modHost f).comp = s.comp := rfl
@[simp] theorem State.modHost_man (f : HostSide → HostSide) : (s.modHost f).man = s.man := rfl
@[simp] theorem State.modHost_phys (f : HostSide → HostSide) : (s.modHost f).phys = s.phys := rfl
@[simp] theorem State.modHost_free (f : HostSide → HostSide) : (s.modHost f).free = s.free := rfl

/-! ### `State.modMan` -/

@[simp] theorem State.modMan_pending (f : Manage → Manage) : (s.modMan f).pending = s.pending := rfl
@[simp] theorem State.modMan_tide (f : Manage → Manage) : (s.modMan f).tide = s.tide := rfl
@[simp] theorem State.modMan_regs (f : Manage → Manage) : (s.modMan f).regs = s.regs := rfl
@[simp] theorem State.modMan_stage (f : Manage → Manage) : (s.modMan f).stage = s.stage := rfl
@[simp] theorem State.modMan_latch (f : Manage → Manage) : (s.modMan f).latch = s.latch := rfl
@[simp] theorem State.modMan_out (f : Manage → Manage) : (s.modMan f).out = s.out := rfl
@[simp] theorem State.modMan_comp (f : Manage → Manage) : (s.modMan f).comp = s.comp := rfl
@[simp] theorem State.modMan_host (f : Manage → Manage) : (s.modMan f).host = s.host := rfl
@[simp] theorem State.modMan_phys (f : Manage → Manage) : (s.modMan f).phys = s.phys := rfl
@[simp] theorem State.modMan_free (f : Manage → Manage) : (s.modMan f).free = s.free := rfl

/-! ### `State.modPhys` -/

@[simp] theorem State.modPhys_pending (f : Physical → Physical) : (s.modPhys f).pending = s.pending := rfl
@[simp] theorem State.modPhys_tide (f : Physical → Physical) : (s.modPhys f).tide = s.tide := rfl
@[simp] theorem State.modPhys_regs (f : Physical → Physical) : (s.modPhys f).regs = s.regs := rfl
@[simp] theorem State.modPhys_stage (f : Physical → Physical) : (s.modPhys f).stage = s.stage := rfl
@[simp] theorem State.modPhys_latch (f : Physical → Physical) : (s.modPhys f).latch = s.latch := rfl
@[simp] theorem State.modPhys_out (f : Physical → Physical) : (s.modPhys f).out = s.out := rfl
@[simp] theorem State.modPhys_comp (f : Physical → Physical) : (s.modPhys f).comp = s.comp := rfl
@[simp] theorem State.modPhys_host (f : Physical → Physical) : (s.modPhys f).host = s.host := rfl
@[simp] theorem State.modPhys_man (f : Physical → Physical) : (s.modPhys f).man = s.man := rfl
@[simp] theorem State.modPhys_free (f : Physical → Physical) : (s.modPhys f).free = s.free := rfl

/-! ### `State.setPart` -/

@[simp] theorem State.setPart_pending (p : Nat) (x : Part) : (s.setPart p x).pending = s.pending := rfl
@[simp] theorem State.setPart_tide (p : Nat) (x : Part) : (s.setPart p x).tide = s.tide := rfl
@[simp] theorem State.setPart_regs (p : Nat) (x : Part) : (s.setPart p x).regs = s.regs := rfl
@[simp] theorem State.setPart_stage (p : Nat) (x : Part) : (s.setPart p x).stage = s.stage := rfl
@[simp] theorem State.setPart_latch (p : Nat) (x : Part) : (s.setPart p x).latch = s.latch := rfl
@[simp] theorem State.setPart_out (p : Nat) (x : Part) : (s.setPart p x).out = s.out := rfl
@[simp] theorem State.setPart_host (p : Nat) (x : Part) : (s.setPart p x).host = s.host := rfl
@[simp] theorem State.setPart_man (p : Nat) (x : Part) : (s.setPart p x).man = s.man := rfl
@[simp] theorem State.setPart_phys (p : Nat) (x : Part) : (s.setPart p x).phys = s.phys := rfl
@[simp] theorem State.setPart_free (p : Nat) (x : Part) : (s.setPart p x).free = s.free := rfl
@[simp] theorem State.setPart_comp_tiles (p : Nat) (x : Part) : (s.setPart p x).comp.tiles = s.comp.tiles := rfl
@[simp] theorem State.setPart_comp_routers (p : Nat) (x : Part) : (s.setPart p x).comp.routers = s.comp.routers := rfl
@[simp] theorem State.setPart_comp_net (p : Nat) (x : Part) : (s.setPart p x).comp.net = s.comp.net := rfl
@[simp] theorem State.setPart_comp_fresh (p : Nat) (x : Part) : (s.setPart p x).comp.fresh = s.comp.fresh := rfl
@[simp] theorem State.setPart_comp_ring (p : Nat) (x : Part) : (s.setPart p x).comp.ring = s.comp.ring := rfl
@[simp] theorem State.setPart_comp_hosts (p : Nat) (x : Part) : (s.setPart p x).comp.hosts = s.comp.hosts := rfl
@[simp] theorem State.setPart_comp_hbm (p : Nat) (x : Part) : (s.setPart p x).comp.hbm = s.comp.hbm := rfl
@[simp] theorem State.setPart_comp_stackTab (p : Nat) (x : Part) : (s.setPart p x).comp.stackTab = s.comp.stackTab := rfl
@[simp] theorem State.setPart_comp_engines (p : Nat) (x : Part) : (s.setPart p x).comp.engines = s.comp.engines := rfl
@[simp] theorem State.setPart_comp_flumes (p : Nat) (x : Part) : (s.setPart p x).comp.flumes = s.comp.flumes := rfl
@[simp] theorem State.setPart_comp_fences (p : Nat) (x : Part) : (s.setPart p x).comp.fences = s.comp.fences := rfl
@[simp] theorem State.setPart_comp_pubs (p : Nat) (x : Part) : (s.setPart p x).comp.pubs = s.comp.pubs := rfl
@[simp] theorem State.setPart_comp_escapeVer (p : Nat) (x : Part) : (s.setPart p x).comp.escapeVer = s.comp.escapeVer := rfl

/-! ### `State.modPart` -/

@[simp] theorem State.modPart_pending (p : Nat) (f : Part → Part) : (s.modPart p f).pending = s.pending := rfl
@[simp] theorem State.modPart_tide (p : Nat) (f : Part → Part) : (s.modPart p f).tide = s.tide := rfl
@[simp] theorem State.modPart_regs (p : Nat) (f : Part → Part) : (s.modPart p f).regs = s.regs := rfl
@[simp] theorem State.modPart_stage (p : Nat) (f : Part → Part) : (s.modPart p f).stage = s.stage := rfl
@[simp] theorem State.modPart_latch (p : Nat) (f : Part → Part) : (s.modPart p f).latch = s.latch := rfl
@[simp] theorem State.modPart_out (p : Nat) (f : Part → Part) : (s.modPart p f).out = s.out := rfl
@[simp] theorem State.modPart_host (p : Nat) (f : Part → Part) : (s.modPart p f).host = s.host := rfl
@[simp] theorem State.modPart_man (p : Nat) (f : Part → Part) : (s.modPart p f).man = s.man := rfl
@[simp] theorem State.modPart_phys (p : Nat) (f : Part → Part) : (s.modPart p f).phys = s.phys := rfl
@[simp] theorem State.modPart_free (p : Nat) (f : Part → Part) : (s.modPart p f).free = s.free := rfl
@[simp] theorem State.modPart_comp_tiles (p : Nat) (f : Part → Part) : (s.modPart p f).comp.tiles = s.comp.tiles := rfl
@[simp] theorem State.modPart_comp_routers (p : Nat) (f : Part → Part) : (s.modPart p f).comp.routers = s.comp.routers := rfl
@[simp] theorem State.modPart_comp_net (p : Nat) (f : Part → Part) : (s.modPart p f).comp.net = s.comp.net := rfl
@[simp] theorem State.modPart_comp_fresh (p : Nat) (f : Part → Part) : (s.modPart p f).comp.fresh = s.comp.fresh := rfl
@[simp] theorem State.modPart_comp_ring (p : Nat) (f : Part → Part) : (s.modPart p f).comp.ring = s.comp.ring := rfl
@[simp] theorem State.modPart_comp_hosts (p : Nat) (f : Part → Part) : (s.modPart p f).comp.hosts = s.comp.hosts := rfl
@[simp] theorem State.modPart_comp_hbm (p : Nat) (f : Part → Part) : (s.modPart p f).comp.hbm = s.comp.hbm := rfl
@[simp] theorem State.modPart_comp_stackTab (p : Nat) (f : Part → Part) : (s.modPart p f).comp.stackTab = s.comp.stackTab := rfl
@[simp] theorem State.modPart_comp_engines (p : Nat) (f : Part → Part) : (s.modPart p f).comp.engines = s.comp.engines := rfl
@[simp] theorem State.modPart_comp_flumes (p : Nat) (f : Part → Part) : (s.modPart p f).comp.flumes = s.comp.flumes := rfl
@[simp] theorem State.modPart_comp_fences (p : Nat) (f : Part → Part) : (s.modPart p f).comp.fences = s.comp.fences := rfl
@[simp] theorem State.modPart_comp_pubs (p : Nat) (f : Part → Part) : (s.modPart p f).comp.pubs = s.comp.pubs := rfl
@[simp] theorem State.modPart_comp_escapeVer (p : Nat) (f : Part → Part) : (s.modPart p f).comp.escapeVer = s.comp.escapeVer := rfl

/-! ### `State.modOwn` -/

@[simp] theorem State.modOwn_pending (p : Nat) (f : PartOwn → PartOwn) : (s.modOwn p f).pending = s.pending := rfl
@[simp] theorem State.modOwn_tide (p : Nat) (f : PartOwn → PartOwn) : (s.modOwn p f).tide = s.tide := rfl
@[simp] theorem State.modOwn_regs (p : Nat) (f : PartOwn → PartOwn) : (s.modOwn p f).regs = s.regs := rfl
@[simp] theorem State.modOwn_stage (p : Nat) (f : PartOwn → PartOwn) : (s.modOwn p f).stage = s.stage := rfl
@[simp] theorem State.modOwn_latch (p : Nat) (f : PartOwn → PartOwn) : (s.modOwn p f).latch = s.latch := rfl
@[simp] theorem State.modOwn_out (p : Nat) (f : PartOwn → PartOwn) : (s.modOwn p f).out = s.out := rfl
@[simp] theorem State.modOwn_host (p : Nat) (f : PartOwn → PartOwn) : (s.modOwn p f).host = s.host := rfl
@[simp] theorem State.modOwn_man (p : Nat) (f : PartOwn → PartOwn) : (s.modOwn p f).man = s.man := rfl
@[simp] theorem State.modOwn_phys (p : Nat) (f : PartOwn → PartOwn) : (s.modOwn p f).phys = s.phys := rfl
@[simp] theorem State.modOwn_free (p : Nat) (f : PartOwn → PartOwn) : (s.modOwn p f).free = s.free := rfl
@[simp] theorem State.modOwn_comp_tiles (p : Nat) (f : PartOwn → PartOwn) : (s.modOwn p f).comp.tiles = s.comp.tiles := rfl
@[simp] theorem State.modOwn_comp_routers (p : Nat) (f : PartOwn → PartOwn) : (s.modOwn p f).comp.routers = s.comp.routers := rfl
@[simp] theorem State.modOwn_comp_net (p : Nat) (f : PartOwn → PartOwn) : (s.modOwn p f).comp.net = s.comp.net := rfl
@[simp] theorem State.modOwn_comp_fresh (p : Nat) (f : PartOwn → PartOwn) : (s.modOwn p f).comp.fresh = s.comp.fresh := rfl
@[simp] theorem State.modOwn_comp_ring (p : Nat) (f : PartOwn → PartOwn) : (s.modOwn p f).comp.ring = s.comp.ring := rfl
@[simp] theorem State.modOwn_comp_hosts (p : Nat) (f : PartOwn → PartOwn) : (s.modOwn p f).comp.hosts = s.comp.hosts := rfl
@[simp] theorem State.modOwn_comp_hbm (p : Nat) (f : PartOwn → PartOwn) : (s.modOwn p f).comp.hbm = s.comp.hbm := rfl
@[simp] theorem State.modOwn_comp_stackTab (p : Nat) (f : PartOwn → PartOwn) : (s.modOwn p f).comp.stackTab = s.comp.stackTab := rfl
@[simp] theorem State.modOwn_comp_engines (p : Nat) (f : PartOwn → PartOwn) : (s.modOwn p f).comp.engines = s.comp.engines := rfl
@[simp] theorem State.modOwn_comp_flumes (p : Nat) (f : PartOwn → PartOwn) : (s.modOwn p f).comp.flumes = s.comp.flumes := rfl
@[simp] theorem State.modOwn_comp_fences (p : Nat) (f : PartOwn → PartOwn) : (s.modOwn p f).comp.fences = s.comp.fences := rfl
@[simp] theorem State.modOwn_comp_pubs (p : Nat) (f : PartOwn → PartOwn) : (s.modOwn p f).comp.pubs = s.comp.pubs := rfl
@[simp] theorem State.modOwn_comp_escapeVer (p : Nat) (f : PartOwn → PartOwn) : (s.modOwn p f).comp.escapeVer = s.comp.escapeVer := rfl

/-! ### `State.modRun` -/

@[simp] theorem State.modRun_pending (p : Nat) (f : PartRun → PartRun) : (s.modRun p f).pending = s.pending := rfl
@[simp] theorem State.modRun_tide (p : Nat) (f : PartRun → PartRun) : (s.modRun p f).tide = s.tide := rfl
@[simp] theorem State.modRun_regs (p : Nat) (f : PartRun → PartRun) : (s.modRun p f).regs = s.regs := rfl
@[simp] theorem State.modRun_stage (p : Nat) (f : PartRun → PartRun) : (s.modRun p f).stage = s.stage := rfl
@[simp] theorem State.modRun_latch (p : Nat) (f : PartRun → PartRun) : (s.modRun p f).latch = s.latch := rfl
@[simp] theorem State.modRun_out (p : Nat) (f : PartRun → PartRun) : (s.modRun p f).out = s.out := rfl
@[simp] theorem State.modRun_host (p : Nat) (f : PartRun → PartRun) : (s.modRun p f).host = s.host := rfl
@[simp] theorem State.modRun_man (p : Nat) (f : PartRun → PartRun) : (s.modRun p f).man = s.man := rfl
@[simp] theorem State.modRun_phys (p : Nat) (f : PartRun → PartRun) : (s.modRun p f).phys = s.phys := rfl
@[simp] theorem State.modRun_free (p : Nat) (f : PartRun → PartRun) : (s.modRun p f).free = s.free := rfl
@[simp] theorem State.modRun_comp_tiles (p : Nat) (f : PartRun → PartRun) : (s.modRun p f).comp.tiles = s.comp.tiles := rfl
@[simp] theorem State.modRun_comp_routers (p : Nat) (f : PartRun → PartRun) : (s.modRun p f).comp.routers = s.comp.routers := rfl
@[simp] theorem State.modRun_comp_net (p : Nat) (f : PartRun → PartRun) : (s.modRun p f).comp.net = s.comp.net := rfl
@[simp] theorem State.modRun_comp_fresh (p : Nat) (f : PartRun → PartRun) : (s.modRun p f).comp.fresh = s.comp.fresh := rfl
@[simp] theorem State.modRun_comp_ring (p : Nat) (f : PartRun → PartRun) : (s.modRun p f).comp.ring = s.comp.ring := rfl
@[simp] theorem State.modRun_comp_hosts (p : Nat) (f : PartRun → PartRun) : (s.modRun p f).comp.hosts = s.comp.hosts := rfl
@[simp] theorem State.modRun_comp_hbm (p : Nat) (f : PartRun → PartRun) : (s.modRun p f).comp.hbm = s.comp.hbm := rfl
@[simp] theorem State.modRun_comp_stackTab (p : Nat) (f : PartRun → PartRun) : (s.modRun p f).comp.stackTab = s.comp.stackTab := rfl
@[simp] theorem State.modRun_comp_engines (p : Nat) (f : PartRun → PartRun) : (s.modRun p f).comp.engines = s.comp.engines := rfl
@[simp] theorem State.modRun_comp_flumes (p : Nat) (f : PartRun → PartRun) : (s.modRun p f).comp.flumes = s.comp.flumes := rfl
@[simp] theorem State.modRun_comp_fences (p : Nat) (f : PartRun → PartRun) : (s.modRun p f).comp.fences = s.comp.fences := rfl
@[simp] theorem State.modRun_comp_pubs (p : Nat) (f : PartRun → PartRun) : (s.modRun p f).comp.pubs = s.comp.pubs := rfl
@[simp] theorem State.modRun_comp_escapeVer (p : Nat) (f : PartRun → PartRun) : (s.modRun p f).comp.escapeVer = s.comp.escapeVer := rfl

/-! ### `State.modPln` -/

@[simp] theorem State.modPln_pending (p : Nat) (f : PartPlane → PartPlane) : (s.modPln p f).pending = s.pending := rfl
@[simp] theorem State.modPln_tide (p : Nat) (f : PartPlane → PartPlane) : (s.modPln p f).tide = s.tide := rfl
@[simp] theorem State.modPln_regs (p : Nat) (f : PartPlane → PartPlane) : (s.modPln p f).regs = s.regs := rfl
@[simp] theorem State.modPln_stage (p : Nat) (f : PartPlane → PartPlane) : (s.modPln p f).stage = s.stage := rfl
@[simp] theorem State.modPln_latch (p : Nat) (f : PartPlane → PartPlane) : (s.modPln p f).latch = s.latch := rfl
@[simp] theorem State.modPln_out (p : Nat) (f : PartPlane → PartPlane) : (s.modPln p f).out = s.out := rfl
@[simp] theorem State.modPln_host (p : Nat) (f : PartPlane → PartPlane) : (s.modPln p f).host = s.host := rfl
@[simp] theorem State.modPln_man (p : Nat) (f : PartPlane → PartPlane) : (s.modPln p f).man = s.man := rfl
@[simp] theorem State.modPln_phys (p : Nat) (f : PartPlane → PartPlane) : (s.modPln p f).phys = s.phys := rfl
@[simp] theorem State.modPln_free (p : Nat) (f : PartPlane → PartPlane) : (s.modPln p f).free = s.free := rfl
@[simp] theorem State.modPln_comp_tiles (p : Nat) (f : PartPlane → PartPlane) : (s.modPln p f).comp.tiles = s.comp.tiles := rfl
@[simp] theorem State.modPln_comp_routers (p : Nat) (f : PartPlane → PartPlane) : (s.modPln p f).comp.routers = s.comp.routers := rfl
@[simp] theorem State.modPln_comp_net (p : Nat) (f : PartPlane → PartPlane) : (s.modPln p f).comp.net = s.comp.net := rfl
@[simp] theorem State.modPln_comp_fresh (p : Nat) (f : PartPlane → PartPlane) : (s.modPln p f).comp.fresh = s.comp.fresh := rfl
@[simp] theorem State.modPln_comp_ring (p : Nat) (f : PartPlane → PartPlane) : (s.modPln p f).comp.ring = s.comp.ring := rfl
@[simp] theorem State.modPln_comp_hosts (p : Nat) (f : PartPlane → PartPlane) : (s.modPln p f).comp.hosts = s.comp.hosts := rfl
@[simp] theorem State.modPln_comp_hbm (p : Nat) (f : PartPlane → PartPlane) : (s.modPln p f).comp.hbm = s.comp.hbm := rfl
@[simp] theorem State.modPln_comp_stackTab (p : Nat) (f : PartPlane → PartPlane) : (s.modPln p f).comp.stackTab = s.comp.stackTab := rfl
@[simp] theorem State.modPln_comp_engines (p : Nat) (f : PartPlane → PartPlane) : (s.modPln p f).comp.engines = s.comp.engines := rfl
@[simp] theorem State.modPln_comp_flumes (p : Nat) (f : PartPlane → PartPlane) : (s.modPln p f).comp.flumes = s.comp.flumes := rfl
@[simp] theorem State.modPln_comp_fences (p : Nat) (f : PartPlane → PartPlane) : (s.modPln p f).comp.fences = s.comp.fences := rfl
@[simp] theorem State.modPln_comp_pubs (p : Nat) (f : PartPlane → PartPlane) : (s.modPln p f).comp.pubs = s.comp.pubs := rfl
@[simp] theorem State.modPln_comp_escapeVer (p : Nat) (f : PartPlane → PartPlane) : (s.modPln p f).comp.escapeVer = s.comp.escapeVer := rfl

/-! ### `State.modCommit` -/

@[simp] theorem State.modCommit_pending (p : Nat) (f : Commit → Commit) : (s.modCommit p f).pending = s.pending := rfl
@[simp] theorem State.modCommit_tide (p : Nat) (f : Commit → Commit) : (s.modCommit p f).tide = s.tide := rfl
@[simp] theorem State.modCommit_regs (p : Nat) (f : Commit → Commit) : (s.modCommit p f).regs = s.regs := rfl
@[simp] theorem State.modCommit_stage (p : Nat) (f : Commit → Commit) : (s.modCommit p f).stage = s.stage := rfl
@[simp] theorem State.modCommit_latch (p : Nat) (f : Commit → Commit) : (s.modCommit p f).latch = s.latch := rfl
@[simp] theorem State.modCommit_out (p : Nat) (f : Commit → Commit) : (s.modCommit p f).out = s.out := rfl
@[simp] theorem State.modCommit_host (p : Nat) (f : Commit → Commit) : (s.modCommit p f).host = s.host := rfl
@[simp] theorem State.modCommit_man (p : Nat) (f : Commit → Commit) : (s.modCommit p f).man = s.man := rfl
@[simp] theorem State.modCommit_phys (p : Nat) (f : Commit → Commit) : (s.modCommit p f).phys = s.phys := rfl
@[simp] theorem State.modCommit_free (p : Nat) (f : Commit → Commit) : (s.modCommit p f).free = s.free := rfl
@[simp] theorem State.modCommit_comp_tiles (p : Nat) (f : Commit → Commit) : (s.modCommit p f).comp.tiles = s.comp.tiles := rfl
@[simp] theorem State.modCommit_comp_routers (p : Nat) (f : Commit → Commit) : (s.modCommit p f).comp.routers = s.comp.routers := rfl
@[simp] theorem State.modCommit_comp_net (p : Nat) (f : Commit → Commit) : (s.modCommit p f).comp.net = s.comp.net := rfl
@[simp] theorem State.modCommit_comp_fresh (p : Nat) (f : Commit → Commit) : (s.modCommit p f).comp.fresh = s.comp.fresh := rfl
@[simp] theorem State.modCommit_comp_ring (p : Nat) (f : Commit → Commit) : (s.modCommit p f).comp.ring = s.comp.ring := rfl
@[simp] theorem State.modCommit_comp_hosts (p : Nat) (f : Commit → Commit) : (s.modCommit p f).comp.hosts = s.comp.hosts := rfl
@[simp] theorem State.modCommit_comp_hbm (p : Nat) (f : Commit → Commit) : (s.modCommit p f).comp.hbm = s.comp.hbm := rfl
@[simp] theorem State.modCommit_comp_stackTab (p : Nat) (f : Commit → Commit) : (s.modCommit p f).comp.stackTab = s.comp.stackTab := rfl
@[simp] theorem State.modCommit_comp_engines (p : Nat) (f : Commit → Commit) : (s.modCommit p f).comp.engines = s.comp.engines := rfl
@[simp] theorem State.modCommit_comp_flumes (p : Nat) (f : Commit → Commit) : (s.modCommit p f).comp.flumes = s.comp.flumes := rfl
@[simp] theorem State.modCommit_comp_fences (p : Nat) (f : Commit → Commit) : (s.modCommit p f).comp.fences = s.comp.fences := rfl
@[simp] theorem State.modCommit_comp_pubs (p : Nat) (f : Commit → Commit) : (s.modCommit p f).comp.pubs = s.comp.pubs := rfl
@[simp] theorem State.modCommit_comp_escapeVer (p : Nat) (f : Commit → Commit) : (s.modCommit p f).comp.escapeVer = s.comp.escapeVer := rfl

/-! ### `State.modHeal` -/

@[simp] theorem State.modHeal_pending (p : Nat) (f : Heal → Heal) : (s.modHeal p f).pending = s.pending := rfl
@[simp] theorem State.modHeal_tide (p : Nat) (f : Heal → Heal) : (s.modHeal p f).tide = s.tide := rfl
@[simp] theorem State.modHeal_regs (p : Nat) (f : Heal → Heal) : (s.modHeal p f).regs = s.regs := rfl
@[simp] theorem State.modHeal_stage (p : Nat) (f : Heal → Heal) : (s.modHeal p f).stage = s.stage := rfl
@[simp] theorem State.modHeal_latch (p : Nat) (f : Heal → Heal) : (s.modHeal p f).latch = s.latch := rfl
@[simp] theorem State.modHeal_out (p : Nat) (f : Heal → Heal) : (s.modHeal p f).out = s.out := rfl
@[simp] theorem State.modHeal_host (p : Nat) (f : Heal → Heal) : (s.modHeal p f).host = s.host := rfl
@[simp] theorem State.modHeal_man (p : Nat) (f : Heal → Heal) : (s.modHeal p f).man = s.man := rfl
@[simp] theorem State.modHeal_phys (p : Nat) (f : Heal → Heal) : (s.modHeal p f).phys = s.phys := rfl
@[simp] theorem State.modHeal_free (p : Nat) (f : Heal → Heal) : (s.modHeal p f).free = s.free := rfl
@[simp] theorem State.modHeal_comp_tiles (p : Nat) (f : Heal → Heal) : (s.modHeal p f).comp.tiles = s.comp.tiles := rfl
@[simp] theorem State.modHeal_comp_routers (p : Nat) (f : Heal → Heal) : (s.modHeal p f).comp.routers = s.comp.routers := rfl
@[simp] theorem State.modHeal_comp_net (p : Nat) (f : Heal → Heal) : (s.modHeal p f).comp.net = s.comp.net := rfl
@[simp] theorem State.modHeal_comp_fresh (p : Nat) (f : Heal → Heal) : (s.modHeal p f).comp.fresh = s.comp.fresh := rfl
@[simp] theorem State.modHeal_comp_ring (p : Nat) (f : Heal → Heal) : (s.modHeal p f).comp.ring = s.comp.ring := rfl
@[simp] theorem State.modHeal_comp_hosts (p : Nat) (f : Heal → Heal) : (s.modHeal p f).comp.hosts = s.comp.hosts := rfl
@[simp] theorem State.modHeal_comp_hbm (p : Nat) (f : Heal → Heal) : (s.modHeal p f).comp.hbm = s.comp.hbm := rfl
@[simp] theorem State.modHeal_comp_stackTab (p : Nat) (f : Heal → Heal) : (s.modHeal p f).comp.stackTab = s.comp.stackTab := rfl
@[simp] theorem State.modHeal_comp_engines (p : Nat) (f : Heal → Heal) : (s.modHeal p f).comp.engines = s.comp.engines := rfl
@[simp] theorem State.modHeal_comp_flumes (p : Nat) (f : Heal → Heal) : (s.modHeal p f).comp.flumes = s.comp.flumes := rfl
@[simp] theorem State.modHeal_comp_fences (p : Nat) (f : Heal → Heal) : (s.modHeal p f).comp.fences = s.comp.fences := rfl
@[simp] theorem State.modHeal_comp_pubs (p : Nat) (f : Heal → Heal) : (s.modHeal p f).comp.pubs = s.comp.pubs := rfl
@[simp] theorem State.modHeal_comp_escapeVer (p : Nat) (f : Heal → Heal) : (s.modHeal p f).comp.escapeVer = s.comp.escapeVer := rfl

/-! ### `State.setBay` -/

@[simp] theorem State.setBay_pending (b : Nat) (x : Bay) : (s.setBay b x).pending = s.pending := rfl
@[simp] theorem State.setBay_tide (b : Nat) (x : Bay) : (s.setBay b x).tide = s.tide := rfl
@[simp] theorem State.setBay_regs (b : Nat) (x : Bay) : (s.setBay b x).regs = s.regs := rfl
@[simp] theorem State.setBay_stage (b : Nat) (x : Bay) : (s.setBay b x).stage = s.stage := rfl
@[simp] theorem State.setBay_latch (b : Nat) (x : Bay) : (s.setBay b x).latch = s.latch := rfl
@[simp] theorem State.setBay_out (b : Nat) (x : Bay) : (s.setBay b x).out = s.out := rfl
@[simp] theorem State.setBay_comp (b : Nat) (x : Bay) : (s.setBay b x).comp = s.comp := rfl
@[simp] theorem State.setBay_host (b : Nat) (x : Bay) : (s.setBay b x).host = s.host := rfl
@[simp] theorem State.setBay_man (b : Nat) (x : Bay) : (s.setBay b x).man = s.man := rfl
@[simp] theorem State.setBay_free (b : Nat) (x : Bay) : (s.setBay b x).free = s.free := rfl
@[simp] theorem State.setBay_phys_power (b : Nat) (x : Bay) : (s.setBay b x).phys.power = s.phys.power := rfl
@[simp] theorem State.setBay_phys_clock (b : Nat) (x : Bay) : (s.setBay b x).phys.clock = s.phys.clock := rfl
@[simp] theorem State.setBay_phys_time (b : Nat) (x : Bay) : (s.setBay b x).phys.time = s.phys.time := rfl
@[simp] theorem State.setBay_phys_stl (b : Nat) (x : Bay) : (s.setBay b x).phys.stl = s.phys.stl := rfl

/-! ### `State.modBay` -/

@[simp] theorem State.modBay_pending (b : Nat) (f : Bay → Bay) : (s.modBay b f).pending = s.pending := rfl
@[simp] theorem State.modBay_tide (b : Nat) (f : Bay → Bay) : (s.modBay b f).tide = s.tide := rfl
@[simp] theorem State.modBay_regs (b : Nat) (f : Bay → Bay) : (s.modBay b f).regs = s.regs := rfl
@[simp] theorem State.modBay_stage (b : Nat) (f : Bay → Bay) : (s.modBay b f).stage = s.stage := rfl
@[simp] theorem State.modBay_latch (b : Nat) (f : Bay → Bay) : (s.modBay b f).latch = s.latch := rfl
@[simp] theorem State.modBay_out (b : Nat) (f : Bay → Bay) : (s.modBay b f).out = s.out := rfl
@[simp] theorem State.modBay_comp (b : Nat) (f : Bay → Bay) : (s.modBay b f).comp = s.comp := rfl
@[simp] theorem State.modBay_host (b : Nat) (f : Bay → Bay) : (s.modBay b f).host = s.host := rfl
@[simp] theorem State.modBay_man (b : Nat) (f : Bay → Bay) : (s.modBay b f).man = s.man := rfl
@[simp] theorem State.modBay_free (b : Nat) (f : Bay → Bay) : (s.modBay b f).free = s.free := rfl
@[simp] theorem State.modBay_phys_power (b : Nat) (f : Bay → Bay) : (s.modBay b f).phys.power = s.phys.power := rfl
@[simp] theorem State.modBay_phys_clock (b : Nat) (f : Bay → Bay) : (s.modBay b f).phys.clock = s.phys.clock := rfl
@[simp] theorem State.modBay_phys_time (b : Nat) (f : Bay → Bay) : (s.modBay b f).phys.time = s.phys.time := rfl
@[simp] theorem State.modBay_phys_stl (b : Nat) (f : Bay → Bay) : (s.modBay b f).phys.stl = s.phys.stl := rfl

/-! ### `State.setTile` -/

@[simp] theorem State.setTile_pending (t : PT) (x : Tile) : (s.setTile t x).pending = s.pending := rfl
@[simp] theorem State.setTile_tide (t : PT) (x : Tile) : (s.setTile t x).tide = s.tide := rfl
@[simp] theorem State.setTile_regs (t : PT) (x : Tile) : (s.setTile t x).regs = s.regs := rfl
@[simp] theorem State.setTile_stage (t : PT) (x : Tile) : (s.setTile t x).stage = s.stage := rfl
@[simp] theorem State.setTile_latch (t : PT) (x : Tile) : (s.setTile t x).latch = s.latch := rfl
@[simp] theorem State.setTile_out (t : PT) (x : Tile) : (s.setTile t x).out = s.out := rfl
@[simp] theorem State.setTile_host (t : PT) (x : Tile) : (s.setTile t x).host = s.host := rfl
@[simp] theorem State.setTile_man (t : PT) (x : Tile) : (s.setTile t x).man = s.man := rfl
@[simp] theorem State.setTile_phys (t : PT) (x : Tile) : (s.setTile t x).phys = s.phys := rfl
@[simp] theorem State.setTile_free (t : PT) (x : Tile) : (s.setTile t x).free = s.free := rfl
@[simp] theorem State.setTile_comp_routers (t : PT) (x : Tile) : (s.setTile t x).comp.routers = s.comp.routers := rfl
@[simp] theorem State.setTile_comp_net (t : PT) (x : Tile) : (s.setTile t x).comp.net = s.comp.net := rfl
@[simp] theorem State.setTile_comp_fresh (t : PT) (x : Tile) : (s.setTile t x).comp.fresh = s.comp.fresh := rfl
@[simp] theorem State.setTile_comp_ring (t : PT) (x : Tile) : (s.setTile t x).comp.ring = s.comp.ring := rfl
@[simp] theorem State.setTile_comp_hosts (t : PT) (x : Tile) : (s.setTile t x).comp.hosts = s.comp.hosts := rfl
@[simp] theorem State.setTile_comp_hbm (t : PT) (x : Tile) : (s.setTile t x).comp.hbm = s.comp.hbm := rfl
@[simp] theorem State.setTile_comp_parts (t : PT) (x : Tile) : (s.setTile t x).comp.parts = s.comp.parts := rfl
@[simp] theorem State.setTile_comp_stackTab (t : PT) (x : Tile) : (s.setTile t x).comp.stackTab = s.comp.stackTab := rfl
@[simp] theorem State.setTile_comp_engines (t : PT) (x : Tile) : (s.setTile t x).comp.engines = s.comp.engines := rfl
@[simp] theorem State.setTile_comp_flumes (t : PT) (x : Tile) : (s.setTile t x).comp.flumes = s.comp.flumes := rfl
@[simp] theorem State.setTile_comp_fences (t : PT) (x : Tile) : (s.setTile t x).comp.fences = s.comp.fences := rfl
@[simp] theorem State.setTile_comp_pubs (t : PT) (x : Tile) : (s.setTile t x).comp.pubs = s.comp.pubs := rfl
@[simp] theorem State.setTile_comp_escapeVer (t : PT) (x : Tile) : (s.setTile t x).comp.escapeVer = s.comp.escapeVer := rfl

/-! ### `State.modTile` -/

@[simp] theorem State.modTile_pending (t : PT) (f : Tile → Tile) : (s.modTile t f).pending = s.pending := rfl
@[simp] theorem State.modTile_tide (t : PT) (f : Tile → Tile) : (s.modTile t f).tide = s.tide := rfl
@[simp] theorem State.modTile_regs (t : PT) (f : Tile → Tile) : (s.modTile t f).regs = s.regs := rfl
@[simp] theorem State.modTile_stage (t : PT) (f : Tile → Tile) : (s.modTile t f).stage = s.stage := rfl
@[simp] theorem State.modTile_latch (t : PT) (f : Tile → Tile) : (s.modTile t f).latch = s.latch := rfl
@[simp] theorem State.modTile_out (t : PT) (f : Tile → Tile) : (s.modTile t f).out = s.out := rfl
@[simp] theorem State.modTile_host (t : PT) (f : Tile → Tile) : (s.modTile t f).host = s.host := rfl
@[simp] theorem State.modTile_man (t : PT) (f : Tile → Tile) : (s.modTile t f).man = s.man := rfl
@[simp] theorem State.modTile_phys (t : PT) (f : Tile → Tile) : (s.modTile t f).phys = s.phys := rfl
@[simp] theorem State.modTile_free (t : PT) (f : Tile → Tile) : (s.modTile t f).free = s.free := rfl
@[simp] theorem State.modTile_comp_routers (t : PT) (f : Tile → Tile) : (s.modTile t f).comp.routers = s.comp.routers := rfl
@[simp] theorem State.modTile_comp_net (t : PT) (f : Tile → Tile) : (s.modTile t f).comp.net = s.comp.net := rfl
@[simp] theorem State.modTile_comp_fresh (t : PT) (f : Tile → Tile) : (s.modTile t f).comp.fresh = s.comp.fresh := rfl
@[simp] theorem State.modTile_comp_ring (t : PT) (f : Tile → Tile) : (s.modTile t f).comp.ring = s.comp.ring := rfl
@[simp] theorem State.modTile_comp_hosts (t : PT) (f : Tile → Tile) : (s.modTile t f).comp.hosts = s.comp.hosts := rfl
@[simp] theorem State.modTile_comp_hbm (t : PT) (f : Tile → Tile) : (s.modTile t f).comp.hbm = s.comp.hbm := rfl
@[simp] theorem State.modTile_comp_parts (t : PT) (f : Tile → Tile) : (s.modTile t f).comp.parts = s.comp.parts := rfl
@[simp] theorem State.modTile_comp_stackTab (t : PT) (f : Tile → Tile) : (s.modTile t f).comp.stackTab = s.comp.stackTab := rfl
@[simp] theorem State.modTile_comp_engines (t : PT) (f : Tile → Tile) : (s.modTile t f).comp.engines = s.comp.engines := rfl
@[simp] theorem State.modTile_comp_flumes (t : PT) (f : Tile → Tile) : (s.modTile t f).comp.flumes = s.comp.flumes := rfl
@[simp] theorem State.modTile_comp_fences (t : PT) (f : Tile → Tile) : (s.modTile t f).comp.fences = s.comp.fences := rfl
@[simp] theorem State.modTile_comp_pubs (t : PT) (f : Tile → Tile) : (s.modTile t f).comp.pubs = s.comp.pubs := rfl
@[simp] theorem State.modTile_comp_escapeVer (t : PT) (f : Tile → Tile) : (s.modTile t f).comp.escapeVer = s.comp.escapeVer := rfl

/-! ### `State.setRouter` -/

@[simp] theorem State.setRouter_pending (r : PT) (x : Router) : (s.setRouter r x).pending = s.pending := rfl
@[simp] theorem State.setRouter_tide (r : PT) (x : Router) : (s.setRouter r x).tide = s.tide := rfl
@[simp] theorem State.setRouter_regs (r : PT) (x : Router) : (s.setRouter r x).regs = s.regs := rfl
@[simp] theorem State.setRouter_stage (r : PT) (x : Router) : (s.setRouter r x).stage = s.stage := rfl
@[simp] theorem State.setRouter_latch (r : PT) (x : Router) : (s.setRouter r x).latch = s.latch := rfl
@[simp] theorem State.setRouter_out (r : PT) (x : Router) : (s.setRouter r x).out = s.out := rfl
@[simp] theorem State.setRouter_host (r : PT) (x : Router) : (s.setRouter r x).host = s.host := rfl
@[simp] theorem State.setRouter_man (r : PT) (x : Router) : (s.setRouter r x).man = s.man := rfl
@[simp] theorem State.setRouter_phys (r : PT) (x : Router) : (s.setRouter r x).phys = s.phys := rfl
@[simp] theorem State.setRouter_free (r : PT) (x : Router) : (s.setRouter r x).free = s.free := rfl
@[simp] theorem State.setRouter_comp_tiles (r : PT) (x : Router) : (s.setRouter r x).comp.tiles = s.comp.tiles := rfl
@[simp] theorem State.setRouter_comp_net (r : PT) (x : Router) : (s.setRouter r x).comp.net = s.comp.net := rfl
@[simp] theorem State.setRouter_comp_fresh (r : PT) (x : Router) : (s.setRouter r x).comp.fresh = s.comp.fresh := rfl
@[simp] theorem State.setRouter_comp_ring (r : PT) (x : Router) : (s.setRouter r x).comp.ring = s.comp.ring := rfl
@[simp] theorem State.setRouter_comp_hosts (r : PT) (x : Router) : (s.setRouter r x).comp.hosts = s.comp.hosts := rfl
@[simp] theorem State.setRouter_comp_hbm (r : PT) (x : Router) : (s.setRouter r x).comp.hbm = s.comp.hbm := rfl
@[simp] theorem State.setRouter_comp_parts (r : PT) (x : Router) : (s.setRouter r x).comp.parts = s.comp.parts := rfl
@[simp] theorem State.setRouter_comp_stackTab (r : PT) (x : Router) : (s.setRouter r x).comp.stackTab = s.comp.stackTab := rfl
@[simp] theorem State.setRouter_comp_engines (r : PT) (x : Router) : (s.setRouter r x).comp.engines = s.comp.engines := rfl
@[simp] theorem State.setRouter_comp_flumes (r : PT) (x : Router) : (s.setRouter r x).comp.flumes = s.comp.flumes := rfl
@[simp] theorem State.setRouter_comp_fences (r : PT) (x : Router) : (s.setRouter r x).comp.fences = s.comp.fences := rfl
@[simp] theorem State.setRouter_comp_pubs (r : PT) (x : Router) : (s.setRouter r x).comp.pubs = s.comp.pubs := rfl
@[simp] theorem State.setRouter_comp_escapeVer (r : PT) (x : Router) : (s.setRouter r x).comp.escapeVer = s.comp.escapeVer := rfl

/-! ### `State.modRouter` -/

@[simp] theorem State.modRouter_pending (r : PT) (f : Router → Router) : (s.modRouter r f).pending = s.pending := rfl
@[simp] theorem State.modRouter_tide (r : PT) (f : Router → Router) : (s.modRouter r f).tide = s.tide := rfl
@[simp] theorem State.modRouter_regs (r : PT) (f : Router → Router) : (s.modRouter r f).regs = s.regs := rfl
@[simp] theorem State.modRouter_stage (r : PT) (f : Router → Router) : (s.modRouter r f).stage = s.stage := rfl
@[simp] theorem State.modRouter_latch (r : PT) (f : Router → Router) : (s.modRouter r f).latch = s.latch := rfl
@[simp] theorem State.modRouter_out (r : PT) (f : Router → Router) : (s.modRouter r f).out = s.out := rfl
@[simp] theorem State.modRouter_host (r : PT) (f : Router → Router) : (s.modRouter r f).host = s.host := rfl
@[simp] theorem State.modRouter_man (r : PT) (f : Router → Router) : (s.modRouter r f).man = s.man := rfl
@[simp] theorem State.modRouter_phys (r : PT) (f : Router → Router) : (s.modRouter r f).phys = s.phys := rfl
@[simp] theorem State.modRouter_free (r : PT) (f : Router → Router) : (s.modRouter r f).free = s.free := rfl
@[simp] theorem State.modRouter_comp_tiles (r : PT) (f : Router → Router) : (s.modRouter r f).comp.tiles = s.comp.tiles := rfl
@[simp] theorem State.modRouter_comp_net (r : PT) (f : Router → Router) : (s.modRouter r f).comp.net = s.comp.net := rfl
@[simp] theorem State.modRouter_comp_fresh (r : PT) (f : Router → Router) : (s.modRouter r f).comp.fresh = s.comp.fresh := rfl
@[simp] theorem State.modRouter_comp_ring (r : PT) (f : Router → Router) : (s.modRouter r f).comp.ring = s.comp.ring := rfl
@[simp] theorem State.modRouter_comp_hosts (r : PT) (f : Router → Router) : (s.modRouter r f).comp.hosts = s.comp.hosts := rfl
@[simp] theorem State.modRouter_comp_hbm (r : PT) (f : Router → Router) : (s.modRouter r f).comp.hbm = s.comp.hbm := rfl
@[simp] theorem State.modRouter_comp_parts (r : PT) (f : Router → Router) : (s.modRouter r f).comp.parts = s.comp.parts := rfl
@[simp] theorem State.modRouter_comp_stackTab (r : PT) (f : Router → Router) : (s.modRouter r f).comp.stackTab = s.comp.stackTab := rfl
@[simp] theorem State.modRouter_comp_engines (r : PT) (f : Router → Router) : (s.modRouter r f).comp.engines = s.comp.engines := rfl
@[simp] theorem State.modRouter_comp_flumes (r : PT) (f : Router → Router) : (s.modRouter r f).comp.flumes = s.comp.flumes := rfl
@[simp] theorem State.modRouter_comp_fences (r : PT) (f : Router → Router) : (s.modRouter r f).comp.fences = s.comp.fences := rfl
@[simp] theorem State.modRouter_comp_pubs (r : PT) (f : Router → Router) : (s.modRouter r f).comp.pubs = s.comp.pubs := rfl
@[simp] theorem State.modRouter_comp_escapeVer (r : PT) (f : Router → Router) : (s.modRouter r f).comp.escapeVer = s.comp.escapeVer := rfl

/-! ### `State.setLink` -/

@[simp] theorem State.setLink_pending (r : PT) (d : Dir) (x : Link) : (s.setLink r d x).pending = s.pending := rfl
@[simp] theorem State.setLink_tide (r : PT) (d : Dir) (x : Link) : (s.setLink r d x).tide = s.tide := rfl
@[simp] theorem State.setLink_regs (r : PT) (d : Dir) (x : Link) : (s.setLink r d x).regs = s.regs := rfl
@[simp] theorem State.setLink_stage (r : PT) (d : Dir) (x : Link) : (s.setLink r d x).stage = s.stage := rfl
@[simp] theorem State.setLink_latch (r : PT) (d : Dir) (x : Link) : (s.setLink r d x).latch = s.latch := rfl
@[simp] theorem State.setLink_out (r : PT) (d : Dir) (x : Link) : (s.setLink r d x).out = s.out := rfl
@[simp] theorem State.setLink_host (r : PT) (d : Dir) (x : Link) : (s.setLink r d x).host = s.host := rfl
@[simp] theorem State.setLink_man (r : PT) (d : Dir) (x : Link) : (s.setLink r d x).man = s.man := rfl
@[simp] theorem State.setLink_phys (r : PT) (d : Dir) (x : Link) : (s.setLink r d x).phys = s.phys := rfl
@[simp] theorem State.setLink_free (r : PT) (d : Dir) (x : Link) : (s.setLink r d x).free = s.free := rfl
@[simp] theorem State.setLink_comp_tiles (r : PT) (d : Dir) (x : Link) : (s.setLink r d x).comp.tiles = s.comp.tiles := rfl
@[simp] theorem State.setLink_comp_net (r : PT) (d : Dir) (x : Link) : (s.setLink r d x).comp.net = s.comp.net := rfl
@[simp] theorem State.setLink_comp_fresh (r : PT) (d : Dir) (x : Link) : (s.setLink r d x).comp.fresh = s.comp.fresh := rfl
@[simp] theorem State.setLink_comp_ring (r : PT) (d : Dir) (x : Link) : (s.setLink r d x).comp.ring = s.comp.ring := rfl
@[simp] theorem State.setLink_comp_hosts (r : PT) (d : Dir) (x : Link) : (s.setLink r d x).comp.hosts = s.comp.hosts := rfl
@[simp] theorem State.setLink_comp_hbm (r : PT) (d : Dir) (x : Link) : (s.setLink r d x).comp.hbm = s.comp.hbm := rfl
@[simp] theorem State.setLink_comp_parts (r : PT) (d : Dir) (x : Link) : (s.setLink r d x).comp.parts = s.comp.parts := rfl
@[simp] theorem State.setLink_comp_stackTab (r : PT) (d : Dir) (x : Link) : (s.setLink r d x).comp.stackTab = s.comp.stackTab := rfl
@[simp] theorem State.setLink_comp_engines (r : PT) (d : Dir) (x : Link) : (s.setLink r d x).comp.engines = s.comp.engines := rfl
@[simp] theorem State.setLink_comp_flumes (r : PT) (d : Dir) (x : Link) : (s.setLink r d x).comp.flumes = s.comp.flumes := rfl
@[simp] theorem State.setLink_comp_fences (r : PT) (d : Dir) (x : Link) : (s.setLink r d x).comp.fences = s.comp.fences := rfl
@[simp] theorem State.setLink_comp_pubs (r : PT) (d : Dir) (x : Link) : (s.setLink r d x).comp.pubs = s.comp.pubs := rfl
@[simp] theorem State.setLink_comp_escapeVer (r : PT) (d : Dir) (x : Link) : (s.setLink r d x).comp.escapeVer = s.comp.escapeVer := rfl

/-! ### `State.setStack` -/

@[simp] theorem State.setStack_pending (k : Nat) (x : Stack) : (s.setStack k x).pending = s.pending := rfl
@[simp] theorem State.setStack_tide (k : Nat) (x : Stack) : (s.setStack k x).tide = s.tide := rfl
@[simp] theorem State.setStack_regs (k : Nat) (x : Stack) : (s.setStack k x).regs = s.regs := rfl
@[simp] theorem State.setStack_stage (k : Nat) (x : Stack) : (s.setStack k x).stage = s.stage := rfl
@[simp] theorem State.setStack_latch (k : Nat) (x : Stack) : (s.setStack k x).latch = s.latch := rfl
@[simp] theorem State.setStack_out (k : Nat) (x : Stack) : (s.setStack k x).out = s.out := rfl
@[simp] theorem State.setStack_host (k : Nat) (x : Stack) : (s.setStack k x).host = s.host := rfl
@[simp] theorem State.setStack_man (k : Nat) (x : Stack) : (s.setStack k x).man = s.man := rfl
@[simp] theorem State.setStack_phys (k : Nat) (x : Stack) : (s.setStack k x).phys = s.phys := rfl
@[simp] theorem State.setStack_free (k : Nat) (x : Stack) : (s.setStack k x).free = s.free := rfl
@[simp] theorem State.setStack_comp_tiles (k : Nat) (x : Stack) : (s.setStack k x).comp.tiles = s.comp.tiles := rfl
@[simp] theorem State.setStack_comp_routers (k : Nat) (x : Stack) : (s.setStack k x).comp.routers = s.comp.routers := rfl
@[simp] theorem State.setStack_comp_net (k : Nat) (x : Stack) : (s.setStack k x).comp.net = s.comp.net := rfl
@[simp] theorem State.setStack_comp_fresh (k : Nat) (x : Stack) : (s.setStack k x).comp.fresh = s.comp.fresh := rfl
@[simp] theorem State.setStack_comp_ring (k : Nat) (x : Stack) : (s.setStack k x).comp.ring = s.comp.ring := rfl
@[simp] theorem State.setStack_comp_hosts (k : Nat) (x : Stack) : (s.setStack k x).comp.hosts = s.comp.hosts := rfl
@[simp] theorem State.setStack_comp_hbm (k : Nat) (x : Stack) : (s.setStack k x).comp.hbm = s.comp.hbm := rfl
@[simp] theorem State.setStack_comp_parts (k : Nat) (x : Stack) : (s.setStack k x).comp.parts = s.comp.parts := rfl
@[simp] theorem State.setStack_comp_engines (k : Nat) (x : Stack) : (s.setStack k x).comp.engines = s.comp.engines := rfl
@[simp] theorem State.setStack_comp_flumes (k : Nat) (x : Stack) : (s.setStack k x).comp.flumes = s.comp.flumes := rfl
@[simp] theorem State.setStack_comp_fences (k : Nat) (x : Stack) : (s.setStack k x).comp.fences = s.comp.fences := rfl
@[simp] theorem State.setStack_comp_pubs (k : Nat) (x : Stack) : (s.setStack k x).comp.pubs = s.comp.pubs := rfl
@[simp] theorem State.setStack_comp_escapeVer (k : Nat) (x : Stack) : (s.setStack k x).comp.escapeVer = s.comp.escapeVer := rfl

/-! ### `State.modStack` -/

@[simp] theorem State.modStack_pending (k : Nat) (f : Stack → Stack) : (s.modStack k f).pending = s.pending := rfl
@[simp] theorem State.modStack_tide (k : Nat) (f : Stack → Stack) : (s.modStack k f).tide = s.tide := rfl
@[simp] theorem State.modStack_regs (k : Nat) (f : Stack → Stack) : (s.modStack k f).regs = s.regs := rfl
@[simp] theorem State.modStack_stage (k : Nat) (f : Stack → Stack) : (s.modStack k f).stage = s.stage := rfl
@[simp] theorem State.modStack_latch (k : Nat) (f : Stack → Stack) : (s.modStack k f).latch = s.latch := rfl
@[simp] theorem State.modStack_out (k : Nat) (f : Stack → Stack) : (s.modStack k f).out = s.out := rfl
@[simp] theorem State.modStack_host (k : Nat) (f : Stack → Stack) : (s.modStack k f).host = s.host := rfl
@[simp] theorem State.modStack_man (k : Nat) (f : Stack → Stack) : (s.modStack k f).man = s.man := rfl
@[simp] theorem State.modStack_phys (k : Nat) (f : Stack → Stack) : (s.modStack k f).phys = s.phys := rfl
@[simp] theorem State.modStack_free (k : Nat) (f : Stack → Stack) : (s.modStack k f).free = s.free := rfl
@[simp] theorem State.modStack_comp_tiles (k : Nat) (f : Stack → Stack) : (s.modStack k f).comp.tiles = s.comp.tiles := rfl
@[simp] theorem State.modStack_comp_routers (k : Nat) (f : Stack → Stack) : (s.modStack k f).comp.routers = s.comp.routers := rfl
@[simp] theorem State.modStack_comp_net (k : Nat) (f : Stack → Stack) : (s.modStack k f).comp.net = s.comp.net := rfl
@[simp] theorem State.modStack_comp_fresh (k : Nat) (f : Stack → Stack) : (s.modStack k f).comp.fresh = s.comp.fresh := rfl
@[simp] theorem State.modStack_comp_ring (k : Nat) (f : Stack → Stack) : (s.modStack k f).comp.ring = s.comp.ring := rfl
@[simp] theorem State.modStack_comp_hosts (k : Nat) (f : Stack → Stack) : (s.modStack k f).comp.hosts = s.comp.hosts := rfl
@[simp] theorem State.modStack_comp_hbm (k : Nat) (f : Stack → Stack) : (s.modStack k f).comp.hbm = s.comp.hbm := rfl
@[simp] theorem State.modStack_comp_parts (k : Nat) (f : Stack → Stack) : (s.modStack k f).comp.parts = s.comp.parts := rfl
@[simp] theorem State.modStack_comp_engines (k : Nat) (f : Stack → Stack) : (s.modStack k f).comp.engines = s.comp.engines := rfl
@[simp] theorem State.modStack_comp_flumes (k : Nat) (f : Stack → Stack) : (s.modStack k f).comp.flumes = s.comp.flumes := rfl
@[simp] theorem State.modStack_comp_fences (k : Nat) (f : Stack → Stack) : (s.modStack k f).comp.fences = s.comp.fences := rfl
@[simp] theorem State.modStack_comp_pubs (k : Nat) (f : Stack → Stack) : (s.modStack k f).comp.pubs = s.comp.pubs := rfl
@[simp] theorem State.modStack_comp_escapeVer (k : Nat) (f : Stack → Stack) : (s.modStack k f).comp.escapeVer = s.comp.escapeVer := rfl

/-! ### `State.setEngine` -/

@[simp] theorem State.setEngine_pending (e : Nat) (x : Engine) : (s.setEngine e x).pending = s.pending := rfl
@[simp] theorem State.setEngine_tide (e : Nat) (x : Engine) : (s.setEngine e x).tide = s.tide := rfl
@[simp] theorem State.setEngine_regs (e : Nat) (x : Engine) : (s.setEngine e x).regs = s.regs := rfl
@[simp] theorem State.setEngine_stage (e : Nat) (x : Engine) : (s.setEngine e x).stage = s.stage := rfl
@[simp] theorem State.setEngine_latch (e : Nat) (x : Engine) : (s.setEngine e x).latch = s.latch := rfl
@[simp] theorem State.setEngine_out (e : Nat) (x : Engine) : (s.setEngine e x).out = s.out := rfl
@[simp] theorem State.setEngine_host (e : Nat) (x : Engine) : (s.setEngine e x).host = s.host := rfl
@[simp] theorem State.setEngine_man (e : Nat) (x : Engine) : (s.setEngine e x).man = s.man := rfl
@[simp] theorem State.setEngine_phys (e : Nat) (x : Engine) : (s.setEngine e x).phys = s.phys := rfl
@[simp] theorem State.setEngine_free (e : Nat) (x : Engine) : (s.setEngine e x).free = s.free := rfl
@[simp] theorem State.setEngine_comp_tiles (e : Nat) (x : Engine) : (s.setEngine e x).comp.tiles = s.comp.tiles := rfl
@[simp] theorem State.setEngine_comp_routers (e : Nat) (x : Engine) : (s.setEngine e x).comp.routers = s.comp.routers := rfl
@[simp] theorem State.setEngine_comp_net (e : Nat) (x : Engine) : (s.setEngine e x).comp.net = s.comp.net := rfl
@[simp] theorem State.setEngine_comp_fresh (e : Nat) (x : Engine) : (s.setEngine e x).comp.fresh = s.comp.fresh := rfl
@[simp] theorem State.setEngine_comp_ring (e : Nat) (x : Engine) : (s.setEngine e x).comp.ring = s.comp.ring := rfl
@[simp] theorem State.setEngine_comp_hosts (e : Nat) (x : Engine) : (s.setEngine e x).comp.hosts = s.comp.hosts := rfl
@[simp] theorem State.setEngine_comp_hbm (e : Nat) (x : Engine) : (s.setEngine e x).comp.hbm = s.comp.hbm := rfl
@[simp] theorem State.setEngine_comp_parts (e : Nat) (x : Engine) : (s.setEngine e x).comp.parts = s.comp.parts := rfl
@[simp] theorem State.setEngine_comp_stackTab (e : Nat) (x : Engine) : (s.setEngine e x).comp.stackTab = s.comp.stackTab := rfl
@[simp] theorem State.setEngine_comp_flumes (e : Nat) (x : Engine) : (s.setEngine e x).comp.flumes = s.comp.flumes := rfl
@[simp] theorem State.setEngine_comp_fences (e : Nat) (x : Engine) : (s.setEngine e x).comp.fences = s.comp.fences := rfl
@[simp] theorem State.setEngine_comp_pubs (e : Nat) (x : Engine) : (s.setEngine e x).comp.pubs = s.comp.pubs := rfl
@[simp] theorem State.setEngine_comp_escapeVer (e : Nat) (x : Engine) : (s.setEngine e x).comp.escapeVer = s.comp.escapeVer := rfl

/-! ### `State.setFlume` -/

@[simp] theorem State.setFlume_pending (f : Nat) (x : List Copy) : (s.setFlume f x).pending = s.pending := rfl
@[simp] theorem State.setFlume_tide (f : Nat) (x : List Copy) : (s.setFlume f x).tide = s.tide := rfl
@[simp] theorem State.setFlume_regs (f : Nat) (x : List Copy) : (s.setFlume f x).regs = s.regs := rfl
@[simp] theorem State.setFlume_stage (f : Nat) (x : List Copy) : (s.setFlume f x).stage = s.stage := rfl
@[simp] theorem State.setFlume_latch (f : Nat) (x : List Copy) : (s.setFlume f x).latch = s.latch := rfl
@[simp] theorem State.setFlume_out (f : Nat) (x : List Copy) : (s.setFlume f x).out = s.out := rfl
@[simp] theorem State.setFlume_host (f : Nat) (x : List Copy) : (s.setFlume f x).host = s.host := rfl
@[simp] theorem State.setFlume_man (f : Nat) (x : List Copy) : (s.setFlume f x).man = s.man := rfl
@[simp] theorem State.setFlume_phys (f : Nat) (x : List Copy) : (s.setFlume f x).phys = s.phys := rfl
@[simp] theorem State.setFlume_free (f : Nat) (x : List Copy) : (s.setFlume f x).free = s.free := rfl
@[simp] theorem State.setFlume_comp_tiles (f : Nat) (x : List Copy) : (s.setFlume f x).comp.tiles = s.comp.tiles := rfl
@[simp] theorem State.setFlume_comp_routers (f : Nat) (x : List Copy) : (s.setFlume f x).comp.routers = s.comp.routers := rfl
@[simp] theorem State.setFlume_comp_net (f : Nat) (x : List Copy) : (s.setFlume f x).comp.net = s.comp.net := rfl
@[simp] theorem State.setFlume_comp_fresh (f : Nat) (x : List Copy) : (s.setFlume f x).comp.fresh = s.comp.fresh := rfl
@[simp] theorem State.setFlume_comp_ring (f : Nat) (x : List Copy) : (s.setFlume f x).comp.ring = s.comp.ring := rfl
@[simp] theorem State.setFlume_comp_hosts (f : Nat) (x : List Copy) : (s.setFlume f x).comp.hosts = s.comp.hosts := rfl
@[simp] theorem State.setFlume_comp_hbm (f : Nat) (x : List Copy) : (s.setFlume f x).comp.hbm = s.comp.hbm := rfl
@[simp] theorem State.setFlume_comp_parts (f : Nat) (x : List Copy) : (s.setFlume f x).comp.parts = s.comp.parts := rfl
@[simp] theorem State.setFlume_comp_stackTab (f : Nat) (x : List Copy) : (s.setFlume f x).comp.stackTab = s.comp.stackTab := rfl
@[simp] theorem State.setFlume_comp_engines (f : Nat) (x : List Copy) : (s.setFlume f x).comp.engines = s.comp.engines := rfl
@[simp] theorem State.setFlume_comp_fences (f : Nat) (x : List Copy) : (s.setFlume f x).comp.fences = s.comp.fences := rfl
@[simp] theorem State.setFlume_comp_pubs (f : Nat) (x : List Copy) : (s.setFlume f x).comp.pubs = s.comp.pubs := rfl
@[simp] theorem State.setFlume_comp_escapeVer (f : Nat) (x : List Copy) : (s.setFlume f x).comp.escapeVer = s.comp.escapeVer := rfl

/-! ### `State.setFunc` -/

@[simp] theorem State.setFunc_pending (f : Nat) (x : Func) : (s.setFunc f x).pending = s.pending := rfl
@[simp] theorem State.setFunc_tide (f : Nat) (x : Func) : (s.setFunc f x).tide = s.tide := rfl
@[simp] theorem State.setFunc_regs (f : Nat) (x : Func) : (s.setFunc f x).regs = s.regs := rfl
@[simp] theorem State.setFunc_stage (f : Nat) (x : Func) : (s.setFunc f x).stage = s.stage := rfl
@[simp] theorem State.setFunc_latch (f : Nat) (x : Func) : (s.setFunc f x).latch = s.latch := rfl
@[simp] theorem State.setFunc_out (f : Nat) (x : Func) : (s.setFunc f x).out = s.out := rfl
@[simp] theorem State.setFunc_comp (f : Nat) (x : Func) : (s.setFunc f x).comp = s.comp := rfl
@[simp] theorem State.setFunc_man (f : Nat) (x : Func) : (s.setFunc f x).man = s.man := rfl
@[simp] theorem State.setFunc_phys (f : Nat) (x : Func) : (s.setFunc f x).phys = s.phys := rfl
@[simp] theorem State.setFunc_free (f : Nat) (x : Func) : (s.setFunc f x).free = s.free := rfl
@[simp] theorem State.setFunc_host_pcie (f : Nat) (x : Func) : (s.setFunc f x).host.pcie = s.host.pcie := rfl
@[simp] theorem State.setFunc_host_keys (f : Nat) (x : Func) : (s.setFunc f x).host.keys = s.host.keys := rfl

/-! ### `State.modFunc` -/

@[simp] theorem State.modFunc_pending (f : Nat) (g : Func → Func) : (s.modFunc f g).pending = s.pending := rfl
@[simp] theorem State.modFunc_tide (f : Nat) (g : Func → Func) : (s.modFunc f g).tide = s.tide := rfl
@[simp] theorem State.modFunc_regs (f : Nat) (g : Func → Func) : (s.modFunc f g).regs = s.regs := rfl
@[simp] theorem State.modFunc_stage (f : Nat) (g : Func → Func) : (s.modFunc f g).stage = s.stage := rfl
@[simp] theorem State.modFunc_latch (f : Nat) (g : Func → Func) : (s.modFunc f g).latch = s.latch := rfl
@[simp] theorem State.modFunc_out (f : Nat) (g : Func → Func) : (s.modFunc f g).out = s.out := rfl
@[simp] theorem State.modFunc_comp (f : Nat) (g : Func → Func) : (s.modFunc f g).comp = s.comp := rfl
@[simp] theorem State.modFunc_man (f : Nat) (g : Func → Func) : (s.modFunc f g).man = s.man := rfl
@[simp] theorem State.modFunc_phys (f : Nat) (g : Func → Func) : (s.modFunc f g).phys = s.phys := rfl
@[simp] theorem State.modFunc_free (f : Nat) (g : Func → Func) : (s.modFunc f g).free = s.free := rfl
@[simp] theorem State.modFunc_host_pcie (f : Nat) (g : Func → Func) : (s.modFunc f g).host.pcie = s.host.pcie := rfl
@[simp] theorem State.modFunc_host_keys (f : Nat) (g : Func → Func) : (s.modFunc f g).host.keys = s.host.keys := rfl

/-! ### `State.setPair` -/

@[simp] theorem State.setPair_pending (k : Nat) (x : Pair) : (s.setPair k x).pending = s.pending := rfl
@[simp] theorem State.setPair_tide (k : Nat) (x : Pair) : (s.setPair k x).tide = s.tide := rfl
@[simp] theorem State.setPair_regs (k : Nat) (x : Pair) : (s.setPair k x).regs = s.regs := rfl
@[simp] theorem State.setPair_stage (k : Nat) (x : Pair) : (s.setPair k x).stage = s.stage := rfl
@[simp] theorem State.setPair_latch (k : Nat) (x : Pair) : (s.setPair k x).latch = s.latch := rfl
@[simp] theorem State.setPair_out (k : Nat) (x : Pair) : (s.setPair k x).out = s.out := rfl
@[simp] theorem State.setPair_comp (k : Nat) (x : Pair) : (s.setPair k x).comp = s.comp := rfl
@[simp] theorem State.setPair_host (k : Nat) (x : Pair) : (s.setPair k x).host = s.host := rfl
@[simp] theorem State.setPair_phys (k : Nat) (x : Pair) : (s.setPair k x).phys = s.phys := rfl
@[simp] theorem State.setPair_free (k : Nat) (x : Pair) : (s.setPair k x).free = s.free := rfl
@[simp] theorem State.setPair_man_cores (k : Nat) (x : Pair) : (s.setPair k x).man.cores = s.man.cores := rfl
@[simp] theorem State.setPair_man_l2 (k : Nat) (x : Pair) : (s.setPair k x).man.l2 = s.man.l2 := rfl
@[simp] theorem State.setPair_man_l2Errs (k : Nat) (x : Pair) : (s.setPair k x).man.l2Errs = s.man.l2Errs := rfl
@[simp] theorem State.setPair_man_sluice (k : Nat) (x : Pair) : (s.setPair k x).man.sluice = s.man.sluice := rfl
@[simp] theorem State.setPair_man_basins (k : Nat) (x : Pair) : (s.setPair k x).man.basins = s.man.basins := rfl
@[simp] theorem State.setPair_man_ports (k : Nat) (x : Pair) : (s.setPair k x).man.ports = s.man.ports := rfl
@[simp] theorem State.setPair_man_strLatch (k : Nat) (x : Pair) : (s.setPair k x).man.strLatch = s.man.strLatch := rfl
@[simp] theorem State.setPair_man_fltLatch (k : Nat) (x : Pair) : (s.setPair k x).man.fltLatch = s.man.fltLatch := rfl
@[simp] theorem State.setPair_man_boot (k : Nat) (x : Pair) : (s.setPair k x).man.boot = s.man.boot := rfl
@[simp] theorem State.setPair_man_fuses (k : Nat) (x : Pair) : (s.setPair k x).man.fuses = s.man.fuses := rfl
@[simp] theorem State.setPair_man_grain (k : Nat) (x : Pair) : (s.setPair k x).man.grain = s.man.grain := rfl
@[simp] theorem State.setPair_man_lms (k : Nat) (x : Pair) : (s.setPair k x).man.lms = s.man.lms := rfl
@[simp] theorem State.setPair_man_attPcie (k : Nat) (x : Pair) : (s.setPair k x).man.attPcie = s.man.attPcie := rfl
@[simp] theorem State.setPair_man_attI3c (k : Nat) (x : Pair) : (s.setPair k x).man.attI3c = s.man.attI3c := rfl
@[simp] theorem State.setPair_man_attQueue (k : Nat) (x : Pair) : (s.setPair k x).man.attQueue = s.man.attQueue := rfl
@[simp] theorem State.setPair_man_rdPcie (k : Nat) (x : Pair) : (s.setPair k x).man.rdPcie = s.man.rdPcie := rfl
@[simp] theorem State.setPair_man_rdI3c (k : Nat) (x : Pair) : (s.setPair k x).man.rdI3c = s.man.rdI3c := rfl
@[simp] theorem State.setPair_man_pins (k : Nat) (x : Pair) : (s.setPair k x).man.pins = s.man.pins := rfl

/-! ### `State.setBasin` -/

@[simp] theorem State.setBasin_pending (ep n : Nat) (x : Basin) : (s.setBasin ep n x).pending = s.pending := rfl
@[simp] theorem State.setBasin_tide (ep n : Nat) (x : Basin) : (s.setBasin ep n x).tide = s.tide := rfl
@[simp] theorem State.setBasin_regs (ep n : Nat) (x : Basin) : (s.setBasin ep n x).regs = s.regs := rfl
@[simp] theorem State.setBasin_stage (ep n : Nat) (x : Basin) : (s.setBasin ep n x).stage = s.stage := rfl
@[simp] theorem State.setBasin_latch (ep n : Nat) (x : Basin) : (s.setBasin ep n x).latch = s.latch := rfl
@[simp] theorem State.setBasin_out (ep n : Nat) (x : Basin) : (s.setBasin ep n x).out = s.out := rfl
@[simp] theorem State.setBasin_comp (ep n : Nat) (x : Basin) : (s.setBasin ep n x).comp = s.comp := rfl
@[simp] theorem State.setBasin_host (ep n : Nat) (x : Basin) : (s.setBasin ep n x).host = s.host := rfl
@[simp] theorem State.setBasin_phys (ep n : Nat) (x : Basin) : (s.setBasin ep n x).phys = s.phys := rfl
@[simp] theorem State.setBasin_free (ep n : Nat) (x : Basin) : (s.setBasin ep n x).free = s.free := rfl
@[simp] theorem State.setBasin_man_pairs (ep n : Nat) (x : Basin) : (s.setBasin ep n x).man.pairs = s.man.pairs := rfl
@[simp] theorem State.setBasin_man_cores (ep n : Nat) (x : Basin) : (s.setBasin ep n x).man.cores = s.man.cores := rfl
@[simp] theorem State.setBasin_man_l2 (ep n : Nat) (x : Basin) : (s.setBasin ep n x).man.l2 = s.man.l2 := rfl
@[simp] theorem State.setBasin_man_l2Errs (ep n : Nat) (x : Basin) : (s.setBasin ep n x).man.l2Errs = s.man.l2Errs := rfl
@[simp] theorem State.setBasin_man_sluice (ep n : Nat) (x : Basin) : (s.setBasin ep n x).man.sluice = s.man.sluice := rfl
@[simp] theorem State.setBasin_man_ports (ep n : Nat) (x : Basin) : (s.setBasin ep n x).man.ports = s.man.ports := rfl
@[simp] theorem State.setBasin_man_strLatch (ep n : Nat) (x : Basin) : (s.setBasin ep n x).man.strLatch = s.man.strLatch := rfl
@[simp] theorem State.setBasin_man_fltLatch (ep n : Nat) (x : Basin) : (s.setBasin ep n x).man.fltLatch = s.man.fltLatch := rfl
@[simp] theorem State.setBasin_man_boot (ep n : Nat) (x : Basin) : (s.setBasin ep n x).man.boot = s.man.boot := rfl
@[simp] theorem State.setBasin_man_fuses (ep n : Nat) (x : Basin) : (s.setBasin ep n x).man.fuses = s.man.fuses := rfl
@[simp] theorem State.setBasin_man_grain (ep n : Nat) (x : Basin) : (s.setBasin ep n x).man.grain = s.man.grain := rfl
@[simp] theorem State.setBasin_man_lms (ep n : Nat) (x : Basin) : (s.setBasin ep n x).man.lms = s.man.lms := rfl
@[simp] theorem State.setBasin_man_attPcie (ep n : Nat) (x : Basin) : (s.setBasin ep n x).man.attPcie = s.man.attPcie := rfl
@[simp] theorem State.setBasin_man_attI3c (ep n : Nat) (x : Basin) : (s.setBasin ep n x).man.attI3c = s.man.attI3c := rfl
@[simp] theorem State.setBasin_man_attQueue (ep n : Nat) (x : Basin) : (s.setBasin ep n x).man.attQueue = s.man.attQueue := rfl
@[simp] theorem State.setBasin_man_rdPcie (ep n : Nat) (x : Basin) : (s.setBasin ep n x).man.rdPcie = s.man.rdPcie := rfl
@[simp] theorem State.setBasin_man_rdI3c (ep n : Nat) (x : Basin) : (s.setBasin ep n x).man.rdI3c = s.man.rdI3c := rfl
@[simp] theorem State.setBasin_man_pins (ep n : Nat) (x : Basin) : (s.setBasin ep n x).man.pins = s.man.pins := rfl

/-! ### `State.resetCores` -/

@[simp] theorem State.resetCores_pending (k : Nat) (held : Bool) : (s.resetCores k held).pending = s.pending := rfl
@[simp] theorem State.resetCores_tide (k : Nat) (held : Bool) : (s.resetCores k held).tide = s.tide := rfl
@[simp] theorem State.resetCores_regs (k : Nat) (held : Bool) : (s.resetCores k held).regs = s.regs := rfl
@[simp] theorem State.resetCores_stage (k : Nat) (held : Bool) : (s.resetCores k held).stage = s.stage := rfl
@[simp] theorem State.resetCores_latch (k : Nat) (held : Bool) : (s.resetCores k held).latch = s.latch := rfl
@[simp] theorem State.resetCores_out (k : Nat) (held : Bool) : (s.resetCores k held).out = s.out := rfl
@[simp] theorem State.resetCores_comp (k : Nat) (held : Bool) : (s.resetCores k held).comp = s.comp := rfl
@[simp] theorem State.resetCores_host (k : Nat) (held : Bool) : (s.resetCores k held).host = s.host := rfl
@[simp] theorem State.resetCores_phys (k : Nat) (held : Bool) : (s.resetCores k held).phys = s.phys := rfl
@[simp] theorem State.resetCores_free (k : Nat) (held : Bool) : (s.resetCores k held).free = s.free := rfl
@[simp] theorem State.resetCores_man_pairs (k : Nat) (held : Bool) : (s.resetCores k held).man.pairs = s.man.pairs := rfl
@[simp] theorem State.resetCores_man_l2 (k : Nat) (held : Bool) : (s.resetCores k held).man.l2 = s.man.l2 := rfl
@[simp] theorem State.resetCores_man_l2Errs (k : Nat) (held : Bool) : (s.resetCores k held).man.l2Errs = s.man.l2Errs := rfl
@[simp] theorem State.resetCores_man_sluice (k : Nat) (held : Bool) : (s.resetCores k held).man.sluice = s.man.sluice := rfl
@[simp] theorem State.resetCores_man_basins (k : Nat) (held : Bool) : (s.resetCores k held).man.basins = s.man.basins := rfl
@[simp] theorem State.resetCores_man_ports (k : Nat) (held : Bool) : (s.resetCores k held).man.ports = s.man.ports := rfl
@[simp] theorem State.resetCores_man_strLatch (k : Nat) (held : Bool) : (s.resetCores k held).man.strLatch = s.man.strLatch := rfl
@[simp] theorem State.resetCores_man_fltLatch (k : Nat) (held : Bool) : (s.resetCores k held).man.fltLatch = s.man.fltLatch := rfl
@[simp] theorem State.resetCores_man_boot (k : Nat) (held : Bool) : (s.resetCores k held).man.boot = s.man.boot := rfl
@[simp] theorem State.resetCores_man_fuses (k : Nat) (held : Bool) : (s.resetCores k held).man.fuses = s.man.fuses := rfl
@[simp] theorem State.resetCores_man_grain (k : Nat) (held : Bool) : (s.resetCores k held).man.grain = s.man.grain := rfl
@[simp] theorem State.resetCores_man_lms (k : Nat) (held : Bool) : (s.resetCores k held).man.lms = s.man.lms := rfl
@[simp] theorem State.resetCores_man_attPcie (k : Nat) (held : Bool) : (s.resetCores k held).man.attPcie = s.man.attPcie := rfl
@[simp] theorem State.resetCores_man_attI3c (k : Nat) (held : Bool) : (s.resetCores k held).man.attI3c = s.man.attI3c := rfl
@[simp] theorem State.resetCores_man_attQueue (k : Nat) (held : Bool) : (s.resetCores k held).man.attQueue = s.man.attQueue := rfl
@[simp] theorem State.resetCores_man_rdPcie (k : Nat) (held : Bool) : (s.resetCores k held).man.rdPcie = s.man.rdPcie := rfl
@[simp] theorem State.resetCores_man_rdI3c (k : Nat) (held : Bool) : (s.resetCores k held).man.rdI3c = s.man.rdI3c := rfl
@[simp] theorem State.resetCores_man_pins (k : Nat) (held : Bool) : (s.resetCores k held).man.pins = s.man.pins := rfl

/-! ### `State.setStage` -/

@[simp] theorem State.setStage_pending (a : Nat) (d : Dword) : (s.setStage a d).pending = s.pending := rfl
@[simp] theorem State.setStage_tide (a : Nat) (d : Dword) : (s.setStage a d).tide = s.tide := rfl
@[simp] theorem State.setStage_regs (a : Nat) (d : Dword) : (s.setStage a d).regs = s.regs := rfl
@[simp] theorem State.setStage_latch (a : Nat) (d : Dword) : (s.setStage a d).latch = s.latch := rfl
@[simp] theorem State.setStage_out (a : Nat) (d : Dword) : (s.setStage a d).out = s.out := rfl
@[simp] theorem State.setStage_comp (a : Nat) (d : Dword) : (s.setStage a d).comp = s.comp := rfl
@[simp] theorem State.setStage_host (a : Nat) (d : Dword) : (s.setStage a d).host = s.host := rfl
@[simp] theorem State.setStage_man (a : Nat) (d : Dword) : (s.setStage a d).man = s.man := rfl
@[simp] theorem State.setStage_phys (a : Nat) (d : Dword) : (s.setStage a d).phys = s.phys := rfl
@[simp] theorem State.setStage_free (a : Nat) (d : Dword) : (s.setStage a d).free = s.free := rfl

/-! ### `State.setSport` -/

@[simp] theorem State.setSport_pending (ep : Nat) (x : SendPort) : (s.setSport ep x).pending = s.pending := rfl
@[simp] theorem State.setSport_tide (ep : Nat) (x : SendPort) : (s.setSport ep x).tide = s.tide := rfl
@[simp] theorem State.setSport_regs (ep : Nat) (x : SendPort) : (s.setSport ep x).regs = s.regs := rfl
@[simp] theorem State.setSport_stage (ep : Nat) (x : SendPort) : (s.setSport ep x).stage = s.stage := rfl
@[simp] theorem State.setSport_latch (ep : Nat) (x : SendPort) : (s.setSport ep x).latch = s.latch := rfl
@[simp] theorem State.setSport_out (ep : Nat) (x : SendPort) : (s.setSport ep x).out = s.out := rfl
@[simp] theorem State.setSport_comp (ep : Nat) (x : SendPort) : (s.setSport ep x).comp = s.comp := rfl
@[simp] theorem State.setSport_host (ep : Nat) (x : SendPort) : (s.setSport ep x).host = s.host := rfl
@[simp] theorem State.setSport_phys (ep : Nat) (x : SendPort) : (s.setSport ep x).phys = s.phys := rfl
@[simp] theorem State.setSport_free (ep : Nat) (x : SendPort) : (s.setSport ep x).free = s.free := rfl
@[simp] theorem State.setSport_man_pairs (ep : Nat) (x : SendPort) : (s.setSport ep x).man.pairs = s.man.pairs := rfl
@[simp] theorem State.setSport_man_cores (ep : Nat) (x : SendPort) : (s.setSport ep x).man.cores = s.man.cores := rfl
@[simp] theorem State.setSport_man_l2 (ep : Nat) (x : SendPort) : (s.setSport ep x).man.l2 = s.man.l2 := rfl
@[simp] theorem State.setSport_man_l2Errs (ep : Nat) (x : SendPort) : (s.setSport ep x).man.l2Errs = s.man.l2Errs := rfl
@[simp] theorem State.setSport_man_sluice (ep : Nat) (x : SendPort) : (s.setSport ep x).man.sluice = s.man.sluice := rfl
@[simp] theorem State.setSport_man_basins (ep : Nat) (x : SendPort) : (s.setSport ep x).man.basins = s.man.basins := rfl
@[simp] theorem State.setSport_man_strLatch (ep : Nat) (x : SendPort) : (s.setSport ep x).man.strLatch = s.man.strLatch := rfl
@[simp] theorem State.setSport_man_fltLatch (ep : Nat) (x : SendPort) : (s.setSport ep x).man.fltLatch = s.man.fltLatch := rfl
@[simp] theorem State.setSport_man_boot (ep : Nat) (x : SendPort) : (s.setSport ep x).man.boot = s.man.boot := rfl
@[simp] theorem State.setSport_man_fuses (ep : Nat) (x : SendPort) : (s.setSport ep x).man.fuses = s.man.fuses := rfl
@[simp] theorem State.setSport_man_grain (ep : Nat) (x : SendPort) : (s.setSport ep x).man.grain = s.man.grain := rfl
@[simp] theorem State.setSport_man_lms (ep : Nat) (x : SendPort) : (s.setSport ep x).man.lms = s.man.lms := rfl
@[simp] theorem State.setSport_man_attPcie (ep : Nat) (x : SendPort) : (s.setSport ep x).man.attPcie = s.man.attPcie := rfl
@[simp] theorem State.setSport_man_attI3c (ep : Nat) (x : SendPort) : (s.setSport ep x).man.attI3c = s.man.attI3c := rfl
@[simp] theorem State.setSport_man_attQueue (ep : Nat) (x : SendPort) : (s.setSport ep x).man.attQueue = s.man.attQueue := rfl
@[simp] theorem State.setSport_man_rdPcie (ep : Nat) (x : SendPort) : (s.setSport ep x).man.rdPcie = s.man.rdPcie := rfl
@[simp] theorem State.setSport_man_rdI3c (ep : Nat) (x : SendPort) : (s.setSport ep x).man.rdI3c = s.man.rdI3c := rfl
@[simp] theorem State.setSport_man_pins (ep : Nat) (x : SendPort) : (s.setSport ep x).man.pins = s.man.pins := rfl

/-! ### `State.setStlp` -/

@[simp] theorem State.setStlp_pending (p : Nat) (x : StlPort) : (s.setStlp p x).pending = s.pending := rfl
@[simp] theorem State.setStlp_tide (p : Nat) (x : StlPort) : (s.setStlp p x).tide = s.tide := rfl
@[simp] theorem State.setStlp_regs (p : Nat) (x : StlPort) : (s.setStlp p x).regs = s.regs := rfl
@[simp] theorem State.setStlp_stage (p : Nat) (x : StlPort) : (s.setStlp p x).stage = s.stage := rfl
@[simp] theorem State.setStlp_latch (p : Nat) (x : StlPort) : (s.setStlp p x).latch = s.latch := rfl
@[simp] theorem State.setStlp_out (p : Nat) (x : StlPort) : (s.setStlp p x).out = s.out := rfl
@[simp] theorem State.setStlp_comp (p : Nat) (x : StlPort) : (s.setStlp p x).comp = s.comp := rfl
@[simp] theorem State.setStlp_host (p : Nat) (x : StlPort) : (s.setStlp p x).host = s.host := rfl
@[simp] theorem State.setStlp_man (p : Nat) (x : StlPort) : (s.setStlp p x).man = s.man := rfl
@[simp] theorem State.setStlp_free (p : Nat) (x : StlPort) : (s.setStlp p x).free = s.free := rfl
@[simp] theorem State.setStlp_phys_bays (p : Nat) (x : StlPort) : (s.setStlp p x).phys.bays = s.phys.bays := rfl
@[simp] theorem State.setStlp_phys_power (p : Nat) (x : StlPort) : (s.setStlp p x).phys.power = s.phys.power := rfl
@[simp] theorem State.setStlp_phys_clock (p : Nat) (x : StlPort) : (s.setStlp p x).phys.clock = s.phys.clock := rfl
@[simp] theorem State.setStlp_phys_time (p : Nat) (x : StlPort) : (s.setStlp p x).phys.time = s.phys.time := rfl

/-! ### `State.modStlp` -/

@[simp] theorem State.modStlp_pending (p : Nat) (f : StlPort → StlPort) : (s.modStlp p f).pending = s.pending := rfl
@[simp] theorem State.modStlp_tide (p : Nat) (f : StlPort → StlPort) : (s.modStlp p f).tide = s.tide := rfl
@[simp] theorem State.modStlp_regs (p : Nat) (f : StlPort → StlPort) : (s.modStlp p f).regs = s.regs := rfl
@[simp] theorem State.modStlp_stage (p : Nat) (f : StlPort → StlPort) : (s.modStlp p f).stage = s.stage := rfl
@[simp] theorem State.modStlp_latch (p : Nat) (f : StlPort → StlPort) : (s.modStlp p f).latch = s.latch := rfl
@[simp] theorem State.modStlp_out (p : Nat) (f : StlPort → StlPort) : (s.modStlp p f).out = s.out := rfl
@[simp] theorem State.modStlp_comp (p : Nat) (f : StlPort → StlPort) : (s.modStlp p f).comp = s.comp := rfl
@[simp] theorem State.modStlp_host (p : Nat) (f : StlPort → StlPort) : (s.modStlp p f).host = s.host := rfl
@[simp] theorem State.modStlp_man (p : Nat) (f : StlPort → StlPort) : (s.modStlp p f).man = s.man := rfl
@[simp] theorem State.modStlp_free (p : Nat) (f : StlPort → StlPort) : (s.modStlp p f).free = s.free := rfl
@[simp] theorem State.modStlp_phys_bays (p : Nat) (f : StlPort → StlPort) : (s.modStlp p f).phys.bays = s.phys.bays := rfl
@[simp] theorem State.modStlp_phys_power (p : Nat) (f : StlPort → StlPort) : (s.modStlp p f).phys.power = s.phys.power := rfl
@[simp] theorem State.modStlp_phys_clock (p : Nat) (f : StlPort → StlPort) : (s.modStlp p f).phys.clock = s.phys.clock := rfl
@[simp] theorem State.modStlp_phys_time (p : Nat) (f : StlPort → StlPort) : (s.modStlp p f).phys.time = s.phys.time := rfl

/-! ### `State.modPower` -/

@[simp] theorem State.modPower_pending (f : Power → Power) : (s.modPower f).pending = s.pending := rfl
@[simp] theorem State.modPower_tide (f : Power → Power) : (s.modPower f).tide = s.tide := rfl
@[simp] theorem State.modPower_regs (f : Power → Power) : (s.modPower f).regs = s.regs := rfl
@[simp] theorem State.modPower_stage (f : Power → Power) : (s.modPower f).stage = s.stage := rfl
@[simp] theorem State.modPower_latch (f : Power → Power) : (s.modPower f).latch = s.latch := rfl
@[simp] theorem State.modPower_out (f : Power → Power) : (s.modPower f).out = s.out := rfl
@[simp] theorem State.modPower_comp (f : Power → Power) : (s.modPower f).comp = s.comp := rfl
@[simp] theorem State.modPower_host (f : Power → Power) : (s.modPower f).host = s.host := rfl
@[simp] theorem State.modPower_man (f : Power → Power) : (s.modPower f).man = s.man := rfl
@[simp] theorem State.modPower_free (f : Power → Power) : (s.modPower f).free = s.free := rfl
@[simp] theorem State.modPower_phys_bays (f : Power → Power) : (s.modPower f).phys.bays = s.phys.bays := rfl
@[simp] theorem State.modPower_phys_clock (f : Power → Power) : (s.modPower f).phys.clock = s.phys.clock := rfl
@[simp] theorem State.modPower_phys_time (f : Power → Power) : (s.modPower f).phys.time = s.phys.time := rfl
@[simp] theorem State.modPower_phys_stl (f : Power → Power) : (s.modPower f).phys.stl = s.phys.stl := rfl

/-! ### `State.modClock` -/

@[simp] theorem State.modClock_pending (f : Clock → Clock) : (s.modClock f).pending = s.pending := rfl
@[simp] theorem State.modClock_tide (f : Clock → Clock) : (s.modClock f).tide = s.tide := rfl
@[simp] theorem State.modClock_regs (f : Clock → Clock) : (s.modClock f).regs = s.regs := rfl
@[simp] theorem State.modClock_stage (f : Clock → Clock) : (s.modClock f).stage = s.stage := rfl
@[simp] theorem State.modClock_latch (f : Clock → Clock) : (s.modClock f).latch = s.latch := rfl
@[simp] theorem State.modClock_out (f : Clock → Clock) : (s.modClock f).out = s.out := rfl
@[simp] theorem State.modClock_comp (f : Clock → Clock) : (s.modClock f).comp = s.comp := rfl
@[simp] theorem State.modClock_host (f : Clock → Clock) : (s.modClock f).host = s.host := rfl
@[simp] theorem State.modClock_man (f : Clock → Clock) : (s.modClock f).man = s.man := rfl
@[simp] theorem State.modClock_free (f : Clock → Clock) : (s.modClock f).free = s.free := rfl
@[simp] theorem State.modClock_phys_bays (f : Clock → Clock) : (s.modClock f).phys.bays = s.phys.bays := rfl
@[simp] theorem State.modClock_phys_power (f : Clock → Clock) : (s.modClock f).phys.power = s.phys.power := rfl
@[simp] theorem State.modClock_phys_time (f : Clock → Clock) : (s.modClock f).phys.time = s.phys.time := rfl
@[simp] theorem State.modClock_phys_stl (f : Clock → Clock) : (s.modClock f).phys.stl = s.phys.stl := rfl

/-! ### `State.modTime` -/

@[simp] theorem State.modTime_pending (f : TideBase → TideBase) : (s.modTime f).pending = s.pending := rfl
@[simp] theorem State.modTime_tide (f : TideBase → TideBase) : (s.modTime f).tide = s.tide := rfl
@[simp] theorem State.modTime_regs (f : TideBase → TideBase) : (s.modTime f).regs = s.regs := rfl
@[simp] theorem State.modTime_stage (f : TideBase → TideBase) : (s.modTime f).stage = s.stage := rfl
@[simp] theorem State.modTime_latch (f : TideBase → TideBase) : (s.modTime f).latch = s.latch := rfl
@[simp] theorem State.modTime_out (f : TideBase → TideBase) : (s.modTime f).out = s.out := rfl
@[simp] theorem State.modTime_comp (f : TideBase → TideBase) : (s.modTime f).comp = s.comp := rfl
@[simp] theorem State.modTime_host (f : TideBase → TideBase) : (s.modTime f).host = s.host := rfl
@[simp] theorem State.modTime_man (f : TideBase → TideBase) : (s.modTime f).man = s.man := rfl
@[simp] theorem State.modTime_free (f : TideBase → TideBase) : (s.modTime f).free = s.free := rfl
@[simp] theorem State.modTime_phys_bays (f : TideBase → TideBase) : (s.modTime f).phys.bays = s.phys.bays := rfl
@[simp] theorem State.modTime_phys_power (f : TideBase → TideBase) : (s.modTime f).phys.power = s.phys.power := rfl
@[simp] theorem State.modTime_phys_clock (f : TideBase → TideBase) : (s.modTime f).phys.clock = s.phys.clock := rfl
@[simp] theorem State.modTime_phys_stl (f : TideBase → TideBase) : (s.modTime f).phys.stl = s.phys.stl := rfl

/-! ### `State.modBoot` -/

@[simp] theorem State.modBoot_pending (f : Boot → Boot) : (s.modBoot f).pending = s.pending := rfl
@[simp] theorem State.modBoot_tide (f : Boot → Boot) : (s.modBoot f).tide = s.tide := rfl
@[simp] theorem State.modBoot_regs (f : Boot → Boot) : (s.modBoot f).regs = s.regs := rfl
@[simp] theorem State.modBoot_stage (f : Boot → Boot) : (s.modBoot f).stage = s.stage := rfl
@[simp] theorem State.modBoot_latch (f : Boot → Boot) : (s.modBoot f).latch = s.latch := rfl
@[simp] theorem State.modBoot_out (f : Boot → Boot) : (s.modBoot f).out = s.out := rfl
@[simp] theorem State.modBoot_comp (f : Boot → Boot) : (s.modBoot f).comp = s.comp := rfl
@[simp] theorem State.modBoot_host (f : Boot → Boot) : (s.modBoot f).host = s.host := rfl
@[simp] theorem State.modBoot_phys (f : Boot → Boot) : (s.modBoot f).phys = s.phys := rfl
@[simp] theorem State.modBoot_free (f : Boot → Boot) : (s.modBoot f).free = s.free := rfl
@[simp] theorem State.modBoot_man_pairs (f : Boot → Boot) : (s.modBoot f).man.pairs = s.man.pairs := rfl
@[simp] theorem State.modBoot_man_cores (f : Boot → Boot) : (s.modBoot f).man.cores = s.man.cores := rfl
@[simp] theorem State.modBoot_man_l2 (f : Boot → Boot) : (s.modBoot f).man.l2 = s.man.l2 := rfl
@[simp] theorem State.modBoot_man_l2Errs (f : Boot → Boot) : (s.modBoot f).man.l2Errs = s.man.l2Errs := rfl
@[simp] theorem State.modBoot_man_sluice (f : Boot → Boot) : (s.modBoot f).man.sluice = s.man.sluice := rfl
@[simp] theorem State.modBoot_man_basins (f : Boot → Boot) : (s.modBoot f).man.basins = s.man.basins := rfl
@[simp] theorem State.modBoot_man_ports (f : Boot → Boot) : (s.modBoot f).man.ports = s.man.ports := rfl
@[simp] theorem State.modBoot_man_strLatch (f : Boot → Boot) : (s.modBoot f).man.strLatch = s.man.strLatch := rfl
@[simp] theorem State.modBoot_man_fltLatch (f : Boot → Boot) : (s.modBoot f).man.fltLatch = s.man.fltLatch := rfl
@[simp] theorem State.modBoot_man_fuses (f : Boot → Boot) : (s.modBoot f).man.fuses = s.man.fuses := rfl
@[simp] theorem State.modBoot_man_grain (f : Boot → Boot) : (s.modBoot f).man.grain = s.man.grain := rfl
@[simp] theorem State.modBoot_man_lms (f : Boot → Boot) : (s.modBoot f).man.lms = s.man.lms := rfl
@[simp] theorem State.modBoot_man_attPcie (f : Boot → Boot) : (s.modBoot f).man.attPcie = s.man.attPcie := rfl
@[simp] theorem State.modBoot_man_attI3c (f : Boot → Boot) : (s.modBoot f).man.attI3c = s.man.attI3c := rfl
@[simp] theorem State.modBoot_man_attQueue (f : Boot → Boot) : (s.modBoot f).man.attQueue = s.man.attQueue := rfl
@[simp] theorem State.modBoot_man_rdPcie (f : Boot → Boot) : (s.modBoot f).man.rdPcie = s.man.rdPcie := rfl
@[simp] theorem State.modBoot_man_rdI3c (f : Boot → Boot) : (s.modBoot f).man.rdI3c = s.man.rdI3c := rfl
@[simp] theorem State.modBoot_man_pins (f : Boot → Boot) : (s.modBoot f).man.pins = s.man.pins := rfl

/-! ### `State.modGrain` -/

@[simp] theorem State.modGrain_pending (f : Grain → Grain) : (s.modGrain f).pending = s.pending := rfl
@[simp] theorem State.modGrain_tide (f : Grain → Grain) : (s.modGrain f).tide = s.tide := rfl
@[simp] theorem State.modGrain_regs (f : Grain → Grain) : (s.modGrain f).regs = s.regs := rfl
@[simp] theorem State.modGrain_stage (f : Grain → Grain) : (s.modGrain f).stage = s.stage := rfl
@[simp] theorem State.modGrain_latch (f : Grain → Grain) : (s.modGrain f).latch = s.latch := rfl
@[simp] theorem State.modGrain_out (f : Grain → Grain) : (s.modGrain f).out = s.out := rfl
@[simp] theorem State.modGrain_comp (f : Grain → Grain) : (s.modGrain f).comp = s.comp := rfl
@[simp] theorem State.modGrain_host (f : Grain → Grain) : (s.modGrain f).host = s.host := rfl
@[simp] theorem State.modGrain_phys (f : Grain → Grain) : (s.modGrain f).phys = s.phys := rfl
@[simp] theorem State.modGrain_free (f : Grain → Grain) : (s.modGrain f).free = s.free := rfl
@[simp] theorem State.modGrain_man_pairs (f : Grain → Grain) : (s.modGrain f).man.pairs = s.man.pairs := rfl
@[simp] theorem State.modGrain_man_cores (f : Grain → Grain) : (s.modGrain f).man.cores = s.man.cores := rfl
@[simp] theorem State.modGrain_man_l2 (f : Grain → Grain) : (s.modGrain f).man.l2 = s.man.l2 := rfl
@[simp] theorem State.modGrain_man_l2Errs (f : Grain → Grain) : (s.modGrain f).man.l2Errs = s.man.l2Errs := rfl
@[simp] theorem State.modGrain_man_sluice (f : Grain → Grain) : (s.modGrain f).man.sluice = s.man.sluice := rfl
@[simp] theorem State.modGrain_man_basins (f : Grain → Grain) : (s.modGrain f).man.basins = s.man.basins := rfl
@[simp] theorem State.modGrain_man_ports (f : Grain → Grain) : (s.modGrain f).man.ports = s.man.ports := rfl
@[simp] theorem State.modGrain_man_strLatch (f : Grain → Grain) : (s.modGrain f).man.strLatch = s.man.strLatch := rfl
@[simp] theorem State.modGrain_man_fltLatch (f : Grain → Grain) : (s.modGrain f).man.fltLatch = s.man.fltLatch := rfl
@[simp] theorem State.modGrain_man_boot (f : Grain → Grain) : (s.modGrain f).man.boot = s.man.boot := rfl
@[simp] theorem State.modGrain_man_fuses (f : Grain → Grain) : (s.modGrain f).man.fuses = s.man.fuses := rfl
@[simp] theorem State.modGrain_man_lms (f : Grain → Grain) : (s.modGrain f).man.lms = s.man.lms := rfl
@[simp] theorem State.modGrain_man_attPcie (f : Grain → Grain) : (s.modGrain f).man.attPcie = s.man.attPcie := rfl
@[simp] theorem State.modGrain_man_attI3c (f : Grain → Grain) : (s.modGrain f).man.attI3c = s.man.attI3c := rfl
@[simp] theorem State.modGrain_man_attQueue (f : Grain → Grain) : (s.modGrain f).man.attQueue = s.man.attQueue := rfl
@[simp] theorem State.modGrain_man_rdPcie (f : Grain → Grain) : (s.modGrain f).man.rdPcie = s.man.rdPcie := rfl
@[simp] theorem State.modGrain_man_rdI3c (f : Grain → Grain) : (s.modGrain f).man.rdI3c = s.man.rdI3c := rfl
@[simp] theorem State.modGrain_man_pins (f : Grain → Grain) : (s.modGrain f).man.pins = s.man.pins := rfl

/-! ### `State.modLms` -/

@[simp] theorem State.modLms_pending (f : Lms → Lms) : (s.modLms f).pending = s.pending := rfl
@[simp] theorem State.modLms_tide (f : Lms → Lms) : (s.modLms f).tide = s.tide := rfl
@[simp] theorem State.modLms_regs (f : Lms → Lms) : (s.modLms f).regs = s.regs := rfl
@[simp] theorem State.modLms_stage (f : Lms → Lms) : (s.modLms f).stage = s.stage := rfl
@[simp] theorem State.modLms_latch (f : Lms → Lms) : (s.modLms f).latch = s.latch := rfl
@[simp] theorem State.modLms_out (f : Lms → Lms) : (s.modLms f).out = s.out := rfl
@[simp] theorem State.modLms_comp (f : Lms → Lms) : (s.modLms f).comp = s.comp := rfl
@[simp] theorem State.modLms_host (f : Lms → Lms) : (s.modLms f).host = s.host := rfl
@[simp] theorem State.modLms_phys (f : Lms → Lms) : (s.modLms f).phys = s.phys := rfl
@[simp] theorem State.modLms_free (f : Lms → Lms) : (s.modLms f).free = s.free := rfl
@[simp] theorem State.modLms_man_pairs (f : Lms → Lms) : (s.modLms f).man.pairs = s.man.pairs := rfl
@[simp] theorem State.modLms_man_cores (f : Lms → Lms) : (s.modLms f).man.cores = s.man.cores := rfl
@[simp] theorem State.modLms_man_l2 (f : Lms → Lms) : (s.modLms f).man.l2 = s.man.l2 := rfl
@[simp] theorem State.modLms_man_l2Errs (f : Lms → Lms) : (s.modLms f).man.l2Errs = s.man.l2Errs := rfl
@[simp] theorem State.modLms_man_sluice (f : Lms → Lms) : (s.modLms f).man.sluice = s.man.sluice := rfl
@[simp] theorem State.modLms_man_basins (f : Lms → Lms) : (s.modLms f).man.basins = s.man.basins := rfl
@[simp] theorem State.modLms_man_ports (f : Lms → Lms) : (s.modLms f).man.ports = s.man.ports := rfl
@[simp] theorem State.modLms_man_strLatch (f : Lms → Lms) : (s.modLms f).man.strLatch = s.man.strLatch := rfl
@[simp] theorem State.modLms_man_fltLatch (f : Lms → Lms) : (s.modLms f).man.fltLatch = s.man.fltLatch := rfl
@[simp] theorem State.modLms_man_boot (f : Lms → Lms) : (s.modLms f).man.boot = s.man.boot := rfl
@[simp] theorem State.modLms_man_fuses (f : Lms → Lms) : (s.modLms f).man.fuses = s.man.fuses := rfl
@[simp] theorem State.modLms_man_grain (f : Lms → Lms) : (s.modLms f).man.grain = s.man.grain := rfl
@[simp] theorem State.modLms_man_attPcie (f : Lms → Lms) : (s.modLms f).man.attPcie = s.man.attPcie := rfl
@[simp] theorem State.modLms_man_attI3c (f : Lms → Lms) : (s.modLms f).man.attI3c = s.man.attI3c := rfl
@[simp] theorem State.modLms_man_attQueue (f : Lms → Lms) : (s.modLms f).man.attQueue = s.man.attQueue := rfl
@[simp] theorem State.modLms_man_rdPcie (f : Lms → Lms) : (s.modLms f).man.rdPcie = s.man.rdPcie := rfl
@[simp] theorem State.modLms_man_rdI3c (f : Lms → Lms) : (s.modLms f).man.rdI3c = s.man.rdI3c := rfl
@[simp] theorem State.modLms_man_pins (f : Lms → Lms) : (s.modLms f).man.pins = s.man.pins := rfl

/-! ### `State.modPins` -/

@[simp] theorem State.modPins_pending (f : Pins → Pins) : (s.modPins f).pending = s.pending := rfl
@[simp] theorem State.modPins_tide (f : Pins → Pins) : (s.modPins f).tide = s.tide := rfl
@[simp] theorem State.modPins_regs (f : Pins → Pins) : (s.modPins f).regs = s.regs := rfl
@[simp] theorem State.modPins_stage (f : Pins → Pins) : (s.modPins f).stage = s.stage := rfl
@[simp] theorem State.modPins_latch (f : Pins → Pins) : (s.modPins f).latch = s.latch := rfl
@[simp] theorem State.modPins_out (f : Pins → Pins) : (s.modPins f).out = s.out := rfl
@[simp] theorem State.modPins_comp (f : Pins → Pins) : (s.modPins f).comp = s.comp := rfl
@[simp] theorem State.modPins_host (f : Pins → Pins) : (s.modPins f).host = s.host := rfl
@[simp] theorem State.modPins_phys (f : Pins → Pins) : (s.modPins f).phys = s.phys := rfl
@[simp] theorem State.modPins_free (f : Pins → Pins) : (s.modPins f).free = s.free := rfl
@[simp] theorem State.modPins_man_pairs (f : Pins → Pins) : (s.modPins f).man.pairs = s.man.pairs := rfl
@[simp] theorem State.modPins_man_cores (f : Pins → Pins) : (s.modPins f).man.cores = s.man.cores := rfl
@[simp] theorem State.modPins_man_l2 (f : Pins → Pins) : (s.modPins f).man.l2 = s.man.l2 := rfl
@[simp] theorem State.modPins_man_l2Errs (f : Pins → Pins) : (s.modPins f).man.l2Errs = s.man.l2Errs := rfl
@[simp] theorem State.modPins_man_sluice (f : Pins → Pins) : (s.modPins f).man.sluice = s.man.sluice := rfl
@[simp] theorem State.modPins_man_basins (f : Pins → Pins) : (s.modPins f).man.basins = s.man.basins := rfl
@[simp] theorem State.modPins_man_ports (f : Pins → Pins) : (s.modPins f).man.ports = s.man.ports := rfl
@[simp] theorem State.modPins_man_strLatch (f : Pins → Pins) : (s.modPins f).man.strLatch = s.man.strLatch := rfl
@[simp] theorem State.modPins_man_fltLatch (f : Pins → Pins) : (s.modPins f).man.fltLatch = s.man.fltLatch := rfl
@[simp] theorem State.modPins_man_boot (f : Pins → Pins) : (s.modPins f).man.boot = s.man.boot := rfl
@[simp] theorem State.modPins_man_fuses (f : Pins → Pins) : (s.modPins f).man.fuses = s.man.fuses := rfl
@[simp] theorem State.modPins_man_grain (f : Pins → Pins) : (s.modPins f).man.grain = s.man.grain := rfl
@[simp] theorem State.modPins_man_lms (f : Pins → Pins) : (s.modPins f).man.lms = s.man.lms := rfl
@[simp] theorem State.modPins_man_attPcie (f : Pins → Pins) : (s.modPins f).man.attPcie = s.man.attPcie := rfl
@[simp] theorem State.modPins_man_attI3c (f : Pins → Pins) : (s.modPins f).man.attI3c = s.man.attI3c := rfl
@[simp] theorem State.modPins_man_attQueue (f : Pins → Pins) : (s.modPins f).man.attQueue = s.man.attQueue := rfl
@[simp] theorem State.modPins_man_rdPcie (f : Pins → Pins) : (s.modPins f).man.rdPcie = s.man.rdPcie := rfl
@[simp] theorem State.modPins_man_rdI3c (f : Pins → Pins) : (s.modPins f).man.rdI3c = s.man.rdI3c := rfl

/-! ### `State.setReg` -/

@[simp] theorem State.setReg_pending (a : Nat) (v : Word) : (s.setReg a v).pending = s.pending := rfl
@[simp] theorem State.setReg_tide (a : Nat) (v : Word) : (s.setReg a v).tide = s.tide := rfl
@[simp] theorem State.setReg_stage (a : Nat) (v : Word) : (s.setReg a v).stage = s.stage := rfl
@[simp] theorem State.setReg_latch (a : Nat) (v : Word) : (s.setReg a v).latch = s.latch := rfl
@[simp] theorem State.setReg_out (a : Nat) (v : Word) : (s.setReg a v).out = s.out := rfl
@[simp] theorem State.setReg_comp (a : Nat) (v : Word) : (s.setReg a v).comp = s.comp := rfl
@[simp] theorem State.setReg_host (a : Nat) (v : Word) : (s.setReg a v).host = s.host := rfl
@[simp] theorem State.setReg_man (a : Nat) (v : Word) : (s.setReg a v).man = s.man := rfl
@[simp] theorem State.setReg_phys (a : Nat) (v : Word) : (s.setReg a v).phys = s.phys := rfl
@[simp] theorem State.setReg_free (a : Nat) (v : Word) : (s.setReg a v).free = s.free := rfl

/-! ### `State.setField` -/

@[simp] theorem State.setField_pending (a hi lo v : Nat) : (s.setField a hi lo v).pending = s.pending := rfl
@[simp] theorem State.setField_tide (a hi lo v : Nat) : (s.setField a hi lo v).tide = s.tide := rfl
@[simp] theorem State.setField_stage (a hi lo v : Nat) : (s.setField a hi lo v).stage = s.stage := rfl
@[simp] theorem State.setField_latch (a hi lo v : Nat) : (s.setField a hi lo v).latch = s.latch := rfl
@[simp] theorem State.setField_out (a hi lo v : Nat) : (s.setField a hi lo v).out = s.out := rfl
@[simp] theorem State.setField_comp (a hi lo v : Nat) : (s.setField a hi lo v).comp = s.comp := rfl
@[simp] theorem State.setField_host (a hi lo v : Nat) : (s.setField a hi lo v).host = s.host := rfl
@[simp] theorem State.setField_man (a hi lo v : Nat) : (s.setField a hi lo v).man = s.man := rfl
@[simp] theorem State.setField_phys (a hi lo v : Nat) : (s.setField a hi lo v).phys = s.phys := rfl
@[simp] theorem State.setField_free (a hi lo v : Nat) : (s.setField a hi lo v).free = s.free := rfl

/-! ### `State.bump` -/

@[simp] theorem State.bump_pending (a hi lo n : Nat) : (s.bump a hi lo n).pending = s.pending := rfl
@[simp] theorem State.bump_tide (a hi lo n : Nat) : (s.bump a hi lo n).tide = s.tide := rfl
@[simp] theorem State.bump_stage (a hi lo n : Nat) : (s.bump a hi lo n).stage = s.stage := rfl
@[simp] theorem State.bump_latch (a hi lo n : Nat) : (s.bump a hi lo n).latch = s.latch := rfl
@[simp] theorem State.bump_out (a hi lo n : Nat) : (s.bump a hi lo n).out = s.out := rfl
@[simp] theorem State.bump_comp (a hi lo n : Nat) : (s.bump a hi lo n).comp = s.comp := rfl
@[simp] theorem State.bump_host (a hi lo n : Nat) : (s.bump a hi lo n).host = s.host := rfl
@[simp] theorem State.bump_man (a hi lo n : Nat) : (s.bump a hi lo n).man = s.man := rfl
@[simp] theorem State.bump_phys (a hi lo n : Nat) : (s.bump a hi lo n).phys = s.phys := rfl
@[simp] theorem State.bump_free (a hi lo n : Nat) : (s.bump a hi lo n).free = s.free := rfl

/-! ### `State.bumpWrap` -/

@[simp] theorem State.bumpWrap_pending (a hi lo n : Nat) : (s.bumpWrap a hi lo n).pending = s.pending := rfl
@[simp] theorem State.bumpWrap_tide (a hi lo n : Nat) : (s.bumpWrap a hi lo n).tide = s.tide := rfl
@[simp] theorem State.bumpWrap_stage (a hi lo n : Nat) : (s.bumpWrap a hi lo n).stage = s.stage := rfl
@[simp] theorem State.bumpWrap_latch (a hi lo n : Nat) : (s.bumpWrap a hi lo n).latch = s.latch := rfl
@[simp] theorem State.bumpWrap_out (a hi lo n : Nat) : (s.bumpWrap a hi lo n).out = s.out := rfl
@[simp] theorem State.bumpWrap_comp (a hi lo n : Nat) : (s.bumpWrap a hi lo n).comp = s.comp := rfl
@[simp] theorem State.bumpWrap_host (a hi lo n : Nat) : (s.bumpWrap a hi lo n).host = s.host := rfl
@[simp] theorem State.bumpWrap_man (a hi lo n : Nat) : (s.bumpWrap a hi lo n).man = s.man := rfl
@[simp] theorem State.bumpWrap_phys (a hi lo n : Nat) : (s.bumpWrap a hi lo n).phys = s.phys := rfl
@[simp] theorem State.bumpWrap_free (a hi lo n : Nat) : (s.bumpWrap a hi lo n).free = s.free := rfl

/-! ### `State.passTo` -/

@[simp] theorem State.passTo_pending (t : Nat) : (s.passTo t).pending = s.pending := rfl
@[simp] theorem State.passTo_regs (t : Nat) : (s.passTo t).regs = s.regs := rfl
@[simp] theorem State.passTo_stage (t : Nat) : (s.passTo t).stage = s.stage := rfl
@[simp] theorem State.passTo_latch (t : Nat) : (s.passTo t).latch = s.latch := rfl
@[simp] theorem State.passTo_out (t : Nat) : (s.passTo t).out = s.out := rfl
@[simp] theorem State.passTo_comp (t : Nat) : (s.passTo t).comp = s.comp := rfl
@[simp] theorem State.passTo_host (t : Nat) : (s.passTo t).host = s.host := rfl
@[simp] theorem State.passTo_man (t : Nat) : (s.passTo t).man = s.man := rfl
@[simp] theorem State.passTo_phys (t : Nat) : (s.passTo t).phys = s.phys := rfl
@[simp] theorem State.passTo_free (t : Nat) : (s.passTo t).free = s.free := rfl

/-! ### `State.pass` -/

@[simp] theorem State.pass_pending (n : Nat) : (s.pass n).pending = s.pending := rfl
@[simp] theorem State.pass_regs (n : Nat) : (s.pass n).regs = s.regs := rfl
@[simp] theorem State.pass_stage (n : Nat) : (s.pass n).stage = s.stage := rfl
@[simp] theorem State.pass_latch (n : Nat) : (s.pass n).latch = s.latch := rfl
@[simp] theorem State.pass_out (n : Nat) : (s.pass n).out = s.out := rfl
@[simp] theorem State.pass_comp (n : Nat) : (s.pass n).comp = s.comp := rfl
@[simp] theorem State.pass_host (n : Nat) : (s.pass n).host = s.host := rfl
@[simp] theorem State.pass_man (n : Nat) : (s.pass n).man = s.man := rfl
@[simp] theorem State.pass_phys (n : Nat) : (s.pass n).phys = s.phys := rfl
@[simp] theorem State.pass_free (n : Nat) : (s.pass n).free = s.free := rfl

/-! ### `State.emitOut` -/

@[simp] theorem State.emitOut_pending (o : Output) : (s.emitOut o).pending = s.pending := rfl
@[simp] theorem State.emitOut_tide (o : Output) : (s.emitOut o).tide = s.tide := rfl
@[simp] theorem State.emitOut_regs (o : Output) : (s.emitOut o).regs = s.regs := rfl
@[simp] theorem State.emitOut_stage (o : Output) : (s.emitOut o).stage = s.stage := rfl
@[simp] theorem State.emitOut_latch (o : Output) : (s.emitOut o).latch = s.latch := rfl
@[simp] theorem State.emitOut_comp (o : Output) : (s.emitOut o).comp = s.comp := rfl
@[simp] theorem State.emitOut_host (o : Output) : (s.emitOut o).host = s.host := rfl
@[simp] theorem State.emitOut_man (o : Output) : (s.emitOut o).man = s.man := rfl
@[simp] theorem State.emitOut_phys (o : Output) : (s.emitOut o).phys = s.phys := rfl
@[simp] theorem State.emitOut_free (o : Output) : (s.emitOut o).free = s.free := rfl

/-! ### `State.sendRecord` -/

@[simp] theorem State.sendRecord_pending (type srck srci : Nat) (body : List Byte) : (s.sendRecord type srck srci body).pending = s.pending := rfl
@[simp] theorem State.sendRecord_tide (type srck srci : Nat) (body : List Byte) : (s.sendRecord type srck srci body).tide = s.tide := rfl
@[simp] theorem State.sendRecord_regs (type srck srci : Nat) (body : List Byte) : (s.sendRecord type srck srci body).regs = s.regs := rfl
@[simp] theorem State.sendRecord_stage (type srck srci : Nat) (body : List Byte) : (s.sendRecord type srck srci body).stage = s.stage := rfl
@[simp] theorem State.sendRecord_latch (type srck srci : Nat) (body : List Byte) : (s.sendRecord type srck srci body).latch = s.latch := rfl
@[simp] theorem State.sendRecord_out (type srck srci : Nat) (body : List Byte) : (s.sendRecord type srck srci body).out = s.out := rfl
@[simp] theorem State.sendRecord_comp (type srck srci : Nat) (body : List Byte) : (s.sendRecord type srck srci body).comp = s.comp := rfl
@[simp] theorem State.sendRecord_host (type srck srci : Nat) (body : List Byte) : (s.sendRecord type srck srci body).host = s.host := rfl
@[simp] theorem State.sendRecord_phys (type srck srci : Nat) (body : List Byte) : (s.sendRecord type srck srci body).phys = s.phys := rfl
@[simp] theorem State.sendRecord_free (type srck srci : Nat) (body : List Byte) : (s.sendRecord type srck srci body).free = s.free := rfl
@[simp] theorem State.sendRecord_man_pairs (type srck srci : Nat) (body : List Byte) : (s.sendRecord type srck srci body).man.pairs = s.man.pairs := rfl
@[simp] theorem State.sendRecord_man_cores (type srck srci : Nat) (body : List Byte) : (s.sendRecord type srck srci body).man.cores = s.man.cores := rfl
@[simp] theorem State.sendRecord_man_l2 (type srck srci : Nat) (body : List Byte) : (s.sendRecord type srck srci body).man.l2 = s.man.l2 := rfl
@[simp] theorem State.sendRecord_man_l2Errs (type srck srci : Nat) (body : List Byte) : (s.sendRecord type srck srci body).man.l2Errs = s.man.l2Errs := rfl
@[simp] theorem State.sendRecord_man_sluice (type srck srci : Nat) (body : List Byte) : (s.sendRecord type srck srci body).man.sluice = s.man.sluice := rfl
@[simp] theorem State.sendRecord_man_basins (type srck srci : Nat) (body : List Byte) : (s.sendRecord type srck srci body).man.basins = s.man.basins := rfl
@[simp] theorem State.sendRecord_man_ports (type srck srci : Nat) (body : List Byte) : (s.sendRecord type srck srci body).man.ports = s.man.ports := rfl
@[simp] theorem State.sendRecord_man_strLatch (type srck srci : Nat) (body : List Byte) : (s.sendRecord type srck srci body).man.strLatch = s.man.strLatch := rfl
@[simp] theorem State.sendRecord_man_fltLatch (type srck srci : Nat) (body : List Byte) : (s.sendRecord type srck srci body).man.fltLatch = s.man.fltLatch := rfl
@[simp] theorem State.sendRecord_man_boot (type srck srci : Nat) (body : List Byte) : (s.sendRecord type srck srci body).man.boot = s.man.boot := rfl
@[simp] theorem State.sendRecord_man_fuses (type srck srci : Nat) (body : List Byte) : (s.sendRecord type srck srci body).man.fuses = s.man.fuses := rfl
@[simp] theorem State.sendRecord_man_lms (type srck srci : Nat) (body : List Byte) : (s.sendRecord type srck srci body).man.lms = s.man.lms := rfl
@[simp] theorem State.sendRecord_man_attPcie (type srck srci : Nat) (body : List Byte) : (s.sendRecord type srck srci body).man.attPcie = s.man.attPcie := rfl
@[simp] theorem State.sendRecord_man_attI3c (type srck srci : Nat) (body : List Byte) : (s.sendRecord type srck srci body).man.attI3c = s.man.attI3c := rfl
@[simp] theorem State.sendRecord_man_attQueue (type srck srci : Nat) (body : List Byte) : (s.sendRecord type srck srci body).man.attQueue = s.man.attQueue := rfl
@[simp] theorem State.sendRecord_man_rdPcie (type srck srci : Nat) (body : List Byte) : (s.sendRecord type srck srci body).man.rdPcie = s.man.rdPcie := rfl
@[simp] theorem State.sendRecord_man_rdI3c (type srck srci : Nat) (body : List Byte) : (s.sendRecord type srck srci body).man.rdI3c = s.man.rdI3c := rfl
@[simp] theorem State.sendRecord_man_pins (type srck srci : Nat) (body : List Byte) : (s.sendRecord type srck srci body).man.pins = s.man.pins := rfl


/-! ### The changed field -/

@[simp] theorem State.modComp_comp (f : Compute → Compute) : (s.modComp f).comp = f s.comp := rfl
@[simp] theorem State.modHost_host (f : HostSide → HostSide) : (s.modHost f).host = f s.host := rfl
@[simp] theorem State.modMan_man (f : Manage → Manage) : (s.modMan f).man = f s.man := rfl
@[simp] theorem State.modPhys_phys (f : Physical → Physical) : (s.modPhys f).phys = f s.phys := rfl
@[simp] theorem State.modPower_power (f : Power → Power) : (s.modPower f).phys.power = f s.phys.power := rfl
@[simp] theorem State.modClock_clock (f : Clock → Clock) : (s.modClock f).phys.clock = f s.phys.clock := rfl
@[simp] theorem State.modTime_time (f : TideBase → TideBase) : (s.modTime f).phys.time = f s.phys.time := rfl
@[simp] theorem State.modBoot_boot (f : Boot → Boot) : (s.modBoot f).man.boot = f s.man.boot := rfl
@[simp] theorem State.modGrain_grain (f : Grain → Grain) : (s.modGrain f).man.grain = f s.man.grain := rfl
@[simp] theorem State.modLms_lms (f : Lms → Lms) : (s.modLms f).man.lms = f s.man.lms := rfl
@[simp] theorem State.modPins_pins (f : Pins → Pins) : (s.modPins f).man.pins = f s.man.pins := rfl
@[simp] theorem State.emitOut_out (o : Output) : (s.emitOut o).out = o :: s.out := rfl
@[simp] theorem State.draw_fst : s.draw.1 = Config.freeNat s.free := rfl
@[simp] theorem State.draw_free : s.draw.2.free = s.free + 1 := rfl

@[simp] theorem State.draw_pending : s.draw.2.pending = s.pending := rfl
@[simp] theorem State.draw_tide : s.draw.2.tide = s.tide := rfl
@[simp] theorem State.draw_regs : s.draw.2.regs = s.regs := rfl
@[simp] theorem State.draw_stage : s.draw.2.stage = s.stage := rfl
@[simp] theorem State.draw_latch : s.draw.2.latch = s.latch := rfl
@[simp] theorem State.draw_out : s.draw.2.out = s.out := rfl
@[simp] theorem State.draw_comp : s.draw.2.comp = s.comp := rfl
@[simp] theorem State.draw_host : s.draw.2.host = s.host := rfl
@[simp] theorem State.draw_man : s.draw.2.man = s.man := rfl
@[simp] theorem State.draw_phys : s.draw.2.phys = s.phys := rfl

/-! ### Accessors depend on one field -/

theorem State.reg_congr {s t : State} (h : t.regs = s.regs) (a : Nat) : t.reg a = s.reg a := by simp [State.reg, h]
theorem State.field_congr {s t : State} (h : t.regs = s.regs) (a hi lo : Nat) : t.field a hi lo = s.field a hi lo := by
  simp [State.field, State.reg, h]
theorem State.part_congr {s t : State} (h : t.comp.parts = s.comp.parts) (p : Nat) : t.part p = s.part p := by
  simp [State.part, h]
theorem State.bay_congr {s t : State} (h : t.phys.bays = s.phys.bays) (b : Nat) : t.bay b = s.bay b := by
  simp [State.bay, h]

/-! ### `State.reg` after another update -/

@[simp] theorem State.reg_setPart_ (p : Nat) (x : Part) (c : Nat) : (s.setPart p x).reg c = s.reg c := rfl
@[simp] theorem State.reg_modPart_ (p : Nat) (f : Part → Part) (c : Nat) : (s.modPart p f).reg c = s.reg c := rfl
@[simp] theorem State.reg_modOwn_ (p : Nat) (f : PartOwn → PartOwn) (c : Nat) : (s.modOwn p f).reg c = s.reg c := rfl
@[simp] theorem State.reg_modRun_ (p : Nat) (f : PartRun → PartRun) (c : Nat) : (s.modRun p f).reg c = s.reg c := rfl
@[simp] theorem State.reg_modPln_ (p : Nat) (f : PartPlane → PartPlane) (c : Nat) : (s.modPln p f).reg c = s.reg c := rfl
@[simp] theorem State.reg_modCommit_ (p : Nat) (f : Commit → Commit) (c : Nat) : (s.modCommit p f).reg c = s.reg c := rfl
@[simp] theorem State.reg_modHeal_ (p : Nat) (f : Heal → Heal) (c : Nat) : (s.modHeal p f).reg c = s.reg c := rfl
@[simp] theorem State.reg_setBay_ (b : Nat) (x : Bay) (c : Nat) : (s.setBay b x).reg c = s.reg c := rfl
@[simp] theorem State.reg_modBay_ (b : Nat) (f : Bay → Bay) (c : Nat) : (s.modBay b f).reg c = s.reg c := rfl
@[simp] theorem State.reg_setTile_ (t : PT) (x : Tile) (c : Nat) : (s.setTile t x).reg c = s.reg c := rfl
@[simp] theorem State.reg_modTile_ (t : PT) (f : Tile → Tile) (c : Nat) : (s.modTile t f).reg c = s.reg c := rfl
@[simp] theorem State.reg_setRouter_ (r : PT) (x : Router) (c : Nat) : (s.setRouter r x).reg c = s.reg c := rfl
@[simp] theorem State.reg_modRouter_ (r : PT) (f : Router → Router) (c : Nat) : (s.modRouter r f).reg c = s.reg c := rfl
@[simp] theorem State.reg_setLink_ (r : PT) (d : Dir) (x : Link) (c : Nat) : (s.setLink r d x).reg c = s.reg c := rfl
@[simp] theorem State.reg_setStack_ (k : Nat) (x : Stack) (c : Nat) : (s.setStack k x).reg c = s.reg c := rfl
@[simp] theorem State.reg_modStack_ (k : Nat) (f : Stack → Stack) (c : Nat) : (s.modStack k f).reg c = s.reg c := rfl
@[simp] theorem State.reg_setEngine_ (e : Nat) (x : Engine) (c : Nat) : (s.setEngine e x).reg c = s.reg c := rfl
@[simp] theorem State.reg_setFlume_ (f : Nat) (x : List Copy) (c : Nat) : (s.setFlume f x).reg c = s.reg c := rfl
@[simp] theorem State.reg_setFunc_ (f : Nat) (x : Func) (c : Nat) : (s.setFunc f x).reg c = s.reg c := rfl
@[simp] theorem State.reg_modFunc_ (f : Nat) (g : Func → Func) (c : Nat) : (s.modFunc f g).reg c = s.reg c := rfl
@[simp] theorem State.reg_setPair_ (k : Nat) (x : Pair) (c : Nat) : (s.setPair k x).reg c = s.reg c := rfl
@[simp] theorem State.reg_setBasin_ (ep n : Nat) (x : Basin) (c : Nat) : (s.setBasin ep n x).reg c = s.reg c := rfl
@[simp] theorem State.reg_resetCores_ (k : Nat) (held : Bool) (c : Nat) : (s.resetCores k held).reg c = s.reg c := rfl
@[simp] theorem State.reg_setStage_ (a : Nat) (d : Dword) (c : Nat) : (s.setStage a d).reg c = s.reg c := rfl
@[simp] theorem State.reg_setSport_ (ep : Nat) (x : SendPort) (c : Nat) : (s.setSport ep x).reg c = s.reg c := rfl
@[simp] theorem State.reg_setStlp_ (p : Nat) (x : StlPort) (c : Nat) : (s.setStlp p x).reg c = s.reg c := rfl
@[simp] theorem State.reg_modStlp_ (p : Nat) (f : StlPort → StlPort) (c : Nat) : (s.modStlp p f).reg c = s.reg c := rfl
@[simp] theorem State.reg_modPower_ (f : Power → Power) (c : Nat) : (s.modPower f).reg c = s.reg c := rfl
@[simp] theorem State.reg_modClock_ (f : Clock → Clock) (c : Nat) : (s.modClock f).reg c = s.reg c := rfl
@[simp] theorem State.reg_modTime_ (f : TideBase → TideBase) (c : Nat) : (s.modTime f).reg c = s.reg c := rfl
@[simp] theorem State.reg_modBoot_ (f : Boot → Boot) (c : Nat) : (s.modBoot f).reg c = s.reg c := rfl
@[simp] theorem State.reg_modGrain_ (f : Grain → Grain) (c : Nat) : (s.modGrain f).reg c = s.reg c := rfl
@[simp] theorem State.reg_modLms_ (f : Lms → Lms) (c : Nat) : (s.modLms f).reg c = s.reg c := rfl
@[simp] theorem State.reg_modPins_ (f : Pins → Pins) (c : Nat) : (s.modPins f).reg c = s.reg c := rfl
@[simp] theorem State.reg_passTo_ (t : Nat) (c : Nat) : (s.passTo t).reg c = s.reg c := rfl
@[simp] theorem State.reg_pass_ (n : Nat) (c : Nat) : (s.pass n).reg c = s.reg c := rfl
@[simp] theorem State.reg_emitOut_ (o : Output) (c : Nat) : (s.emitOut o).reg c = s.reg c := rfl
@[simp] theorem State.reg_sendRecord_ (type srck srci : Nat) (body : List Byte) (c : Nat) : (s.sendRecord type srck srci body).reg c = s.reg c := rfl
@[simp] theorem State.reg_draw_ (c : Nat) : s.draw.2.reg c = s.reg c := rfl

/-! ### `State.field` after another update -/

@[simp] theorem State.field_setPart_ (p : Nat) (x : Part) (c h l : Nat) : (s.setPart p x).field c h l = s.field c h l := rfl
@[simp] theorem State.field_modPart_ (p : Nat) (f : Part → Part) (c h l : Nat) : (s.modPart p f).field c h l = s.field c h l := rfl
@[simp] theorem State.field_modOwn_ (p : Nat) (f : PartOwn → PartOwn) (c h l : Nat) : (s.modOwn p f).field c h l = s.field c h l := rfl
@[simp] theorem State.field_modRun_ (p : Nat) (f : PartRun → PartRun) (c h l : Nat) : (s.modRun p f).field c h l = s.field c h l := rfl
@[simp] theorem State.field_modPln_ (p : Nat) (f : PartPlane → PartPlane) (c h l : Nat) : (s.modPln p f).field c h l = s.field c h l := rfl
@[simp] theorem State.field_modCommit_ (p : Nat) (f : Commit → Commit) (c h l : Nat) : (s.modCommit p f).field c h l = s.field c h l := rfl
@[simp] theorem State.field_modHeal_ (p : Nat) (f : Heal → Heal) (c h l : Nat) : (s.modHeal p f).field c h l = s.field c h l := rfl
@[simp] theorem State.field_setBay_ (b : Nat) (x : Bay) (c h l : Nat) : (s.setBay b x).field c h l = s.field c h l := rfl
@[simp] theorem State.field_modBay_ (b : Nat) (f : Bay → Bay) (c h l : Nat) : (s.modBay b f).field c h l = s.field c h l := rfl
@[simp] theorem State.field_setTile_ (t : PT) (x : Tile) (c h l : Nat) : (s.setTile t x).field c h l = s.field c h l := rfl
@[simp] theorem State.field_modTile_ (t : PT) (f : Tile → Tile) (c h l : Nat) : (s.modTile t f).field c h l = s.field c h l := rfl
@[simp] theorem State.field_setRouter_ (r : PT) (x : Router) (c h l : Nat) : (s.setRouter r x).field c h l = s.field c h l := rfl
@[simp] theorem State.field_modRouter_ (r : PT) (f : Router → Router) (c h l : Nat) : (s.modRouter r f).field c h l = s.field c h l := rfl
@[simp] theorem State.field_setLink_ (r : PT) (d : Dir) (x : Link) (c h l : Nat) : (s.setLink r d x).field c h l = s.field c h l := rfl
@[simp] theorem State.field_setStack_ (k : Nat) (x : Stack) (c h l : Nat) : (s.setStack k x).field c h l = s.field c h l := rfl
@[simp] theorem State.field_modStack_ (k : Nat) (f : Stack → Stack) (c h l : Nat) : (s.modStack k f).field c h l = s.field c h l := rfl
@[simp] theorem State.field_setEngine_ (e : Nat) (x : Engine) (c h l : Nat) : (s.setEngine e x).field c h l = s.field c h l := rfl
@[simp] theorem State.field_setFlume_ (f : Nat) (x : List Copy) (c h l : Nat) : (s.setFlume f x).field c h l = s.field c h l := rfl
@[simp] theorem State.field_setFunc_ (f : Nat) (x : Func) (c h l : Nat) : (s.setFunc f x).field c h l = s.field c h l := rfl
@[simp] theorem State.field_modFunc_ (f : Nat) (g : Func → Func) (c h l : Nat) : (s.modFunc f g).field c h l = s.field c h l := rfl
@[simp] theorem State.field_setPair_ (k : Nat) (x : Pair) (c h l : Nat) : (s.setPair k x).field c h l = s.field c h l := rfl
@[simp] theorem State.field_setBasin_ (ep n : Nat) (x : Basin) (c h l : Nat) : (s.setBasin ep n x).field c h l = s.field c h l := rfl
@[simp] theorem State.field_resetCores_ (k : Nat) (held : Bool) (c h l : Nat) : (s.resetCores k held).field c h l = s.field c h l := rfl
@[simp] theorem State.field_setStage_ (a : Nat) (d : Dword) (c h l : Nat) : (s.setStage a d).field c h l = s.field c h l := rfl
@[simp] theorem State.field_setSport_ (ep : Nat) (x : SendPort) (c h l : Nat) : (s.setSport ep x).field c h l = s.field c h l := rfl
@[simp] theorem State.field_setStlp_ (p : Nat) (x : StlPort) (c h l : Nat) : (s.setStlp p x).field c h l = s.field c h l := rfl
@[simp] theorem State.field_modStlp_ (p : Nat) (f : StlPort → StlPort) (c h l : Nat) : (s.modStlp p f).field c h l = s.field c h l := rfl
@[simp] theorem State.field_modPower_ (f : Power → Power) (c h l : Nat) : (s.modPower f).field c h l = s.field c h l := rfl
@[simp] theorem State.field_modClock_ (f : Clock → Clock) (c h l : Nat) : (s.modClock f).field c h l = s.field c h l := rfl
@[simp] theorem State.field_modTime_ (f : TideBase → TideBase) (c h l : Nat) : (s.modTime f).field c h l = s.field c h l := rfl
@[simp] theorem State.field_modBoot_ (f : Boot → Boot) (c h l : Nat) : (s.modBoot f).field c h l = s.field c h l := rfl
@[simp] theorem State.field_modGrain_ (f : Grain → Grain) (c h l : Nat) : (s.modGrain f).field c h l = s.field c h l := rfl
@[simp] theorem State.field_modLms_ (f : Lms → Lms) (c h l : Nat) : (s.modLms f).field c h l = s.field c h l := rfl
@[simp] theorem State.field_modPins_ (f : Pins → Pins) (c h l : Nat) : (s.modPins f).field c h l = s.field c h l := rfl
@[simp] theorem State.field_passTo_ (t : Nat) (c h l : Nat) : (s.passTo t).field c h l = s.field c h l := rfl
@[simp] theorem State.field_pass_ (n : Nat) (c h l : Nat) : (s.pass n).field c h l = s.field c h l := rfl
@[simp] theorem State.field_emitOut_ (o : Output) (c h l : Nat) : (s.emitOut o).field c h l = s.field c h l := rfl
@[simp] theorem State.field_sendRecord_ (type srck srci : Nat) (body : List Byte) (c h l : Nat) : (s.sendRecord type srck srci body).field c h l = s.field c h l := rfl
@[simp] theorem State.field_draw_ (c h l : Nat) : s.draw.2.field c h l = s.field c h l := rfl

/-! ### `State.part` after another update -/

@[simp] theorem State.part_setBay_ (b : Nat) (x : Bay) (c : Nat) : (s.setBay b x).part c = s.part c := rfl
@[simp] theorem State.part_modBay_ (b : Nat) (f : Bay → Bay) (c : Nat) : (s.modBay b f).part c = s.part c := rfl
@[simp] theorem State.part_setTile_ (t : PT) (x : Tile) (c : Nat) : (s.setTile t x).part c = s.part c := rfl
@[simp] theorem State.part_modTile_ (t : PT) (f : Tile → Tile) (c : Nat) : (s.modTile t f).part c = s.part c := rfl
@[simp] theorem State.part_setRouter_ (r : PT) (x : Router) (c : Nat) : (s.setRouter r x).part c = s.part c := rfl
@[simp] theorem State.part_modRouter_ (r : PT) (f : Router → Router) (c : Nat) : (s.modRouter r f).part c = s.part c := rfl
@[simp] theorem State.part_setLink_ (r : PT) (d : Dir) (x : Link) (c : Nat) : (s.setLink r d x).part c = s.part c := rfl
@[simp] theorem State.part_setStack_ (k : Nat) (x : Stack) (c : Nat) : (s.setStack k x).part c = s.part c := rfl
@[simp] theorem State.part_modStack_ (k : Nat) (f : Stack → Stack) (c : Nat) : (s.modStack k f).part c = s.part c := rfl
@[simp] theorem State.part_setEngine_ (e : Nat) (x : Engine) (c : Nat) : (s.setEngine e x).part c = s.part c := rfl
@[simp] theorem State.part_setFlume_ (f : Nat) (x : List Copy) (c : Nat) : (s.setFlume f x).part c = s.part c := rfl
@[simp] theorem State.part_setFunc_ (f : Nat) (x : Func) (c : Nat) : (s.setFunc f x).part c = s.part c := rfl
@[simp] theorem State.part_modFunc_ (f : Nat) (g : Func → Func) (c : Nat) : (s.modFunc f g).part c = s.part c := rfl
@[simp] theorem State.part_setPair_ (k : Nat) (x : Pair) (c : Nat) : (s.setPair k x).part c = s.part c := rfl
@[simp] theorem State.part_setBasin_ (ep n : Nat) (x : Basin) (c : Nat) : (s.setBasin ep n x).part c = s.part c := rfl
@[simp] theorem State.part_resetCores_ (k : Nat) (held : Bool) (c : Nat) : (s.resetCores k held).part c = s.part c := rfl
@[simp] theorem State.part_setStage_ (a : Nat) (d : Dword) (c : Nat) : (s.setStage a d).part c = s.part c := rfl
@[simp] theorem State.part_setSport_ (ep : Nat) (x : SendPort) (c : Nat) : (s.setSport ep x).part c = s.part c := rfl
@[simp] theorem State.part_setStlp_ (p : Nat) (x : StlPort) (c : Nat) : (s.setStlp p x).part c = s.part c := rfl
@[simp] theorem State.part_modStlp_ (p : Nat) (f : StlPort → StlPort) (c : Nat) : (s.modStlp p f).part c = s.part c := rfl
@[simp] theorem State.part_modPower_ (f : Power → Power) (c : Nat) : (s.modPower f).part c = s.part c := rfl
@[simp] theorem State.part_modClock_ (f : Clock → Clock) (c : Nat) : (s.modClock f).part c = s.part c := rfl
@[simp] theorem State.part_modTime_ (f : TideBase → TideBase) (c : Nat) : (s.modTime f).part c = s.part c := rfl
@[simp] theorem State.part_modBoot_ (f : Boot → Boot) (c : Nat) : (s.modBoot f).part c = s.part c := rfl
@[simp] theorem State.part_modGrain_ (f : Grain → Grain) (c : Nat) : (s.modGrain f).part c = s.part c := rfl
@[simp] theorem State.part_modLms_ (f : Lms → Lms) (c : Nat) : (s.modLms f).part c = s.part c := rfl
@[simp] theorem State.part_modPins_ (f : Pins → Pins) (c : Nat) : (s.modPins f).part c = s.part c := rfl
@[simp] theorem State.part_setReg_ (a : Nat) (v : Word) (c : Nat) : (s.setReg a v).part c = s.part c := rfl
@[simp] theorem State.part_setField_ (a hi lo v : Nat) (c : Nat) : (s.setField a hi lo v).part c = s.part c := rfl
@[simp] theorem State.part_bump_ (a hi lo n : Nat) (c : Nat) : (s.bump a hi lo n).part c = s.part c := rfl
@[simp] theorem State.part_bumpWrap_ (a hi lo n : Nat) (c : Nat) : (s.bumpWrap a hi lo n).part c = s.part c := rfl
@[simp] theorem State.part_passTo_ (t : Nat) (c : Nat) : (s.passTo t).part c = s.part c := rfl
@[simp] theorem State.part_pass_ (n : Nat) (c : Nat) : (s.pass n).part c = s.part c := rfl
@[simp] theorem State.part_emitOut_ (o : Output) (c : Nat) : (s.emitOut o).part c = s.part c := rfl
@[simp] theorem State.part_sendRecord_ (type srck srci : Nat) (body : List Byte) (c : Nat) : (s.sendRecord type srck srci body).part c = s.part c := rfl
@[simp] theorem State.part_draw_ (c : Nat) : s.draw.2.part c = s.part c := rfl

/-! ### `State.bay` after another update -/

@[simp] theorem State.bay_setPart_ (p : Nat) (x : Part) (c : Nat) : (s.setPart p x).bay c = s.bay c := rfl
@[simp] theorem State.bay_modPart_ (p : Nat) (f : Part → Part) (c : Nat) : (s.modPart p f).bay c = s.bay c := rfl
@[simp] theorem State.bay_modOwn_ (p : Nat) (f : PartOwn → PartOwn) (c : Nat) : (s.modOwn p f).bay c = s.bay c := rfl
@[simp] theorem State.bay_modRun_ (p : Nat) (f : PartRun → PartRun) (c : Nat) : (s.modRun p f).bay c = s.bay c := rfl
@[simp] theorem State.bay_modPln_ (p : Nat) (f : PartPlane → PartPlane) (c : Nat) : (s.modPln p f).bay c = s.bay c := rfl
@[simp] theorem State.bay_modCommit_ (p : Nat) (f : Commit → Commit) (c : Nat) : (s.modCommit p f).bay c = s.bay c := rfl
@[simp] theorem State.bay_modHeal_ (p : Nat) (f : Heal → Heal) (c : Nat) : (s.modHeal p f).bay c = s.bay c := rfl
@[simp] theorem State.bay_setTile_ (t : PT) (x : Tile) (c : Nat) : (s.setTile t x).bay c = s.bay c := rfl
@[simp] theorem State.bay_modTile_ (t : PT) (f : Tile → Tile) (c : Nat) : (s.modTile t f).bay c = s.bay c := rfl
@[simp] theorem State.bay_setRouter_ (r : PT) (x : Router) (c : Nat) : (s.setRouter r x).bay c = s.bay c := rfl
@[simp] theorem State.bay_modRouter_ (r : PT) (f : Router → Router) (c : Nat) : (s.modRouter r f).bay c = s.bay c := rfl
@[simp] theorem State.bay_setLink_ (r : PT) (d : Dir) (x : Link) (c : Nat) : (s.setLink r d x).bay c = s.bay c := rfl
@[simp] theorem State.bay_setStack_ (k : Nat) (x : Stack) (c : Nat) : (s.setStack k x).bay c = s.bay c := rfl
@[simp] theorem State.bay_modStack_ (k : Nat) (f : Stack → Stack) (c : Nat) : (s.modStack k f).bay c = s.bay c := rfl
@[simp] theorem State.bay_setEngine_ (e : Nat) (x : Engine) (c : Nat) : (s.setEngine e x).bay c = s.bay c := rfl
@[simp] theorem State.bay_setFlume_ (f : Nat) (x : List Copy) (c : Nat) : (s.setFlume f x).bay c = s.bay c := rfl
@[simp] theorem State.bay_setFunc_ (f : Nat) (x : Func) (c : Nat) : (s.setFunc f x).bay c = s.bay c := rfl
@[simp] theorem State.bay_modFunc_ (f : Nat) (g : Func → Func) (c : Nat) : (s.modFunc f g).bay c = s.bay c := rfl
@[simp] theorem State.bay_setPair_ (k : Nat) (x : Pair) (c : Nat) : (s.setPair k x).bay c = s.bay c := rfl
@[simp] theorem State.bay_setBasin_ (ep n : Nat) (x : Basin) (c : Nat) : (s.setBasin ep n x).bay c = s.bay c := rfl
@[simp] theorem State.bay_resetCores_ (k : Nat) (held : Bool) (c : Nat) : (s.resetCores k held).bay c = s.bay c := rfl
@[simp] theorem State.bay_setStage_ (a : Nat) (d : Dword) (c : Nat) : (s.setStage a d).bay c = s.bay c := rfl
@[simp] theorem State.bay_setSport_ (ep : Nat) (x : SendPort) (c : Nat) : (s.setSport ep x).bay c = s.bay c := rfl
@[simp] theorem State.bay_setStlp_ (p : Nat) (x : StlPort) (c : Nat) : (s.setStlp p x).bay c = s.bay c := rfl
@[simp] theorem State.bay_modStlp_ (p : Nat) (f : StlPort → StlPort) (c : Nat) : (s.modStlp p f).bay c = s.bay c := rfl
@[simp] theorem State.bay_modPower_ (f : Power → Power) (c : Nat) : (s.modPower f).bay c = s.bay c := rfl
@[simp] theorem State.bay_modClock_ (f : Clock → Clock) (c : Nat) : (s.modClock f).bay c = s.bay c := rfl
@[simp] theorem State.bay_modTime_ (f : TideBase → TideBase) (c : Nat) : (s.modTime f).bay c = s.bay c := rfl
@[simp] theorem State.bay_modBoot_ (f : Boot → Boot) (c : Nat) : (s.modBoot f).bay c = s.bay c := rfl
@[simp] theorem State.bay_modGrain_ (f : Grain → Grain) (c : Nat) : (s.modGrain f).bay c = s.bay c := rfl
@[simp] theorem State.bay_modLms_ (f : Lms → Lms) (c : Nat) : (s.modLms f).bay c = s.bay c := rfl
@[simp] theorem State.bay_modPins_ (f : Pins → Pins) (c : Nat) : (s.modPins f).bay c = s.bay c := rfl
@[simp] theorem State.bay_setReg_ (a : Nat) (v : Word) (c : Nat) : (s.setReg a v).bay c = s.bay c := rfl
@[simp] theorem State.bay_setField_ (a hi lo v : Nat) (c : Nat) : (s.setField a hi lo v).bay c = s.bay c := rfl
@[simp] theorem State.bay_bump_ (a hi lo n : Nat) (c : Nat) : (s.bump a hi lo n).bay c = s.bay c := rfl
@[simp] theorem State.bay_bumpWrap_ (a hi lo n : Nat) (c : Nat) : (s.bumpWrap a hi lo n).bay c = s.bay c := rfl
@[simp] theorem State.bay_passTo_ (t : Nat) (c : Nat) : (s.passTo t).bay c = s.bay c := rfl
@[simp] theorem State.bay_pass_ (n : Nat) (c : Nat) : (s.pass n).bay c = s.bay c := rfl
@[simp] theorem State.bay_emitOut_ (o : Output) (c : Nat) : (s.emitOut o).bay c = s.bay c := rfl
@[simp] theorem State.bay_sendRecord_ (type srck srci : Nat) (body : List Byte) (c : Nat) : (s.sendRecord type srck srci body).bay c = s.bay c := rfl
@[simp] theorem State.bay_draw_ (c : Nat) : s.draw.2.bay c = s.bay c := rfl

/-! ### `State.stack` after another update -/

@[simp] theorem State.stack_setPart_ (p : Nat) (x : Part) (c : Nat) : (s.setPart p x).stack c = s.stack c := rfl
@[simp] theorem State.stack_modPart_ (p : Nat) (f : Part → Part) (c : Nat) : (s.modPart p f).stack c = s.stack c := rfl
@[simp] theorem State.stack_modOwn_ (p : Nat) (f : PartOwn → PartOwn) (c : Nat) : (s.modOwn p f).stack c = s.stack c := rfl
@[simp] theorem State.stack_modRun_ (p : Nat) (f : PartRun → PartRun) (c : Nat) : (s.modRun p f).stack c = s.stack c := rfl
@[simp] theorem State.stack_modPln_ (p : Nat) (f : PartPlane → PartPlane) (c : Nat) : (s.modPln p f).stack c = s.stack c := rfl
@[simp] theorem State.stack_modCommit_ (p : Nat) (f : Commit → Commit) (c : Nat) : (s.modCommit p f).stack c = s.stack c := rfl
@[simp] theorem State.stack_modHeal_ (p : Nat) (f : Heal → Heal) (c : Nat) : (s.modHeal p f).stack c = s.stack c := rfl
@[simp] theorem State.stack_setBay_ (b : Nat) (x : Bay) (c : Nat) : (s.setBay b x).stack c = s.stack c := rfl
@[simp] theorem State.stack_modBay_ (b : Nat) (f : Bay → Bay) (c : Nat) : (s.modBay b f).stack c = s.stack c := rfl
@[simp] theorem State.stack_setTile_ (t : PT) (x : Tile) (c : Nat) : (s.setTile t x).stack c = s.stack c := rfl
@[simp] theorem State.stack_modTile_ (t : PT) (f : Tile → Tile) (c : Nat) : (s.modTile t f).stack c = s.stack c := rfl
@[simp] theorem State.stack_setRouter_ (r : PT) (x : Router) (c : Nat) : (s.setRouter r x).stack c = s.stack c := rfl
@[simp] theorem State.stack_modRouter_ (r : PT) (f : Router → Router) (c : Nat) : (s.modRouter r f).stack c = s.stack c := rfl
@[simp] theorem State.stack_setLink_ (r : PT) (d : Dir) (x : Link) (c : Nat) : (s.setLink r d x).stack c = s.stack c := rfl
@[simp] theorem State.stack_setEngine_ (e : Nat) (x : Engine) (c : Nat) : (s.setEngine e x).stack c = s.stack c := rfl
@[simp] theorem State.stack_setFlume_ (f : Nat) (x : List Copy) (c : Nat) : (s.setFlume f x).stack c = s.stack c := rfl
@[simp] theorem State.stack_setFunc_ (f : Nat) (x : Func) (c : Nat) : (s.setFunc f x).stack c = s.stack c := rfl
@[simp] theorem State.stack_modFunc_ (f : Nat) (g : Func → Func) (c : Nat) : (s.modFunc f g).stack c = s.stack c := rfl
@[simp] theorem State.stack_setPair_ (k : Nat) (x : Pair) (c : Nat) : (s.setPair k x).stack c = s.stack c := rfl
@[simp] theorem State.stack_setBasin_ (ep n : Nat) (x : Basin) (c : Nat) : (s.setBasin ep n x).stack c = s.stack c := rfl
@[simp] theorem State.stack_resetCores_ (k : Nat) (held : Bool) (c : Nat) : (s.resetCores k held).stack c = s.stack c := rfl
@[simp] theorem State.stack_setStage_ (a : Nat) (d : Dword) (c : Nat) : (s.setStage a d).stack c = s.stack c := rfl
@[simp] theorem State.stack_setSport_ (ep : Nat) (x : SendPort) (c : Nat) : (s.setSport ep x).stack c = s.stack c := rfl
@[simp] theorem State.stack_setStlp_ (p : Nat) (x : StlPort) (c : Nat) : (s.setStlp p x).stack c = s.stack c := rfl
@[simp] theorem State.stack_modStlp_ (p : Nat) (f : StlPort → StlPort) (c : Nat) : (s.modStlp p f).stack c = s.stack c := rfl
@[simp] theorem State.stack_modPower_ (f : Power → Power) (c : Nat) : (s.modPower f).stack c = s.stack c := rfl
@[simp] theorem State.stack_modClock_ (f : Clock → Clock) (c : Nat) : (s.modClock f).stack c = s.stack c := rfl
@[simp] theorem State.stack_modTime_ (f : TideBase → TideBase) (c : Nat) : (s.modTime f).stack c = s.stack c := rfl
@[simp] theorem State.stack_modBoot_ (f : Boot → Boot) (c : Nat) : (s.modBoot f).stack c = s.stack c := rfl
@[simp] theorem State.stack_modGrain_ (f : Grain → Grain) (c : Nat) : (s.modGrain f).stack c = s.stack c := rfl
@[simp] theorem State.stack_modLms_ (f : Lms → Lms) (c : Nat) : (s.modLms f).stack c = s.stack c := rfl
@[simp] theorem State.stack_modPins_ (f : Pins → Pins) (c : Nat) : (s.modPins f).stack c = s.stack c := rfl
@[simp] theorem State.stack_setReg_ (a : Nat) (v : Word) (c : Nat) : (s.setReg a v).stack c = s.stack c := rfl
@[simp] theorem State.stack_setField_ (a hi lo v : Nat) (c : Nat) : (s.setField a hi lo v).stack c = s.stack c := rfl
@[simp] theorem State.stack_bump_ (a hi lo n : Nat) (c : Nat) : (s.bump a hi lo n).stack c = s.stack c := rfl
@[simp] theorem State.stack_bumpWrap_ (a hi lo n : Nat) (c : Nat) : (s.bumpWrap a hi lo n).stack c = s.stack c := rfl
@[simp] theorem State.stack_passTo_ (t : Nat) (c : Nat) : (s.passTo t).stack c = s.stack c := rfl
@[simp] theorem State.stack_pass_ (n : Nat) (c : Nat) : (s.pass n).stack c = s.stack c := rfl
@[simp] theorem State.stack_emitOut_ (o : Output) (c : Nat) : (s.emitOut o).stack c = s.stack c := rfl
@[simp] theorem State.stack_sendRecord_ (type srck srci : Nat) (body : List Byte) (c : Nat) : (s.sendRecord type srck srci body).stack c = s.stack c := rfl
@[simp] theorem State.stack_draw_ (c : Nat) : s.draw.2.stack c = s.stack c := rfl

/-! ### `State.engine` after another update -/

@[simp] theorem State.engine_setPart_ (p : Nat) (x : Part) (c : Nat) : (s.setPart p x).engine c = s.engine c := rfl
@[simp] theorem State.engine_modPart_ (p : Nat) (f : Part → Part) (c : Nat) : (s.modPart p f).engine c = s.engine c := rfl
@[simp] theorem State.engine_modOwn_ (p : Nat) (f : PartOwn → PartOwn) (c : Nat) : (s.modOwn p f).engine c = s.engine c := rfl
@[simp] theorem State.engine_modRun_ (p : Nat) (f : PartRun → PartRun) (c : Nat) : (s.modRun p f).engine c = s.engine c := rfl
@[simp] theorem State.engine_modPln_ (p : Nat) (f : PartPlane → PartPlane) (c : Nat) : (s.modPln p f).engine c = s.engine c := rfl
@[simp] theorem State.engine_modCommit_ (p : Nat) (f : Commit → Commit) (c : Nat) : (s.modCommit p f).engine c = s.engine c := rfl
@[simp] theorem State.engine_modHeal_ (p : Nat) (f : Heal → Heal) (c : Nat) : (s.modHeal p f).engine c = s.engine c := rfl
@[simp] theorem State.engine_setBay_ (b : Nat) (x : Bay) (c : Nat) : (s.setBay b x).engine c = s.engine c := rfl
@[simp] theorem State.engine_modBay_ (b : Nat) (f : Bay → Bay) (c : Nat) : (s.modBay b f).engine c = s.engine c := rfl
@[simp] theorem State.engine_setTile_ (t : PT) (x : Tile) (c : Nat) : (s.setTile t x).engine c = s.engine c := rfl
@[simp] theorem State.engine_modTile_ (t : PT) (f : Tile → Tile) (c : Nat) : (s.modTile t f).engine c = s.engine c := rfl
@[simp] theorem State.engine_setRouter_ (r : PT) (x : Router) (c : Nat) : (s.setRouter r x).engine c = s.engine c := rfl
@[simp] theorem State.engine_modRouter_ (r : PT) (f : Router → Router) (c : Nat) : (s.modRouter r f).engine c = s.engine c := rfl
@[simp] theorem State.engine_setLink_ (r : PT) (d : Dir) (x : Link) (c : Nat) : (s.setLink r d x).engine c = s.engine c := rfl
@[simp] theorem State.engine_setStack_ (k : Nat) (x : Stack) (c : Nat) : (s.setStack k x).engine c = s.engine c := rfl
@[simp] theorem State.engine_modStack_ (k : Nat) (f : Stack → Stack) (c : Nat) : (s.modStack k f).engine c = s.engine c := rfl
@[simp] theorem State.engine_setFlume_ (f : Nat) (x : List Copy) (c : Nat) : (s.setFlume f x).engine c = s.engine c := rfl
@[simp] theorem State.engine_setFunc_ (f : Nat) (x : Func) (c : Nat) : (s.setFunc f x).engine c = s.engine c := rfl
@[simp] theorem State.engine_modFunc_ (f : Nat) (g : Func → Func) (c : Nat) : (s.modFunc f g).engine c = s.engine c := rfl
@[simp] theorem State.engine_setPair_ (k : Nat) (x : Pair) (c : Nat) : (s.setPair k x).engine c = s.engine c := rfl
@[simp] theorem State.engine_setBasin_ (ep n : Nat) (x : Basin) (c : Nat) : (s.setBasin ep n x).engine c = s.engine c := rfl
@[simp] theorem State.engine_resetCores_ (k : Nat) (held : Bool) (c : Nat) : (s.resetCores k held).engine c = s.engine c := rfl
@[simp] theorem State.engine_setStage_ (a : Nat) (d : Dword) (c : Nat) : (s.setStage a d).engine c = s.engine c := rfl
@[simp] theorem State.engine_setSport_ (ep : Nat) (x : SendPort) (c : Nat) : (s.setSport ep x).engine c = s.engine c := rfl
@[simp] theorem State.engine_setStlp_ (p : Nat) (x : StlPort) (c : Nat) : (s.setStlp p x).engine c = s.engine c := rfl
@[simp] theorem State.engine_modStlp_ (p : Nat) (f : StlPort → StlPort) (c : Nat) : (s.modStlp p f).engine c = s.engine c := rfl
@[simp] theorem State.engine_modPower_ (f : Power → Power) (c : Nat) : (s.modPower f).engine c = s.engine c := rfl
@[simp] theorem State.engine_modClock_ (f : Clock → Clock) (c : Nat) : (s.modClock f).engine c = s.engine c := rfl
@[simp] theorem State.engine_modTime_ (f : TideBase → TideBase) (c : Nat) : (s.modTime f).engine c = s.engine c := rfl
@[simp] theorem State.engine_modBoot_ (f : Boot → Boot) (c : Nat) : (s.modBoot f).engine c = s.engine c := rfl
@[simp] theorem State.engine_modGrain_ (f : Grain → Grain) (c : Nat) : (s.modGrain f).engine c = s.engine c := rfl
@[simp] theorem State.engine_modLms_ (f : Lms → Lms) (c : Nat) : (s.modLms f).engine c = s.engine c := rfl
@[simp] theorem State.engine_modPins_ (f : Pins → Pins) (c : Nat) : (s.modPins f).engine c = s.engine c := rfl
@[simp] theorem State.engine_setReg_ (a : Nat) (v : Word) (c : Nat) : (s.setReg a v).engine c = s.engine c := rfl
@[simp] theorem State.engine_setField_ (a hi lo v : Nat) (c : Nat) : (s.setField a hi lo v).engine c = s.engine c := rfl
@[simp] theorem State.engine_bump_ (a hi lo n : Nat) (c : Nat) : (s.bump a hi lo n).engine c = s.engine c := rfl
@[simp] theorem State.engine_bumpWrap_ (a hi lo n : Nat) (c : Nat) : (s.bumpWrap a hi lo n).engine c = s.engine c := rfl
@[simp] theorem State.engine_passTo_ (t : Nat) (c : Nat) : (s.passTo t).engine c = s.engine c := rfl
@[simp] theorem State.engine_pass_ (n : Nat) (c : Nat) : (s.pass n).engine c = s.engine c := rfl
@[simp] theorem State.engine_emitOut_ (o : Output) (c : Nat) : (s.emitOut o).engine c = s.engine c := rfl
@[simp] theorem State.engine_sendRecord_ (type srck srci : Nat) (body : List Byte) (c : Nat) : (s.sendRecord type srck srci body).engine c = s.engine c := rfl
@[simp] theorem State.engine_draw_ (c : Nat) : s.draw.2.engine c = s.engine c := rfl

/-! ### `State.flume` after another update -/

@[simp] theorem State.flume_setPart_ (p : Nat) (x : Part) (c : Nat) : (s.setPart p x).flume c = s.flume c := rfl
@[simp] theorem State.flume_modPart_ (p : Nat) (f : Part → Part) (c : Nat) : (s.modPart p f).flume c = s.flume c := rfl
@[simp] theorem State.flume_modOwn_ (p : Nat) (f : PartOwn → PartOwn) (c : Nat) : (s.modOwn p f).flume c = s.flume c := rfl
@[simp] theorem State.flume_modRun_ (p : Nat) (f : PartRun → PartRun) (c : Nat) : (s.modRun p f).flume c = s.flume c := rfl
@[simp] theorem State.flume_modPln_ (p : Nat) (f : PartPlane → PartPlane) (c : Nat) : (s.modPln p f).flume c = s.flume c := rfl
@[simp] theorem State.flume_modCommit_ (p : Nat) (f : Commit → Commit) (c : Nat) : (s.modCommit p f).flume c = s.flume c := rfl
@[simp] theorem State.flume_modHeal_ (p : Nat) (f : Heal → Heal) (c : Nat) : (s.modHeal p f).flume c = s.flume c := rfl
@[simp] theorem State.flume_setBay_ (b : Nat) (x : Bay) (c : Nat) : (s.setBay b x).flume c = s.flume c := rfl
@[simp] theorem State.flume_modBay_ (b : Nat) (f : Bay → Bay) (c : Nat) : (s.modBay b f).flume c = s.flume c := rfl
@[simp] theorem State.flume_setTile_ (t : PT) (x : Tile) (c : Nat) : (s.setTile t x).flume c = s.flume c := rfl
@[simp] theorem State.flume_modTile_ (t : PT) (f : Tile → Tile) (c : Nat) : (s.modTile t f).flume c = s.flume c := rfl
@[simp] theorem State.flume_setRouter_ (r : PT) (x : Router) (c : Nat) : (s.setRouter r x).flume c = s.flume c := rfl
@[simp] theorem State.flume_modRouter_ (r : PT) (f : Router → Router) (c : Nat) : (s.modRouter r f).flume c = s.flume c := rfl
@[simp] theorem State.flume_setLink_ (r : PT) (d : Dir) (x : Link) (c : Nat) : (s.setLink r d x).flume c = s.flume c := rfl
@[simp] theorem State.flume_setStack_ (k : Nat) (x : Stack) (c : Nat) : (s.setStack k x).flume c = s.flume c := rfl
@[simp] theorem State.flume_modStack_ (k : Nat) (f : Stack → Stack) (c : Nat) : (s.modStack k f).flume c = s.flume c := rfl
@[simp] theorem State.flume_setEngine_ (e : Nat) (x : Engine) (c : Nat) : (s.setEngine e x).flume c = s.flume c := rfl
@[simp] theorem State.flume_setFunc_ (f : Nat) (x : Func) (c : Nat) : (s.setFunc f x).flume c = s.flume c := rfl
@[simp] theorem State.flume_modFunc_ (f : Nat) (g : Func → Func) (c : Nat) : (s.modFunc f g).flume c = s.flume c := rfl
@[simp] theorem State.flume_setPair_ (k : Nat) (x : Pair) (c : Nat) : (s.setPair k x).flume c = s.flume c := rfl
@[simp] theorem State.flume_setBasin_ (ep n : Nat) (x : Basin) (c : Nat) : (s.setBasin ep n x).flume c = s.flume c := rfl
@[simp] theorem State.flume_resetCores_ (k : Nat) (held : Bool) (c : Nat) : (s.resetCores k held).flume c = s.flume c := rfl
@[simp] theorem State.flume_setStage_ (a : Nat) (d : Dword) (c : Nat) : (s.setStage a d).flume c = s.flume c := rfl
@[simp] theorem State.flume_setSport_ (ep : Nat) (x : SendPort) (c : Nat) : (s.setSport ep x).flume c = s.flume c := rfl
@[simp] theorem State.flume_setStlp_ (p : Nat) (x : StlPort) (c : Nat) : (s.setStlp p x).flume c = s.flume c := rfl
@[simp] theorem State.flume_modStlp_ (p : Nat) (f : StlPort → StlPort) (c : Nat) : (s.modStlp p f).flume c = s.flume c := rfl
@[simp] theorem State.flume_modPower_ (f : Power → Power) (c : Nat) : (s.modPower f).flume c = s.flume c := rfl
@[simp] theorem State.flume_modClock_ (f : Clock → Clock) (c : Nat) : (s.modClock f).flume c = s.flume c := rfl
@[simp] theorem State.flume_modTime_ (f : TideBase → TideBase) (c : Nat) : (s.modTime f).flume c = s.flume c := rfl
@[simp] theorem State.flume_modBoot_ (f : Boot → Boot) (c : Nat) : (s.modBoot f).flume c = s.flume c := rfl
@[simp] theorem State.flume_modGrain_ (f : Grain → Grain) (c : Nat) : (s.modGrain f).flume c = s.flume c := rfl
@[simp] theorem State.flume_modLms_ (f : Lms → Lms) (c : Nat) : (s.modLms f).flume c = s.flume c := rfl
@[simp] theorem State.flume_modPins_ (f : Pins → Pins) (c : Nat) : (s.modPins f).flume c = s.flume c := rfl
@[simp] theorem State.flume_setReg_ (a : Nat) (v : Word) (c : Nat) : (s.setReg a v).flume c = s.flume c := rfl
@[simp] theorem State.flume_setField_ (a hi lo v : Nat) (c : Nat) : (s.setField a hi lo v).flume c = s.flume c := rfl
@[simp] theorem State.flume_bump_ (a hi lo n : Nat) (c : Nat) : (s.bump a hi lo n).flume c = s.flume c := rfl
@[simp] theorem State.flume_bumpWrap_ (a hi lo n : Nat) (c : Nat) : (s.bumpWrap a hi lo n).flume c = s.flume c := rfl
@[simp] theorem State.flume_passTo_ (t : Nat) (c : Nat) : (s.passTo t).flume c = s.flume c := rfl
@[simp] theorem State.flume_pass_ (n : Nat) (c : Nat) : (s.pass n).flume c = s.flume c := rfl
@[simp] theorem State.flume_emitOut_ (o : Output) (c : Nat) : (s.emitOut o).flume c = s.flume c := rfl
@[simp] theorem State.flume_sendRecord_ (type srck srci : Nat) (body : List Byte) (c : Nat) : (s.sendRecord type srck srci body).flume c = s.flume c := rfl
@[simp] theorem State.flume_draw_ (c : Nat) : s.draw.2.flume c = s.flume c := rfl

/-! ### `State.func` after another update -/

@[simp] theorem State.func_setPart_ (p : Nat) (x : Part) (c : Nat) : (s.setPart p x).func c = s.func c := rfl
@[simp] theorem State.func_modPart_ (p : Nat) (f : Part → Part) (c : Nat) : (s.modPart p f).func c = s.func c := rfl
@[simp] theorem State.func_modOwn_ (p : Nat) (f : PartOwn → PartOwn) (c : Nat) : (s.modOwn p f).func c = s.func c := rfl
@[simp] theorem State.func_modRun_ (p : Nat) (f : PartRun → PartRun) (c : Nat) : (s.modRun p f).func c = s.func c := rfl
@[simp] theorem State.func_modPln_ (p : Nat) (f : PartPlane → PartPlane) (c : Nat) : (s.modPln p f).func c = s.func c := rfl
@[simp] theorem State.func_modCommit_ (p : Nat) (f : Commit → Commit) (c : Nat) : (s.modCommit p f).func c = s.func c := rfl
@[simp] theorem State.func_modHeal_ (p : Nat) (f : Heal → Heal) (c : Nat) : (s.modHeal p f).func c = s.func c := rfl
@[simp] theorem State.func_setBay_ (b : Nat) (x : Bay) (c : Nat) : (s.setBay b x).func c = s.func c := rfl
@[simp] theorem State.func_modBay_ (b : Nat) (f : Bay → Bay) (c : Nat) : (s.modBay b f).func c = s.func c := rfl
@[simp] theorem State.func_setTile_ (t : PT) (x : Tile) (c : Nat) : (s.setTile t x).func c = s.func c := rfl
@[simp] theorem State.func_modTile_ (t : PT) (f : Tile → Tile) (c : Nat) : (s.modTile t f).func c = s.func c := rfl
@[simp] theorem State.func_setRouter_ (r : PT) (x : Router) (c : Nat) : (s.setRouter r x).func c = s.func c := rfl
@[simp] theorem State.func_modRouter_ (r : PT) (f : Router → Router) (c : Nat) : (s.modRouter r f).func c = s.func c := rfl
@[simp] theorem State.func_setLink_ (r : PT) (d : Dir) (x : Link) (c : Nat) : (s.setLink r d x).func c = s.func c := rfl
@[simp] theorem State.func_setStack_ (k : Nat) (x : Stack) (c : Nat) : (s.setStack k x).func c = s.func c := rfl
@[simp] theorem State.func_modStack_ (k : Nat) (f : Stack → Stack) (c : Nat) : (s.modStack k f).func c = s.func c := rfl
@[simp] theorem State.func_setEngine_ (e : Nat) (x : Engine) (c : Nat) : (s.setEngine e x).func c = s.func c := rfl
@[simp] theorem State.func_setFlume_ (f : Nat) (x : List Copy) (c : Nat) : (s.setFlume f x).func c = s.func c := rfl
@[simp] theorem State.func_setPair_ (k : Nat) (x : Pair) (c : Nat) : (s.setPair k x).func c = s.func c := rfl
@[simp] theorem State.func_setBasin_ (ep n : Nat) (x : Basin) (c : Nat) : (s.setBasin ep n x).func c = s.func c := rfl
@[simp] theorem State.func_resetCores_ (k : Nat) (held : Bool) (c : Nat) : (s.resetCores k held).func c = s.func c := rfl
@[simp] theorem State.func_setStage_ (a : Nat) (d : Dword) (c : Nat) : (s.setStage a d).func c = s.func c := rfl
@[simp] theorem State.func_setSport_ (ep : Nat) (x : SendPort) (c : Nat) : (s.setSport ep x).func c = s.func c := rfl
@[simp] theorem State.func_setStlp_ (p : Nat) (x : StlPort) (c : Nat) : (s.setStlp p x).func c = s.func c := rfl
@[simp] theorem State.func_modStlp_ (p : Nat) (f : StlPort → StlPort) (c : Nat) : (s.modStlp p f).func c = s.func c := rfl
@[simp] theorem State.func_modPower_ (f : Power → Power) (c : Nat) : (s.modPower f).func c = s.func c := rfl
@[simp] theorem State.func_modClock_ (f : Clock → Clock) (c : Nat) : (s.modClock f).func c = s.func c := rfl
@[simp] theorem State.func_modTime_ (f : TideBase → TideBase) (c : Nat) : (s.modTime f).func c = s.func c := rfl
@[simp] theorem State.func_modBoot_ (f : Boot → Boot) (c : Nat) : (s.modBoot f).func c = s.func c := rfl
@[simp] theorem State.func_modGrain_ (f : Grain → Grain) (c : Nat) : (s.modGrain f).func c = s.func c := rfl
@[simp] theorem State.func_modLms_ (f : Lms → Lms) (c : Nat) : (s.modLms f).func c = s.func c := rfl
@[simp] theorem State.func_modPins_ (f : Pins → Pins) (c : Nat) : (s.modPins f).func c = s.func c := rfl
@[simp] theorem State.func_setReg_ (a : Nat) (v : Word) (c : Nat) : (s.setReg a v).func c = s.func c := rfl
@[simp] theorem State.func_setField_ (a hi lo v : Nat) (c : Nat) : (s.setField a hi lo v).func c = s.func c := rfl
@[simp] theorem State.func_bump_ (a hi lo n : Nat) (c : Nat) : (s.bump a hi lo n).func c = s.func c := rfl
@[simp] theorem State.func_bumpWrap_ (a hi lo n : Nat) (c : Nat) : (s.bumpWrap a hi lo n).func c = s.func c := rfl
@[simp] theorem State.func_passTo_ (t : Nat) (c : Nat) : (s.passTo t).func c = s.func c := rfl
@[simp] theorem State.func_pass_ (n : Nat) (c : Nat) : (s.pass n).func c = s.func c := rfl
@[simp] theorem State.func_emitOut_ (o : Output) (c : Nat) : (s.emitOut o).func c = s.func c := rfl
@[simp] theorem State.func_sendRecord_ (type srck srci : Nat) (body : List Byte) (c : Nat) : (s.sendRecord type srck srci body).func c = s.func c := rfl
@[simp] theorem State.func_draw_ (c : Nat) : s.draw.2.func c = s.func c := rfl

/-! ### `State.pair` after another update -/

@[simp] theorem State.pair_setPart_ (p : Nat) (x : Part) (c : Nat) : (s.setPart p x).pair c = s.pair c := rfl
@[simp] theorem State.pair_modPart_ (p : Nat) (f : Part → Part) (c : Nat) : (s.modPart p f).pair c = s.pair c := rfl
@[simp] theorem State.pair_modOwn_ (p : Nat) (f : PartOwn → PartOwn) (c : Nat) : (s.modOwn p f).pair c = s.pair c := rfl
@[simp] theorem State.pair_modRun_ (p : Nat) (f : PartRun → PartRun) (c : Nat) : (s.modRun p f).pair c = s.pair c := rfl
@[simp] theorem State.pair_modPln_ (p : Nat) (f : PartPlane → PartPlane) (c : Nat) : (s.modPln p f).pair c = s.pair c := rfl
@[simp] theorem State.pair_modCommit_ (p : Nat) (f : Commit → Commit) (c : Nat) : (s.modCommit p f).pair c = s.pair c := rfl
@[simp] theorem State.pair_modHeal_ (p : Nat) (f : Heal → Heal) (c : Nat) : (s.modHeal p f).pair c = s.pair c := rfl
@[simp] theorem State.pair_setBay_ (b : Nat) (x : Bay) (c : Nat) : (s.setBay b x).pair c = s.pair c := rfl
@[simp] theorem State.pair_modBay_ (b : Nat) (f : Bay → Bay) (c : Nat) : (s.modBay b f).pair c = s.pair c := rfl
@[simp] theorem State.pair_setTile_ (t : PT) (x : Tile) (c : Nat) : (s.setTile t x).pair c = s.pair c := rfl
@[simp] theorem State.pair_modTile_ (t : PT) (f : Tile → Tile) (c : Nat) : (s.modTile t f).pair c = s.pair c := rfl
@[simp] theorem State.pair_setRouter_ (r : PT) (x : Router) (c : Nat) : (s.setRouter r x).pair c = s.pair c := rfl
@[simp] theorem State.pair_modRouter_ (r : PT) (f : Router → Router) (c : Nat) : (s.modRouter r f).pair c = s.pair c := rfl
@[simp] theorem State.pair_setLink_ (r : PT) (d : Dir) (x : Link) (c : Nat) : (s.setLink r d x).pair c = s.pair c := rfl
@[simp] theorem State.pair_setStack_ (k : Nat) (x : Stack) (c : Nat) : (s.setStack k x).pair c = s.pair c := rfl
@[simp] theorem State.pair_modStack_ (k : Nat) (f : Stack → Stack) (c : Nat) : (s.modStack k f).pair c = s.pair c := rfl
@[simp] theorem State.pair_setEngine_ (e : Nat) (x : Engine) (c : Nat) : (s.setEngine e x).pair c = s.pair c := rfl
@[simp] theorem State.pair_setFlume_ (f : Nat) (x : List Copy) (c : Nat) : (s.setFlume f x).pair c = s.pair c := rfl
@[simp] theorem State.pair_setFunc_ (f : Nat) (x : Func) (c : Nat) : (s.setFunc f x).pair c = s.pair c := rfl
@[simp] theorem State.pair_modFunc_ (f : Nat) (g : Func → Func) (c : Nat) : (s.modFunc f g).pair c = s.pair c := rfl
@[simp] theorem State.pair_setBasin_ (ep n : Nat) (x : Basin) (c : Nat) : (s.setBasin ep n x).pair c = s.pair c := rfl
@[simp] theorem State.pair_resetCores_ (k : Nat) (held : Bool) (c : Nat) : (s.resetCores k held).pair c = s.pair c := rfl
@[simp] theorem State.pair_setStage_ (a : Nat) (d : Dword) (c : Nat) : (s.setStage a d).pair c = s.pair c := rfl
@[simp] theorem State.pair_setSport_ (ep : Nat) (x : SendPort) (c : Nat) : (s.setSport ep x).pair c = s.pair c := rfl
@[simp] theorem State.pair_setStlp_ (p : Nat) (x : StlPort) (c : Nat) : (s.setStlp p x).pair c = s.pair c := rfl
@[simp] theorem State.pair_modStlp_ (p : Nat) (f : StlPort → StlPort) (c : Nat) : (s.modStlp p f).pair c = s.pair c := rfl
@[simp] theorem State.pair_modPower_ (f : Power → Power) (c : Nat) : (s.modPower f).pair c = s.pair c := rfl
@[simp] theorem State.pair_modClock_ (f : Clock → Clock) (c : Nat) : (s.modClock f).pair c = s.pair c := rfl
@[simp] theorem State.pair_modTime_ (f : TideBase → TideBase) (c : Nat) : (s.modTime f).pair c = s.pair c := rfl
@[simp] theorem State.pair_modBoot_ (f : Boot → Boot) (c : Nat) : (s.modBoot f).pair c = s.pair c := rfl
@[simp] theorem State.pair_modGrain_ (f : Grain → Grain) (c : Nat) : (s.modGrain f).pair c = s.pair c := rfl
@[simp] theorem State.pair_modLms_ (f : Lms → Lms) (c : Nat) : (s.modLms f).pair c = s.pair c := rfl
@[simp] theorem State.pair_modPins_ (f : Pins → Pins) (c : Nat) : (s.modPins f).pair c = s.pair c := rfl
@[simp] theorem State.pair_setReg_ (a : Nat) (v : Word) (c : Nat) : (s.setReg a v).pair c = s.pair c := rfl
@[simp] theorem State.pair_setField_ (a hi lo v : Nat) (c : Nat) : (s.setField a hi lo v).pair c = s.pair c := rfl
@[simp] theorem State.pair_bump_ (a hi lo n : Nat) (c : Nat) : (s.bump a hi lo n).pair c = s.pair c := rfl
@[simp] theorem State.pair_bumpWrap_ (a hi lo n : Nat) (c : Nat) : (s.bumpWrap a hi lo n).pair c = s.pair c := rfl
@[simp] theorem State.pair_passTo_ (t : Nat) (c : Nat) : (s.passTo t).pair c = s.pair c := rfl
@[simp] theorem State.pair_pass_ (n : Nat) (c : Nat) : (s.pass n).pair c = s.pair c := rfl
@[simp] theorem State.pair_emitOut_ (o : Output) (c : Nat) : (s.emitOut o).pair c = s.pair c := rfl
@[simp] theorem State.pair_sendRecord_ (type srck srci : Nat) (body : List Byte) (c : Nat) : (s.sendRecord type srck srci body).pair c = s.pair c := rfl
@[simp] theorem State.pair_draw_ (c : Nat) : s.draw.2.pair c = s.pair c := rfl

/-! ### `State.basin` after another update -/

@[simp] theorem State.basin_setPart_ (p : Nat) (x : Part) (c c2 : Nat) : (s.setPart p x).basin c c2 = s.basin c c2 := rfl
@[simp] theorem State.basin_modPart_ (p : Nat) (f : Part → Part) (c c2 : Nat) : (s.modPart p f).basin c c2 = s.basin c c2 := rfl
@[simp] theorem State.basin_modOwn_ (p : Nat) (f : PartOwn → PartOwn) (c c2 : Nat) : (s.modOwn p f).basin c c2 = s.basin c c2 := rfl
@[simp] theorem State.basin_modRun_ (p : Nat) (f : PartRun → PartRun) (c c2 : Nat) : (s.modRun p f).basin c c2 = s.basin c c2 := rfl
@[simp] theorem State.basin_modPln_ (p : Nat) (f : PartPlane → PartPlane) (c c2 : Nat) : (s.modPln p f).basin c c2 = s.basin c c2 := rfl
@[simp] theorem State.basin_modCommit_ (p : Nat) (f : Commit → Commit) (c c2 : Nat) : (s.modCommit p f).basin c c2 = s.basin c c2 := rfl
@[simp] theorem State.basin_modHeal_ (p : Nat) (f : Heal → Heal) (c c2 : Nat) : (s.modHeal p f).basin c c2 = s.basin c c2 := rfl
@[simp] theorem State.basin_setBay_ (b : Nat) (x : Bay) (c c2 : Nat) : (s.setBay b x).basin c c2 = s.basin c c2 := rfl
@[simp] theorem State.basin_modBay_ (b : Nat) (f : Bay → Bay) (c c2 : Nat) : (s.modBay b f).basin c c2 = s.basin c c2 := rfl
@[simp] theorem State.basin_setTile_ (t : PT) (x : Tile) (c c2 : Nat) : (s.setTile t x).basin c c2 = s.basin c c2 := rfl
@[simp] theorem State.basin_modTile_ (t : PT) (f : Tile → Tile) (c c2 : Nat) : (s.modTile t f).basin c c2 = s.basin c c2 := rfl
@[simp] theorem State.basin_setRouter_ (r : PT) (x : Router) (c c2 : Nat) : (s.setRouter r x).basin c c2 = s.basin c c2 := rfl
@[simp] theorem State.basin_modRouter_ (r : PT) (f : Router → Router) (c c2 : Nat) : (s.modRouter r f).basin c c2 = s.basin c c2 := rfl
@[simp] theorem State.basin_setLink_ (r : PT) (d : Dir) (x : Link) (c c2 : Nat) : (s.setLink r d x).basin c c2 = s.basin c c2 := rfl
@[simp] theorem State.basin_setStack_ (k : Nat) (x : Stack) (c c2 : Nat) : (s.setStack k x).basin c c2 = s.basin c c2 := rfl
@[simp] theorem State.basin_modStack_ (k : Nat) (f : Stack → Stack) (c c2 : Nat) : (s.modStack k f).basin c c2 = s.basin c c2 := rfl
@[simp] theorem State.basin_setEngine_ (e : Nat) (x : Engine) (c c2 : Nat) : (s.setEngine e x).basin c c2 = s.basin c c2 := rfl
@[simp] theorem State.basin_setFlume_ (f : Nat) (x : List Copy) (c c2 : Nat) : (s.setFlume f x).basin c c2 = s.basin c c2 := rfl
@[simp] theorem State.basin_setFunc_ (f : Nat) (x : Func) (c c2 : Nat) : (s.setFunc f x).basin c c2 = s.basin c c2 := rfl
@[simp] theorem State.basin_modFunc_ (f : Nat) (g : Func → Func) (c c2 : Nat) : (s.modFunc f g).basin c c2 = s.basin c c2 := rfl
@[simp] theorem State.basin_setPair_ (k : Nat) (x : Pair) (c c2 : Nat) : (s.setPair k x).basin c c2 = s.basin c c2 := rfl
@[simp] theorem State.basin_resetCores_ (k : Nat) (held : Bool) (c c2 : Nat) : (s.resetCores k held).basin c c2 = s.basin c c2 := rfl
@[simp] theorem State.basin_setStage_ (a : Nat) (d : Dword) (c c2 : Nat) : (s.setStage a d).basin c c2 = s.basin c c2 := rfl
@[simp] theorem State.basin_setSport_ (ep : Nat) (x : SendPort) (c c2 : Nat) : (s.setSport ep x).basin c c2 = s.basin c c2 := rfl
@[simp] theorem State.basin_setStlp_ (p : Nat) (x : StlPort) (c c2 : Nat) : (s.setStlp p x).basin c c2 = s.basin c c2 := rfl
@[simp] theorem State.basin_modStlp_ (p : Nat) (f : StlPort → StlPort) (c c2 : Nat) : (s.modStlp p f).basin c c2 = s.basin c c2 := rfl
@[simp] theorem State.basin_modPower_ (f : Power → Power) (c c2 : Nat) : (s.modPower f).basin c c2 = s.basin c c2 := rfl
@[simp] theorem State.basin_modClock_ (f : Clock → Clock) (c c2 : Nat) : (s.modClock f).basin c c2 = s.basin c c2 := rfl
@[simp] theorem State.basin_modTime_ (f : TideBase → TideBase) (c c2 : Nat) : (s.modTime f).basin c c2 = s.basin c c2 := rfl
@[simp] theorem State.basin_modBoot_ (f : Boot → Boot) (c c2 : Nat) : (s.modBoot f).basin c c2 = s.basin c c2 := rfl
@[simp] theorem State.basin_modGrain_ (f : Grain → Grain) (c c2 : Nat) : (s.modGrain f).basin c c2 = s.basin c c2 := rfl
@[simp] theorem State.basin_modLms_ (f : Lms → Lms) (c c2 : Nat) : (s.modLms f).basin c c2 = s.basin c c2 := rfl
@[simp] theorem State.basin_modPins_ (f : Pins → Pins) (c c2 : Nat) : (s.modPins f).basin c c2 = s.basin c c2 := rfl
@[simp] theorem State.basin_setReg_ (a : Nat) (v : Word) (c c2 : Nat) : (s.setReg a v).basin c c2 = s.basin c c2 := rfl
@[simp] theorem State.basin_setField_ (a hi lo v : Nat) (c c2 : Nat) : (s.setField a hi lo v).basin c c2 = s.basin c c2 := rfl
@[simp] theorem State.basin_bump_ (a hi lo n : Nat) (c c2 : Nat) : (s.bump a hi lo n).basin c c2 = s.basin c c2 := rfl
@[simp] theorem State.basin_bumpWrap_ (a hi lo n : Nat) (c c2 : Nat) : (s.bumpWrap a hi lo n).basin c c2 = s.basin c c2 := rfl
@[simp] theorem State.basin_passTo_ (t : Nat) (c c2 : Nat) : (s.passTo t).basin c c2 = s.basin c c2 := rfl
@[simp] theorem State.basin_pass_ (n : Nat) (c c2 : Nat) : (s.pass n).basin c c2 = s.basin c c2 := rfl
@[simp] theorem State.basin_emitOut_ (o : Output) (c c2 : Nat) : (s.emitOut o).basin c c2 = s.basin c c2 := rfl
@[simp] theorem State.basin_sendRecord_ (type srck srci : Nat) (body : List Byte) (c c2 : Nat) : (s.sendRecord type srck srci body).basin c c2 = s.basin c c2 := rfl
@[simp] theorem State.basin_draw_ (c c2 : Nat) : s.draw.2.basin c c2 = s.basin c c2 := rfl

/-! ### `State.sport` after another update -/

@[simp] theorem State.sport_setPart_ (p : Nat) (x : Part) (c : Nat) : (s.setPart p x).sport c = s.sport c := rfl
@[simp] theorem State.sport_modPart_ (p : Nat) (f : Part → Part) (c : Nat) : (s.modPart p f).sport c = s.sport c := rfl
@[simp] theorem State.sport_modOwn_ (p : Nat) (f : PartOwn → PartOwn) (c : Nat) : (s.modOwn p f).sport c = s.sport c := rfl
@[simp] theorem State.sport_modRun_ (p : Nat) (f : PartRun → PartRun) (c : Nat) : (s.modRun p f).sport c = s.sport c := rfl
@[simp] theorem State.sport_modPln_ (p : Nat) (f : PartPlane → PartPlane) (c : Nat) : (s.modPln p f).sport c = s.sport c := rfl
@[simp] theorem State.sport_modCommit_ (p : Nat) (f : Commit → Commit) (c : Nat) : (s.modCommit p f).sport c = s.sport c := rfl
@[simp] theorem State.sport_modHeal_ (p : Nat) (f : Heal → Heal) (c : Nat) : (s.modHeal p f).sport c = s.sport c := rfl
@[simp] theorem State.sport_setBay_ (b : Nat) (x : Bay) (c : Nat) : (s.setBay b x).sport c = s.sport c := rfl
@[simp] theorem State.sport_modBay_ (b : Nat) (f : Bay → Bay) (c : Nat) : (s.modBay b f).sport c = s.sport c := rfl
@[simp] theorem State.sport_setTile_ (t : PT) (x : Tile) (c : Nat) : (s.setTile t x).sport c = s.sport c := rfl
@[simp] theorem State.sport_modTile_ (t : PT) (f : Tile → Tile) (c : Nat) : (s.modTile t f).sport c = s.sport c := rfl
@[simp] theorem State.sport_setRouter_ (r : PT) (x : Router) (c : Nat) : (s.setRouter r x).sport c = s.sport c := rfl
@[simp] theorem State.sport_modRouter_ (r : PT) (f : Router → Router) (c : Nat) : (s.modRouter r f).sport c = s.sport c := rfl
@[simp] theorem State.sport_setLink_ (r : PT) (d : Dir) (x : Link) (c : Nat) : (s.setLink r d x).sport c = s.sport c := rfl
@[simp] theorem State.sport_setStack_ (k : Nat) (x : Stack) (c : Nat) : (s.setStack k x).sport c = s.sport c := rfl
@[simp] theorem State.sport_modStack_ (k : Nat) (f : Stack → Stack) (c : Nat) : (s.modStack k f).sport c = s.sport c := rfl
@[simp] theorem State.sport_setEngine_ (e : Nat) (x : Engine) (c : Nat) : (s.setEngine e x).sport c = s.sport c := rfl
@[simp] theorem State.sport_setFlume_ (f : Nat) (x : List Copy) (c : Nat) : (s.setFlume f x).sport c = s.sport c := rfl
@[simp] theorem State.sport_setFunc_ (f : Nat) (x : Func) (c : Nat) : (s.setFunc f x).sport c = s.sport c := rfl
@[simp] theorem State.sport_modFunc_ (f : Nat) (g : Func → Func) (c : Nat) : (s.modFunc f g).sport c = s.sport c := rfl
@[simp] theorem State.sport_setPair_ (k : Nat) (x : Pair) (c : Nat) : (s.setPair k x).sport c = s.sport c := rfl
@[simp] theorem State.sport_setBasin_ (ep n : Nat) (x : Basin) (c : Nat) : (s.setBasin ep n x).sport c = s.sport c := rfl
@[simp] theorem State.sport_resetCores_ (k : Nat) (held : Bool) (c : Nat) : (s.resetCores k held).sport c = s.sport c := rfl
@[simp] theorem State.sport_setStage_ (a : Nat) (d : Dword) (c : Nat) : (s.setStage a d).sport c = s.sport c := rfl
@[simp] theorem State.sport_setStlp_ (p : Nat) (x : StlPort) (c : Nat) : (s.setStlp p x).sport c = s.sport c := rfl
@[simp] theorem State.sport_modStlp_ (p : Nat) (f : StlPort → StlPort) (c : Nat) : (s.modStlp p f).sport c = s.sport c := rfl
@[simp] theorem State.sport_modPower_ (f : Power → Power) (c : Nat) : (s.modPower f).sport c = s.sport c := rfl
@[simp] theorem State.sport_modClock_ (f : Clock → Clock) (c : Nat) : (s.modClock f).sport c = s.sport c := rfl
@[simp] theorem State.sport_modTime_ (f : TideBase → TideBase) (c : Nat) : (s.modTime f).sport c = s.sport c := rfl
@[simp] theorem State.sport_modBoot_ (f : Boot → Boot) (c : Nat) : (s.modBoot f).sport c = s.sport c := rfl
@[simp] theorem State.sport_modGrain_ (f : Grain → Grain) (c : Nat) : (s.modGrain f).sport c = s.sport c := rfl
@[simp] theorem State.sport_modLms_ (f : Lms → Lms) (c : Nat) : (s.modLms f).sport c = s.sport c := rfl
@[simp] theorem State.sport_modPins_ (f : Pins → Pins) (c : Nat) : (s.modPins f).sport c = s.sport c := rfl
@[simp] theorem State.sport_setReg_ (a : Nat) (v : Word) (c : Nat) : (s.setReg a v).sport c = s.sport c := rfl
@[simp] theorem State.sport_setField_ (a hi lo v : Nat) (c : Nat) : (s.setField a hi lo v).sport c = s.sport c := rfl
@[simp] theorem State.sport_bump_ (a hi lo n : Nat) (c : Nat) : (s.bump a hi lo n).sport c = s.sport c := rfl
@[simp] theorem State.sport_bumpWrap_ (a hi lo n : Nat) (c : Nat) : (s.bumpWrap a hi lo n).sport c = s.sport c := rfl
@[simp] theorem State.sport_passTo_ (t : Nat) (c : Nat) : (s.passTo t).sport c = s.sport c := rfl
@[simp] theorem State.sport_pass_ (n : Nat) (c : Nat) : (s.pass n).sport c = s.sport c := rfl
@[simp] theorem State.sport_emitOut_ (o : Output) (c : Nat) : (s.emitOut o).sport c = s.sport c := rfl
@[simp] theorem State.sport_sendRecord_ (type srck srci : Nat) (body : List Byte) (c : Nat) : (s.sendRecord type srck srci body).sport c = s.sport c := rfl
@[simp] theorem State.sport_draw_ (c : Nat) : s.draw.2.sport c = s.sport c := rfl

/-! ### `State.stlp` after another update -/

@[simp] theorem State.stlp_setPart_ (p : Nat) (x : Part) (c : Nat) : (s.setPart p x).stlp c = s.stlp c := rfl
@[simp] theorem State.stlp_modPart_ (p : Nat) (f : Part → Part) (c : Nat) : (s.modPart p f).stlp c = s.stlp c := rfl
@[simp] theorem State.stlp_modOwn_ (p : Nat) (f : PartOwn → PartOwn) (c : Nat) : (s.modOwn p f).stlp c = s.stlp c := rfl
@[simp] theorem State.stlp_modRun_ (p : Nat) (f : PartRun → PartRun) (c : Nat) : (s.modRun p f).stlp c = s.stlp c := rfl
@[simp] theorem State.stlp_modPln_ (p : Nat) (f : PartPlane → PartPlane) (c : Nat) : (s.modPln p f).stlp c = s.stlp c := rfl
@[simp] theorem State.stlp_modCommit_ (p : Nat) (f : Commit → Commit) (c : Nat) : (s.modCommit p f).stlp c = s.stlp c := rfl
@[simp] theorem State.stlp_modHeal_ (p : Nat) (f : Heal → Heal) (c : Nat) : (s.modHeal p f).stlp c = s.stlp c := rfl
@[simp] theorem State.stlp_setBay_ (b : Nat) (x : Bay) (c : Nat) : (s.setBay b x).stlp c = s.stlp c := rfl
@[simp] theorem State.stlp_modBay_ (b : Nat) (f : Bay → Bay) (c : Nat) : (s.modBay b f).stlp c = s.stlp c := rfl
@[simp] theorem State.stlp_setTile_ (t : PT) (x : Tile) (c : Nat) : (s.setTile t x).stlp c = s.stlp c := rfl
@[simp] theorem State.stlp_modTile_ (t : PT) (f : Tile → Tile) (c : Nat) : (s.modTile t f).stlp c = s.stlp c := rfl
@[simp] theorem State.stlp_setRouter_ (r : PT) (x : Router) (c : Nat) : (s.setRouter r x).stlp c = s.stlp c := rfl
@[simp] theorem State.stlp_modRouter_ (r : PT) (f : Router → Router) (c : Nat) : (s.modRouter r f).stlp c = s.stlp c := rfl
@[simp] theorem State.stlp_setLink_ (r : PT) (d : Dir) (x : Link) (c : Nat) : (s.setLink r d x).stlp c = s.stlp c := rfl
@[simp] theorem State.stlp_setStack_ (k : Nat) (x : Stack) (c : Nat) : (s.setStack k x).stlp c = s.stlp c := rfl
@[simp] theorem State.stlp_modStack_ (k : Nat) (f : Stack → Stack) (c : Nat) : (s.modStack k f).stlp c = s.stlp c := rfl
@[simp] theorem State.stlp_setEngine_ (e : Nat) (x : Engine) (c : Nat) : (s.setEngine e x).stlp c = s.stlp c := rfl
@[simp] theorem State.stlp_setFlume_ (f : Nat) (x : List Copy) (c : Nat) : (s.setFlume f x).stlp c = s.stlp c := rfl
@[simp] theorem State.stlp_setFunc_ (f : Nat) (x : Func) (c : Nat) : (s.setFunc f x).stlp c = s.stlp c := rfl
@[simp] theorem State.stlp_modFunc_ (f : Nat) (g : Func → Func) (c : Nat) : (s.modFunc f g).stlp c = s.stlp c := rfl
@[simp] theorem State.stlp_setPair_ (k : Nat) (x : Pair) (c : Nat) : (s.setPair k x).stlp c = s.stlp c := rfl
@[simp] theorem State.stlp_setBasin_ (ep n : Nat) (x : Basin) (c : Nat) : (s.setBasin ep n x).stlp c = s.stlp c := rfl
@[simp] theorem State.stlp_resetCores_ (k : Nat) (held : Bool) (c : Nat) : (s.resetCores k held).stlp c = s.stlp c := rfl
@[simp] theorem State.stlp_setStage_ (a : Nat) (d : Dword) (c : Nat) : (s.setStage a d).stlp c = s.stlp c := rfl
@[simp] theorem State.stlp_setSport_ (ep : Nat) (x : SendPort) (c : Nat) : (s.setSport ep x).stlp c = s.stlp c := rfl
@[simp] theorem State.stlp_modPower_ (f : Power → Power) (c : Nat) : (s.modPower f).stlp c = s.stlp c := rfl
@[simp] theorem State.stlp_modClock_ (f : Clock → Clock) (c : Nat) : (s.modClock f).stlp c = s.stlp c := rfl
@[simp] theorem State.stlp_modTime_ (f : TideBase → TideBase) (c : Nat) : (s.modTime f).stlp c = s.stlp c := rfl
@[simp] theorem State.stlp_modBoot_ (f : Boot → Boot) (c : Nat) : (s.modBoot f).stlp c = s.stlp c := rfl
@[simp] theorem State.stlp_modGrain_ (f : Grain → Grain) (c : Nat) : (s.modGrain f).stlp c = s.stlp c := rfl
@[simp] theorem State.stlp_modLms_ (f : Lms → Lms) (c : Nat) : (s.modLms f).stlp c = s.stlp c := rfl
@[simp] theorem State.stlp_modPins_ (f : Pins → Pins) (c : Nat) : (s.modPins f).stlp c = s.stlp c := rfl
@[simp] theorem State.stlp_setReg_ (a : Nat) (v : Word) (c : Nat) : (s.setReg a v).stlp c = s.stlp c := rfl
@[simp] theorem State.stlp_setField_ (a hi lo v : Nat) (c : Nat) : (s.setField a hi lo v).stlp c = s.stlp c := rfl
@[simp] theorem State.stlp_bump_ (a hi lo n : Nat) (c : Nat) : (s.bump a hi lo n).stlp c = s.stlp c := rfl
@[simp] theorem State.stlp_bumpWrap_ (a hi lo n : Nat) (c : Nat) : (s.bumpWrap a hi lo n).stlp c = s.stlp c := rfl
@[simp] theorem State.stlp_passTo_ (t : Nat) (c : Nat) : (s.passTo t).stlp c = s.stlp c := rfl
@[simp] theorem State.stlp_pass_ (n : Nat) (c : Nat) : (s.pass n).stlp c = s.stlp c := rfl
@[simp] theorem State.stlp_emitOut_ (o : Output) (c : Nat) : (s.emitOut o).stlp c = s.stlp c := rfl
@[simp] theorem State.stlp_sendRecord_ (type srck srci : Nat) (body : List Byte) (c : Nat) : (s.sendRecord type srck srci body).stlp c = s.stlp c := rfl
@[simp] theorem State.stlp_draw_ (c : Nat) : s.draw.2.stlp c = s.stlp c := rfl

/-! ### What an accessor reads after its own update -/

@[simp] theorem State.part_setPart_same (k : Nat) (x : Part) : (s.setPart k x).part k = x := by simp [State.part, State.setPart]
theorem State.part_setPart_ne {k j : Nat} (x : Part) (h : j ≠ k) : (s.setPart k x).part j = s.part j := by
  simp [State.part, State.setPart, Tab.get_set, h]
@[simp] theorem State.bay_setBay_same (k : Nat) (x : Bay) : (s.setBay k x).bay k = x := by simp [State.bay, State.setBay]
theorem State.bay_setBay_ne {k j : Nat} (x : Bay) (h : j ≠ k) : (s.setBay k x).bay j = s.bay j := by
  simp [State.bay, State.setBay, Tab.get_set, h]
@[simp] theorem State.stack_setStack_same (k : Nat) (x : Stack) : (s.setStack k x).stack k = x := by simp [State.stack, State.setStack]
theorem State.stack_setStack_ne {k j : Nat} (x : Stack) (h : j ≠ k) : (s.setStack k x).stack j = s.stack j := by
  simp [State.stack, State.setStack, Tab.get_set, h]
@[simp] theorem State.engine_setEngine_same (k : Nat) (x : Engine) : (s.setEngine k x).engine k = x := by simp [State.engine, State.setEngine]
theorem State.engine_setEngine_ne {k j : Nat} (x : Engine) (h : j ≠ k) : (s.setEngine k x).engine j = s.engine j := by
  simp [State.engine, State.setEngine, Tab.get_set, h]
@[simp] theorem State.flume_setFlume_same (k : Nat) (x : List Copy) : (s.setFlume k x).flume k = x := by simp [State.flume, State.setFlume]
theorem State.flume_setFlume_ne {k j : Nat} (x : List Copy) (h : j ≠ k) : (s.setFlume k x).flume j = s.flume j := by
  simp [State.flume, State.setFlume, Tab.get_set, h]
@[simp] theorem State.func_setFunc_same (k : Nat) (x : Func) : (s.setFunc k x).func k = x := by simp [State.func, State.setFunc]
theorem State.func_setFunc_ne {k j : Nat} (x : Func) (h : j ≠ k) : (s.setFunc k x).func j = s.func j := by
  simp [State.func, State.setFunc, Tab.get_set, h]
@[simp] theorem State.pair_setPair_same (k : Nat) (x : Pair) : (s.setPair k x).pair k = x := by simp [State.pair, State.setPair]
theorem State.pair_setPair_ne {k j : Nat} (x : Pair) (h : j ≠ k) : (s.setPair k x).pair j = s.pair j := by
  simp [State.pair, State.setPair, Tab.get_set, h]
@[simp] theorem State.sport_setSport_same (k : Nat) (x : SendPort) : (s.setSport k x).sport k = x := by simp [State.sport, State.setSport]
theorem State.sport_setSport_ne {k j : Nat} (x : SendPort) (h : j ≠ k) : (s.setSport k x).sport j = s.sport j := by
  simp [State.sport, State.setSport, Tab.get_set, h]
@[simp] theorem State.stlp_setStlp_same (k : Nat) (x : StlPort) : (s.setStlp k x).stlp k = x := by simp [State.stlp, State.setStlp]
theorem State.stlp_setStlp_ne {k j : Nat} (x : StlPort) (h : j ≠ k) : (s.setStlp k x).stlp j = s.stlp j := by
  simp [State.stlp, State.setStlp, Tab.get_set, h]
@[simp] theorem State.part_modPart_same (k : Nat) (f : Part → Part) : (s.modPart k f).part k = f (s.part k) := by simp [State.modPart]
theorem State.part_modPart_ne {k j : Nat} (f : Part → Part) (h : j ≠ k) : (s.modPart k f).part j = s.part j := by
  simp [State.modPart, State.part_setPart_ne _ _ h]
@[simp] theorem State.bay_modBay_same (k : Nat) (f : Bay → Bay) : (s.modBay k f).bay k = f (s.bay k) := by simp [State.modBay]
theorem State.bay_modBay_ne {k j : Nat} (f : Bay → Bay) (h : j ≠ k) : (s.modBay k f).bay j = s.bay j := by
  simp [State.modBay, State.bay_setBay_ne _ _ h]
@[simp] theorem State.stack_modStack_same (k : Nat) (f : Stack → Stack) : (s.modStack k f).stack k = f (s.stack k) := by simp [State.modStack]
theorem State.stack_modStack_ne {k j : Nat} (f : Stack → Stack) (h : j ≠ k) : (s.modStack k f).stack j = s.stack j := by
  simp [State.modStack, State.stack_setStack_ne _ _ h]
@[simp] theorem State.func_modFunc_same (k : Nat) (f : Func → Func) : (s.modFunc k f).func k = f (s.func k) := by simp [State.modFunc]
theorem State.func_modFunc_ne {k j : Nat} (f : Func → Func) (h : j ≠ k) : (s.modFunc k f).func j = s.func j := by
  simp [State.modFunc, State.func_setFunc_ne _ _ h]
@[simp] theorem State.stlp_modStlp_same (k : Nat) (f : StlPort → StlPort) : (s.modStlp k f).stlp k = f (s.stlp k) := by simp [State.modStlp]
theorem State.stlp_modStlp_ne {k j : Nat} (f : StlPort → StlPort) (h : j ≠ k) : (s.modStlp k f).stlp j = s.stlp j := by
  simp [State.modStlp, State.stlp_setStlp_ne _ _ h]
@[simp] theorem State.reg_setReg_same (a : Nat) (v : Word) : (s.setReg a v).reg a = v := by simp [State.reg, State.setReg]
theorem State.reg_setReg_ne {a b : Nat} (v : Word) (h : b ≠ a) : (s.setReg a v).reg b = s.reg b := by
  simp [State.reg, State.setReg, Tab.get_set_other _ _ _ _ h]
theorem State.reg_setField_ne {a b : Nat} (hi lo v : Nat) (h : b ≠ a) : (s.setField a hi lo v).reg b = s.reg b :=
  s.reg_setReg_ne _ h
theorem State.reg_bump_ne {a b : Nat} (hi lo n : Nat) (h : b ≠ a) : (s.bump a hi lo n).reg b = s.reg b := s.reg_setReg_ne _ h
theorem State.reg_bumpWrap_ne {a b : Nat} (hi lo n : Nat) (h : b ≠ a) : (s.bumpWrap a hi lo n).reg b = s.reg b :=
  s.reg_setReg_ne _ h

/-- A tile reads what was put there. -/
@[simp] theorem State.tile_setTile_same (t : PT) (x : Tile) : (s.setTile t x).tile t = x := by
  simp [State.tile, State.setTile, State.bay]
@[simp] theorem State.tile_modTile_same (t : PT) (f : Tile → Tile) : (s.modTile t f).tile t = f (s.tile t) := by
  simp [State.modTile]
theorem State.tile_setTile_ne {t u : PT} (x : Tile) (h : u.key ≠ t.key) : (s.setTile t x).tile u = s.tile u := by
  simp [State.tile, State.setTile, State.bay, Tab.get_set_other _ _ _ _ h]
theorem State.tile_modTile_ne {t u : PT} (f : Tile → Tile) (h : u.key ≠ t.key) : (s.modTile t f).tile u = s.tile u :=
  s.tile_setTile_ne _ h
@[simp] theorem State.router_setRouter_same (r : PT) (x : Router) : (s.setRouter r x).router r = x := by
  simp [State.router, State.setRouter, State.bay]
@[simp] theorem State.router_modRouter_same (r : PT) (f : Router → Router) : (s.modRouter r f).router r = f (s.router r) := by
  simp [State.modRouter]
theorem State.router_setRouter_ne {r u : PT} (x : Router) (h : u.key ≠ r.key) : (s.setRouter r x).router u = s.router u := by
  simp [State.router, State.setRouter, State.bay, Tab.get_set_other _ _ _ _ h]
theorem State.router_modRouter_ne {r u : PT} (f : Router → Router) (h : u.key ≠ r.key) :
    (s.modRouter r f).router u = s.router u := s.router_setRouter_ne _ h
@[simp] theorem State.link_setLink_same (r : PT) (d : Dir) (x : Link) : (s.setLink r d x).link r d = x := by
  simp [State.link, State.setLink]

/-- Different tiles of the wafer have different numbers. -/
theorem PT_key_inj {t u : PT} (ht : t.valid = true) (hu : u.valid = true) (h : t.key = u.key) : t = u := by
  obtain ⟨b, c, r⟩ := t
  obtain ⟨b', c', r'⟩ := u
  simp only [PT.valid, PT.key, Bool.and_eq_true, decide_eq_true_eq] at *
  obtain ⟨⟨h1, h2⟩, h3⟩ := ht
  obtain ⟨⟨h4, h5⟩, h6⟩ := hu
  have : b = b' := by omega
  subst this
  have : r = r' := by omega
  subst this
  have : c = c' := by omega
  subst this
  rfl

/-! ### Time -/

theorem State.passTo_mono (t : Nat) : s.tide ≤ (s.passTo t).tide := by
  have h := s.tide.isLt
  rw [BitVec.le_def]
  simp only [State.passTo, BitVec.toNat_ofNat]
  rw [Nat.mod_eq_of_lt (by omega)]
  omega
theorem State.pass_mono (n : Nat) : s.tide ≤ (s.pass n).tide := s.passTo_mono _
theorem State.now_passTo (t : Nat) (h : t < 2 ^ 64) : (s.passTo t).now = max s.now t := by
  have := s.tide.isLt
  simp only [State.now, State.passTo, BitVec.toNat_ofNat]
  rw [Nat.mod_eq_of_lt (by omega)]
  omega

end Sys2Proof.Machine
end

