-- ==== Sys2Proof/Laws/Fields.lean ====
section
/-!
SUPPORT. Laws of bit fields of registers and of counts.
-/

namespace Sys2Proof.Machine

/-- A bit of a word after a field is set. -/
theorem getLsbD_withField (w : Word) (hi lo v i : Nat) (h : lo ≤ hi) (_ : hi < 64) (hi64 : i < 64) :
    (withField w hi lo v).getLsbD i = if lo ≤ i ∧ i ≤ hi then v.testBit (i - lo) else w.getLsbD i := by
  unfold withField
  simp only [BitVec.getLsbD_or, BitVec.getLsbD_and, BitVec.getLsbD_not, BitVec.getLsbD_shiftLeft, BitVec.getLsbD_ofNat,
    Nat.testBit_two_pow_sub_one, hi64, decide_true, Bool.true_and]
  by_cases h1 : i < lo
  · have : ¬ (lo ≤ i ∧ i ≤ hi) := by omega
    simp [h1, this]
  · by_cases h2 : i ≤ hi
    · have a : i - lo < hi + 1 - lo := by omega
      have b : i - lo < 64 := by omega
      have c : lo ≤ i := by omega
      simp [h1, h2, a, b, c]
    · have a : ¬ i - lo < hi + 1 - lo := by omega
      simp [h1, h2, a]

/-- A field reads what was put there, cut to its width. -/
theorem fieldOf_withField_same (w : Word) (hi lo v : Nat) (h : lo ≤ hi) (hh : hi < 64) :
    fieldOf (withField w hi lo v) hi lo = v % 2 ^ (hi + 1 - lo) := by
  apply Nat.eq_of_testBit_eq
  intro i
  simp only [fieldOf, Nat.testBit_mod_two_pow]
  rw [← BitVec.getLsbD, BitVec.getLsbD_extractLsb']
  by_cases h1 : i < hi + 1 - lo
  · rw [getLsbD_withField _ _ _ _ _ h hh (by omega)]
    have : lo ≤ lo + i ∧ lo + i ≤ hi := by omega
    have e : lo + i - lo = i := by omega
    simp [h1, this, e]
  · simp [h1]

/-- Another field of the word is left. -/
theorem fieldOf_withField_apart (w : Word) (hi lo v h2 l2 : Nat) (h : lo ≤ hi) (hh : hi < 64) (k : l2 ≤ h2) (kk : h2 < 64)
    (apart : h2 < lo ∨ hi < l2) : fieldOf (withField w hi lo v) h2 l2 = fieldOf w h2 l2 := by
  apply Nat.eq_of_testBit_eq
  intro i
  simp only [fieldOf]
  rw [← BitVec.getLsbD, ← BitVec.getLsbD, BitVec.getLsbD_extractLsb', BitVec.getLsbD_extractLsb']
  by_cases h1 : i < h2 + 1 - l2
  · rw [getLsbD_withField _ _ _ _ _ h hh (by omega)]
    have : ¬ (lo ≤ l2 + i ∧ l2 + i ≤ hi) := by omega
    simp [h1, this]
  · simp [h1]

theorem fieldOf_lt (w : Word) (hi lo : Nat) : fieldOf w hi lo < 2 ^ (hi + 1 - lo) := by
  simp only [fieldOf]
  exact BitVec.isLt _

theorem State.field_lt (s : State) (a hi lo : Nat) : s.field a hi lo < 2 ^ (hi + 1 - lo) := fieldOf_lt _ _ _

theorem State.field_setField_same (s : State) (a hi lo v : Nat) (h : lo ≤ hi) (hh : hi < 64) :
    (s.setField a hi lo v).field a hi lo = v % 2 ^ (hi + 1 - lo) := by
  simp [State.field, State.setField, fieldOf_withField_same _ _ _ _ h hh]

theorem State.field_setField_apart (s : State) (a hi lo v h2 l2 : Nat) (h : lo ≤ hi) (hh : hi < 64) (k : l2 ≤ h2) (kk : h2 < 64)
    (apart : h2 < lo ∨ hi < l2) : (s.setField a hi lo v).field a h2 l2 = s.field a h2 l2 := by
  simp [State.field, State.setField, fieldOf_withField_apart _ _ _ _ _ _ h hh k kk apart]

/-- A saturating count (R17). -/
theorem State.field_bump (s : State) (a hi lo n : Nat) (h : lo ≤ hi) (hh : hi < 64) :
    (s.bump a hi lo n).field a hi lo = min (s.field a hi lo + n) (2 ^ (hi + 1 - lo) - 1) := by
  have : 0 < 2 ^ (hi + 1 - lo) := Nat.pos_of_ne_zero (by positivity)
  rw [State.bump, State.field_setField_same _ _ _ _ _ h hh, Nat.mod_eq_of_lt (by omega)]

/-- A wrapping count (R17). -/
theorem State.field_bumpWrap (s : State) (a hi lo n : Nat) (h : lo ≤ hi) (hh : hi < 64) :
    (s.bumpWrap a hi lo n).field a hi lo = (s.field a hi lo + n) % 2 ^ (hi + 1 - lo) :=
  State.field_setField_same _ _ _ _ _ h hh

/-! ### Partitions and layers after an update -/

theorem State.part_modPart (s : State) (p q : Nat) (f : Part → Part) : (s.modPart p f).part q = if q = p then f (s.part p) else s.part q := by
  simp [State.modPart, State.setPart, State.part, Tab.get_set]

theorem State.layer_setLayer (s : State) (p l q m : Nat) (x : Layer) :
    (s.setLayer p l x).layer q m = if q = p ∧ m = l then x else s.layer q m := by
  by_cases h : q = p <;> simp [State.layer, State.setLayer, State.modPln, State.part_modPart, Tab.get_set, h]

theorem State.layer_modOwn (s : State) (p q m : Nat) (f : PartOwn → PartOwn) : (s.modOwn p f).layer q m = s.layer q m := by
  by_cases h : q = p <;> simp [State.layer, State.modOwn, State.part_modPart, h]

end Sys2Proof.Machine
end

