-- ==== Sys2Proof/Laws/Hash.lean ====
section
/-!
SUPPORT. Laws of the hash functions: the lengths of their values.
-/

namespace Sys2Proof.Machine

theorem beBytes_length (n v : Nat) : (beBytes n v).length = n := by
  induction n generalizing v with
  | zero => rfl
  | succ n ih => simp [beBytes, ih]

/-- A round keeps the eight working variables. -/
theorem Sha.round_length {w : Nat} (p : Sha w) (s : List (BitVec w) × List (BitVec w)) (k : BitVec w) (h : s.1.length = 8) :
    (p.round s k).1.length = 8 := by
  obtain ⟨v, m⟩ := s
  match v, h with
  | [a, b, c, d, e, f, g, i], _ => rfl

theorem Sha.rounds_length {w : Nat} (p : Sha w) (ks : List (BitVec w)) : ∀ s : List (BitVec w) × List (BitVec w), s.1.length = 8 →
    (ks.foldl p.round s).1.length = 8 := by
  induction ks with
  | nil => exact fun s h => h
  | cons k ks ih => exact fun s h => ih _ (p.round_length s k h)

theorem Sha.block_length {w : Nat} (p : Sha w) (h m : List (BitVec w)) (n : h.length = 8) : (p.block h m).length = 8 := by
  simp [Sha.block, n, p.rounds_length p.rounds (h, m) n]

/-- A hash value has eight words. -/
theorem Sha.hash_length {w : Nat} (p : Sha w) (m : List Byte) (h : p.start.length = 8) : (p.hash m).length = 8 * (w / 8) := by
  have fold (f : Nat → List (BitVec w)) (is : List Nat) : ∀ v : List (BitVec w), v.length = 8 →
      (is.foldl (fun v i => p.block v (f i)) v).length = 8 := by
    induction is with
    | nil => exact fun v n => n
    | cons i is ih => exact fun v n => ih _ (p.block_length v _ n)
  simp only [Sha.hash, List.length_flatMap, beBytes_length]
  rw [List.map_const', List.sum_replicate_nat, fold _ _ _ h]

theorem shaPrimes_length : shaPrimes.length = 80 := by decide +kernel

theorem sha384_length (m : List Byte) : (sha384 m).length = 48 := by
  have h : sha384Params.start.length = 8 := by simp [sha384Params, shaPrimes_length]
  simp [sha384, sha384Params.hash_length m h]

theorem sha256_length (m : List Byte) : (sha256 m).length = 32 := by
  have h : sha256Params.start.length = 8 := by simp [sha256Params, shaPrimes_length]
  simp [sha256, sha256Params.hash_length m h]

end Sys2Proof.Machine
end

