-- ==== Sys2Proof/Laws/Signal.lean ====
section
/-!
SUPPORT. What raising an event does, once for every command that raises one.
-/

namespace Sys2Proof.Machine

theorem LogFrame.rfl' (s : State) : LogFrame s s := ⟨rfl, fun _ _ => rfl⟩

theorem LogFrame.trans {s t u : State} (h : LogFrame s t) (k : LogFrame t u) : LogFrame s u := by
  refine ⟨?_, fun a ha => (k.2 a ha).trans (h.2 a ha)⟩
  have h1 := h.1
  have k1 := k.1
  rw [k1, h1]

/-- A change of the logs' registers. -/
theorem LogFrame.setReg {s t : State} (h : LogFrame s t) {a : Nat} (ha : IsLogReg a) (v : Word) : LogFrame s (t.setReg a v) := by
  refine h.trans ⟨rfl, fun b hb => State.reg_setReg_ne _ _ ?_⟩
  rintro e
  exact hb (e ▸ ha)

theorem LogFrame.setField {s t : State} (h : LogFrame s t) {a : Nat} (ha : IsLogReg a) (hi lo v : Nat) :
    LogFrame s (t.setField a hi lo v) := h.setReg ha _

theorem LogFrame.bump {s t : State} (h : LogFrame s t) {a : Nat} (ha : IsLogReg a) (hi lo n : Nat) :
    LogFrame s (t.bump a hi lo n) := h.setReg ha _

theorem LogFrame.modFunc {s t : State} (h : LogFrame s t) (f : Nat) (g : Func → Func) : LogFrame s (t.modFunc f g) :=
  h.trans ⟨rfl, fun _ _ => rfl⟩

theorem LogFrame.emitOut {s t : State} (h : LogFrame s t) (o : Output) : LogFrame s (t.emitOut o) := h.trans ⟨rfl, fun _ _ => rfl⟩

theorem LogFrame.sendRecord {s t : State} (h : LogFrame s t) (a b c : Nat) (d : List Byte) :
    LogFrame s (t.sendRecord a b c d) := h.trans ⟨rfl, fun _ _ => rfl⟩

theorem isLogReg_tail (f : Nat) : IsLogReg (Reg.hstEvlogTail f) := ⟨f, .inl rfl⟩
theorem isLogReg_funcstat (f : Nat) : IsLogReg (Reg.hstFuncstat f) := ⟨f, .inr rfl⟩

theorem LogFrame.ite {s a b : State} {c : Prop} [Decidable c] (h : LogFrame s a) (k : LogFrame s b) :
    LogFrame s (if c then a else b) := by
  split
  · exact h
  · exact k

theorem LogFrame.sendMsix {s t : State} (h : LogFrame s t) (f v : Nat) : LogFrame s (t.sendMsix f v) := by
  unfold State.sendMsix
  dsimp only
  split
  · exact h.modFunc _ _
  · exact h.emitOut _

theorem LogFrame.countBlocked {s t : State} (h : LogFrame s t) (f : Nat) : LogFrame s (t.countBlocked f).1 := by
  have k := h.bump (isLogReg_funcstat f) 47 32 1
  unfold State.countBlocked
  dsimp only
  cases t.blockDue f
  · exact k
  · exact k.modFunc f fun x => { x with dmaAt := some (t.bump (Reg.hstFuncstat f) 47 32 1).now }

theorem LogFrame.holdEvent {s t : State} (h : LogFrame s t) (f : Nat) (e : Event) : LogFrame s (t.holdEvent f e) := by
  unfold State.holdEvent
  split
  · exact h.modFunc _ _
  · exact (h.modFunc _ _).bump (isLogReg_tail f) _ _ _

theorem LogFrame.holdBlocked {s t : State} (h : LogFrame s t) (f a : Nat) : LogFrame s (t.holdBlocked f a) := by
  unfold State.holdBlocked
  dsimp only
  split
  · split
    · exact ((h.countBlocked f).sendRecord _ _ _ _).holdEvent _ _
    · exact (((h.countBlocked f).sendRecord _ _ _ _).holdEvent _ _).holdEvent _ _
  · exact h.countBlocked f

theorem LogFrame.logWriteEvent {s t : State} (h : LogFrame s t) (f : Nat) (e : Bool → List Byte) :
    LogFrame s (t.logWrite f .event e) := by
  have r : IsLogReg (logTail f .event) := isLogReg_tail f
  unfold State.logWrite
  exact LogFrame.ite (((LogFrame.ite (h.emitOut _) (h.holdBlocked _ _)).setField r _ _ _).setField r _ _ _)
    ((LogFrame.ite (h.emitOut _) (h.holdBlocked _ _)).setField r _ _ _)

theorem LogFrame.writeEvent {s t : State} (h : LogFrame s t) (f : Nat) : LogFrame s (t.writeEvent f) := by
  unfold State.writeEvent
  split
  · exact h
  · dsimp only
    split
    · exact ((h.modFunc _ _).logWriteEvent _ _).sendMsix _ _
    · exact (h.modFunc _ _).logWriteEvent _ _

theorem LogFrame.flushEvents (f n : Nat) {s t : State} (h : LogFrame s t) : LogFrame s (t.flushEvents f n) := by
  induction n generalizing t with
  | zero => exact h
  | succ n ih =>
    simp only [State.flushEvents]
    split
    · exact ih (h.writeEvent f)
    · exact h

theorem LogFrame.deliver {s t : State} (h : LogFrame s t) (f : Nat) (e : Event) : LogFrame s (t.deliver f e) :=
  (h.holdEvent f e).flushEvents _ _

theorem LogFrame.raise {s t : State} (h : LogFrame s t) (id : EventId) (p : Nat) (ops : List Nat) :
    LogFrame s (t.raise id p ops) := by
  unfold State.raise
  dsimp only
  split
  · exact (h.sendRecord _ _ _ _).deliver _ _
  · exact ((h.sendRecord _ _ _ _).deliver _ _).deliver _ _

/-! The records that wait only grow. -/

/-- The waiting records of `t` begin with those of `s`. -/
def Grows (s t : State) : Prop := s.man.grain.waiting <+: t.man.grain.waiting

theorem Grows.of_eq {s t : State} (h : t.man.grain.waiting = s.man.grain.waiting) : Grows s t := by
  unfold Grows
  rw [h]

theorem Grows.trans {s t u : State} (h : Grows s t) (k : Grows t u) : Grows s u := List.IsPrefix.trans h k

theorem Grows.sendRecord (s : State) (a b c : Nat) (d : List Byte) : Grows s (s.sendRecord a b c d) :=
  List.prefix_append _ _

theorem Grows.sendMsix (s : State) (f v : Nat) : Grows s (s.sendMsix f v) := by
  unfold State.sendMsix
  dsimp only
  split <;> exact .of_eq rfl

theorem Grows.countBlocked (s : State) (f : Nat) : Grows s (s.countBlocked f).1 := by
  unfold State.countBlocked
  dsimp only
  cases s.blockDue f <;> exact .of_eq rfl

theorem Grows.holdEvent (s : State) (f : Nat) (e : Event) : Grows s (s.holdEvent f e) := by
  unfold State.holdEvent
  split <;> exact .of_eq rfl

theorem Grows.holdBlocked (s : State) (f a : Nat) : Grows s (s.holdBlocked f a) := by
  unfold State.holdBlocked
  dsimp only
  split
  · split
    · exact ((Grows.countBlocked s f).trans (.sendRecord _ _ _ _ _)).trans (.holdEvent _ _ _)
    · exact (((Grows.countBlocked s f).trans (.sendRecord _ _ _ _ _)).trans (.holdEvent _ _ _)).trans (.holdEvent _ _ _)
  · exact .countBlocked s f

theorem Grows.logWrite (s : State) (f : Nat) (k : LogKind) (e : Bool → List Byte) : Grows s (s.logWrite f k e) := by
  have one : Grows s (if s.dmaOk f (4096 * fieldOf (s.reg (logBase f k)) 63 12 + 32 * s.field (logTail f k) 15 0) 32 then
      s.emitOut (.hostWrite f (4096 * fieldOf (s.reg (logBase f k)) 63 12 + 32 * s.field (logTail f k) 15 0)
        (e ((s.reg (logTail f k)).getLsbD 16)) false)
      else s.holdBlocked f (4096 * fieldOf (s.reg (logBase f k)) 63 12 + 32 * s.field (logTail f k) 15 0)) := by
    split
    · exact .of_eq rfl
    · exact .holdBlocked _ _ _
  unfold State.logWrite
  dsimp only
  split
  · exact one.trans (.of_eq rfl)
  · exact one.trans (.of_eq rfl)

theorem Grows.writeEvent (s : State) (f : Nat) : Grows s (s.writeEvent f) := by
  unfold State.writeEvent
  split
  · exact .of_eq rfl
  · rename_i e r _
    have one : Grows s (s.modFunc f fun x => { x with events := r, lost := false }) := .of_eq rfl
    have two := one.trans (Grows.logWrite _ f .event (eventEntry e (s.func f).lost))
    dsimp only
    split
    · exact two.trans (.sendMsix _ _ _)
    · exact two

theorem Grows.flushEvents (f n : Nat) (s : State) : Grows s (s.flushEvents f n) := by
  induction n generalizing s with
  | zero => exact .of_eq rfl
  | succ n ih =>
    simp only [State.flushEvents]
    split
    · exact (Grows.writeEvent s f).trans (ih _)
    · exact .of_eq rfl

theorem Grows.deliver (s : State) (f : Nat) (e : Event) : Grows s (s.deliver f e) :=
  (Grows.holdEvent s f e).trans (.flushEvents _ _ _)

/-- What `State.signal` does. -/
theorem signal_spec (id : EventId) (p : Nat) (ops : List Nat) (s : State) : Signals id p ops s (s.signal id p ops) := by
  refine ⟨s.raise id p ops, (LogFrame.rfl' s).raise id p ops, ?_, rfl⟩
  have h : Grows (s.sendRecord 0x0020 3 0 (eventBody { code := id.code, sev := id.sev, part := p, tide := s.tide, ops := ops }))
      (s.raise id p ops) := by
    unfold State.raise
    dsimp only
    split
    · exact .deliver _ _ _
    · exact (Grows.deliver _ _ _).trans (.deliver _ _ _)
  obtain ⟨l, hl⟩ := h
  refine ⟨l, ?_⟩
  rw [← hl]
  simp [State.sendRecord, State.modGrain, State.record, eventRecord]

/-! ### What a signalled state keeps -/

section

variable {id : EventId} {p : Nat} {ops : List Nat} {s t : State}

theorem LogFrame.comp (h : LogFrame s t) : t.comp = s.comp := by rw [h.1]
theorem LogFrame.phys (h : LogFrame s t) : t.phys = s.phys := by rw [h.1]
theorem LogFrame.tide (h : LogFrame s t) : t.tide = s.tide := by rw [h.1]
theorem LogFrame.pending (h : LogFrame s t) : t.pending = s.pending := by rw [h.1]
theorem LogFrame.pcie (h : LogFrame s t) : t.host.pcie = s.host.pcie := by rw [h.1]
theorem LogFrame.boot (h : LogFrame s t) : t.man.boot = s.man.boot := by rw [h.1]

theorem stopFor_phys (sev : Severity) (u : State) : (u.stopFor sev p).phys = u.phys := by cases sev <;> rfl
theorem stopFor_tide (sev : Severity) (u : State) : (u.stopFor sev p).tide = u.tide := by cases sev <;> rfl
theorem stopFor_pending (sev : Severity) (u : State) : (u.stopFor sev p).pending = u.pending := by cases sev <;> rfl
theorem stopFor_regs (sev : Severity) (u : State) : (u.stopFor sev p).regs = u.regs := by cases sev <;> rfl
theorem stopFor_host (sev : Severity) (u : State) : (u.stopFor sev p).host = u.host := by cases sev <;> rfl
theorem stopFor_tiles (sev : Severity) (u : State) : (u.stopFor sev p).comp.tiles = u.comp.tiles := by cases sev <;> rfl

theorem Signals.phys (h : Signals id p ops s t) : t.phys = s.phys := by
  obtain ⟨u, hu, -, rfl⟩ := h
  rw [stopFor_phys, hu.phys]
theorem Signals.tide (h : Signals id p ops s t) : t.tide = s.tide := by
  obtain ⟨u, hu, -, rfl⟩ := h
  rw [stopFor_tide, hu.tide]
theorem Signals.pending (h : Signals id p ops s t) : t.pending = s.pending := by
  obtain ⟨u, hu, -, rfl⟩ := h
  rw [stopFor_pending, hu.pending]
theorem Signals.tiles (h : Signals id p ops s t) : t.comp.tiles = s.comp.tiles := by
  obtain ⟨u, hu, -, rfl⟩ := h
  rw [stopFor_tiles, hu.comp]
theorem Signals.reg (h : Signals id p ops s t) {a : Nat} (ha : ¬ IsLogReg a) : t.reg a = s.reg a := by
  obtain ⟨u, hu, -, rfl⟩ := h
  rw [State.reg_congr (stopFor_regs _ _), hu.2 a ha]
theorem Signals.field (h : Signals id p ops s t) {a : Nat} (ha : ¬ IsLogReg a) (hi lo : Nat) : t.field a hi lo = s.field a hi lo := by
  simp [State.field, h.reg ha]
theorem Signals.bay (h : Signals id p ops s t) (b : Nat) : t.bay b = s.bay b := State.bay_congr (by rw [h.phys]) b
theorem Signals.tile (h : Signals id p ops s t) (x : PT) : t.tile x = s.tile x := by
  simp [State.tile, h.bay, h.tiles]
/-- An event that is not partition-fatal leaves the compute side. -/
theorem Signals.comp (h : Signals id p ops s t) (hs : id.sev ≠ .partitionFatal) : t.comp = s.comp := by
  obtain ⟨u, hu, -, rfl⟩ := h
  have : (u.stopFor id.sev p).comp = u.comp := by
    cases e : id.sev <;> first | rfl | exact absurd e hs
  rw [this, hu.comp]
/-- An event that is neither partition-fatal nor module-fatal changes the logs only. -/
theorem Signals.logFrame (h : Signals id p ops s t) (hs : id.sev = .info ∨ id.sev = .degraded) : LogFrame s t := by
  obtain ⟨u, hu, -, rfl⟩ := h
  rcases hs with e | e <;> rw [e] <;> exact hu
theorem Signals.boot (h : Signals id p ops s t) (hs : id.sev ≠ .moduleFatal) : t.man.boot = s.man.boot := by
  obtain ⟨u, hu, -, rfl⟩ := h
  have : (u.stopFor id.sev p).man = u.man := by
    cases e : id.sev <;> first | rfl | exact absurd e hs
  rw [this, hu.boot]
/-- The record of the event. -/
theorem Signals.record (h : Signals id p ops s t) :
    ∃ l, t.man.grain.waiting = s.man.grain.waiting ++ eventRecord id p ops s.tide :: l := by
  obtain ⟨u, -, hr, rfl⟩ := h
  have : (u.stopFor id.sev p).man.grain = u.man.grain := by cases id.sev <;> rfl
  rw [this]
  exact hr

end

end Sys2Proof.Machine
end

