-- ==== Sys2Proof/Laws/Tile.lean ====
section
/-!
SUPPORT. What the shared operations of a tile can do: frames on one tile, the stall counter, stops, retirement, and the
fetch of a micro-op.
-/

namespace Sys2Proof.Machine

/-! ### Frames -/

theorem OnlyTile.refl (t : PT) (s : State) : OnlyTile t s s := ⟨rfl, fun _ _ => rfl⟩
theorem OnlyTile.trans {t : PT} {a b c : State} (h : OnlyTile t a b) (k : OnlyTile t b c) : OnlyTile t a c := by
  refine ⟨?_, fun u hu => (k.2 u hu).trans (h.2 u hu)⟩
  rw [k.1, h.1]
theorem onlyTile_setTile (s : State) (t : PT) (x : Tile) : OnlyTile t s (s.setTile t x) :=
  ⟨rfl, fun _ hu => s.tile_setTile_ne x hu⟩
theorem onlyTile_modTile (s : State) (t : PT) (f : Tile → Tile) : OnlyTile t s (s.modTile t f) := onlyTile_setTile s t (f (s.tile t))
theorem onlyTile_restall (s : State) (t : PT) : OnlyTile t s (s.restall t) := onlyTile_setTile s t (Tile.restall s.now (s.tile t))

/-- What is about a tile but its stall counter. -/
def SameButStall (x y : Tile) : Prop :=
  y = { x with s := { x.s with stall := y.s.stall, stallSince := y.s.stallSince, paused := y.s.paused } }

theorem restall_spec (n : Nat) (x : Tile) : SameButStall x (x.restall n) := by
  unfold Tile.restall SameButStall
  repeat' split
  all_goals rfl

theorem SameButStall.data {x y : Tile} (h : SameButStall x y) : SameData x y := by
  rw [h]; exact ⟨rfl, rfl, rfl, rfl, rfl, rfl, rfl, rfl, rfl, rfl, rfl⟩

theorem SameData.refl (x : Tile) : SameData x x := ⟨rfl, rfl, rfl, rfl, rfl, rfl, rfl, rfl, rfl, rfl, rfl⟩
theorem SameData.trans {x y z : Tile} (h : SameData x y) (k : SameData y z) : SameData x z := by
  obtain ⟨h1, h2, h3, h4, h5, h6, h7, h8, h9, h10, h11⟩ := h
  obtain ⟨k1, k2, k3, k4, k5, k6, k7, k8, k9, k10, k11⟩ := k
  exact ⟨k1.trans h1, k2.trans h2, k3.trans h3, k4.trans h4, k5.trans h5, k6.trans h6, k7.trans h7, k8.trans h8, k9.trans h9,
    k10.trans h10, k11.trans h11⟩

section
variable (n : Nat) (x : Tile)
@[simp] theorem restall_r : (x.restall n).r = x.r := by rw [restall_spec n x]
@[simp] theorem restall_mem : (x.restall n).mem = x.mem := by rw [restall_spec n x]
@[simp] theorem restall_amTag : (x.restall n).amTag = x.amTag := by rw [restall_spec n x]
@[simp] theorem restall_pmTag : (x.restall n).pmTag = x.pmTag := by rw [restall_spec n x]
@[simp] theorem restall_queues : (x.restall n).queues = x.queues := by rw [restall_spec n x]
@[simp] theorem restall_q : (x.restall n).q = x.q := by rw [restall_spec n x]
@[simp] theorem restall_c : (x.restall n).c = x.c := by rw [restall_spec n x]
@[simp] theorem restall_seq : (x.restall n).s.seq = x.s.seq := by rw [restall_spec n x]
@[simp] theorem restall_before : (x.restall n).s.before = x.s.before := by rw [restall_spec n x]
@[simp] theorem restall_inv : (x.restall n).s.inv = x.s.inv := by rw [restall_spec n x]
@[simp] theorem restall_pc : (x.restall n).s.pc = x.s.pc := by rw [restall_spec n x]
@[simp] theorem restall_blk : (x.restall n).s.blk = x.s.blk := by rw [restall_spec n x]
@[simp] theorem restall_blkarg : (x.restall n).s.blkarg = x.s.blkarg := by rw [restall_spec n x]
@[simp] theorem restall_fcause : (x.restall n).s.fcause = x.s.fcause := by rw [restall_spec n x]
@[simp] theorem restall_check : (x.restall n).s.check = x.s.check := by rw [restall_spec n x]
@[simp] theorem restall_arrived : (x.restall n).s.arrived = x.s.arrived := by rw [restall_spec n x]
@[simp] theorem restall_done : (x.restall n).s.done = x.s.done := by rw [restall_spec n x]
@[simp] theorem restall_lost : (x.restall n).s.lost = x.s.lost := by rw [restall_spec n x]
@[simp] theorem restall_progress : (x.restall n).s.progress = x.s.progress := by rw [restall_spec n x]
@[simp] theorem restall_sigSeq : (x.restall n).s.sigSeq = x.s.sigSeq := by rw [restall_spec n x]
@[simp] theorem restall_sigChk : (x.restall n).s.sigChk = x.s.sigChk := by rw [restall_spec n x]
end

/-! ### A corrected error on the way -/

/-- A tile whose count of corrected errors is as before is left. -/
theorem ceHigh_same {s : State} {t : PT} {x : Tile} (h : (s.tile t).c.ce = x.c.ce) : s.ceHigh t x = s := by
  have hc : ¬ (x.c.ce.toNat < (s.tile t).c.ceLim.toNat ∧ (s.tile t).c.ceLim.toNat ≤ (s.tile t).c.ce.toNat) := by rw [h]; omega
  simp only [State.ceHigh, hc, if_false]

/-- Everything a step may do on the high mark of corrected errors: nothing, or SRAM_CE_HIGH is raised and the tile's plumb
intensity is raised. -/
theorem ceHigh_spec (s : State) (t : PT) (x : Tile) :
    s.ceHigh t x = s ∨
      ∃ u p ops, Signals Ev.sramCeHigh p ops s u ∧
        s.ceHigh t x = u.modTile t fun y => { y with plumb := { y.plumb with intensUntil := some (u.now + 86400000000000) } } := by
  by_cases hc : x.c.ce.toNat < (s.tile t).c.ceLim.toNat ∧ (s.tile t).c.ceLim.toNat ≤ (s.tile t).c.ce.toNat
  · refine .inr ⟨_, _, _, signal_spec Ev.sramCeHigh (s.ptPart t) (tileOps (s.hosted t) t) s, ?_⟩
    simp only [State.ceHigh, hc, and_self, if_true]
  · refine .inl ?_
    simp only [State.ceHigh, hc, if_false]

/-- It leaves the tile everything but its plumb intensity. -/
theorem tile_ceHigh (s : State) (t : PT) (x : Tile) :
    (s.ceHigh t x).tile t = { s.tile t with plumb := ((s.ceHigh t x).tile t).plumb } := by
  obtain h | ⟨v, p, ops, hv, h⟩ := ceHigh_spec s t x
  · rw [h]
  · rw [h, State.tile_modTile_same, hv.tile t]
theorem tile_ceHigh_ne (s : State) {t u : PT} (x : Tile) (hu : u.key ≠ t.key) : (s.ceHigh t x).tile u = s.tile u := by
  obtain h | ⟨v, p, ops, hv, h⟩ := ceHigh_spec s t x
  · rw [h]
  · rw [h, State.tile_modTile_ne _ _ hu, hv.tile u]

section
variable (s : State) (t : PT) (x : Tile)
@[simp] theorem ceHigh_r : ((s.ceHigh t x).tile t).r = (s.tile t).r := by rw [tile_ceHigh]
@[simp] theorem ceHigh_s : ((s.ceHigh t x).tile t).s = (s.tile t).s := by rw [tile_ceHigh]
@[simp] theorem ceHigh_q : ((s.ceHigh t x).tile t).q = (s.tile t).q := by rw [tile_ceHigh]
@[simp] theorem ceHigh_c : ((s.ceHigh t x).tile t).c = (s.tile t).c := by rw [tile_ceHigh]
@[simp] theorem ceHigh_mem : ((s.ceHigh t x).tile t).mem = (s.tile t).mem := by rw [tile_ceHigh]
@[simp] theorem ceHigh_amTag : ((s.ceHigh t x).tile t).amTag = (s.tile t).amTag := by rw [tile_ceHigh]
@[simp] theorem ceHigh_pmTag : ((s.ceHigh t x).tile t).pmTag = (s.tile t).pmTag := by rw [tile_ceHigh]
@[simp] theorem ceHigh_queues : ((s.ceHigh t x).tile t).queues = (s.tile t).queues := by rw [tile_ceHigh]
end

/-! ### Fetching a micro-op -/

theorem settleDone_none {s : State} {t : PT} (h : (s.tile t).s.done = none) : s.settleDone t = s := by
  unfold State.settleDone; simp only [h]
theorem settleCheck_none {s : State} {t : PT} (h : (s.tile t).s.check = none) : s.settleCheck t = s := by
  unfold State.settleCheck; simp only [h]

/-- Where a running tile fetches `u`, its command issues it. -/
theorem issue_of_fetches {s : State} {t : PT} {u : Uop} {x : Tile} (h : Fetches s t u x) (body : State → R State) :
    s.issue t u body = (match body (s.setTile t x) with
      | .ok r => r
      | .error e => (s.setTile t x).stopUop t e).ceHigh t (s.tile t) := by
  obtain ⟨h1, h2, h7, h3, h4, d, h5, h6⟩ := h
  unfold State.issue
  have hn : ¬ (512 ≤ (s.tile t).s.pc.toNat) := by omega
  cases hb : body (s.setTile t x) <;>
    simp only [settleDone_none h7, settleCheck_none h3, h1, h2, h5, h6, hn, hb, ne_eq, not_true_eq_false,
      Bool.true_eq_false, or_self, ↓reduceIte]

/-- Every micro-op's command issues it with its own effect. -/
theorem exec_uop (u : Uop) (t : PT) (s : State) : exec (u.instr t) s = .next (s.issue t u (uopBody t u)) := by
  cases u <;> rfl

/-- Where a running tile fetches `u` and its effect is `r`, its command answers `r`. -/
theorem exec_uop_of_fetches {s r : State} {t : PT} {u : Uop} {x : Tile} (h : Fetches s t u x)
    (hb : uopBody t u (s.setTile t x) = .ok r) : exec (u.instr t) s = .next (r.ceHigh t (s.tile t)) := by
  rw [exec_uop, issue_of_fetches h, hb]

/-! ### How a micro-op ends -/

/-- What `blocked` does. -/
theorem blocked_spec (s : State) (t : PT) (blk arg : Nat) :
    OnlyTile t s (s.blocked t blk arg) ∧
      SameButStall { s.tile t with s := { (s.tile t).s with seq := .blocked, blk := blk, blkarg := arg } } ((s.blocked t blk arg).tile t) := by
  refine ⟨(onlyTile_modTile _ _ _).trans (onlyTile_modTile _ _ _), ?_⟩
  simp only [State.blocked, State.restall, State.tile_modTile_same]
  exact restall_spec _ _

/-- What `blockedOn` does: a wait takes its place, and the tile is BLOCKED. -/
theorem blockedOn_spec (s : State) (t : PT) (blk an : Nat) (slots : List Nat) :
    ∃ w, s.blockedOn t blk an slots = (s.modTile t fun x => { x with q := { x.q with waiting := some w } }).blocked t blk an :=
  ⟨_, rfl⟩

/-- What `tileFault` does. -/
theorem tileFault_spec (s : State) (t : PT) (c : Nat) :
    OnlyTile t s (s.tileFault t c) ∧
      SameButStall { s.tile t with
        s := { (s.tile t).s with seq := .fault, fcause := c, blk := 0, blkarg := 0 }
        q := { (s.tile t).q with reissues := [], waiting := none } } ((s.tileFault t c).tile t) := by
  refine ⟨(onlyTile_modTile _ _ _).trans (onlyTile_modTile _ _ _), ?_⟩
  simp only [State.tileFault, State.restall, State.tile_modTile_same]
  exact restall_spec _ _

/-- The tile that a retirement to `nx` leaves, its stall counter aside. -/
def Tile.retired (op nx : Nat) (ls : List LoopReg) (e : Ends) (x : Tile) : Tile :=
  { x with
    r := { x.r with loops := ls }
    s := { (x.progressBy 1).s.sign x.s.pc.toNat op e.kind e.ended with
      seq := if x.s.seq = .blocked then .run else x.s.seq
      pc := BitVec.ofNat 10 nx, blk := 0, blkarg := 0, check := none, arrived := false, done := none }
    q := { x.q with waiting := none, got := none } }

/-- A retirement whose end-of-iteration checks go on at `nx`, popping nothing. -/
theorem retireBy_go (s : State) (t : PT) (op nx : Nat) (ls : List LoopReg) (e : Ends) (h : e.pops = []) :
    OnlyTile t s (s.retireBy t op (.go nx ls e)) ∧
      SameButStall ((s.tile t).retired op nx ls e) ((s.retireBy t op (.go nx ls e)).tile t) := by
  unfold State.retireBy
  simp only [LoopEnd.found, h, List.foldl]
  refine ⟨(onlyTile_modTile _ _ _).trans (onlyTile_modTile _ _ _), ?_⟩
  simp only [State.restall, State.tile_modTile_same]
  exact restall_spec _ _

/-- Without words to look at nothing is corrected. -/
theorem checked_none {x : Tile} {p : CodeWord → Bool} (h : ∀ w, p w = false) : x.checked p = .ok x := by
  simp [Tile.checked, h, Tile.countCe, Tile.rewritten]

/-- A micro-op that ends in RUN, outside every loop and without a write that waits, retires to `next`. -/
theorem finish_no_loop {s : State} {t : PT} {op next kind : Nat} (h : (s.tile t).r.loops = []) (hd : (s.tile t).s.done = none)
    (hr : (s.tile t).s.seq = .run) :
    OnlyTile t s (s.finish t op next kind) ∧
      SameButStall ((s.tile t).retired op next [] { kind := kind, pops := [], seen := [], ended := 0 }) ((s.finish t op next kind).tile t) := by
  have hc : (s.tile t).checked ((s.tile t).seenWords { kind := kind, pops := [], seen := [], ended := 0 }) = .ok (s.tile t) :=
    checked_none fun _ => rfl
  obtain ⟨h1, h2⟩ := retireBy_go (s.setTile t (s.tile t)) t op next [] { kind := kind, pops := [], seen := [], ended := 0 } rfl
  rw [State.tile_setTile_same] at h2
  have e : s.finish t op next kind = (s.setTile t (s.tile t)).retireBy t op (.go next [] { kind := kind, pops := [], seen := [], ended := 0 }) := by
    simp only [State.finish, hd, State.retire, State.retireAt, h, loopEnd, LoopEnd.found, hc, State.keepStill, State.tile_setTile_same, hr]
    rw [if_neg (by decide)]
    refine ceHigh_same ?_
    rw [h2]; rfl
  rw [e]
  exact ⟨(onlyTile_setTile _ _ _).trans h1, h2⟩

end Sys2Proof.Machine
end

