-- ==== Sys2Proof/Tests/Slice0.lean ====
section
/-!
SUPPORT. Tests: legal and illegal terms, micro-op words written out from the encoding tables, one step of a command on a
small state, and for each claim's hypotheses a state and operands that meet them. Expected values come from the rules of
spec/, each named beside its test.
-/

namespace Sys2Proof.Tests

open Sys2Proof Sys2Proof.Machine
set_option Elab.async false

/-! ### Helpers -/

/-- The state after a command. -/
def go (c : Instr) (s : State) : State := after (exec c s) s

/-- A Stop or a result, tested. -/
def okd {ε α : Type} (r : Except ε α) (k : α → Bool) : Bool :=
  match r with
  | .ok a => k a
  | .error _ => false

/-- A tile of bay 0, and its neighbours. -/
def T : PT := { bay := 0, col := 0, row := 0 }
def U : PT := { bay := 0, col := 1, row := 0 }

/-- Tile `T` in RUN with micro-op `u` at index 0 of IM, changed by `f`; bay 0 has its supplies. -/
def uopS (u : Uop) (f : Tile → Tile) : State :=
  (State.reset.modBay 0 fun b => { b with supply := .on, sill := true, ripple := true }).setTile T
    ((f { Tile.reset with s := { TileSeq.reset with seq := .run, before := .run, inv := true } }).store 0xC000 (leBytes 8 (encodeUop u).toNat))

/-- What `Fetches` asks, as a Bool, and the tile after the word has been read. -/
def fetchOk (s : State) (t : PT) (u : Uop) : Bool :=
  decide ((s.tile t).s.seq = .run) && s.runs (s.ptPart t) && decide ((s.tile t).s.done = none) && decide ((s.tile t).s.check = none) &&
    decide ((s.tile t).s.pc.toNat < 512) &&
    (match (s.tile t).load (0xC000 + 8 * (s.tile t).s.pc.toNat) 8 with
     | .ok (d, _) => decide (decodeUop (BitVec.ofNat 64 (ofLe d)) = some u)
     | .error _ => false)
def fetched (s : State) (t : PT) : Tile :=
  match (s.tile t).load (0xC000 + 8 * (s.tile t).s.pc.toNat) 8 with
  | .ok (_, x) => x
  | .error _ => s.tile t

theorem fetches_of {s : State} {t : PT} {u : Uop} (h : fetchOk s t u = true) : Fetches s t u (fetched s t) := by
  simp only [fetchOk, Bool.and_eq_true, decide_eq_true_eq] at h
  obtain ⟨⟨⟨⟨⟨h1, h2⟩, h3⟩, h4⟩, h5⟩, h6⟩ := h
  refine ⟨h1, h2, h3, h4, h5, ?_⟩
  unfold fetched
  split at h6
  · rename_i d x e
    exact ⟨d, by rw [e], by simpa using h6⟩
  · cases h6

/-- Queue `n` of a tile holds these entries. -/
def withQ (n : Nat) (es : List QEntry) (x : Tile) : Tile := { x with queues := Tab.set Queue.reset x.queues n { x.queue n with fifo := es } }
/-- A data entry, and a token of a kind with an operand (R171). -/
def dataE (v : Quad) : QEntry := { data := v, tok := false, ep := false, phase := false }
def tokE (kind val : Nat) : QEntry := { data := BitVec.ofNat 128 (kind + 8 * val), tok := true, ep := false, phase := false }
def withA (n cur stride : Nat) (x : Tile) : Tile :=
  { x with r := { x.r with a := Tab.set AddrReg.reset x.r.a n { cur := BitVec.ofNat 16 cur, stride := BitVec.ofNat 16 stride } } }
def withV (n : Nat) (v : Quad) (x : Tile) : Tile := { x with r := { x.r with v := Tab.set 0 x.r.v n v } }
def withSeq (q : Seq) (x : Tile) : Tile := { x with s := { x.s with seq := q } }

/-! ### Legal fields (R127 to R131, R141 to R144) -/

theorem test_wf_loop : (Uop.loop 0 2 1 false 0 0).wf = true ∧ (Uop.loop 0 2 0 false 0 0).wf = false ∧ (Uop.loop 0 2 1 true 0 3).wf = false := by decide +kernel
theorem test_wf_emit : (Uop.emit 0 4 0).wf = true ∧ (Uop.emit 0 5 0).wf = false := by decide +kernel
theorem test_wf_source : (Uop.mov 0 0x1C 3).wf = true ∧ (Uop.mov 0 0x1D 3).wf = false ∧ (Uop.mov 0 0x60 0).wf = false ∧ (Uop.mov 0 0x90 0).wf = false ∧
    (Uop.mov 0 0xC1 0).wf = false := by decide +kernel
theorem test_wf_destination : (Uop.mov 0x60 0 0).wf = false ∧ (Uop.mov 0x90 0 0).wf = false ∧ (Uop.rget 0 0x1F 1 0).wf = false := by decide +kernel
theorem test_wf_dot : (Uop.dot 5 5 0 0 0 4 7 true false 0).wf = true ∧ (Uop.dot 6 5 0 0 0 4 7 true false 0).wf = false ∧
    (Uop.dot 5 5 3 0 0 4 7 true false 0).wf = false ∧ (Uop.dot 5 5 0 0 0 4 7 true true 1).wf = false := by decide +kernel
theorem test_wf_vop : (Uop.vop 7 0 0 0 0).wf = true ∧ (Uop.vop 8 0 0 0 0).wf = false := by decide +kernel
theorem test_wf_cvt : (Uop.cvt 7 2 false false 0 0 false 0 false).wf = true ∧ (Uop.cvt 8 0 false false 0 0 false 0 false).wf = false ∧
    (Uop.cvt 7 3 false false 0 0 false 0 false).wf = false := by decide +kernel
theorem test_wf_cvtb : (Uop.cvtb 5 0 2 false false 0 0 0 0 false).wf = true ∧ (Uop.cvtb 6 0 2 false false 0 0 0 0 false).wf = false ∧
    (Uop.cvtb 5 0 0 false false 0 0 0 0 false).wf = false := by decide +kernel
theorem test_wf_fma_xadd_lds : (Uop.fma 0 0 0 0x90).wf = false ∧ (Uop.xadd 0 0 0xC1).wf = false ∧ (Uop.lds false false 0 0x60).wf = false := by decide +kernel

/-- A place that does not exist is refused. -/
theorem test_wf_places : (Instr.nop T).wf = true ∧ (Instr.nop { bay := 84, col := 0, row := 0 }).wf = false ∧
    (Instr.halt { bay := 0, col := 128, row := 0 }).wf = false ∧ (Instr.tileHalt { bay := 0, col := 0, row := 96 }).wf = false ∧
    (Instr.prtDetClr 0).wf = false ∧ (Instr.prtDetClr 9).wf = false ∧ (Instr.hbmCtlClr 24).wf = false ∧ (Instr.silPwrctlClr 84).wf = false ∧
    (Instr.stlRetrain 32).wf = false ∧ (Instr.jnrLockstep 48).wf = false ∧ (Instr.hstRateLimit 9).wf = false ∧
    (Instr.liveClusterReplace 12).wf = false ∧ (Instr.grnSectorErase 0 true).wf = false ∧ (Instr.stlResyncFlit 0 7 0).wf = false ∧
    (Instr.putTimeout 1 64).wf = false ∧ (Instr.jnrRecv 0 32).wf = false ∧ (Instr.refill T 8).wf = false ∧ (Instr.parkedRequestComplete T 4).wf = false ∧
    (Instr.taggedWaitProceed T 448).wf = false ∧ (Instr.drainPurge 1 256).wf = false ∧ (Instr.weirTimeout 1 4096).wf = false ∧
    (Instr.flumeCopyDone 32 (.good [])).wf = false := by decide +kernel
/-- A packet of another kind, and a micro-op with a reserved field, are refused. -/
def pk0 : Packet := { op := 0, dst := .tile T, src := .tile U, tag := 0, addr := 0, seq := 0, ep := false, ext := 0, part := 1, body := [{ data := 0, tok := false }] }
theorem test_wf_kinds : (Instr.qsend pk0).wf = true ∧ (Instr.wrRaw pk0).wf = false ∧ (Instr.emit T 0 5 0).wf = false ∧
    (Instr.qsend { pk0 with dst := .hbm 24 }).wf = false ∧ (Instr.thermTrip (.bay 84)).wf = false := by decide +kernel

/-! ### Micro-op words, bit by bit (R127, R131): [63:58] OPCODE, the operand fields of each row, reserved bits zero -/

theorem test_decode_nop : decodeUop 0x0000000000000000 = some .nop := by decide +kernel
theorem test_decode_loop : decodeUop 0x0500000200800000 = some (.loop 1 2 1 false 0 0) := by decide +kernel
theorem test_decode_mov : decodeUop 0x200C080000000000 = some (.mov 3 2 0) := by decide +kernel
theorem test_decode_adda : decodeUop 0x2E80100000000000 = some (.adda 5 0x20) := by decide +kernel
theorem test_decode_halt : decodeUop 0x1C00000000000000 = some .halt := by decide +kernel
theorem test_decode_dot : decodeUop 0x414000010F000000 = some (.dot 5 0 0 0 0 4 7 true false 0) := by decide +kernel
theorem test_decode_refuses : decodeUop 0xFC00000000000000 = none ∧ decodeUop 0x0000000000000001 = none ∧ decodeUop 0x0C38000000000000 = none := by decide +kernel

/-! ### Hypotheses of the claims: the block as a whole -/

/-- A locked root PLL, nothing waiting. -/
def locked : State := { State.reset with phys := { State.reset.phys with clock := { State.reset.phys.clock with rootLock := true } } }

theorem witness_StepRunsFrontCommand : locked.pending = [] ∧ locked.phys.clock.rootLock = true ∧ locked.phys.time.acc = 0 ∧ locked.phys.time.slew = 0 ∧
    locked.now < 2 ^ 64 - 1 ∧ State.reset.pending = [] ∧ State.reset.phys.clock.rootLock = false := by decide +kernel
theorem test_idle_tick : (match step locked with
    | .next t => t.now
    | _ => 0) = 1 := by decide +kernel

theorem witness_QueueRunsInOrderAndNeverStops : 2 ≤ ({ State.reset with pending := [.grnCtlClr, .tideMeasure] } : State).pending.length := by decide +kernel
theorem test_step_takes_front : (match step { State.reset with pending := [.perstAssert, .grnCtlClr] } with
    | .next t => t.pending
    | _ => []) = [.grnCtlClr] := by decide +kernel

/-- R17 at both ends of a field: the lowest bit alone and all 64. -/
theorem witness_CountersSaturate : (0 ≤ 0 ∧ 0 < 64) ∧ (0 ≤ 63 ∧ 63 < 64) ∧
    (State.reset.setReg Reg.tideSlew 0xFFFFFFFFFFFFFFFF).field Reg.tideSlew 15 0 = 2 ^ (15 + 1 - 0) - 1 := by decide +kernel
theorem test_counter_saturates : ((State.reset.setField (Reg.prtStlCnt 1) 47 32 0xFFFE).bump (Reg.prtStlCnt 1) 47 32 3).field (Reg.prtStlCnt 1) 47 32 = 0xFFFF := by
  decide +kernel

theorem witness_RegisterWritesByWidthAndAccessCode : Reg.bootImgaddr % 8 = 0 ∧ busTarget 0 Reg.bootImgaddr = .reg Reg.bootImgaddr ∧
    State.reset.reg Reg.bootImgaddr &&& ~~~0xFFFFFFFFFFFFF000 = 0 ∧ State.reset.reg Reg.tideParent &&& ~~~0xFFFFFFFF = 0 ∧
    State.reset.reg (Reg.stlAsym 3) &&& ~~~0xFFFFFFFF = 0 ∧ (16 : Nat) ≠ 64 ∧ (16 : Nat) ≠ 32 ∧ (4 : Nat) % 8 ≠ 0 ∧ (2 : Nat) % 4 ≠ 0 ∧
    (let s := State.reset.modBoot fun b => { b with stage := 6, st := .waiting }
     (s.modPower fun w => { w with segs := 1 }).mayFetch = true) ∧ (83 : Nat) < 84 := by decide +kernel
/-- R8: a FETCH written to BOOT_CTL is asked for. -/
theorem test_boot_ctl : (go (.registerWrite 0 Reg.bootCtl 64 1) ((State.reset.modBoot fun b => { b with stage := 6, st := .waiting }).modPower
    fun w => { w with segs := 1 })).boot.asked = 1 := by decide +kernel
/-- R15: the low half waits in the staging value for the high half. -/
theorem test_write_halves : (go (.registerWrite 0 (Reg.bootImgaddr + 4) 32 0x1) (go (.registerWrite 0 Reg.bootImgaddr 32 0x12345678) State.reset)).reg Reg.bootImgaddr =
    0x0000000112345000 := by decide +kernel

/-! ### Micro-ops -/

theorem witness_MicroOpWordsRoundTrip : (Uop.loop 0 0 1 true 7 2).wf = true ∧ (Uop.mov 0x1C 0x0C 3).wf = true ∧ (Uop.cvt 7 2 true true 0x4B 0xC0 true 0xFFFF true).wf = true := by
  decide +kernel

theorem witness_MicroOpsRunOrStop : Fetches (uopS .nop id) T .nop (fetched (uopS .nop id) T) ∧
    ((uopS .nop id).tile U).s.seq ≠ .run ∧ ((uopS .nop id).tile T).q.waiting = none ∧
    (let w : Waiter := { slots := [0, 447], full := true, ahead := 0 }
     ((uopS .nop fun x => { x with q := { x.q with waiting := some w } }).tile T).q.waiting = some w ∧ w.full = decide ((2 : Nat) = 2)) ∧
    okd (uopBody T .nop ((uopS .nop id).setTile T (fetched (uopS .nop id) T))) (fun _ => true) = true ∧
    okd (uopBody T (.mov 0 0x83 0) ((uopS (.mov 0 0x83 0) id).setTile T (fetched (uopS (.mov 0 0x83 0) id) T))) (fun _ => true) = false :=
  ⟨fetches_of (by decide), by decide⟩
theorem test_nop : ((go (.nop T) (uopS .nop id)).tile T).s.pc = 1 := by decide +kernel
/-- R154: a MOV of two queue entries where the oldest is a token is illegal: FAULT with FCAUSE 1, PC stays. -/
theorem test_token_is_illegal :
    let s := go (.mov T 0 0x80 0) (uopS (.mov 0 0x80 0) (withQ 0 [tokE 0 0]))
    (s.tile T).s.seq = .fault ∧ (s.tile T).s.fcause = 1 ∧ (s.tile T).s.pc = 0 := by decide +kernel
/-- R165: an empty queue blocks: BLK 1 with the queue. -/
theorem test_empty_queue_blocks : let s := go (.mov T 0 0x83 0) (uopS (.mov 0 0x83 0) id)
    (s.tile T).s.seq = .blocked ∧ (s.tile T).s.blk = 1 ∧ (s.tile T).s.blkarg = 3 := by decide +kernel

theorem witness_MicroOpRetirement :
    (((uopS .nop id).tile T).r.loops = [] ∧ ((uopS .nop id).tile T).s.seq = .run) ∧
    (let l : LoopReg := { lvl := 0, cnt := 2, first := 0, last := 0, unt := false, uq := 0, utk := 0 }
     let s := uopS .nop fun x => { x with r := { x.r with loops := [l] } }
     (s.tile T).r.loops = [l] ∧ (s.tile T).s.seq = .run ∧ l.lvl < 4 ∧ l.unt = false ∧ l.last < 1 ∧ 1 < l.cnt) ∧
    (let l : LoopReg := { lvl := 3, cnt := 1, first := 0, last := 0, unt := false, uq := 0, utk := 0 }
     let s := uopS .nop fun x => { x with r := { x.r with loops := [l] } }
     (s.tile T).r.loops = [l] ∧ (s.tile T).s.seq = .run ∧ l.lvl < 4 ∧ l.unt = false ∧ l.last < 1 ∧ l.cnt ≤ 1) := by decide +kernel

theorem witness_ControlMicroOpsComplete_nop : Fetches (uopS .nop id) T .nop (fetched (uopS .nop id) T) := fetches_of (by decide)
def loopU : Uop := .loop 0 0 511 false 0 0
theorem witness_ControlMicroOpsComplete_loop : Fetches (uopS loopU id) T loopU (fetched (uopS loopU id) T) ∧
    (fetched (uopS loopU id) T).r.loops = [] ∧ (fetched (uopS loopU id) T).s = ((uopS loopU id).tile T).s ∧
    ((uopS loopU id).tile T).s.pc.toNat + (511 : BitVec 9).toNat ≤ 511 ∧ (511 : BitVec 9).toNat ≠ 0 := ⟨fetches_of (by decide), by decide⟩
/-- R132: TRIP 0 stands for 2^24. -/
theorem test_loop_trip_zero : ((go (.loop T 0 0 511 false 0 0) (uopS loopU id)).tile T).r.loops =
    [{ lvl := 0, cnt := 2 ^ 24, first := 1, last := 511, unt := false, uq := 0, utk := 0 }] := by decide +kernel
def bselU : Uop := .bsel 0 1 2 0 3
def bselS (v : Nat) : State := uopS bselU (withQ 0 [tokE 3 v])
theorem witness_ControlMicroOpsComplete_bsel : ∀ v ∈ [0, 2, 3], Fetches (bselS v) T bselU (fetched (bselS v) T) ∧
    okd ((fetched (bselS v) T).look (0 : BitVec 3).toNat 0 1) (fun r => decide (r.1 = [tokE 3 v])) = true ∧ (tokE 3 v).tok = true ∧ (tokE 3 v).kind = 3 ∧ (tokE 3 v).val < 4 ∧
    (fetched (bselS v) T).s.pc.toNat + 1 + (1 : BitVec 9).toNat + (2 : BitVec 9).toNat + (0 : BitVec 9).toNat + (3 : BitVec 9).toNat ≤ 512 := by
  intro v hv
  simp only [List.mem_cons, List.not_mem_nil, or_false] at hv
  rcases hv with rfl | rfl | rfl
  · exact ⟨fetches_of (by decide), by decide⟩
  · exact ⟨fetches_of (by decide), by decide⟩
  · exact ⟨fetches_of (by decide), by decide⟩
/-- R133: choice 2 is empty and goes past all; choice 3 begins after the others. -/
theorem test_bsel : ((go (.bsel T 0 1 2 0 3) (bselS 2)).tile T).s.pc = 7 ∧ ((go (.bsel T 0 1 2 0 3) (bselS 3)).tile T).s.pc = 4 := by decide +kernel
theorem witness_ControlMicroOpsComplete_end : Fetches (uopS .endOp id) T .endOp (fetched (uopS .endOp id) T) ∧ Fetches (uopS .halt id) T .halt (fetched (uopS .halt id) T) ∧
    (fetched (uopS .halt id) T).r.loops = [] ∧ (fetched (uopS .halt id) T).s.seq = .run :=
  ⟨fetches_of (by decide), fetches_of (by decide), by decide, by decide⟩
theorem test_end_halt : ((go (.endOp T) (uopS .endOp id)).tile T).s.seq = .idle ∧ ((go (.halt T) (uopS .halt id)).tile T).s.seq = .halted := by decide +kernel

/-! ### Exact sums and numbers (R73 to R97) -/

/-- The word of a window index and 120 significand bits (R73, R74). -/
def xsw (i sig : Nat) : Quad := BitVec.ofNat 128 (i * 2 ^ 120 + sig)
theorem witness_ExactSumAdds : xsWin (xsw 0 0) < 0xF0 ∧ xsWin (xsw 0xEF 0) < 0xF0 ∧ xsSig (xsw 0 (2 ^ 119 - 1)) = 2 ^ 119 - 1 ∧
    xsSig (xsw 0 (2 ^ 119)) = -(2 ^ 119) := by decide +kernel
/-- R78 at the end of the significand: 2^119 - 1 and 0 stay, 2^119 - 1 and 1 leave it. -/
theorem test_xs_add_limit : xsAdd (xsw 0 (2 ^ 119 - 1)) (xsw 0 0) = xsw 0 (2 ^ 119 - 1) ∧ xsNum (xsAdd (xsw 0 (2 ^ 119 - 1)) (xsw 0 1)) = .range := by decide +kernel

theorem witness_SpecialSumsFollowPrecedence : xsNum (xsw 0xFE 0) = .range ∧ xsNum (xsw 0xFF 0) = .nan ∧ xsNum (xsw 0xFC 0) = .inf false ∧
    xsNum (xsw 0xFD 0) = .inf true ∧ xsWin (xsw 0 0) < 0xF0 ∧ xsNum (xsw 0 0) ≠ .nan ∧ xsNum (xsw 0 0) ≠ .inf true := by decide +kernel
theorem witness_ExactSumsIgnoreOrderAndGrouping :
    (SumTree.add (.word 1) (.add (.word 2) (.word 3))).Exact ∧ (SumTree.add (.add (.word 3) (.word 1)) (.word 2)).Exact ∧
    (SumTree.add (.add (.word 3) (.word 1)) (.word 2)).words.Perm (SumTree.add (.word 1) (.add (.word 2) (.word 3))).words := by
  refine ⟨by simp only [SumTree.Exact, FiniteWord]; decide, by simp only [SumTree.Exact, FiniteWord]; decide, by simp only [SumTree.words]; decide⟩

/-! ### Operands (R106 to R129, R137) -/

def loads (x : Tile) (a n : Nat) : Bool :=
  match x.load a n with
  | .ok _ => true
  | .error _ => false

def opS (f : Tile → Tile) : State := uopS .nop f
/-- Tags of all AM and PM slots set. -/
def fullTags (x : Tile) : Tile := { x with amTag := BitVec.allOnes 192, pmTag := BitVec.allOnes 256 }

/-- A word of the tile is beyond the code (R155). -/
def lostWord (w : CodeWord) (x : Tile) : Tile := { x with defects := { x.defects with sram := [(w.1, w.2, .uncorrectable)] } }
theorem witness_SourceOperands_plain : opsKind 0x1F = 0 ∧ opsKind 0xC0 = 3 ∧ opsKind 0x4F = 1 ∧ (0x4F : Ops).getLsbD 4 = false ∧
    okd (((opS id).tile T).need (vWords (opsNum 0x1F 32) 1).contains) (fun _ => true) = true ∧
    okd (((opS (lostWord (vWord 31 1))).tile T).need (vWords (opsNum 0x1F 32) 1).contains) (fun _ => true) = false ∧
    (let s := opS (withA 7 0x7FF0 16)
     okd ((s.tile T).need fun w => decide (w = aWord (opsNum 0x4F 8))) (fun y => loads y ((s.tile T).areg (opsNum 0x4F 8)).cur.toNat 16) = true ∧
     accessible ((s.tile T).areg (opsNum 0x4F 8)).cur.toNat 16 = true ∧ ((s.tile T).areg (opsNum 0x4F 8)).cur.toNat < 0xF000) ∧
    (let s := opS (withA 7 0xF1F8 8)
     let a := ((s.tile T).areg (opsNum 0x4F 8)).cur.toNat
     accessible a 8 = true ∧ 0xF000 ≤ a ∧ a % 8 = 0 ∧ okd ((s.tile T).need fun w => decide (w = aWord (opsNum 0x4F 8))) (fun y =>
       okd (y.need fun w => (List.range (8 / 8)).any fun i => regWords (a - 0xF000 + 8 * i) w) fun _ => true) = true) ∧
    accessible 0xEFFF 16 = false := by decide +kernel
theorem witness_SourceOperands_tagged : opsKind 0x50 = 1 ∧ (0x50 : Ops).getLsbD 4 = true ∧ tagSlots 0x8008 16 = none ∧
    (let s := opS (withA 0 0x8000 0)
     tagSlots ((s.tile T).areg (opsNum 0x50 8)).cur.toNat 64 = some [0] ∧ (s.tile T).ready [0] true = false ∧
     okd ((s.tile T).need fun w => decide (w = aWord 0)) (fun y => y.mustWaitLocal [0] true) = true) ∧
    (let s := opS fun x => withA 0 0xBFF0 0 (fullTags x)
     tagSlots ((s.tile T).areg (opsNum 0x50 8)).cur.toNat 16 = some [447] ∧ (s.tile T).ready [447] true = true ∧ (s.tile T).q.parked = [] ∧
     (s.tile T).q.held = [] ∧ okd ((s.tile T).need fun w => decide (w = aWord 0)) (fun y => !y.mustWaitLocal [447] true && loads y 0xBFF0 16) = true) := by
  decide +kernel
theorem witness_SourceOperands_queue : opsKind 0x87 = 2 ∧
    okd (((opS (withQ 7 [dataE 5, dataE 6])).tile T).look (opsNum 0x87 8) 0 ((17 + 15) / 16)) (fun r => decide (r.1 = [dataE 5, dataE 6])) = true ∧
    okd (((opS (withQ 7 [dataE 5, tokE 4 0])).tile T).look (opsNum 0x87 8) 0 ((17 + 15) / 16)) (fun r => decide (r.1 = [dataE 5] ++ [tokE 4 0])) = true ∧
    okd (((opS (withQ 7 [tokE 0 0])).tile T).look (opsNum 0x87 8) 0 ((17 + 15) / 16)) (fun r => decide (r.1 = [] ++ [tokE 0 0])) = true ∧
    (tokE 4 0).kind = 4 ∧ (tokE 0 0).kind ≠ 4 ∧
    (let es := (((opS (withQ 7 [dataE 5])).tile T).queue (opsNum 0x87 8)).visible.take ((17 + 15) / 16)
     (∀ e ∈ es, e.tok = false) ∧ es.length < (17 + 15) / 16) := by decide +kernel
/-- R117: a tagged read of the whole slot empties it; R129: two entries leave in order. -/
theorem test_source_pops : ((go (.mov T 0 0x87 1) (uopS (.mov 0 0x87 1) (withQ 7 [dataE 5, dataE 6, dataE 7]))).tile T).r.v = [(0, 5), (1, 6)] := by decide +kernel

theorem witness_DestinationOperands : opsKind 0xC0 = 3 ∧ opsKind 0x1C = 0 ∧ opsKind 0x8F = 2 ∧ ((List.replicate 64 0 : List Byte).length ≤ 64) ∧ opsKind 0x40 = 1 ∧
    (0x40 : Ops).getLsbD 4 = false ∧ (0x50 : Ops).getLsbD 4 = true ∧
    (let s := opS (withA 0 0xA7F0 0)
     okd ((s.tile T).need fun w => decide (w = aWord (opsNum 0x40 8))) (fun _ => true) = true ∧ ((s.tile T).areg (opsNum 0x40 8)).cur.toNat + 16 ≤ 0xA800) ∧
    (let s := opS (withA 0 0xBFF0 0)
     let a := ((s.tile T).areg (opsNum 0x50 8)).cur.toNat
     0xB000 ≤ a ∧ a + 16 ≤ 0xC000 ∧ tagSlots a 16 = some [447] ∧
     okd ((s.tile T).need fun w => decide (w = aWord (opsNum 0x50 8))) (fun y => !y.mustWaitLocal [447] false) = true) ∧
    (let s := opS (withA 0 0xF1F8 0)
     let a := ((s.tile T).areg (opsNum 0x40 8)).cur.toNat
     0xF000 ≤ a ∧ a + 8 ≤ 0xF200 ∧ a % 8 = 0) ∧
    (((opS (withA 0 0xA800 0)).tile T).areg (opsNum 0x40 8)).cur.toNat = 0xA800 ∧ (((opS (withA 0 0xC000 0)).tile T).areg (opsNum 0x40 8)).cur.toNat = 0xC000 ∧
    (((opS (withA 0 0xF200 0)).tile T).areg (opsNum 0x40 8)).cur.toNat = 0xF200 ∧
    (let s := opS fun x => withA 0 0xB000 0 (fullTags x)
     tagSlots ((s.tile T).areg (opsNum 0x50 8)).cur.toNat 16 = some [192] ∧
     okd ((s.tile T).need fun w => decide (w = aWord (opsNum 0x50 8))) (fun y => y.mustWaitLocal [192] false) = true) := by decide +kernel

/-- Port `n` of tile `T` with a descriptor and credits; router `T` knows that logical tile (1, 0) is at `U`. -/
def withPort (n : Nat) (desc : Word) (credits : Nat) (x : Tile) : Tile :=
  x.setPort n { Port.reset with desc := desc, cursor := desc.extractLsb' 25 16, prod := { Producer.reset with credits := credits } }
def toU : Word × Word := (fld 63 63 1 ||| fld 62 52 1 ||| fld 51 42 0 ||| fld 41 31 U.px ||| fld 30 21 U.py, 0)
def scarfU (s : State) : State := s.modRouter T fun r => { r with scarf0 := [(0, toU)] }
def portS (kind credits : Nat) : State := scarfU (opS (withPort 15 (fld 63 62 kind ||| fld 61 51 1 ||| fld 40 25 0x8000) credits))
theorem witness_PortSends :
    (let p := ((portS 0 2).tile T).port 15
     p.kind ≠ 3 ∧ p.prod.held = false ∧ 2 ≤ p.prod.credits ∧ p.prod.closing = none ∧ ((portS 0 2).router T).scarf p.lt = some (U, false) ∧ p.prod.credits < 3) ∧
    (let p := ((portS 0 2).tile T).port 14
     p.kind ≠ 3 ∧ p.prod.held = false ∧ 0 ≤ p.prod.credits ∧ ((portS 0 2).router T).scarf p.lt = none) ∧
    (((portS 1 0).router T).scarf (((portS 1 0).tile T).port 15).lt = some (U, false)) := by decide +kernel
/-- Fountain 7 from this tile to logical tile (1, 0); port 15 is its node. -/
def fountF : FountRec := { fid := 7, nodes := [{ t := { x := 0, y := 0 }, parent := 0, q := 2, leaf := false }, { t := { x := 1, y := 0 }, parent := 0, q := 2, leaf := true }] }
def fountS (known : Bool) : State :=
  let s := opS (withPort 15 (fld 63 62 3 ||| fld 40 25 7) 16)
  let s := { s with comp := { s.comp with hosts := [((LT.mk 0 0).key, some T)] } }
  s.modRouter T fun r => { r with scarf0 := if known then [(0, toU)] else [], fab0 := { FabTables.empty with founts := [fountF] } }
theorem witness_PortSends_fountain : let p := ((fountS true).tile T).port 15
    p.kind = 3 ∧ p.prod.held = false ∧ 16 ≤ p.prod.credits ∧ p.prod.closing = none ∧ (fountS true).fountRow T (p.addr % 4096) = some fountF ∧
    fountF.nodes[0]? = some { t := { x := 0, y := 0 }, parent := 0, q := 2, leaf := false } ∧ (fountS true).runsAt { x := 0, y := 0 } = T ∧
    (∀ c ∈ fountF.children 0, (((fountS true).router T).scarf c.2.t).isSome = true) ∧
    (fountS false).fountRow T (p.addr % 4096) = some fountF ∧
    ((fountF.children 0).find? fun c => (((fountS false).router T).scarf c.2.t).isNone) = some (1, { t := { x := 1, y := 0 }, parent := 0, q := 2, leaf := true }) := by
  decide +kernel
/-- R137, R167: an EMIT spends one credit and sends one QSEND to the destination's host. -/
theorem test_emit : let s := go (.emit T 15 0 0x55) ((uopS (.emit 15 0 0x55) (withPort 15 (fld 61 51 1) 2) |> scarfU))
    (((s.tile T).port 15).prod.credits = 1) ∧ (s.comp.net.map fun p => (p.op, p.dst, p.body.map fun f => (f.tok, f.data.toNat % 2 ^ 19))) =
      [(opQsend, .tile U, [(true, 0x55 * 8)])] := by decide +kernel

/-! ### Data movement, arithmetic, conversion, synchronisation (R131 to R149, R171 to R173, R309 to R318) -/

def movU : Uop := .mov 0x1C 0x00 3
theorem witness_DataMovementCompletes_mov : Fetches (uopS movU id) T movU (fetched (uopS movU id) T) ∧
    okd (((uopS movU id).setTile T (fetched (uopS movU id) T)).readOp T 0x00 64) (fun r => okd (r.2.writeOp T 0x1C r.1) fun _ => true) = true :=
  ⟨fetches_of (by decide), by decide⟩
def ldsU : Uop := .lds true true 0 0x02
theorem witness_DataMovementCompletes_lds : Fetches (uopS ldsU id) T ldsU (fetched (uopS ldsU id) T) ∧
    okd (((uopS ldsU id).setTile T (fetched (uopS ldsU id) T)).readOp T 0x02 16) (fun _ => true) = true := ⟨fetches_of (by decide), by decide⟩
theorem test_lds : let s := go (.lds T true true 3 0x02) (uopS (.lds true true 3 0x02) (withV 2 0x0102030405))
    ((s.tile T).r.k1.active.take 3, (s.tile T).r.k1.len, (s.tile T).r.k1.cursor) = ([0x05, 0x04, 0x03], 3, 0) := by decide +kernel
def setaU : Uop := .seta 7 0xB000 0x10
def addaU : Uop := .adda 7 0xFFFF
theorem witness_DataMovementCompletes_address : Fetches (uopS setaU id) T setaU (fetched (uopS setaU id) T) ∧ Fetches (uopS addaU id) T addaU (fetched (uopS addaU id) T) ∧
    okd ((fetched (uopS addaU id) T).need fun w => decide (w = aWord 7)) (fun _ => true) = true :=
  ⟨fetches_of (by decide), fetches_of (by decide), by decide⟩
/-- R138: A5.CUR + IMM wraps in 16 bits. -/
theorem test_adda : ((go (.adda T 7 0xFFFF) (uopS addaU (withA 7 0x8000 16))).tile T).areg 7 = { cur := 0x7FFF, stride := 16 } := by decide +kernel
def tagsU : Uop := .tags 0 true 0
def tagsV : Uop := .tags 0 true 160
theorem witness_DataMovementCompletes_tags :
    (let s := uopS tagsU (withA 0 0xB000 0)
     Fetches s T tagsU (fetched s T) ∧ slotAt ((fetched s T).areg 0).cur.toNat = some 192 ∧ (192 ≤ 192 ∧ 192 + 256 ≤ 448) ∧
     okd ((fetched s T).need fun w => decide (w = aWord 0)) (fun _ => true) = true) ∧
    (let s := uopS tagsV (withA 0 0x8000 0)
     Fetches s T tagsV (fetched s T) ∧ slotAt ((fetched s T).areg 0).cur.toNat = some 0 ∧ 0 + 160 ≤ 160) :=
  ⟨⟨fetches_of (by decide), by decide⟩, fetches_of (by decide), by decide⟩
def rgetU : Uop := .rget 15 0x00 0 0x10
theorem witness_DataMovementCompletes_rget :
    (let s := scarfU (uopS rgetU (withPort 15 (fld 63 62 1 ||| fld 61 51 1 ||| fld 40 25 0x8000) 0))
     Fetches s T rgetU (fetched s T) ∧ (fetched s T).s.arrived = false ∧ ((fetched s T).port 15).kind = 1 ∧
     (s.router T).scarf ((fetched s T).port 15).lt = some (U, false)) ∧
    (let s := uopS rgetU fun x => { x with s := { x.s with arrived := true }, q := { x.q with got := some (List.replicate 16 0xAB) } }
     Fetches s T rgetU (fetched s T) ∧ (fetched s T).s.arrived = true ∧ (fetched s T).q.got = some (List.replicate 16 0xAB) ∧
     okd ((s.setTile T (fetched s T)).writeOp T 0x00 (List.replicate 16 0xAB)) (fun _ => true) = true) :=
  ⟨⟨fetches_of (by decide), by decide⟩, fetches_of (by decide), by decide⟩
theorem test_rget_waits : let s := go (.rget T 15 0x00 0 0x10) (scarfU (uopS rgetU (withPort 15 (fld 63 62 1 ||| fld 61 51 1 ||| fld 40 25 0x8000) 0)))
    ((s.tile T).s.blk, (s.tile T).s.blkarg, s.comp.net.map fun p => (p.op, p.addr)) = (5, 15, [(opRdRaw, 0x8010)]) := by decide +kernel
def rregU : Uop := .rreg 31 1
theorem witness_DataMovementCompletes_rreg : Fetches (uopS rregU id) T rregU (fetched (uopS rregU id) T) ∧
    okd ((fetched (uopS rregU id) T).need (regWords (8 * 1))) (fun _ => true) = true := ⟨fetches_of (by decide), by decide⟩
def wregU : Uop := .wreg 4 3
def wregC : Uop := .wreg 4 2
theorem witness_TileRegisterWrites : Fetches (uopS wregU id) T wregU (fetched (uopS wregU id) T) ∧ (3 : BitVec 6).toNat ≠ 2 ∧ (2 : BitVec 6).toNat = 2 ∧
    okd ((fetched (uopS wregU id) T).need fun w => decide (w = vWord 4 0)) (fun _ => true) = true ∧
    (∀ v ∈ [(0 : Quad), 8, 9, 4, 5], let s := uopS wregC (withV 4 v)
      Fetches s T wregC (fetched s T) ∧ okd ((fetched s T).need fun w => decide (w = vWord 4 0)) (fun _ => true) = true ∧
      Tab.get (0 : Quad) (fetched s T).r.v (4 : BitVec 5).toNat = v ∧ (fetched s T).r.loops = []) ∧
    ((8 : Quad).getLsbD 2 = false ∧ (8 : Quad).getLsbD 0 = false ∧ (9 : Quad).getLsbD 2 = false ∧ (9 : Quad).getLsbD 0 = true ∧ (5 : Quad).getLsbD 2 = true) ∧
    (withSeq .run Tile.reset).s.seq ≠ .idle ∧ (withSeq .run Tile.reset).s.seq ≠ .halted ∧ (withSeq .run Tile.reset).s.seq ≠ .reset ∧
    (withSeq .halted Tile.reset).s.seq = .halted := by
  refine ⟨fetches_of (by decide), by decide, by decide, by decide, ?_, by decide⟩
  intro v hv
  simp only [List.mem_cons, List.not_mem_nil, or_false] at hv
  rcases hv with rfl | rfl | rfl | rfl | rfl
  all_goals exact ⟨fetches_of (by decide), by decide⟩
/-- R160: TILE_CFG takes ENTRY and STARTQ. -/
theorem test_wreg : let x := (go (.wreg T 4 3) (uopS wregU (withV 4 0x000001FF00070000))).tile T
    (x.c.entry, x.c.startq, x.s.pc) = (0x1FF, 7, 1) := by decide +kernel
def fmaU : Uop := .fma 0x00 0x01 0x02 0xC0
def xaddU : Uop := .xadd 0x00 0x01 0x02
def vopU : Uop := .vop 7 0x00 0x01 0x02 0x1B
def read2 (u : Uop) (a b : Ops) (n : Nat) (w : State → Bool) : Bool :=
  okd (((uopS u id).setTile T (fetched (uopS u id) T)).readOp T a n) fun r => okd (r.2.readOp T b n) fun q => w q.2
theorem witness_ArithmeticCompletes_lanes : Fetches (uopS fmaU id) T fmaU (fetched (uopS fmaU id) T) ∧ Fetches (uopS xaddU id) T xaddU (fetched (uopS xaddU id) T) ∧
    Fetches (uopS vopU id) T vopU (fetched (uopS vopU id) T) ∧
    (((uopS fmaU id).setTile T (fetched (uopS fmaU id) T)).tile T).defects.mac = false ∧ (((uopS xaddU id).setTile T (fetched (uopS xaddU id) T)).tile T).defects.mac = false ∧
    read2 fmaU 0x01 0x02 16 (fun s => okd (s.readOp T 0xC0 16) fun r => okd (r.2.writeOp T 0x00 (List.replicate 16 0)) fun _ => true) = true ∧
    read2 xaddU 0x01 0x02 16 (fun s => okd (s.writeOp T 0x00 (List.replicate 16 0)) fun _ => true) = true ∧
    read2 vopU 0x01 0x02 16 (fun s => okd (s.writeOp T 0x00 (List.replicate 16 0)) fun _ => true) = true :=
  ⟨fetches_of (by decide), fetches_of (by decide), fetches_of (by decide), by decide⟩
/-- R142: SHUF with SEL 0x1B reverses the lanes. -/
theorem test_vop_shuf : Tab.get (0 : Quad) ((go (.vop T 7 0x00 0x01 0x02 0x1B) (uopS vopU (withV 1 0x00000004000000030000000200000001))).tile T).r.v 0 =
    0x00000001000000020000000300000004 := by decide +kernel
/-- R87: 1.0 × 2.0 + 0 in each lane. -/
theorem test_fma : Tab.get (0 : Quad) ((go (.fma T 0x00 0x01 0x02 0xC0) (uopS fmaU fun x => withV 1 0x3F8000003F8000003F8000003F800000 (withV 2 0x40000000400000004000000040000000 x))).tile T).r.v 0 =
    0x40000000400000004000000040000000 := by decide +kernel
def dotU : Uop := .dot 5 5 0 0 0x00 0x04 7 true false 0
def dotW : Uop := .dot 5 5 0 0 0x00 0x04 7 true true 0x40
def dotB : Uop := .dot 6 6 0 0 0x00 0x04 7 true false 0
def dotBW : Uop := .dot 6 6 0 0 0x00 0x04 7 false true 0x40
theorem witness_ArithmeticCompletes_dot : Fetches (uopS dotU id) T dotU (fetched (uopS dotU id) T) ∧ Fetches (uopS dotW id) T dotW (fetched (uopS dotW id) T) ∧
    Fetches (uopS dotB id) T dotB (fetched (uopS dotB id) T) ∧ Fetches (uopS dotBW id) T dotBW (fetched (uopS dotBW id) T) ∧ (5 : BitVec 4).toNat ≠ 6 ∧
    (∀ u ∈ [dotU, dotW, dotB, dotBW], (((uopS u id).setTile T (fetched (uopS u id) T)).tile T).defects.mac = false) ∧
    (∀ u ∈ [dotU, dotW, dotB, dotBW], read2 u 0x00 0x04 32 (fun s => okd (s.takeScale T false 0) fun r => okd (r.2.takeScale T true 0) fun q =>
      okd (q.2.readV T 7) fun v => okd (v.2.writeBack T 0x40 (List.replicate 16 0)) fun _ => true) = true) ∧
    blockOf (0 : BitVec 2).toNat = 0 ∧
    (∀ n ∈ [3, 5], ∀ l ∈ [true, false], okd ((uopS dotU fun x => { x with r := { x.r with k1 := { x.r.k1 with len := 5, loaded := l } } }).takeScale T true n) (fun _ => true) = true) :=
  ⟨fetches_of (by decide), fetches_of (by decide), fetches_of (by decide), fetches_of (by decide), by decide⟩
theorem witness_NumberFunctions : decFmt fmtB32 0x7FC00000 = .nan ∧ decFmt fmtB32 0x3F800000 ≠ .nan ∧ (3 : Nat) < 4 ∧
    (.nan : Sys2Proof.Machine.Num) ∈ [(.nan : Sys2Proof.Machine.Num)] ∧ (0 : Int) ≤ 0 ∧ 0 < 1 := by decide +kernel
def cvtU : Uop := .cvt 6 0 false false 0x00 0x01 false 0 false
def cvtP : Uop := .cvt 6 2 false false 0x00 0x01 true 0 false
theorem witness_ConversionsComplete_cvt : ∀ u ∈ [cvtU, cvtP], Fetches (uopS u id) T u (fetched (uopS u id) T) ∧
    okd (((uopS u id).setTile T (fetched (uopS u id) T)).readOp T 0x00 16) (fun r => decide ((r.2.tile T).r.pack.count + 2 * fmtWidth 6 ≤ 128) &&
      decide ((r.2.modes T 0 false 0 1).length = 1) && decide ((r.2.modes T 2 false 0 1).length = 1) && okd (r.2.packAll T 0x01 16 [1, 2, 3, 4]) (fun _ => true) && okd (r.2.writeOp T 0x01 (List.replicate 16 0)) fun _ => true) = true ∧
    0 < fmtWidth 6 ∧ (let k := ((uopS u id).tile T).r.pack
      k.count + 16 + 16 ≤ 128) ∧
    (let s := uopS u fun x => { x with r := { x.r with pack := { bits := 0, count := 112 } } }
     128 < (s.tile T).r.pack.count + 16 + 16 ∧ okd (s.writeOp T 0x01 (List.replicate 16 0)) (fun _ => true) = true) := by
  intro u hu
  simp only [List.mem_cons, List.not_mem_nil, or_false] at hu
  rcases hu with rfl | rfl
  · exact ⟨fetches_of (by decide), by decide⟩
  · exact ⟨fetches_of (by decide), by decide⟩
def cvtbU : Uop := .cvtb 5 0 1 true false 0 1 2 0 false
theorem witness_ConversionsComplete_cvtb : let s := uopS cvtbU fun x => withA 1 0x1000 0 (withA 2 0x2000 0 x)
    Fetches s T cvtbU (fetched s T) ∧
    okd ((s.setTile T (fetched s T)).readRun T 0 false (32 / 4)) (fun r => okd (r.2.writeRun T 1 (List.replicate 32 0)) fun q => okd (q.writeRun T 2 [0]) fun _ => true) = true :=
  ⟨fetches_of (by decide), by decide⟩
def emitU : Uop := .emit 15 4 0xFFFF
theorem witness_SyncMicroOpsComplete_emit : (let s := scarfU (uopS emitU (withPort 15 (fld 61 51 1) 1))
    let q := (fetched s T).port (15 : BitVec 4).toNat
    Fetches s T emitU (fetched s T) ∧ q.kind = 0 ∧ q.prod.held = false ∧ 1 ≤ q.prod.credits ∧ q.prod.closing = none ∧ (s.router T).scarf q.lt = some (U, false)) ∧
    (let s := (uopS emitU (withPort 15 (fld 63 62 3 ||| fld 40 25 7) 16)).modRouter T fun r => { r with scarf0 := [(0, toU)], fab0 := { FabTables.empty with founts := [fountF] } }
     Fetches s T emitU (fetched s T) ∧ ((fetched s T).port (15 : BitVec 4).toNat).kind = 3 ∧
     okd ((s.setTile T (fetched s T)).sendEntries T 15 [(s.setTile T (fetched s T)).token T 4 0xFFFF] (4 == 1 || 4 == 4)) (fun _ => true) = true) :=
  ⟨⟨fetches_of (by decide), by decide⟩, fetches_of (by decide), by decide⟩
def weirU : Uop := .weir 4095
/-- Tile `T` hosts LT(0, 0), member of weir 4095 of LT(0, 0) and LT(1, 0); `row` is what its router holds of the tree. -/
def weirF (sw : Nat) : Frame := { Frame.empty with
  weirs := [{ wid := 4095, sig := false, rects := [{ x0 := 0, y0 := 0, x1 := 1, y1 := 0 }] }]
  stepWeir := sw }
def weirRowS (row : WeirRow) (sw : Nat) (out : List Packet) : State :=
  let s := uopS weirU fun x => { x with q := { x.q with out := out } }
  let s := s.modOwn 0 fun o => { o with frame := some (weirF sw) }
  let s := { s with comp := { s.comp with hosts := [((LT.mk 0 0).key, some T)] } }
  let s := s.modBoot fun b => { b with rebuilt := some [] }
  s.modRouter T fun r => { r with scarf0 := [(0, toU)], fab0 := { FabTables.empty with weirs := [row] } }
def weirOk (s : State) : Bool :=
  let x := fetched s T
  let y := weirOf (s.ltPart { x := 0, y := 0 }) 4095 s
  !x.s.arrived && x.allAnswered && decide (s.hosted T = some { x := 0, y := 0 }) && decide (s.runsAt { x := 0, y := 0 } = T) &&
    decide (((s.frameOf (s.ltPart { x := 0, y := 0 })).weir 4095).map (·.sig) = some false) && !y.behind.contains (LT.mk 0 0).key &&
    !y.arrived.contains ((LT.mk 0 0).key, (LT.mk 0 0).key) && decide (x.s.sigSeq = x.s.sigChk)
def full0 (s : State) : Bool := (s.weirKids T 4095).all fun c => (weirOf 0 4095 s).arrived.contains ((LT.mk 0 0).key, c.key)
def upRow : WeirRow := { wid := 4095, parent := some { x := 1, y := 0 }, kids := [] }
def rootRow : WeirRow := { wid := 4095, parent := none, kids := [] }
theorem witness_SyncMicroOpsComplete_weir :
    (let s := weirRowS { rootRow with kids := [{ x := 1, y := 0 }] } 0xFFFF []
     Fetches s T weirU (fetched s T) ∧ weirOk s = true ∧ full0 s = false) ∧
    (let s := weirRowS upRow 0xFFFF []
     Fetches s T weirU (fetched s T) ∧ weirOk s = true ∧ full0 s = true ∧ ((s.weirRow T 4095).bind fun r => r.parent) = some { x := 1, y := 0 } ∧
     (s.router T).scarf { x := 1, y := 0 } = some (U, false)) ∧
    (let s := weirRowS rootRow 4095 []
     Fetches s T weirU (fetched s T) ∧ weirOk s = true ∧ full0 s = true ∧ ((s.weirRow T 4095).bind fun r => r.parent) = none ∧
     (s.frameOf (s.ltPart { x := 0, y := 0 })).stepWeir = 4095) :=
  ⟨⟨fetches_of (by decide), by decide⟩, ⟨fetches_of (by decide), by decide⟩, fetches_of (by decide), by decide⟩
theorem witness_SyncMicroOpsComplete_root :
    (let s := weirRowS rootRow 0xFFFF []
     Fetches s T weirU (fetched s T) ∧ weirOk s = true ∧ full0 s = true ∧ ((s.weirRow T 4095).bind fun r => r.parent) = none ∧
     (s.frameOf 0).stepWeir ≠ 4095 ∧ ((s.frameOf 0).weir 4095).bind (s.frameOf 0).weirRoot = some { x := 0, y := 0 } ∧
     (((s.frameOf 0).weir 4095).map fun w => w.members.contains { x := 0, y := 0 }) = some true ∧ (∀ kp ∈ (s.part 0).puts, kp.2.armed = false) ∧
     (fetched s T).r.loops = []) ∧
    (let s := weirRowS rootRow 0xFFFF [pk0]
     Fetches s T weirU (fetched s T) ∧ (fetched s T).s.arrived = false ∧ (fetched s T).allAnswered = false) :=
  ⟨⟨fetches_of (by decide), by decide⟩, fetches_of (by decide), by decide⟩
def setU : Uop := .float 1 9
def waitU : Uop := .float 2 9
/-- Tile `T` hosts LT(0, 0) in partition 0, whose float 9 has a shadow there with a value. -/
def floatS (u : Uop) (v : Bool) : State :=
  let s := (uopS u id).modBoot fun b => { b with rebuilt := some [] }
  let s := s.modRouter T fun r => { r with scarf0 := [(0, toU)], fab0 := { FabTables.empty with floats := [{ fid := 9, home := { x := 1, y := 0 }, notify := [] }] } }
  s.modRun 0 fun r => { r with floats := [(9, { value := v, count := 1, home := { x := 1, y := 0 }, shadows := [((LT.mk 0 0).key, (v, 1))], early := [] })] }
theorem witness_SyncMicroOpsComplete_float : Fetches (floatS setU true) T setU (fetched (floatS setU true) T) ∧ (fetched (floatS setU true) T).s.arrived = false ∧
    (1 : BitVec 2).toNat < 2 ∧ (floatS setU true).floatRow T 9 = some { fid := 9, home := { x := 1, y := 0 }, notify := [] } ∧
    ((floatS setU true).router T).scarf { x := 1, y := 0 } = some (U, false) ∧
    (∀ v ∈ [true, false], Fetches (floatS waitU v) T waitU (fetched (floatS waitU v) T) ∧ (fetched (floatS waitU v) T).s.arrived = false ∧ 2 ≤ (2 : BitVec 2).toNat ∧
      ((floatS waitU v).setTile T (fetched (floatS waitU v) T)).hosted T = some (LT.mk 0 0) ∧
      ((floatS waitU v).setTile T (fetched (floatS waitU v) T)).shadow (((floatS waitU v).setTile T (fetched (floatS waitU v) T)).ptPart T) 9 (LT.mk 0 0) = some (v, 1)) := by
  refine ⟨fetches_of (by decide), by decide, by decide, by decide, by decide, ?_⟩
  intro v hv
  simp only [List.mem_cons, List.not_mem_nil, or_false] at hv
  rcases hv with rfl | rfl
  · exact ⟨fetches_of (by decide), by decide⟩
  · exact ⟨fetches_of (by decide), by decide⟩
theorem witness_RangeExceededOncePerStep : ((opS id).tile T).c.rangeStep ≠ some ((opS id).stepNo ((opS id).ptPart T)) ∧
    (((opS id).rangeExceeded T).tile T).c.rangeStep = some (((opS id).rangeExceeded T).stepNo (((opS id).rangeExceeded T).ptPart T)) := by decide +kernel

/-! ### A small partition -/

/-- Bay 0 in service with idle tiles, all of it partition 1's, which runs Frame `f`. -/
def base (f : Frame) : State :=
  let s := State.reset.modBay 0 fun b => { b with supply := .on, sill := true, ripple := true, base := { Tile.reset with s := { TileSeq.reset with seq := .idle, before := .idle } } }
  let s := s.modBoot fun b => { b with stage := 13, st := .ready, rebuilt := some [] }
  let s := { s with phys := { s.phys with power := { s.phys.power with feed := true, segs := 0xFFFFFF }, clock := { s.phys.clock with rootLock := true } } }
  let s := s.setField (Reg.prtBayownk 0) 3 0 1
  s.modOwn 1 fun o => { o with present := true, frame := some f }
/-- Tile `T` changed. -/
def onT (f : Tile → Tile) (s : State) : State := s.modTile T f
def L0 : LT := { x := 0, y := 0 }
def L1 : LT := { x := 1, y := 0 }
/-- A packet to tile `T` from tile `U`. -/
def pkt (op : BitVec 5) (addr : Nat) (body : List Flitem) : Packet := { pk0 with op := op, addr := BitVec.ofNat 16 addr, body := body }
def arrivesB (s : State) (t : PT) (p : Packet) : Bool :=
  decide (p.dst = .tile t) && decide ((s.tile t).s.seq ≠ .plumb) && s.reaches t && s.epochOk t p
theorem arrives_of {s : State} {t : PT} {p : Packet} (h : arrivesB s t p = true) : Arrives s t p := by
  simp only [arrivesB, Bool.and_eq_true, decide_eq_true_eq] at h
  exact ⟨h.1.1.1, h.1.1.2, h.1.2, h.2⟩

/-! ### Tiles (R112, R115 to R125, R149 to R160) -/

/-- An idle tile with a start token in queue 5. -/
def startTok (k : Nat) : State := onT (fun x => withQ 5 [tokE k 0] { x with c := { x.c with startq := 5, entry := 0x1FF } }) (base Frame.empty)
def startS : State := startTok 0
theorem witness_SequencerCommandsComplete_start : ∀ k ∈ [0, 4], let s := startTok k
    let x := s.tile T
    x.s.seq = .idle ∧ s.runs (s.ptPart T) = true ∧ okd (x.look x.c.startq.toNat 0 1) (fun r => decide (r.1 = [tokE k 0])) = true ∧
    ((x.queue x.c.startq.toNat).pop.map fun r => r.1) = some (tokE k 0) ∧ (tokE k 0).tok = true ∧ (tokE k 0).kind = k := by decide +kernel
theorem test_start : let x := (go (.tileStart T) startS).tile T
    (x.s.seq, x.s.pc, x.s.inv, (x.queue 5).fifo) = (.run, 0x1FF, true, []) := by decide +kernel
/-- Blocked on an empty queue into which an entry has come. -/
def wokenS : State := onT (fun x => withQ 3 [dataE 1] (withSeq .blocked (x.store 0xC000 (leBytes 8 (encodeUop (.mov 0 0x83 0)).toNat)))) (base Frame.empty)
/-- The write of the micro-op at index 0 through port 3 has left. -/
def wroteD : Finish := { op := 0x08, next := 1, kind := 0, port := 3 }
theorem witness_SequencerCommandsComplete_others :
    ((wokenS.tile T).s.seq = .blocked ∧ wokenS.runs (wokenS.ptPart T) = true ∧ (wokenS.tile T).s.done = none ∧ (wokenS.tile T).s.check = none ∧ wokenS.available T = true) ∧
    (let s := onT (fun x => { x with s := { x.s with seq := .blocked, done := some wroteD } }) (base Frame.empty)
     (s.tile T).s.seq = .blocked ∧ s.runs (s.ptPart T) = true ∧ (s.tile T).s.done = some wroteD ∧ (s.tile T).writing = false ∧ (s.tile T).s.lost = false) ∧
    (let s := onT (withSeq .reset) (base Frame.empty)
     (s.tile T).s.seq = .reset ∧ s.tileFenced T = false ∧ s.phys.power.halted = false) ∧
    (∀ q ∈ [Seq.idle, .run, .blocked, .halted], ((onT (withSeq q) (base Frame.empty)).tile T).s.seq = q) ∧
    ((onT (withSeq .fault) (base Frame.empty)).tile T).s.seq ≠ .off := by decide +kernel
/-- R152: RESET empties the tags and answers a parked request with ERR RESET. -/
theorem test_reset : let s := go (.tileReset T) (onT (fun x => { fullTags x with q := { x.q with parked := [pkt opWrTag 0xB000 []] } }) (base Frame.empty))
    ((s.tile T).s.seq, (s.tile T).pmTag, s.comp.net.map fun p => (p.op, p.addr.toNat % 8)) = (.reset, 0, [(opErr, errReset)]) := by decide +kernel

def wr16 (op : BitVec 5) (a : Nat) : Packet := pkt op a [{ data := 0x0102, tok := false }]
def rd16 (op : BitVec 5) (a : Nat) : Packet := { pkt op a [] with ext := 16 }
theorem witness_RemoteRequestsAreServed_memory :
    (∀ pc ∈ [(wr16 opWrRaw 0x7FF0, Instr.wrRaw (wr16 opWrRaw 0x7FF0)), (wr16 opWrTag 0xBFF0, Instr.wrTag (wr16 opWrTag 0xBFF0))],
      requestInstr pc.1 = some pc.2 ∧ arrivesB (base Frame.empty) T pc.1 = true ∧ reqOk pc.1 = true ∧ pc.1.addr.toNat < 0xF000 ∧
      imBusy pc.1 ((base Frame.empty).tile T) = false ∧ ((base Frame.empty).tile T).mustWait pc.1 0 = false ∨ pc.1.op = opWrRaw) ∧
    (∀ pc ∈ [(rd16 opRdRaw 0x0000, Instr.rdRaw (rd16 opRdRaw 0x0000)), (rd16 opRdTag 0xB000, Instr.rdTag (rd16 opRdTag 0xB000)), (rd16 opRdKeep 0x8030, Instr.rdKeep (rd16 opRdKeep 0x8030))],
      let s := onT fullTags (base Frame.empty)
      requestInstr pc.1 = some pc.2 ∧ arrivesB s T pc.1 = true ∧ reqOk pc.1 = true ∧ pc.1.addr.toNat < 0xF000 ∧ imBusy pc.1 (s.tile T) = false ∧
      (pc.1.op = opRdRaw ∨ (s.tile T).mustWait pc.1 (s.tile T).q.parked.length = false) ∧ pkWrite pc.1 = false ∧ loads (s.tile T) pc.1.addr.toNat (pkBytes pc.1) = true) := by
  decide +kernel
theorem test_remote_write : let s := go (.wrTag (wr16 opWrTag 0xBFF0)) (base Frame.empty)
    (memRead (s.tile T).mem 0xBFF0 2, (s.tile T).tagOf 447, s.comp.net.map fun p => (p.op, p.dst)) = ([0x02, 0x01], true, [(opWrAck, .tile U)]) := by decide +kernel
theorem witness_RemoteRequestsAreServed_registers :
    arrivesB (base Frame.empty) T (wr16 opWrRaw 0xF018) = true ∧ reqOk (wr16 opWrRaw 0xF018) = true ∧ 0xF000 ≤ (wr16 opWrRaw 0xF018).addr.toNat ∧
    (let p := { rd16 opRdRaw 0xF1F8 with ext := 8 }
     arrivesB (base Frame.empty) T p = true ∧ reqOk p = true ∧ 0xF000 ≤ p.addr.toNat ∧ p.op = opRdRaw ∧
     (match ((base Frame.empty).tile T).checked (regWords (p.addr.toNat - 0xF000)) with
      | .ok _ => true
      | .error _ => false) = true) ∧
    (let p := rd16 opRdKeep 0xF000
     requestInstr p = some (.rdKeep p) ∧ arrivesB (base Frame.empty) T p = true) := by decide +kernel

theorem witness_RemoteRequestsTurnedAway :
    (let p := wr16 opWrRaw 0xA800
     requestInstr p = some (.wrRaw p) ∧ p.dst = .tile T ∧ arrivesB (base Frame.empty) T p = true ∧ reqOk p = false) ∧
    (let p := wr16 opWrRaw 0xCFF0
     let s := onT (withSeq .blocked) (base Frame.empty)
     requestInstr p = some (.wrRaw p) ∧ arrivesB s T p = true ∧ reqOk p = true ∧ imBusy p (s.tile T) = true) ∧
    (let p := rd16 opRdTag 0xB000
     let s := onT (fun x => { x with q := { x.q with parked := [p, p, p] } }) (base Frame.empty)
     requestInstr p = some (.rdTag p) ∧ arrivesB s T p = true ∧ reqOk p = true ∧ imBusy p (s.tile T) = false ∧
     (s.tile T).mustWait p (s.tile T).q.parked.length = true ∧ (s.tile T).q.parked.length < 4) ∧
    (let p := rd16 opRdTag 0xB000
     let s := onT (fun x => { x with q := { x.q with parked := [p, p, p, p] } }) (base Frame.empty)
     arrivesB s T p = true ∧ reqOk p = true ∧ imBusy p (s.tile T) = false ∧ (s.tile T).mustWait p (s.tile T).q.parked.length = true ∧ 4 ≤ (s.tile T).q.parked.length) ∧
    (let p := { rd16 opRdRaw 0 with ep := true }
     (base Frame.empty).reaches T = true ∧ (base Frame.empty).epochOk T p = false ∧ ((base Frame.empty).tile T).s.seq ≠ .plumb) ∧
    State.reset.reaches T = false ∧ (State.reset.tile T).s.seq ≠ .plumb := by decide +kernel
theorem test_fifth_waiter : let p := rd16 opRdTag 0xB000
    let s := go (.rdTag p) (onT (fun x => { x with q := { x.q with parked := [p, p, p, p] } }) (base Frame.empty))
    s.comp.net.map (fun q => (q.op, q.addr.toNat % 8)) = [(opErr, errBusy)] := by decide +kernel

def parkS (x : Tile → Tile) : State := onT (fun y => x { y with q := { y.q with parked := [rd16 opRdTag 0xB000] } }) (base Frame.empty)
def heldS : State := onT (fun y => { y with q := { y.q with held := [{ addr := 0xB000, data := List.replicate 16 7, ahead := 0 }] } }) (base Frame.empty)
theorem witness_ParkedWaitersProceed :
    (parkS fullTags).clockStands T = false ∧ heldS.clockStands T = false ∧
    (((parkS fullTags).tile T).q.parked[0]? = some (rd16 opRdTag 0xB000) ∧ ((parkS fullTags).tile T).mustWait (rd16 opRdTag 0xB000) 0 = false) ∧
    (((parkS id).tile T).q.parked[0]? = some (rd16 opRdTag 0xB000) ∧ ((parkS id).tile T).mustWait (rd16 opRdTag 0xB000) 0 = true) ∧
    (let w : Writeback := { addr := 0xB000, data := List.replicate 16 7, ahead := 0 }
     (heldS.tile T).q.held = [w] ∧ w.slots.contains 192 = true ∧ (heldS.tile T).ready w.slots false = true ∧ (heldS.tile T).s.seq ≠ .halted ∧ (heldS.tile T).q.parked = []) ∧
    (let x := (parkS fullTags).tile T
     x.q.held = [] ∧ x.q.waiting = none ∧ x.q.parked = [rd16 opRdTag 0xB000] ∧ (pkSlots (rd16 opRdTag 0xB000)).contains 192 = true ∧ x.parkedReady (rd16 opRdTag 0xB000) = true) ∧
    (let s := onT (fun x => fullTags (withA 0 0xB000 0 { (x.store 0xC000 (leBytes 8 (encodeUop (.mov 0 0x50 0)).toNat)) with
        s := { x.s with seq := .blocked, blk := 2 }, q := { x.q with waiting := some { slots := [192], full := true, ahead := 0 } } })) (base Frame.empty)
     (s.tile T).q.held = [] ∧ (s.tile T).q.parked = [] ∧ (s.tile T).localReady [192] 0 = true ∧ (s.tile T).s.seq = .blocked ∧ s.available T = true) ∧
    (∀ q ∈ [Seq.run, .blocked, .halted, .plumb], let s := onT (fun x => withSeq q { x with q := { x.q with reissues := [{ req := rd16 opRdRaw 0, at_ := 100 }] } }) (base Frame.empty)
     (s.tile T).q.reissues = [{ req := rd16 opRdRaw 0, at_ := 100 }] ∧ (s.tile T).s.seq = q ∧ s.runs (s.ptPart T) = true ∧ (100 : Nat) < 2 ^ 64) := by decide +kernel
theorem test_writeback_proceeds : let s := go (.taggedWaitProceed T 192) heldS
    ((s.tile T).q.held, memRead (s.tile T).mem 0xB000 1, (s.tile T).tagOf 192) = ([], [7], true) := by decide +kernel

/-- Tile `T` has asked tile `U` for something. -/
def askedS (q : Packet) (f : Tile → Tile) : State := onT (fun x => f { x with q := { x.q with out := [q] } }) (base Frame.empty)
def req (op : BitVec 5) : Packet := { pk0 with op := op, dst := .tile U, src := .tile T, tag := 5 }
def resp (op : BitVec 5) (a : Nat) : Packet := { pkt op a [{ data := 9, tok := false }] with tag := 5 }
theorem witness_ResponsesReachTheirRequester :
    (resp opWrAck 0).dst = .tile T ∧ (base Frame.empty).reaches T = true ∧ (askedS (req opWrTag) id).reaches T = true ∧
    ((askedS (req opWrTag) id).tile T).asked (resp opWrAck 0) writeOps = some (req opWrTag) ∧ ((askedS (req opWrTag) id).tile T).s.done = none ∧
    (let s := askedS (req opWrTag) fun x => { x with s := { x.s with seq := .blocked, done := some wroteD } }
     (s.tile T).asked (resp opWrAck 0) writeOps = some (req opWrTag) ∧ (s.tile T).s.done = some wroteD ∧ (s.tile T).s.lost = false ∧
     ((((s.take (resp opWrAck 0)).modTile T fun y => { y with q := { y.q with out := y.q.out.erase (req opWrTag) } }).tile T).writing = false)) ∧
    (let s := askedS (req opRdRaw) fun x => { (x.store 0xC000 (leBytes 8 (encodeUop (.rget 15 0 0 0)).toNat)) with s := { x.s with seq := .blocked, arrived := true } }
     (s.tile T).asked (resp opRdData 0) readOps = some (req opRdRaw) ∧ (s.tile T).uopAt = some (.rget 15 0 0 0) ∧ (s.tile T).s.arrived = true ∧ (s.tile T).s.seq = .blocked ∧
     okd ((((s.take (resp opRdData 0)).modTile T (Tile.answeredBy (req opRdRaw))).modTile T fun y => { y with q := { y.q with got := some (pkData (resp opRdData 0)) } }).writeOp T 0
       (pkData (resp opRdData 0))) (fun _ => true) = true) ∧
    (((askedS (req opRdTag) id).tile T).asked (resp opRdData 0) readOps = some (req opRdTag) ∧ ((askedS (req opRdTag) id).tile T).s.arrived = false) ∧
    (∀ k ∈ [errRefused, errBusy, errImBusy, errReset, errUncorr], ((askedS (req opRdKeep) id).tile T).asked (resp opErr k) (readOps ++ writeOps) = some (req opRdKeep) ∧
      (resp opErr k).addr.toNat % 8 = k) ∧
    ((base Frame.empty).tile T).asked (resp opWrAck 0) writeOps = none ∧ ((base Frame.empty).tile T).asked (resp opRdData 0) readOps = none ∧
    ((base Frame.empty).tile T).asked (resp opErr 0) (readOps ++ writeOps) = none := by decide +kernel
theorem test_busy_reissues : let s := go (.err (resp opErr errBusy)) (askedS (req opRdRaw) id)
    ((s.tile T).q.reissues.map fun r => r.req.op) = [opRdRaw] := by decide +kernel

/-! ### Queue, weir, float and rim packets (R165 to R171, R200, R278, R304 to R317, R438 to R449) -/

/-- Queue 0 of LT(0, 0) is bound to port 3 of LT(1, 0); fountain 7 runs from LT(1, 0) to LT(0, 0); weir 5 is of both; float 9. -/
def fr : Frame := { Frame.empty with
  queues := [{ t := L0, q := 0, prod := .port L1 3, inlet := false, start := false }]
  founts := [{ fid := 7, nodes := [{ t := L0, parent := 0, q := 2, leaf := true }, { t := L1, parent := 0, q := 2, leaf := true }] }]
  weirs := [{ wid := 5, sig := false, rects := [{ x0 := 0, y0 := 0, x1 := 1, y1 := 0 }] }]
  floats := [{ fid := 9, init := false }] }
/-- Router `T` knows that LT(1, 0) is at `U`, and the tables of its node, its weir row `row` and float 9. -/
def fab (row : WeirRow) : State := (base fr).modRouter T fun r => { r with
  scarf0 := [(0, toU)]
  fab0 := { founts := fr.founts, weirs := [row], floats := [{ fid := 9, home := L0, notify := [L1] }] } }
def row0 : WeirRow := { wid := 5, parent := none, kids := [] }
def qsendP (seq : BitVec 4) (f : Flitem) : Packet := { pkt opQsend 0 [f] with seq := seq }
def datum : Flitem := { data := 42, tok := false }
def stale : Flitem := { data := BitVec.ofNat 128 (2 ^ 80), tok := true }
theorem witness_QueuePacketsComplete_qsend :
    (∀ sq ∈ [(0 : BitVec 4), 1, 15], arrivesB (base fr) T (qsendP sq datum) = true ∧ (qsendP sq datum).body = [datum] ∧ (((base fr).tile T).queue 0).closed = false ∧ datum.tok = false) ∧
    (let s := onT (fun x => { x with queues := [(0, { Queue.reset with closed := true })] }) (base fr)
     arrivesB s T (qsendP 0 datum) = true ∧ ((s.tile T).queue 0).closed = true) ∧
    (((base fr).tile T).queue 0).next = (qsendP 0 datum).seq ∧ (((base fr).tile T).queue 0).early = [] ∧ (((base fr).tile T).queue 0).next ≠ (qsendP 15 datum).seq ∧
    (base fr).hosted T = some L0 ∧ (base fr).binding L0 0 = some { t := L0, q := 0, prod := .port L1 3, inlet := false, start := false } ∧
    arrivesB (base fr) T (qsendP 0 stale) = true ∧ stale.tok = true ∧ BitVec.ofNat 16 (stale.data.toNat / 2 ^ 80) ≠ ((base fr).tile T).c.gen := by decide +kernel
theorem test_qsend : let s := go (.qsend (qsendP 0 datum)) (base fr)
    ((((s.tile T).queue 0).fifo.map fun e => e.data), s.comp.net.map fun p => (p.op, p.dst, p.addr)) = ([42], [(opQAck, .tile U, 0x13)]) := by decide +kernel
theorem witness_QueuePacketsComplete_fount : let p := { pkt opFount 7 [datum] with part := 1 }
    let f : FountRec := { fid := 7, nodes := [{ t := L0, parent := 0, q := 2, leaf := true }, { t := L1, parent := 0, q := 2, leaf := true }] }
    arrivesB (fab row0) T p = true ∧ (fab row0).hosted T = some L0 ∧ (fab row0).fountRow T (p.addr.toNat % 4096) = some f ∧ f.nodeOf L0 = some 0 ∧
    f.nodes[0]? = some { t := L0, parent := 0, q := 2, leaf := true } ∧ (fab row0).runsAt L0 = T ∧
    (∀ c ∈ f.children 0, (((fab row0).router T).scarf c.2.t).isSome = true) ∧
    (let q := { pkt opQCredit (16 * 16) [] with ext := 8 }
     q.dst = .tile T ∧ (fab row0).reaches T = true ∧ q.ext ≠ 0 ∧ q.src = .tile U ∧ U ≠ T ∧ (fab row0).fountRow T (q.ext.toNat - 1) = some f ∧
     ((fab row0).hosted U).bind f.nodeOf = some 1) ∧
    (f.nodes[1]? = some { t := L1, parent := 0, q := 2, leaf := true } ∧ 1 ≠ 0 ∧ f.nodes[0]? = some { t := L0, parent := 0, q := 2, leaf := true }) := by decide +kernel
theorem test_fount : let s := go (.fount { pkt opFount 7 [datum] with part := 1 }) (fab row0)
    ((((s.tile T).queue 2).fifo.map fun e => e.data), (s.comp.net.filter fun p => p.op == opFount).map fun p => p.dst) = ([42], [.tile U]) := by decide +kernel
theorem witness_QueuePacketsComplete_credit :
    (let p := pkt opQCredit (3 + 16 * 16) []
     p.dst = .tile T ∧ (base fr).reaches T = true ∧ p.ext = 0 ∧ p.addr.getLsbD 9 = (((base fr).tile T).port 3).prod.phase) ∧
    (let p := pkt opQCredit (3 + 16 * 16 + 512) []
     p.ext = 0 ∧ p.addr.getLsbD 9 ≠ (((base fr).tile T).port 3).prod.phase) ∧
    (let p := { pkt opQCredit (16 * 16) [] with dst := .gateway 0, ext := 1 + 8 }
     p.dst = .gateway 0 ∧ ((base fr).gateway p.part (p.ext.toNat - 1)).prod.phase = p.addr.getLsbD 9) := by decide +kernel
theorem witness_QueuePacketsComplete_close :
    (let p := { pkt opClose (3 + 16) [] with ext := 1, part := 1 }
     arrivesB (base fr) T p = true ∧ (((base fr).tile T).port 3).prod.held = false) ∧
    (let s := onT (fun x => x.setPort 3 { Port.reset with prod := { Producer.reset with atStop := true } }) (base fr)
     arrivesB s T { pkt opClose 3 [] with ext := 1, part := 1 } = true ∧ ((s.tile T).port 3).prod.held = false ∧ ((s.tile T).port 3).prod.atStop = true) ∧
    ((base fr).take { pkt opClose (3 + 16) [] with ext := 1, part := 1 }).closeMode { pkt opClose (3 + 16) [] with ext := 1, part := 1 } ≠ .boundary ∧
    (let s := onT (fun x => x.setPort 3 { Port.reset with prod := { Producer.reset with atStop := false } }) ((base fr).setRegion 1 0 { st := .closing, mode := .boundary, goAt := 0 })
     let p := { pkt opClose 3 [] with ext := 1, part := 1 }
     arrivesB s T p = true ∧ ((s.tile T).port 3).prod.held = false ∧ ((s.tile T).port 3).prod.atStop = false ∧ (s.take p).closeMode p = .boundary) ∧
    (let s := onT (fun x => x.setPort 3 { Port.reset with prod := { Producer.reset with held := true } }) (base fr)
     arrivesB s T { pkt opClose 3 [] with ext := 1 } = true ∧ ((s.tile T).port 3).prod.held = true) ∧
    (let p := { pkt opRecall (3 + 16 * 16) [] with part := 1 }
     p.dst = .tile T ∧ (base fr).reaches T = true ∧ (base fr).hosted T = some L0 ∧ (base fr).queueOf p.part L0 p.src (p.addr.toNat % 16) = some 0) := by decide +kernel
/-- R200: the inlet that has accepted as many entries as the port sent confirms. -/
theorem test_recall : let q := ((go (.recall { pkt opRecall (3 + 16 * 16) [] with part := 1 }) (base fr)).tile T).queue 0
    (q.recalled, q.confirmed) = (some (16, 0), true) := by decide +kernel

def weirS (row : WeirRow) (w : Weir) : State := (fab row).setWeir 1 5 w
def weirP (op : BitVec 5) (ph : Nat) : Packet := pkt op (5 + 4096 * ph) []
theorem witness_WeirAndFloatPacketsComplete_weir :
    (weirP opWeirArr 0).src = .tile U ∧ (weirP opWeirArr 0).dst = .tile T ∧ (fab row0).reaches T = true ∧ (fab row0).hosted T = some L0 ∧ (fab row0).hosted U = some L1 ∧
    (weirP opWeirArr 1).addr.getLsbD 12 ≠ (weirOf 1 5 (fab row0)).phase ∧ (weirP opWeirArr 0).addr.getLsbD 12 = (weirOf 1 5 (fab row0)).phase ∧ L0 ≠ L1 ∧
    (L0.key, L1.key) ∈ (weirOf 1 5 (weirS row0 { Weir.reset with withdrawn := [(L0.key, L1.key)] })).withdrawn ∧
    (let x := weirOf 1 5 (weirS row0 { Weir.reset with behind := [L0.key] })
     (weirP opWeirArr 0).addr.getLsbD 12 = x.phase ∧ (L0.key, L1.key) ∉ x.withdrawn ∧ L0.key ∈ x.behind ∧ (L0.key, L1.key) ∉ x.early) ∧
    (L0.key ∉ (weirOf 1 5 (fab row0)).behind ∧ (L0.key, L1.key) ∉ (weirOf 1 5 (fab row0)).arrived ∧ (L0.key, L1.key) ∉ (weirOf 1 5 (fab row0)).withdrawn) := by decide +kernel
/-- LT(0, 0) has arrived; LT(1, 0)'s arrival completes its node (R311, R312). -/
def fullB (s : State) : Bool :=
  let a := (weirOf 1 5 s).arrived ++ [(L0.key, L1.key)]
  a.contains (L0.key, L0.key) && (s.weirKids (s.runsAt L0) 5).all fun k => a.contains (L0.key, k.key)
def came : Weir := { Weir.reset with arrived := [(L0.key, L0.key)] }
theorem witness_WeirAndFloatPacketsComplete_full :
    fullB (weirS row0 Weir.reset) = false ∧
    (let s := weirS { row0 with parent := some L1 } came
     fullB s = true ∧ ((s.weirRow (s.runsAt L0) 5).bind fun r => r.parent) = some L1 ∧ (s.router (s.runsAt L0)).scarf L1 = some (U, false)) ∧
    (let s := (weirS { row0 with kids := [L1] } came).modOwn 1 fun o => { o with frame := some { fr with stepWeir := 5 } }
     fullB s = true ∧ ((s.weirRow (s.runsAt L0) 5).bind fun r => r.parent) = none ∧ (s.frameOf 1).stepWeir = 5) ∧
    (let s := (weirS { row0 with kids := [L1] } came).modOwn 1 fun o => { o with frame := some { fr with stepWeir := 6 } }
     fullB s = true ∧ ((s.weirRow (s.runsAt L0) 5).bind fun r => r.parent) = none ∧ (s.frameOf 1).stepWeir ≠ 5) := by decide +kernel
theorem witness_WeirAndFloatPacketsComplete_rel :
    (let s := onT (fun x => { (x.store 0xC000 (leBytes 8 (encodeUop (.weir 5)).toNat)) with s := { x.s with seq := .blocked, arrived := true } })
        (weirS { row0 with kids := [L1] } { Weir.reset with behind := [L0.key] })
     s.hosted T = some L0 ∧ L0.key ∈ (weirOf 1 5 s).behind ∧ (∀ k ∈ s.weirKids (s.runsAt L0) 5, ((s.router (s.runsAt L0)).scarf k).isSome = true) ∧ s.runsAt L0 = T ∧
     (s.tile T).s.arrived = true ∧ (s.tile T).uopAt = some (.weir (BitVec.ofNat 12 5)) ∧ (s.tile T).s.seq = .blocked ∧ (s.tile T).r.loops = []) ∧
    L0.key ∉ (weirOf 1 5 (fab row0)).behind := by decide +kernel
def floatP (op : BitVec 5) (addr ext : Nat) : Packet := { pkt op addr [] with ext := BitVec.ofNat 48 ext }
def floatT : State := (fab row0).setFloat 1 9 { value := false, count := 0, home := L0, shadows := [(L0.key, (false, 0))], early := [] }
theorem witness_WeirAndFloatPacketsComplete_float :
    (floatP opFloatOp 9 0).src = .tile U ∧ floatT.hasFloat 1 9 = true ∧ floatT.reaches T = true ∧ floatT.hosted T = some L0 ∧ floatT.shadow 1 9 L0 = some (false, 0) ∧
    (floatT.float 1 9).early = [] ∧ (floatT.float 1 9).home = L0 ∧ floatT.runsAt L0 = T ∧
    (∀ k ∈ ((floatT.floatRow T 9).map fun r => r.notify).getD [], ((floatT.router T).scarf k).isSome = true) ∧
    (∀ e ∈ [1, 2, 2 ^ 15 - 1], (BitVec.setWidth 16 (floatP opFloatVal 9 e).ext - (0 : BitVec 16)).toNat < 2 ^ 15 ∧ BitVec.setWidth 16 (floatP opFloatVal 9 e).ext ≠ (0 : BitVec 16)) ∧
    (let f := floatP opFloatOp 9 0
     let s := floatT.modTile U fun x => { (x.store 0xC000 (leBytes 8 (encodeUop (.float 0 9)).toNat)) with
       s := { x.s with seq := .blocked, arrived := true }, q := { x.q with out := [{ f with src := .tile U }] } }
     (s.tile U).q.out.any (fun r => decide (r.op = opFloatOp) && decide (r.tag = f.tag)) = true ∧ (s.tile U).uopAt = some (.float 0 9) ∧
     (0 : BitVec 2).toNat < 2 ∧ (s.tile U).s.arrived = true ∧ (s.tile U).s.seq = .blocked ∧ (s.tile U).r.loops = []) ∧
    (let s := onT (fun x => { (x.store 0xC000 (leBytes 8 (encodeUop (.float 3 9)).toNat)) with s := { x.s with seq := .blocked, blk := 7 } }) floatT
     (s.tile T).uopAt = some (.float 3 9) ∧ (9 : BitVec 12).toNat = 9 ∧ (floatP opFloatVal 9 1).addr.getLsbD 12 = false ∧ (3 : BitVec 2).toNat = 3 ∧
     (s.tile T).s.seq = .blocked ∧ (s.tile T).s.blk = 7 ∧ (s.tile T).s.done = none ∧ (s.tile T).r.loops = []) := by
  decide +kernel
theorem test_float_order : let s := go (.floatVal (floatP opFloatVal (9 + 4096) 2)) floatT
    (s.shadow 1 9 L0, (s.float 1 9).early, ((go (.floatVal (floatP opFloatVal (9 + 4096) 1)) s).shadow 1 9 L0).map (·.2)) =
      (some (false, 0), [(L0.key, 2, true)], some 2) := by decide +kernel

/-- Partition 1 has 1 GiB of stack 0 (R435 to R437). -/
def withHbm (s : State) : State := (s.setReg (Reg.hbmPregp 0 0) (fld 63 63 1 ||| fld 46 40 1)).setField (Reg.prtHbmSpread 1) 39 32 1
def rimP (op : BitVec 5) (len : Nat) (body : List Flitem) : Packet :=
  { pkt op len ({ data := 0x1000, tok := false } :: body) with dst := .hbm 0, part := 1 }
def poisoned : State := (withHbm (base fr)).modStack 0 fun x => { x with poison := [0x40] }
theorem witness_RimTrafficCompletes :
    (withHbm (base fr)).segUp 0 = true ∧ State.reset.segUp 0 = false ∧ (rimP opRimRd 64 []).body = [{ data := 0x1000, tok := false }] ∧ rimAddr (rimP opRimRd 64 []) = 0x1000 ∧
    (withHbm (base fr)).assigned 1 0x1000 32 = true ∧ (base fr).assigned 1 0x1000 32 = false ∧
    (withHbm (base fr)).assigned 1 0x1000 16 = true ∧ (base fr).assigned 1 0x1000 16 = false ∧ (rimP opRimWr 0 [datum, datum]).dst = .hbm 0 ∧
    (((withHbm (base fr)).take (rimP opRimRd 64 [])).readRange 1 0x1000 64).1.bad = [] ∧ ((poisoned.take (rimP opRimRd 64 [])).readRange 1 0x1000 64).1.bad = [0x1000] := by
  decide +kernel
theorem test_rim_write_read : let s := go (.rimWr (rimP opRimWr 0 [{ data := 0xABCD, tok := false }])) (withHbm (base fr))
    (memRead s.comp.hbm 0x1000 2, (go (.rimRd (rimP opRimRd 16 [])) s).comp.net.map fun p => (p.op, p.body.map fun f => f.data)) =
      ([0xCD, 0xAB], [(opWrAck, []), (opRdData, [0xABCD])]) := by decide +kernel


/-! ### Links (R271 to R285, R328, R329, R550) -/
set_option maxRecDepth 20000

/-- A flit of these fields with its FCRC and header parity (R271, R272). -/
def flit (vc ft lseq : Nat) (d : Quad) : Flit :=
  let h := vc * 2 ^ 29 + ft * 2 ^ 27 + lseq * 2 ^ 19
  let f : Flit := { hdr := BitVec.ofNat 32 h, data := d }
  { f with hdr := BitVec.ofNat 32 (h + flag (parity 9 (vc * 64 + lseq)) * 1024 + f.crc.toNat) }
def syncF (lseq : Nat) : Flit := flit 6 3 lseq (BitVec.ofNat 128 (0x1F * 2 ^ 123))
/-- The east link of router `T` changed. -/
def linkS (f : Link → Link) : State := let s := base Frame.empty
    s.setLink T .east (f (s.link T .east))
theorem witness_LinkReception :
    (linkS id).linkLive T .east = true ∧
    (∀ q ∈ [0, 1, 63], ∀ ft ∈ [1, 2], let s := linkS fun l => { l with rxSeq := BitVec.ofNat 6 q }
     (flit 7 ft q 5).checks = true ∧ (flit 7 ft q 5).lseq = (s.link T .east).rxSeq ∧ (flit 7 ft q 5).ft = ft ∧ s.linkLive T .east = true) ∧
    ((syncF 0).checks = true ∧ (syncF 0).lseq = ((linkS id).link T .east).rxSeq ∧ (syncF 0).ft = 3 ∧ (syncF 0).data.toNat / 2 ^ 123 = 0x1F) ∧
    ({ flit 0 1 0 5 with data := 4 } : Flit).checks = false ∧ (flit 0 1 1 5).lseq ≠ ((linkS id).link T .east).rxSeq ∧ ((linkS id).link T .east).discarding = false ∧
    State.reset.linkLive T .east = false ∧ (linkS fun l => { l with st := .down }).linkLive T .east = false ∧
    (let s := linkS fun l => { l with discarding := true }
     (s.link T .east).discarding = true ∧ (flit 0 1 63 5).lseq ≠ (s.link T .east).rxSeq) := by decide +kernel
/-- A single flit on the VC of a late response whose packet goes to `x` with this OP (R276 to R280). -/
def single (op : BitVec 5) (x : PT) : Flit := flit 3 3 0 (({ pkt op 0 [] with dst := .tile x } : Packet).desc Via.direct 0)
def V : PT := { bay := 0, col := 0, row := 1 }
theorem witness_LinkReception_onward : let s := linkS id
    (∀ x ∈ [T, V], (single opWrAck x).checks = true ∧ (single opWrAck x).lseq = (s.link T .east).rxSeq ∧ (single opWrAck x).ft = 3 ∧
      (single opWrAck x).data.toNat / 2 ^ 123 ≠ 0x1F ∧ opReserved ((single opWrAck x).data.toNat / 2 ^ 123) = false ∧
      s.waiting T (some .east) (single opWrAck x).vc = []) ∧
    s.senderState T .east = .credit ∧
    (∀ i ∈ [none, some Dir.north, some .east, some .south, some .west], ∀ v, v < 8 → cutPacket (s.waiting T i v) = none) ∧
    (s.wayOf T 3 (single opWrAck V).data = .go (if T.step .south = some V then .south else .north) 3 false) ∧
    s.maySend T (if T.step .south = some V then .south else .north) 3 1 = true ∧
    (T.step (if T.step .south = some V then .south else .north)).isSome = true ∧
    (let u := { s with comp := { s.comp with net := [pkt opWrAck 0 []] } }
     u.wayOf T 3 (single opWrAck T).data = .eject ∧ u.comp.net.any (Packet.isOf [single opWrAck T]) = true) ∧
    (let f := flit 3 3 0 (BitVec.ofNat 128 (0x1E * 2 ^ 123))
     opReserved (f.data.toNat / 2 ^ 123) = true ∧ f.checks = true ∧ f.ft = 3 ∧ recent s.now dayNs (s.router T).badOps = []) := by decide +kernel
/-- R276, R286: a packet that `T` has sent to the tile south of it leaves on the south port with its coordinates as destination. -/
theorem test_packet_leaves : let p : Packet := { pkt opWrAck 0x20 [] with dst := .tile V, src := .tile T }
    let s := ((base Frame.empty).send p).fabricTick
    (s.comp.fresh = [] ∧ s.out.length = 1) ∧ (s.out.all fun o => match o with
      | .meshFlit r d f => decide (r = T) && decide (d = .south) && decide (descEnd f.data = (V, none)) && Packet.isOf [f] p
      | _ => false) = true := by decide +kernel
/-- R273, R274: one flit acknowledged, the next out of sequence answered NAK, the third dropped in silence. -/
theorem test_reception : let s := go (.linkFlitReceive T .east (flit 2 1 2 5)) (go (.linkFlitReceive T .east (flit 2 1 2 5)) (go (.linkFlitReceive T .east (flit 2 1 0 5)) (linkS id)))
    s.out = [.returnWord T .east 0x4181, .returnWord T .east 0x4020] := by decide +kernel

def ackS : State := linkS fun l => { l with replay := [flit 1 1 5 0, flit 1 1 6 0], spent := Tab.set 0 l.spent 1 2, txSeq := 7 }
theorem witness_ReturnWordsAreTaken :
    ackS.linkLive T .east = true ∧
    (let w := ackWord 5 false 1 true
     parity 16 w.toNat = false ∧ w.toNat / 2 ^ 14 = 1 ∧ w.getLsbD 7 = false ∧ (w.extractLsb' 8 6 : BitVec 6) = (flit 1 1 5 0).lseq ∧ flit 1 1 5 0 ∈ (ackS.link T .east).replay) ∧
    (let w := ackWord 6 true 0 false
     parity 16 w.toNat = false ∧ w.getLsbD 7 = true ∧ replayFrom (w.extractLsb' 8 6) (ackS.link T .east).replay ≠ [] ∧
     ((ackS.link T .east).fails ≠ 4 ∨ (replayFrom (w.extractLsb' 8 6) (ackS.link T .east).replay).length ≠ (ackS.link T .east).replay.length)) ∧
    (∀ f ∈ (ackS.link T .east).replay, f.lseq ≠ 9) ∧
    (let s := linkS fun l => { l with replay := [flit 1 1 5 0], fails := 4 }
     s.linkLive T .east = true ∧ replayFrom 5 (s.link T .east).replay ≠ [] ∧ (replayFrom 5 (s.link T .east).replay).length = 1 ∧ (s.link T .east).fails = 4) ∧
    replayFrom 9 (ackS.link T .east).replay = [] ∧
    (let w := returnWordOf (0x8000 + 0xFF * 64)
     parity 16 w.toNat = false ∧ w.toNat / 2 ^ 14 = 2) ∧
    (∀ n ∈ [0, 7], let s := linkS fun l => { l with st := .resync, resyncGot := (List.range n).map fun v => (v, 8) }
     let w := resyncWord n 8
     s.linkLive T .east = true ∧ parity 16 w.toNat = false ∧ w.toNat / 2 ^ 14 = 3 ∧ (s.link T .east).st = .resync ∧
     (((s.link T .east).resyncGot.filter fun g : Nat × Nat => decide (g.1 ≠ w.toNat / 2 ^ 11 % 8)) ++ [(n, 8)]).length = n + 1) ∧
    parity 16 0x4001 = false ∧ parity 16 0x4000 = true ∧
    (∀ st ∈ [LinkState.credit, .resync, .onoff], let s := linkS fun l => { l with st := st }
     s.linkLive T .east = true ∧ (s.link T .east).st = st) := by decide +kernel
theorem test_ack : let l := (go (.returnWord T .east (ackWord 5 false 1 true)) ackS).link T .east
    (l.replay.map Flit.lseq, Tab.get 0 l.spent 1, l.fails) = ([6], 1, 0) := by decide +kernel
theorem test_nak_replays : let s := go (.returnWord T .east (ackWord 5 true 0 false)) ackS
    (s.out.map (fun o => match o with | .meshFlit _ _ f => f.lseq | _ => 0), (s.router T).retry) = ([6, 5], 2) := by decide +kernel

theorem witness_LinkTimersMoveTheStateTable :
    (∀ st ∈ [LinkState.credit, .onoff, .resync], (linkS fun l => { l with st := st }).linkLive T .east = true ∧
      ((linkS fun l => { l with st := st }).link T .east).st = st ∧ (linkS fun l => { l with st := st }).bridgeHeld T .east = false) ∧
    (∀ b ∈ [false, true], ((linkS fun l => { l with st := .onoff, slow := b }).link T .east).slow = b) ∧
    (∀ k ∈ [0, 2, 3], let l := (linkS fun l => { l with st := .resync, rsFails := k }).link T .east
     l.st = .resync ∧ l.rsFails = k) ∧
    (let s := linkS fun l => { l with st := .down }
     T.step .east = some U ∧ T.key ≠ U.key ∧ (s.link T .east).st = .down ∧ s.isFenced 3 (linkId T .east) = false ∧ s.routerDark T = false ∧ s.routerDark U = false) ∧
    ((base Frame.empty).fabSums 1).1 < 2 ^ 32 ∧ ((base Frame.empty).fabSums 1).2 < 2 ^ 32 := by decide +kernel
theorem test_fourth_resync_failure : let s := go (.linkResyncTimeout T .east) (linkS fun l => { l with st := .resync, rsFails := 3 })
    ((s.link T .east).st, (s.link T .east).slow, (s.router T).rsfail, s.man.grain.waiting.length) = (.onoff, true, 1, 1) := by decide +kernel

/-! ### Regions, spill and gateways (R167, R168, R183 to R214, R240, R276) -/

/-- `fr` with its queue an inlet of region 0. -/
def frI : Frame := { fr with queues := [{ t := L0, q := 0, prod := .port L1 3, inlet := true, start := false }] }
def regS (f : Frame) (st : RegionState) : State := (base f).setRegion 1 0 { st := st, mode := .boundary, goAt := 100 }
theorem witness_DrainsMoveTheRegion_go :
    (base frI).applying 1 = false ∧ ((base frI).part 1).own.frame.isSome = true ∧
    (∀ r ∈ [0, 255], let s := (base fr).setRegion 1 r { st := .opened, mode := .purge, goAt := 0 }
     (s.region 1 r).st = .opened ∧ (s.frameOf 1).inlets r = []) ∧
    (let s := regS frI .opened
     (s.region 1 0).st = .opened ∧ (s.frameOf 1).inlets 0 ≠ [] ∧ ∀ b ∈ (s.frameOf 1).inlets 0, (s.prodOf 1 b).isSome = true) ∧
    (∀ st ∈ [RegionState.closing, .emptying, .stuck, .purging, .drained], ((regS frI st).region 1 0).st = st ∧ (regS frI st).applying 1 = false) ∧
    (let s := (regS frI .closing).modCommit 1 fun c => { c with begun := true }
     (s.region 1 0).st ≠ .drained ∧ (s.part 1).commit.begun = true ∧ s.applying 1 = false) := by decide +kernel
theorem witness_DrainsMoveTheRegion_ends :
    (regS frI .closing).inletsConfirmed 1 0 = false ∧
    (∀ st ∈ [RegionState.purging, .emptying, .stuck], (regS fr st).inletsConfirmed 1 0 = true ∧ (regS fr st).notQuiet 1 0 = 0) ∧
    (regS fr .emptying).now < (regS fr .emptying).drainLimit 1 0 ∧
    (let s : State := { regS fr .emptying with tide := 0xFFFFFFFFFFFFFFFF }
     s.inletsConfirmed 1 0 = true ∧ (s.region 1 0).st = .emptying ∧ s.drainLimit 1 0 ≤ s.now ∧ s.notQuiet 1 0 = 0) ∧
    (∀ st ∈ [RegionState.emptying, .stuck], let s := onT (withQ 0 [dataE 1]) (regS fr st)
     (s.region 1 0).st = st ∧ s.notQuiet 1 0 ≠ 0) ∧
    (100 : Nat) + max 1 ((regS fr .closing).field (Reg.prtFlowcfg 1) 47 32) * 1000 < 2 ^ 64 ∧
    (let s := regS frI .purging
     (s.frameOf 1).queues = [{ t := L0, q := 0, prod := .port L1 3, inlet := true, start := false }] ∧ (s.frameOf 1).regionOf L0 = 0 ∧
     (s.region 1 0).st = .purging ∧ ((s.tile (s.runsAt L0)).queue 0).confirmed = false ∧ ((s.tile (s.runsAt L0)).queue 0).recalled = none) ∧
    ((base fr).tile T).s.seq ≠ .off := by decide +kernel
theorem test_drain : let s := go (.drainBoundary 1 0) (regS frI .opened)
    ((s.region 1 0).st, s.comp.net.map fun p => (p.op, p.dst), (go (.drainImmediate 1 0) (regS fr .opened)).region 1 0 |>.st) =
      (.closing, [(opClose, .tile U)], .emptying) := by decide +kernel
theorem test_drained : let s := go (.regionDrained 1 0) (regS fr .emptying)
    ((s.region 1 0).st, s.field (Reg.prtDrainedk 1 0) 0 0, ((go (.reopen 1 0) s).region 1 0).st) = (.drained, 1, .opened) := by decide +kernel

/-- Queue 0 of an idle tile holds 16 entries; SPILL_AGE 1, the spill limit 64, the basin 1 KiB of stack 0. -/
def fullQ (x : Tile) : Tile := withQ 0 ((List.range 16).map fun i => dataE (BitVec.ofNat 128 i)) x
def spillS (basinOn : Nat) : State :=
  let s := (withHbm (base fr)).modOwn 1 fun o => { o with allocs := [(2, { base := 0x1000, size := 64, stack := none }), (basinAllocKey, { base := 0x2000, size := 1024, stack := none })] }
  (s.setReg (Reg.prtFlowcfg 1) (BitVec.ofNat 64 (1 + 2 ^ 16 * 64 + 2 ^ 48 * basinOn))).setTile T
    (let x := fullQ (s.tile T)
     { x with s := { x.s with stallSince := some 0 } })
theorem witness_SpillRefillAndStream_spill :
    (let s := spillS 1
     s.phys.power.halted = false ∧ (s.tile T).stallCond = true ∧ s.field (Reg.prtFlowcfg (s.ptPart T)) 15 0 ≠ 0 ∧ (s.passTo (s.stallDue T)).stalled T = true) ∧
    (∀ k ∈ [0, 7, 15], let s := (spillS 1).modTile T fun x => x.setQueue 0 { x.queue 0 with seg := List.replicate k (dataE 9) }
     ((s.tile T).queue 0).spilled + s.spillCount T 0 ≤ s.field (Reg.prtFlowcfg (s.ptPart T)) 31 16 ∧ s.spillCount T 0 = 8 ∧
     8 ≤ ((s.tile T).queue 0).fifo.length ∧ s.freeChunk (s.ptPart T) = some 0 ∧
     (match (s.tile T).checked fun w => (List.range (s.spillCount T 0)).any fun i => (queueWords 0 (((s.tile T).queue 0).place i)).contains w with
      | .ok x => decide (x.c = (s.tile T).c)
      | .error _ => false) = true) ∧
    (let s := (spillS 1).modTile T (lostWord (.queue, 8))
     (match (s.tile T).checked fun w => (List.range (s.spillCount T 0)).any fun i => (queueWords 0 (((s.tile T).queue 0).place i)).contains w with
      | .ok _ => none
      | .error w => some w) = some (.queue, 8)) := by decide +kernel
/-- R187, R188: eight entries leave, in order; with the segment empty all eight fit in it. -/
theorem test_spill : let q := ((go (.spill T) (spillS 1)).tile T).queue 0
    (q.seg.map fun e => e.data, q.fifo.length, q.chunks) = ([0, 1, 2, 3, 4, 5, 6, 7], 8, []) := by decide +kernel
def chunkS (c : Chunk) : State := (spillS 1).modTile T fun x => x.setQueue 0 { Queue.reset with seg := List.replicate 7 (dataE 9), chunks := [c] }
theorem witness_SpillRefillAndStream_refill :
    (let c : Chunk := { num := 3, entries := [dataE 1], committed := false }
     (((chunkS c).tile T).queue 0).chunks = [c] ∧ c.committed = false ∧ c ∉ ([] : List Chunk)) ∧
    (∀ n ∈ [1, 8], let c : Chunk := { num := 3, entries := List.replicate n (dataE 1), committed := true }
     let s := chunkS c
     let qu := (s.tile T).queue 0
     qu.chunks = [c] ∧ qu.seg.length + c.entries.length ≤ 15 ∧
     s.alloc (s.ptPart T) basinAllocKey = some { base := 0x2000, size := 1024, stack := none } ∧ (s.readRange (s.ptPart T) (0x2000 + 256 * 3) 256).1.bad = []) := by decide +kernel

/-- Tensor 2 (20 elements of 2 bytes, so 3 entries) feeds queue 0 through a gateway. -/
def frG (start : Bool) : Frame := { Frame.empty with
  queues := [{ t := L0, q := 0, prod := .gateway 2, inlet := false, start := start }]
  tensors := [{ tid := 2, fmt := 6, scl := 0, rank := 1, role := 0, layer := 0, hasLayer := false, persist := false, dims := [20] }] }
def gateS (start : Bool) (g : Gateway) : State :=
  (((withHbm (base (frG start))).modRun 1 fun r => { r with map0 := [(L0.key, (T, false))] }).modOwn 1 fun o => { o with allocs := [(2, { base := 0x1000, size := 64, stack := none })] }).setGateway 1 (gwKey L0 0) g
def gate (trig : Nat) (pos : Option Nat) (started : Bool) (held : Bool) (cr : Nat) : Gateway :=
  { triggers := trig, pos := pos, started := started, prod := { Producer.reset with held := held, credits := cr } }
theorem witness_SpillRefillAndStream_gateway :
    (∀ g ∈ [gate 1 none false true 1, gate 0 none false false 1], let x := (gateS true g).gateway 1 (gwKey L0 0)
     x.prod.held = true ∨ (x.pos = none ∧ x.triggers = 0)) ∧
    (∀ sg ∈ [(false, gate 1 none false false 0), (true, gate 0 (some 2) true false 0)], let s := gateS sg.1 sg.2
     let x := s.gateway 1 (gwKey L0 0)
     (s.frameOf 1).queues = [{ t := L0, q := 0, prod := .gateway 2, inlet := false, start := sg.1 }] ∧ x.prod.held = false ∧ (x.pos ≠ none ∨ x.triggers ≠ 0) ∧ s.phys.power.halted = false ∧ x.prod.credits = 0 ∧
     s.alloc 1 2 = some { base := 0x1000, size := 64, stack := none } ∧ ((s.frameOf 1).tensor 2).map tensorBytes = some 40 ∧
     (sg.1 = false ∨ x.pos ≠ none ∧ x.started = true) ∧ x.pos.getD 0 < 3) ∧
    (let s := gateS true (gate 1 none false false 1)
     let x := s.gateway 1 (gwKey L0 0)
     x.prod.held = false ∧ x.pos = none ∧ x.triggers ≠ 0 ∧ x.prod.credits = 1) ∧
    (∀ kn ∈ [(0, 3), (2, 1)], let s := gateS false (gate 0 (some kn.1) true false kn.2)
     let x := s.gateway 1 (gwKey L0 0)
     x.prod.held = false ∧ x.pos = some kn.1 ∧ x.started = true ∧ x.prod.credits = kn.2 ∧ 1 ≤ kn.2 ∧ kn.2 ≤ 4 ∧ kn.2 ≤ (40 + 15) / 16 - kn.1 ∧
     ((s.setGateway 1 (gwKey L0 0) x).readRange 1 (0x1000 + 16 * kn.1) (min (16 * kn.2) (40 - 16 * kn.1))).1.bad = []) := by decide +kernel
/-- R168: the last entry of a 40-byte tensor, after which the gateway has ended. -/
theorem test_gateway_end : let s := go (.gatewayStream 1 L0 0) (gateS false (gate 0 (some 2) true false 1))
    (s.comp.net.map (fun p => (p.op, p.dst, p.body.length)), (s.gateway 1 (gwKey L0 0)).pos) = ([(opQsend, .tile T, 1)], none) := by decide +kernel

/-! ### Clears, host commands, logs and BAR2 (R588 to R632) -/

theorem witness_ClearActionsZeroTheirCounts :
    (0x7FF : Word).getLsbD 16 = false ∧ (0x10000 : Word).getLsbD 16 = true ∧ (∀ p ∈ [1, 8], 1 ≤ p ∧ p ≤ 8) := by decide +kernel
theorem test_clear : let s := (base fr).setReg (Reg.prtPlnCnt 1) 7 |>.setReg Reg.pwrExc (BitVec.ofNat 64 (3 * 2 ^ 32 + 5))
    ((go (.prtPlnClr 1) s).reg (Reg.prtPlnCnt 1), (go .pwrCtlClr s).reg Reg.pwrExc) = (0, 5) := by decide +kernel

/-- A record with these fields at their offsets (R604). -/
def cmd (seq op : Nat) (fs : List (Nat × Nat)) : Cmd :=
  { seq := BitVec.ofNat 32 seq, opcode := BitVec.ofNat 16 op, irq := false, vector := 0, tag := 7, begun := false
    bytes := BitVec.ofNat 512 (fs.foldl (fun n f => n + f.2 * 2 ^ (8 * f.1)) (seq + op * 2 ^ 32 + 7 * 2 ^ 64)) }
/-- The slot that holds a record of 60 bytes, with its CRC (R602). -/
def slotOfBytes (n : Nat) (good : Bool) : Slot :=
  { mask := 0xFFFF, bytes := BitVec.ofNat 512 (n + (crc32c (leBytes 60 n) + flag (!good)) * 2 ^ 480) }
/-- The link is up, function `f` has a DMA window over the low GiB and a completion log of 64 entries. -/
def hostS (f : Nat) (s : State) : State :=
  let s := { s with host := { s.host with pcie := { up := true, ltssm := 0x10, width := 16, rate := 6, flit := true, everUp := true } } }
  ((((s.setReg (Reg.hstDmawinWb f 0) 1).setReg (Reg.hstDmawinWl f 0) (BitVec.ofNat 64 (0x3FFFF * 4096))).setReg (logBase f .completion) 0x10000).setReg
    (logCfg f .completion) (fld 4 0 6 ||| BitVec.ofNat 64 (2 ^ logEnBit .completion))).setReg (logTail f .completion) 0x10000
def withCmd (f : Nat) (c : Cmd) (s : State) : State := s.modFunc f fun x => { x with inflight := [c] }
def slotS (x : Slot) : State := (hostS 1 (base fr)).modFunc 1 fun y => { y with slots := [(0, x)] }

theorem witness_CommandsAreTakenAndCompleted_record :
    (∀ x ∈ [slotOfBytes (2 ^ 32) true, slotOfBytes (2 ^ 32) false, slotOfBytes (2 ^ 32 + 1) true], let s := slotS x
     s.field (Reg.hstCmdstat 1) 63 32 = 0 ∧ Tab.get Slot.reset (s.func 1).slots 0 = x ∧ x.mask = 0xFFFF ∧ s.logRoom 1 .completion = true ∧ s.man.boot.st = .ready) ∧
    (let x := slotOfBytes (2 ^ 32) true
     crc32c (x.data.take 0x3C) = leAt x.data 0x3C 4 ∧ leAt x.data 0 4 = 0 ∧ opcodes.contains x.cmd.opcode.toNat = true) ∧
    (let x := slotOfBytes (2 ^ 32) false
     crc32c (x.data.take 0x3C) ≠ leAt x.data 0x3C 4) ∧
    (let x := slotOfBytes (2 ^ 32 + 1) true
     crc32c (x.data.take 0x3C) = leAt x.data 0x3C 4 ∧ leAt x.data 0 4 ≠ 0) := by decide +kernel
theorem test_record : let s := go (.commandRecord 1) (slotS (slotOfBytes (2 ^ 32) true))
    ((s.func 1).inflight.map fun c => c.opcode, s.field (Reg.hstCmdstat 1) 63 32) = ([1], 1) := by decide +kernel

theorem witness_CommandsAreTakenAndCompleted_nop : ∀ f ∈ [0, 1, 8], let c := cmd 5 1 []
    let s := withCmd f c (hostS f (base fr))
    s.command f 5 0x0001 = some c ∧ ((s.func f).inflight.head?.map fun d => d.seq) = some 5 ∧ c.tidy [] = true ∧ s.canComplete f = true ∧
    (s.func f).waiting = [] ∧ c.irq = false ∧
    s.dmaOk f (4096 * fieldOf (s.reg (Reg.hstClogBase f)) 63 12 + 32 * s.field (Reg.hstClogTail f) 15 0) 32 = true := by decide +kernel
/-- A public key: the base point of P-384, X then Y, most significant byte first. -/
def goodKey : List Byte := (leBytes 48 (p384G.getD (0, 0)).1).reverse ++ (leBytes 48 (p384G.getD (0, 0)).2).reverse
theorem witness_CommandsAreTakenAndCompleted_keys :
    (∀ k ∈ [0, 7], let c := cmd 5 0x0103 [(0x10, k), (0x11, 1)]
     let s := withCmd 0 c (hostS 0 (base fr))
     s.command 0 5 0x0103 = some c ∧ s.inTurn 0 moduleCommands c = true ∧ c.tidy [(0x10, 1), (0x11, 1), (0x18, 8)] = true ∧ c.at 0x10 1 ≤ 7 ∧ c.at 0x11 1 = 1) ∧
    (let c := cmd 5 0x0103 [(0x10, 7), (0x18, 0x2000)]
     let s := withCmd 0 c (hostS 0 (base fr))
     s.command 0 5 0x0103 = some c ∧ s.inTurn 0 moduleCommands c = true ∧ c.tidy [(0x10, 1), (0x11, 1), (0x18, 8)] = true ∧ c.at 0x11 1 = 0 ∧
     s.dmaOk 0 (c.at 0x18 8) 96 = true ∧ p384Point (padTo 96 goodKey) = true) ∧
    (∀ k ∈ [1, 4], let c := cmd 5 0x0104 [(0x10, k), (0x14, 77)]
     let s := withCmd 0 c (hostS 0 (base fr))
     s.command 0 5 0x0104 = some c ∧ s.inTurn 0 moduleCommands c = true ∧ c.tidy [(0x10, 1), (0x14, 4)] = true ∧ c.at 0x10 1 = k) ∧
    (∀ op ∈ moduleCommands, let c := cmd 5 op []
     ((withCmd 8 c (hostS 8 (base fr))).command 8 5 op = some c ∧ (withCmd 8 c (hostS 8 (base fr))).inTurn 8 moduleCommands c = true) ∧
     ∀ f ∈ [0, 8], let s := (hostS f (base fr)).modFunc f fun x => { x with inflight := [cmd 4 0x0103 [], c] }
     s.inTurn f moduleCommands c = false ∧ s.command f 5 op = some c) := by decide +kernel
/-- FIPS 186-5 (R23): the base point is a key, the point with another Y is none. -/
theorem test_key_is_a_point : (p384Point goodKey, p384Point (goodKey.take 95 ++ [0])) = (true, false) := by decide +kernel
/-- R618: the completion entry of a NOP with SEQ 5 and TAG 7, status OK, phase 1. -/
theorem test_nop_completes : let s := go (.nopCommand 1 5) (withCmd 1 (cmd 5 1 []) (hostS 1 (base fr)))
    ((s.func 1).inflight, s.field (Reg.hstClogTail 1) 15 0, s.out.map fun o => match o with | .hostWrite f a _ _ => (f, a) | _ => (0, 0)) = ([], 1, [(1, 0x10000)]) := by decide +kernel

/-! ### Partitions, Frames, gates and flumes (R255 to R267, R563, R597 to R616) -/

/-- A partition descriptor of the bays, flumes and, on stack 0, one range of regions (R597). -/
def descr (bays fl : Nat) : List Byte := leBytes 128 (bays + fl * 2 ^ 128 + 0 * 2 ^ 256 + 4 * 2 ^ 264)
/-- Bay 0 with nobody's partition. -/
def freeS : State := hostS 0 (((base fr).modPart 1 fun _ => Part.reset).setField (Reg.prtBayownk 0) 3 0 0)
theorem witness_PartitionAndWorkCommandsComplete_create : ∀ p ∈ [1, 8], let c := cmd 5 0x0101 [(0x10, p), (0x18, 0x2000)]
    let s := withCmd 0 c freeS
    s.command 0 5 0x0101 = some c ∧ c.tidy [(0x10, 1), (0x18, 8)] = true ∧ s.inTurn 0 moduleCommands c = true ∧ c.at 0x10 1 = p ∧
    s.partExists p = false ∧ s.dmaOk 0 (c.at 0x18 8) 128 = true ∧ s.descReason (padTo 128 (descr 1 1)) = 0 ∧ s.comp.hosts = [] ∧ s.comp.fences = [] ∧
    (s.createPart p (padTo 128 (descr 1 1))).1 = none ∧ (s.createPart p (padTo 128 (descr 0 1))).1 = some 2 := by decide +kernel
theorem witness_PartitionAndWorkCommandsComplete_delete : let c := cmd 5 0x0102 [(0x10, 1)]
    let s := withCmd 0 c (hostS 0 (base fr))
    s.command 0 5 0x0102 = some c ∧ c.tidy [(0x10, 1)] = true ∧ s.inTurn 0 moduleCommands c = true ∧ c.at 0x10 1 = 1 ∧ s.partExists 1 = true := by decide +kernel
theorem test_create_delete : let s := withCmd 0 (cmd 5 0x0101 [(0x10, 2), (0x18, 0x2000)]) freeS
    let t := go (.partCreate 0 5 (.good (descr 1 1))) s
    (t.partExists 2, t.bayOwner 0, t.flumeOwner 0, (t.func 0).inflight) = (true, 2, 2, []) := by decide +kernel

/-- A Frame of generation 2 with three sections, with its CRC (R217, R218, R220). -/
def frameWith (len : Nat) (sects : List Byte) : List Byte :=
  let d := leBytes 128 (0x4D524659 + 0x01 * 2 ^ 40 + 128 * 2 ^ 48 + len * 2 ^ 64 + 2 * 2 ^ 128 + 3 * 2 ^ 144 + 1 * 2 ^ 272 + 0xFFFF * 2 ^ 288) ++ sects
  d.take 12 ++ leBytes 4 (crc32c d) ++ d.drop 16
def mapSect : List Byte := leBytes 16 (0x10 + 1 * 2 ^ 32 + 16 * 2 ^ 64) ++ leBytes 16 1
/-- Its map is bay 0, without a program or a tile (R224, R226). -/
def bareFrame : List Byte := frameWith 192 (mapSect ++ leBytes 16 0x20 ++ leBytes 16 0x21)
/-- It names LT(0, 0), which runs a program of one NOP (R228, R230). -/
def namedFrame : List Byte := frameWith 288 (mapSect ++ leBytes 16 (0x20 + 1 * 2 ^ 32 + 32 * 2 ^ 64) ++ leBytes 32 (1 * 2 ^ 16 + (encodeUop .nop).toNat * 2 ^ 128) ++
  leBytes 16 (0x21 + 1 * 2 ^ 32 + 64 * 2 ^ 64) ++ leBytes 64 (1 * 2 ^ 104))
def framedS (d : List Byte) : State :=
  let s := hostS 1 ((withHbm (base fr)).setReg (Reg.hbmPregp 0 0) (fld 63 63 1 ||| fld 46 40 90))
  (s.writeRange 1 0x3000 d).2
def frameS : State := framedS bareFrame
def frCmd (op flags len : Nat) : Cmd := cmd 5 op [(0x11, flags), (0x18, 0x3000), (0x20, len)]
def passes (s : State) (d : List Byte) : Bool :=
  match (s.fetchFrame 1 0x3000 d.length).1 with
  | .ok e => e == d && okd ((s.fetchFrame 1 0x3000 d.length).2.validate 1 d.length false d) fun _ => true
  | .error _ => false
def framePassed (s : State) : Bool := passes s bareFrame
theorem witness_PartitionAndWorkCommandsComplete_check : let c := frCmd 0x0201 0 192
    let s := withCmd 1 c frameS
    cmdPartOk 1 c = true ∧ cmdPart 1 c = 1 ∧ s.partExists 1 = true ∧ s.command 1 5 0x0201 = some c ∧ c.tidy [(0x10, 1), (0x18, 8), (0x20, 4)] = true ∧
    c.begun = false ∧ s.frameSt 1 < 2 ∧ framePassed s = true := by decide +kernel
theorem test_frame_check : let s := go (.frameCheck 1 5) (withCmd 1 (frCmd 0x0201 0 192) frameS)
    ((s.func 1).inflight, s.frameSt 1, s.field (Reg.hstClogTail 1) 15 0, (s.part 1).own.frame.map Frame.gen) = ([], 1, 1, some 0) := by decide +kernel
/-- The state that applies a Frame, and how an application with these flags ends. -/
def healed (s : State) (d : List Byte) : State := (s.fetchFrame 1 0x3000 d.length).2.healNow 1
def applied (s : State) (d : List Byte) (fl : Nat) : Option (Option Nat) :=
  match (s.fetchFrame 1 0x3000 d.length).2.validate 1 d.length (!fl.testBit 0) d with
  | .ok v => some ((healed s d).applyFrame 1 (fl.testBit 0) (fl.testBit 1) d v.1).1
  | .error _ => none
def darkS : State := (framedS namedFrame).modBay 0 fun b => { b with supply := .off }
theorem witness_PartitionAndWorkCommandsComplete_apply : (∀ fl ∈ [1, 3], let c := frCmd 0x0202 fl 192
    let s := withCmd 1 c frameS
    s.command 1 5 0x0202 = some c ∧ c.tidy [(0x10, 1), (0x11, 1), (0x18, 8), (0x20, 4)] = true ∧ c.at 0x11 1 = fl ∧ fl < 4 ∧ c.begun = false ∧
    (s.frameSt 1 = 1 ∨ s.frameSt 1 = 0 ∧ (c.at 0x11 1).testBit 0 = true) ∧ framePassed s = true ∧ ((healed s bareFrame).command 1 5 0x0202).isSome = true ∧
    ((healed s bareFrame).part 1).commit.df = .none ∧ (healed s bareFrame).phys.power.halted = false ∧ applied s bareFrame fl = some none) ∧
    (let s := withCmd 1 (frCmd 0x0202 1 288) darkS
     passes s namedFrame = true ∧ ((healed s namedFrame).command 1 5 0x0202).isSome = true ∧ applied s namedFrame 1 = some (some 1)) ∧
    (∀ hd ∈ [(true, DfState.none), (false, .waiting)], let s := (withCmd 1 (frCmd 0x0202 1 192) frameS).modCommit 1 fun x => { x with df := hd.2 }
     let s := s.modPower fun x => { x with halted := hd.1 }
     framePassed s = true ∧ ((healed s bareFrame).command 1 5 0x0202).isSome = true ∧ ((healed s bareFrame).part 1).commit.df = hd.2 ∧ (healed s bareFrame).phys.power.halted = hd.1) := by decide +kernel
theorem test_frame_apply : let s := go (.frameApply 1 5) (withCmd 1 (frCmd 0x0202 1 192) frameS)
    ((s.func 1).inflight, s.frameSt 1, s.field (Reg.prtFrameStat 1) 63 48, (s.part 1).own.frame.map Frame.gen) = ([], 1, 2, some 2) := by decide +kernel
theorem witness_PartitionAndWorkCommandsComplete_rejects : let c := frCmd 0x0201 0 127
    let s := withCmd 1 c frameS
    s.command 1 5 0x0201 = some c ∧ c.tidy [(0x10, 1), (0x18, 8), (0x20, 4)] = true ∧ s.frameSt 1 < 2 ∧
    (match (s.fetchFrame 1 0x3000 127).1 with
     | .ok _ => false
     | .error e => decide (e.reason = rejLength)) = true := by decide +kernel

/-- The gateway's partition with its Frame READY. -/
def gateCmdS (c : Cmd) (trig : Nat) : State := withCmd 1 c (hostS 1 ((gateS true (gate trig none false false 1)).setField (Reg.prtFrameStat 1) 23 20 1))
theorem witness_PartitionAndWorkCommandsComplete_gates :
    (∀ b ∈ [false, true], let c := cmd 5 0x0203 [(0x10, 1)]
     let s := (gateCmdS c 0).modHeal 1 fun h => { h with remapStop := b }
     s.command 1 5 0x0203 = some c ∧ c.tidy [(0x10, 1)] = true ∧ cmdPartOk 1 c = true ∧ (s.part 1).heal.remapStop = b) ∧
    (∀ hn ∈ [(false, Remapped.done 0), (true, .waits)], let s := (gateCmdS (cmd 5 0x0203 [(0x10, 1)]) 0).modHeal 1 fun h => { h with remapStop := true }
     ((s.modPower fun x => { x with halted := hn.1 }).remapNow 1).1 = hn.2) ∧
    (let s := ((gateCmdS (cmd 5 0x0203 [(0x10, 1)]) 0).modBay 0 fun b => { b with supply := .off }).modHeal 1 fun h => { h with remapStop := true, lost := [L1] }
     (s.remapNow 1).1 = .failed ∧ ((s.remapNow 1).2.command 1 5 0x0203).isSome = true) ∧
    (∀ k ∈ [0, 3, 4], let c := cmd 5 0x0204 [(0x14, 2)]
     let s := gateCmdS c k
     s.command 1 5 0x0204 = some c ∧ c.tidy [(0x10, 1), (0x14, 4)] = true ∧ s.frameSt 1 = 1 ∧ s.gateBindings 1 2 ≠ [] ∧ s.beforeReplay 1 = false ∧ s.canTrigger 1 2 = decide (k < 4)) ∧
    (∀ a ∈ [0, 1], let c := cmd 5 0x0205 [(0x11, a), (0x14, 2)]
     let s := gateCmdS c 0
     s.command 1 5 0x0205 = some c ∧ c.tidy [(0x10, 1), (0x11, 1), (0x14, 4)] = true ∧ c.at 0x11 1 = a ∧ s.gateBindings 1 2 ≠ [] ∧
     (insertTid 2 (s.part 1).own.schedule).length ≤ 64) := by decide +kernel
theorem test_gates :
    ((go (.gateRun 1 5) (gateCmdS (cmd 5 0x0204 [(0x14, 2)]) 3)).gateway 1 (gwKey L0 0)).triggers = 4 ∧
    ((go (.gateArm 1 5) (gateCmdS (cmd 5 0x0205 [(0x11, 1), (0x14, 2)]) 3)).part 1).own.schedule = [2] := by decide +kernel

def copyCmd (toHost len : Nat) : Cmd := cmd 5 0x0206 [(0x11, 31), (0x12, toHost), (0x18, 0x2000), (0x20, 0x40), (0x28, len)]
def copyS (toHost len : Nat) : State := withCmd 1 (copyCmd toHost len) (hostS 1 ((withHbm (base fr)).setField (Reg.prtFlumeown 1) 63 60 1))
def copyOf (toHost : Bool) (len : Nat) : Copy := { f := 1, seq := 5, part := 1, toHost := toHost, host := 0x2000, pa := 0x40, len := len }
theorem witness_PartitionAndWorkCommandsComplete_flumes :
    (∀ dl ∈ [(0, 1), (1, 2 ^ 30 - 0x2000)], let c := copyCmd dl.1 dl.2
     let s := copyS dl.1 dl.2
     s.command 1 5 0x0206 = some c ∧ c.begun = false ∧ s.inTurn 1 [0x0206] c = true ∧ c.tidy [(0x10, 1), (0x11, 1), (0x12, 1), (0x18, 8), (0x20, 8), (0x28, 4)] = true ∧
     c.at 0x12 1 ≤ 1 ∧ 1 ≤ c.at 0x28 4 ∧ c.at 0x28 4 ≤ 2 ^ 30 ∧ c.at 0x11 1 = 31 ∧ s.flumeOwner 31 = 1 ∧ s.dmaOk 1 (c.at 0x18 8) (c.at 0x28 4) = true ∧ (s.flume 31).length ≤ 16) ∧
    (∀ b ∈ [false, true], let s := (copyS (flag b) 64).setFlume 31 [copyOf b 64]
     s.flume 31 = [copyOf b 64] ∧ s.phys.power.halted = false ∧ s.segUp (3 * 31 / 4) = true ∧ (s.setFlume 31 []).command 1 5 0x0206 = some (copyCmd (flag b) 64) ∧ (s.setFlume 31 []).dmaOk 1 0x2000 64 = true) ∧
    (let s := ((copyS 1 64).setFlume 31 [copyOf true 64]).setReg (Reg.hstDmawinWb 1 0) 0
     s.phys.power.halted = false ∧ s.segUp (3 * 31 / 4) = true ∧ (s.setFlume 31 []).command 1 5 0x0206 = some (copyCmd 1 64) ∧ (s.setFlume 31 []).dmaOk 1 0x2000 64 = false) := by decide +kernel
/-- R563: the bytes that the host gave are in the partition's memory, and the command has completed. -/
theorem test_copy_from_host : let s := go (.flumeCopyDone 31 (.good (leBytes 64 0xABCD))) ((copyS 0 64).setFlume 31 [copyOf false 64])
    ((s.func 1).inflight, s.flume 31, memRead s.comp.hbm 0x40 2) = ([], [], [0xCD, 0xAB]) := by decide +kernel

/-- A log configuration with EN and 2^n entries. -/
def logV (k : LogKind) (en n : Nat) : Word := BitVec.ofNat 64 (n + en * 2 ^ logEnBit k)
def ringS (f : Nat) (k : LogKind) (a : Nat) : State := (hostS f (base fr)).setReg (logBase f k) (BitVec.ofNat 64 a)
theorem witness_LogsBarsAndRateLimit_logs :
    (∀ k ∈ [LogKind.completion, .event], (logV k 0 6).getLsbD (logEnBit k) = false ∧ (logV k 1 16).getLsbD (logEnBit k) = true) ∧
    (∀ f ∈ [0, 8], let s := ringS f .event 0x10000
     let m := if s.logEn f .event then s.field (logCfg f .event) 4 0 else log2n (logV .event 1 16)
     s.dmaOk f (fieldOf (s.reg (logBase f .event)) 63 12 * 4096) (32 * 2 ^ m) = true) ∧
    (let s := ringS 1 .event 0x40000000
     s.dmaOk 1 (fieldOf (s.reg (logBase 1 .event)) 63 12 * 4096) (32 * 2 ^ 6) = false) := by decide +kernel
theorem test_log_enable : let s := go (.logEnable 1 .event (logV .event 1 7)) (ringS 1 .event 0x10000)
    (s.logEn 1 .event, s.logSize 1 .event, s.field (logTail 1 .event) 15 0, (s.reg (logTail 1 .event)).getLsbD 16) = (true, 128, 0, true) := by decide +kernel
def barS : State := (hostS 1 (withHbm (base fr))).modFunc 1 fun x => { x with bar2Log := 20 }
theorem witness_LogsBarsAndRateLimit_bar2 :
    (barS.partExists 1 = true ∧ (barS.func 1).bar2Log = 20 ∧ (2 ^ 20 - 2) + 2 ≤ 2 ^ 20 ∧ (2 : Nat) ^ 20 < (2 ^ 20 - 1) + 2) ∧
    State.reset.partExists 8 = false ∧ 0 + 4 ≤ 2 ^ (State.reset.func 8).bar2Log ∧
    (barS.readAssigned 1 2 (barS.bar2Base 1 + 0x40) 64).2.1 = [] ∧
    (let s := barS.modStack 0 fun x => { x with poison := [1] }
     (s.readAssigned 1 2 (s.bar2Base 1 + 0x40) 64).2.1 ≠ []) := by decide +kernel
theorem test_bar2 : (go (.bar2Read 1 0x40 2) (go (.bar2Write 1 0x40 [0xCD, 0xAB]) barS)).out = [.bar2Data 1 [0xCD, 0xAB] false] := by decide +kernel
theorem witness_LogsBarsAndRateLimit_rate :
    ((hostS 1 (base fr)).func 8).rateAt = none ∧
    (∀ d ∈ [0, 999999999, 1000000000], let s := ((hostS 1 (base fr)).passTo (5 + d)).modFunc 1 fun x => { x with rateAt := some 5 }
     (s.func 1).rateAt = some 5 ∧ (5 + 1000000000 ≤ s.now ∨ s.now < 5 + 1000000000)) := by decide +kernel

/-! ### Resets, recovery, detection and sighting (R509 to R542, R575, R584 to R586, R628 to R631, R785 to R788) -/

def bootS (f : Boot → Boot) : State := (hostS 1 (base fr)).modBoot f
theorem witness_ResetsTakeTheirEffect :
    (∀ g ∈ [4, 5], let s := bootS fun b => { b with stage := g, perst := false }
     s.host.pcie.up = true ∧ s.boot.stage = g ∧ s.boot.perst = false ∧ s.segUp 0 = true) ∧
    (∀ g ∈ [4, 5, 13], let s := bootS fun b => { b with stage := g, perst := true }
     s.boot.perst = true ∧ s.boot.stage = g) ∧
    (let s := bootS fun b => { b with perst := false }
     let t := { s with host := { s.host with pcie := { s.host.pcie with up := false } } }
     t.host.pcie.up = false ∧ t.boot.perst = false ∧ t.segUp 0 = true) ∧
    T.valid = true ∧ (hostS 1 (base fr)).bayOwner T.bay = 1 := by decide +kernel
/-- R786, R787: a hot reset of a module in service returns its tiles to RESET and ends its partition. -/
theorem test_hot_reset : let s := go .hotReset (bootS fun b => { b with perst := false })
    (s.boot.stage, (s.tile T).s.seq, s.partExists 1, s.host.pcie.up) = (5, .reset, false, false) := by decide +kernel
theorem test_flr : let s := go (.functionLevelReset 1) (bootS id)
    ((s.tile T).s.seq, (s.part 1).own.frame, s.partExists 1, s.logEn 1 .completion, s.reg (Reg.hstDmawinWb 1 0)) = (.reset, none, true, false, 1) := by decide +kernel

/-- The step ends at weir 5, which was held at 100. -/
def frW : Frame := { fr with stepWeir := 5 }
def stepS (df : DfState) (sus : Bool) (tries : Nat) : State :=
  ((base frW).setWeir 1 5 { Weir.reset with heldAt := some 100 }).modCommit 1 fun c => { c with df := df, suspect := sus, tries := tries, begun := true }
theorem witness_RecoveryCommandsComplete_settle :
    (∀ x ∈ [(DfState.none, false, 0), (.none, true, 0), (.replaying, true, 3), (.replaying, true, 255), (.replaying, false, 0)], let s := stepS x.1 x.2.1 x.2.2
     s.settleDue 1 = some (100 + s.settleNs 1) ∧ (s.frameOf 1).stepWeir ≠ 0xFFFF ∧ (s.part 1).commit.settled = false ∧ (s.part 1).heal.lost = [] ∧
     s.phys.power.halted = false ∧ (s.part 1).own.stopped = false ∧ (s.part 1).commit.df = x.1 ∧ (s.part 1).commit.suspect = x.2.1 ∧
     (x.1 = .none ∨ x.2.1 = false ∨ s.triesMax 1 ≤ (s.part 1).commit.tries)) ∧
    (let s := stepS .waiting true 1
     (s.part 1).commit.df = .waiting ∧ s.layersRest 1 = true ∧ (s.part 1).commit.begun = true ∧ s.phys.power.halted = false) := by decide +kernel
theorem test_settle_commits : let s := go (.stepSettle 1) (stepS .none false 0)
    (s.stepNo 1, (s.part 1).commit.suspect, (weirOf 1 5 s).heldAt) = (1, false, none) := by decide +kernel
/-- Layer 7 has staged its update of step 0 with digest `d`; the digest recorded of it is 9. -/
def compS (d : Word) : State :=
  (((stepS .comparing false 1).setLayer 1 7 { Layer.reset with st := .staged, staged := some { addr := 0, off := 0, order := 0, step := 0, upd := 0, fallback := false, refreshed := false, committed := false, digest := d } })).modCommit 1
    fun c => { c with digests := [(7, 9)] }
theorem witness_RecoveryCommandsComplete_compare :
    (∀ d ∈ [(8 : Nat), 9], let s := compS (BitVec.ofNat 64 d)
     (s.part 1).commit.df = .comparing ∧ s.replayStaged 1 = true ∧ s.phys.power.halted = false ∧
     ((s.part 1).commit.digests.filter fun e => decide (Tab.get 0 (s.stagedDigests 1) e.1 ≠ e.2)).map (·.1) = if d = 9 then [] else [7]) ∧
    (let s := (base fr).modHeal 1 fun h => { h with lost := [L0] }
     (s.part 1).heal.lost ≠ [] ∧ (s.part 1).heal.st ≠ .stopped ∧ (s.part 1).heal.remapStop = false ∧ s.phys.power.halted = false) ∧
    (let s := (base fr).modPart 1 fun x => { x with queued := [L0] }
     (s.part 1).queued ≠ [] ∧ (s.part 1).heal.remapStop = false ∧ s.waitingFrames 1 = [] ∧ s.placing 1 = false ∧ s.phys.power.halted = false) ∧
    (let c := { frCmd 0x0202 1 192 with begun := true }
     let s := (withCmd 1 c frameS).setFrameSt 1 .applying |>.modOwn 1 fun o => { o with copy := some bareFrame }
     s.waitingFrames 1 = [(1, c)] ∧ ((s.applyAgain 1 1 c).part 1).queued = []) := by decide +kernel
theorem test_compare :
    (let s := go (.dryfitCompare 1) (compS 9)
     (s.stepNo 1, s.field (Reg.prtDetCnt 1) 47 32) = (1, 1)) ∧
    (let s := go (.dryfitCompare 1) (compS 8)
     (s.stepNo 1, s.field (Reg.prtDetCnt 1) 31 16, (s.part 1).commit.df) = (1, 1, .none)) := by decide +kernel

/-- L1 has arrived at weir 5, and L0 has not. -/
def lateS : State := (base frW).setWeir 1 5 { Weir.reset with arrived := [(L1.key, L1.key)], firstAt := 100 }
def plumbT (f : TilePlumb → TilePlumb) (x : Tile) : Tile := withSeq .plumb { x with plumb := f x.plumb }
theorem witness_DetectionCommandsComplete :
    (let x := weirOf 1 5 lateS
     x.arrived ≠ [] ∧ x.timedOut = false ∧ x.heldAt = none ∧ lateS.phys.power.halted = false ∧ lateS.absentees 1 5 = [L0]) ∧
    (let s := base fr
     (s.tile T).s.seq = .idle ∧ s.tileFenced T = false ∧ s.slices T.bay < s.plumbConc T.bay ∧ s.leastRecent T = true ∧ s.phys.power.halted = false) ∧
    (∀ q ∈ [Seq.idle, .run, .blocked, .halted], let s := onT (withSeq q) (base fr)
     (s.tile T).s.seq = q ∧ s.tileFenced T = false ∧ s.slices T.bay < s.plumbConc T.bay ∧ s.phys.power.halted = false) ∧
    (∀ b ∈ [false, true], let s := onT (fun x => plumbT (fun y => { y with forced := b }) { x with s := { x.s with before := .halted } }) (base fr)
     (s.tile T).s.seq = .plumb ∧ (s.tile T).plumb.forced = b ∧ (s.tile T).s.before = .halted) ∧
    (let s := onT (fun x => { x with plumb := { x.plumb with intensUntil := some 500 } }) (base fr)
     (s.tile T).plumb.intensUntil = some 500) ∧
    (∀ b ∈ [false, true], let s := onT (fun x => { x with plumb := { x.plumb with late := b } }) (base fr)
     (s.tile T).s.seq ≠ .off ∧ (s.tile T).plumb.late = b ∧ s.tileFenced T = false ∧ s.phys.power.halted = false) ∧
    (let s := base fr
     s.partExists 1 = true ∧ s.allDrained 1 = true ∧ (s.part 1).commit.df = .none ∧ State.reset.partExists 1 = false) ∧
    (regS fr .opened).allDrained 1 = false ∧ ((stepS .waiting true 1).part 1).commit.df ≠ .none := by decide +kernel
theorem test_weir_timeout : let s := go (.weirTimeout 1 5) lateS
    ((s.part 1).commit.suspect, (s.part 1).commit.named, s.now) = (true, [L0], 100 + lateS.weirLimitNs 1) := by decide +kernel
theorem test_plumb : let s := go (.plumbSliceStart T) (base fr)
    ((s.tile T).s.seq, ((go (.plumbSliceEnd T .pass) s).tile T).s.seq, ((go (.plumbSliceEnd T .memoryFail) s).tile T).s.seq) = (.plumb, .idle, .reset) := by decide +kernel

/-- Layer 4's master is tensor 2 at 0x1000, and it is sighted every second step; peer 3 is partition 2 of address 6. -/
def sightF : Frame := { frG true with sightK := 2, layers := [{ layer := 4, rule := 1, variant := 0, fallback := 0, freeze := false, fp64 := false, sight := true, root := 0, refresh := 0, w := 2, rt := 0, g := 0, st := 0, h := [] }] }
def sightS : State :=
  let s := (((withHbm (base sightF)).modOwn 1 fun o => { o with allocs := [(2, { base := 0x1000, size := 64, stack := none })] }).setReg (Reg.prtSightKey 1) 2).setReg (Reg.prtStep 1) 3
  s.setReg (Reg.prtSightPeeri 1 3) (BitVec.ofNat 64 (2 ^ 63 + 2 * 2 ^ 32 + 6))
def sightO (peers : Tab (Tab Word)) : State := sightS.modPart 1 fun x => { x with sight := { x.sight with open_ := true, step := 2, deadline := 1000, own := [(4, 9)], peers := peers } }
def msgH : PutHeader := { dst := 0, src := 6, dpart := 1, spart := 2, kind := 3, entry := 0, chunk := 0, step := 2, dpa := 0, poison := 0, len := 0, dfid := 0, total := 0, flags := 0, cls := 0 }
theorem witness_SightingComparesReplicas :
    (Tab.rising 0 ([] : Tab Word) = true ∧ Tab.rising 0 ([(4, 9)] : Tab Word) = true) ∧
    (let s := sightS
     s.sightKey 1 = some 2 ∧ (s.frameOf 1).sightK ≠ 0 ∧ s.stepNo 1 ≠ 0 ∧ (s.stepNo 1 - 1).toNat % (s.frameOf 1).sightK = 0 ∧ s.phys.power.halted = false ∧
     ((s.frameOf 1).sighted.map fun r => r.layer) = [4] ∧ (s.frameOf 1).sighted = (s.frameOf 1).layers ∧
     ((s.part 1).pln.layers.all fun kl => decide (kl.2.gradStep ≠ 2) || !(kl.2.st == .staged || kl.2.st == .copying || kl.2.st == .compute)) = true ∧
     ((s.frameOf 1).sighted.map fun r => (s.layerDigest 1 2 r).2.1) = [[]]) ∧
    (let s := sightO []
     (s.peers 1).find? (fun q => decide (q.2.1 = msgH.src) && decide (q.2.2 = msgH.spart)) = some (3, 6, 2) ∧ msgH.kind = 0x03 ∧ msgH.dst = s.address ∧
     s.partExists msgH.dpart = true ∧ msgH.step = (s.part 1).sight.step ∧
     (s.peers 1).find? (fun q => decide (q.2.1 = msgH.src) && decide (q.2.2 = 1)) = none ∧
     (s.part 1).sight.open_ = true ∧ s.peers 1 = [(3, 6, 2)] ∧ digestsWhole (s.part 1).sight.own (Tab.get [] (s.part 1).sight.peers 3) = false) ∧
    (let s := sightO [(3, [(4, 9)])]
     digestsWhole (s.part 1).sight.own (Tab.get [] (s.part 1).sight.peers 3) = true ∧ Tab.get 0 (Tab.get [] (s.part 1).sight.peers 3) 4 = 9 ∧ (s.part 1).sight.own = [(4, 9)]) := by decide +kernel
theorem test_sight : let s := go (.sightDecide 1) (go (.stlJoineryMessage msgH 4 9) (sightO []))
    (s.field (Reg.prtSightStat 1) 63 32, s.field (Reg.prtSightStat 1) 31 24, s.field (Reg.prtSightStat 1) 2 0, (s.part 1).sight.open_) = (2, 2, 1, false) := by decide +kernel

/-! ### The Plane and HBM (R390 to R430, R437 to R460) -/

/-- Layer 4: master 2, runtime copy 3, gradient 4 and state 5, each four FP32 words in stack 0; rule 1; window 3 of L0. -/
def tens (tid : Nat) : TensorRec := { tid := tid, fmt := 7, scl := 0, rank := 1, role := 0, layer := 4, hasLayer := true, persist := false, dims := [4] }
def layer4 : LayerRec := { layer := 4, rule := 1, variant := 0, fallback := 0, freeze := false, fp64 := false, sight := false, root := 0, refresh := 0, w := 2, rt := 3, g := 4, st := 5, h := [0, 0, 0, 0, 0, 0, 0, 0] }
def win3 : WmloadRec := { rect := { x0 := 0, y0 := 0, x1 := 0, y1 := 0 }, wmaddr := 0, streamable := true, inline := false, len := 16, tid := 3, fid := 9, off := 0, data := [] }
def plF : Frame := { fr with tensors := [tens 2, tens 3, tens 4, tens 5], layers := [layer4], wmloads := [win3] }
def plS (x : Layer) : State :=
  let al (i : Nat) : Nat × Alloc := (i, { base := 0x1000 * i, size := 64, stack := some 0 })
  let s := (withHbm (base plF)).modOwn 1 fun o => { o with allocs := [al 2, al 3, al 4, al 5, (sliceKey 0, { base := 0x10000, size := 0x10000, stack := some 0 })] }
  (s.setEngine 0 { s.engine 0 with scanned := true }).setLayer 1 4 x
def lay (st : LayerState) (g : Option Staged) : Layer := { Layer.reset with st := st, count := 1, upd := 7, gradStep := 2, staged := g }
def stg : Staged := { addr := 0x10000, off := 0, order := 1, step := 2, upd := 8, fallback := false, refreshed := false, committed := false, digest := 0 }
theorem base_layer (f : Frame) (q m : Nat) : (withHbm (base f)).layer q m = Layer.reset := by
  show (base f).layer q m = _
  unfold base
  simp only []
  rw [State.layer_modOwn]
  rfl
/-- The step size 1.0 for step 2. -/
def eta2 : Word := BitVec.ofNat 64 (0x3F800000 * 2 ^ 32 + 2)
def sized (s : State) : State := s.setReg (Reg.plnStep0 1) eta2
theorem witness_StepSizesAndLayerControl_size :
    (let s := plS (lay .held none)
     s.partExists 1 = true ∧ Tab.rising 0 (s.part 1).pln.layers = true ∧ (s.layer 1 4).st = .held ∧ stepTag (s.layer 1 4).gradStep = eta2.extractLsb' 0 32) ∧
    (eta2.extractLsb' 0 32 : Dword).getLsbD 0 = false ∧ ((eta2 + 1).extractLsb' 0 32 : Dword).getLsbD 0 = true ∧
    fFinite f32 ((eta2.extractLsb' 32 32 : Dword)).toNat = true ∧ fFinite f32 0x7F800000 = false ∧
    (let s := (plS (lay .held none)).modPln 1 fun y => { y with latched := some (2, 5) }
     ((s.part 1).pln.latched.map fun l => stepTag l.1) = some (eta2.extractLsb' 0 32)) := by decide +kernel
theorem test_step_size : let s := plS (lay .held none)
    (((go (.plnStepWrite 1 false eta2) s).layer 1 4).st, (go (.plnStepWrite 1 true eta2) s).field (Reg.plnStepstat 1) 2 2, ((go (.plnStepWrite 1 true eta2) s).layer 1 4).st) = (.ready, 1, .held) := by decide +kernel
theorem witness_StepSizesAndLayerControl_stale :
    (let s := (plS (lay .ready none)).modPln 1 fun y => { y with firstReadyAt := some 100 }
     (s.part 1).pln.firstReadyAt = some 100 ∧ s.sizeless 1 = [4] ∧ (s.part 1).pln.staleRaised ≠ some (s.layer 1 4).gradStep) ∧
    (∀ st ∈ [LayerState.idle, .frozen, .compute], let s := (plS (lay st none)).setField (Reg.prtLayerSel 1) 15 0 4
     s.selLayer 1 = some layer4 ∧ (s.layer 1 4).st = st) ∧
    (plS (lay .idle none)).selLayer 1 = none := by decide +kernel
/-- A layer of rule 4 whose gradient begins with an infinity. -/
def polarS : State :=
  let s := sized (plS (lay .compute (some stg)))
  (s.modOwn 1 fun o => { o with frame := some { plF with layers := [{ layer4 with rule := 4, variant := 5 }] } }).writeRange 1 0x4000 [0, 0, 0x80, 0x7F] |>.2
def updated (s : State) : PlnResult :=
  let q := s.readUpdate 1 ((s.layerRec 1 4).getD layer4)
  plnUpdate (plnRuleOf (s.frameOf 1) ((s.layerRec 1 4).getD layer4)) 0x3F800000 stg.upd.toNat false q.1.w q.1.st q.1.g
theorem witness_LayersComputeStageAndCommit_compute :
    (∀ b ∈ [false, true], let z := (sized (plS (lay .ready none))).setEngine 0 { (plS (lay .ready none)).engine 0 with scanned := b }
     let s := z.scanRings 0
     z.engineFrom (z.layer 1 4).engine = 0 ∧ z.enginesRun = true ∧ s.enginesRun = true ∧ s.layerRec 1 4 = some layer4 ∧
     s.stepSize 1 (s.layer 1 4).gradStep = some 0x3F800000 ∧ s.slice 1 (s.layerStack 1 layer4) = some { base := 0x10000, size := 0x10000, stack := some 0 } ∧
     (s.layer 1 4).st = .ready ∧ (s.engine 0).work = 0 ∧ s.nextServed 1 4 = true ∧ s.ringUsed 1 (s.layerStack 1 layer4) + up64 (s.stagedBytes 1 layer4) ≤ 0x10000) ∧
    (let s := sized (plS (lay .compute (some stg)))
     (s.layer 1 4).staged = some stg ∧ s.layerRec 1 4 = some layer4 ∧ (s.layer 1 4).st = .compute ∧ s.enginesRun = true ∧
     (s.engine 0).lost (s.stagedBytes 1 layer4 - 64) = false ∧ (s.readUpdate 1 layer4).1.bad = [] ∧ (updated s).checked = true ∧ (s.layer 1 4).granted = false ∧
     s.slice 1 (s.layerStack 1 layer4) = some { base := 0x10000, size := 0x10000, stack := some 0 } ∧ s.stepCommitted 1 stg.step = false) ∧
    (let s := sized (plS (lay .compute (some stg)))
     let s := s.setEngine 0 { s.engine 0 with sramErrs := [(0, 3)] }
     (s.layer 1 4).engine = 0 ∧ (s.engine 0).lost (s.stagedBytes 1 layer4 - 64) = true) ∧
    (let s := (sized (plS (lay .compute (some stg)))).modStack 0 fun x => { x with poison := [0x2000 / 64] }
     (s.readUpdate 1 layer4).1.bad ≠ [] ∧ (s.engine 0).lost (s.stagedBytes 1 layer4 - 64) = false) ∧
    (polarS.layerRec 1 4).isSome = true ∧ (polarS.layer 1 4).staged = some stg ∧ (polarS.layer 1 4).st = .compute ∧ polarS.enginesRun = true ∧
    (polarS.slice 1 (polarS.layerStack 1 layer4)).isSome = true ∧ (updated polarS).checked = false := by decide +kernel
theorem test_compute : let s := sized (plS (lay .ready none))
    let t := go (.layerCompute 1 4) s
    ((t.layer 1 4).st, (t.part 1).pln.latched, t.field (Reg.plnStepstat 1) 63 32, ((go (.layerComputeDone 1 4 false) t).layer 1 4).st, ((go (.layerComputeDone 1 4 true) t).layer 1 4).st) =
      (.compute, some (2, 0x3F800000), 2, .staged, .ready) := by decide +kernel
def grantS (x : Layer) (com : Bool) : State := (plS x).modCommit 1 fun c => { c with bounds := if com then [(2, 0, 0)] else [] }

theorem witness_LayersComputeStageAndCommit_commit :
    (∀ b ∈ [false, true], let s := grantS (lay .staged (some stg)) b
     (s.layer 1 4).staged = some stg ∧ s.stepCommitted 1 stg.step = b ∧ (s.layer 1 4).st = .staged) ∧
    ((grantS (lay .staged (some stg)) true).setLayer 1 4 { lay .staged (some stg) with granted := true }).copyReady 1 4 = true ∧
    (let s := (grantS (lay .staged (some stg)) true).modRun 1 fun y => { y with windows := Tab.set Window.reset y.windows 0 { fill := 0, writing := some 1 } }
     (s.setLayer 1 4 { lay .staged (some stg) with granted := true }).copyReady 1 4 = false) ∧
    (∀ st ∈ [LayerState.ready, .held, .compute, .staged, .idle, .frozen, .copying], ((plS (lay st none)).layer 1 4).st = st) ∧
    (let s := plS (lay .copying (some { stg with committed := true }))
     (s.layer 1 4).staged = some { stg with committed := true } ∧ s.layerRec 1 4 = some layer4 ∧ (s.layer 1 4).st = .copying ∧ s.enginesRun = true) ∧
    (let s := (plS (lay .idle none)).modRun 1 fun y => { y with windows := Tab.set Window.reset y.windows 0 { fill := 0, writing := some 1 } }
     (s.frameOf 1).windows = [(0, win3)] ∧ win3.streamable = true ∧ (s.window 1 0).writing = some 1 ∧ s.phys.power.halted = false ∧ s.copying 1 win3.tid = false ∧
     (s.writeFill 1 win3 1).1 = []) := by decide +kernel
theorem plS_layer (x : Layer) (q m : Nat) : (plS x).layer q m = if q = 1 ∧ m = 4 then x else Layer.reset := by
  unfold plS
  rw [State.layer_setLayer]
  split
  · rfl
  · have e (s : State) (n : Nat) (y : Engine) : (s.setEngine n y).layer q m = s.layer q m := rfl
    simp only [e, State.layer_modOwn]
    exact base_layer plF q m
theorem grantS_layer (x : Layer) (c : Bool) (q m : Nat) : (grantS x c).layer q m = (plS x).layer q m := by
  unfold grantS State.layer State.modCommit
  rw [State.part_modPart]
  split
  · rename_i h; subst h; rfl
  · rfl
/-- The condition on the other layers of a grant, of a discard order and of an end of a copy-in or of an update. -/
theorem witness_LayersComputeStageAndCommit_others :
    (∀ c q m, (q, m) ≠ (1, 4) → ((grantS (lay .staged (some stg)) c).layer q m).st ≠ .staged) ∧
    ∀ st ∈ [LayerState.copying, .compute], ∀ q m, ((plS (lay st (some stg))).layer q m).st ≠ .staged := by
  refine ⟨fun c q m h => ?_, fun st hs q m => ?_⟩
  · rw [grantS_layer, plS_layer, if_neg (by simpa using h)]
    decide
  · rw [plS_layer]
    revert st; split <;> decide
theorem test_commit : let s := go (.plnCommitGrant 1 4) (grantS (lay .staged (some stg)) true)
    ((s.layer 1 4).st, (s.layer 1 4).staged.map Staged.committed, ((go (.plnCopyDone 1 4) s).layer 1 4).st, ((go (.plnCopyDone 1 4) s).layer 1 4).upd) = (.copying, some true, .idle, 8) := by decide +kernel

theorem witness_HbmBlocksReadAsWritten :
    (∀ pa ∈ [0, 0x1000, 0x103F, 2 ^ 30 - 1], let s := withHbm (base fr)
     s.decodePa 1 pa = some (0, pa) ∧ pa % 64 + 1 ≤ 64 ∧ ¬ (pa / 64) ∈ (s.stack 0).poison ∧ Tab.get [] (s.stack 0).errs (pa / 64) = []) ∧
    (withHbm (base fr)).decodePa 1 (2 ^ 30) = none ∧
    poisoned.decodePa 1 0x1000 = some (0, 0x1000) ∧ (0x1000 / 64) ∈ (poisoned.stack 0).poison ∧ 0x1000 % 64 + 64 ≤ 64 := by decide +kernel
theorem test_hbm_write : let s := (withHbm (base fr)).writeRange 1 0x103E [1, 2]
    (s.1, (s.2.readRange 1 0x103D 3).1.data) = (2, [0, 1, 2]) := by decide +kernel
def scrubS (f : Stack → Stack) : State := (withHbm (base fr)).modStack 0 fun x => f { x with up := true, scrubbing := true, scrubPos := 5 }
/-- Errors of 1 in the first `n` bytes; and seven errors that leave two bytes of another codeword to be corrected (R441). -/
def errsN (n : Nat) : List (Nat × Nat) := (List.range n).map fun i => (i, 1)
def unitBlock : List Nat := List.replicate 63 0 ++ [1]
def missed : List (Nat × Nat) := ((List.range 72).zip (unitBlock ++ rsCheck unitBlock)).filter (fun e => decide (e.2 ≠ 0)) |>.take 7
theorem witness_PatrolScrubVisitsEveryBlock :
    (let x := (scrubS id).stack 0
     x.up = true ∧ x.scrubbing = true ∧ x.scrubPos = 5 ∧ 5 + 1 ≠ stackBlocks ∧ 5 ∉ x.poison ∧ Tab.get [] x.errs 5 = []) ∧
    (∀ n ∈ [1, 2, 3, 6, 7], let s := scrubS fun x => { x with errs := [(5, errsN n)] }
     5 ∉ (s.stack 0).poison ∧ Tab.get [] (s.stack 0).errs 5 = errsN n ∧ (errsN n).length = n ∧ (n ≤ 6 ∨ rsDecode (storedWord (s.blockData 0 5) (errsN n)) = none)) ∧
    (let s := scrubS fun x => { x with errs := [(5, missed)] }
     5 ∉ (s.stack 0).poison ∧ Tab.get [] (s.stack 0).errs 5 = missed ∧ missed.length = 7 ∧
     (rsDecode (storedWord (s.blockData 0 5) missed)).map (·.1) = some (unitBlock ++ rsCheck unitBlock)) ∧
    (5 : Nat) ∈ ((scrubS fun x => { x with poison := [5] }).stack 0).poison ∧
    (let x := (scrubS fun x => { x with scrubPos := stackBlocks - 1 }).stack 0
     x.up = true ∧ x.scrubbing = true ∧ x.scrubPos + 1 = stackBlocks ∧ x.scrubPos ∉ x.poison ∧ Tab.get [] x.errs x.scrubPos = []) ∧
    (let s := (scrubS fun x => { x with scrubbing := false }).setReg (Reg.hbmScrub 0) 1
     (s.stack 0).up = true ∧ (s.stack 0).scrubbing = false ∧ (s.reg (Reg.hbmScrub 0)).getLsbD 0 = true) ∧
    (let s := (scrubS fun x => { x with suspect := true, ueHist := [1] }).setField (Reg.hbmThresh 0) 39 32 2
     (s.stack 0).suspect = true ∧ s.field (Reg.hbmThresh 0) 39 32 ≠ 0 ∧ (s.stack 0).ueHist.length < s.field (Reg.hbmThresh 0) 39 32) := by decide +kernel
/-- R452: a poisoned block counts towards the pass, and the scrub goes on behind it. -/
theorem test_scrub : let s := go (.scrubRead 0) (scrubS fun x => { x with poison := [5] })
    ((s.stack 0).poison, (s.stack 0).scrubPos, (s.stack 0).passPoisoned) = ([5], 6, 1) := by decide +kernel

/-! ### Joiners and sluices (R465 to R501) -/

/-- Pair 5's supplies are on; basin 3 of its endpoint is bound to pair 6's endpoint with 16 units, changed by `f`. -/
def ep5 : Nat := pairEp 5
def jnrS (f : Basin → Basin) : State :=
  let s := [5, 6].foldl (fun s k => s.setPair k { Pair.reset with adopted := BitVec.ofNat 48 (2 ^ k) }) (base Frame.empty)
  s.setBasin ep5 3 (f { Basin.reset with en := true, src := epAddr (pairEp 6), units := 16, cr := 16 })
def rec0 (skip written : Bool) (u : Nat) : SlRec := { skip := skip, src := epAddr (pairEp 6), tag := 7, units := u, len := 16, seq := 0, tide := 0, payload := [1], pos := 0, written := written }
/-- JNR_SEND to basin 3 of pair 5 with a length. -/
def sendV (len tryBit : Nat) : Word := BitVec.ofNat 64 ((ep5 * 32 + 3) * 2 ^ 48 + 7 * 2 ^ 32 + tryBit * 2 ^ 17 + len)
def waitS (rep other : Bool) : State :=
  let w (d : Nat) : SlSend := { dst := BitVec.ofNat 16 (d * 32 + 3), tag := 7, payload := [1], since := 100, reported := rep }
  let s := (jnrS fun b => { b with cr := 0 }).setSport (pairEp 6) { SendPort.reset with waiting := some (w ep5) }
  if other then s.setSport ep5 { SendPort.reset with waiting := some (w (pairEp 6)) } else s
theorem witness_SluicePortsAndTakeover_send :
    (let s := jnrS id
     s.pairLive 5 = true ∧ s.successor 5 ≠ none ∧ s.epRuns 6 = true ∧ sluiceEp 6 = pairEp 6 ∧ (s.sport (pairEp 6)).waiting = none ∧ (waitS false false).epRuns 6 = true ∧
     ((waitS false false).sport (pairEp 6)).waiting.isSome = true) ∧
    (let s := (List.range 48).foldl (fun s k => s.setPair k { s.pair k with stopped := decide (k ≠ 5) }) (jnrS id)
     s.pairLive 5 = true ∧ ((s.setPair 5 { s.pair 5 with stopped := true }).successor 5) = none) ∧
    State.reset.pairLive 5 = false ∧
    (let v := sendV 16368 0
     let dst : BitVec 16 := v.extractLsb' 48 16
     let b := (jnrS id).basin (epOf dst) (dst.toNat % 32)
     fieldOf v 14 0 = 16368 ∧ basinAddrOk dst = true ∧ b.en = true ∧ b.src = epAddr (pairEp 6) ∧ b.units < msgUnits 16368 ∧ fieldOf (sendV 16369 0) 14 0 = 16369) ∧
    (∀ len ∈ [0, 16 * 64 - 16], let v := sendV len 1
     let dst : BitVec 16 := v.extractLsb' 48 16
     v.getLsbD 17 = true ∧ msgUnits (fieldOf v 14 0) ≤ ((jnrS id).basin (epOf dst) (dst.toNat % 32)).units) ∧
    ((jnrS fun b => { b with en := false }).basin ep5 3).en = false ∧
    (let b := (jnrS fun b => { b with cr := 0 }).basin ep5 3
     (b.place (epAddr (pairEp 6)) 7 0 [1]).1 = false) := by decide +kernel
theorem witness_SluicePortsAndTakeover_stall : ∀ b ∈ [false, true], ∀ o ∈ [false, true], let s := waitS b o
    ((s.sport (pairEp 6)).waiting.map SlSend.reported) = some b ∧ ((s.sport (pairEp 6)).waiting.map fun w => epOf w.dst) = some ep5 ∧ ep5 ≠ pairEp 6 ∧
    (s.sport ep5).waiting.isSome = o ∧ (o = false ∨ ((s.sport ep5).waiting.map fun x => epOf x.dst) = some (pairEp 6)) := by decide +kernel
theorem test_send : let s := go (.jnrSend 6 (sendV 1 0) [9]) (jnrS id)
    ((s.sport (pairEp 6)).sendRes, (s.basin ep5 3).cr, (s.basin ep5 3).w, (s.basin ep5 3).recs.map SlRec.payload) = (0, 15, 1, [[9]]) := by decide +kernel
theorem test_takeover : let s := go (.jnrLockstep 5) ((jnrS id).setPair 5 { (jnrS id).pair 5 with duties := 6, adopted := 32 })
    ((s.pair 5).stopped, (s.pair 5).duties, (s.pair 4).duties, (s.pair 4).adopted) = (true, 0, 6, 32) := by decide +kernel

theorem witness_BasinsFollowTheRingRules_place :
    (∀ wcm ∈ [(0, 16, 16), (15, 16, 1), (0, 0, 1)], wcm.2.2 ≤ 16 - wcm.1 ∧ wcm.1 < 16 ∧ wcm.2.1 ≤ 16 ∧ msgUnits (wcm.2.2 * 64 - 16) = wcm.2.2) ∧
    (∀ wm ∈ [(15, 2), (10, 10)], 16 - wm.1 < wm.2 ∧ (16 - wm.1) + wm.2 ≤ 16) ∧ (∀ wm ∈ [(15, 16), (8, 9)], 16 < (16 - wm.1) + wm.2 ∧ 16 - wm.1 < wm.2 ∧ 16 - wm.1 ≤ 16) := by decide +kernel
/-- R482: a message of 4 units at position 14 of 16 skips 2 and is at 0. -/
theorem test_place_skips : let q := { Basin.reset with en := true, units := 16, cr := 16, w := 14 }.place 5 7 0 (List.replicate 240 1)
    (q.1, q.2.w, q.2.cr, q.2.recs.map fun r => (r.skip, r.pos, r.units)) = (true, 4, 10, [(true, 14, 2), (false, 0, 4)]) := by decide +kernel
theorem witness_BasinsFollowTheRingRules_read :
    (let s := (jnrS fun b => { b with recs := [rec0 false false 1] }).setPair 5 { (jnrS id).pair 5 with readWait := some 3 }
     (s.basin ep5 3).recs = [rec0 false false 1] ∧ epPair ep5 = some 5 ∧ (s.pair 5).readWait = some 3) ∧ epPair 0x200 = none ∧
    (let s := jnrS fun b => { b with cr := 14, returning := 2 }
     (s.sport (epOf (s.basin ep5 3).src)).waiting = none) ∧
    (let s := waitS false false
     (s.sport (epOf (s.basin ep5 3).src)).waiting = some { dst := BitVec.ofNat 16 (ep5 * 32 + 3), tag := 7, payload := [1], since := 100, reported := false } ∧
     epOf (BitVec.ofNat 16 (ep5 * 32 + 3)) = ep5 ∧ (BitVec.ofNat 16 (ep5 * 32 + 3)).toNat % 32 = 3) ∧
    (let s := jnrS id
     s.pairRuns 5 = true ∧ s.epRuns 5 = true ∧ sluiceEp 5 = ep5 ∧ s.canBind 5 = true ∧ 31 < epBasins 5 ∧ (s.basin ep5 4).en = false ∧ (s.basin ep5 3).en = true ∧ (s.basin ep5 3).head = none) ∧
    ((jnrS fun b => { b with recs := [rec0 false true 1] }).basin ep5 3).head = some (rec0 false true 1) ∧
    ((jnrS fun b => { b with recs := [rec0 false true 1, rec0 false false 2] }).basin ep5 3).recs = rec0 false true 1 :: rec0 false false 2 :: [] ∧
    ((jnrS fun b => { b with recs := [rec0 false true 1] }).basin ep5 3).idle = false ∧ ((jnrS id).basin ep5 3).idle = true ∧
    (∀ z ∈ [0, 6, 7, 15], fieldOf (BitVec.ofNat 64 (2 ^ 63 + z * 2 ^ 59)) 62 59 = z) ∧ (jnrS id).basinKib ep5 3 = 0 ∧
    (∀ kn ∈ [(48, 7), (131, 7), (132, 15), (155, 15)], (jnrS id).canBind kn.1 = true ∧ kn.2 < epBasins kn.1) ∧
    (jnrS id).epRuns 48 = true ∧ (jnrS id).epRuns 132 = true ∧ (jnrS id).epRuns 155 = true ∧
    (let s := (List.range 8).foldl (fun s i => s.setBasin ep5 (10 + i) { Basin.reset with en := true, sz := 6 }) (jnrS id)
     512 < s.basinKib ep5 3 + 2 ^ 0) := by decide +kernel
theorem test_basin_bind : ((go (.jnrBasinBind 5 3 (BitVec.ofNat 64 (2 ^ 63 + 2 * 2 ^ 59))) (jnrS id)).basin ep5 3).units = 64 := by decide +kernel

/-! ### Bring-up (R554, R719 to R728, R766 to R789) -/

/-- Stage `n` of bring-up is running, and rim segment 0 is up. -/
def inS (n : Nat) : State := (base Frame.empty).modBoot fun b => { b with stage := n, st := .running, perst := false }
def pwrS (n : Nat) (f : Power → Power) : State := (inS n).modPower f
theorem witness_BringUpStagesOneToFive_power :
    State.reset.phys.power.feed = false ∧
    (∀ n ∈ [0, 1, 23], let s := pwrS 1 fun w => { w with feed := true, segs := 1, segSlot := n }
     s.phys.power.feed = true ∧ s.boot.stage = 1 ∧ n = s.phys.power.segSlot ∧ s.segUp 0 = true) ∧
    (∀ i ∈ [0, 83], let s := pwrS 2 fun w => { w with baySlot := i }
     s.boot.stage = 2 ∧ s.phys.power.baySlot = i ∧ slotBay i < 84) ∧
    (∀ g ∈ [2, 3], let s := (inS g).modClock fun c => { c with rootLock := false }
     s.phys.clock.rootLock = false ∧ s.boot.stage = g ∧ s.boot.st = .running ∧ s.segUp 0 = true) := by decide +kernel
theorem witness_BringUpStagesOneToFive_rest :
    (∀ g ∈ [3, 4, 5, 7, 8, 9, 10, 11, 12, 13], (inS g).inStage g = true) ∧
    (inS 3).phys.clock.rootLock = true ∧ ((inS 3).bay 0).supply = .on ∧ (inS 5).boot.perst = false ∧ (inS 5).romPairs = [0, 1, 2, 3] ∧
    ((inS 5).romPairs.filter fun k => !([0, 1] : List Nat).contains k) = [2, 3] ∧ ((inS 5).romPairs.filter fun k => !([0, 1, 2, 3] : List Nat).contains k) = [] ∧
    ((inS 5).modBoot fun b => { b with perst := true }).boot.perst = true := by decide +kernel
theorem test_cold_start : let s := go .coldStart State.reset
    (s.boot.stage, s.boot.st, s.field Reg.bootStage 63 48) = (1, .running, 0x0100) := by decide +kernel
theorem test_rom_without_pairs : let s := go (.bootRom true [0, 1, 2, 3]) (inS 5)
    (s.boot.st, s.field Reg.bootFail 63 48) = (.failed, 0x0582) := by decide +kernel

/-- Stage 6 waits for an image of the shortest length at 0x10000. -/
def fetchS : State := ((hostS 0 ((inS 6).modBoot fun b => { b with st := .waiting })).setReg Reg.bootImgaddr 0x10000).setField Reg.bootImglen 31 0 imageMin
def imageS (n : Nat) (warm halted : Bool) : State :=
  ((inS n).modBoot fun b => { b with image := some { head := [], body := [] }, stage9 := some 5 }).setField Reg.bootStage 30 30 (flag warm) |>.modPower fun w => { w with halted := halted }
theorem witness_BringUpStagesSixToThirteen :
    (fetchS.boot.stage = 6 ∧ fetchS.boot.st = .waiting ∧ fetchS.segUp 0 = true ∧ (fetchS.fetchImage (.good [])).1.isSome = true ∧ (fetchS.fetchImage (.aborted [])).1 = none) ∧
    (let s := imageS 7 false false
     s.boot.image = some { head := [], body := [] } ∧ s.inStage 7 = true ∧ s.verifyReason { head := [], body := [] } (s.field Reg.bootImglen 31 0) = some 1) ∧
    (∀ un ∈ [[], [0], List.range 24], ((((List.range 24).filter fun k => (imageS 8 false false).segUp k).filter fun k => !un.contains k) = [] ↔ un = List.range 24)) ∧
    (imageS 8 false false).inStage 8 = true ∧
    (∀ b ∈ [false, true], (imageS 8 b false).warm = b) ∧
    (imageS 9 true true).phys.power.halted = true ∧ (imageS 9 true false).fastPath = true ∧ (imageS 9 false false).fastPath = false ∧ (imageS 9 false false).inStage 9 = true ∧
    ((inS 9).bay T.bay).supply = .on ∧ T.valid = true ∧ ((inS 9).tile T).s.seq ≠ .off ∧
    (∀ p ∈ [0, 31], (inS 12).segUp (3 * p / 4) = true ∧ ((inS 12).stlp p).st ≠ .up ∧ ((inS 12).setReg (Reg.stlPcfg p) 0).portEn p = false) ∧
    (∀ k ∈ [0, 47], (inS 13).pairLive k = true) ∧ (∀ e ∈ (inS 13).comp.fences, e.kind = 1 ∨ e.kind = 2 → (tileOfId e.id).valid = true) ∧
    (let s := onT (withSeq .reset) (inS 13)
     (s.tile T).s.seq = .reset ∧ s.tileFenced T = false) := by decide +kernel
/-- A manifest entry of an empty part (R776). -/
def entry0 : List Byte := leBytes 16 0 ++ sha384 []
/-- An image of empty parts, each with its hash in the manifest at 0x40. -/
def partsImage : Image := { head := leBytes 0x34 0 ++ leBytes 12 0x40 ++ (List.replicate 84 entry0).flatten, body := [] }
theorem entry0_length : entry0.length = 64 := by
  have h : (leBytes 16 0).length = 16 := by decide
  simp only [entry0, List.length_append, h, sha384_length]
theorem drop_entries (n : Nat) : ∀ b, b < n → ∃ r, (List.replicate n entry0).flatten.drop (64 * b) = entry0 ++ r := by
  induction n with
  | zero => intro b h; omega
  | succ n ih =>
    intro b h
    rw [List.replicate_succ, List.flatten_cons]
    cases b with
    | zero => exact ⟨_, rfl⟩
    | succ b =>
      obtain ⟨r, hr⟩ := ih b (by omega)
      refine ⟨r, ?_⟩
      rw [show 64 * (b + 1) = entry0.length + 64 * b by rw [entry0_length]; omega, List.drop_length_add_append, hr]
/-- The parts of an image may all agree with their hashes, or not (R776, R780). -/
theorem witness_BringUpStagesSixToThirteen_parts : partsImage.partsOk = true ∧ ({ head := [], body := [] } : Image).partsOk = false := by
  constructor
  · rw [Image.partsOk, List.all_eq_true]
    intro b hb
    have hb : b < 84 := List.mem_range.mp hb
    have hm : partsImage.manOff = 0x40 := by
      have : ∀ t : List Byte, leAt ((leBytes 0x34 0 ++ leBytes 12 0x40) ++ t) 0x34 4 = 0x40 := fun t => by rfl
      exact this _
    have hl : (leBytes 0x34 0 ++ leBytes 12 0x40).length = 64 := by decide +kernel
    obtain ⟨r, hr⟩ := drop_entries 84 b hb
    have hd : partsImage.head.drop (64 + 64 * b) = entry0 ++ r := by
      rw [← hr]
      show (leBytes 0x34 0 ++ leBytes 12 0x40 ++ _).drop _ = _
      rw [show 64 + 64 * b = (leBytes 0x34 0 ++ leBytes 12 0x40).length + 64 * b by rw [hl], List.drop_length_add_append]
    have hp : partsImage.partHash b = sha384 [] := by
      rw [Image.partHash, hm, show 0x40 + 64 * b + 16 = (64 + 64 * b) + 16 by omega, ← List.drop_drop, hd]
      have h : (leBytes 16 0).length = 16 := by decide
      rw [entry0, List.append_assoc, List.drop_left' h, List.take_append_of_le_length (by rw [sha384_length]),
        List.take_of_length_le (by rw [sha384_length])]
    rw [hp, show ((partsImage.body.drop (partsImage.partOff b)).take (partsImage.partLen b)) = [] by simp [partsImage]]
    exact beq_self_eq_true _
  · rw [Image.partsOk, List.all_eq_false]
    refine ⟨0, by simp, ?_⟩
    rw [show (({ head := [], body := [] } : Image).partHash 0) = [] by rfl]
    intro e
    have := congrArg List.length (beq_iff_eq.mp e)
    rw [sha384_length] at this
    cases this
/-- The fence list may be the one that the map is built for, or another (R357). -/
theorem witness_BringUpStagesSixToThirteen_map : (inS 11).inStage 11 = true ∧ (inS 11).warm = false ∧ (inS 11).sameFences = true ∧
    ((inS 11).modBoot fun b => { b with rebuilt := none }).sameFences = false ∧ (imageS 11 true false).warm = true ∧
    (inS 9).boot.copies = [] ∧ ((inS 9).modBoot fun b => { b with copies := [0, 1] }).boot.copies ≠ [] := by decide +kernel
theorem test_boot_ready : let s := go .bootReady (onT (withSeq .reset) (inS 13))
    (s.boot.st, s.field Reg.bootStage 63 48, (s.tile T).s.seq, (s.pair 24).duties.getLsbD 24) = (.ready, 0x0D01, .idle, true) := by decide +kernel
theorem test_image_reject : let s := go .imageVerify (imageS 7 false false)
    (s.boot.st, s.boot.rejected, s.field Reg.bootFail 63 48) = (.failed, true, 0x07A1) := by decide +kernel

/-! ### Live replacement, power and clocks (R566, R686 to R762, R791 to R797) -/

def liveS (st : Nat) : State := (((hostS 0 ((base Frame.empty).modBoot fun b => { b with liveImage := some { head := [], body := [] } })).setReg Reg.bootImgaddr 0x10000).setField Reg.bootImglen 31 0 imageMin).setField Reg.bootLive 63 60 st
/-- Pair 3 serves partition 1, which is in a recovery. -/
def recS : State := let s := liveS 3
    (s.setPair 3 { s.pair 3 with duties := 2 }).modHeal 1 fun h => { h with st := .placing, lost := [L0] }
theorem witness_LiveReplacementAndSupplyLoss_live :
    (∀ st ∈ [0, 4, 5, 6], let s := liveS st
     s.boot.st = .ready ∧ s.segUp 0 = true ∧ s.liveSt = st ∧ (s.fetchImage (.good [])).1.isSome = true ∧ (s.fetchImage (.aborted [])).1 = none) ∧
    (liveS 0).liveReason { head := [], body := [] } = some 1 ∧
    (let s := liveS 3
     s.boot.liveImage = some { head := [], body := [] } ∧ s.liveSt = 3 ∧ s.liveCluster = some 0 ∧ s.mayReplace 0 = true) ∧
    (recS.liveCluster = some 0 ∧ (recS.livePairs 0).any (fun k => recS.pairInRecovery k) = true) ∧
    ((liveS 3).setField Reg.bootLive 51 40 0xFFF).liveCluster = none := by decide +kernel
theorem witness_LiveReplacementAndSupplyLoss_loss :
    ((base Frame.empty).phys.power.feed = true ∧ (base Frame.empty).comp.pubs = [] ∧ (base Frame.empty).writerRuns = false ∧
     (let s := base Frame.empty
      { s with man := { s.man with grain := { s.man.grain with scanned := true } } }.writerRuns = true)) ∧
    (∀ v ∈ [Supply.on, .ramping, .off, .open_], (((base Frame.empty).modBay 83 fun x => { x with supply := v }).bay 83).supply = v) ∧
    (∀ n ∈ [0, 1, 23], (base Frame.empty).segUp n = true) ∧ ((base Frame.empty).bay 0).supply = .on := by decide +kernel
theorem test_bay_fuse : let s := go (.pwrBayFuse 0 .overcurrent) (base fr)
    ((s.bay 0).supply, (s.tile T).s.seq, s.isFenced 6 0, s.field Reg.pwrCnt 47 32) = (.open_, .off, true, 1) := by decide +kernel

def bayS (f : Bay → Bay) : State := (base Frame.empty).modBay 0 f
def powS (f : Power → Power) : State := (base Frame.empty).modPower f
/-- Bay 0 issues at the surge rate. -/
def surgeS (f : Power → Power) : State :=
  (((powS f).setReg Reg.pwrSurge 3).modClock fun c => { c with wcur := 10, ecur := 10 }).setReg Reg.clkHdiv 0x0A0A
theorem witness_SurgeThermalAndHaltLimits_surge :
    (powS id).phys.power.stepping = false ∧ (30000 : Nat) < 36000 ∧ (36000 : Nat) < 36001 ∧
    (let s := surgeS fun w => { w with stepping := true }
     s.phys.power.stepping = true ∧ ((s.pass 10000).setDraw 30001).nextHeld = some 0) ∧ ((powS id).setDraw 36001).nextHeld = none ∧
    ((surgeS id).setDraw 36001).nextHeld = some 0 ∧
    (let s := powS fun w => { w with heldBays := [7, 0] }
     s.phys.power.stepping = false ∧ s.phys.power.heldBays.getLast? = some 0) ∧
    (let s := bayS fun b => { b with wear := [(720 * 360000000, false)] }
     (s.bay 0).sill = true ∧ (s.bay 0).refused = false ∧ 720 * hourUs ≤ 10 * s.wearSum 0) ∧
    (let s := bayS fun b => { b with refused := true, wear := [] }
     (s.bay 0).refused = true ∧ 100 * s.wearSum 0 < 8 * (720 * hourUs)) := by decide +kernel
theorem test_stepdown : let s := go (.surgeStepdown 36001) (surgeS id)
    (s.phys.power.stepping, s.phys.power.heldBays, (s.bay 0).stepped) = (true, [0], true) := by decide +kernel
theorem witness_SurgeThermalAndHaltLimits_thermal :
    ((bayS id).bay 0).sill = true ∧ ((bayS id).bay 0).hot = false ∧ ([95, 96, 3] : List Nat).foldl max 0 = 96 ∧ ([95] : List Nat).foldl max 0 = 95 ∧
    (powS id).segUp 23 = true ∧ (powS id).phys.power.segHot.getLsbD 23 = false ∧
    (let x := (bayS fun b => { b with hot := true, temp := 96 }).bay 0
     x.hot = true ∧ x.braked = false ∧ 95 < x.temp) ∧
    (let x := (bayS fun b => { b with hot := true, coolAt := some 100 }).bay 0
     x.coolAt = some 100 ∧ x.hot = true) ∧
    (powS id).phys.power.halted = false ∧ (powS id).segUp 0 = true ∧
    (let s := powS fun w => { w with halted := true, haltPin := true }
     s.phys.power.halted = true ∧ s.phys.power.haltPin = true ∧ (s.comp.parts.all fun kx => kx.2.puts.all fun ke => decide (ke.2.unsent = [])) = true) ∧ ((powS fun w => { w with haltPin := false }).phys.power.haltPin = false) := by decide +kernel
theorem test_thermal : let s := go (.thermSample (.bay 0) [95, 96]) (base fr)
    ((s.bay 0).temp, (s.bay 0).hot, s.man.pins.thermN, s.field Reg.pwrCnt 31 16) = (96, true, false, 1) := by decide +kernel
theorem test_halt : let s := go .haltN (base fr)
    (s.phys.power.halted, (go .pwrResume s).phys.power.halted, (go .pwrResume (go .haltNRelease s)).phys.power.halted) = (true, true, false) := by decide +kernel

def clkS (f : Clock → Clock) : State := (base Frame.empty).modClock f
def tideS (f : TideBase → TideBase) : State := (base Frame.empty).modTime f
/-- SYNC_IN is the source and its last edge was at 100. -/
def syncS : State := ((tideS fun x => { x with armed := true, lastEdge := some 100, measAt := 0 }).setField Reg.tideCfg 33 32 1).setField Reg.tideSync 19 0 1000
theorem witness_ClocksAndTideAreSteered_clocks :
    (let c := (clkS fun c => { c with src := 1, holdSince := none }).phys.clock
     c.rootLock = true ∧ c.src = 1 ∧ c.holdSince = none) ∧
    (∀ d ∈ [9999999, 10000000], let s := (clkS fun c => { c with holdSince := some 5 }).passTo (5 + d)
     s.phys.clock.holdSince = some 5 ∧ s.now = 5 + d) ∧
    (let s := (clkS fun c => { c with src := 2 }).modTime fun x => { x with trimEdges := 17 }
     s.phys.clock.src ≠ 1 ∧ 17 ≤ s.phys.time.trimEdges) ∧
    (((clkS id).bay 0).ripple = true ∧ (clkS id).rippleQuiet 0 = false) ∧
    ((clkS id).hdivCause 12 12, (clkS id).hdivCause 9 12, (clkS id).hdivCause 11 45, (clkS id).hdivCause 10 12, (clkS fun c => { c with changing := true }).hdivCause 12 12) = (0, 3, 1, 2, 4) ∧
    (let s := clkS fun c => { c with changing := true, wcur := 12, ecur := 13 }
     s.wTarget = 12 ∧ s.eTarget = 12 ∧ stepToward s.phys.clock.ecur s.eTarget ≠ s.phys.clock.ecur) ∧
    (∀ we ∈ [(20, 12, true), (20, 30, true), (12, 20, false), (42, 10, false)], let s := clkS fun c => { c with changing := true, wcur := we.1, ecur := we.2.1 }
     let w := stepToward we.1 s.wTarget
     decide (w ≠ we.1 ∧ (stepToward we.2.1 s.eTarget = we.2.1 ∨ ratioOk w we.2.1 = true)) = we.2.2 ∧ (w ≠ we.1 ∨ stepToward we.2.1 s.eTarget ≠ we.2.1)) ∧
    (let s := clkS fun c => { c with changing := true, wchg := true, echg := true, wcur := 12, ecur := 12 }
     s.phys.clock.changing = true ∧ s.phys.clock.wcur = s.wTarget ∧ s.phys.clock.ecur = s.eTarget) := by decide +kernel
theorem test_divider : ((go .clkDividerStep (clkS fun c => { c with changing := true, wcur := 12, ecur := 20 })).phys.clock.ecur,
    (go (.clkHdivWrite 0x2D0B) (clkS id)).field Reg.clkHstat 39 37) = (19, 1) := by decide +kernel
theorem witness_ClocksAndTideAreSteered_tide :
    ((tideS id).phys.clock.rootLock = true ∧ ((tideS id).passTo ((tideS id).phys.time.measAt + 1000000)).tideSource = 0) ∧
    (syncS.phys.clock.rootLock = true ∧ (syncS.passTo (syncS.phys.time.measAt + 1000000)).tideSource = 1) ∧
    (∀ d ∈ [899999, 900000], let s := syncS.passTo (100 + d)
     s.phys.time.lastEdge = some 100 ∧ (100 + 900000 ≤ s.now ↔ d = 900000)) ∧
    (syncS.phys.time.lastEdge = some 100 ∧ syncS.phys.time.armed = true ∧ syncS.field Reg.tideCfg 33 32 = 1 ∧
     (syncS.setField Reg.tideCfg 33 32 3).field Reg.tideCfg 33 32 = 3 ∧ (syncS.setField Reg.tideCfg 33 32 3).parentsUp = []) ∧
    ((tideS id).tide < 1 ∧ ¬ ((tideS id).passTo 5).tide < 5) ∧ State.reset.phys.clock.rootLock = false := by decide +kernel
/-- The offset of a measurement is some number whatever the dropped half unit is (R709). -/
theorem witness_ClocksAndTideAreSteered_offset : ∃ off, (syncS.passTo (syncS.phys.time.measAt + 1000000)).tideOffset.1 = some off := by
  have h : (syncS.passTo (syncS.phys.time.measAt + 1000000)).tideSource = 1 := by decide +kernel
  simp only [State.tideOffset, h]
  exact ⟨_, rfl⟩
theorem test_tide_set : let s := go (.tideSet 9) (base fr)
    (s.tide, (go (.tideSet 9) s).tide, (go (.tideSet 9) s).field Reg.tideStat 60 60) = (9, 9, 1) := by decide +kernel

/-! ### Stesum (R639 to R680) -/

/-- Port 7 UP with lanes on channels 0 to 7 each way, 8 spares, changed by `f`. -/
def chan : Channels := { Channels.reset with width := 8, map := List.range 8, spares := [8, 9] }
def stlS (f : StlPort → StlPort) : State :=
  (base fr).setStlp 7 (f { StlPort.reset with st := .up, rx := chan, tx := chan, credits := fullCredits, trained := true })
def sflit (seq : Nat) (good : Bool) : StlFlit := { seq := BitVec.ofNat 16 seq, ack := 0xFFFF, kind := 1, cvc := 0, ccnt := 0, stop := 0, flags := 0, len := 0, payload := [], crcGood := good }
/-- A flit with 10 bytes on VC 0, the last of its packet where `e`. -/
def pflit (seq : Nat) (e : Bool) : StlFlit := { sflit seq true with flags := BitVec.ofNat 8 (2 * flag e), len := 10 }
theorem witness_StesumLanesAndLinkLayer_lanes :
    (let x := (stlS id).stlp 7
     x.st = .up ∧ (∀ k, k < 18 → (stlS id).belowMargin 7 ((List.replicate 18 ({ pwr := 0x7FFF, eye := 0xFF, ser := 0 } : ChannelReading)).getD k ChannelReading.zero) = false) ∧
     x.rx.map.length ≤ 18 ∧ (∀ k ∈ x.rx.map, k < 18) ∧ Tab.rising 0 x.rx.weak = true) ∧
    (let x := (stlS id).stlp 7
     7 < x.tx.map.length ∧ x.tx.spares.contains 9 = true) ∧
    (let x := (stlS fun x => { x with rx := { x.rx with swap := some (7, 9) } }).stlp 7
     x.rx.swap = some (7, 9) ∧ 7 < x.rx.map.length ∧ x.rx.swap ≠ some (6, 9) ∧ 6 < x.tx.map.length ∧ x.tx.spares.contains 9 = true) := by decide +kernel
theorem test_lane_swap : let s := go (.stlLaneSwap 7 true true) (stlS fun x => { x with rx := { x.rx with swap := some (7, 9) } })
    ((s.stlp 7).rx.map, (s.stlp 7).rx.spares, (s.stlp 7).ll) = ([0, 1, 2, 3, 4, 5, 6, 9], [8], .resync) := by decide +kernel
theorem witness_StesumLanesAndLinkLayer_flits :
    (∀ q ∈ [0xFFFF, 0, 0xFFFE], let x := (stlS fun x => { x with rxSeq := BitVec.ofNat 16 q }).stlp 7
     (sflit (q + 1) true).crcGood = true ∧ (sflit (q + 1) true).seq = x.rxSeq + 1 ∧ (sflit (q + 1) true).nak = false ∧ x.swapping = false ∧
     (∀ e ∈ [false, true], (pflit (q + 1) e).eop = e ∧ (pflit (q + 1) e).len ≠ 0 ∧ (pflit (q + 1) e).seq = x.rxSeq + 1 ∧ (pflit (q + 1) e).crcGood = true ∧ (pflit (q + 1) e).nak = false)) ∧
    (let x := (stlS fun x => { x with nak := true, attempts := 3 }).stlp 7
     (sflit 5 true).seq ≠ x.rxSeq + 1 ∧ x.nak = true ∧ (sflit 0 false).crcGood = false ∧ x.attempts + 1 < 5) ∧
    (let x := (stlS fun x => { x with replay := [sflit 4 true] }).stlp 7
     x.replay ≠ [] ∧ x.swapping = false) ∧
    (∀ l ∈ [LlState.credit, .onoff, .resync], let x := (stlS fun x => { x with ll := l }).stlp 7
     x.st = .up ∧ x.ll = l ∧ x.rx.swap = none ∧ x.tx.swap = none ∧ x.sendq = []) ∧
    (∀ n ∈ [0, 6], (Tab.put ((List.range n).map fun v => (v, 1)) n (min 9 (vcBuffer n))).length = n + 1) := by decide +kernel
theorem test_flit : let s := go (.stlDataFlit 7 (sflit 0 true)) (stlS id)
    ((s.stlp 7).rxSeq, (go (.stlDataFlit 7 (sflit 9 true)) s).out.length - s.out.length, ((go (.stlDataFlit 7 (sflit 9 true)) s).stlp 7).rxSeq) = (0, 0, 0) := by decide +kernel

/-- Two flits of a packet leave the buffer together and give back two credits (R645, R650). -/
theorem test_buffer : let s := go (.stlDataFlit 7 (pflit 0 false)) (stlS id)
    let t := go (.stlDataFlit 7 (pflit 1 true)) s
    ((s.stlp 7).held, (t.stlp 7).held, t.out.head?.map fun o => match o with | .stlFlit _ f => f.ccnt | _ => 9) = ([(0, 1)], [], some 2) := by decide +kernel

def trainS (rw : Bool) : State := (stlS fun x => { x with st := .training, trained := false, roleWritten := rw }).setField (Reg.stlPcfg 7) 2 0 1
def trg (n : Nat) (addr : Dword) (role : Nat) : Training := { rxPass := List.range n, txPass := List.range n, partnerAddr := addr, partnerPort := 8, partnerRole := role }
/-- A torus of 3 in x: the neighbour in role 1 (x - 1) of address 0 is x = 2. -/
def ringS3 : State := (trainS true).setReg Reg.stlTorus 0x30101
theorem witness_StesumPortsAndTime_training :
    (∀ b ∈ [false, true], ((trainS b).stlp 7).st = .training ∧ ((trainS b).stlp 7).roleWritten = b ∧ ((trainS b).stlp 7).sendq = [] ∧ ((trainS b).stlp 7).again = [] ∧ ((trainS b).stlp 7).trained = false) ∧
    (∀ n ∈ [7, 8, 18], (8 ≤ ((List.range 18).filter fun k => (List.range n).contains k).length ↔ n ≠ 7)) ∧
    (trainS true).partnerOk 7 (trg 8 0 1) = false ∧ ringS3.partnerOk 7 (trg 8 0x8000 0) = true := by decide +kernel
theorem witness_StesumPortsAndTime_states :
    (let s := (stlS fun x => { x with st := .down })
     (s.stlp 7).st = .down ∧ s.portEn 7 = true ∧ (s.setReg (Reg.stlPcfg 7) 0).portEn 7 = false) ∧
    (0x101 : Word).getLsbD 8 = true ∧ (0x001 : Word).getLsbD 8 = false ∧ ((stlS id).stlp 7).st = .up ∧ (7 : Nat) < 32 ∧
    (let x := (stlS fun x => { x with tx1 := some 90 }).stlp 7
     x.tx1 = some (90 : Word).toNat ∧ x.tx1 ≠ some (91 : Word).toNat) ∧
    (let a : Int := 1000 - 90
     let b : Int := 0 - 1000
     ∀ h ∈ [(0 : Int), 1], -(2 ^ 31) ≤ (a - b + h) / 2 - 0 ∧ (a - b + h) / 2 - 0 < 2 ^ 31) := by decide +kernel
theorem test_port_down : let s := go (.stlPortDown 7) (stlS id)
    ((s.stlp 7).st, s.field (Reg.stlPstat 7) 26 24, ((go (.stlRetrain 7) s).stlp 7).st) = (.down, 4, .training) := by decide +kernel

/-! ### Puts (R657 to R671) -/

/-- Entry 3 of partition 1: `n` bytes from 0x1000 to 0x2000 of partition 1 of the module itself. -/
def putX (n : Nat) : Put := { Put.reset with spa := 0x1000, len := BitVec.ofNat 31 n, dpart := 1, dpa := 0x2000, hold := false }
def putS (x : Put) : State := (withHbm (base frW)).setPut 1 3 x
def putV : Word := 0x103
def respH (st : Nat) : PutHeader := { msgH with kind := 2, spart := 1, dpart := 1, src := 0, entry := 3, chunk := st, step := 2, dpa := 0x3000 }
theorem putS_clean (x : Put) : ∀ k, ((putS x).stack k).poison = [] ∧ ((putS x).stack k).errs = [] := fun k => by
  have h : (putS x).stack k = Stack.reset := by
    show Tab.get Stack.reset ([] : Tab Stack) k = Stack.reset
    rfl
  rw [h]
  exact ⟨rfl, rfl⟩
theorem witness_PutsAreSentAndEnd_go :
    ((0x003 : Word).getLsbD 8 = false ∧ putV.getLsbD 8 = true ∧ putV.toNat % 64 = 3 ∧ (putS (putX 1)).partExists 1 = true) ∧
    ({ putX 1 with status := .held } : Put).active = true ∧ (putX 1).active = false ∧
    (∀ n ∈ [0, 1, 4096, 4097], let s := putS (putX n)
     s.assigned 1 (putX n).spa.toNat (putX n).bytes = true ∧ (putX n).hold = false ∧ (putX n).dst = s.address ∧ s.phys.power.halted = false ∧
     (s.modPower fun w => { w with halted := true }).phys.power.halted = true) ∧
    (let x : Put := { putX 1 with spa := 0x40000000 }
     (putS x).assigned 1 x.spa.toNat x.bytes = false) ∧
    ({ putX 1 with hold := true } : Put).hold = true ∧ ((putS (putX 1)).frameOf 1).stepWeir ≠ 0xFFFF ∧
    (let s := (putS (putX 1)).setReg Reg.stlTorus 0x30101
     s.roleTo 0x4000 = some 0 ∧ s.upPorts 0 = []) := by decide +kernel
theorem witness_PutsAreSentAndEnd_response : let x : Put := { putX 8192 with status := .sending, step := 2, busy := [1] }
    let s := putS x
    (∀ st ∈ [0, 1, 2, 3, 4], let h := respH st
     h.kind = 0x02 ∧ h.dst = s.address ∧ h.dpart = 1 ∧ h.entry = 3 ∧ s.partExists 1 = true ∧ (s.put 1 3).status = .sending ∧ (s.put 1 3).step = h.step ∧ (s.put 1 3).dst = h.src ∧ h.chunk % 256 = st) ∧
    (s.put 1 3).step ≠ ({ respH 0 with step := 9 } : PutHeader).step ∧ (s.put 1 3).busy = [1] ∧ s.phys.power.halted = false := by decide +kernel
theorem test_put : let s := go (.putGo 1 putV) (putS (putX 4097))
    (s.out.map (fun o => match o with | .stlPacket h d => (h.chunk, h.len, h.dpa, d.length) | _ => (9, 9, 9, 9)), (s.put 1 3).status) = ([(1, 1, 0x3000, 1), (0, 4096, 0x2000, 4096)], .sending) := by decide +kernel
/-- R756: a put triggered in a halt leaves after the resume. -/
theorem test_put_halt : let s := go (.putGo 1 putV) ((putS (putX 16)).modPower fun w => { w with halted := true })
    (s.out.length, (s.put 1 3).unsent, (go .pwrResume s).out.length, ((go .pwrResume s).put 1 3).unsent) = (0, [0], 1, []) := by decide +kernel
theorem test_put_done : let s := go (.putResponse (respH 0)) (putS { putX 1 with status := .sending, step := 2 })
    ((s.put 1 3).status, s.field (Reg.prtStlCnt 1) 31 0) = (.done, 1) := by decide +kernel

/-- An inbound chunk from the module itself to the window 0x2000 to 0x2FFF of partition 1. -/
def inH (part chunk total dpa len : Nat) : PutHeader := { msgH with kind := 1, dpart := part, spart := 1, src := 0, entry := 3, chunk := chunk, step := 2, dpa := dpa, len := len, total := total, dfid := 9 }
def inS3 (inb : List Inbound) : State := (((withHbm (base fr)).setReg (Reg.prtStlInbase 1) (BitVec.ofNat 64 (2 ^ 63 + 0x2000))).setReg (Reg.prtStlInlim 1) 0x2FFF).modPart 1 fun x => { x with inbound := inb }
theorem witness_PutsAreReceivedAndPassedOn_inbound :
    (∀ q ∈ [0, 9, 2], let h := inH q 0 1 0x2000 16
     h.kind = 0x01 ∧ h.dst = (inS3 []).address ∧ addrSys h.src = addrSys (inS3 []).address ∧ h.src = (inS3 []).address ∧ (q = 0 ∨ 8 < q ∨ (inS3 []).partExists q = false)) ∧
    (let s := inS3 []
     let b := s.reg (Reg.prtStlInbase 1)
     s.partExists 1 = true ∧ b.getLsbD 63 = true ∧ s.field (Reg.prtStlInlim 1) 47 0 = 0x2FFF ∧
     (∀ al ∈ [(0x2000, 4096), (0x2FFF, 1)], fieldOf b 47 0 ≤ al.1 ∧ al.1 + al.2 ≤ 0x2FFF + 1 ∧ s.assigned 1 al.1 al.2 = true) ∧
     (∀ al ∈ [(0x1FFF, 1), (0x2FFF, 2)], ¬ (fieldOf b 47 0 ≤ al.1 ∧ al.1 + al.2 ≤ 0x2FFF + 1))) ∧
    (let i : Inbound := { id := putId (inH 1 0 2 0x2000 16), got := [0], dup := false }
     let s := inS3 [i]
     (s.instanceOf (inH 1 0 2 0x2000 16)).got = [0] ∧ (s.instanceOf (inH 1 1 2 0x2010 16)).got.length + 1 = max 1 2 ∧ 1 ∉ (s.instanceOf (inH 1 1 2 0x2010 16)).got ∧
     s.hasFloat 1 9 = true ∧ (s.instanceOf (inH 1 1 3 0x2010 16)).got.length + 1 < max 1 3) ∧
    (let s := inS3 ((List.range 64).map fun k => { id := { src := 0, spart := 2, entry := k, step := 0 }, got := [], dup := false })
     64 ≤ (s.part 1).inbound.countP (fun i => !i.dup) ∧ (s.part 1).inbound.any (fun i => decide (i.id = putId (inH 1 0 1 0x2000 16))) = false) := by decide +kernel
theorem test_inbound : let s := go (.putChunk (inH 1 0 1 0x2000 2) [0xCD, 0xAB]) (inS3 [])
    (memRead s.comp.hbm 0x2000 2, (s.float 1 9).count, (s.part 1).inbound, s.out.map fun o => match o with | .stlPacket h _ => (h.kind, h.chunk) | _ => (0, 9)) = ([0xCD, 0xAB], 1, [], [(2, 0)]) := by decide +kernel
/-- Ports 7 and 2 are UP; a torus of 3 in x. -/
def tranS (f : StlPort → StlPort) : State := ((stlS id).setStlp 2 (f { StlPort.reset with st := .up, tx := chan, credits := fullCredits })).setReg Reg.stlTorus 0x30101
theorem witness_PutsAreReceivedAndPassedOn_transit :
    (let s := tranS id
     (s.stlp 7).st = .up ∧ s.roleTo 0 = none ∧ s.roleTo 0x4000 = some 0 ∧ (s.egress 7 0).isSome = true ∧ (stlS id).roleTo 0 = none) ∧
    (let s := (stlS id).setReg Reg.stlTorus 0x30101 |>.setField (Reg.stlPcfg 7) 2 0 1
     (s.stlp 7).st = .up ∧ s.roleTo 0x4000 = some 0 ∧ s.egress 7 0 = none) ∧
    (let s := (((stlS id).setReg Reg.stlTorus 0x30101).setField (Reg.stlPcfg 7) 2 0 1).setPut 1 3 { putX 1 with status := .sending, step := 2, dst := 0x4000 }
     let h : PutHeader := { inH 1 0 1 0 16 with dst := 0x4000 }
     (s.stlp 7).st = .up ∧ s.roleTo h.dst = some 0 ∧ s.egress 7 0 = none ∧ h.kind = 0x01 ∧ h.src = s.address ∧ (s.put h.spart h.entry).status = .sending ∧
     (s.put h.spart h.entry).step = h.step) ∧
    addrSys ({ inH 1 0 1 0x2000 16 with src := 0xFFFF0000 } : PutHeader).src ≠ addrSys (tranS id).address := by decide +kernel
theorem witness_PutsAreReceivedAndPassedOn_waits : ∀ vc, ((tranS fun x => { x with tx := { x.tx with swap := some (0, 8) } }).stlp 2).maySend vc = false := by
  intro vc
  have h : ((tranS fun x => { x with tx := { x.tx with swap := some (0, 8) } }).stlp 2).tx.swap = some (0, 8) := by decide +kernel
  simp [StlPort.maySend, StlPort.swapping, h]

/-! ### Attestation, the Grain log, windows and I3C (R162, R327, R376, R502, R805 to R835, R860) -/

/-- The log is scanned, the LMS trees are ready with leaves left; changed by `k` and `f`. -/
def grnS (k : Lms → Lms) (f : Grain → Grain) : State :=
  ((base fr).modLms fun x => k { x with valid := true, topq := 5, botq := 10, limit := 64, ready := true }).modGrain fun g => f { g with scanned := true }
def withAtt (st : Nat) (q : List Inst) (s : State) : State := { s with man := { s.man with attPcie := { s.man.attPcie with st := st }, attQueue := q } }
theorem witness_ReportsAndLogRecords_go :
    (∀ st ∈ [0, 1, 2, 3, 4], let s := withAtt st [] (grnS id id)
     (s.attest .pcie).st = st ∧ s.segUp 0 = true ∧ s.man.attQueue = [] ∧ s.man.lms.valid = true ∧ s.man.lms.ready = true ∧ s.man.grain.scanned = true ∧ s.man.lms.botq < s.man.lms.limit) ∧
    (let s := withAtt 2 [.pcie] (grnS id id)
     s.man.attQueue = [.pcie] ∧ (s.attest .pcie).st = 2 ∧ (s.attest .i3c).st = 0) ∧
    ((grnS (fun k => { k with valid := false }) id).man.lms.valid = false ∧ (grnS (fun k => { k with valid := false }) id).man.attQueue = []) ∧
    (let k := (grnS (fun k => { k with botq := 2 ^ 20, topq := 2 ^ 20 - 1 }) id).man.lms
     k.valid = true ∧ k.botq = 2 ^ 20 ∧ 2 ^ 20 ≤ k.topq + 1) ∧
    (∀ b ∈ [64, 2 ^ 20], let s := grnS (fun k => { k with botq := b, limit := b }) id
     s.man.lms.limit ≤ s.man.lms.botq ∧ s.reserving = false ∧ (s.man.lms.botq < 2 ^ 20 ∨ s.man.lms.topq + 1 < 2 ^ 20)) := by decide +kernel
theorem test_attest_wants_leaves : let s := go (.attestGo .pcie) (grnS (fun k => { k with botq := 64 }) id)
    ((s.attest .pcie).st, s.man.attQueue, s.man.grain.waiting.map fun r => (r.type, leAt r.body 0 4, leAt r.body 4 4)) = (1, [.pcie], [(0x0080, 5, 128)]) := by decide +kernel
theorem witness_ReportsAndLogRecords_sign :
    (∀ q ∈ [[], [Inst.pcie]], let s := withAtt 1 q (grnS (fun k => { k with ready := false }) id)
     s.segUp 0 = true ∧ s.man.lms.valid = true ∧ s.man.attQueue = q ∧ (s.attest .pcie).st = 1 ∧ s.man.grain.scanned = true ∧ s.man.lms.botq < s.man.lms.limit ∧ s.man.lms.botq < 2 ^ 20) ∧
    (∀ q ∈ [[Inst.pcie], [.pcie, .i3c]], let s := withAtt 2 q (grnS id id)
     s.man.attQueue = q ∧ (s.attest .pcie).st = 2 ∧ (s.attest .i3c).st ≠ 1) ∧
    (let s := { withAtt 2 [.pcie, .i3c] (grnS id id) with man := { (withAtt 2 [.pcie, .i3c] (grnS id id)).man with attI3c := { (grnS id id).man.attI3c with st := 1 } } }
     (s.attest .pcie).st = 2 ∧ (s.attest .i3c).st = 1 ∧ s.man.attQueue = [.pcie, .i3c] ∧ s.man.lms.ready = true ∧ s.man.lms.botq + 1 < s.man.lms.limit) := by decide +kernel

def grec (type : Nat) : GrnRec := { type := BitVec.ofNat 16 type, srck := 3, srci := 0, tide := 0, body := [] }
theorem witness_ReportsAndLogRecords_queue :
    State.reset.segUp 0 = false ∧ (∀ n ∈ [0, 4095], (grnS id fun g => { g with queue := List.replicate n (grec 0x20) }).man.grain.queue.length = n) ∧
    4096 ≤ (grnS id fun g => { g with queue := List.replicate 4096 (grec 0x20) }).man.grain.queue.length ∧
    mustWait (grec 0x80).type.toNat = true ∧ mustWait (grec 0x20).type.toNat = false ∧ (grnS id id).man.grain.dropAt = none := by decide +kernel
/-- The area of the record and the slot it goes to are free and its own. -/
theorem witness_ReportsAndLogRecords_commit :
    (∀ ty ∈ [0x20, 0x30, 0x80], let s := grnS id fun g => { g with queue := [grec ty], next := [(0, 7), (1, 7), (2, 60480), (3, 7)] }
     let g := s.man.grain
     let a := g.areaFor (grec ty)
     nextRec g.queue = some (grec ty) ∧ s.writerRuns = true ∧ g.retryAt = none ∧ g.canWrite a = true ∧ (grec ty).type.toNat = ty) ∧
    (grnS id fun g => { g with slots := [(slotOf 1 7, .torn)], next := [(1, 7)] }).man.grain.canWrite 1 = false ∧ 5 < lmsLowAt ∧
    (let s := grnS (fun k => { k with botq := 2 ^ 20 - 1, limit := 2 ^ 20 }) id
     s.man.lms.botq + 1 = 2 ^ 20 ∧ s.man.lms.topq + 1 < 2 ^ 20 ∧ s.reserving = false) ∧
    ((grnS id fun g => { g with retryAt := some 500 }).man.grain.retryAt = some 500) ∧
    (∀ area ∈ [1, 2, 3], let s := grnS id id
     s.writerRuns = true ∧ Tab.get 0 s.man.grain.erased area ≠ s.man.grain.nextSector area + 1) ∧
    (let s := grnS id fun g => { g with erased := Tab.set 0 g.erased 1 (g.nextSector 1 + 1) }
     Tab.get 0 s.man.grain.erased 1 = s.man.grain.nextSector 1 + 1) := by decide +kernel
theorem test_commit_lms : let s := go (.grnRecordCommit 0) (grnS id fun g => { g with queue := [{ grec 0x80 with body := leBytes 216 (6 + 64 * 2 ^ 32) }], next := [(3, 7)] })
    ((s.man.lms.topq, s.man.lms.botq, s.man.lms.limit, s.man.lms.ready), s.man.grain.queue.length, s.man.grain.nextSeq 3) = ((6, 0, 64, false), 0, 8) := by decide +kernel
theorem test_lms_low : let s := go (.grnRecordCommit 0) (grnS id fun g => { g with queue := [{ grec 0x80 with body := leBytes 216 (2 ^ 20 - 16 + 64 * 2 ^ 32) }], next := [(3, 7)] })
    (s.man.lms.topq, s.man.grain.waiting.map fun r => leAt r.body 0 2) = (2 ^ 20 - 16, [Ev.lmsLow.code.toNat]) := by decide +kernel
theorem test_commit_fails : let s := go (.grnRecordCommit 3) (grnS id fun g => { g with queue := [grec 0x20] })
    (s.man.grain.queue.length, s.man.grain.retryAt, s.field Reg.grnStat 47 32) = (1, some 1000000000, 3) := by decide +kernel

/-- SIL_TSEL and SIL_RTSEL of bay 0 select tile T at an address, with INC. -/
def tselS (row a : Nat) (f : Tile → Tile) : State :=
  (onT f (base fr)).setReg (Reg.silTsel 0) (BitVec.ofNat 64 (a * 2 ^ 32 + 2 ^ 23 + row * 2 ^ 16)) |>.setReg (Reg.silRtsel 0) (BitVec.ofNat 64 (a + 2 ^ 16))
theorem witness_WindowsAndSelectedReads_tile :
    ((base fr).bay 0).sill = true ∧ (tselS 96 0 id).selTile 0 = none ∧ (tselS 0 0 id).selTile 0 = some T ∧ ((tselS 0 0 (withSeq .off)).tile T).s.seq = .off ∧
    (∀ a ∈ [0, 0x7FF8, 0xBFF8, 0xF000], let s := tselS 0 a id
     okd ((s.tile T).readLocal T (s.hosted T) a 8) (fun _ => true) = true ∧ s.field (Reg.silTsel 0) 47 32 = a ∧ accessible a 8 = true) ∧
    (∀ fs ∈ [((fun x => x : Tile → Tile), 0xA800, false), (lostWord (.wm, 0), 0, true)], let s := tselS 0 fs.2.1 fs.1
     (match (s.tile T).readLocal T (s.hosted T) fs.2.1 8 with
      | .error (.uncorr _) => fs.2.2
      | .error _ => !fs.2.2
      | .ok _ => false) = true) ∧
    accessible 0xA800 8 = false ∧ memAt 0xC000 = some .im ∧ ((tselS 0 0xC000 (withSeq .blocked)).tile T).s.seq = .blocked ∧
    (∀ a ∈ [0x00, 0x20, 0x18], ((tselS 0 a id).routerWord T a).isSome = true) ∧ (tselS 0 0xFFF8 id).routerWord T 0xFFF8 = none := by decide +kernel
theorem test_window : let s := go (.silTdataAccess 0 (some 0x0102)) (tselS 0 0x7FF8 id)
    (memRead (s.tile T).mem 0x7FF8 2, s.field (Reg.silTsel 0) 47 32, s.field (Reg.silTsel 0) 63 61) = ([2, 1], 0x8000, 0) := by decide +kernel
theorem test_router_window : let s := go (.silRtdataAccess 0 (some 1)) ((tselS 0 0x20 id).modRouter T fun r => { r with retry := 5 })
    ((s.router T).retry, s.field (Reg.silRtsel 0) 63 61, (go (.silRtdataAccess 0 (some 1)) (tselS 0 0x18 id)).field (Reg.silRtsel 0) 63 61) = (0, 0, 3) := by decide +kernel
def recBytes : List Byte := leBytes 256 (7 * 2 ^ 32)
/-- Area 1 holds record 7 and a torn slot 8; its next number is 10. -/
def rdS : State := grnS id fun g => { g with next := [(1, 10)], slots := [(slotOf 1 7, .record recBytes), (slotOf 1 8, .torn)] }
theorem witness_WindowsAndSelectedReads_log :
    (let g := rdS.man.grain
     g.held 1 7 = true ∧ g.slot 1 7 = .record recBytes ∧ recSeq recBytes = 7 ∧ g.held 1 8 = true ∧ g.slot 1 8 = .torn ∧ g.held 1 10 = false ∧ decide (g.slot 1 9 = .free) = true ∧
     (BitVec.ofNat 64 (2 ^ 62 + 7)).toNat / 2 ^ 62 = 1) ∧
    (∀ b ∈ [false, true], let s := { rdS with man := { rdS.man with rdPcie := { rdS.man.rdPcie with sel := BitVec.ofNat 64 (flag b * 2 ^ 32) } } }
     (s.reader .pcie).sel.getLsbD 32 = b) := by decide +kernel
theorem test_reader : let s := go (.grnRselFetch .pcie (BitVec.ofNat 64 (2 ^ 62 + 7))) rdS
    ((s.reader .pcie).st, (s.reader .pcie).buf == recBytes, ((go (.grnRselFetch .i3c (BitVec.ofNat 64 (2 ^ 62 + 8))) rdS).reader .i3c).st, ((go (.grnRselFetch .i3c 10) rdS).reader .i3c).buf.length) = (1, true, 2, 256) := by decide +kernel
theorem witness_WindowsAndSelectedReads_i3c :
    State.reset.segUp 0 = false ∧ (base fr).segUp 0 = true ∧ ([1, 2] : List Byte).length < 3 ∧ leBytes 3 (Reg.idNoncek 3) ++ leBytes 8 5 = leBytes 11 (Reg.idNoncek 3 + 5 * 2 ^ 24) ∧
    Reg.idNoncek 3 < 2 ^ 24 ∧ (leBytes 8 5).length = 8 ∧ (1 : Byte).getLsbD 0 = true ∧ Reg.grnRsel < 2 ^ 24 ∧
    (∀ p ∈ [0, 0x10F, 0x130], ¬ (0x110 ≤ p ∧ p < 0x130) ∧ p ≠ Reg.idAttctl ∧ ¬ (Reg.grnRsel ≤ p ∧ p < Reg.grnRsel + 8)) ∧
    (∀ pn ∈ [(5, 0), (rdataEnd + 1, 4), (rdataEnd - 4, 4)], (pn.2 = 0 ∨ rdataEnd < pn.1 ∨ pn.1 + pn.2 ≤ rdataEnd)) := by decide +kernel
theorem test_i3c : let s := go (.i3cPrivateWrite (leBytes 3 (Reg.idNoncek 3) ++ leBytes 8 5)) (base fr)
    (Tab.get 0 (s.attest .i3c).nonce 3, s.man.pins.i3cPtr) = (5, Reg.idNoncek 3) := by decide +kernel
end Sys2Proof.Tests
end

section
/-!
SUPPORT. Proofs about the whole block: the state after reset, the saturating count, and the host's register write by its
width and by the access code of its fields.
-/

namespace Sys2Proof.Machine

/-! ### Frames on the register file -/

theorem onlyRegs_setReg (s : State) (a : Nat) (v : Word) : OnlyRegs [a] s (s.setReg a v) :=
  ⟨rfl, fun _ hb => s.reg_setReg_ne v (List.mem_singleton.not.1 hb)⟩

theorem onlyRegs_bump (s : State) (a hi lo n : Nat) : OnlyRegs [a] s (s.bump a hi lo n) := onlyRegs_setReg s a _

@[simp] theorem State.reg_setStage (s : State) (a : Nat) (d : Dword) (b : Nat) : (s.setStage a d).reg b = s.reg b := rfl
@[simp] theorem State.mayFetch_setStage (s : State) (a : Nat) (d : Dword) : (s.setStage a d).mayFetch = s.mayFetch := rfl
@[simp] theorem State.boot_setStage (s : State) (a : Nat) (d : Dword) : (s.setStage a d).boot = s.boot := rfl

@[simp] theorem State.boot_modBoot (s : State) (g : Boot → Boot) : (s.modBoot g).boot = g s.boot := rfl

/-! ### The saturating count -/

/-- A field that is all ones stays so (R17). -/
theorem State.field_bump_saturated (s : State) {a hi lo : Nat} (n : Nat) (h : lo ≤ hi) (hh : hi < 64)
    (full : s.field a hi lo = 2 ^ (hi + 1 - lo) - 1) : (s.bump a hi lo n).field a hi lo = s.field a hi lo := by
  rw [s.field_bump a hi lo n h hh, full]
  exact min_eq_right (Nat.le_add_right _ n)

theorem State.field_bump_apart (s : State) (a hi lo n : Nat) {h2 l2 : Nat} (h : lo ≤ hi) (hh : hi < 64) (k : l2 ≤ h2)
    (kk : h2 < 64) (apart : h2 < lo ∨ hi < l2) : (s.bump a hi lo n).field a h2 l2 = s.field a h2 l2 :=
  s.field_setField_apart a hi lo _ h2 l2 h hh k kk apart

/-- Settles O4, by the laws of a bit field that is set. -/
theorem countersSaturate : Obligations.CountersSaturate := by
  intro s a hi lo n h hh
  exact ⟨s.field_bump a hi lo n h hh, s.field_bump_saturated n h hh,
    fun _ _ k kk apart => s.field_bump_apart a hi lo n h hh k kk apart, onlyRegs_bump s a hi lo n⟩

/-! ### The state after reset -/

theorem reset_bay (b : Nat) : State.reset.bay b = Bay.reset := rfl
theorem reset_tile (t : PT) : State.reset.tile t = Tile.reset := rfl
theorem reset_reg (a : Nat) : State.reset.reg a = regReset a := rfl
theorem reset_canonical : Canonical State.reset := ⟨rfl, rfl, rfl, rfl⟩

/-- Settles O3: no table of the reset state lists an entry, so each reads its default. -/
theorem resetIsUnpoweredAndEmpty : Obligations.ResetIsUnpoweredAndEmpty := by
  refine ⟨rfl, rfl, rfl, rfl, rfl, fun b => ?_, fun t => ?_, reset_reg, reset_canonical⟩
  · rw [reset_bay]
    exact ⟨rfl, rfl⟩
  · rw [reset_tile]
    exact ⟨rfl, rfl, rfl⟩

/-! ### A register write by its width (R13 to R15) -/

theorem exec_registerWrite (f off width : Nat) (v : Word) (s : State) :
    exec (.registerWrite f off width v) s = .next (s.hostWrite f off width v) := rfl

section
variable (s : State) {f off a : Nat} (v : Word)

theorem State.hostWrite_whole (h : off % 8 = 0) (ht : busTarget f off = .reg a) :
    s.hostWrite f off 64 v = (s.setStage a (v.extractLsb' 0 32)).writeReg f a v := by
  simp [State.hostWrite, h, ht, State.staged]

theorem State.hostWrite_low (h : off % 8 = 0) (ht : busTarget f off = .reg a) :
    s.hostWrite f off 32 v = s.setStage a (v.extractLsb' 0 32) := by
  have h4 : off % 4 = 0 := by omega
  simp [State.hostWrite, h, h4, ht, State.staged]

theorem State.hostWrite_high (h : off % 8 = 0) (ht : busTarget f off = .reg a) :
    s.hostWrite f (off + 4) 32 v =
      s.writeReg f a ((v.extractLsb' 0 32).setWidth 64 <<< 32 ||| (Tab.get 0 s.stage a).setWidth 64) := by
  have h4 : (off + 4) % 4 = 0 := by omega
  have h8 : (off + 4) % 8 = 4 := by omega
  simp [State.hostWrite, h4, h8, ht]

theorem State.hostWrite_other_width {width : Nat} (h64 : width ≠ 64) (h32 : width ≠ 32) : s.hostWrite f off width v = s := by
  simp [State.hostWrite, h64, h32]

theorem State.hostWrite_unaligned_whole (h : off % 8 ≠ 0) : s.hostWrite f off 64 v = s := by
  simp [State.hostWrite, h]

theorem State.hostWrite_unaligned_half (h : off % 4 ≠ 0) : s.hostWrite f off 32 v = s := by
  simp [State.hostWrite, h]

end

/-! ### Where a write of PF0 goes (R589) -/

theorem busTarget_pf0 {off : Nat} (h : off < 0x2000000) : busTarget 0 off = .reg off := by
  have h1 : ¬ 0x4000000 ≤ off := by omega
  have h2 : ¬ (0x2000000 ≤ off ∧ off < 0x2100000) := by omega
  have h3 : ¬ (0x2100000 ≤ off ∧ off < 0x2100400) := by omega
  have h4 : ¬ (0x2101000 ≤ off ∧ off < 0x2101008) := by omega
  simp only [busTarget, if_true, if_neg h1, if_neg h2, if_neg h3, if_neg h4]

/-- A 64-bit write of PF0 at the offset of a register writes that register whole. -/
theorem exec_registerWrite_pf0 {a : Nat} (h : a % 8 = 0) (hlt : a < 0x2000000) (v : Word) (s : State) :
    exec (.registerWrite 0 a 64 v) s = .next ((s.setStage a (v.extractLsb' 0 32)).writeReg 0 a v) := by
  rw [exec_registerWrite, s.hostWrite_whole v h (busTarget_pf0 hlt)]

theorem inBlock_of_copy (base : Nat) {size n i off : Nat} (hi : i < n) (ho : off < size) :
    inBlock base size n (base + size * i + off) = some (i, off) := by
  have hle : size * (i + 1) ≤ n * size := by
    rw [Nat.mul_comm n]
    exact Nat.mul_le_mul_left size hi
  have hin : base ≤ base + size * i + off ∧ base + size * i + off < base + n * size := by
    rw [Nat.mul_succ] at hle
    omega
  have hsub : base + size * i + off - base = size * i + off := by omega
  rw [inBlock, if_pos hin, hsub, Nat.mul_add_div (by omega), Nat.div_eq_of_lt ho, Nat.mul_add_mod, Nat.mod_eq_of_lt ho,
    Nat.add_zero]

theorem inBlock_of_outside {base size n a : Nat} (h : a < base ∨ base + n * size ≤ a) : inBlock base size n a = none := by
  have hout : ¬ (base ≤ a ∧ a < base + n * size) := by omega
  rw [inBlock, if_neg hout]

/-- Registers above the windows of the partitions and below their step registers are no partition's. -/
theorem partOfReg_none {a : Nat} (hlo : 0x59000 ≤ a) (hhi : a < 0x4000100) : partOfReg a = none := by
  have h1 : inBlock 0x51000 0x1000 8 a = none := inBlock_of_outside (.inr hlo)
  have h2 : inBlock 0x4000100 0x100 8 a = none := inBlock_of_outside (.inl hhi)
  simp only [partOfReg, h1, h2, Option.map_none]

section
variable (s : State) (f : Nat) (v : Word)

theorem State.writeReg_man {a : Nat} (h : a < 0x40000) : s.writeReg f a v = s.writeMan f a v := by
  simp only [State.writeReg, if_pos h]

/-- The management registers whose write acts beyond the access code. -/
def manActs (a : Nat) : Bool :=
  decide (0x110 ≤ a ∧ a < 0x130) || [Reg.bootCtl, Reg.idAttctl, Reg.clkHdiv, Reg.clkCtl, Reg.tideCfg, Reg.tideSync, Reg.tideSet,
    Reg.tideCtl, Reg.pwrSurge, Reg.pwrHalt, Reg.pwrCtl, Reg.fltCtl, Reg.grnRsel, Reg.grnCtl].contains a

/-- A write of any other management register follows the access code (R8). -/
theorem State.writeMan_code {a : Nat} (h : manActs a = false) : s.writeMan f a v = s.writeCode f a v := by
  simp only [manActs, Bool.or_eq_false_iff, decide_eq_false_iff_not, List.contains_eq_mem, List.mem_cons, List.not_mem_nil,
    or_false, not_or] at h
  obtain ⟨hn, h1, h2, h3, h4, h5, h6, h7, h8, h9, h10, h11, h12, h13, h14⟩ := h
  simp only [State.writeMan, hn, h1, h2, h3, h4, h5, h6, h7, h8, h9, h10, h11, h12, h13, h14, ↓reduceIte]

theorem State.writeReg_man_code {a : Nat} (hlt : a < 0x40000) (h : manActs a = false) :
    s.writeReg f a v = s.writeCode f a v := by
  rw [s.writeReg_man f v hlt, s.writeMan_code f v h]

/-- A write of a register of an optical port, `STL_ADDR` apart, goes to that port. -/
theorem State.writeReg_stl {p off : Nat} (hp : p < 32) (ho : off < 0x800) (ha : 0x60000 + 0x800 * p + off ≠ Reg.stlAddr) :
    s.writeReg f (0x60000 + 0x800 * p + off) v = s.writeStl f p off v := by
  have h1 : ¬ 0x60000 + 0x800 * p + off < 0x40000 := by omega
  have h2 : ¬ 0x60000 + 0x800 * p + off < 0x40100 := by omega
  have h3 : 0x60000 + 0x800 * p + off ≠ Reg.hstCtl := by unfold Reg.hstCtl; omega
  have h4 : partOfReg (0x60000 + 0x800 * p + off) = none := partOfReg_none (by omega) (by omega)
  have h5 : inBlock 0x51000 0x1000 8 (0x60000 + 0x800 * p + off) = none := inBlock_of_outside (by omega)
  simp only [State.writeReg, h1, h2, h3, h4, h5, ha, inBlock_of_copy 0x60000 hp ho, Bool.false_eq_true, ↓reduceIte]

theorem State.writeReg_sil {b off : Nat} (hb : b < 84) (ho : off < 0x10000) :
    s.writeReg f (0x100000 + 0x10000 * b + off) v = s.writeSil f b off v := by
  have h1 : ¬ 0x100000 + 0x10000 * b + off < 0x40000 := by omega
  have h2 : ¬ 0x100000 + 0x10000 * b + off < 0x40100 := by omega
  have h3 : 0x100000 + 0x10000 * b + off ≠ Reg.hstCtl := by unfold Reg.hstCtl; omega
  have h4 : partOfReg (0x100000 + 0x10000 * b + off) = none := partOfReg_none (by omega) (by omega)
  have h5 : inBlock 0x51000 0x1000 8 (0x100000 + 0x10000 * b + off) = none := inBlock_of_outside (by omega)
  have h6 : 0x100000 + 0x10000 * b + off ≠ Reg.stlAddr := by unfold Reg.stlAddr; omega
  have h7 : inBlock 0x60000 0x800 32 (0x100000 + 0x10000 * b + off) = none := inBlock_of_outside (by omega)
  simp only [State.writeReg, h1, h2, h3, h4, h5, h6, h7, inBlock_of_copy 0x100000 hb ho, Bool.false_eq_true, ↓reduceIte]

/-- A write of `STL_ASYM` of a port follows the access code (R678). -/
theorem State.writeReg_stlAsym {p : Nat} (hp : p < 32) : s.writeReg f (Reg.stlAsym p) v = s.writeCode f (Reg.stlAsym p) v := by
  have e : Reg.stlAsym p = 0x60000 + 0x800 * p + 0xC8 := by unfold Reg.stlAsym; omega
  have ha : 0x60000 + 0x800 * p + 0xC8 ≠ Reg.stlAddr := by unfold Reg.stlAddr; omega
  rw [e, s.writeReg_stl f v hp (by decide) ha]
  rfl

/-- A write of `SIL_TDATA` by PF0 is the bay's tile window access (R162). -/
theorem State.writeReg_silTdata {b : Nat} (hb : b < 84) :
    exec (.silTdataAccess b (some v)) s = .next (s.writeReg 0 (Reg.silTdata b) v) := by
  have e : Reg.silTdata b = 0x100000 + 0x10000 * b + 0x408 := by unfold Reg.silTdata; omega
  rw [e, s.writeReg_sil 0 v hb (by decide)]
  rfl

/-- A write of `SIL_RTDATA` by PF0 is the bay's router window access (R327). -/
theorem State.writeReg_silRtdata {b : Nat} (hb : b < 84) :
    exec (.silRtdataAccess b (some v)) s = .next (s.writeReg 0 (Reg.silRtdata b) v) := by
  have e : Reg.silRtdata b = 0x100000 + 0x10000 * b + 0x428 := by unfold Reg.silRtdata; omega
  rw [e, s.writeReg_sil 0 v hb (by decide)]
  rfl

theorem State.writeReg_bootCtl : s.writeReg 0 Reg.bootCtl v = s.writeBootCtl v := by
  rw [s.writeReg_man 0 v (by decide)]
  rfl

end

/-! ### Writes by the access code (R8, R11, R12) -/

theorem State.writeCode_pf0 (s : State) {a : Nat} {r : RegRow} (h : regRow a = some r) (v : Word) :
    s.writeCode 0 a v = s.setReg a (r.written (s.reg a) v) := by
  simp [State.writeCode, h]

theorem State.writeCode_unmapped (s : State) {a : Nat} (h : regRow a = none) (f : Nat) (v : Word) : s.writeCode f a v = s := by
  simp [State.writeCode, h]

/-- A write of a register that has RW fields only, of no restricted range, stores them; its other bits stay zero. -/
theorem RegRow.written_rw {r : RegRow} (hw : r.w1c = 0) (hc : r.clamp = []) {old : Word} (v : Word) (ho : old &&& ~~~r.rw = 0) :
    r.written old v = v &&& r.rw := by
  simp only [RegRow.written, hw, hc, ho, List.foldl_nil, BitVec.ofNat_eq_ofNat, BitVec.zero_or, BitVec.and_zero,
    BitVec.not_zero, BitVec.and_allOnes]

/-- A write of a register that has W1C bits only clears those of them where it writes 1. -/
theorem RegRow.written_w1c {r : RegRow} (hr : r.rw = 0) (hc : r.clamp = []) (old v : Word) :
    r.written old v = old &&& ~~~(v &&& r.w1c) := by
  simp only [RegRow.written, hr, hc, List.foldl_nil, BitVec.ofNat_eq_ofNat, BitVec.or_zero, BitVec.and_zero,
    BitVec.not_zero, BitVec.and_allOnes]

/-- A 64-bit write of PF0 of a register that follows the access code, and what it leaves. -/
theorem exec_registerWrite_code {a : Nat} {r : RegRow} (h : a % 8 = 0) (hlt : a < 0x2000000) (hr : regRow a = some r)
    (hcode : ∀ (v : Word) (s : State), s.writeReg 0 a v = s.writeCode 0 a v) (v : Word) (s : State) :
    ∃ t, exec (.registerWrite 0 a 64 v) s = .next t ∧ t.reg a = r.written (s.reg a) v ∧
      OnlyRegs [a] { s with stage := t.stage } t := by
  refine ⟨_, exec_registerWrite_pf0 h hlt v s, ?_⟩
  rw [hcode, State.writeCode_pf0 _ hr]
  exact ⟨State.reg_setReg_same _ _ _, onlyRegs_setReg (s.setStage a _) a _⟩

/-- A 64-bit write of PF0 of a register with RW fields only stores them (R8). -/
theorem exec_registerWrite_rw {a : Nat} {r : RegRow} (h : a % 8 = 0) (hlt : a < 0x2000000) (hr : regRow a = some r)
    (hw : r.w1c = 0) (hc : r.clamp = []) (hcode : ∀ (v : Word) (s : State), s.writeReg 0 a v = s.writeCode 0 a v)
    (v : Word) {s : State} (ho : s.reg a &&& ~~~r.rw = 0) :
    ∃ t, exec (.registerWrite 0 a 64 v) s = .next t ∧ t.reg a = v &&& r.rw ∧ OnlyRegs [a] { s with stage := t.stage } t := by
  obtain ⟨t, ht, hreg, honly⟩ := exec_registerWrite_code h hlt hr hcode v s
  exact ⟨t, ht, hreg.trans (RegRow.written_rw hw hc v ho), honly⟩

/-- A 64-bit write of PF0 at an offset below 0x4_0000 without bits that a write changes leaves every register (R12). -/
theorem exec_registerWrite_unmapped {a : Nat} (h : a % 8 = 0) (hlt : a < 0x40000) (hr : regRow a = none)
    (hact : manActs a = false) (v : Word) (s : State) :
    exec (.registerWrite 0 a 64 v) s = .next (s.setStage a (v.extractLsb' 0 32)) := by
  rw [exec_registerWrite_pf0 h (by omega), State.writeReg_man_code _ 0 v hlt hact, State.writeCode_unmapped _ hr]

/-! ### The rows of the registers that the claim names (R678, R717, R799) -/

def bootImgaddrRow : RegRow := ⟨0x8040, [], 0xfffffffffffff000, 0x0, 0x0, [], false⟩
def tideParentRow : RegRow := ⟨0x10110, [], 0xffffffff, 0x0, 0x0, [], false⟩
def tideStatRow : RegRow := ⟨0x10118, [], 0x0, 0x1000000000000000, 0x0, [], false⟩
def stlAsymRow : RegRow := ⟨0x600c8, [(0x800, 32)], 0xffffffff, 0x0, 0x0, [], false⟩

theorem regRow_bootImgaddr : regRow Reg.bootImgaddr = some bootImgaddrRow := by decide
theorem regRow_tideParent : regRow Reg.tideParent = some tideParentRow := by decide
theorem regRow_tideStat : regRow Reg.tideStat = some tideStatRow := by decide
theorem regRow_stlAsym_3 : regRow (Reg.stlAsym 3) = some stlAsymRow := by decide
theorem regRow_tideSlew : regRow Reg.tideSlew = none := by decide
theorem regRow_unassigned : regRow 0x3F000 = none := by decide

/-! ### The claim on register writes, clause by clause -/

/-- A write by its width and alignment, to any register. -/
theorem registerWrite_by_width {f off a : Nat} (v : Word) (s : State) (h : off % 8 = 0) (ht : busTarget f off = .reg a) :
    (∃ t, exec (.registerWrite f off 64 v) s = .next t ∧ t = (s.setStage a (v.extractLsb' 0 32)).writeReg f a v) ∧
    (∃ t, exec (.registerWrite f off 32 v) s = .next t ∧ t = { s with stage := t.stage } ∧
      Tab.get 0 t.stage a = v.extractLsb' 0 32 ∧ ∀ c, c ≠ a → Tab.get 0 t.stage c = Tab.get 0 s.stage c) ∧
    (∃ t, exec (.registerWrite f (off + 4) 32 v) s = .next t ∧
      t = s.writeReg f a ((v.extractLsb' 0 32).setWidth 64 <<< 32 ||| (Tab.get 0 s.stage a).setWidth 64)) := by
  refine ⟨⟨_, exec_registerWrite .., s.hostWrite_whole v h ht⟩, ⟨_, exec_registerWrite .., ?_⟩,
    ⟨_, exec_registerWrite .., s.hostWrite_high v h ht⟩⟩
  rw [s.hostWrite_low v h ht]
  exact ⟨rfl, Tab.get_set_same .., fun _ hc => Tab.get_set_ne _ _ _ hc⟩

/-- A write of another width or off its alignment changes nothing (R13). -/
theorem registerWrite_ignored (f off width : Nat) (v : Word) (s : State) :
    (width ≠ 64 → width ≠ 32 → exec (.registerWrite f off width v) s = .next s) ∧
    (off % 8 ≠ 0 → exec (.registerWrite f off 64 v) s = .next s) ∧
    (off % 4 ≠ 0 → exec (.registerWrite f off 32 v) s = .next s) := by
  simp only [exec_registerWrite]
  exact ⟨fun h64 h32 => congrArg _ (s.hostWrite_other_width v h64 h32), fun h => congrArg _ (s.hostWrite_unaligned_whole v h),
    fun h => congrArg _ (s.hostWrite_unaligned_half v h)⟩

/-- The registers of the claim with RW fields only, each with the mask of those fields. -/
theorem registerWrite_rw_fields (s : State) (v : Word) :
    ∀ am ∈ [(Reg.bootImgaddr, (0xFFFFFFFFFFFFF000 : Word)), (Reg.tideParent, 0xFFFFFFFF), (Reg.stlAsym 3, 0xFFFFFFFF)],
      s.reg am.1 &&& ~~~am.2 = 0 →
      ∃ t, exec (.registerWrite 0 am.1 64 v) s = .next t ∧ t.reg am.1 = v &&& am.2 ∧
        OnlyRegs [am.1] { s with stage := t.stage } t := by
  simp only [List.forall_mem_cons]
  refine ⟨fun ho => ?bootImgaddr, fun ho => ?tideParent, fun ho => ?stlAsym, fun _ h => absurd h List.not_mem_nil⟩
  case bootImgaddr =>
    exact exec_registerWrite_rw (by decide) (by decide) regRow_bootImgaddr rfl rfl
      (fun v s => s.writeReg_man_code 0 v (by decide) (by decide)) v ho
  case tideParent =>
    exact exec_registerWrite_rw (by decide) (by decide) regRow_tideParent rfl rfl
      (fun v s => s.writeReg_man_code 0 v (by decide) (by decide)) v ho
  case stlAsym =>
    exact exec_registerWrite_rw (by decide) (by decide) regRow_stlAsym_3 rfl rfl
      (fun v s => s.writeReg_stlAsym 0 v (by decide)) v ho

/-- `TIDE_STAT` has one W1C bit, 60, and its other fields are RO (R717). -/
theorem registerWrite_tideStat (s : State) (v : Word) :
    ∃ t, exec (.registerWrite 0 Reg.tideStat 64 v) s = .next t ∧
      (∀ i, i < 64 → (t.reg Reg.tideStat).getLsbD i =
        if i = 60 then (s.reg Reg.tideStat).getLsbD 60 && !v.getLsbD 60 else (s.reg Reg.tideStat).getLsbD i) ∧
      OnlyRegs [Reg.tideStat] { s with stage := t.stage } t := by
  obtain ⟨t, ht, hreg, honly⟩ := exec_registerWrite_code (by decide) (by decide) regRow_tideStat
    (fun v s => s.writeReg_man_code 0 v (by decide) (by decide)) v s
  refine ⟨t, ht, fun i hi => ?_, honly⟩
  have hbit : tideStatRow.w1c.getLsbD i = decide (i = 60) := by
    have hpow : tideStatRow.w1c = BitVec.twoPow 64 60 := by decide
    rw [hpow, BitVec.getLsbD_twoPow]
    simp [eq_comm]
  rw [hreg, RegRow.written_w1c rfl rfl, BitVec.getLsbD_and, BitVec.getLsbD_not, BitVec.getLsbD_and, hbit]
  by_cases h60 : i = 60
  · simp [h60]
  · simp [h60, hi]

/-- `TIDE_SLEW` is RO, and offset 0x3F000 is unassigned (R12, R717). -/
theorem registerWrite_readOnly (s : State) (v : Word) :
    ∀ a ∈ [Reg.tideSlew, 0x3F000], ∃ t, exec (.registerWrite 0 a 64 v) s = .next t ∧ t = { s with stage := t.stage } := by
  simp only [List.forall_mem_cons]
  refine ⟨?tideSlew, ?unassigned, fun _ h => absurd h List.not_mem_nil⟩
  case tideSlew => exact ⟨_, exec_registerWrite_unmapped (by decide) (by decide) regRow_tideSlew (by decide) v s, rfl⟩
  case unassigned => exact ⟨_, exec_registerWrite_unmapped (by decide) (by decide) regRow_unassigned (by decide) v s, rfl⟩

/-- A write of a window register by PF0 is the bay's window access (R162, R327). -/
theorem registerWrite_windows (s : State) {b : Nat} (v : Word) (hb : b < 84) :
    exec (.registerWrite 0 (Reg.silTdata b) 64 v) s =
      exec (.silTdataAccess b (some v)) (s.setStage (Reg.silTdata b) (v.extractLsb' 0 32)) ∧
    exec (.registerWrite 0 (Reg.silRtdata b) 64 v) s =
      exec (.silRtdataAccess b (some v)) (s.setStage (Reg.silRtdata b) (v.extractLsb' 0 32)) := by
  rw [exec_registerWrite_pf0 (by unfold Reg.silTdata; omega) (by unfold Reg.silTdata; omega), State.writeReg_silTdata _ v hb,
    exec_registerWrite_pf0 (by unfold Reg.silRtdata; omega) (by unfold Reg.silRtdata; omega), State.writeReg_silRtdata _ v hb]
  exact ⟨rfl, rfl⟩

/-- The low bit of a pair of flags is the first one. -/
theorem getLsbD_zero_flags (a b : Bool) : (BitVec.ofNat 2 (flag a + 2 * flag b)).getLsbD 0 = a := by
  cases a <;> cases b <;> rfl

/-- Where a fetch may begin, FETCH written to `BOOT_CTL` is asked for and nothing else acts (R799). -/
theorem registerWrite_bootCtl (s : State) (v : Word) (hf : s.mayFetch = true) :
    ∃ t, exec (.registerWrite 0 Reg.bootCtl 64 v) s = .next t ∧
      t.boot.asked.getLsbD 0 = (s.boot.asked.getLsbD 0 || v.getLsbD 0) ∧
      t = { s with stage := t.stage, man := { s.man with boot := { s.boot with asked := t.boot.asked } } } := by
  refine ⟨_, exec_registerWrite_pf0 (by decide) (by decide) v s, ?_⟩
  rw [State.writeReg_bootCtl]
  refine ⟨?_, rfl⟩
  simp only [State.writeBootCtl, State.boot_modBoot, State.boot_setStage, State.mayFetch_setStage, hf, Bool.and_true,
    BitVec.getLsbD_or, getLsbD_zero_flags]

/-- Settles O5, clause by clause: the width chooses what is written, and the row of the register which of its bits. -/
theorem registerWritesByWidthAndAccessCode : Obligations.RegisterWritesByWidthAndAccessCode :=
  ⟨⟨fun _ _ _ v s => registerWrite_by_width v s, registerWrite_ignored⟩,
    registerWrite_rw_fields, registerWrite_tideStat, registerWrite_readOnly, fun s _ v hb => registerWrite_windows s v hb,
    registerWrite_bootCtl⟩

end Sys2Proof.Machine
end

section
/-!
SUPPORT. Proofs about rim traffic: what a rim write and a rim read do at an HBM stack (R57, R278, R438, R447 to R449).
-/

namespace Sys2Proof.Machine

/-! ### A packet that is taken from the fabric -/

@[simp] theorem State.segUp_take (s : State) (p : Packet) (n : Nat) : (s.take p).segUp n = s.segUp n := rfl
@[simp] theorem State.assigned_take (s : State) (p : Packet) (q pa len : Nat) :
    (s.take p).assigned q pa len = s.assigned q pa len := rfl

theorem onlyNet_take (s : State) (p : Packet) : OnlyNet s (s.take p) := rfl
theorem onlyNet_take_send (s : State) (p q : Packet) : OnlyNet s ((s.take p).send q) := rfl
theorem net_take_send (s : State) (p q : Packet) : ((s.take p).send q).comp.net = s.comp.net.erase p ++ [q] := rfl

/-! ### Rim packets at a stack -/

/-- The bytes that a rim write carries: those of its body flits after the one that holds the address (R278). -/
def rimData (p : Packet) : List Byte := (p.body.drop 1).flatMap fun f => leBytes 16 f.data.toNat

/-- The number of bytes that a rim read asks for. (log 28) -/
def rimCount (p : Packet) : Nat := min p.addr.toNat 64

theorem rimAddr_cons {p : Packet} {f : Flitem} {fs : List Flitem} (h : p.body = f :: fs) :
    rimAddr p = f.data.toNat % 2 ^ 48 := by
  simp [rimAddr, h]

theorem exec_rimWr (p : Packet) (s : State) : exec (.rimWr p) s = execRimWr p s := rfl
theorem exec_rimRd (p : Packet) (s : State) : exec (.rimRd p) s = execRimRd p s := rfl

section
variable {s : State} {p : Packet} {k : Nat} (hk : p.dst = .hbm k)
include hk

/-- A packet to a stack that is lost is lost with it (R57). -/
theorem exec_rim_lost (hs : s.segUp k = false) :
    exec (.rimWr p) s = .next (s.take p) ∧ exec (.rimRd p) s = .next (s.take p) := by
  simp [exec_rimWr, exec_rimRd, execRimWr, execRimRd, hk, hs]

variable (hs : s.segUp k = true)
include hs

theorem exec_rimWr_assigned (ha : s.assigned p.part (rimAddr p) (rimData p).length = true) :
    exec (.rimWr p) s =
      .next (((s.take p).writeRange p.part (rimAddr p) (rimData p)).2.send (answer p opWrAck p.addr [])) := by
  unfold rimData at ha
  simp only [exec_rimWr, execRimWr, hk, State.segUp_take, State.assigned_take, hs, ha, Bool.true_eq_false, ↓reduceIte]
  rfl

theorem exec_rimWr_refused (ha : s.assigned p.part (rimAddr p) (rimData p).length = false) :
    exec (.rimWr p) s = .next ((s.take p).send (errAnswer p errRefused)) := by
  unfold rimData at ha
  simp only [exec_rimWr, execRimWr, hk, State.segUp_take, State.assigned_take, hs, ha, Bool.true_eq_false,
    Bool.false_eq_true, ↓reduceIte]

theorem exec_rimRd_refused (ha : s.assigned p.part (rimAddr p) (rimCount p) = false) :
    exec (.rimRd p) s = .next ((s.take p).send (errAnswer p errRefused)) := by
  unfold rimCount at ha
  simp only [exec_rimRd, execRimRd, hk, State.segUp_take, State.assigned_take, hs, ha, Bool.true_eq_false, ↓reduceIte]

variable (ha : s.assigned p.part (rimAddr p) (rimCount p) = true)
include ha

/-- A read none of whose blocks is poisoned answers its bytes. -/
theorem exec_rimRd_good (hb : ((s.take p).readRange p.part (rimAddr p) (rimCount p)).1.bad = []) :
    let r := (s.take p).readRange p.part (rimAddr p) (rimCount p)
    exec (.rimRd p) s = .next (r.2.send (answer p opRdData p.addr (flitsOf (opN (rimCount p)) r.1.data))) := by
  unfold rimCount at ha hb
  simp only [exec_rimRd, execRimRd, hk, State.segUp_take, State.assigned_take, hs, ha, hb, Bool.true_eq_false, ↓reduceIte]
  rfl

/-- A read that meets poison answers UNCORR, and the partition's recovery follows (R448, R449). -/
theorem exec_rimRd_poisoned {b : Nat} {bs : List Nat}
    (hb : ((s.take p).readRange p.part (rimAddr p) (rimCount p)).1.bad = b :: bs) :
    let r := (s.take p).readRange p.part (rimAddr p) (rimCount p)
    exec (.rimRd p) s = .next ((r.2.send (errAnswer p errUncorr)).poisonConsumed p.part b k) := by
  unfold rimCount at ha hb
  simp only [exec_rimRd, execRimRd, hk, State.segUp_take, State.assigned_take, hs, ha, hb, Bool.true_eq_false, ↓reduceIte]
  rfl

end

/-- Settles O30: at a stack that is lost the packet is lost; at another one the address decides, and the poison of a read. -/
theorem rimTrafficCompletes : Obligations.RimTrafficCompletes := by
  intro s p k hk
  refine ⟨fun f fs hf => rimAddr_cons hf, fun hs => ?lost, fun hs => ⟨fun ha => ?wr, fun ha => ?wrRefused, fun ha => ?rd,
    fun ha => ?rdRefused⟩⟩
  case lost => exact ⟨(exec_rim_lost hk hs).1, (exec_rim_lost hk hs).2, onlyNet_take s p⟩
  case wr => exact exec_rimWr_assigned hk hs ha
  case wrRefused => exact ⟨_, exec_rimWr_refused hk hs ha, onlyNet_take_send .., net_take_send ..⟩
  case rd => exact ⟨fun hb => exec_rimRd_good hk hs ha hb, fun b bs hb => exec_rimRd_poisoned hk hs ha hb⟩
  case rdRefused => exact ⟨_, exec_rimRd_refused hk hs ha, onlyNet_take_send .., net_take_send ..⟩

end Sys2Proof.Machine
end

section
/-!
SUPPORT. What the loss of a bay or of a rim segment leaves in all that follows it: the events, the heals that begin, the
partitions that stop, the duties that pass on and the ring scans of their new pair.
-/

namespace Sys2Proof.Machine

/-! ### What an event leaves -/

section
variable {id : EventId} {p : Nat} {ops : List Nat} {s t : State}

theorem stopFor_fences (sev : Severity) (u : State) : (u.stopFor sev p).comp.fences = u.comp.fences := by cases sev <;> rfl
theorem stopFor_stackTab (sev : Severity) (u : State) : (u.stopFor sev p).comp.stackTab = u.comp.stackTab := by
  cases sev <;> rfl
theorem stopFor_pins (sev : Severity) (u : State) : (u.stopFor sev p).man.pins = u.man.pins := by cases sev <;> rfl
theorem stopFor_fuses (sev : Severity) (u : State) : (u.stopFor sev p).man.fuses = u.man.fuses := by cases sev <;> rfl

theorem Signals.fences (h : Signals id p ops s t) : t.comp.fences = s.comp.fences := by
  obtain ⟨u, hu, -, rfl⟩ := h
  rw [stopFor_fences, hu.comp]
theorem Signals.stackTab (h : Signals id p ops s t) : t.comp.stackTab = s.comp.stackTab := by
  obtain ⟨u, hu, -, rfl⟩ := h
  rw [stopFor_stackTab, hu.comp]
theorem Signals.pins (h : Signals id p ops s t) : t.man.pins = s.man.pins := by
  obtain ⟨u, hu, -, rfl⟩ := h
  rw [stopFor_pins, hu.1]
theorem Signals.fuses (h : Signals id p ops s t) : t.man.fuses = s.man.fuses := by
  obtain ⟨u, hu, -, rfl⟩ := h
  rw [stopFor_fuses, hu.1]
theorem Signals.grows (h : Signals id p ops s t) : Grows s t := by
  obtain ⟨l, hl⟩ := h.record
  exact ⟨_, hl.symm⟩
theorem Signals.mem (h : Signals id p ops s t) : eventRecord id p ops s.tide ∈ t.man.grain.waiting := by
  obtain ⟨l, hl⟩ := h.record
  rw [hl]
  exact List.mem_append_right _ List.mem_cons_self

end

/-! ### The frame of a loss -/

/-- The registers that count losses and show their causes (R763, R764). -/
def LossReg (a : Nat) : Prop := a = Reg.pwrCnt ∨ ∃ b, a = Reg.silPwrstat b

theorem lossReg_pwrCnt : LossReg Reg.pwrCnt := .inl rfl
theorem lossReg_silPwrstat (b : Nat) : LossReg (Reg.silPwrstat b) := .inr ⟨b, rfl⟩

theorem not_lossReg {a : Nat} (hc : a ≠ 0x20038) (hs : a % 0x10000 ≠ 0x500) : ¬ LossReg a := by
  rintro (h | ⟨b, h⟩)
  · exact hc h
  · rw [h, Reg.silPwrstat] at hs
    omega

theorem Reg.hst_eq (f : Nat) : Reg.hst f = 0x40000 ∨ Reg.hst f = 0x50000 + 0x1000 * f := by
  unfold Reg.hst
  split
  · exact .inl rfl
  · exact .inr rfl

/-- The logs have other registers. -/
theorem LossReg.not_logReg {a : Nat} (h : LossReg a) : ¬ IsLogReg a := by
  rintro ⟨f, hf⟩
  have base := Reg.hst_eq f
  unfold Reg.hstEvlogTail Reg.hstFuncstat at hf
  exact not_lossReg (by omega) (by omega) h

/-- What the loss of a unit and all that follows it leave: the power block, the pins, Tide, the fences that hold, the
counts of losses, which stacks are trained, and the records that wait for the writer. -/
structure LossFrame (s t : State) : Prop where
  power : t.phys.power = s.phys.power
  pins : t.man.pins = s.man.pins
  tide : t.tide = s.tide
  fenced : ∀ kind id, s.isFenced kind id = true → t.isFenced kind id = true
  reg : ∀ a, LossReg a → t.reg a = s.reg a
  up : ∀ k, (t.stack k).up = (s.stack k).up
  grows : Grows s t

/-- What follows a loss where no supply changes. -/
structure Aftermath (s t : State) : Prop extends LossFrame s t where
  phys : t.phys = s.phys

section
variable {s t u : State}

theorem isFenced_congr (h : t.comp.fences = s.comp.fences) (kind id : Nat) : t.isFenced kind id = s.isFenced kind id := by
  simp only [State.isFenced, State.fenced, h]
theorem stack_congr (h : t.comp.stackTab = s.comp.stackTab) (k : Nat) : t.stack k = s.stack k := by
  simp only [State.stack, h]

theorem LossFrame.trans (h : LossFrame s t) (k : LossFrame t u) : LossFrame s u where
  power := k.power.trans h.power
  pins := k.pins.trans h.pins
  tide := k.tide.trans h.tide
  fenced := fun a b hab => k.fenced a b (h.fenced a b hab)
  reg := fun a ha => (k.reg a ha).trans (h.reg a ha)
  up := fun a => (k.up a).trans (h.up a)
  grows := h.grows.trans k.grows

theorem LossFrame.mem (h : LossFrame s t) {r : GrnRec} (hr : r ∈ s.man.grain.waiting) : r ∈ t.man.grain.waiting :=
  h.grows.subset hr
theorem LossFrame.field (h : LossFrame s t) {a : Nat} (ha : LossReg a) (hi lo : Nat) : t.field a hi lo = s.field a hi lo := by
  simp only [State.field, h.reg a ha]

/-- A change beside what the frame speaks of. -/
theorem LossFrame.same (h : LossFrame s t) (hp : u.phys.power = t.phys.power := by rfl)
    (hpins : u.man.pins = t.man.pins := by rfl) (ht : u.tide = t.tide := by rfl)
    (hf : u.comp.fences = t.comp.fences := by rfl) (hr : u.regs = t.regs := by rfl)
    (hk : u.comp.stackTab = t.comp.stackTab := by rfl)
    (hg : u.man.grain.waiting = t.man.grain.waiting := by rfl) : LossFrame s u :=
  h.trans {
    power := hp, pins := hpins, tide := ht
    fenced := fun a b hab => (isFenced_congr hf a b).trans hab
    reg := fun a _ => State.reg_congr hr a
    up := fun k => congrArg Stack.up (stack_congr hk k)
    grows := .of_eq hg }

theorem LossFrame.refl (s : State) : LossFrame s s :=
  ⟨rfl, rfl, rfl, fun _ _ h => h, fun _ _ => rfl, fun _ => rfl, .of_eq rfl⟩

theorem LossFrame.setReg (h : LossFrame s t) {a : Nat} (ha : ¬ LossReg a) (v : Word) : LossFrame s (t.setReg a v) :=
  h.trans { LossFrame.refl t with reg := fun _ hb => t.reg_setReg_ne v fun e => ha (e ▸ hb) }

/-! ### The rules of `Aftermath` -/

theorem Aftermath.refl (s : State) : Aftermath s s := ⟨.refl s, rfl⟩
theorem Aftermath.trans (h : Aftermath s t) (k : Aftermath t u) : Aftermath s u :=
  ⟨h.toLossFrame.trans k.toLossFrame, k.phys.trans h.phys⟩

/-- A change beside what the frame speaks of. -/
theorem Aftermath.same (h : Aftermath s t) (hp : u.phys = t.phys := by rfl)
    (hpins : u.man.pins = t.man.pins := by rfl) (ht : u.tide = t.tide := by rfl)
    (hf : u.comp.fences = t.comp.fences := by rfl) (hr : u.regs = t.regs := by rfl)
    (hk : u.comp.stackTab = t.comp.stackTab := by rfl)
    (hg : u.man.grain.waiting = t.man.grain.waiting := by rfl) : Aftermath s u :=
  ⟨h.toLossFrame.same (congrArg _ hp) hpins ht hf hr hk hg, hp.trans h.phys⟩

theorem Aftermath.foldl {α : Type} {f : State → α → State} (l : List α) (h : Aftermath s t)
    (hf : ∀ u x, Aftermath s u → Aftermath s (f u x)) : Aftermath s (l.foldl f t) := by
  induction l generalizing t with
  | nil => exact h
  | cons x xs ih => exact ih (hf t x h)

theorem Aftermath.ite {c : Prop} [Decidable c] (h : Aftermath s t) (k : Aftermath s u) :
    Aftermath s (if c then t else u) := by
  split
  · exact h
  · exact k

theorem Aftermath.setReg (h : Aftermath s t) {a : Nat} (ha : ¬ LossReg a) (v : Word) : Aftermath s (t.setReg a v) :=
  ⟨h.toLossFrame.setReg ha v, h.phys⟩
theorem Aftermath.setField (h : Aftermath s t) {a : Nat} (ha : ¬ LossReg a) (hi lo v : Nat) :
    Aftermath s (t.setField a hi lo v) := h.setReg ha _
theorem Aftermath.bump (h : Aftermath s t) {a : Nat} (ha : ¬ LossReg a) (hi lo n : Nat) :
    Aftermath s (t.bump a hi lo n) := h.setReg ha _
theorem Aftermath.bumpWrap (h : Aftermath s t) {a : Nat} (ha : ¬ LossReg a) (hi lo n : Nat) :
    Aftermath s (t.bumpWrap a hi lo n) := h.setReg ha _

theorem Aftermath.setStack (h : Aftermath s t) {k : Nat} {x : Stack} (hx : x.up = (t.stack k).up) :
    Aftermath s (t.setStack k x) := by
  refine h.trans { Aftermath.refl t with up := fun j => ?_ }
  by_cases hj : j = k
  · rw [hj, State.stack_setStack_same, hx]
  · rw [State.stack_setStack_ne _ _ hj]

theorem Aftermath.modStack (h : Aftermath s t) {k : Nat} {f : Stack → Stack} (hf : ∀ x, (f x).up = x.up) :
    Aftermath s (t.modStack k f) := h.setStack (hf _)

theorem Aftermath.setEngine (h : Aftermath s t) (e : Nat) (x : Engine) : Aftermath s (t.setEngine e x) := h.same

theorem Aftermath.sendRecord (h : Aftermath s t) (a b c : Nat) (d : List Byte) : Aftermath s (t.sendRecord a b c d) :=
  h.trans { Aftermath.refl t with grows := .sendRecord t a b c d }

theorem Aftermath.signals {id : EventId} {p : Nat} {ops : List Nat} (h : Aftermath s t) (k : Signals id p ops t u) :
    Aftermath s u :=
  h.trans {
    power := by rw [k.phys]
    pins := k.pins, tide := k.tide
    fenced := fun a b hab => (isFenced_congr k.fences a b).trans hab
    reg := fun _ ha => k.reg ha.not_logReg
    up := fun j => congrArg Stack.up (stack_congr k.stackTab j)
    grows := k.grows, phys := k.phys }

theorem Aftermath.signal (h : Aftermath s t) (id : EventId) (p : Nat) (ops : List Nat) :
    Aftermath s (t.signal id p ops) := h.signals (signal_spec id p ops t)

end

end Sys2Proof.Machine
end

section
/-!
SUPPORT. A ring scan of the Plane, with the reads and writes of HBM that it makes, is an aftermath of a loss.
-/

namespace Sys2Proof.Machine

/-! ### Registers of the HBM controllers and the engines -/

theorem not_lossReg_hbmErrcnt (k : Nat) : ¬ LossReg (Reg.hbmErrcnt k) :=
  not_lossReg (by unfold Reg.hbmErrcnt; omega) (by unfold Reg.hbmErrcnt; omega)
theorem not_lossReg_hbmErrcnt2 (k : Nat) : ¬ LossReg (Reg.hbmErrcnt2 k) :=
  not_lossReg (by unfold Reg.hbmErrcnt2; omega) (by unfold Reg.hbmErrcnt2; omega)
theorem not_lossReg_hbmElog0 (k : Nat) : ¬ LossReg (Reg.hbmElog0 k) :=
  not_lossReg (by unfold Reg.hbmElog0; omega) (by unfold Reg.hbmElog0; omega)
theorem not_lossReg_hbmElog1 (k : Nat) : ¬ LossReg (Reg.hbmElog1 k) :=
  not_lossReg (by unfold Reg.hbmElog1; omega) (by unfold Reg.hbmElog1; omega)
theorem not_lossReg_hbmScrub (k : Nat) : ¬ LossReg (Reg.hbmScrub k) :=
  not_lossReg (by unfold Reg.hbmScrub; omega) (by unfold Reg.hbmScrub; omega)
theorem not_lossReg_plnEcnt (e : Nat) : ¬ LossReg (Reg.plnEcnt e) :=
  not_lossReg (by unfold Reg.plnEcnt; omega) (by unfold Reg.plnEcnt; omega)

section
variable {s t : State}

/-! ### Blocks of HBM (R443 to R448, R455) -/

theorem Aftermath.hbmLog (h : Aftermath s t) (k kind blk b0 b1 : Nat) : Aftermath s (t.hbmLog k kind blk b0 b1) :=
  (h.setReg (not_lossReg_hbmElog0 k) _).setReg (not_lossReg_hbmElog1 k) _

theorem Aftermath.lineSuspect (h : Aftermath s t) (k ch byte : Nat) : Aftermath s (t.lineSuspect k ch byte) := by
  unfold State.lineSuspect
  extract_lets x key n s1 s2
  have h1 : Aftermath s s1 := h.setStack rfl
  exact .ite ((h1.sendRecord ..).signal ..) h

theorem Aftermath.countCorrected (h : Aftermath s t) (k blk : Nat) (bytes : List Nat) (scrub : Bool) :
    Aftermath s (t.countCorrected k blk bytes scrub) := by
  have logged := (h.bump (not_lossReg_hbmErrcnt k) 63 32 1).hbmLog k 1 blk (bytes.getD 0 127) (bytes.getD 1 127)
  unfold State.countCorrected
  extract_lets ch s1 s2 x new y s3 n s4
  have h2 : Aftermath s s2 := .ite (logged.bump (not_lossReg_hbmErrcnt2 k) ..) logged
  have h3 : Aftermath s s3 := h2.setStack rfl
  have h4 : Aftermath s s4 := .ite ((h3.setStack (by rw [State.stack_setStack_same])).signal ..) h3
  exact h4.foldl _ fun _ _ hu => hu.lineSuspect ..

theorem Aftermath.poisonBlock (h : Aftermath s t) (k blk : Nat) : Aftermath s (t.poisonBlock k blk) := h.modStack fun _ => rfl

theorem Aftermath.countUncorrectable (h : Aftermath s t) (k blk : Nat) : Aftermath s (t.countUncorrectable k blk) := by
  unfold State.countUncorrectable
  extract_lets ch s1 p s2 x hist y s3 due z s4
  have h1 : Aftermath s s1 := ((h.bump (not_lossReg_hbmErrcnt k) ..).hbmLog ..).poisonBlock ..
  have h3 : Aftermath s s3 := (h1.signal ..).setStack rfl
  have h4 : Aftermath s s4 := (h3.setStack (by rw [State.stack_setStack_same])).setField (not_lossReg_hbmScrub k) ..
  exact .ite (.ite (h4.signal ..) h4) h3

theorem Aftermath.blockLost (h : Aftermath s t) (k blk : Nat) (scrub : Bool) : Aftermath s (t.blockLost k blk scrub).2 :=
  .ite (h.countUncorrectable k blk) ((h.countUncorrectable k blk).bump (not_lossReg_hbmErrcnt k) ..)

theorem Aftermath.blockFixed (h : Aftermath s t) (k blk : Nat) (scrub : Bool) (fixed : List Nat) :
    Aftermath s (t.blockFixed k blk scrub fixed) := by
  have cleared : Aftermath s (t.modStack k fun x => { x with errs := Tab.set [] x.errs blk [] }) :=
    h.modStack fun _ => rfl
  exact .ite cleared (cleared.countCorrected ..)

theorem Aftermath.readBlock (h : Aftermath s t) (k blk : Nat) (scrub : Bool) : Aftermath s (t.readBlock k blk scrub).2 := by
  unfold State.readBlock
  dsimp only
  split
  · exact .ite h ((h.bump (not_lossReg_hbmErrcnt k) ..).hbmLog ..)
  · split
    · exact h
    · split
      · exact h.blockFixed ..
      · split
        · exact h.blockLost ..
        · split
          · exact h.blockLost ..
          · exact Aftermath.blockFixed h.same ..

theorem Aftermath.storeHbm (h : Aftermath s t) (k rel : Nat) (d : List Byte) : Aftermath s (t.storeHbm k rel d) := h.same

theorem Aftermath.refuseWrite (h : Aftermath s t) (k rel : Nat) : Aftermath s (t.refuseWrite k rel) :=
  (h.bump (not_lossReg_hbmErrcnt2 k) ..).signal ..

theorem Aftermath.writeBlock (h : Aftermath s t) (k rel : Nat) (d : List Byte) : Aftermath s (t.writeBlock k rel d) := by
  have read := h.readBlock k (rel / 64) false
  unfold State.writeBlock
  dsimp only
  split
  · refine Aftermath.storeHbm ?_ ..
    exact h.modStack fun _ => rfl
  · split
    · exact h.refuseWrite ..
    · exact .ite (read.storeHbm ..) ((read.setField (not_lossReg_hbmErrcnt k) ..).refuseWrite ..)

/-! ### Ranges of partition memory (R438, R391, R392) -/

theorem Aftermath.writeUnit (h : Aftermath s t) {p pa : Nat} {d : List Byte} {e : Nat × State}
    (he : t.writeUnit p pa d = some e) : Aftermath s e.2 := by
  unfold State.writeUnit at he
  dsimp only at he
  split at he
  · exact nomatch he
  · split at he
    · exact nomatch he
    · obtain rfl := Option.some.inj he
      exact h.writeBlock ..

theorem Aftermath.writePa (p n : Nat) : ∀ (pa : Nat) (d : List Byte) {t : State}, Aftermath s t →
    Aftermath s (State.writePa p n pa d t).2 := by
  induction n with
  | zero => exact fun _ _ _ h => h
  | succ n ih =>
    intro pa d t h
    simp only [State.writePa]
    split
    · exact h
    next e he => exact ih _ _ (h.writeUnit he)

theorem Aftermath.readUnit (h : Aftermath s t) {p pa len : Nat} {e : PaRead × State}
    (he : t.readUnit p pa len = some e) : Aftermath s e.2 := by
  unfold State.readUnit at he
  dsimp only at he
  split at he
  · exact nomatch he
  · split at he
    · exact nomatch he
    · obtain rfl := Option.some.inj he
      exact h.readBlock ..

theorem Aftermath.readPa (p n : Nat) : ∀ (pa len : Nat) {t : State}, Aftermath s t →
    Aftermath s (State.readPa p n pa len t).2 := by
  induction n with
  | zero => exact fun _ _ _ h => h
  | succ n ih =>
    intro pa len t h
    simp only [State.readPa]
    split
    · exact h
    next e he => exact ih _ _ (h.readUnit he)

theorem Aftermath.readRange (h : Aftermath s t) (p pa len : Nat) : Aftermath s (t.readRange p pa len).2 := .readPa _ _ _ _ h

theorem Aftermath.modPln (h : Aftermath s t) (p : Nat) (f : PartPlane → PartPlane) : Aftermath s (t.modPln p f) := h.same
theorem Aftermath.setLayer (h : Aftermath s t) (p l : Nat) (x : Layer) : Aftermath s (t.setLayer p l x) := h.modPln ..

theorem Aftermath.countGradient (h : Aftermath s t) (p pa n : Nat) (r : LayerRec) :
    Aftermath s (t.countGradient p pa n r) := by
  unfold State.countGradient
  split
  · exact h
  · dsimp only
    exact .ite h (.ite (h.signal ..) (.ite h.same h.same))

theorem Aftermath.writeRange (h : Aftermath s t) (p pa : Nat) (d : List Byte) : Aftermath s (t.writeRange p pa d).2 :=
  (Aftermath.writePa _ _ _ _ h).foldl _ fun _ _ hu => hu.countGradient ..

theorem Aftermath.poisonPa (h : Aftermath s t) (p pa : Nat) : Aftermath s (t.poisonPa p pa) := by
  unfold State.poisonPa
  split
  · exact h.poisonBlock ..
  · exact h

/-! ### The staging ring and copy-in (R388, R410 to R416) -/

theorem Aftermath.ringRead (h : Aftermath s t) (p : Nat) (a : Alloc) (off n : Nat) :
    Aftermath s (t.ringRead p a off n).2.2 := by
  unfold State.ringRead
  dsimp only
  split
  · exact (h.readRange ..).readRange ..
  · exact h.readRange ..

theorem Aftermath.ringWrite (h : Aftermath s t) (p : Nat) (a : Alloc) (off : Nat) (d : List Byte) :
    Aftermath s (t.ringWrite p a off d) :=
  .ite ((h.writeRange ..).writeRange ..) (h.writeRange ..)

theorem Aftermath.spreadPoison (h : Aftermath s t) (p src dst len : Nat) (bad : List Nat) :
    Aftermath s (t.spreadPoison p src dst len bad) :=
  h.foldl _ fun _ _ hu => .ite (hu.foldl _ fun _ _ hv => hv.poisonPa ..) hu

theorem Aftermath.copyIn (h : Aftermath s t) (p : Nat) (r : LayerRec) (g : Staged) : Aftermath s (t.copyIn p r g) := by
  unfold State.copyIn
  split
  · exact h
  · extract_lets wn sn q s1 wBase s2 s3 u s4 sBase s5
    have h1 : Aftermath s s1 := h.ringRead ..
    have h3 : Aftermath s s3 := (h1.writeRange ..).spreadPoison ..
    have h4 : Aftermath s s4 := h3.ringRead ..
    have h5 : Aftermath s s5 := .ite h4 ((h4.writeRange ..).spreadPoison ..)
    split
    · exact h5
    · split
      · exact (h5.writeRange ..).foldl _ fun v _ hv =>
          have elements := hv.foldl _ fun _ _ hw => hw.poisonPa ..
          .ite elements (elements.foldl _ fun _ _ hw => hw.poisonPa ..)
      · exact h5

theorem Aftermath.sendTo (h : Aftermath s t) (x : PT) (l : LT) (mk : PT → Bool → Packet) : Aftermath s (t.sendTo x l mk) := by
  unfold State.sendTo
  split
  · exact h.same
  · exact h.signal ..

theorem Aftermath.floatApply (h : Aftermath s t) (p fid : Nat) (v : Bool) : Aftermath s (t.floatApply p fid v) :=
  Aftermath.foldl _ h.same fun _ _ hu => hu.sendTo ..

theorem Aftermath.refreshWindows (h : Aftermath s t) (p tid : Nat) : Aftermath s (t.refreshWindows p tid) :=
  h.foldl _ fun _ _ hu => .ite (Aftermath.floatApply hu.same ..) hu

theorem Aftermath.finishCopy (h : Aftermath s t) (p : Nat) (r : LayerRec) (g : Staged) :
    Aftermath s (t.finishCopy p r g) := by
  unfold State.finishCopy
  extract_lets s1 x s2 s3
  have h1 : Aftermath s s1 := by
    unfold s1
    split
    · exact h.ringWrite ..
    · exact h
  exact ((h1.setLayer ..).bump (not_lossReg_plnEcnt _) ..).foldl _ fun _ _ hu => hu.refreshWindows ..

theorem Aftermath.scanLayer (h : Aftermath s t) (p l : Nat) : Aftermath s (t.scanLayer p l) := by
  unfold State.scanLayer
  dsimp only
  split
  · exact .ite (((h.copyIn ..).finishCopy ..).signal ..) ((h.setLayer ..).signal ..)
  · exact .ite ((h.setLayer ..).signal ..) h
  · exact h

theorem Aftermath.beginCopy (h : Aftermath s t) (p l : Nat) : Aftermath s (t.beginCopy p l) := by
  unfold State.beginCopy
  dsimp only
  split
  · split
    · exact (((h.ringWrite ..).setLayer ..).modPln ..).setEngine ..
    · exact ((h.setLayer ..).modPln ..).setEngine ..
  · exact h

theorem Aftermath.beginCopies (h : Aftermath s t) : Aftermath s t.beginCopies :=
  h.foldl _ fun _ _ hu => hu.foldl _ fun _ _ hv => .ite (hv.beginCopy ..) hv

theorem Aftermath.ringScan (h : Aftermath s t) (e : Nat) : Aftermath s (t.ringScan e) := by
  have freed : Aftermath s (t.freeEngine e) := h.setEngine ..
  exact ((freed.foldl _ fun _ _ hu => hu.scanLayer ..).setEngine ..).beginCopies

end

end Sys2Proof.Machine
end

section
/-!
SUPPORT. The takeover of a pair's duties and what a fence and a lost host begin are aftermaths of a loss.
-/

namespace Sys2Proof.Machine

section
variable {s t : State}

/-! ### A pair's duties and endpoints pass on (R469 to R474) -/

theorem Aftermath.setPair (h : Aftermath s t) (k : Nat) (x : Pair) : Aftermath s (t.setPair k x) := h.same
theorem Aftermath.resetCores (h : Aftermath s t) (k : Nat) (held : Bool) : Aftermath s (t.resetCores k held) := h.same
theorem Aftermath.setSport (h : Aftermath s t) (ep : Nat) (x : SendPort) : Aftermath s (t.setSport ep x) := h.same
theorem Aftermath.setBasin (h : Aftermath s t) (ep n : Nat) (x : Basin) : Aftermath s (t.setBasin ep n x) := h.same

theorem Aftermath.retrySend (h : Aftermath s t) (ep : Nat) : Aftermath s (t.retrySend ep) := by
  unfold State.retrySend
  split
  · exact h
  · exact .ite (((h.setBasin ..).setSport ..).setSport ..) (h.setBasin ..)

theorem Aftermath.retryInto (h : Aftermath s t) (ep n : Nat) : Aftermath s (t.retryInto ep n) := by
  unfold State.retryInto
  dsimp only
  split
  · exact .ite (h.retrySend ..) h
  · exact h

theorem Aftermath.freshBasins (h : Aftermath s t) (j : Nat) : Aftermath s (t.freshBasins j).2 :=
  List.foldlRecOn (motive := fun acc : Nat × State => Aftermath s acc.2) _ _ h fun _ hu _ _ => hu.setBasin ..

theorem Aftermath.rehome (h : Aftermath s t) (j c : Nat) : Aftermath s (t.rehome j c) := by
  unfold State.rehome
  extract_lets port s1 pair s2 r pair2 s3 s4
  have h2 : Aftermath s s2 := (h.setSport ..).setPair ..
  have h4 : Aftermath s s4 := ((h2.freshBasins ..).setPair ..).signal ..
  exact .ite h2 (h4.foldl _ fun _ _ hu => hu.retryInto ..)

theorem Aftermath.restartDuties (h : Aftermath s t) (d : Word) : Aftermath s (t.restartDuties d) :=
  h.foldl _ fun _ _ hu => .ite (hu.foldl _ fun _ _ hv => hv.ringScan ..) hu

theorem Aftermath.takeover (h : Aftermath s t) (k : Nat) : Aftermath s (t.takeover k) := by
  unfold State.takeover
  extract_lets x
  split
  · exact h.signal ..
  · extract_lets y s1 z s2 s3
    have h2 : Aftermath s s2 := (h.setPair ..).setPair ..
    have h3 : Aftermath s s3 := h2.foldl _ fun _ _ hu => hu.rehome ..
    exact h3.restartDuties ..

/-! ### Fences (R547 to R555) -/

/-- The entry counts on one of the three lists. -/
def Fence.counts (kinds : List Nat) (id : Nat) (f : Fence) : Bool :=
  kinds.contains f.kind && decide (f.id = id) && (f.fuse || f.field || f.test)

theorem addEntry_keeps (e : Fence) {kinds : List Nat} {id : Nat} (l : List Fence) (h : l.any (Fence.counts kinds id) = true) :
    (addEntry e l).any (Fence.counts kinds id) = true := by
  induction l with
  | nil => exact nomatch h
  | cons g r ih =>
    rw [List.any_cons, Bool.or_eq_true] at h
    unfold addEntry
    split
    · rw [List.any_cons, Bool.or_eq_true]
      refine h.imp_left fun hg => ?_
      simp only [Fence.counts, Bool.and_eq_true, Bool.or_eq_true] at hg ⊢
      tauto
    · rw [List.any_cons, Bool.or_eq_true]
      exact h.imp_right ih

theorem addEntry_counts {e : Fence} (hm : e.field = true ∨ e.test = true) (l : List Fence) :
    (addEntry e l).any (Fence.counts [e.kind] e.id) = true := by
  induction l with
  | nil =>
    simp only [addEntry, Fence.counts, List.any_cons, List.any_nil, List.contains_cons, List.contains_nil, beq_self_eq_true,
      decide_true, Bool.or_false, Bool.true_and, Bool.or_eq_true]
    tauto
  | cons g r ih =>
    unfold addEntry
    split
    next hg =>
      simp only [Fence.counts, hg.1, hg.2, List.any_cons, List.contains_cons, List.contains_nil, beq_self_eq_true, decide_true,
        Bool.or_false, Bool.true_and, Bool.or_eq_true]
      tauto
    · rw [List.any_cons, ih, Bool.or_true]

theorem Aftermath.announceFence (h : Aftermath s t) (kind id cause part : Nat) :
    Aftermath s (t.announceFence kind id cause part) :=
  .ite ((h.signal ..).signal ..) (h.signal ..)

theorem Aftermath.sendAwaited (h : Aftermath s t) (n : Notice) (a b c : Nat) (d : List Byte) :
    Aftermath s (t.sendAwaited n a b c d) := (h.sendRecord a b c d).same

/-- The entry that `enterFence` makes. -/
def fenceEntry (t : State) (kind id cause : Nat) : Fence :=
  { kind := kind, id := id, fuse := false, field := decide (kind ≤ 4), test := isTest kind cause, withdrawn := false,
    cause := BitVec.ofNat 16 cause, tide := t.tide }

/-- The state with the entry in its fence set. -/
def State.withFence (t : State) (kind id cause : Nat) : State :=
  { t with comp := { t.comp with fences := addEntry (fenceEntry t kind id cause) t.comp.fences } }

theorem Aftermath.withFence (h : Aftermath s t) (kind id cause : Nat) : Aftermath s (t.withFence kind id cause) :=
  h.trans { Aftermath.refl t with fenced := fun _ _ hab => addEntry_keeps _ _ hab }

/-- What `enterFence` does once the entry is in the set. -/
theorem enterFence_spec (t : State) (kind id cause part : Nat) :
    Aftermath (t.withFence kind id cause) (t.enterFence kind id cause part) := by
  unfold State.enterFence
  extract_lets fld e old comp s1 s2 s3
  have h1 : Aftermath (t.withFence kind id cause) s1 := .refl _
  have h2 : Aftermath (t.withFence kind id cause) s2 := h1.same
  have h3 : Aftermath (t.withFence kind id cause) s3 := .ite (h2.sendAwaited ..) (h2.announceFence ..)
  exact .ite h1 (.ite (h3.signal ..) h3)

theorem Aftermath.enterFence (h : Aftermath s t) (kind id cause part : Nat) :
    Aftermath s (t.enterFence kind id cause part) :=
  (h.withFence kind id cause).trans (enterFence_spec ..)

/-- A bay that is entered is fenced as KIND 6 (R553). -/
theorem isFenced_enterFence_bay (t : State) (b cause part : Nat) : (t.enterFence 6 b cause part).isFenced 6 b = true :=
  (enterFence_spec t 6 b cause part).fenced 6 b (addEntry_counts (e := fenceEntry t 6 b cause) (.inr rfl) _)

/-! ### A lost host (R352, R559, R575, R576) -/

theorem not_lossReg_fltRecov : ¬ LossReg Reg.fltRecov := not_lossReg (by decide) (by decide)

theorem Aftermath.modPart (h : Aftermath s t) (p : Nat) (f : Part → Part) : Aftermath s (t.modPart p f) := h.same
theorem Aftermath.modHeal (h : Aftermath s t) (p : Nat) (f : Heal → Heal) : Aftermath s (t.modHeal p f) := h.modPart ..

theorem Aftermath.restartRecovery (h : Aftermath s t) (r p : Nat) : Aftermath s (t.restartRecovery r p) :=
  ((h.modHeal ..).bumpWrap not_lossReg_fltRecov ..).signal ..

theorem Aftermath.loseHost (h : Aftermath s t) (l : LT) : Aftermath s (t.loseHost l) := by
  unfold State.loseHost
  extract_lets p x s1
  have h1 : Aftermath s s1 := .ite (h.restartRecovery ..) (.ite (h.restartRecovery ..) h)
  exact .ite h (.ite h (.ite (h.modPart ..) (h1.modHeal ..)))

end

end Sys2Proof.Machine
end

section
/-!
SUPPORT. Proofs about the loss of supply: a bay whose array fuse opens, a rim segment that is lost, a thermal trip (R57,
R566, R730, R731, R752, R754).
-/

namespace Sys2Proof.Machine

/-! ### The mesh around a bay that goes dark -/

/-- Only the routers and the packets on their way differ. -/
def OnlyMesh (s t : State) : Prop := t = { s with comp := { s.comp with routers := t.comp.routers, net := t.comp.net } }

section
variable {s t u : State}

theorem OnlyMesh.trans (h : OnlyMesh s t) (k : OnlyMesh t u) : OnlyMesh s u := by
  unfold OnlyMesh at *
  rw [k, h]
theorem OnlyMesh.foldl {α : Type} {f : State → α → State} (l : List α) (h : OnlyMesh s t)
    (hf : ∀ u x, OnlyMesh u (f u x)) : OnlyMesh s (l.foldl f t) := by
  induction l generalizing t with
  | nil => exact h
  | cons x xs ih => exact ih (h.trans (hf t x))

theorem onlyMesh_lose (s : State) (hs : List Flit) : OnlyMesh s (s.lose hs) :=
  OnlyMesh.foldl _ rfl fun _ _ => rfl
theorem onlyMesh_setLink (s : State) (r : PT) (d : Dir) (x : Link) : OnlyMesh s (s.setLink r d x) := rfl

theorem onlyMesh_linkDown (s : State) (r : PT) (d : Dir) : OnlyMesh s (s.linkDown r d) := by
  have one (u : State) (r : PT) (d : Dir) :
      OnlyMesh u ((u.setLink r d ((u.link r d).takenDown u.now)).lose (u.link r d).lostHeads) :=
    (onlyMesh_setLink ..).trans (onlyMesh_lose ..)
  unfold State.linkDown
  dsimp only
  split
  · exact (one ..).trans (one ..)
  · exact one ..

/-- Of a bay only what its unlisted routers are and its surge time differ. -/
def SameSupply (x y : Bay) : Prop := y = { x with rbase := y.rbase, surgeAt := y.surgeAt, hour := y.hour }

theorem SameSupply.trans {x y z : Bay} (h : SameSupply x y) (k : SameSupply y z) : SameSupply x z := by
  unfold SameSupply at *
  rw [k, h]

theorem SameSupply.base {x y : Bay} (h : SameSupply x y) : y.base = x.base := by rw [h]

/-- The bay has lost its array supply (R57, R566). -/
def Bay.IsOpen (x : Bay) : Prop := x.supply = .open_ ∧ x.ripple = false ∧ x.volts = 0

theorem SameSupply.isOpen {x y : Bay} (h : SameSupply x y) (hx : x.IsOpen) : y.IsOpen := by
  rw [h]
  exact hx

theorem Bay.IsOpen.withBase {x : Bay} (h : x.IsOpen) (y : Tile) : ({ x with base := y } : Bay).IsOpen := h

/-- The tiles are as before, and every bay has its supply as before. -/
structure BaysKept (s t : State) : Prop extends LossFrame s t where
  tiles : t.comp.tiles = s.comp.tiles
  bays : ∀ c, SameSupply (s.bay c) (t.bay c)

theorem BaysKept.trans (h : BaysKept s t) (k : BaysKept t u) : BaysKept s u :=
  ⟨h.toLossFrame.trans k.toLossFrame, k.tiles.trans h.tiles, fun c => (h.bays c).trans (k.bays c)⟩

theorem BaysKept.tile (h : BaysKept s t) (x : PT) : t.tile x = s.tile x := by
  simp only [State.tile, (h.bays x.bay).base, h.tiles]

/-- A bay whose supply stays is replaced. -/
theorem baysKept_setBay {b : Nat} {x : Bay} (hx : SameSupply (s.bay b) x) : BaysKept s (s.setBay b x) where
  toLossFrame := (LossFrame.refl s).same
  tiles := rfl
  bays := fun c => by
    by_cases h : c = b
    · rw [h, State.bay_setBay_same]
      exact hx
    · rw [State.bay_setBay_ne _ _ h]
      rfl

theorem OnlyMesh.baysKept (h : OnlyMesh s t) : BaysKept s t := by
  rw [h]
  exact ⟨(LossFrame.refl s).same, rfl, fun _ => rfl⟩

theorem baysKept_recount (s : State) (p : Nat) : BaysKept s (s.recount p) := ⟨(LossFrame.refl s).same, rfl, fun _ => rfl⟩

theorem baysKept_darkenBay (s : State) (b : Nat) : BaysKept s (s.darkenBay b) := by
  unfold State.darkenBay
  extract_lets s1 s2
  have h1 : OnlyMesh s s1 := onlyMesh_lose ..
  have h2 : OnlyMesh s s2 := h1.foldl _ fun _ _ => onlyMesh_linkDown ..
  refine h2.baysKept.trans ?_
  have routers : BaysKept s2 (s2.setBay b { s2.bay b with rbase := Router.darkened s2.now (s2.bay b).rbase }) :=
    baysKept_setBay rfl
  exact ⟨routers.toLossFrame.same, routers.tiles, routers.bays⟩

theorem baysKept_settleBay (s : State) (b : Nat) : BaysKept s (s.settleBay b) := by
  have refl : BaysKept s s := ⟨.refl s, rfl, fun _ => rfl⟩
  unfold State.settleBay
  dsimp only
  split
  · split
    · exact baysKept_setBay rfl
    · exact refl
  · split
    · exact refl
    · exact baysKept_setBay rfl

end

/-! ### A bay is lost (R566, R567) -/

theorem Tab.get_of_forall_ne {α : Type} (d : α) {t : Tab α} {k : Nat} (h : ∀ e ∈ t, e.1 ≠ k) : Tab.get d t k = d := by
  induction t with
  | nil => rfl
  | cons e t ih =>
    rw [Tab.get, if_neg (h e List.mem_cons_self)]
    exact ih fun e he => h e (List.mem_cons_of_mem _ he)

/-- A tile's number gives its bay. -/
theorem PT.key_div {x : PT} (hx : x.valid = true) : x.key / 12288 = x.bay := by
  simp only [PT.valid, Bool.and_eq_true, decide_eq_true_eq] at hx
  unfold PT.key
  omega

theorem bay_modBayTiles_const (s : State) (b : Nat) (y : Tile) :
    (s.modBayTiles b fun _ _ => y).bay b = { s.bay b with base := y } :=
  (State.bay_congr (s := s.setBay b { s.bay b with base := y }) rfl b).trans (State.bay_setBay_same s b _)

/-- Every tile of a bay is given the same contents. -/
theorem tile_modBayTiles_const (s : State) {b : Nat} {x : PT} (y : Tile) (hx : x.valid = true) (hb : x.bay = b) :
    (s.modBayTiles b fun _ _ => y).tile x = y := by
  unfold State.tile
  rw [hb, bay_modBayTiles_const]
  refine Tab.get_of_forall_ne _ fun e he => ?_
  simp only [State.modBayTiles, List.mem_filter, List.mem_map, decide_eq_true_eq] at he
  obtain ⟨⟨kv, -, rfl⟩, hne⟩ := he
  rintro hk
  have hdiv := PT.key_div hx
  rw [← hk, hb] at hdiv
  refine hne.elim (fun h => h hdiv) fun h => h ?_
  split at hdiv
  next hkv => rw [if_pos hkv]
  next hkv => exact absurd hdiv hkv

theorem lossFrame_modBayTiles (s : State) (b : Nat) (f : PT → Tile → Tile) : LossFrame s (s.modBayTiles b f) :=
  (LossFrame.refl s).same

/-- The bay's array supply goes. -/
def Bay.opened (x : Bay) : Bay := { x with supply := .open_, volts := 0, ripple := false }

theorem aftermath_loseHosts (ls : List LT) (s : State) : Aftermath s (ls.foldl (fun s l => s.loseHost l) s) :=
  (Aftermath.refl s).foldl _ fun _ _ hu => hu.loseHost _

/-- The state once a lost bay has been fenced, has opened and its hosts are lost. -/
def State.bayOpened (b cause : Nat) (s : State) : State :=
  (s.hostedIn b).foldl (fun s l => s.loseHost l) ((s.enterFence 6 b cause (s.bayOwner b)).modBay b Bay.opened)

section
variable (s : State) (b cause : Nat)

theorem loseBay_eq : s.loseBay b cause =
    (((s.bayOpened b cause).modBayTiles b fun _ _ => Tile.reset).recount (s.bayOwner b)).darkenBay b := rfl

theorem lossFrame_modBay (f : Bay → Bay) : LossFrame s (s.modBay b f) := (LossFrame.refl s).same

theorem lossFrame_bayOpened : LossFrame (s.enterFence 6 b cause (s.bayOwner b)) (s.bayOpened b cause) :=
  (lossFrame_modBay ..).trans (aftermath_loseHosts ..).toLossFrame

theorem bay_bayOpened : ((s.bayOpened b cause).bay b).IsOpen := by
  rw [State.bayOpened, State.bay_congr (congrArg Physical.bays (aftermath_loseHosts ..).phys), State.bay_modBay_same]
  exact ⟨rfl, rfl, rfl⟩

/-- What `loseBay` does after it has emptied the bay's tiles. -/
theorem baysKept_loseBay :
    BaysKept ((s.bayOpened b cause).modBayTiles b fun _ _ => Tile.reset) (s.loseBay b cause) := by
  rw [loseBay_eq]
  exact (baysKept_recount ..).trans (baysKept_darkenBay ..)

theorem lossFrame_loseBay_of_fenced : LossFrame (s.enterFence 6 b cause (s.bayOwner b)) (s.loseBay b cause) :=
  ((lossFrame_bayOpened s b cause).trans (lossFrame_modBayTiles ..)).trans (baysKept_loseBay s b cause).toLossFrame

theorem lossFrame_loseBay : LossFrame s (s.loseBay b cause) :=
  ((Aftermath.refl s).enterFence ..).toLossFrame.trans (lossFrame_loseBay_of_fenced s b cause)

theorem isFenced_loseBay : (s.loseBay b cause).isFenced 6 b = true :=
  (lossFrame_loseBay_of_fenced s b cause).fenced 6 b (isFenced_enterFence_bay ..)

theorem bay_loseBay : ((s.loseBay b cause).bay b).IsOpen := by
  refine ((baysKept_loseBay s b cause).bays b).isOpen ?_
  rw [bay_modBayTiles_const]
  exact (bay_bayOpened s b cause).withBase _

theorem tile_loseBay {x : PT} (hx : x.valid = true) (hb : x.bay = b) : (s.loseBay b cause).tile x = Tile.reset := by
  rw [(baysKept_loseBay s b cause).tile x, tile_modBayTiles_const _ _ hx hb]

end

/-! ### A bay's array fuse opens (R730, R764) -/

theorem fuseCause_code_lt (c : FuseCause) : c.code < 16 := by cases c <;> decide

theorem silPwrstat_ne_pwrCnt (b : Nat) : Reg.silPwrstat b ≠ Reg.pwrCnt := by unfold Reg.silPwrstat Reg.pwrCnt; omega
theorem bayOwner_reg_ne {b : Nat} (hb : b < 84) : ¬ LossReg (Reg.prtBayownk (b / 16)) :=
  not_lossReg (by unfold Reg.prtBayownk; omega) (by unfold Reg.prtBayownk; omega)

/-- The state once the fuse's cause is shown and the loss is counted. -/
def State.fuseShown (b : Nat) (c : FuseCause) (s : State) : State :=
  ((if c = .sillSupply then s.modBay b fun x => { x with sill := false } else s).setField (Reg.silPwrstat b) 19 16 c.code).bump
    Reg.pwrCnt 47 32 1

section
variable (s : State) (b : Nat) (c : FuseCause)

theorem openBay_eq : s.openBay b c =
    (((s.fuseShown b c).signal Ev.pwrBayFuse ((s.fuseShown b c).bayOwner b) [b, c.code]).loseBay b
      Ev.pwrBayFuse.code.toNat).settleBay b := rfl

theorem power_fuseShown : (s.fuseShown b c).phys.power = s.phys.power := by
  unfold State.fuseShown
  split <;> rfl
theorem man_fuseShown : (s.fuseShown b c).man = s.man := by
  unfold State.fuseShown
  split <;> rfl
theorem tide_fuseShown : (s.fuseShown b c).tide = s.tide := by
  unfold State.fuseShown
  split <;> rfl

theorem reg_fuseShown_ne {a : Nat} (ha : ¬ LossReg a) : (s.fuseShown b c).reg a = s.reg a := by
  have hcnt : a ≠ Reg.pwrCnt := by
    rintro rfl
    exact ha lossReg_pwrCnt
  have hstat : a ≠ Reg.silPwrstat b := by
    rintro rfl
    exact ha (lossReg_silPwrstat b)
  unfold State.fuseShown
  rw [State.reg_bump_ne _ _ _ _ hcnt, State.reg_setField_ne _ _ _ _ hstat]
  split <;> rfl

theorem bayOwner_fuseShown (hb : b < 84) : (s.fuseShown b c).bayOwner b = s.bayOwner b := by
  simp only [State.bayOwner, State.field, reg_fuseShown_ne s b c (bayOwner_reg_ne hb)]

theorem cause_fuseShown : (s.fuseShown b c).field (Reg.silPwrstat b) 19 16 = c.code := by
  unfold State.fuseShown
  rw [State.field, State.reg_bump_ne _ _ _ _ (silPwrstat_ne_pwrCnt b), ← State.field,
    State.field_setField_same _ _ _ _ _ (by decide) (by decide)]
  exact Nat.mod_eq_of_lt (fuseCause_code_lt c)

theorem count_fuseShown : (s.fuseShown b c).field Reg.pwrCnt 47 32 = min (s.field Reg.pwrCnt 47 32 + 1) 0xFFFF := by
  unfold State.fuseShown
  rw [State.field_bump _ _ _ _ _ (by decide) (by decide), State.field,
    State.reg_setField_ne _ _ _ _ (silPwrstat_ne_pwrCnt b).symm]
  split <;> rfl

/-- What `openBay` does after it has raised the event. -/
theorem lossFrame_openBay : LossFrame (s.fuseShown b c) (s.openBay b c) :=
  (((Aftermath.refl _).signal ..).toLossFrame.trans (lossFrame_loseBay ..)).trans (baysKept_settleBay ..).toLossFrame

theorem power_openBay : (s.openBay b c).phys.power = s.phys.power :=
  (lossFrame_openBay s b c).power.trans (power_fuseShown s b c)
theorem pins_openBay : (s.openBay b c).man.pins = s.man.pins :=
  (lossFrame_openBay s b c).pins.trans (congrArg Manage.pins (man_fuseShown s b c))
theorem mem_openBay {r : GrnRec} (h : r ∈ s.man.grain.waiting) : r ∈ (s.openBay b c).man.grain.waiting :=
  (lossFrame_openBay s b c).mem (by rwa [man_fuseShown s b c])

theorem bay_openBay : ((s.openBay b c).bay b).IsOpen := ((baysKept_settleBay _ b).bays b).isOpen (bay_loseBay ..)

theorem isFenced_openBay : (s.openBay b c).isFenced 6 b = true :=
  (baysKept_settleBay _ b).fenced 6 b (isFenced_loseBay ..)

theorem tile_openBay {x : PT} (hx : x.valid = true) (hb : x.bay = b) : (s.openBay b c).tile x = Tile.reset :=
  ((baysKept_settleBay _ b).tile x).trans (tile_loseBay _ _ _ hx hb)

theorem record_openBay (hb : b < 84) :
    eventRecord Ev.pwrBayFuse (s.bayOwner b) [b, c.code] s.tide ∈ (s.openBay b c).man.grain.waiting := by
  have h := (signal_spec Ev.pwrBayFuse ((s.fuseShown b c).bayOwner b) [b, c.code] (s.fuseShown b c)).mem
  rw [bayOwner_fuseShown s b c hb, tide_fuseShown s b c] at h
  rw [openBay_eq, bayOwner_fuseShown s b c hb]
  exact ((lossFrame_loseBay ..).trans (baysKept_settleBay ..).toLossFrame).mem h

end

end Sys2Proof.Machine
end

section
/-!
SUPPORT. Proofs about the loss of a rim segment (R57, R731) and a thermal trip (R752, R754).
-/

namespace Sys2Proof.Machine

/-! ### The ports of a lost segment -/

/-- A port that loses its supply shows it (R678). -/
def State.portOff (p : Nat) (s : State) : State :=
  (s.setStlp p { StlPort.reset with st := .off, lastFlit := s.now }).setField (Reg.stlPstat p) 26 24 6

/-- The ports of segment `n` among `ps` lose their supply. -/
def State.portsOff (n : Nat) (ps : List Nat) (s : State) : State :=
  ps.foldl (fun s p => if 3 * p / 4 = n then s.portOff p else s) s

theorem not_lossReg_stlPstat {p : Nat} (hp : p < 32) : ¬ LossReg (Reg.stlPstat p) :=
  not_lossReg (by unfold Reg.stlPstat; omega) (by unfold Reg.stlPstat; omega)

theorem lossFrame_portOff (s : State) {p : Nat} (hp : p < 32) : LossFrame s (s.portOff p) :=
  LossFrame.setReg (LossFrame.refl s).same (not_lossReg_stlPstat hp) _

theorem stlp_portOff (s : State) (p q : Nat) :
    (s.portOff p).stlp q = if q = p then { StlPort.reset with st := .off, lastFlit := s.now } else s.stlp q := by
  unfold State.portOff
  rw [State.stlp_setField_]
  split
  next h => rw [h, State.stlp_setStlp_same]
  next h => exact State.stlp_setStlp_ne _ _ h

theorem portsOff_cons (s : State) (n p : Nat) (ps : List Nat) :
    s.portsOff n (p :: ps) = (if 3 * p / 4 = n then s.portOff p else s).portsOff n ps := rfl

theorem lossFrame_portsOff (n : Nat) (ps : List Nat) (hps : ∀ p ∈ ps, p < 32) (s : State) :
    LossFrame s (s.portsOff n ps) := by
  induction ps generalizing s with
  | nil => exact .refl s
  | cons p ps ih =>
    rw [portsOff_cons]
    refine LossFrame.trans ?_ (ih (fun q hq => hps q (List.mem_cons_of_mem _ hq)) _)
    split
    · exact lossFrame_portOff s (hps p List.mem_cons_self)
    · exact .refl s

/-- A port that is off stays so. -/
theorem portsOff_keeps (n q : Nat) (ps : List Nat) (s : State) (h : (s.stlp q).st = .off) :
    ((s.portsOff n ps).stlp q).st = .off := by
  induction ps generalizing s with
  | nil => exact h
  | cons p ps ih =>
    rw [portsOff_cons]
    refine ih _ ?_
    split
    · rw [stlp_portOff]
      split
      · rfl
      · exact h
    · exact h

theorem stlp_portsOff {n q : Nat} (hq : 3 * q / 4 = n) (ps : List Nat) (hm : q ∈ ps) (s : State) :
    ((s.portsOff n ps).stlp q).st = .off := by
  induction ps generalizing s with
  | nil => exact nomatch hm
  | cons p ps ih =>
    rw [portsOff_cons]
    rcases List.mem_cons.1 hm with rfl | hps
    · rw [if_pos hq]
      refine portsOff_keeps n q ps _ ?_
      rw [stlp_portOff, if_pos rfl]
    · exact ih hps _

/-! ### The blocks of a lost segment (R50, R57) -/

/-- The state once the supply of segment `n`, its stack and its engine are gone. -/
def State.segCut (n : Nat) (s : State) : State :=
  let s := s.modPower fun w => { w with segs := w.segs &&& ~~~((1 : BitVec 24) <<< n) }
  let s := { s with comp := { s.comp with hbm := s.comp.hbm.filter fun c => decide (c.1 / 2 ^ 37 ≠ n) } }
  let s := (s.setStack n Stack.reset).setEngine n Engine.reset
  s.modBoot fun b => { b with copies := b.copies.filter fun k => decide (k ≠ n) }

/-- The pairs of the cluster of an even segment stop, and their duties pass on. -/
def State.clusterLost (n : Nat) (s : State) : State :=
  if n % 2 = 0 then
    (List.range 4).foldl (fun s p =>
      let k := n / 2 * 4 + p
      let s := s.resetCores k true
      if (s.pair k).duties = 0 ∧ (s.pair k).adopted = 0 then s else s.takeover k) s
  else s

section
variable (s : State) (n : Nat)

theorem darkSegment_eq : s.darkSegment n = ((s.segCut n).portsOff n (List.range 32)).clusterLost n := rfl

theorem aftermath_clusterLost : Aftermath s (s.clusterLost n) :=
  .ite ((Aftermath.refl s).foldl _ fun _ _ hu => .ite (hu.resetCores ..) ((hu.resetCores ..).takeover _)) (.refl s)

theorem lossFrame_ports : LossFrame (s.segCut n) ((s.segCut n).portsOff n (List.range 32)) :=
  lossFrame_portsOff n _ (fun _ => List.mem_range.1) _

theorem stack_segCut : (s.segCut n).stack n = Stack.reset := by simp [State.segCut]

/-- What `darkSegment` does after the segment's supply, stack and engine are gone. -/
theorem lossFrame_darkSegment : LossFrame (s.segCut n) (s.darkSegment n) := by
  rw [darkSegment_eq]
  exact (lossFrame_ports s n).trans (aftermath_clusterLost ..).toLossFrame

/-- Segment `n` of `s` is gone in `t`: its supply, its stack and its ports. -/
structure SegmentGone (n : Nat) (s t : State) : Prop where
  power : t.phys.power = { s.phys.power with segs := s.phys.power.segs &&& ~~~((1 : BitVec 24) <<< n) }
  count : t.reg Reg.pwrCnt = s.reg Reg.pwrCnt
  stack : (t.stack n).up = false
  ports : ∀ p, p < 32 → 3 * p / 4 = n → (t.stlp p).st = .off

variable {s n}

theorem SegmentGone.segUp {t : State} (h : SegmentGone n s t) : t.segUp n = false := by
  simp only [State.segUp, h.power, BitVec.getLsbD_and, BitVec.getLsbD_not, BitVec.getLsbD_shiftLeft]
  by_cases hn : n < 24 <;> simp [hn]

theorem SegmentGone.trans {t u : State} (h : SegmentGone n s t) (hp : u.phys.power = t.phys.power)
    (hr : u.reg Reg.pwrCnt = t.reg Reg.pwrCnt) (hk : (u.stack n).up = (t.stack n).up) (hs : u.phys.stl = t.phys.stl) :
    SegmentGone n s u where
  power := hp.trans h.power
  count := hr.trans h.count
  stack := hk.trans h.stack
  ports := fun p h32 hn => by
    rw [State.stlp, hs]
    exact h.ports p h32 hn

theorem SegmentGone.aftermath {t u : State} (h : SegmentGone n s t) (k : Aftermath t u) : SegmentGone n s u :=
  h.trans k.power (k.reg _ lossReg_pwrCnt) (k.up n) (congrArg _ k.phys)

variable (s n)

theorem darkSegment_gone : SegmentGone n s (s.darkSegment n) := by
  have ports : SegmentGone n s ((s.segCut n).portsOff n (List.range 32)) := {
    power := (lossFrame_ports s n).power
    count := (lossFrame_ports s n).reg _ lossReg_pwrCnt
    stack := by
      rw [(lossFrame_ports s n).up n, stack_segCut]
      rfl
    ports := fun p hp hn => stlp_portsOff hn _ (List.mem_range.2 hp) _ }
  rw [darkSegment_eq]
  exact ports.aftermath (aftermath_clusterLost ..)

/-! ### The loss of a segment -/

/-- The root, PCIe and the ROM are lost, and THERM_N is released (R57, R862). -/
def State.rootLost (s : State) : State := s.loseRoot.modPins fun p => { p with thermN := true }

theorem rootLost_spec : s.rootLost.host.pcie.up = false ∧ s.rootLost.phys.clock.rootLock = false ∧
    s.rootLost.man.pins.thermN = true ∧ s.rootLost.boot.fatalSince = true ∧ s.rootLost.boot.faultPin = true :=
  ⟨rfl, rfl, rfl, rfl, rfl⟩

theorem thermN_rootLost : s.rootLost.man.pins.thermN = true := rfl
theorem grain_rootLost : s.rootLost.man.grain = s.man.grain := rfl

theorem SegmentGone.rootLost {s t : State} {n : Nat} (h : SegmentGone n s t) : SegmentGone n s t.rootLost :=
  have hp : t.rootLost.phys.power = t.phys.power := rfl
  have hr : t.rootLost.regs = t.regs := rfl
  have hk : t.rootLost.comp.stackTab = t.comp.stackTab := rfl
  have hs : t.rootLost.phys.stl = t.phys.stl := rfl
  h.trans hp (State.reg_congr hr _) (congrArg Stack.up (stack_congr hk _)) hs

theorem loseSegment_eq : s.loseSegment n =
    if n = 0 then (s.darkSegment n).rootLost else ((s.darkSegment n).signal Ev.rimSegLost 0 [n]).segParts n := rfl
theorem loseSegment_ne (hn : n ≠ 0) : s.loseSegment n = ((s.darkSegment n).signal Ev.rimSegLost 0 [n]).segParts n := by
  rw [loseSegment_eq, if_neg hn]
theorem loseSegment_zero : s.loseSegment 0 = (s.darkSegment 0).rootLost := by rw [loseSegment_eq, if_pos rfl]

theorem Aftermath.segParts {s t : State} (h : Aftermath s t) (n : Nat) : Aftermath s (t.segParts n) :=
  h.foldl _ fun _ _ hu => .ite (hu.signal ..) hu

/-- The loss of another segment than 0 is reported, and partitions stop (R731). -/
theorem aftermath_loseSegment (hn : n ≠ 0) : Aftermath (s.darkSegment n) (s.loseSegment n) := by
  rw [loseSegment_ne s n hn]
  exact ((Aftermath.refl _).signal ..).segParts n

theorem loseSegment_gone : SegmentGone n s (s.loseSegment n) := by
  by_cases hn : n = 0
  · subst hn
    rw [loseSegment_zero]
    exact (darkSegment_gone s 0).rootLost
  · exact (darkSegment_gone s n).aftermath (aftermath_loseSegment s n hn)

theorem mem_loseSegment {r : GrnRec} (h : r ∈ s.man.grain.waiting) : r ∈ (s.loseSegment n).man.grain.waiting := by
  have dark : r ∈ (s.darkSegment n).man.grain.waiting := (lossFrame_darkSegment s n).mem h
  by_cases hn : n = 0
  · subst hn
    rwa [loseSegment_zero, grain_rootLost]
  · exact (aftermath_loseSegment s n hn).mem dark

theorem record_loseSegment (hn : n ≠ 0) : eventRecord Ev.rimSegLost 0 [n] s.tide ∈ (s.loseSegment n).man.grain.waiting := by
  have h := (signal_spec Ev.rimSegLost 0 [n] (s.darkSegment n)).mem
  rw [(lossFrame_darkSegment s n).tide] at h
  rw [loseSegment_ne s n hn]
  exact ((Aftermath.refl _).segParts n).mem h

theorem thermN_loseSegment : (s.loseSegment n).man.pins.thermN = if n = 0 then true else s.man.pins.thermN := by
  split
  next hn => rw [hn, loseSegment_zero, thermN_rootLost]
  next hn => rw [(aftermath_loseSegment s n hn).pins, (lossFrame_darkSegment s n).pins]; rfl

end

/-! ### `RIM_SEG_LOST` and `PWR_BAY_FUSE` -/

theorem exec_rimSegLost {s : State} {n : Nat} (hu : s.segUp n = true) (hn : n < 24) :
    exec (.rimSegLost n) s = .next ((s.bump Reg.pwrCnt 47 32 1).loseSegment n) := by
  have h : ¬ (s.segUp n = false ∨ 24 ≤ n) := by simp [hu, hn]
  show execRimSegLost n s = _
  rw [execRimSegLost, if_neg h]

theorem exec_pwrBayFuse (s : State) (b : Nat) (c : FuseCause) (h : (s.bay b).supply = .on ∨ (s.bay b).supply = .ramping) :
    exec (.pwrBayFuse b c) s = .next (s.openBay b c) := by
  show execPwrBayFuse b c s = _
  rw [execPwrBayFuse, if_pos h]

theorem exec_pwrBayFuse_open (s : State) (b : Nat) (c : FuseCause) (hon : (s.bay b).supply ≠ .on)
    (hr : (s.bay b).supply ≠ .ramping) : exec (.pwrBayFuse b c) s =
      .next (if c = .sillSupply ∧ b < 84 then s.modBay b fun x => { x with sill := false } else s) := by
  show execPwrBayFuse b c s = _
  rw [execPwrBayFuse, if_neg (not_or.2 ⟨hon, hr⟩)]

/-! ### A thermal trip (R752, R754) -/

/-- The trip is kept until the next cold start, THERM_N shows it, and it is reported. -/
def State.tripped (part op : Nat) (s : State) : State :=
  ((s.modPower fun w => { w with trips := true }).drawTherm).signal Ev.thermTrip part [op]

section
variable (s : State) (part op : Nat)

theorem exec_thermTrip_bay {b : Nat} (h : (s.bay b).supply = .on) :
    exec (.thermTrip (.bay b)) s = .next ((s.tripped (s.bayOwner b) b).openBay b .thermalTrip) := by
  show execThermTrip (.bay b) s = _
  simp only [execThermTrip, if_pos h]
  rfl

theorem exec_thermTrip_segment {n : Nat} (hu : s.segUp n = true) (hn : n < 24) :
    exec (.thermTrip (.segment n)) s = .next (((s.tripped 0 (84 + n)).bump Reg.pwrCnt 47 32 1).loseSegment n) := by
  show execThermTrip (.segment n) s = _
  simp only [execThermTrip, if_pos (And.intro hu hn)]
  rfl

theorem power_tripped : (s.tripped part op).phys.power = { s.phys.power with trips := true } := by
  rw [State.tripped, (signal_spec ..).phys]
  rfl

theorem thermN_tripped : (s.tripped part op).man.pins.thermN = !s.segUp 0 := by
  rw [State.tripped, (signal_spec ..).pins]
  simp [State.drawTherm, State.modPins, State.modPower, State.segUp]

theorem record_tripped : eventRecord Ev.thermTrip part [op] s.tide ∈ (s.tripped part op).man.grain.waiting :=
  (signal_spec Ev.thermTrip part [op] ((s.modPower fun w => { w with trips := true }).drawTherm)).mem

end

end Sys2Proof.Machine
end

section
/-!
SUPPORT. Proofs about live replacement (R791 to R797), the loss of the feed (R720 to R722), and the claim on both with the
loss of supply.
-/

namespace Sys2Proof.Machine

/-! ### `BOOT_LIVE` (R791, R792, R799) -/

section
variable (s : State)

theorem liveSt_setLiveSt (n : Nat) : (s.setLiveSt n).liveSt = n % 16 :=
  s.field_setField_same Reg.bootLive 63 60 n (by decide) (by decide)

/-- What a refusal writes (R792). -/
theorem refuseLive_spec (r : Nat) (i : Image) : (s.refuseLive r i).liveSt = 5 ∧
    (s.refuseLive r i).field Reg.bootLive 59 56 = r % 16 ∧ (s.refuseLive r i).boot = s.boot := by
  have written (hi lo : Nat) : (s.refuseLive r i).field Reg.bootLive hi lo =
    ((s.setLiveSt 5).setField Reg.bootLive 59 56 r).field Reg.bootLive hi lo := rfl
  refine ⟨?_, ?_, rfl⟩
  · rw [State.liveSt, written, State.field_setField_apart _ _ _ _ _ _ _ (by decide) (by decide) (by decide) (by decide)
      (.inr (by decide)), ← State.liveSt, liveSt_setLiveSt]
  · rw [written, State.field_setField_same _ _ _ _ _ (by decide) (by decide)]
    rfl

/-- The LIVE that was asked for is taken. -/
def State.liveTaken (s : State) : State := s.modBoot fun b => { b with asked := b.asked &&& 1 }

theorem fetchImage_liveTaken (h : HostOutcome) : (s.liveTaken.fetchImage h).1 = (s.fetchImage h).1 := by
  unfold State.fetchImage
  dsimp only
  have hi : s.liveTaken.field Reg.bootImglen 31 0 = s.field Reg.bootImglen 31 0 := rfl
  have hd : ∀ a n, s.liveTaken.dmaOk 0 a n = s.dmaOk 0 a n := fun _ _ => rfl
  have hr : s.liveTaken.reg Reg.bootImgaddr = s.reg Reg.bootImgaddr := rfl
  rw [hi, hr, hd]
  split
  · rfl
  · split
    · rfl
    · cases h <;> rfl

/-- A fetch that brings an image changes nothing. -/
theorem fetchImage_some {s : State} {h : HostOutcome} {i : Image} (hi : (s.fetchImage h).1 = some i) :
    (s.fetchImage h).2 = s := by
  unfold State.fetchImage at *
  dsimp only at *
  split at hi
  · exact nomatch hi
  next hlen =>
    rw [if_neg hlen]
    split at hi
    · exact nomatch hi
    next hdma =>
      rw [if_neg hdma]
      cases h <;> rfl

/-- Stage 7 has the reasons 1 to 6 (R777). -/
theorem verifyReason_lt {s : State} {i : Image} {len r : Nat} (h : s.verifyReason i len = some r) : r < 7 := by
  unfold State.verifyReason at h
  grind

/-- The reasons for which a live image is refused fit their field. -/
theorem liveReason_lt {s : State} {i : Image} {r : Nat} (h : s.liveReason i = some r) : r < 16 := by
  unfold State.liveReason at h
  split at h
  next hv =>
    obtain rfl := Option.some.inj h
    exact (verifyReason_lt hv).trans (by decide)
  · grind

/-- The replacement begins with image `i`, from state `st` of `BOOT_LIVE` (R792, R795). -/
def State.liveStarted (st : Nat) (i : Image) (s : State) : State :=
  let t := if st = 6 then s else s.setField Reg.bootLive 51 40 0
  let u := ((t.setLiveSt 3).setField Reg.bootLive 59 56 0).placeParts
  u.modBoot fun b => { b with liveImage := some i, liveAt := u.now }

/-- What the start of a replacement writes: the state, no reason, the image with its copies; the clusters that run it
already stay marked after a stop (R795). -/
theorem liveStarted_spec (st : Nat) (i : Image) : let t := s.liveStarted st i
    t.liveSt = 3 ∧ t.field Reg.bootLive 59 56 = 0 ∧ t.boot.liveImage = some i ∧ t.boot.liveAt = s.now ∧
    t.boot.copies = copyStacks ((List.range 24).filter fun k => s.segUp k && (s.stack k).up) ∧
    t.field Reg.bootLive 51 40 = if st = 6 then s.field Reg.bootLive 51 40 else 0 := by
  unfold State.liveStarted
  extract_lets t u v
  have written (hi lo : Nat) : v.field Reg.bootLive hi lo =
    ((t.setLiveSt 3).setField Reg.bootLive 59 56 0).field Reg.bootLive hi lo := rfl
  have unwritten : t.tide = s.tide ∧ t.phys = s.phys ∧ t.comp = s.comp := by
    unfold t
    split <;> exact ⟨rfl, rfl, rfl⟩
  obtain ⟨htide, hphys, hcomp⟩ := unwritten
  refine ⟨?st, ?reason, rfl, ?liveAt, ?copies, ?clusters⟩
  case st =>
    rw [State.liveSt, written, State.field_setField_apart _ _ _ _ _ _ _ (by decide) (by decide) (by decide) (by decide)
      (.inr (by decide)), ← State.liveSt, liveSt_setLiveSt]
  case reason => rw [written, State.field_setField_same _ _ _ _ _ (by decide) (by decide), Nat.zero_mod]
  case liveAt => exact congrArg BitVec.toNat htide
  case copies =>
    have placed : v.boot.copies = copyStacks ((List.range 24).filter fun k => t.segUp k && (t.stack k).up) := rfl
    rw [placed]
    simp only [State.segUp, State.stack, hphys, hcomp]
  case clusters =>
    rw [written, State.field_setField_apart _ _ _ _ _ _ _ (by decide) (by decide) (by decide) (by decide)
      (.inl (by decide)), State.setLiveSt, State.field_setField_apart _ _ _ _ _ _ _ (by decide) (by decide) (by decide)
      (by decide) (.inl (by decide))]
    unfold t
    split
    · rfl
    · rw [State.field_setField_same _ _ _ _ _ (by decide) (by decide), Nat.zero_mod]

/-- A LIVE write that is not ignored (R791): the fetch decides, then the checks. -/
theorem exec_bootLive {s : State} (h : HostOutcome) (hready : s.boot.st = .ready) (hu : s.segUp 0 = true)
    (hst : s.liveSt = 0 ∨ s.liveSt = 4 ∨ s.liveSt = 5 ∨ s.liveSt = 6) :
    exec (.bootLive h) s = .next (
      let q := s.liveTaken.fetchImage h
      match q.1 with
      | none => q.2.refuseLive 8 { head := [], body := [] }
      | some i =>
        match q.2.liveReason i with
        | some r => q.2.refuseLive r i
        | none => q.2.liveStarted s.liveSt i) := by
  have may : s.mayLive = true := by
    simp only [State.mayLive, hready, hu, Bool.and_eq_true, Bool.or_eq_true, decide_eq_true_eq]
    tauto
  show execBootLive h s = _
  unfold execBootLive
  simp only [may, Bool.true_eq_false, ↓reduceIte]
  rfl

end

section
variable {s : State} {h : HostOutcome} (hready : s.boot.st = .ready) (hu : s.segUp 0 = true)
  (hst : s.liveSt = 0 ∨ s.liveSt = 4 ∨ s.liveSt = 5 ∨ s.liveSt = 6)
include hready hu hst

/-- An image that cannot be fetched is refused with reason 8. -/
theorem bootLive_unfetched (hi : (s.fetchImage h).1 = none) :
    ∃ t, exec (.bootLive h) s = .next t ∧ t.liveSt = 5 ∧ t.field Reg.bootLive 59 56 = 8 := by
  have he := exec_bootLive h hready hu hst
  simp only [fetchImage_liveTaken, hi] at he
  obtain ⟨h5, hr, -⟩ := refuseLive_spec (s.liveTaken.fetchImage h).2 8 { head := [], body := [] }
  exact ⟨_, he, h5, hr⟩

variable {i : Image} (hi : (s.fetchImage h).1 = some i)
include hi

omit hready hu hst in
theorem fetchImage_liveTaken_some : (s.liveTaken.fetchImage h).1 = some i ∧ (s.liveTaken.fetchImage h).2 = s.liveTaken := by
  have h1 : (s.liveTaken.fetchImage h).1 = some i := by rw [fetchImage_liveTaken, hi]
  exact ⟨h1, fetchImage_some h1⟩

/-- An image that fails a check is refused with the reason of that check (R792). -/
theorem bootLive_refused {r : Nat} (hr : s.liveReason i = some r) :
    ∃ t, exec (.bootLive h) s = .next t ∧ t.liveSt = 5 ∧ t.field Reg.bootLive 59 56 = r ∧
      t.boot = { s.boot with asked := s.boot.asked &&& 1 } := by
  have he := exec_bootLive h hready hu hst
  have hr' : s.liveTaken.liveReason i = some r := hr
  simp only [(fetchImage_liveTaken_some hi).1, (fetchImage_liveTaken_some hi).2, hr'] at he
  obtain ⟨h5, hcode, hboot⟩ := refuseLive_spec s.liveTaken r i
  exact ⟨_, he, h5, hcode.trans (Nat.mod_eq_of_lt (liveReason_lt hr)), hboot⟩

/-- An image that passes starts the replacement (R792, R795). -/
theorem bootLive_started (hr : s.liveReason i = none) :
    exec (.bootLive h) s = .next (s.liveTaken.liveStarted s.liveSt i) := by
  have he := exec_bootLive h hready hu hst
  have hr' : s.liveTaken.liveReason i = none := hr
  simpa only [(fetchImage_liveTaken_some hi).1, (fetchImage_liveTaken_some hi).2, hr'] using he

end

/-! ### Cluster by cluster (R793 to R797) -/

/-- Only the Joiner pairs and their cores differ. -/
def OnlyCores (s t : State) : Prop := t = { s with man := { s.man with pairs := t.man.pairs, cores := t.man.cores } }

/-- The pairs `ks` are handed over, reloaded and released (R794, R796). -/
def State.pairsReloaded (ks : List Nat) (s : State) : State :=
  ks.foldl (fun s k => (s.setPair k { s.pair k with readWait := none }).resetCores k false) s

theorem onlyCores_pairsReloaded (ks : List Nat) : ∀ s : State, OnlyCores s (s.pairsReloaded ks) := by
  induction ks with
  | nil => exact fun _ => rfl
  | cons k ks ih =>
    intro s
    have h := ih ((s.setPair k { s.pair k with readWait := none }).resetCores k false)
    unfold OnlyCores at *
    rw [State.pairsReloaded, List.foldl_cons, ← State.pairsReloaded, h]
    rfl

/-- Image `i` runs on pair 0 and shows there (R797). -/
def State.runningShown (i : Image) (s : State) : State := (s.modBoot fun b => { b with running := some i }).showImage i

theorem runningShown_spec (s : State) (i : Image) : let t := s.runningShown i
    t.reg Reg.bootLive = s.reg Reg.bootLive ∧ t.boot.liveAt = s.boot.liveAt ∧ t.boot.liveImage = s.boot.liveImage ∧
      t.comp = s.comp ∧ t.phys = s.phys := by
  refine ⟨?_, rfl, rfl, rfl, rfl⟩
  rw [State.runningShown, State.showImage, State.reg_setReg_ne _ _ (by decide), State.reg_setReg_ne _ _ (by decide)]
  rfl

/-- The state once cluster `c` has been reloaded and marked, before its event. -/
def State.clusterReloaded (c : Nat) (i : Image) (s : State) : State :=
  let s := s.pairsReloaded (s.livePairs c)
  let s := s.setField Reg.bootLive (40 + c) (40 + c) 1
  let s := s.modBoot fun b => { b with liveAt := s.now }
  if (s.server 0).any fun j => j / 4 == c then s.runningShown i else s

theorem liveCluster_lt {s : State} {c : Nat} (h : s.liveCluster = some c) : c < 12 :=
  List.mem_range.1 (List.mem_of_find?_eq_some h)

theorem getLsbD_setField_one (s : State) (a : Nat) {k : Nat} (hk : k < 64) : ((s.setField a k k 1).reg a).getLsbD k = true := by
  rw [State.setField, State.reg_setReg_same, getLsbD_withField _ _ _ _ _ le_rfl hk hk]
  simp

theorem sameTiles_congr {s t : State} (hc : t.comp = s.comp) (hp : t.phys = s.phys) : SameTiles s t := fun x => by
  simp only [State.tile, State.bay, hc, hp]

/-- The reload marks the cluster and the time, and leaves the image, the tiles and the partitions. -/
theorem clusterReloaded_spec (s : State) {c : Nat} (i : Image) (hc : c < 12) : let u := s.clusterReloaded c i
    (u.reg Reg.bootLive).getLsbD (40 + c) = true ∧ u.boot.liveAt = s.now ∧ u.boot.liveImage = s.boot.liveImage ∧
      SameTiles s u ∧ u.comp.parts = s.comp.parts := by
  unfold State.clusterReloaded
  extract_lets s1 s2 s3 u
  have cores : OnlyCores s s1 := onlyCores_pairsReloaded ..
  have hcomp : s1.comp = s.comp := by rw [cores]
  have hphys : s1.phys = s.phys := by rw [cores]
  have hboot : s1.man.boot = s.man.boot := by rw [cores]
  have htide : s1.tide = s.tide := by rw [cores]
  have marked : (s3.reg Reg.bootLive).getLsbD (40 + c) = true := getLsbD_setField_one s1 _ (by omega)
  have now : s3.boot.liveAt = s.now := congrArg BitVec.toNat htide
  have kept : s1.boot.liveImage = s.boot.liveImage := congrArg Boot.liveImage hboot
  have image : s3.boot.liveImage = s.boot.liveImage := kept
  unfold u
  split
  · obtain ⟨hreg, hat, himage, hc3, hp3⟩ := runningShown_spec s3 i
    rw [hreg, hat, himage, hc3]
    exact ⟨marked, now, image, sameTiles_congr (hc3.trans hcomp) (hp3.trans hphys), congrArg Compute.parts hcomp⟩
  · exact ⟨marked, now, image, sameTiles_congr hcomp hphys, congrArg Compute.parts hcomp⟩

section
variable {s : State} {i : Image} (hi : s.boot.liveImage = some i) (hst : s.liveSt = 3)

include hi hst in
theorem exec_liveClusterReplace {c : Nat} (hc : s.liveCluster = some c) (hm : s.mayReplace c = true) :
    exec (.liveClusterReplace c) s =
      .next ((s.clusterReloaded c i).signal Ev.fwClusterReloaded 0 [c, i.version]) := by
  have go : ¬ (s.liveSt ≠ 3 ∨ s.liveCluster ≠ some c ∨ s.mayReplace c = false) := by simp [hst, hc, hm]
  show execLiveClusterReplace c s = _
  unfold execLiveClusterReplace
  rw [hi]
  dsimp only
  rw [if_neg go]
  rfl

include hst in
theorem exec_liveReplaceStop {c : Nat} (hc : s.liveCluster = some c)
    (hr : (s.livePairs c).any (fun k => s.pairInRecovery k) = true) :
    exec .liveReplaceStop s = .next ((s.passTo (s.boot.liveAt + 10 * secondNs)).setLiveSt 6) := by
  have go : ¬ (s.liveSt ≠ 3 ∨ (s.livePairs c).any (fun k => s.pairInRecovery k) = false) := by simp [hst, hr]
  show execLiveReplaceStop s = _
  unfold execLiveReplaceStop
  rw [hc]
  dsimp only
  rw [if_neg go]

/-- The replacement is done, and the image shows. -/
def State.liveDone (i : Image) (s : State) : State :=
  (((s.modBoot fun b => { b with running := some i, liveImage := none }).setLiveSt 4).showImage i).liveRecord 0x0E04 i

include hi hst in
theorem exec_sillReload (hc : s.liveCluster = none) : exec .sillReload s = .next (s.liveDone i) := by
  have go : ¬ (s.liveSt ≠ 3 ∨ s.liveCluster ≠ none) := by simp [hst, hc]
  show execSillReload s = _
  unfold execSillReload
  rw [hi]
  dsimp only
  rw [if_neg go]
  rfl

end

theorem liveDone_spec (s : State) (i : Image) : (s.liveDone i).liveSt = 4 ∧ (s.liveDone i).boot.running = some i ∧
    (s.liveDone i).boot.liveImage = none ∧ (s.liveDone i).reg Reg.bootImage = BitVec.ofNat 64 i.version := by
  have shown (a : Nat) : (s.liveDone i).reg a =
    (((s.modBoot fun b => { b with running := some i, liveImage := none }).setLiveSt 4).showImage i).reg a := rfl
  refine ⟨?_, rfl, rfl, ?_⟩
  · rw [State.liveSt, State.field, shown, State.showImage, State.reg_setReg_ne _ _ (by decide),
      State.reg_setReg_ne _ _ (by decide)]
    exact liveSt_setLiveSt _ 4
  · rw [shown, State.showImage, State.reg_setReg_ne _ _ (by decide), State.reg_setReg_same]

/-! ### The feed fails (R720 to R722) -/

/-- What a commit of a record leaves: Tide, the commands that wait and the fuses. -/
structure CommitFrame (s t : State) : Prop where
  tide : t.tide = s.tide
  pending : t.pending = s.pending
  fuses : t.man.fuses = s.man.fuses

section
variable {s t : State}

theorem CommitFrame.refl (s : State) : CommitFrame s s := ⟨rfl, rfl, rfl⟩
theorem CommitFrame.trans {u : State} (h : CommitFrame s t) (k : CommitFrame t u) : CommitFrame s u :=
  ⟨k.tide.trans h.tide, k.pending.trans h.pending, k.fuses.trans h.fuses⟩
theorem CommitFrame.signal (h : CommitFrame s t) (id : EventId) (p : Nat) (ops : List Nat) :
    CommitFrame s (t.signal id p ops) :=
  have k := signal_spec id p ops t
  h.trans ⟨k.tide, k.pending, k.fuses⟩
theorem CommitFrame.modGrain (h : CommitFrame s t) (f : Grain → Grain) : CommitFrame s (t.modGrain f) :=
  h.trans ⟨rfl, rfl, rfl⟩
theorem CommitFrame.modComp (h : CommitFrame s t) (f : Compute → Compute) : CommitFrame s (t.modComp f) :=
  h.trans ⟨rfl, rfl, rfl⟩
theorem CommitFrame.ite {u : State} {c : Prop} [Decidable c] (h : CommitFrame s t) (k : CommitFrame s u) :
    CommitFrame s (if c then t else u) := by
  split
  · exact h
  · exact k
theorem CommitFrame.foldl {α : Type} {f : State → α → State} (l : List α) (h : CommitFrame s t)
    (hf : ∀ u x, CommitFrame u (f u x)) : CommitFrame s (l.foldl f t) := by
  induction l generalizing t with
  | nil => exact h
  | cons x xs ih => exact ih (h.trans (hf t x))

theorem commitFrame_announceFence (s : State) (kind id cause part : Nat) :
    CommitFrame s (s.announceFence kind id cause part) :=
  .ite (((CommitFrame.refl s).signal ..).signal ..) ((CommitFrame.refl s).signal ..)

theorem commitFrame_makeKnown (s : State) (n : Notice) : CommitFrame s (s.makeKnown n) := by
  cases n with
  | fence kind id cause part =>
    unfold State.makeKnown
    exact commitFrame_announceFence ..
  | withdraw kind id =>
    unfold State.makeKnown
    exact (CommitFrame.refl s).modComp _
  | map p off cost moved =>
    unfold State.makeKnown State.showMap
    refine CommitFrame.signal ?_ ..
    exact ⟨rfl, rfl, rfl⟩

theorem commitFrame_recordCommitted (s : State) (r : GrnRec) : CommitFrame s (s.recordCommitted r) := by
  unfold State.recordCommitted
  refine CommitFrame.foldl _ ?_ commitFrame_makeKnown
  exact ⟨rfl, rfl, rfl⟩

theorem commitFrame_checkFull (s : State) : CommitFrame s s.checkFull := by
  unfold State.checkFull
  extract_lets n s1
  have h1 : CommitFrame s s1 := .ite (((CommitFrame.refl s).modGrain _).signal ..) (.refl s)
  exact .ite ((h1.modGrain _).signal ..) h1

theorem commitFrame_lmsCommitted (s : State) (q l : Nat) : CommitFrame s (s.lmsCommitted q l) := by
  have h : CommitFrame s (s.modLms fun x => if x.topq = q then { x with limit := l, valid := true }
    else { x with topq := q, limit := l, botq := 0, ready := false, valid := true }) := ⟨rfl, rfl, rfl⟩
  exact .ite (h.signal ..) h

theorem commitFrame_commitRecordTo (s : State) (a : Nat) (r : GrnRec) : CommitFrame s (s.commitRecordTo a r) := by
  unfold State.commitRecordTo
  extract_lets g sq d s1 s2
  have h1 : CommitFrame s s1 := ⟨rfl, rfl, rfl⟩
  have h2 : CommitFrame s s2 := by
    unfold s2
    split
    · exact h1.trans ((commitFrame_checkFull s1).trans (commitFrame_recordCommitted _ r))
    · exact h1.trans (commitFrame_recordCommitted s1 r)
  exact .ite (h2.trans (commitFrame_lmsCommitted ..)) h2

/-! A commit with nothing that waits to be made known leaves the compute side. -/

theorem comp_checkFull (s : State) : s.checkFull.comp = s.comp := by
  unfold State.checkFull
  extract_lets n s1
  have h1 : s1.comp = s.comp := by
    unfold s1
    split
    · exact (signal_spec Ev.grnFull 0 [n] _).comp (by decide)
    · rfl
  split
  · exact ((signal_spec Ev.grnFull 0 [n] _).comp (by decide)).trans h1
  · exact h1

theorem comp_lmsCommitted (s : State) (q l : Nat) : (s.lmsCommitted q l).comp = s.comp := by
  unfold State.lmsCommitted
  dsimp only
  split
  · exact (signal_spec Ev.lmsLow 0 [q] _).comp (by decide)
  · rfl

theorem comp_recordCommitted (r : GrnRec) (h : s.comp.pubs = []) : (s.recordCommitted r).comp = s.comp := by
  unfold State.recordCommitted
  rw [h]
  show { s.comp with pubs := [] } = s.comp
  rw [← h]

theorem comp_commitRecordTo (a : Nat) (r : GrnRec) (h : s.comp.pubs = []) : (s.commitRecordTo a r).comp = s.comp := by
  unfold State.commitRecordTo
  extract_lets g sq d s1 s2
  have h2 : s2.comp = s.comp := by
    unfold s2
    split
    · have hc := comp_checkFull s1
      rw [comp_recordCommitted r (by rw [hc]; exact h), hc]
      rfl
    · exact comp_recordCommitted r h
  split
  · rw [comp_lmsCommitted, h2]
  · exact h2

theorem committedFences_of_no_pubs (h : s.comp.pubs = []) : s.committedFences = s.comp.fences := by
  simp [State.committedFences, State.fenceShown, h]
theorem committedHosts_of_no_pubs (h : s.comp.pubs = []) : s.committedHosts = s.comp.hosts := by
  simp [State.committedHosts, h]

end

/-- The writer commits the record of the feed fault where it runs (R721). (log 87) -/
def State.feedRecorded (s : State) : State :=
  let r := eventRecord Ev.feedFault 0 [] s.tide
  if s.writerRuns then s.commitRecordTo (s.grain.areaFor r) r else s

theorem exec_feedFault {s : State} (h : s.phys.power.feed = true) :
    exec .feedFault s = .next (s.feedRecorded.unpowered true) := by
  show execFeedFault s = _
  unfold execFeedFault
  rw [if_neg (by simp [h])]
  rfl

theorem commitFrame_feedRecorded (s : State) : CommitFrame s s.feedRecorded :=
  .ite (commitFrame_commitRecordTo ..) (.refl s)

theorem comp_feedRecorded {s : State} (h : s.comp.pubs = []) : s.feedRecorded.comp = s.comp := by
  unfold State.feedRecorded
  dsimp only
  split
  · exact comp_commitRecordTo _ _ h
  · rfl

theorem feedRecorded_of_not_writerRuns {s : State} (h : s.writerRuns = false) : s.feedRecorded = s := by
  simp [State.feedRecorded, h]

/-- What stays without power, and that all else is at its reset value (R722). -/
theorem unpowered_spec (s : State) : let t := s.unpowered true
    t.phys.power.feed = false ∧ t.phys.power.latched = true ∧ t.phys.power.segs = 0 ∧ (∀ b, (t.bay b).supply = .off) ∧
      (∀ x, (t.tile x).s.seq = .off) ∧ (∀ a, t.reg a = regReset a) ∧ t.tide = s.tide ∧ t.pending = s.pending ∧
      t.comp.fences = s.committedFences ∧ t.comp.hosts = s.committedHosts ∧ t.man.fuses = s.man.fuses ∧
      t.boot.st = State.reset.boot.st :=
  ⟨rfl, rfl, rfl, fun _ => rfl, fun _ => rfl, fun _ => rfl, rfl, rfl, rfl, rfl, rfl, rfl⟩

/-! ### The claim on live replacement and the loss of supply -/

/-- Settles O52, command by command. A replacement: the fetch and the checks of the image decide how LIVE ends, and what the
clusters are how it goes on. A loss: the step that takes the unit's supply does what the claim says of it, and the events,
heals and takeovers that follow leave that. -/
theorem liveReplacementAndSupplyLoss : Obligations.LiveReplacementAndSupplyLoss := by
  intro s
  refine ⟨fun h hready hu hst => ⟨fun hi => ?unfetched, fun i r hi hr => ?refused, fun i hi hr => ?started⟩,
    fun i c hi hst => ⟨fun hc hm => ?cluster, fun hc hr => ?stop, fun hc => ?done⟩, fun hfeed => ?feed,
    fun b c hb hon => ?fuse, fun b c hon hr => exec_pwrBayFuse_open s b c hon hr, fun n hu hn => ?segment,
    fun b hb hon => ?bayTrip, fun n hn hu => ?segmentTrip⟩
  case unfetched => exact bootLive_unfetched hready hu hst hi
  case refused =>
    rw [fetchImage_some hi] at hr
    exact bootLive_refused hready hu hst hi hr
  case started =>
    rw [fetchImage_some hi] at hr
    exact ⟨_, bootLive_started hready hu hst hi hr, liveStarted_spec s.liveTaken s.liveSt i⟩
  case cluster =>
    obtain ⟨hbit, hat, himage, htiles, hparts⟩ := clusterReloaded_spec s i (liveCluster_lt hc)
    exact ⟨_, _, exec_liveClusterReplace hi hst hc hm, signal_spec .., hbit, hat, himage.trans hi, htiles, hparts⟩
  case stop =>
    exact ⟨_, exec_liveReplaceStop hst hc hr, liveSt_setLiveSt _ 6, rfl, onlyRegs_setReg _ _ _⟩
  case done => exact ⟨_, exec_sillReload hi hst hc, liveDone_spec s i⟩
  case feed =>
    obtain ⟨hoff, hlatched, hsegs, hbays, htiles, hregs, htide, hpending, hfences, hhosts, hfuses, hboot⟩ :=
      unpowered_spec s.feedRecorded
    have kept := commitFrame_feedRecorded s
    refine ⟨_, exec_feedFault hfeed, hoff, hlatched, hsegs, hbays, htiles, hregs, htide.trans kept.tide,
      hpending.trans kept.pending, fun hp => ?noPubs, fun hw => ?noWriter, hfuses.trans kept.fuses, hboot⟩
    case noPubs =>
      have hcomp := comp_feedRecorded hp
      have hpubs : s.feedRecorded.comp.pubs = [] := by rw [hcomp, hp]
      rw [hfences, hhosts, committedFences_of_no_pubs hpubs, committedHosts_of_no_pubs hpubs, hcomp]
      exact ⟨rfl, rfl⟩
    case noWriter =>
      rw [hfences, hhosts, feedRecorded_of_not_writerRuns hw]
      exact ⟨rfl, rfl⟩
  case fuse =>
    obtain ⟨hopen, hripple, hvolts⟩ := bay_openBay s b c
    have kept := lossFrame_openBay s b c
    exact ⟨_, exec_pwrBayFuse s b c hon, hopen, hripple, hvolts, isFenced_openBay s b c,
      (kept.field (lossReg_silPwrstat b) 19 16).trans (cause_fuseShown s b c),
      (kept.field lossReg_pwrCnt 47 32).trans (count_fuseShown s b c),
      fun x hx hxb => tile_openBay s b c hx hxb, record_openBay s b c hb⟩
  case segment =>
    have gone := loseSegment_gone (s.bump Reg.pwrCnt 47 32 1) n
    refine ⟨_, exec_rimSegLost hu hn, gone.segUp, gone.stack, gone.ports, ?count, fun h0 => record_loseSegment _ n h0, ?root⟩
    case count =>
      rw [State.field, gone.count]
      exact s.field_bump Reg.pwrCnt 47 32 1 (by decide) (by decide)
    case root =>
      rintro rfl
      rw [loseSegment_zero]
      exact rootLost_spec _
  case bayTrip =>
    have power := (power_openBay (s.tripped (s.bayOwner b) b) b .thermalTrip).trans (power_tripped s _ b)
    refine ⟨_, exec_thermTrip_bay s hon, by rw [power], ?thermN, (bay_openBay ..).1, isFenced_openBay ..,
      mem_openBay _ _ _ (record_tripped ..)⟩
    case thermN => rw [pins_openBay, thermN_tripped]
  case segmentTrip =>
    have gone := loseSegment_gone ((s.tripped 0 (84 + n)).bump Reg.pwrCnt 47 32 1) n
    refine ⟨_, exec_thermTrip_segment s hu hn, ?trips, ?thermN, gone.segUp, mem_loseSegment _ n (record_tripped ..)⟩
    case trips =>
      rw [gone.power, State.bump_phys, power_tripped]
    case thermN =>
      rw [thermN_loseSegment, State.bump_man, thermN_tripped]
      by_cases h0 : n = 0 <;> simp [h0]

end Sys2Proof.Machine
end

section
/-!
SUPPORT. Proofs about exact-sum words (R74 to R80): a word is its window index and its significand, and how words add.
-/

namespace Sys2Proof.Machine

/-! ### A word from its parts (R73 to R75) -/

/-- The significands of 120 bits (R78). -/
def InSig (s : Int) : Prop := -(2 ^ 119) ≤ s ∧ s < 2 ^ 119

/-- A word is its window index and its significand. -/
theorem quad_ext {a b : Quad} (hw : xsWin a = xsWin b) (hs : xsSig a = xsSig b) : a = b := by
  refine BitVec.eq_of_toNat_eq ?_
  unfold xsWin at hw
  unfold xsSig signedOf at hs
  have low : a.toNat % 2 ^ 120 = b.toNat % 2 ^ 120 := by split at hs <;> split at hs <;> omega
  omega

section
variable {win : Nat} {sig : Int} (hw : win < 0xF0)
include hw

theorem toNat_xsPack : (xsPack win sig).toNat = win * 2 ^ 120 + unsignedOf 120 sig := by
  have hu : unsignedOf 120 sig < 2 ^ 120 := by unfold unsignedOf; omega
  rw [xsPack, if_pos hw, Nat.mod_eq_of_lt (by omega), BitVec.toNat_ofNat, Nat.mod_eq_of_lt (by omega)]

theorem xsWin_xsPack : xsWin (xsPack win sig) = win := by
  rw [xsWin, toNat_xsPack hw]
  unfold unsignedOf
  omega

theorem xsSig_xsPack (hs : InSig sig) : xsSig (xsPack win sig) = sig := by
  obtain ⟨lo, hi⟩ := hs
  rw [xsSig, toNat_xsPack hw]
  unfold unsignedOf signedOf
  split <;> omega

end

/-! ### The values of words (R74, R75) -/

theorem xsNum_finite {w : Quad} (h : FiniteWord w) :
    xsNum w = .fin (decide (xsSig w < 0)) (xsSig w).natAbs (4 * (xsWin w : Int) - 288) := by
  have hw : xsWin w < 0xF0 := h
  rw [xsNum, if_pos hw]

theorem finiteWord_of_xsNum {w : Quad} {n : Bool} {m : Nat} {e : Int} (h : xsNum w = .fin n m e) : FiniteWord w := by
  by_contra hw
  have hw' : ¬ xsWin w < 0xF0 := hw
  simp only [xsNum, hw', if_false] at h
  split_ifs at h

theorem xsNum_xsNan : xsNum xsNan = .nan := by decide
theorem xsNum_xsRange : xsNum xsRange = .range := by decide
theorem xsNum_xsInf (n : Bool) : xsNum (xsInf n) = .inf n := by cases n <;> decide
theorem not_finiteWord_xsRange : ¬ FiniteWord xsRange := by
  unfold FiniteWord
  decide

/-! ### The sum of two finite words (R78) -/

/-- The significand of a word in units of window `i`. -/
def sigAt (i : Nat) (w : Quad) : Int := xsSig w * 2 ^ (4 * (xsWin w - i))

/-- The lower window of two words, and their exact sum in units of it. -/
def sumWin (a b : Quad) : Nat := min (xsWin a) (xsWin b)
def sumSig (a b : Quad) : Int := sigAt (sumWin a b) a + sigAt (sumWin a b) b

section
variable {a b : Quad} (ha : FiniteWord a) (hb : FiniteWord b)
include ha hb

theorem xsAdd_of_inSig (h : InSig (sumSig a b)) : xsAdd a b = xsPack (sumWin a b) (sumSig a b) := by
  rw [xsAdd, xsNum_finite ha, xsNum_finite hb]
  exact if_pos h

theorem xsAdd_of_not_inSig (h : ¬ InSig (sumSig a b)) : xsAdd a b = xsRange := by
  rw [xsAdd, xsNum_finite ha, xsNum_finite hb]
  exact if_neg h

omit hb in
theorem sumWin_lt : sumWin a b < 0xF0 := lt_of_le_of_lt (min_le_left _ _) ha

theorem xsAdd_parts (h : InSig (sumSig a b)) : xsWin (xsAdd a b) = sumWin a b ∧ xsSig (xsAdd a b) = sumSig a b := by
  rw [xsAdd_of_inSig ha hb h]
  exact ⟨xsWin_xsPack (sumWin_lt ha), xsSig_xsPack (sumWin_lt ha) h⟩

/-- A finite sum is the exact one: the other sums are range exceeded. -/
theorem inSig_of_finite (h : FiniteWord (xsAdd a b)) : InSig (sumSig a b) := by
  by_contra hn
  rw [xsAdd_of_not_inSig ha hb hn] at h
  exact not_finiteWord_xsRange h

end

/-- Settles O10: the sum of two finite words is packed when it fits, and is range exceeded otherwise. -/
theorem exactSumAdds : Obligations.ExactSumAdds := by
  intro a b ha hb
  refine ⟨xsAdd_parts ha hb, fun h => ?_⟩
  have out : ¬ InSig (sumSig a b) := fun hs => h.elim (not_lt.2 hs.1) (not_le.2 hs.2)
  rw [xsAdd_of_not_inSig ha hb out, xsNum_xsRange]

/-! ### Sums with a special word (R79) -/

theorem sumSig_comm (a b : Quad) : sumSig a b = sumSig b a := by
  rw [sumSig, sumSig, sumWin, sumWin, min_comm, add_comm]

theorem xsAdd_comm (a b : Quad) : xsAdd a b = xsAdd b a := by
  cases ha : xsNum a <;> cases hb : xsNum b
  case fin.fin =>
    have fa := finiteWord_of_xsNum ha
    have fb := finiteWord_of_xsNum hb
    by_cases h : InSig (sumSig a b)
    · rw [xsAdd_of_inSig fa fb h, xsAdd_of_inSig fb fa (sumSig_comm a b ▸ h), sumSig_comm, sumWin, sumWin, min_comm]
    · rw [xsAdd_of_not_inSig fa fb h, xsAdd_of_not_inSig fb fa (sumSig_comm a b ▸ h)]
  case inf.inf m n =>
    by_cases h : m = n
    · simp [xsAdd, ha, hb, h]
    · simp [xsAdd, ha, hb, h, Ne.symm h]
  all_goals simp [xsAdd, ha, hb]

section
variable {a : Quad} (b : Quad)

theorem xsAdd_nan (ha : xsNum a = .nan) : xsAdd a b = xsNan := by rw [xsAdd, ha]

variable {b}

theorem xsAdd_inf_opposite {n : Bool} (ha : xsNum a = .inf n) (hb : xsNum b = .inf (!n)) : xsAdd a b = xsNan := by
  simp [xsAdd, ha, hb]

theorem xsAdd_inf {n : Bool} (ha : xsNum a = .inf n) (hn : xsNum b ≠ .nan) (hb : xsNum b ≠ .inf (!n)) :
    xsAdd a b = xsInf n := by
  cases h : xsNum b
  case nan => exact absurd h hn
  case inf m =>
    have e : m = n := by simpa [h] using hb
    simp [xsAdd, ha, h, e]
  all_goals simp [xsAdd, ha, h]

theorem xsAdd_range (ha : xsNum a = .range) (hb : xsNum b = .range ∨ FiniteWord b) : xsAdd a b = xsRange := by
  rcases hb with hb | hb
  · rw [xsAdd, ha, hb]
  · rw [xsAdd, ha, xsNum_finite hb]

end

/-- Settles O11: each precedence is a case of the sum, and the sum of finite words is the same in either order. -/
theorem specialSumsFollowPrecedence : Obligations.SpecialSumsFollowPrecedence := by
  intro a b
  refine ⟨fun h => ?nan, fun n ha hb => ?opposite, fun n ha hn hb => ?inf, fun ha hb => ?range, xsAdd_comm a b⟩
  case nan =>
    rcases h with h | h
    · rw [xsAdd_nan b h, xsNum_xsNan]
    · rw [xsAdd_comm, xsAdd_nan a h, xsNum_xsNan]
  case opposite => rw [xsAdd_inf_opposite ha hb, xsNum_xsNan]
  case inf => rw [xsAdd_inf ha hn hb, xsNum_xsInf]
  case range => rw [xsAdd_range ha hb, xsNum_xsRange]

/-! ### Sums in any order and grouping (R80) -/

/-- The window of a finite sum is the least of its words' windows, and its significand their exact total in that window. -/
structure SumsTo (l : List Quad) (w : Quad) : Prop where
  finite : FiniteWord w
  least : ∀ v ∈ l, xsWin w ≤ xsWin v
  attained : ∃ v ∈ l, xsWin v = xsWin w
  total : xsSig w = (l.map (sigAt (xsWin w))).sum

theorem sumsTo_singleton {w : Quad} (h : FiniteWord w) : SumsTo [w] w where
  finite := h
  least := by simp
  attained := ⟨w, List.mem_singleton_self w, rfl⟩
  total := by simp [sigAt]

/-- A significand in units of a lower window. -/
theorem sigAt_of_le {i j : Nat} {w : Quad} (hij : i ≤ j) (hj : j ≤ xsWin w) :
    sigAt i w = sigAt j w * 2 ^ (4 * (j - i)) := by
  rw [sigAt, sigAt, mul_assoc, ← pow_add]
  congr 2
  omega

theorem SumsTo.sigAt {l : List Quad} {w : Quad} (h : SumsTo l w) {i : Nat} (hi : i ≤ xsWin w) :
    sigAt i w = (l.map (sigAt i)).sum := by
  have scaled : l.map (Machine.sigAt i) = l.map fun v => Machine.sigAt (xsWin w) v * 2 ^ (4 * (xsWin w - i)) :=
    List.map_congr_left fun v hv => sigAt_of_le hi (h.least v hv)
  rw [scaled, List.sum_map_mul_right, ← h.total, Machine.sigAt]

/-- Two sums add to the sum of all their words. -/
theorem SumsTo.add {l m : List Quad} {a b : Quad} (ha : SumsTo l a) (hb : SumsTo m b) (h : FiniteWord (xsAdd a b)) :
    SumsTo (l ++ m) (xsAdd a b) := by
  obtain ⟨hwin, hsig⟩ := xsAdd_parts ha.finite hb.finite (inSig_of_finite ha.finite hb.finite h)
  have left : xsWin (xsAdd a b) ≤ xsWin a := hwin ▸ min_le_left _ _
  have right : xsWin (xsAdd a b) ≤ xsWin b := hwin ▸ min_le_right _ _
  refine ⟨h, fun v hv => ?least, ?attained, ?total⟩
  case least =>
    rcases List.mem_append.1 hv with hv | hv
    · exact left.trans (ha.least v hv)
    · exact right.trans (hb.least v hv)
  case attained =>
    rcases min_choice (xsWin a) (xsWin b) with hm | hm
    · obtain ⟨v, hv, e⟩ := ha.attained
      exact ⟨v, List.mem_append_left _ hv, by rw [e, hwin, sumWin, hm]⟩
    · obtain ⟨v, hv, e⟩ := hb.attained
      exact ⟨v, List.mem_append_right _ hv, by rw [e, hwin, sumWin, hm]⟩
  case total =>
    rw [List.map_append, List.sum_append, ← ha.sigAt left, ← hb.sigAt right, hsig, sumSig, hwin]

theorem SumTree.Exact.sumsTo {t : SumTree} (h : t.Exact) : SumsTo t.words t.sum := by
  induction t with
  | word w => exact sumsTo_singleton h
  | add a b iha ihb =>
    obtain ⟨ha, hb, hfin⟩ := h
    exact (iha ha).add (ihb hb) hfin

/-- What a list of words sums to does not depend on its order. -/
theorem SumsTo.unique {l m : List Quad} {a b : Quad} (ha : SumsTo l a) (hb : SumsTo m b) (h : m.Perm l) : b = a := by
  have hwin : xsWin b = xsWin a := by
    obtain ⟨v, hv, ev⟩ := ha.attained
    obtain ⟨w, hw, ew⟩ := hb.attained
    exact le_antisymm (ev ▸ hb.least v (h.mem_iff.2 hv)) (ew ▸ ha.least w (h.mem_iff.1 hw))
  refine quad_ext hwin ?_
  rw [ha.total, hb.total, hwin]
  exact (h.map _).sum_eq

/-- Settles O12: by induction on the grouping, the sum is determined by the least window and the total in it, neither of
which depends on the order. -/
theorem exactSumsIgnoreOrderAndGrouping : Obligations.ExactSumsIgnoreOrderAndGrouping := by
  intro a ha
  have h := ha.sumsTo
  exact ⟨fun b hb hp => h.unique hb.sumsTo hp, h.least, h.attained, h.total⟩

end Sys2Proof.Machine
end

section
/-!
SUPPORT. What a read under the code leaves of a tile (R157), and proofs about the range-exceeded words of a tile (R84).
-/

namespace Sys2Proof.Machine

/-! ### Reads under the code -/

/-- A read under the code may count corrected words and write them back; all else of the tile stays. -/
def CodeRead (x y : Tile) : Prop := y = { x with c := y.c, defects := y.defects }

theorem countCe_codeRead (w : CodeWord) (n : Nat) (x : Tile) : CodeRead x (x.countCe w n) := by
  unfold Tile.countCe
  split <;> rfl

theorem checked_codeRead {x y : Tile} {p : CodeWord → Bool} (h : x.checked p = .ok y) : CodeRead x y := by
  unfold Tile.checked at h
  dsimp only at h
  split at h
  · exact nomatch h
  · obtain rfl := Except.ok.inj h
    have counted := countCe_codeRead (((x.defects.sram.filter fun d => p (d.1, d.2.1)).getLast?.map fun d => (d.1, d.2.1)).getD
      (.wm, 0)) (x.defects.sram.filter fun d => p (d.1, d.2.1)).length x
    unfold CodeRead Tile.rewritten at *
    rw [counted]

theorem need_codeRead {x y : Tile} {p : CodeWord → Bool} (h : x.need p = .ok y) : CodeRead x y := by
  unfold Tile.need at h
  split at h
  · exact nomatch h
  next hc =>
    obtain rfl := Except.ok.inj h
    exact checked_codeRead hc

theorem load_codeRead {x y : Tile} {a n : Nat} {d : List Byte} (h : x.load a n = .ok (d, y)) : CodeRead x y := by
  unfold Tile.load at h
  split at h
  · exact nomatch h
  next hc =>
    obtain ⟨-, rfl⟩ := Prod.mk.inj (Except.ok.inj h)
    exact checked_codeRead hc

section
variable {x y : Tile} (h : CodeRead x y)
include h
theorem CodeRead.r : y.r = x.r := by rw [h]
theorem CodeRead.mem : y.mem = x.mem := by rw [h]
theorem CodeRead.s : y.s = x.s := by rw [h]
theorem CodeRead.queues : y.queues = x.queues := by rw [h]
end

/-- The tile of a fetched micro-op is in RUN, with no write and no check that waits, at the PC of the fetch. -/
theorem Fetches.codeRead {s : State} {t : PT} {u : Uop} {x : Tile} (h : Fetches s t u x) : CodeRead (s.tile t) x := by
  obtain ⟨-, -, -, -, -, d, hd, -⟩ := h
  exact load_codeRead hd
theorem Fetches.seq {s : State} {t : PT} {u : Uop} {x : Tile} (h : Fetches s t u x) : x.s.seq = .run := by
  rw [h.codeRead.s]
  exact h.1
theorem Fetches.done {s : State} {t : PT} {u : Uop} {x : Tile} (h : Fetches s t u x) : x.s.done = none := by
  rw [h.codeRead.s]
  obtain ⟨-, -, hd, -⟩ := h
  exact hd

/-! ### The first range-exceeded word of a step (R84) -/

/-- The tile that has produced a range-exceeded word in step `st`. -/
def Tile.rangeMarked (st : Word) (x : Tile) : Tile :=
  { x with c := { x.c with xstat := x.c.xstat ||| xfRange, rangeStep := some st } }

section
variable {s : State} {t : PT}

/-- A further word of the same step sets nothing. -/
theorem rangeExceeded_again (h : (s.tile t).c.rangeStep = some (s.stepNo (s.ptPart t))) : s.rangeExceeded t = s := if_pos h

/-- The first word of a step marks the tile and raises XSUM_RANGE. -/
theorem rangeExceeded_first (h : (s.tile t).c.rangeStep ≠ some (s.stepNo (s.ptPart t))) :
    let u := s.modTile t (Tile.rangeMarked (s.stepNo (s.ptPart t)))
    Signals Ev.xsumRange (s.ptPart t) (tileOps (u.hosted t) t ++ [(s.stepNo (s.ptPart t)).toNat]) u (s.rangeExceeded t) := by
  rw [State.rangeExceeded, if_neg h]
  exact signal_spec ..

theorem tile_rangeExceeded_first (h : (s.tile t).c.rangeStep ≠ some (s.stepNo (s.ptPart t))) :
    (s.rangeExceeded t).tile t = (s.tile t).rangeMarked (s.stepNo (s.ptPart t)) := by
  rw [(rangeExceeded_first h).tile, State.tile_modTile_same]

/-- Neither kind of word changes the registers. -/
theorem rangeExceeded_r : ((s.rangeExceeded t).tile t).r = (s.tile t).r := by
  by_cases h : (s.tile t).c.rangeStep = some (s.stepNo (s.ptPart t))
  · rw [rangeExceeded_again h]
  · rw [tile_rangeExceeded_first h, Tile.rangeMarked]

end

/-- Settles O22: the step that the tile remembers tells a first word from a further one. -/
theorem rangeExceededOncePerStep : Obligations.RangeExceededOncePerStep := by
  refine fun s t => ⟨fun h => ?first, rangeExceeded_again⟩
  have marked := tile_rangeExceeded_first h
  rw [marked]
  exact ⟨rfl, rfl, rfl, rfl, rfl, rfl, _, onlyTile_modTile .., rangeExceeded_first h⟩

end Sys2Proof.Machine
end

section
/-!
SUPPORT. Proofs about the arithmetic micro-ops (R138 to R142): DOT, FMA, XADD and VOP where their operands can be read and
written.
-/

namespace Sys2Proof.Machine

/-- An effect that has got its value goes on with it. -/
theorem R.ok_bind {α β : Type} (a : α) (f : α → R β) : ((.ok a : R α) >>= f) = f a := rfl

/-! ### The datapath without a mismatch of residues (R100, R101) -/

theorem produced_good (r : Quad × XFlags) (s : State) : s.produced false r = (r, s) := rfl
theorem producedSum_good (r : Quad × Bool) (s : State) : s.producedSum false r = (r, s) := rfl
theorem residues_good (t : PT) (s : State) : s.residues false t = s := rfl

/-! ### FMA, XADD and VOP (R86, R142) -/

section
variable {s s1 s2 : State} {t : PT} {a b : Ops} {da db : List Byte}
  (ha : s.readOp t a 16 = .ok (da, s1)) (hb : s1.readOp t b 16 = .ok (db, s2))
include ha hb

theorem vopBody_ok {fn : BitVec 4} {dst : Ops} {sel : BitVec 8} {s3 : State} :
    let r := vopResult fn.toNat (quadOf da) (quadOf db) sel.toNat
    s2.writeOp t dst (leBytes 16 r.1.toNat) = .ok s3 →
    vopBody t fn dst a b sel s = .ok ((s3.modTile t (Tile.orXstat r.2)).next t 0x13) := by
  intro r hw
  simp only [vopBody, ha, hb, R.ok_bind]
  rw [hw, R.ok_bind]

variable (hm : (s.tile t).defects.mac = false)
include hm

theorem xaddBody_ok {dst : Ops} {s3 : State} :
    let r := xsAdd (quadOf da) (quadOf db)
    s2.writeOp t dst (leBytes 16 r.toNat) = .ok s3 →
    xaddBody t dst a b s = .ok ((if r = xsRange then s3.rangeExceeded t else s3).next t 0x12) := by
  intro r hw
  simp only [xaddBody, ha, hb, State.macBad, hm, producedSum_good, residues_good, R.ok_bind]
  rw [hw, R.ok_bind]
  simp only [decide_eq_true_eq]
  rfl

theorem fmaBody_ok {c : Ops} {dst : Ops} {dc : List Byte} {s3 s4 : State} (hc : s2.readOp t c 16 = .ok (dc, s3)) :
    let r := lanes4 fun i => fFma fmtB32 (lane (quadOf da) i) (lane (quadOf db) i) (lane (quadOf dc) i)
    s3.writeOp t dst (leBytes 16 r.1.toNat) = .ok s4 →
    fmaBody t dst a b c s = .ok ((s4.modTile t (Tile.orXstat r.2)).next t 0x11) := by
  intro r hw
  simp only [fmaBody, ha, hb, hc, State.macBad, hm, produced_good, residues_good, R.ok_bind]
  rw [hw, R.ok_bind]

end

/-! ### DOT (R82, R85, R139 to R141) -/

/-- Scale bytes that a DOT of `n` products takes for scaling code `x` (R139). -/
def scaleCount (n : Nat) (x : BitVec 2) : Nat := if blockOf x.toNat = 0 then 0 else n / blockOf x.toNat

/-- The state with the result of a narrow DOT in its register: RANGE is set where a range-exceeded word was produced. -/
def State.dotStored (t : PT) (acc : Nat) (r : Quad × Bool) (s : State) : State :=
  if r.2 then (s.modTile t fun y => y.setV acc r.1).rangeExceeded t else s.modTile t fun y => y.setV acc r.1

/-- A register reads what was put there. -/
theorem get_setV (x : Tile) (r : Nat) (v : Quad) : Tab.get (0 : Quad) (x.setV r v).r.v r = v := Tab.get_set_same _ _ _ _

theorem acc_dotStored (s : State) (t : PT) (acc : Nat) (r : Quad × Bool) :
    Tab.get (0 : Quad) ((s.dotStored t acc r).tile t).r.v acc = r.1 := by
  unfold State.dotStored
  split
  · rw [rangeExceeded_r, State.tile_modTile_same, get_setV]
  · rw [State.tile_modTile_same, get_setV]

/-- Where the old value of the accumulator comes from: CLR takes zero instead of it. -/
def AccRead (t : PT) (acc : Nat) (clr : Bool) (s : State) (old : Quad) (u : State) : Prop :=
  clr = true ∧ u = s ∧ old = 0 ∨ clr = false ∧ s.readV t acc = .ok (old, u)

theorem AccRead.eq {t : PT} {acc : Nat} {clr : Bool} {s u : State} {old : Quad} (h : AccRead t acc clr s old u) :
    (if clr then (.ok ((0 : Quad), s) : R (Quad × State)) else s.readV t acc) = .ok (old, u) := by
  rcases h with ⟨rfl, rfl, rfl⟩ | ⟨rfl, h⟩
  · rfl
  · exact h

/-- How a DOT ends: with WB the accumulator is written to WBD. -/
def dotEnd (t : PT) (acc : Nat) (wb : Bool) (wbd : Ops) (s : State) : R State := do
  let s ← if wb then s.writeBack t wbd (leBytes 16 (Tab.get (0 : Quad) (s.tile t).r.v acc).toNat) else .ok s
  .ok (s.next t 0x10)

theorem dotEnd_kept (t : PT) (acc : Nat) (wbd : Ops) (s : State) : dotEnd t acc false wbd s = .ok (s.next t 0x10) := rfl

theorem dotEnd_written {t : PT} {acc : Nat} {wbd : Ops} {s u : State} {v : Quad}
    (hv : Tab.get (0 : Quad) (s.tile t).r.v acc = v) (h : s.writeBack t wbd (leBytes 16 v.toNat) = .ok u) :
    dotEnd t acc true wbd s = .ok (u.next t 0x10) := by
  rw [dotEnd, if_pos rfl, hv, h, R.ok_bind]

/-- The state with the result of a BF16 DOT in its register, its status bits set. -/
def State.bf16Stored (t : PT) (acc : Nat) (r : Nat × XFlags) (s : State) : State :=
  s.modTile t fun y => (y.setV acc (BitVec.ofNat 128 r.1)).orXstat r.2

theorem acc_bf16Stored (s : State) (t : PT) (acc : Nat) (r : Nat × XFlags) :
    Tab.get (0 : Quad) ((s.bf16Stored t acc r).tile t).r.v acc = BitVec.ofNat 128 r.1 := by
  rw [State.bf16Stored, State.tile_modTile_same]
  exact get_setV ..

section
variable {s s1 s2 s3 : State} {t : PT} {fa fb : BitVec 4} {xa xb : BitVec 2} {a b : Ops} {acc : BitVec 5} {clr : Bool}
  {da db : List Byte} {ka kb : List Byte × State} {old : Quad}
  (ha : s.readOp t a ((dotCount fa.toNat fb.toNat * fmtWidth fa.toNat + 7) / 8) = .ok (da, s1))
  (hb : s1.readOp t b ((dotCount fa.toNat fb.toNat * fmtWidth fb.toNat + 7) / 8) = .ok (db, s2))
  (hka : s2.takeScale t false (scaleCount (dotCount fa.toNat fb.toNat) xa) = .ok ka)
  (hkb : ka.2.takeScale t true (scaleCount (dotCount fa.toNat fb.toNat) xb) = .ok kb)
  (hm : (s.tile t).defects.mac = false) (wb : Bool) (wbd : Ops)
include ha hb hka hkb hm

/-- A DOT whose sources and scale bytes have been read. -/
theorem dotBody_read : dotBody t fa fb xa xb a b acc clr wb wbd s =
    ((if clr then .ok (0, kb.2) else kb.2.readV t acc.toNat) : R (Quad × State)) >>= fun o =>
      dotEnd t acc.toNat wb wbd (
        if fa.toNat = 6 then o.2.bf16Stored t acc.toNat (dotBf16 da db (if clr then 0 else lane o.1 0))
        else o.2.dotStored t acc.toNat
          (dotNarrow fa.toNat fb.toNat xa.toNat xb.toNat da db ka.1 kb.1 (if clr then xsZero else o.1))) := by
  unfold scaleCount at hka hkb
  simp only [dotBody, ha, hb, hka, hkb, R.ok_bind, State.macBad, hm, produced_good, producedSum_good, residues_good]
  cases clr <;> rfl

variable (hacc : AccRead t acc.toNat clr kb.2 old s3)
include hacc

theorem dotBody_narrow (hf : fa.toNat ≠ 6) : dotBody t fa fb xa xb a b acc clr wb wbd s =
    dotEnd t acc.toNat wb wbd (s3.dotStored t acc.toNat
      (dotNarrow fa.toNat fb.toNat xa.toNat xb.toNat da db ka.1 kb.1 (if clr then xsZero else old))) := by
  rw [dotBody_read ha hb hka hkb hm, hacc.eq, R.ok_bind, if_neg hf]

theorem dotBody_bf16 (hf : fa.toNat = 6) : dotBody t fa fb xa xb a b acc clr wb wbd s =
    dotEnd t acc.toNat wb wbd (s3.bf16Stored t acc.toNat (dotBf16 da db (if clr then 0 else lane old 0))) := by
  rw [dotBody_read ha hb hka hkb hm, hacc.eq, R.ok_bind, if_pos hf]

end

/-! ### Scale bytes (R139, R140) -/

/-- The scale register after `n` bytes of it are taken, at most as many as it has left. -/
def ScaleReg.Taken (n : Nat) (k k' : ScaleReg) : Prop :=
  (k.cursor + n < k.len → k' = { k with cursor := k.cursor + n }) ∧
  (k.cursor + n = k.len → k.loaded = false → k' = { k with cursor := 0 }) ∧
  (k.cursor + n = k.len → k.loaded = true →
    k' = { k with cursor := 0, active := k.shadow, len := k.shadowLen, loaded := false })

theorem take_spec {k k' : ScaleReg} {n : Nat} {d : List Byte} (hn : 0 < n) (h : k.take n = .ok (d, k')) :
    d = (k.active.drop k.cursor).take n ∧ k.cursor + n ≤ k.len ∧ k.Taken n k' := by
  unfold ScaleReg.take at h
  dsimp only at h
  rw [if_neg (by omega)] at h
  split at h
  · exact nomatch h
  next hle =>
    split at h
    next hlt =>
      obtain ⟨rfl, rfl⟩ := Prod.mk.inj (Except.ok.inj h)
      exact ⟨rfl, by omega, fun _ => rfl, by omega, by omega⟩
    next hge =>
      split at h
      next hl =>
        obtain ⟨rfl, rfl⟩ := Prod.mk.inj (Except.ok.inj h)
        exact ⟨rfl, by omega, by omega, fun _ hl' => absurd (hl.symm.trans hl') (by decide), fun _ _ => rfl⟩
      next hl =>
        obtain ⟨rfl, rfl⟩ := Prod.mk.inj (Except.ok.inj h)
        exact ⟨rfl, by omega, by omega, fun _ _ => rfl, fun _ hl' => absurd hl' hl⟩

/-- An effect that answers a value has got each value on the way. -/
theorem R.bind_eq_ok {α β : Type} {x : R α} {f : α → R β} {b : β} (h : (x >>= f) = .ok b) :
    ∃ a, x = .ok a ∧ f a = .ok b := by
  cases x with
  | error e => exact nomatch h
  | ok a => exact ⟨a, rfl, h⟩

/-- Scale register K1, or K0. -/
def Tile.scaleReg (x : Tile) (k1 : Bool) : ScaleReg := if k1 then x.r.k1 else x.r.k0
def Tile.setScale (k1 : Bool) (k : ScaleReg) (x : Tile) : Tile :=
  { x with r := if k1 then { x.r with k1 := k } else { x.r with k0 := k } }

theorem scaleReg_setScale (x : Tile) (k1 : Bool) (k : ScaleReg) : (x.setScale k1 k).scaleReg k1 = k := by cases k1 <;> rfl
theorem scaleReg_setScale_other (x : Tile) (k1 : Bool) (k : ScaleReg) :
    (x.setScale k1 k).scaleReg (!k1) = x.scaleReg (!k1) := by
  cases k1 <;> rfl
theorem v_setScale (x : Tile) (k1 : Bool) (k : ScaleReg) : (x.setScale k1 k).r.v = x.r.v := by cases k1 <;> rfl

theorem rewritten_if_r (c : Prop) [Decidable c] (p : CodeWord → Bool) (x : Tile) :
    (if c then x.rewritten p else x).r = x.r := by
  split <;> rfl

/-- Taking scale bytes takes them from the register and leaves the other registers. -/
theorem takeScale_spec {s u : State} {t : PT} {k1 : Bool} {n : Nat} {d : List Byte} (h : s.takeScale t k1 n = .ok (d, u)) :
    ∃ (k' : ScaleReg) (y : Tile), ((s.tile t).scaleReg k1).take n = .ok (d, k') ∧ y.r = (s.tile t).r ∧
      u = s.setTile t (y.setScale k1 k') := by
  unfold State.takeScale at h
  obtain ⟨⟨d', k'⟩, htake, h⟩ := R.bind_eq_ok h
  obtain ⟨x, hneed, h⟩ := R.bind_eq_ok h
  obtain ⟨rfl, rfl⟩ := Prod.mk.inj (Except.ok.inj h)
  refine ⟨k', _, htake, ?_, rfl⟩
  exact (rewritten_if_r ..).trans (need_codeRead hneed).r

theorem takeScale_taken {s u : State} {t : PT} {k1 : Bool} {n : Nat} {d : List Byte} (hn : 0 < n)
    (h : s.takeScale t k1 n = .ok (d, u)) : let k := (s.tile t).scaleReg k1
    (d = (k.active.drop k.cursor).take n ∧ k.cursor + n ≤ k.len ∧ k.Taken n ((u.tile t).scaleReg k1)) ∧
      (u.tile t).scaleReg (!k1) = (s.tile t).scaleReg (!k1) ∧ (u.tile t).r.v = (s.tile t).r.v ∧ OnlyTile t s u := by
  obtain ⟨k', y, htake, hr, rfl⟩ := takeScale_spec h
  rw [State.tile_setTile_same, scaleReg_setScale, scaleReg_setScale_other, v_setScale, Tile.scaleReg, Tile.scaleReg,
    Tile.scaleReg, hr]
  exact ⟨take_spec hn htake, rfl, rfl, onlyTile_setTile ..⟩

/-! ### The claim -/

/-- Settles O18, micro-op by micro-op: where the operands can be read and written and the residues agree, each step of its
effect answers a value. -/
theorem arithmeticCompletes : Obligations.ArithmeticCompletes := by
  intro s t x
  refine ⟨fun dst a b c da s1 db s2 dc s3 s4 hf ha hb hc => ?fma, fun dst a b da s1 db s2 s3 hf ha hb hw hm => ?xadd,
    fun fn dst a b sel da s1 db s2 s3 hf ha hb => ?vop,
    fun fa fb xa xb a b acc clr wb wbd da s1 db s2 ka kb => ?dot,
    fun xa xb a b acc clr wb wbd da s1 db s2 ka kb old s3 hf hxa hxb ha hb hm hka hkb hacc => ?bf16,
    fun k1 n d r hn h => ?scale⟩
  case fma => exact fun hw hm => exec_uop_of_fetches hf (fmaBody_ok ha hb hm hc hw)
  case xadd => exact exec_uop_of_fetches hf (xaddBody_ok ha hb hm hw)
  case vop => exact fun hw => exec_uop_of_fetches hf (vopBody_ok ha hb hw)
  case dot =>
    intro n per hf hn ha hb hka hkb hm old s3 hacc
    have body := dotBody_narrow ha hb hka hkb hm wb wbd hacc hn
    refine ⟨?_, fun s5 => ?_⟩
    · rintro rfl
      exact exec_uop_of_fetches hf (body.trans (dotEnd_kept ..))
    · rintro rfl hw
      exact exec_uop_of_fetches hf (body.trans (dotEnd_written (acc_dotStored ..) hw))
  case bf16 =>
    have hka' : s2.takeScale t false (scaleCount (dotCount 6 6) xa) = .ok ka := by rw [scaleCount, if_pos hxa]; exact hka
    have hkb' : ka.2.takeScale t true (scaleCount (dotCount 6 6) xb) = .ok kb := by rw [scaleCount, if_pos hxb]; exact hkb
    have body := dotBody_bf16 (fa := 6) (fb := 6) ha hb hka' hkb' hm wb wbd hacc rfl
    refine ⟨?_, fun s5 => ?_⟩
    · rintro rfl
      exact exec_uop_of_fetches hf (body.trans (dotEnd_kept ..))
    · rintro rfl hw
      exact exec_uop_of_fetches hf (body.trans (dotEnd_written (acc_bf16Stored ..) hw))
  case scale =>
    obtain ⟨⟨hd, hle, hlt, heq, hload⟩, hother, hv, honly⟩ := takeScale_taken hn h
    refine ⟨hd, hle, hlt, heq, hload, ?_, hv, honly⟩
    cases k1 <;> exact hother

end Sys2Proof.Machine
end

section
/-!
SUPPORT. Proofs about the functions of VOP (R87, R142), the conversion of blocks (R94, R95) and the rounding modes (R89 to
R96).
-/

namespace Sys2Proof.Machine

/-! ### Lanes -/

theorem lane_eq (q : Quad) (i : Nat) : lane q i = q.toNat / 2 ^ (32 * i) % 2 ^ 32 := by
  rw [lane, BitVec.extractLsb'_toNat, Nat.shiftRight_eq_div_pow]

theorem lane_lt (q : Quad) (i : Nat) : lane q i < 2 ^ 32 := (q.extractLsb' (32 * i) 32).isLt

theorem toNat_ofLanes (a b c d : Nat) : (ofLanes a b c d).toNat =
    a % 2 ^ 32 + b % 2 ^ 32 * 2 ^ 32 + c % 2 ^ 32 * 2 ^ 64 + d % 2 ^ 32 * 2 ^ 96 := by
  rw [ofLanes, BitVec.toNat_ofNat, Nat.mod_eq_of_lt (by omega)]

/-- Lane `i` of four lanes made by a function of the lane number. -/
theorem lane_lanes4 (f : Nat → Nat × XFlags) {i : Nat} (h : i < 4) : lane (lanes4 f).1 i = (f i).1 % 2 ^ 32 := by
  rw [lane_eq, lanes4, toNat_ofLanes]
  interval_cases i <;> omega

/-! ### Functions of VOP (R142) -/

theorem vopResult_and (a b : Quad) (sel : Nat) : vopResult 4 a b sel = (a &&& b, 0) := rfl
theorem vopResult_or (a b : Quad) (sel : Nat) : vopResult 5 a b sel = (a ||| b, 0) := rfl
theorem vopResult_xor (a b : Quad) (sel : Nat) : vopResult 6 a b sel = (a ^^^ b, 0) := rfl
theorem vopResult_shuf (a b : Quad) (sel : Nat) :
    vopResult 7 a b sel = lanes4 fun i => (lane a (sel / 4 ^ i % 4), 0) := rfl

theorem lane_shuf (a b : Quad) (sel : Nat) {i : Nat} (h : i < 4) :
    lane (vopResult 7 a b sel).1 i = lane a (sel / 4 ^ i % 4) := by
  rw [vopResult_shuf, lane_lanes4 _ h]
  exact Nat.mod_eq_of_lt (lane_lt ..)

section
variable {f : Fmt} {a b : Nat}

/-! FMAX and FMIN by which of their operands are NaN. -/

theorem fMaxMin_nan_left (ha : decFmt f a = .nan) (hb : decFmt f b ≠ .nan) : (fMax f a b).1 = b ∧ (fMin f a b).1 = b := by
  unfold fMax fMin
  rw [ha]
  cases h : decFmt f b
  case nan => exact absurd h hb
  all_goals exact ⟨rfl, rfl⟩

theorem fMaxMin_nan_right (ha : decFmt f a ≠ .nan) (hb : decFmt f b = .nan) : (fMax f a b).1 = a ∧ (fMin f a b).1 = a := by
  unfold fMax fMin
  rw [hb]
  cases h : decFmt f a
  case nan => exact absurd h ha
  all_goals exact ⟨rfl, rfl⟩

theorem fMaxMin_nan_both (ha : decFmt f a = .nan) (hb : decFmt f b = .nan) :
    (fMax f a b).1 = fNan f ∧ (fMin f a b).1 = fNan f := by
  unfold fMax fMin
  rw [ha, hb]
  exact ⟨rfl, rfl⟩

theorem fMaxMin_numbers (ha : decFmt f a ≠ .nan) (hb : decFmt f b ≠ .nan) :
    fMax f a b = (if fLess f a b then b else a, 0) ∧ fMin f a b = (if fLess f b a then b else a, 0) := by
  unfold fMax fMin
  cases h : decFmt f a
  case nan => exact absurd h ha
  all_goals
    cases k : decFmt f b
    case nan => exact absurd k hb
    all_goals exact ⟨rfl, rfl⟩

theorem fMaxMin_mem (ha : decFmt f a ≠ .nan) (hb : decFmt f b ≠ .nan) :
    ((fMax f a b).1 = a ∨ (fMax f a b).1 = b) ∧ ((fMin f a b).1 = a ∨ (fMin f a b).1 = b) := by
  obtain ⟨hmax, hmin⟩ := fMaxMin_numbers ha hb
  rw [hmax, hmin]
  exact ⟨(ite_eq_or_eq ..).symm, (ite_eq_or_eq ..).symm⟩

end

/-! ### Blocks (R94, R95) -/

/-- A block with an element that is no finite number gives zeros and the NaN scale. -/
theorem convBlock_bad {c : Nat} {md : List RMode} {fp : Bool} {vs : List Num} {v : Num} (hv : v ∈ vs)
    (h : ∀ n m e, v ≠ .fin n m e) : convBlock c md fp vs = (vs.map fun _ => 0, 0xFF, xfNanOut) := by
  refine if_pos (List.any_eq_true.2 ⟨v, hv, ?_⟩)
  cases v with
  | fin n m e => exact absurd rfl (h n m e)
  | nan => rfl
  | range => rfl
  | inf n => rfl

/-- A block of zeros has no exponent. -/
theorem blockExp_zeros (c : Nat) {vs : List Num} (h : ∀ v ∈ vs, ∃ n e, v = .fin n 0 e) : blockExp c vs = none := by
  unfold blockExp
  extract_lets logs
  have none_left : logs = [] := List.filterMap_eq_nil_iff.2 fun v hv => by
    obtain ⟨n, e, rfl⟩ := h v hv
    rfl
  rw [none_left]

theorem convBlock_zeros (c : Nat) (md : List RMode) (fp : Bool) {vs : List Num} (h : ∀ v ∈ vs, ∃ n e, v = .fin n 0 e) :
    (convBlock c md fp vs).2.1 = 0 := by
  unfold convBlock
  dsimp only
  rw [if_neg, blockExp_zeros c h]
  rw [List.any_eq_true]
  rintro ⟨v, hv, hbad⟩
  obtain ⟨n, e, rfl⟩ := h v hv
  exact nomatch hbad

/-! ### Rounding (R89, R96) -/

/-- A multiple of the unit is kept. -/
theorem roundAt_exact (md : RMode) (m : Nat) {e lsb : Int} (h : lsb ≤ e) :
    roundAt md m e lsb = (m * 2 ^ (e - lsb).toNat, true) :=
  if_pos h

/-- Whether a mode rounds the quotient by 2^k away from zero. -/
def roundsUp (md : RMode) (m k : Nat) : Bool :=
  match md with
  | .nearest => decide (2 ^ k < 2 * (m % 2 ^ k)) || (decide (2 * (m % 2 ^ k) = 2 ^ k) && decide (m / 2 ^ k % 2 = 1))
  | .zero => false
  | .stochastic u => decide (2 ^ 32 ≤ m % 2 ^ k * 2 ^ 32 / 2 ^ k + u % 2 ^ 32)

/-- Rounding to a unit 2^k times larger gives the quotient or the next one. -/
theorem roundAt_up (md : RMode) (m : Nat) {k : Nat} (e : Int) (hk : 0 < k) :
    roundAt md m e (e + (k : Int)) = (if roundsUp md m k then m / 2 ^ k + 1 else m / 2 ^ k, decide (m % 2 ^ k = 0)) := by
  have hlt : ¬ e + (k : Int) ≤ e := by omega
  have hkk : (e + (k : Int) - e).toNat = k := by omega
  rw [roundAt, if_neg hlt, hkk]
  rfl

/-- No mode rounds an exact quotient up. -/
theorem roundsUp_exact (md : RMode) {m k : Nat} (h : m % 2 ^ k = 0) : roundsUp md m k = false := by
  have hpos : 0 < 2 ^ k := Nat.two_pow_pos k
  cases md with
  | nearest => simp [roundsUp, h, hpos.ne]
  | zero => rfl
  | stochastic u =>
    have hu : u % 2 ^ 32 < 2 ^ 32 := Nat.mod_lt _ (by decide)
    simp only [roundsUp, h, Nat.zero_mul, Nat.zero_div, Nat.zero_add, decide_eq_false_iff_not, not_le]
    exact hu

/-- To nearest, the multiple is within half a unit, and even at a tie. -/
theorem round_nearest {m k q : Nat} (hq : q = if roundsUp .nearest m k then m / 2 ^ k + 1 else m / 2 ^ k) :
    2 * q * 2 ^ k ≤ 2 * m + 2 ^ k ∧ 2 * m ≤ 2 * q * 2 ^ k + 2 ^ k ∧ (2 * (m % 2 ^ k) = 2 ^ k → q % 2 = 0) := by
  have hm := Nat.div_add_mod m (2 ^ k)
  have hr : m % 2 ^ k < 2 ^ k := Nat.mod_lt _ (Nat.two_pow_pos k)
  have up : roundsUp .nearest m k = true ↔ 2 ^ k < 2 * (m % 2 ^ k) ∨ 2 * (m % 2 ^ k) = 2 ^ k ∧ m / 2 ^ k % 2 = 1 := by
    simp [roundsUp]
  generalize m / 2 ^ k = d at *
  generalize m % 2 ^ k = r at *
  generalize 2 ^ k = p at *
  have scaled : 2 * d * p = 2 * (p * d) := by ring
  by_cases h : roundsUp .nearest m k = true
  · rw [if_pos h] at hq
    have next : 2 * (d + 1) * p = 2 * (p * d) + 2 * p := by ring
    subst hq
    rw [next]
    have := up.1 h
    omega
  · rw [if_neg h] at hq
    subst hq
    rw [scaled]
    have := mt up.2 h
    omega

/-- Settles O19: the functions of VOP lane by lane and operand by operand; a block by its elements; a rounding by what the
mode does with the remainder. -/
theorem numberFunctions : Obligations.NumberFunctions := by
  refine ⟨fun a b sel => ⟨vopResult_and a b sel, vopResult_or a b sel, vopResult_xor a b sel⟩,
    fun a b sel i h => lane_shuf a b sel h, fun a b ha hb => ?oneNan, fun a b ha hb => fMaxMin_nan_both ha hb,
    by decide, by decide, by decide, by decide, fun a b ha hb => fMaxMin_mem ha hb, fun c md fp vs v hv h => convBlock_bad hv h,
    fun c md fp vs h => convBlock_zeros c md fp h, fun md m e lsb h => roundAt_exact md m h, fun md m k e hk => ?round⟩
  case oneNan =>
    obtain ⟨max1, min1⟩ := fMaxMin_nan_left ha hb
    obtain ⟨max2, min2⟩ := fMaxMin_nan_right hb ha
    exact ⟨max1, max2, min1, min2⟩
  case round =>
    rw [roundAt_up md m e hk]
    refine ⟨(ite_eq_or_eq ..).symm, fun h => ?exact, rfl, ?zero, ?nearest⟩
    case exact => rw [roundsUp_exact md h]; rfl
    case zero => rintro rfl; rfl
    case nearest => rintro rfl; exact round_nearest rfl

end Sys2Proof.Machine
end

section
/-!
SUPPORT. Proofs about the conversions CVT and CVTB (R89 to R98, R143 to R145) where their operands can be read and written.
-/

namespace Sys2Proof.Machine

/-! ### The word that a CVT reads -/

/-- The first bytes of a string are the low part of its number. -/
theorem ofLe_take (n : Nat) (d : List Byte) : ofLe (d.take n) = ofLe d % 256 ^ n := by
  induction n generalizing d with
  | zero => simp [ofLe, Nat.mod_one]
  | succ n ih =>
    cases d with
    | nil => simp [ofLe]
    | cons b r =>
      have hb : b.toNat < 256 := b.isLt
      rw [List.take_succ_cons, ofLe, ofLe, ih, pow_succ', Nat.mod_mul, Nat.add_mul_mod_self_left, Nat.mod_eq_of_lt hb,
        Nat.add_mul_div_left _ _ (by decide), Nat.div_eq_of_lt hb, Nat.zero_add]

/-- A CVT of one exact-sum word converts the word that its 16 bytes are. -/
theorem convSources_word (d : List Byte) : convSources false 1 d = [xsNum (quadOf d)] := by
  have low : BitVec.ofNat 128 (leAt d 0 16) = quadOf d := by
    rw [leAt, List.drop_zero, ofLe_take, quadOf]
    exact BitVec.eq_of_toNat_eq (by simp only [BitVec.toNat_ofNat]; exact Nat.mod_mod _ _)
  rw [← low]
  rfl

/-! ### The index register and the status bits (R102, R145) -/

section
variable (s : State) (t : PT) (rm : BitVec 2) (ixs : Bool) (n : Nat)

theorem onlyTile_advanceIndex : OnlyTile t s (s.advanceIndex t rm ixs n) := by
  unfold State.advanceIndex
  split
  · exact onlyTile_modTile ..
  · exact .refl ..

theorem tile_advanceIndex :
    (s.advanceIndex t rm ixs n).tile t = if rm.toNat = 2 then (s.tile t).addSrix ixs n else s.tile t := by
  unfold State.advanceIndex
  split
  · exact State.tile_modTile_same ..
  · rfl

/-- A conversion has read its elements: the index register has advanced past them, and the status bits `f` are set. -/
def State.converted (f : XFlags) (s : State) : State := (s.advanceIndex t rm ixs n).modTile t (Tile.orXstat f)

theorem onlyTile_converted (f : XFlags) : OnlyTile t s (s.converted t rm ixs n f) :=
  (onlyTile_advanceIndex ..).trans (onlyTile_modTile ..)

theorem tile_converted (f : XFlags) : (s.converted t rm ixs n f).tile t =
    (if rm.toNat = 2 then (s.tile t).addSrix ixs n else s.tile t).orXstat f := by
  rw [State.converted, State.tile_modTile_same, tile_advanceIndex]

theorem pack_converted (f : XFlags) : ((s.converted t rm ixs n f).tile t).r.pack = (s.tile t).r.pack := by
  rw [tile_converted]
  split
  · cases ixs <;> rfl
  · rfl

end

/-! ### The pack register (R143) -/

/-- The pack register with an element of width `w` above those held. -/
def Pack.append (w e : Nat) (k : Pack) : Pack :=
  { bits := k.bits ||| (BitVec.ofNat 128 (e % 2 ^ w) <<< k.count), count := k.count + w }

/-- The empty pack register. -/
def Pack.empty : Pack := { bits := 0, count := 0 }

def Tile.setPack (k : Pack) (x : Tile) : Tile := { x with r := { x.r with pack := k } }

section
variable {s u : State} {t : PT} {dst : Ops} {w e : Nat} {es : List Nat}

theorem packAll_nil : s.packAll t dst w [] = .ok s := rfl

/-- An element after which the next one still fits is kept. -/
theorem packAll_fits (h : ((s.tile t).r.pack.append w e).count + w ≤ 128) : s.packAll t dst w (e :: es) =
    (s.modTile t (Tile.setPack ((s.tile t).r.pack.append w e))).packAll t dst w es := by
  rw [State.packAll]
  exact if_neg (Nat.not_lt.2 h)

/-- Where the next element would not fit, the register goes to DST and empties. -/
theorem packAll_fills (h : 128 < ((s.tile t).r.pack.append w e).count + w)
    (hw : s.writeOp t dst (leBytes 16 ((s.tile t).r.pack.append w e).bits.toNat) = .ok u) :
    s.packAll t dst w (e :: es) = (u.modTile t (Tile.setPack .empty)).packAll t dst w es := by
  rw [State.packAll]
  refine (if_pos h).trans ?_
  unfold Pack.append at hw
  dsimp only
  rw [hw]
  rfl

end

/-! ### CVT (R143) -/

/-- How a CVT ends: with PK a pack register that holds bits goes to DST. -/
def cvtEnd (t : PT) (dst : Ops) (pk : Bool) (s : State) : R State :=
  let k := (s.tile t).r.pack
  if pk && decide (k.count ≠ 0) then do
    let s ← s.writeOp t dst (leBytes 16 k.bits.toNat)
    .ok ((s.modTile t (Tile.setPack .empty)).next t 0x18)
  else .ok (s.next t 0x18)

section
variable {s u : State} {t : PT} {dst : Ops} {pk : Bool}

theorem cvtEnd_kept (h : pk = false ∨ (s.tile t).r.pack.count = 0) : cvtEnd t dst pk s = .ok (s.next t 0x18) := by
  refine if_neg ?_
  rcases h with rfl | h
  · simp
  · simp [h]

theorem cvtEnd_sent {k : Pack} (hp : (s.tile t).r.pack = k) (hk : k.count ≠ 0)
    (hw : s.writeOp t dst (leBytes 16 k.bits.toNat) = .ok u) :
    cvtEnd t dst true s = .ok ((u.modTile t (Tile.setPack .empty)).next t 0x18) := by
  subst hp
  refine (if_pos (by simp [hk])).trans ?_
  rw [hw, R.ok_bind]

end

/-- The elements that a CVT makes of what it has read, each with its status bits. -/
def cvtResults (t : PT) (tf : BitVec 4) (rm : BitVec 2) (sat ixs : Bool) (layer : BitVec 16) (sf : Bool) (d : List Byte)
    (s : State) : List (Nat × XFlags) :=
  let n := if sf then 4 else 1
  ((convSources sf n d).zip (s.modes t rm ixs layer n)).map fun vm => convNum tf.toNat vm.2 sat sf vm.1

/-- The status bits of converted elements. -/
def flagsOf (rs : List (Nat × XFlags)) : XFlags := rs.foldl (fun f r => f ||| r.2) 0

section
variable {s s1 : State} {t : PT} {tf : BitVec 4} {rm : BitVec 2} {sat ixs : Bool} {src dst : Ops} {pk : Bool}
  {layer : BitVec 16} {sf : Bool} {d : List Byte}

/-- A CVT whose source has been read. -/
theorem cvtBody_read (h : s.readOp t src 16 = .ok (d, s1)) :
    let rs := cvtResults t tf rm sat ixs layer sf d s1
    cvtBody t tf rm sat ixs src dst pk layer sf s =
      (s1.converted t rm ixs (if sf then 4 else 1) (flagsOf rs)).packAll t dst (fmtWidth tf.toNat) (rs.map (·.1)) >>=
        cvtEnd t dst pk := by
  rw [cvtBody, h]
  rfl

theorem cvtBody_packed {u : State} (h : s.readOp t src 16 = .ok (d, s1))
    (hp : let rs := cvtResults t tf rm sat ixs layer sf d s1
      (s1.converted t rm ixs (if sf then 4 else 1) (flagsOf rs)).packAll t dst (fmtWidth tf.toNat) (rs.map (·.1)) = .ok u) :
    cvtBody t tf rm sat ixs src dst pk layer sf s = cvtEnd t dst pk u := by
  rw [cvtBody_read h, hp, R.ok_bind]

theorem cvtResults_word {md : RMode} (hmd : s.modes t rm ixs layer 1 = [md]) :
    cvtResults t tf rm sat ixs layer false d s = [convNum tf.toNat md sat false (xsNum (quadOf d))] := by
  have sources := convSources_word d
  simp only [cvtResults, Bool.false_eq_true, if_false, sources, hmd, List.zip_cons_cons, List.zip_nil_right, List.map_cons,
    List.map_nil]

/-- A CVT of one exact-sum word whose element leaves room for another. -/
theorem cvtBody_word {md : RMode} (h : s.readOp t src 16 = .ok (d, s1)) (hmd : s1.modes t rm ixs layer 1 = [md])
    (hroom : (s1.tile t).r.pack.count + 2 * fmtWidth tf.toNat ≤ 128) :
    let e := convNum tf.toNat md sat false (xsNum (quadOf d))
    cvtBody t tf rm sat ixs src dst pk layer false s = cvtEnd t dst pk
      ((s1.converted t rm ixs 1 e.2).modTile t (Tile.setPack ((s1.tile t).r.pack.append (fmtWidth tf.toNat) e.1))) := by
  intro e
  refine cvtBody_packed h ?_
  have flags : flagsOf [e] = e.2 := BitVec.zero_or
  have held := pack_converted s1 t rm ixs 1 e.2
  have fits : (((s1.converted t rm ixs 1 e.2).tile t).r.pack.append (fmtWidth tf.toNat) e.1).count +
      fmtWidth tf.toNat ≤ 128 := by
    rw [held]
    show (s1.tile t).r.pack.count + fmtWidth tf.toNat + fmtWidth tf.toNat ≤ 128
    omega
  dsimp only
  rw [cvtResults_word hmd, flags]
  refine (packAll_fits fits).trans ?_
  rw [held]
  rfl

end

/-! ### CVTB (R144) -/

section
variable {s s1 s3 s4 : State} {t : PT} {tf : BitVec 4} {rm xs : BitVec 2} {sf ixs : Bool} {as ad ak : BitVec 3}
  {layer : BitVec 16} {tag : Bool} {d : List Byte}

theorem cvtbBody_ok (h : s.readRun t as.toNat tag (if sf then blockOf xs.toNat / 4 else blockOf xs.toNat) = .ok (d, s1)) :
    let n := blockOf xs.toNat
    let r := convBlock tf.toNat (s1.modes t rm ixs layer n) sf (convSources sf n d)
    (s1.converted t rm ixs n r.2.2).writeRun t ad.toNat
      (leBytes (n * fmtWidth tf.toNat / 8) (packElems (fmtWidth tf.toNat) r.1)) =
      .ok s3 →
    s3.writeRun t ak.toNat [r.2.1] = .ok s4 → cvtbBody t tf rm xs sf ixs as ad ak layer tag s = .ok (s4.next t 0x19) := by
  intro n r h3 h4
  unfold State.converted at h3
  simp only [cvtbBody, h, R.ok_bind]
  rw [h3, R.ok_bind, h4, R.ok_bind]

end

/-- Settles O20: a CVT packs the elements it has converted and ends by PK; CVTB writes the block and then its scale. -/
theorem conversionsComplete : Obligations.ConversionsComplete := by
  intro s t x
  refine ⟨?word, ?cvt, fun u dst w e es => ⟨packAll_fits, fun hlt u' hw => packAll_fills hlt hw, packAll_nil⟩, ?cvtb⟩
  case word =>
    intro tf rm sat ixs src dst pk layer d s1 w hf h hroom md hmd e k k' y
    have body := cvtBody_word (sat := sat) (dst := dst) (pk := pk) h hmd hroom
    have tile : ((s1.converted t rm ixs 1 e.2).modTile t (Tile.setPack k')).tile t = (y.orXstat e.2).setPack k' := by
      rw [State.tile_modTile_same, tile_converted]
    have packed : (((s1.converted t rm ixs 1 e.2).modTile t (Tile.setPack k')).tile t).r.pack = k' := by rw [tile]; rfl
    refine ⟨_, (onlyTile_converted ..).trans (onlyTile_modTile ..), tile, ?_, ?_⟩
    · rintro rfl
      exact exec_uop_of_fetches hf (body.trans (cvtEnd_kept (.inl rfl)))
    · rintro rfl hpos s3 hw
      have some_held : k'.count ≠ 0 := by
        show k.count + w ≠ 0
        omega
      exact exec_uop_of_fetches hf (body.trans (cvtEnd_sent packed some_held hw))
  case cvt =>
    intro tf rm sat ixs src dst pk layer sf d s1 s3 w hf h n rs hp k
    have body := cvtBody_packed (pk := pk) h hp
    refine ⟨fun hk => exec_uop_of_fetches hf (body.trans (cvtEnd_kept hk)), ?_⟩
    rintro rfl hk s4 hw
    exact exec_uop_of_fetches hf (body.trans (cvtEnd_sent rfl hk hw))
  case cvtb =>
    intro tf rm xs sf ixs as ad ak layer tag d s1 n hf h r y
    exact ⟨_, onlyTile_converted .., tile_converted .., fun s3 s4 h3 h4 => exec_uop_of_fetches hf (cvtbBody_ok h h3 h4)⟩

end Sys2Proof.Machine
end

section
/-!
SUPPORT. Proofs about writes of the tile registers (R102, R112, R147, R151, R160).
-/

namespace Sys2Proof.Machine

/-! ### A register write by its offset (R160) -/

section
variable (x : Tile) (v : Word)

theorem writeReg_cfg : x.writeReg 0x18 v =
    { x with c := { x.c with entry := v.extractLsb' 32 9, startq := v.extractLsb' 16 3, ceLim := v.extractLsb' 8 8 } } := rfl
theorem writeReg_xstat : x.writeReg 0x20 v = { x with c := { x.c with xstat := x.c.xstat &&& ~~~(v.extractLsb' 0 8) } } := rfl
theorem writeReg_ecc : x.writeReg 0x28 v = if v.getLsbD 0 then { x with c := { x.c with ce := 0, ue := 0 } } else x := rfl
theorem writeReg_srix0 : x.writeReg 0x40 v = { x with r := { x.r with srix0 := v.extractLsb' 0 48 } } := rfl
theorem writeReg_srix1 : x.writeReg 0x48 v = { x with r := { x.r with srix1 := v.extractLsb' 0 48 } } := rfl

/-- The offsets of registers that a write leaves. -/
theorem writeReg_readOnly {off : Nat} (h : off ∈ [0x00, 0x08, 0x30, 0x38, 0x180]) : x.writeReg off v = x := by
  simp only [List.mem_cons, List.not_mem_nil, or_false] at h
  rcases h with rfl | rfl | rfl | rfl | rfl <;> exact ite_self x

variable {x} {off : Nat}

/-- A port with the descriptor image and the cursor of a write (R160, R161). -/
def Port.described (v : Word) (p : Port) : Port := { p with desc := v &&& 0xFFFFFFFFFFFE0000, cursor := v.extractLsb' 25 16 }

/-- From 0x50 on: the address registers, the ports and the tags, of a still tile only (R160). -/
theorem writeReg_high (hoff : 0x50 ≤ off) : x.writeReg off v =
    if x.still = false then x
    else if 0x50 ≤ off ∧ off < 0x90 then x.setA ((off - 0x50) / 8) { cur := v.extractLsb' 0 16, stride := v.extractLsb' 16 16 }
    else if 0xC0 ≤ off ∧ off < 0x140 then x.modPort ((off - 0xC0) / 8) (Port.described v)
    else if 0x140 ≤ off ∧ off < 0x158 then { x with amTag := setTagWord x.amTag ((off - 0x140) / 8) v }
    else if 0x160 ≤ off ∧ off < 0x180 then { x with pmTag := setTagWord x.pmTag ((off - 0x160) / 8) v }
    else x := by
  have low : off ≠ 0x18 ∧ off ≠ 0x20 ∧ off ≠ 0x28 ∧ off ≠ 0x40 ∧ off ≠ 0x48 := by omega
  obtain ⟨h18, h20, h28, h40, h48⟩ := low
  rw [Tile.writeReg, if_neg h18, if_neg h20, if_neg h28, if_neg h40, if_neg h48]
  rfl

theorem writeReg_moving (h : x.still = false) (hoff : 0x50 ≤ off) : x.writeReg off v = x := by
  rw [writeReg_high v hoff, if_pos h]

section
variable (h : x.still = true) {i : Nat}
include h

theorem writeReg_areg (hi : i < 8) :
    x.writeReg (0x50 + 8 * i) v = x.setA i { cur := v.extractLsb' 0 16, stride := v.extractLsb' 16 16 } := by
  have hn : (0x50 + 8 * i - 0x50) / 8 = i := by omega
  rw [writeReg_high v (by omega), if_neg (by rw [h]; decide), if_pos (by omega), hn]

theorem writeReg_port (hi : i < 16) : x.writeReg (0xC0 + 8 * i) v = x.modPort i (Port.described v) := by
  have hn : (0xC0 + 8 * i - 0xC0) / 8 = i := by omega
  rw [writeReg_high v (by omega), if_neg (by rw [h]; decide), if_neg (by omega), if_pos (by omega), hn]

theorem writeReg_amTag (hi : i < 3) : x.writeReg (0x140 + 8 * i) v = { x with amTag := setTagWord x.amTag i v } := by
  have hn : (0x140 + 8 * i - 0x140) / 8 = i := by omega
  rw [writeReg_high v (by omega), if_neg (by rw [h]; decide), if_neg (by omega), if_neg (by omega), if_pos (by omega), hn]

theorem writeReg_pmTag (hi : i < 4) : x.writeReg (0x160 + 8 * i) v = { x with pmTag := setTagWord x.pmTag i v } := by
  have hn : (0x160 + 8 * i - 0x160) / 8 = i := by omega
  rw [writeReg_high v (by omega), if_neg (by rw [h]; decide), if_neg (by omega), if_neg (by omega), if_neg (by omega),
    if_pos (by omega), hn]

end

/-- No register write but that of `TILE_CTL` moves the sequencer. -/
theorem writeReg_s (x : Tile) (off : Nat) (v : Word) : (x.writeReg off v).s = x.s := by
  have setA (n : Nat) (r : AddrReg) : (x.setA n r).s = x.s := rfl
  simp only [Tile.writeReg, apply_ite Tile.s, setA, ite_self]

end

theorem still_iff (x : Tile) : x.still = true ↔ x.s.seq = .idle ∨ x.s.seq = .halted ∨ x.s.seq = .reset := by
  simp only [Tile.still, Bool.or_eq_true, decide_eq_true_eq, or_assoc]

/-- A window of a tag vector reads what was written. -/
theorem getLsbD_setTagWord {n : Nat} (v : BitVec n) (w : Word) {k j : Nat} (hj : j < 64) (hn : 64 * k + j < n) :
    (setTagWord v k w).getLsbD (64 * k + j) = w.getLsbD j := by
  have hk : ¬ 64 * k + j < 64 * k := by omega
  have hs : 64 * k + j - 64 * k = j := by omega
  have hm : (2 ^ 64 - 1).testBit j = true := by
    rw [Nat.testBit_two_pow_sub_one]
    exact decide_eq_true hj
  have hjn : j < n := by omega
  simp only [setTagWord, BitVec.getLsbD_or, BitVec.getLsbD_and, BitVec.getLsbD_not, BitVec.getLsbD_shiftLeft,
    BitVec.getLsbD_ofNat, BitVec.getLsbD_setWidth, hk, hs, hm, hn, hjn, decide_true, decide_false, Bool.not_false,
    Bool.not_true, Bool.and_true, Bool.and_false, Bool.true_and, Bool.false_or]

/-- The clause on the offsets of the other registers. -/
theorem writeReg_still (x : Tile) (v : Word) (h : x.still = true) :
    (∀ i, i < 8 → (x.writeReg (0x50 + 8 * i) v).areg i = { cur := v.extractLsb' 0 16, stride := v.extractLsb' 16 16 }) ∧
    (∀ i, i < 16 → ((x.writeReg (0xC0 + 8 * i) v).port i).desc = v &&& 0xFFFFFFFFFFFE0000 ∧
      ((x.writeReg (0xC0 + 8 * i) v).port i).cursor = v.extractLsb' 25 16) ∧
    (∀ i j, i < 3 → j < 64 → (x.writeReg (0x140 + 8 * i) v).tagOf (64 * i + j) = v.getLsbD j) ∧
    (∀ i j, i < 4 → j < 64 → (x.writeReg (0x160 + 8 * i) v).tagOf (192 + 64 * i + j) = v.getLsbD j) := by
  refine ⟨fun i hi => ?areg, fun i hi => ?port, fun i j hi hj => ?amTag, fun i j hi hj => ?pmTag⟩
  case areg =>
    rw [writeReg_areg v h hi]
    exact Tab.get_set_same ..
  case port =>
    rw [writeReg_port v h hi]
    have put : (x.modPort i (Port.described v)).port i = (x.port i).described v := Tab.get_set_same ..
    rw [put]
    exact ⟨rfl, rfl⟩
  case amTag =>
    rw [writeReg_amTag v h hi]
    exact (if_pos (by omega)).trans (getLsbD_setTagWord _ _ hj (by omega))
  case pmTag =>
    have hs : 192 + 64 * i + j - 192 = 64 * i + j := by omega
    rw [writeReg_pmTag v h hi]
    refine (if_neg (by omega)).trans ?_
    rw [hs]
    exact getLsbD_setTagWord _ _ hj (by omega)

/-! ### `TILE_CTL` (R151, R160) -/

section
variable {s : State} {t : PT} {v : Word}

theorem onlyTile_resumeTile (s : State) (t : PT) : OnlyTile t s (s.resumeTile t) := onlyTile_modTile ..

/-- RESUME is for halted tiles. -/
theorem tile_resumeTile_running (hrun : (s.tile t).s.seq = .run) : SameButStall (s.tile t) ((s.resumeTile t).tile t) := by
  have hn : ¬ (s.tile t).s.seq = .halted := by rw [hrun]; decide
  rw [State.resumeTile, State.tile_modTile_same, Tile.resume, if_neg hn]
  exact restall_spec ..

/-- HALT of a running tile keeps its invocation. -/
def Tile.halted (x : Tile) : Tile := { x with s := { x.s with seq := .halted, inv := true } }

theorem tile_haltTile_running (hrun : (s.tile t).s.seq = .run) :
    SameButStall (s.tile t).halted ((s.haltTile t).tile t) := by
  rw [State.haltTile, State.tile_modTile_same, Tile.halt, hrun]
  exact restall_spec ..

theorem SameButStall.refl (x : Tile) : SameButStall x x := rfl
theorem SameButStall.trans {x y z : Tile} (h : SameButStall x y) (k : SameButStall y z) : SameButStall x z := by
  unfold SameButStall at *
  rw [k, h]
theorem SameButStall.seq {x y : Tile} (h : SameButStall x y) : y.s.seq = x.s.seq := by rw [h]
theorem SameButStall.still {x y : Tile} (h : SameButStall x y) : y.still = x.still := by
  simp only [Tile.still, h.seq]

/-- Without RESET and HALT a running tile goes on: RESUME and CLRTAGS are for still tiles. -/
theorem tileCtl_running (hrun : (s.tile t).s.seq = .run) (h2 : v.getLsbD 2 = false) (h0 : v.getLsbD 0 = false) :
    OnlyTile t s (s.tileCtl t v) ∧ SameButStall (s.tile t) ((s.tileCtl t v).tile t) := by
  have moving : (s.tile t).still = false := by simp [Tile.still, hrun]
  simp only [State.tileCtl, h2, h0, Bool.false_eq_true, if_false]
  split
  · have same := tile_resumeTile_running hrun
    rw [if_neg (by simp [same.still, moving])]
    exact ⟨onlyTile_resumeTile s t, same⟩
  · rw [if_neg (by simp [moving])]
    exact ⟨.refl t s, .refl _⟩

/-- A still tile whose tags CLRTAGS empties. -/
def Tile.clearedIf (c : Bool) (x : Tile) : Tile := if c then x.clearTags else x

theorem clearedIf_r (c : Bool) (x : Tile) : (x.clearedIf c).r = x.r := by cases c <;> rfl
theorem clearedIf_s (c : Bool) (x : Tile) : (x.clearedIf c).s = x.s := by cases c <;> rfl
theorem clearedIf_mem (c : Bool) (x : Tile) : (x.clearedIf c).mem = x.mem := by cases c <;> rfl
theorem clearedIf_tags {c : Bool} (h : c = true) (x : Tile) : (x.clearedIf c).amTag = 0 ∧ (x.clearedIf c).pmTag = 0 := by
  rw [h]
  exact ⟨rfl, rfl⟩

/-- CLRTAGS of a still tile. -/
theorem clearTags_still (u : State) (t : PT) (c : Bool) (hs : (u.tile t).still = true) :
    (if c = true ∧ (u.tile t).still = true then u.modTile t Tile.clearTags else u).tile t = (u.tile t).clearedIf c := by
  cases c
  · rw [if_neg (by simp)]
    rfl
  · rw [if_pos ⟨rfl, hs⟩, State.tile_modTile_same]
    rfl

theorem tileCtl_halt (hrun : (s.tile t).s.seq = .run) (h2 : v.getLsbD 2 = false) (h0 : v.getLsbD 0 = true) :
    ∃ y, SameButStall (s.tile t).halted y ∧ (s.tileCtl t v).tile t = y.clearedIf (v.getLsbD 3) := by
  have halted := tile_haltTile_running hrun
  have still : ((s.haltTile t).tile t).still = true := by rw [halted.still]; rfl
  refine ⟨_, halted, ?_⟩
  simp only [State.tileCtl, h2, h0, Bool.false_eq_true, if_false, if_true]
  exact clearTags_still _ t _ still

/-- The answers to parked requests change no tile. -/
theorem tile_foldl_send (ps : List Packet) (f : Packet → Packet) (s : State) (u : PT) :
    (ps.foldl (fun s p => s.send (f p)) s).tile u = s.tile u := by
  induction ps generalizing s with
  | nil => rfl
  | cons p ps ih => exact ih _

theorem tile_resetTile (hon : (s.tile t).s.seq ≠ .off) :
    (s.resetTile t).tile t = ((s.tile t).progressBy (s.tile t).q.parked.length).toReset := by
  rw [State.resetTile, if_neg hon, State.tile_modTile_same, tile_foldl_send]

theorem tileCtl_reset (hon : (s.tile t).s.seq ≠ .off) (h2 : v.getLsbD 2 = true) : (s.tileCtl t v).tile t =
    (((s.tile t).progressBy (s.tile t).q.parked.length).toReset).clearedIf (v.getLsbD 3) := by
  have reset := tile_resetTile hon
  have still : ((s.resetTile t).tile t).still = true := by rw [reset]; rfl
  simp only [State.tileCtl, h2, if_true]
  rw [clearTags_still _ t _ still, reset]

theorem progressBy_pc (n : Nat) (x : Tile) : (x.progressBy n).s.pc = x.s.pc := by
  unfold Tile.progressBy
  split <;> rfl
theorem progressBy_mem (n : Nat) (x : Tile) : (x.progressBy n).mem = x.mem := by
  unfold Tile.progressBy
  split <;> rfl

/-- What RESET leaves and empties (R112, R151). -/
theorem toReset_spec (n : Nat) (c : Bool) (x : Tile) : let y := ((x.progressBy n).toReset).clearedIf c
    y.s.seq = .reset ∧ y.s.pc = x.s.pc ∧ y.amTag = 0 ∧ y.pmTag = 0 ∧ y.mem = x.mem := by
  have pc : (x.progressBy n).toReset.s.pc = x.s.pc := progressBy_pc n x
  have mem : (x.progressBy n).toReset.mem = x.mem := progressBy_mem n x
  cases c <;> exact ⟨rfl, pc, rfl, rfl, mem⟩

end

/-! ### A micro-op retires in HALTED (R151) -/

/-- The tile in RUN. -/
def Tile.running (x : Tile) : Tile := { x with s := { x.s with seq := .run } }

/-- What brings a tile back to the still state `q` after a step in RUN. -/
def Tile.stilled (q : Seq) (x : Tile) : Tile :=
  if x.s.seq = .run ∨ x.s.seq = .blocked ∨ x.s.seq = .idle then
    { x with s := { x.s with seq := q, inv := decide (x.s.seq ≠ .idle), blk := 0, blkarg := 0 } }
  else x

theorem stilled_of_run {y z : Tile} (h : SameButStall y z) (hy : y.s.seq = .run) (hb : y.s.blk = 0) (ha : y.s.blkarg = 0) :
    SameButStall y.halted (z.stilled .halted) := by
  have run : z.s.seq = .run := h.seq.trans hy
  rw [Tile.stilled, if_pos (.inl run), run]
  unfold SameButStall Tile.halted at *
  rw [h]
  simp only [hb, ha]
  rfl

/-- A tile in HALTED does what `f` does to it in RUN, and stays there where `f` leaves it in RUN. -/
theorem keepStill_halted {s : State} {t : PT} {f : State → State} {y : Tile} (hh : (s.tile t).s.seq = .halted)
    (hf : SameButStall y ((f (s.modTile t Tile.running)).tile t)) (hy : y.s.seq = .run) (hb : y.s.blk = 0)
    (ha : y.s.blkarg = 0) : SameButStall y.halted ((s.keepStill t f).tile t) := by
  have e : s.keepStill t f = ((f (s.modTile t Tile.running)).modTile t (Tile.stilled .halted)).restall t := by
    unfold State.keepStill
    dsimp only
    rw [if_pos (.inl hh), hh]
    rfl
  rw [e, State.restall, State.tile_modTile_same, State.tile_modTile_same]
  exact (stilled_of_run hf hy hb ha).trans (restall_spec ..)

/-- A micro-op that ends in HALTED, outside every loop and without a write that waits, retires to `next` and stays there. -/
theorem finish_halted {s : State} {t : PT} {op next kind : Nat} (h : (s.tile t).r.loops = []) (hd : (s.tile t).s.done = none)
    (hh : (s.tile t).s.seq = .halted) :
    SameButStall ((s.tile t).running.retired op next [] { kind := kind, pops := [], seen := [], ended := 0 }).halted
      ((s.finish t op next kind).tile t) := by
  have hc : (s.tile t).checked ((s.tile t).seenWords { kind := kind, pops := [], seen := [], ended := 0 }) = .ok (s.tile t) :=
    checked_none fun _ => rfl
  obtain ⟨-, h2⟩ := retireBy_go ((s.setTile t (s.tile t)).modTile t Tile.running) t op next []
    { kind := kind, pops := [], seen := [], ended := 0 } rfl
  rw [State.tile_modTile_same, State.tile_setTile_same] at h2
  have hs : ((s.setTile t (s.tile t)).tile t).s.seq = .halted := by rw [State.tile_setTile_same, hh]
  have kept := keepStill_halted hs h2 rfl rfl rfl
  have e : s.finish t op next kind = (s.setTile t (s.tile t)).keepStill t
      (State.retireBy t op (.go next [] { kind := kind, pops := [], seen := [], ended := 0 })) := by
    simp only [State.finish, hd, State.retire, State.retireAt, h, loopEnd, LoopEnd.found, hc]
    exact ceHigh_same (by rw [kept]; rfl)
  rw [e]
  exact kept

/-- What the micro-op leaves of the tile, and where it goes on. -/
theorem finish_halted_parts {s : State} {t : PT} {op next kind : Nat} (h : (s.tile t).r.loops = [])
    (hd : (s.tile t).s.done = none) (hh : (s.tile t).s.seq = .halted) : let y := (s.finish t op next kind).tile t
    y.s.seq = .halted ∧ y.s.inv = true ∧ y.s.pc = BitVec.ofNat 10 next ∧ y.mem = (s.tile t).mem ∧ y.r.v = (s.tile t).r.v ∧
      y.amTag = (s.tile t).amTag ∧ y.pmTag = (s.tile t).pmTag := by
  rw [finish_halted h hd hh]
  exact ⟨rfl, rfl, rfl, rfl, rfl, rfl, rfl⟩

/-! ### WREG (R147) -/

section
variable {s : State} {t : PT} {v : BitVec 5} {reg : BitVec 6} {y : Tile}

/-- The state in which a WREG has written its register. -/
def State.wregWritten (t : PT) (v : BitVec 5) (reg : BitVec 6) (y : Tile) (s : State) : State :=
  (s.setTile t y).writeTileReg t (8 * reg.toNat) ((Tab.get (0 : Quad) y.r.v v.toNat).setWidth 64)

theorem wregBody_ok (h : (s.tile t).need (fun w => decide (w = vWord v.toNat 0)) = .ok y) :
    wregBody t v reg s = let u := s.wregWritten t v reg y
      if (u.tile t).s.seq = .reset then .ok u else .ok (u.next t 0x1D) := by
  rw [wregBody, h]
  rfl

/-- A WREG of another register than `TILE_CTL` writes it. -/
theorem wregWritten_reg (h : reg.toNat ≠ 2) : s.wregWritten t v reg y =
    (s.setTile t y).modTile t (Tile.writeReg (8 * reg.toNat) ((Tab.get (0 : Quad) y.r.v v.toNat).setWidth 64)) :=
  if_neg (by omega)

theorem wregWritten_ctl (h : reg.toNat = 2) : s.wregWritten t v reg y =
    (s.setTile t y).tileCtl t ((Tab.get (0 : Quad) y.r.v v.toNat).setWidth 64) :=
  if_pos (by omega)

/-- A bit of the word that a WREG writes is that of the register it reads. -/
theorem getLsbD_setWidth_64 (q : Quad) {i : Nat} (h : i < 64) : (q.setWidth 64).getLsbD i = q.getLsbD i := by
  rw [BitVec.getLsbD_setWidth, decide_eq_true h, Bool.true_and]

end

section
variable {s : State} {t : PT} {x y : Tile} {v : BitVec 5} {reg : BitVec 6} (hf : Fetches s t (.wreg v reg) x)
  (hy : x.need (fun w => decide (w = vWord v.toNat 0)) = .ok y)
include hf hy

/-- The WREG of a running tile retires, unless it has reset the tile. -/
theorem exec_wreg {u : State} (hu : (s.setTile t x).wregWritten t v reg y = u) : exec (.wreg t v reg) s =
    .next ((if (u.tile t).s.seq = .reset then u else u.next t 0x1D).ceHigh t (s.tile t)) := by
  rw [← State.tile_setTile_same s t x] at hy
  have body := wregBody_ok (reg := reg) hy
  rw [hu] at body
  refine exec_uop_of_fetches hf (body.trans ?_)
  dsimp only
  split <;> rfl

theorem exec_wreg_retires {u : State} (hu : (s.setTile t x).wregWritten t v reg y = u) (hs : (u.tile t).s.seq ≠ .reset) :
    exec (.wreg t v reg) s = .next ((u.next t 0x1D).ceHigh t (s.tile t)) := by
  rw [exec_wreg hf hy hu, if_neg hs]

theorem exec_wreg_reset {u : State} (hu : (s.setTile t x).wregWritten t v reg y = u) (hs : (u.tile t).s.seq = .reset) :
    exec (.wreg t v reg) s = .next (u.ceHigh t (s.tile t)) := by
  rw [exec_wreg hf hy hu, if_pos hs]

theorem seq_of_need : y.s.seq = .run := by rw [(need_codeRead hy).s, hf.seq]

/-- A WREG of another register than `TILE_CTL` writes it and retires. -/
theorem wreg_register (hreg : reg.toNat ≠ 2) :
    ∃ r, exec (.wreg t v reg) s = .next ((r.next t 0x1D).ceHigh t (s.tile t)) ∧
      r.tile t = y.writeReg (8 * reg.toNat) ((Tab.get (0 : Quad) x.r.v v.toNat).setWidth 64) ∧ OnlyTile t s r := by
  have written := wregWritten_reg (s := s.setTile t x) (t := t) (v := v) (y := y) hreg
  have tile : ((s.setTile t x).wregWritten t v reg y).tile t =
      y.writeReg (8 * reg.toNat) ((Tab.get (0 : Quad) x.r.v v.toNat).setWidth 64) := by
    rw [written, State.tile_modTile_same, State.tile_setTile_same, (need_codeRead hy).r]
  refine ⟨_, exec_wreg_retires hf hy rfl ?_, tile, ?_⟩
  · rw [tile, writeReg_s, seq_of_need hf hy]
    decide
  · rw [written]
    exact ((onlyTile_setTile ..).trans (onlyTile_setTile ..)).trans (onlyTile_modTile ..)

variable (hreg : reg.toNat = 2)
include hreg

omit hf in
/-- A WREG of `TILE_CTL` writes the word of the fetched tile's register there. -/
theorem wregWritten_ctl_of_need : (s.setTile t x).wregWritten t v reg y =
    ((s.setTile t x).setTile t y).tileCtl t ((Tab.get (0 : Quad) x.r.v v.toNat).setWidth 64) := by
  rw [wregWritten_ctl hreg, (need_codeRead hy).r]

/-- A WREG of `TILE_CTL` with neither RESET nor HALT retires. -/
theorem wreg_ctl_running (h2 : (Tab.get (0 : Quad) x.r.v v.toNat).getLsbD 2 = false)
    (h0 : (Tab.get (0 : Quad) x.r.v v.toNat).getLsbD 0 = false) :
    ∃ r, exec (.wreg t v reg) s = .next ((r.next t 0x1D).ceHigh t (s.tile t)) ∧ SameData y (r.tile t) ∧
      (r.tile t).s.seq = .run ∧ (r.tile t).s.pc = x.s.pc ∧ (r.tile t).queues = x.queues ∧ OnlyTile t s r := by
  rw [← getLsbD_setWidth_64 _ (by decide)] at h2 h0
  have run : (((s.setTile t x).setTile t y).tile t).s.seq = .run := by rw [State.tile_setTile_same, seq_of_need hf hy]
  obtain ⟨only, same⟩ := tileCtl_running run h2 h0
  rw [State.tile_setTile_same] at same
  have seq := same.seq.trans (seq_of_need hf hy)
  refine ⟨_, exec_wreg_retires hf hy (wregWritten_ctl_of_need hy hreg) (by rw [seq]; decide), same.data, seq, ?_, ?_,
    ((onlyTile_setTile ..).trans (onlyTile_setTile ..)).trans only⟩
  · rw [same, ← (need_codeRead hy).s]
  · rw [same, ← (need_codeRead hy).queues]

/-- A WREG of `TILE_CTL` with HALT retires and leaves the tile in HALTED. -/
theorem wreg_ctl_halt (h2 : (Tab.get (0 : Quad) x.r.v v.toNat).getLsbD 2 = false)
    (h0 : (Tab.get (0 : Quad) x.r.v v.toNat).getLsbD 0 = true) (hl : x.r.loops = []) :
    ∃ n, exec (.wreg t v reg) s = .next n ∧ (n.tile t).s.seq = .halted ∧ (n.tile t).s.inv = true ∧
      (n.tile t).s.pc = BitVec.ofNat 10 (x.s.pc.toNat + 1) ∧ (n.tile t).mem = x.mem ∧ (n.tile t).r.v = x.r.v ∧
      ((Tab.get (0 : Quad) x.r.v v.toNat).getLsbD 3 = true → (n.tile t).amTag = 0 ∧ (n.tile t).pmTag = 0) := by
  rw [← getLsbD_setWidth_64 _ (by decide)] at h2 h0
  have read := need_codeRead hy
  have run : (((s.setTile t x).setTile t y).tile t).s.seq = .run := by rw [State.tile_setTile_same, seq_of_need hf hy]
  obtain ⟨z, hz, tile⟩ := tileCtl_halt run h2 h0
  rw [State.tile_setTile_same] at hz
  have hs : z.s.seq = .halted := hz.seq
  have hr : z.r = x.r := by rw [hz, ← read.r]; rfl
  have hm : z.mem = x.mem := by rw [hz, ← read.mem]; rfl
  have hpc : z.s.pc = x.s.pc := by rw [hz, ← read.s]; rfl
  have hd : z.s.done = none := by rw [hz, ← hf.done, ← read.s]; rfl
  obtain ⟨seq, inv, pc, mem, v', am, pm⟩ := finish_halted_parts (op := 0x1D) (next := x.s.pc.toNat + 1) (kind := 7)
    (by rw [tile, clearedIf_r, hr, hl]) (by rw [tile, clearedIf_s, hd]) (by rw [tile, clearedIf_s, hs])
  have retires := exec_wreg_retires hf hy (wregWritten_ctl_of_need hy hreg) (by rw [tile, clearedIf_s, hs]; decide)
  rw [State.next, tile, clearedIf_s, hpc] at retires
  refine ⟨_, retires, ?_⟩
  rw [ceHigh_s, ceHigh_mem, ceHigh_r, ceHigh_amTag, ceHigh_pmTag, mem, v', am, pm, tile, clearedIf_mem, clearedIf_r, hm, hr]
  refine ⟨seq, inv, pc, rfl, rfl, fun h3 => clearedIf_tags ?_ z⟩
  rw [getLsbD_setWidth_64 _ (by decide)]
  exact h3

/-- A WREG of `TILE_CTL` with RESET leaves the tile in RESET. -/
theorem wreg_ctl_reset (h2 : (Tab.get (0 : Quad) x.r.v v.toNat).getLsbD 2 = true) :
    ∃ n, exec (.wreg t v reg) s = .next n ∧ (n.tile t).s.seq = .reset ∧ (n.tile t).s.pc = x.s.pc ∧ (n.tile t).amTag = 0 ∧
      (n.tile t).pmTag = 0 ∧ (n.tile t).mem = x.mem := by
  rw [← getLsbD_setWidth_64 _ (by decide)] at h2
  have read := need_codeRead hy
  have on : (((s.setTile t x).setTile t y).tile t).s.seq ≠ .off := by
    rw [State.tile_setTile_same, seq_of_need hf hy]
    decide
  have tile := tileCtl_reset on h2
  rw [State.tile_setTile_same] at tile
  obtain ⟨seq, pc, am, pm, mem⟩ := toReset_spec y.q.parked.length
    (((Tab.get (0 : Quad) x.r.v v.toNat).setWidth 64 : Word).getLsbD 3) y
  refine ⟨_, exec_wreg_reset hf hy (wregWritten_ctl_of_need hy hreg) (by rw [tile, seq]), ?_⟩
  rw [ceHigh_s, ceHigh_mem, ceHigh_amTag, ceHigh_pmTag, tile, ← read.s, ← read.mem]
  exact ⟨seq, pc, am, pm, mem⟩

end

/-- Settles O17: a WREG by the register that it names, and `TILE_CTL` by the bits that it sets; a register write by its
offset. -/
theorem tileRegisterWrites : Obligations.TileRegisterWrites := by
  refine ⟨fun s t x y v reg hf hy => ⟨wreg_register hf hy, wreg_ctl_running hf hy, wreg_ctl_halt hf hy, wreg_ctl_reset hf hy⟩,
    fun x v => ?offsets⟩
  case offsets =>
    rw [writeReg_cfg, writeReg_xstat, writeReg_srix0, writeReg_srix1]
    refine ⟨rfl, rfl, rfl, rfl, writeReg_ecc x v, rfl, rfl, fun off h => writeReg_readOnly x v h,
      fun h1 h2 h3 off hoff => writeReg_moving v ?_ hoff, fun h => writeReg_still x v ((still_iff x).2 h)⟩
    rw [Bool.eq_false_iff, ne_eq, still_iff]
    tauto

end Sys2Proof.Machine
end

section
/-!
SUPPORT. The words of the micro-ops: what the decoder reads where the encoder has put a field (R127, R131).
-/

namespace Sys2Proof

/-! ### Fields of a word that is made of fields -/

section
variable {n m : Nat} (v : BitVec n)

theorem getLsbD_up (lo i : Nat) (h : i < 64) : (up lo v).getLsbD i = (decide (lo ≤ i) && v.getLsbD (i - lo)) := by
  have hi : i - lo < 64 := by omega
  by_cases hlo : lo ≤ i
  · have : ¬ i < lo := by omega
    simp [up, h, hlo, this]
  · have : i < lo := by omega
    simp [up, hlo, this]

theorem uf_or (a b : Word) (lo : Nat) : uf (a ||| b) lo n = uf a lo n ||| uf b lo n := BitVec.extractLsb'_or ..

/-- A field reads what was placed there. -/
theorem uf_up_same (lo : Nat) (h : lo + n ≤ 64) : uf (up lo v) lo n = v := by
  apply BitVec.eq_of_getLsbD_eq
  intro i hi
  rw [uf, BitVec.getLsbD_extractLsb', getLsbD_up v lo (lo + i) (by omega), Nat.add_sub_cancel_left]
  simp [hi]

/-- A field reads nothing of what was placed apart from it. -/
theorem uf_up_apart (lo k : Nat) (hk : k + m ≤ 64) (h : lo + n ≤ k ∨ k + m ≤ lo) : uf (up lo v) k m = 0 := by
  apply BitVec.eq_of_getLsbD_eq
  intro i hi
  rw [uf, BitVec.getLsbD_extractLsb', getLsbD_up v lo (k + i) (by omega)]
  rcases h with h | h
  · simp [BitVec.getLsbD_of_ge v (k + i - lo) (by omega)]
  · have : ¬ lo ≤ k + i := by omega
    simp [this]

theorem or_and_low (a b : Word) (k : Nat) : (a ||| b) &&& BitVec.ofNat 64 (2 ^ k - 1) =
    a &&& BitVec.ofNat 64 (2 ^ k - 1) ||| b &&& BitVec.ofNat 64 (2 ^ k - 1) := by
  apply BitVec.eq_of_getLsbD_eq
  intro i hi
  simp only [BitVec.getLsbD_and, BitVec.getLsbD_or, Bool.and_or_distrib_right]

/-- No bit below `k` is set in a field placed at `k` or above. -/
theorem up_and_low (lo k : Nat) (h : k ≤ lo) : up lo v &&& BitVec.ofNat 64 (2 ^ k - 1) = 0 := by
  apply BitVec.eq_of_getLsbD_eq
  intro i hi
  rw [BitVec.getLsbD_and, getLsbD_up v lo i hi, BitVec.getLsbD_ofNat, Nat.testBit_two_pow_sub_one]
  by_cases hik : i < k
  · have : ¬ lo ≤ i := by omega
    simp [this]
  · simp [hik]

end

/-- A bit is a field of width 1, and an opcode one of width 6. -/
theorem ub_eq (lo : Nat) (b : Bool) : ub lo b = up lo (BitVec.ofBool b) := rfl
theorem getElem_eq_field (w : Word) (i : Nat) (h : i < 64) : w[i] = (uf w i 1)[0] := by
  rw [uf, BitVec.getElem_extractLsb', Nat.add_zero, BitVec.getLsbD_eq_getElem h]
theorem uo_eq {v : Nat} (h : v < 64) : uo v = up 58 (BitVec.ofNat 6 v) := by
  rw [uo, up]
  congr 1
  apply BitVec.eq_of_toNat_eq
  simp
  omega

/-! ### The words of the micro-ops -/

/-- The opcode of a micro-op (R131). -/
def Uop.opcode : Uop → Nat
  | .nop => 0x00
  | .loop .. => 0x01
  | .bsel .. => 0x02
  | .emit .. => 0x03
  | .weir _ => 0x04
  | .float .. => 0x05
  | .endOp => 0x06
  | .halt => 0x07
  | .mov .. => 0x08
  | .lds .. => 0x09
  | .seta .. => 0x0A
  | .adda .. => 0x0B
  | .tags .. => 0x0C
  | .rget .. => 0x0D
  | .dot .. => 0x10
  | .fma .. => 0x11
  | .xadd .. => 0x12
  | .vop .. => 0x13
  | .cvt .. => 0x18
  | .cvtb .. => 0x19
  | .rreg .. => 0x1C
  | .wreg .. => 0x1D

theorem uf_opcode (u : Uop) : uf (encodeUop u) 58 6 = BitVec.ofNat 6 u.opcode := by
  cases u <;>
    simp [encodeUop, Uop.opcode, uo_eq, ub_eq, uf_or, uf_up_same, uf_up_apart]

/-- The decoder reads every field of a micro-op's word where the encoder has put it. -/
theorem uopFields_encodeUop (u : Uop) : uopFields (encodeUop u) = some u := by
  rw [uopFields, uf_opcode]
  cases u <;>
    simp [encodeUop, Uop.opcode, uo_eq, ub_eq, uf_or, uf_up_same, uf_up_apart, getElem_eq_field]

/-- The bits that the opcode of a micro-op does not list: the lowest ones. -/
def Uop.spare : Uop → Nat
  | .nop | .endOp | .halt => 58
  | .loop .. | .cvt .. => 16
  | .bsel .. => 19
  | .emit .. => 35
  | .weir _ => 46
  | .float .. | .lds .. => 44
  | .mov .. => 40
  | .seta .. => 23
  | .adda .. => 39
  | .tags .. => 46
  | .rget .. => 28
  | .dot .. => 15
  | .fma .. => 26
  | .xadd .. => 34
  | .vop .. | .cvtb .. => 22
  | .rreg .. | .wreg .. => 47

theorem uopMask_opcode (u : Uop) : ~~~uopMask u.opcode = BitVec.ofNat 64 (2 ^ u.spare - 1) := by
  cases u <;> simp only [Uop.opcode, Uop.spare] <;> decide

/-- No bit is set that the opcode does not list. -/
theorem encodeUop_and_spare (u : Uop) : encodeUop u &&& BitVec.ofNat 64 (2 ^ u.spare - 1) = 0 := by
  cases u <;> 
    simp only [encodeUop, Uop.spare, uo_eq, ub_eq, or_and_low, up_and_low, Nat.reduceLeDiff, Nat.reduceLT, BitVec.or_self]

/-- Settles O6: the decoder finds the opcode and every field where the encoder has put them, and no other bit set. -/
theorem microOpWordsRoundTrip : Obligations.MicroOpWordsRoundTrip := by
  intro u hu
  have opcode : (uf (encodeUop u) 58 6).toNat = u.opcode := by rw [uf_opcode]; cases u <;> rfl
  rw [decodeUop, opcode, uopMask_opcode, encodeUop_and_spare, uopFields_encodeUop]
  simp [hu]

end Sys2Proof
end

section
/-!
SUPPORT. Proofs about how a micro-op stops, retires and goes on (R105, R119, R127, R132 to R136, R149, R151, R154, R295).
-/

namespace Sys2Proof.Machine

/-! ### What a change of a tile or of the packets on their way leaves -/

section
variable (s : State) (t u : PT) (x : Tile) (f : Tile → Tile) (p : Packet)
@[simp] theorem tile_send : (s.send p).tile u = s.tile u := rfl
@[simp] theorem tile_take : (s.take p).tile u = s.tile u := rfl
@[simp] theorem router_send : (s.send p).router u = s.router u := rfl
@[simp] theorem router_take : (s.take p).router u = s.router u := rfl
@[simp] theorem hosted_send : (s.send p).hosted u = s.hosted u := rfl
@[simp] theorem hosted_take : (s.take p).hosted u = s.hosted u := rfl
@[simp] theorem ptPart_send : (s.send p).ptPart u = s.ptPart u := rfl
@[simp] theorem ptPart_take : (s.take p).ptPart u = s.ptPart u := rfl
@[simp] theorem router_setTile : (s.setTile t x).router u = s.router u := rfl
@[simp] theorem router_modTile : (s.modTile t f).router u = s.router u := rfl
@[simp] theorem hosted_setTile : (s.setTile t x).hosted u = s.hosted u := rfl
@[simp] theorem hosted_modTile : (s.modTile t f).hosted u = s.hosted u := rfl
@[simp] theorem ptPart_setTile : (s.setTile t x).ptPart u = s.ptPart u := rfl
@[simp] theorem ptPart_modTile : (s.modTile t f).ptPart u = s.ptPart u := rfl
end

/-! ### Stops -/

section
variable (s : State) (t : PT)

theorem stopUop_block (blk arg : Nat) : s.stopUop t (.block blk arg) = s.blocked t blk arg := rfl
theorem stopUop_tags (blk an : Nat) (slots : List Nat) : s.stopUop t (.tags blk an slots) = s.blockedOn t blk an slots := rfl
theorem ptPart_blocked (blk arg : Nat) (u : PT) : (s.blocked t blk arg).ptPart u = s.ptPart u := rfl

/-- A wait leaves the tile in BLOCKED with BLK and BLKARG, and its PC and data as they were. -/
theorem blocked_parts (blk arg : Nat) : let y := (s.blocked t blk arg).tile t
    y.s.seq = .blocked ∧ y.s.blk = blk ∧ y.s.blkarg = arg ∧ y.s.pc = (s.tile t).s.pc ∧ SameData (s.tile t) y ∧
      y.queues = (s.tile t).queues ∧ y.q = (s.tile t).q := by
  obtain ⟨-, same⟩ := blocked_spec s t blk arg
  refine ⟨?_, ?_, ?_, ?_, same.data, ?_, ?_⟩ <;> rw [same]

theorem onlyTile_blocked (blk arg : Nat) : OnlyTile t s (s.blocked t blk arg) := (blocked_spec s t blk arg).1

/-- The place that a wait of a micro-op for tags takes among the waiters (R119). -/
def Tile.waiterFor (slots : List Nat) (full : Bool) (x : Tile) : Waiter :=
  match x.q.waiting with
  | some w => if w.slots = slots ∧ w.full = full then w else { slots := slots, full := full, ahead := x.q.parked.length }
  | none => { slots := slots, full := full, ahead := x.q.parked.length }

/-- A wait for tags takes its place, and is a wait. -/
theorem blockedOn_eq (blk an : Nat) (slots : List Nat) : s.blockedOn t blk an slots =
    (s.modTile t fun x => { x with q := { x.q with waiting := some ((s.tile t).waiterFor slots (decide (blk = 2))) } }).blocked
      t blk an := rfl

theorem waiterFor_new {x : Tile} (h : x.q.waiting = none) (slots : List Nat) (full : Bool) :
    x.waiterFor slots full = { slots := slots, full := full, ahead := x.q.parked.length } := by
  rw [Tile.waiterFor, h]

theorem waiterFor_again {x : Tile} {w : Waiter} (h : x.q.waiting = some w) : x.waiterFor w.slots w.full = w := by
  simp [Tile.waiterFor, h]

theorem blockedOn_parts (blk an : Nat) (slots : List Nat) : let y := (s.blockedOn t blk an slots).tile t
    y.s.seq = .blocked ∧ y.s.blk = blk ∧ y.s.blkarg = an ∧ y.s.pc = (s.tile t).s.pc ∧ SameData (s.tile t) y ∧
      y.queues = (s.tile t).queues ∧ y.q.waiting = some ((s.tile t).waiterFor slots (decide (blk = 2))) := by
  have same := (blocked_spec (s.modTile t fun x =>
    { x with q := { x.q with waiting := some ((s.tile t).waiterFor slots (decide (blk = 2))) } }) t blk an).2
  rw [State.tile_modTile_same, ← blockedOn_eq] at same
  refine ⟨?_, ?_, ?_, ?_, ?_, ?_, ?_⟩ <;> rw [same]
  exact ⟨rfl, rfl, rfl, rfl, rfl, rfl, rfl, rfl, rfl, rfl, rfl⟩

theorem onlyTile_blockedOn (blk an : Nat) (slots : List Nat) : OnlyTile t s (s.blockedOn t blk an slots) := by
  rw [blockedOn_eq]
  exact (onlyTile_modTile ..).trans (onlyTile_blocked ..)

/-- A destination without a scarf entry: the tile waits, and SCARF_MISS is raised. -/
theorem scarfMiss_signals (l : LT) (blk arg : Nat) : Signals Ev.scarfMiss (s.ptPart t) [t.bay, t.col, t.row, l.x, l.y]
    (s.blocked t blk arg) (s.stopUop t (.scarf l blk arg)) := signal_spec ..

/-- An illegal micro-op: the tile is in FAULT, and TILE_ILLEGAL is raised. -/
theorem tileIllegal_signals (c : Nat) : Signals Ev.tileIllegal (s.ptPart t) (tileOps (s.hosted t) t ++ [(s.tile t).s.pc.toNat, c])
    (s.tileFault t c) (s.stopUop t (.illegal c)) := signal_spec ..

theorem tileFault_parts (c : Nat) : let y := (s.tileFault t c).tile t
    y.s.seq = .fault ∧ y.s.fcause = c ∧ y.s.pc = (s.tile t).s.pc ∧ SameData (s.tile t) y := by
  obtain ⟨-, same⟩ := tileFault_spec s t c
  refine ⟨?_, ?_, ?_, same.data⟩ <;> rw [same]

end

/-- A micro-op's command at a tile that is not in RUN, or whose clocks or partition have stopped, changes nothing. -/
theorem exec_uop_idle {s : State} {t : PT} (u : Uop) (h : (s.tile t).s.seq ≠ .run ∨ s.runs (s.ptPart t) = false) :
    exec (u.instr t) s = .next s := by
  rw [exec_uop, State.issue, if_pos h]

/-- Where a running tile fetches `u` and its effect stops, its command answers the state of that stop. -/
theorem exec_uop_of_stop {s : State} {t : PT} {u : Uop} {x : Tile} {e : Stop} (h : Fetches s t u x)
    (hb : uopBody t u (s.setTile t x) = .error e) :
    exec (u.instr t) s = .next (((s.setTile t x).stopUop t e).ceHigh t (s.tile t)) := by
  rw [exec_uop, issue_of_fetches h, hb]

/-- Settles O7: a fetched micro-op has its effect or its stop; each stop is a wait or a fault of its tile, with its event. -/
theorem microOpsRunOrStop : Obligations.MicroOpsRunOrStop := by
  refine ⟨⟨fun s t u x hf => ?fetched, fun s t u h => exec_uop_idle u h⟩, fun s t => ⟨fun blk arg => ?block,
    fun blk an slots => ?tags, fun l blk arg => ?scarf, fun c => ?illegal⟩⟩
  case fetched =>
    cases hb : uopBody t u (s.setTile t x) with
    | ok r => exact ⟨_, exec_uop_of_fetches hf hb, fun _ h => Except.ok.inj h ▸ rfl, fun _ h => (by cases h)⟩
    | error e => exact ⟨_, exec_uop_of_stop hf hb, fun _ h => (by cases h), fun _ h => Except.error.inj h ▸ rfl⟩
  case block =>
    rw [stopUop_block]
    obtain ⟨hseq, hblk, harg, hpc, hdata, hqueues, -⟩ := blocked_parts s t blk arg
    exact ⟨hseq, hblk, harg, hpc, hdata, hqueues, onlyTile_blocked ..⟩
  case tags =>
    rw [stopUop_tags]
    obtain ⟨hseq, hblk, harg, hpc, hdata, hqueues, hw⟩ := blockedOn_parts s t blk an slots
    refine ⟨hseq, hblk, harg, hpc, hdata, hqueues, onlyTile_blockedOn .., fun h => ?_, ?_⟩
    · rw [← waiterFor_new h]
      exact hw
    · rintro w h rfl hfull
      rw [← hfull, waiterFor_again h] at hw
      exact hw
  case scarf =>
    obtain ⟨hseq, hblk, harg, hpc, hdata, hqueues, -⟩ := blocked_parts s t blk arg
    have raised := scarfMiss_signals s t l blk arg
    dsimp only
    rw [raised.tile t]
    exact ⟨hseq, hblk, harg, hpc, hdata, hqueues,
      fun v hv => (raised.tile v).trans ((onlyTile_blocked s t blk arg).2 v hv), _, onlyTile_blocked .., raised⟩
  case illegal =>
    obtain ⟨hseq, hcause, hpc, hdata⟩ := tileFault_parts s t c
    have raised := tileIllegal_signals s t c
    have only := (tileFault_spec s t c).1
    dsimp only
    rw [raised.tile t]
    exact ⟨hseq, hcause, hpc, hdata, fun v hv => (raised.tile v).trans (only.2 v hv), _, only, raised⟩

end Sys2Proof.Machine
end

section
/-!
SUPPORT. Proofs about the retirement of a micro-op and the ends of counted loops (R132 to R136, R151, R182, R507).
-/

namespace Sys2Proof.Machine

section
variable {s : State} {t : PT} {op next kind : Nat}

/-- What the end-of-iteration checks begin with (R175). -/
def Ends.start (kind : Nat) : Ends := { kind := kind, pops := [], seen := [], ended := 0 }

/-- A micro-op of a running tile whose checks go on at `nx`, having looked at no queue, retires there. -/
theorem retire_go {nx : Nat} {ls : List LoopReg} {e : Ends} (hr : (s.tile t).s.seq = .run)
    (he : loopEnd (s.tile t) (s.tile t).r.loops next (.start kind) = .go nx ls e) (hp : e.pops = []) (hn : e.seen = []) :
    OnlyTile t s (s.retire t op next kind) ∧ SameButStall ((s.tile t).retired op nx ls e) ((s.retire t op next kind).tile t) := by
  have unseen : (s.tile t).checked ((s.tile t).seenWords (LoopEnd.go nx ls e).found) = .ok (s.tile t) :=
    checked_none fun w => by simp [Tile.seenWords, LoopEnd.found, hn]
  obtain ⟨only, same⟩ := retireBy_go (s.setTile t (s.tile t)) t op nx ls e hp
  rw [State.tile_setTile_same] at same
  have still : (s.setTile t (s.tile t)).keepStill t (State.retireBy t op (.go nx ls e)) =
      (s.setTile t (s.tile t)).retireBy t op (.go nx ls e) := by
    simp only [State.keepStill, State.tile_setTile_same, hr]
    rfl
  have retires : s.retire t op next kind = (s.setTile t (s.tile t)).retireBy t op (.go nx ls e) := by
    unfold Ends.start at he
    simp only [State.retire, State.retireAt, he, unseen, still]
    exact ceHigh_same (by rw [same]; rfl)
  rw [retires]
  exact ⟨(onlyTile_setTile ..).trans only, same⟩

/-- The parts of the tile that a retirement from RUN leaves. -/
theorem retired_parts {nx : Nat} {ls : List LoopReg} {e : Ends} {y : Tile} (hr : (s.tile t).s.seq = .run)
    (h : SameButStall ((s.tile t).retired op nx ls e) y) :
    y.s.seq = .run ∧ y.s.pc = BitVec.ofNat 10 nx ∧ y.s.blk = 0 ∧ y.s.progress = (s.tile t).s.progress + 1 ∧
      y.r.loops = ls ∧ y.s.arrived = false ∧ y.s.done = none ∧ SameData (s.tile t) y ∧ y.queues = (s.tile t).queues := by
  have data : SameData (s.tile t) ((s.tile t).retired op nx ls e) := ⟨rfl, rfl, rfl, rfl, rfl, rfl, rfl, rfl, rfl, rfl, rfl⟩
  refine ⟨?_, ?_, ?_, ?_, ?_, ?_, ?_, data.trans h.data, ?_⟩
  all_goals rw [h]
  · simp [Tile.retired, hr]
  all_goals rfl

/-- With no loop active execution goes on at the next index (R132). -/
theorem loopEnd_nil (x : Tile) : loopEnd x [] next (.start kind) = .go next [] (.start kind) := rfl

/-- Inside the innermost loop execution goes on at the next index (R132). -/
theorem loopEnd_inside (x : Tile) {l : LoopReg} {ls : List LoopReg} (h : next ≤ l.last) :
    loopEnd x (l :: ls) next (.start kind) = .go next (l :: ls) (.start kind) := if_pos h

section
variable (x : Tile) {l : LoopReg} (hl : l.lvl < 4) (hu : l.unt = false) (hn : l.last < next)
include hl hu hn

/-- Past the last index of a counted loop with trips left its body begins again (R132). -/
theorem loopEnd_again {ls : List LoopReg} (hc : 1 < l.cnt) :
    loopEnd x (l :: ls) next (.start kind) = .go l.first ({ l with cnt := l.cnt - 1 } :: ls) (.start kind) := by
  have past : ¬ next ≤ l.last := by omega
  have loop : l.lvl ≠ 4 := by omega
  have left : ¬ l.cnt ≤ 1 := by omega
  rw [loopEnd]
  simp [past, loop, hu, left]

/-- Past the last index of a counted loop in its last trip execution goes on after it (R132). -/
theorem loopEnd_last (hc : l.cnt ≤ 1) :
    loopEnd x [l] next (.start kind) = .go next [] { Ends.start kind with ended := (Ends.start kind).ended ||| 2 ^ l.lvl } := by
  have past : ¬ next ≤ l.last := by omega
  have loop : l.lvl ≠ 4 := by omega
  rw [loopEnd]
  simp [past, loop, hu, hc]
  rfl

end

/-- Both signatures after a retirement with no level ended (R507). -/
theorem signatures_retired {y : Tile} (h : SameButStall ((s.tile t).retired op next [] (.start kind)) y) :
    let v := (s.tile t).s.pc.toNat % 512 + 512 * op + 2 ^ 15 * kind
    y.s.sigSeq = sigStep (s.tile t).s.sigSeq v ∧ y.s.sigChk = sigStep (s.tile t).s.sigChk v := by
  rw [h]
  exact ⟨rfl, rfl⟩

end

/-- Settles O8: which loop ends with the micro-op decides where execution goes on. -/
theorem microOpRetirement : Obligations.MicroOpRetirement := by
  refine ⟨fun s t op next kind hl hr => ?plain, fun s t op next kind l hl hr hlvl hunt hlast => ?loop⟩
  case plain =>
    obtain ⟨only, same⟩ := retire_go (op := op) hr (by rw [hl]; exact loopEnd_nil (next := next) (kind := kind) _) rfl rfl
    obtain ⟨seq, pc, blk, progress, loops, -, -, data, -⟩ := retired_parts hr same
    obtain ⟨sigSeq, sigChk⟩ := signatures_retired same
    exact ⟨pc, seq, blk, progress, sigSeq, sigChk, loops, data, only⟩
  case loop =>
    by_cases hc : 1 < l.cnt
    · obtain ⟨only, same⟩ := retire_go (op := op) hr
        (by rw [hl]; exact loopEnd_again (kind := kind) _ hlvl hunt hlast hc) rfl rfl
      obtain ⟨seq, pc, -, -, loops, -, -, data, -⟩ := retired_parts hr same
      exact ⟨seq, data, only, fun _ => ⟨pc, loops⟩, fun h => absurd hc (by omega)⟩
    · obtain ⟨only, same⟩ := retire_go (op := op) hr
        (by rw [hl]; exact loopEnd_last (kind := kind) _ hlvl hunt hlast (by omega)) rfl rfl
      obtain ⟨seq, pc, -, -, loops, -, -, data, -⟩ := retired_parts hr same
      exact ⟨seq, data, only, fun h => absurd h hc, fun _ => ⟨pc, loops⟩⟩

end Sys2Proof.Machine
end

section
/-!
SUPPORT. Proofs about the control micro-ops NOP, LOOP, BSEL, END and HALT (R131 to R136, R149, R151).
-/

namespace Sys2Proof.Machine

/-- A micro-op of a running tile that waits for no write retires to the index that it goes on at. -/
theorem finish_eq_retire {s : State} {t : PT} {op next kind : Nat} (h : (s.tile t).s.done = none) :
    s.finish t op next kind = s.retire t op next kind := by
  simp only [State.finish, h]

/-- A corrected error on the way changes the tile's plumb record and the logs: other tiles stay. -/
theorem ceHigh_other {s u : State} {t : PT} (y : Tile) (h : OnlyTile t s u) (v : PT) (hv : v.key ≠ t.key) :
    (u.ceHigh t y).tile v = s.tile v := (tile_ceHigh_ne u y hv).trans (h.2 v hv)

/-! ### LOOP (R132 to R134) -/

/-- The loop that a LOOP at index `p` starts: trips of 0 stand for 2^24. -/
def loopOf (p : Nat) (lvl : BitVec 2) (trip : BitVec 24) (len : BitVec 9) (unt : Bool) (uq utk : BitVec 3) : LoopReg :=
  { lvl := lvl.toNat, cnt := if trip.toNat = 0 then 2 ^ 24 else trip.toNat, first := p + 1, last := p + len.toNat, unt := unt,
    uq := uq.toNat, utk := utk.toNat }

def Tile.pushLoop (l : LoopReg) (x : Tile) : Tile := { x with r := { x.r with loops := l :: x.r.loops } }

section
variable {s : State} {t : PT} {lvl : BitVec 2} {trip : BitVec 24} {len : BitVec 9} {unt : Bool} {uq utk : BitVec 3}

/-- A LOOP whose body lies inside IM, and inside the active loop of a lower level where there is one, starts its loop. -/
theorem loopBody_ok (hm : (s.tile t).s.pc.toNat + len.toNat ≤ 511)
    (ho : ∀ o, ((s.tile t).r.loops.find? fun l => decide (l.lvl < 4)) = some o →
      o.lvl < lvl.toNat ∧ (s.tile t).s.pc.toNat + len.toNat ≤ o.last) :
    loopBody t lvl trip len unt uq utk s =
      .ok ((s.modTile t (Tile.pushLoop (loopOf (s.tile t).s.pc.toNat lvl trip len unt uq utk))).next t 0x01) := by
  have inside : ¬ 511 < (s.tile t).s.pc.toNat + len.toNat := by omega
  unfold loopBody
  cases h : (s.tile t).r.loops.find? fun l => decide (l.lvl < 4) with
  | none =>
    simp only [h, inside, decide_false, Bool.false_eq_true, if_false]
    rfl
  | some o =>
    obtain ⟨lower, within⟩ := ho o h
    have h1 : ¬ o.last < (s.tile t).s.pc.toNat + len.toNat := by omega
    have h2 : ¬ lvl.toNat ≤ o.lvl := by omega
    simp only [h, inside, h1, h2, decide_false, Bool.or_false, Bool.false_eq_true, if_false]
    rfl

end

theorem toNat_succ_of_lt {n : Nat} (w : BitVec n) : BitVec.ofNat n (w.toNat + 1) = w + 1 := by
  apply BitVec.eq_of_toNat_eq
  simp [BitVec.toNat_add]

/-! ### BSEL (R135) -/

/-- BSEL finds at the head of its queue a token of choice `v`: it pops it, and goes to alternative `v` or past all of them. -/
theorem bselBody_ok {s : State} {t : PT} {q : BitVec 3} {l0 l1 l2 l3 : BitVec 9} {e : QEntry} {y : Tile}
    (hl : (s.tile t).look q.toNat 0 1 = .ok ([e], y)) (ht : e.tok = true) (hk : e.kind = 3) (hv : e.val < 4)
    (hm : (s.tile t).s.pc.toNat + 1 + l0.toNat + l1.toNat + l2.toNat + l3.toNat ≤ 512) :
    let lens := [l0.toNat, l1.toNat, l2.toNat, l3.toNat]
    let stop := (s.tile t).s.pc.toNat + 1 + lens.foldl (· + ·) 0
    let start := (s.tile t).s.pc.toNat + 1 + (lens.take e.val).foldl (· + ·) 0
    let s1 := (s.setTile t y).popQ t q.toNat
    let alt : LoopReg := { lvl := 4, cnt := stop, first := start, last := start + lens.getD e.val 0 - 1, unt := false, uq := 0, utk := 0 }
    bselBody t q l0 l1 l2 l3 s = .ok (if lens.getD e.val 0 = 0 then s1.retire t 0x02 stop 3
      else (s1.modTile t (Tile.pushLoop alt)).retire t 0x02 start 3) := by
  intro lens stop start s1 alt
  have fits : ¬ 512 < stop := by
    simp only [stop, lens, List.foldl]
    omega
  have choice : e.val % 4 = e.val := Nat.mod_eq_of_lt hv
  have legal : (!e.tok || (e.kind != 4 && e.kind != 3) || (e.kind == 3 && e.val / 4 != 0)) = false := by
    simp [ht, hk, Nat.div_eq_of_lt hv]
  have branch : e.kind ≠ 4 := by rw [hk]; decide
  unfold bselBody
  rw [if_neg fits, hl]
  simp only [legal, branch, choice, Bool.false_eq_true, if_false]
  split <;> rfl

/-! ### END and HALT (R136, R149) -/

/-- END leaves the tile in IDLE with no invocation and no loop. -/
theorem endBody_spec (s : State) (t : PT) : ∃ n, endBody t s = .ok n ∧ OnlyTile t s n ∧
    SameButStall ((({ (s.tile t).progressBy 1 with s := ((s.tile t).progressBy 1).s.sign (s.tile t).s.pc.toNat 0x06 7 0 }).toIdle
      s.now)) (n.tile t) := by
  refine ⟨_, rfl, (onlyTile_modTile ..).trans (onlyTile_restall ..), ?_⟩
  rw [State.restall, State.tile_modTile_same, State.tile_modTile_same]
  exact restall_spec ..

/-- A halt request to a running tile leaves it in HALTED with its invocation kept. -/
theorem haltTile_run {s : State} {t : PT} (h : (s.tile t).s.seq = .run) : let y := (s.haltTile t).tile t
    OnlyTile t s (s.haltTile t) ∧ y.s.seq = .halted ∧ y.s.inv = true ∧ y.s.pc = (s.tile t).s.pc ∧ SameData (s.tile t) y := by
  have same : (s.haltTile t).tile t = Tile.restall s.now
      { s.tile t with s := { (s.tile t).s with seq := .halted, inv := true } } := by
    rw [State.haltTile, State.tile_modTile_same, Tile.halt, h]
  have data : SameData (s.tile t) { s.tile t with s := { (s.tile t).s with seq := .halted, inv := true } } :=
    ⟨rfl, rfl, rfl, rfl, rfl, rfl, rfl, rfl, rfl, rfl, rfl⟩
  refine ⟨onlyTile_modTile .., ?_, ?_, ?_, ?_⟩ <;> rw [same]
  · exact restall_seq ..
  · exact restall_inv ..
  · exact restall_pc ..
  · exact data.trans (restall_spec ..).data

/-- A micro-op that retires outside every loop leaves the tile in RUN at the next index. -/
theorem next_no_loop {s : State} {t : PT} (op : Nat) (hl : (s.tile t).r.loops = []) (hd : (s.tile t).s.done = none)
    (hr : (s.tile t).s.seq = .run) : OnlyTile t s (s.next t op) ∧ ((s.next t op).tile t).s.seq = .run ∧
      ((s.next t op).tile t).s.pc = BitVec.ofNat 10 ((s.tile t).s.pc.toNat + 1) ∧
      SameData (s.tile t) ((s.next t op).tile t) := by
  obtain ⟨only, same⟩ := finish_no_loop (op := op) (next := (s.tile t).s.pc.toNat + 1) (kind := 7) hl hd hr
  obtain ⟨seq, pc, -, -, -, -, -, data, -⟩ := retired_parts hr same
  exact ⟨only, seq, pc, data⟩

/-- A micro-op that retires inside the innermost loop leaves the tile in RUN at the next index, its loops as they are. -/
theorem next_inside {s : State} {t : PT} (op : Nat) {l : LoopReg} {ls : List LoopReg} (hl : (s.tile t).r.loops = l :: ls)
    (hi : (s.tile t).s.pc.toNat + 1 ≤ l.last) (hd : (s.tile t).s.done = none) (hr : (s.tile t).s.seq = .run) :
    OnlyTile t s (s.next t op) ∧ ((s.next t op).tile t).s.seq = .run ∧ ((s.next t op).tile t).r.loops = l :: ls ∧
      ((s.next t op).tile t).s.pc = (s.tile t).s.pc + 1 ∧ SameData (s.tile t) ((s.next t op).tile t) := by
  obtain ⟨only, same⟩ := retire_go (op := op) hr (by rw [hl]; exact loopEnd_inside (kind := 7) _ hi) rfl rfl
  obtain ⟨seq, pc, -, -, loops, -, -, data, -⟩ := retired_parts hr same
  rw [toNat_succ_of_lt] at pc
  rw [State.next, finish_eq_retire hd]
  exact ⟨only, seq, loops, pc, data⟩

/-- Settles O9: each control micro-op has its effect where it is fetched, and its retirement goes on where the effect says. -/
theorem controlMicroOpsComplete : Obligations.ControlMicroOpsComplete := by
  intro s t x
  have here : (s.setTile t x).tile t = x := State.tile_setTile_same ..
  refine ⟨fun hf => exec_uop_of_fetches hf rfl, fun lvl trip len unt uq utk hf hm hlen ho => ?loop,
    fun q l0 l1 l2 l3 e y hf hl ht hk hv hm => ?bsel, fun hf => ?endOp, fun hf hloops hr => ?halt⟩
  case loop =>
    intro lp
    have pc : x.s.pc = (s.tile t).s.pc := by rw [hf.codeRead.s]
    have body := loopBody_ok (s := s.setTile t x) (t := t) (lvl := lvl) (trip := trip) (len := len) (unt := unt) (uq := uq)
      (utk := utk) (by rw [here, pc]; exact hm) (by rw [here, pc]; exact ho)
    have tile : ((s.setTile t x).modTile t (Tile.pushLoop (loopOf x.s.pc.toNat lvl trip len unt uq utk))).tile t =
        x.pushLoop lp := by rw [State.tile_modTile_same, here, pc]; rfl
    have inside : (x.pushLoop lp).s.pc.toNat + 1 ≤ lp.last := by
      show x.s.pc.toNat + 1 ≤ (s.tile t).s.pc.toNat + len.toNat
      rw [pc]
      omega
    rw [here] at body
    obtain ⟨-, seq, loops, hpc, -⟩ := next_inside (op := 0x01) (by rw [tile]; rfl) (by rw [tile]; exact inside)
      (by rw [tile]; exact hf.done) (by rw [tile]; exact hf.seq)
    rw [tile] at hpc
    refine ⟨_, exec_uop_of_fetches hf body, ?_, ?_, ?_⟩
    · rw [ceHigh_r, loops]
    · rw [ceHigh_s, hpc, ← pc]
      rfl
    · rw [ceHigh_s, seq]
  case bsel =>
    refine ⟨_, exec_uop_of_fetches hf (bselBody_ok (by rw [here]; exact hl) ht hk hv (by rw [here]; exact hm)), ?_⟩
    rw [here]
    rfl
  case endOp =>
    obtain ⟨n, body, only, same⟩ := endBody_spec (s.setTile t x) t
    rw [here] at same
    refine ⟨_, exec_uop_of_fetches hf body, ?_, ?_, ?_, ?_, ?_, ?_, ceHigh_other _ ((onlyTile_setTile ..).trans only)⟩
    all_goals simp only [ceHigh_s, ceHigh_r, ceHigh_mem]
    all_goals rw [same]
    all_goals rfl
  case halt =>
    have run : ((s.setTile t x).tile t).s.seq = .run := by rw [here]; exact hf.seq
    obtain ⟨only, seq, pc, data⟩ := next_no_loop (s := s.setTile t x) (t := t) 0x07 (by rw [here]; exact hloops)
      (by rw [here]; exact hf.done) run
    obtain ⟨only', hseq, hinv, hpc, hdata⟩ := haltTile_run seq
    obtain ⟨-, -, -, -, -, -, -, mem, -⟩ := data.trans hdata
    rw [here] at pc mem
    refine ⟨_, exec_uop_of_fetches hf rfl, ?_, ?_, ?_, ?_,
      ceHigh_other _ ((onlyTile_setTile ..).trans (only.trans only'))⟩
    · rw [ceHigh_s, hseq]
    · rw [ceHigh_s, hinv]
    · rw [ceHigh_s, hpc, pc]
    · rw [ceHigh_mem, mem]

end Sys2Proof.Machine
end

section
/-!
SUPPORT. Proofs about source operands (R106, R115, R117, R119, R128, R129, R156, R174, R180).
-/

namespace Sys2Proof.Machine

/-! ### What a read under the code leaves -/

section
variable {x y : Tile} (h : CodeRead x y)
include h
theorem CodeRead.amTag : y.amTag = x.amTag := by rw [h]
theorem CodeRead.pmTag : y.pmTag = x.pmTag := by rw [h]
theorem CodeRead.q : y.q = x.q := by rw [h]
theorem CodeRead.areg (n : Nat) : y.areg n = x.areg n := by rw [Tile.areg, h.r, Tile.areg]
theorem CodeRead.queue (n : Nat) : y.queue n = x.queue n := by rw [Tile.queue, h.queues, Tile.queue]
theorem CodeRead.tagOf (k : Nat) : y.tagOf k = x.tagOf k := by rw [Tile.tagOf, h.amTag, h.pmTag, Tile.tagOf]
theorem CodeRead.ready (slots : List Nat) (full : Bool) : y.ready slots full = x.ready slots full := by
  simp only [Tile.ready, h.tagOf]
end

/-! ### Tags (R114, R115, R119) -/

section
variable (x : Tile) (slot : Nat) (full : Bool)
@[simp] theorem setTag_r : (x.setTag slot full).r = x.r := by unfold Tile.setTag; split <;> rfl
@[simp] theorem setTag_mem : (x.setTag slot full).mem = x.mem := by unfold Tile.setTag; split <;> rfl
@[simp] theorem setTag_queues : (x.setTag slot full).queues = x.queues := by unfold Tile.setTag; split <;> rfl
@[simp] theorem setTag_s : (x.setTag slot full).s = x.s := by unfold Tile.setTag; split <;> rfl
@[simp] theorem setTag_q : (x.setTag slot full).q = x.q := by unfold Tile.setTag; split <;> rfl
@[simp] theorem setTag_c : (x.setTag slot full).c = x.c := by unfold Tile.setTag; split <;> rfl
@[simp] theorem setTag_plumb : (x.setTag slot full).plumb = x.plumb := by unfold Tile.setTag; split <;> rfl
@[simp] theorem setTag_defects : (x.setTag slot full).defects = x.defects := by unfold Tile.setTag; split <;> rfl
end

/-- Setting tags changes the tags alone. -/
theorem setTags_frame (slots : List Nat) (full : Bool) (x : Tile) :
    x.setTags slots full = { x with amTag := (x.setTags slots full).amTag, pmTag := (x.setTags slots full).pmTag } := by
  unfold Tile.setTags
  induction slots generalizing x with
  | nil => rfl
  | cons k ks ih =>
    rw [List.foldl_cons, ih]
    simp

theorem setTags_r (slots : List Nat) (full : Bool) (x : Tile) : (x.setTags slots full).r = x.r := by rw [setTags_frame]

/-- A bit of a tag vector after a tag is set or cleared. -/
theorem getLsbD_setBit {n : Nat} (v : BitVec n) (full : Bool) {i k : Nat} (hk : k < n) :
    (if full then v ||| ((1 <<< i : Nat) : BitVec n) else v &&& ~~~((1 <<< i : Nat) : BitVec n)).getLsbD k =
      if k = i then full else v.getLsbD k := by
  have one : ((1 <<< i : Nat) : BitVec n).getLsbD k = decide (i = k) := by
    rw [BitVec.natCast_eq_ofNat, BitVec.getLsbD_ofNat, Nat.one_shiftLeft, Nat.testBit_two_pow]
    simp [hk]
  cases full
  · simp only [Bool.false_eq_true, if_false, BitVec.getLsbD_and, BitVec.getLsbD_not, one, hk, decide_true, Bool.true_and]
    by_cases h : i = k <;> simp [h, eq_comm]
  · simp only [if_true, BitVec.getLsbD_or, one]
    by_cases h : i = k <;> simp [h, eq_comm]

/-- A slot's tag after one of the slots is set or cleared. -/
theorem tagOf_setTag (x : Tile) (slot : Nat) (full : Bool) {k : Nat} (hk : k < 448) :
    (x.setTag slot full).tagOf k = if k = slot then full else x.tagOf k := by
  unfold Tile.setTag Tile.tagOf
  by_cases hs : slot < 192
  · by_cases hk2 : k < 192
    · simp only [hs, hk2, if_true]
      exact getLsbD_setBit _ _ hk2
    · have apart : k ≠ slot := by omega
      simp only [hs, hk2, apart, if_true, if_false]
  · by_cases hk2 : k < 192
    · have apart : k ≠ slot := by omega
      simp only [hs, hk2, apart, if_true, if_false]
    · simp only [hs, hk2, if_false]
      rw [getLsbD_setBit _ _ (by omega)]
      have index : (k - 192 = slot - 192) = (k = slot) := by rw [eq_iff_iff]; omega
      simp only [index]

/-- A slot's tag after slots are set or cleared. -/
theorem tagOf_setTags (x : Tile) (slots : List Nat) (full : Bool) {k : Nat} (hk : k < 448) :
    (x.setTags slots full).tagOf k = if k ∈ slots then full else x.tagOf k := by
  unfold Tile.setTags
  induction slots generalizing x with
  | nil => simp
  | cons j js ih =>
    rw [List.foldl_cons, ih, tagOf_setTag x j full hk]
    by_cases h1 : k ∈ js
    · simp [h1]
    · simp [h1]

/-! ### Where an access lies (R106, R107, R113) -/

theorem memAt_isSome {a : Nat} (h : a < 0xA800 ∨ 0xB000 ≤ a ∧ a < 0xD000 ∨ 0xF000 ≤ a ∧ a < 0xF200) :
    (memAt a).isSome = true := by
  grind [memAt]

theorem accessible_of_range {a n : Nat}
    (h : a + n ≤ 0xA800 ∨ 0xB000 ≤ a ∧ a + n ≤ 0xD000 ∨ 0xF000 ≤ a ∧ a + n ≤ 0xF200) : accessible a n = true := by
  rw [accessible, List.all_eq_true]
  intro i hi
  have := List.mem_range.1 hi
  rw [Nat.mod_eq_of_lt (by omega)]
  exact memAt_isSome (by omega)

/-- A legal tagged access lies in AM outside the spillway, or in PM. -/
theorem range_of_tagSlots {a n : Nat} {sl : List Nat} (h : tagSlots a n = some sl) :
    0 < n ∧ (a + n ≤ 0xA800 ∨ 0xB000 ≤ a ∧ a + n ≤ 0xC000) := by
  unfold tagSlots at h
  split at h
  · exact nomatch h
  · split at h
    · exact ⟨by omega, .inl (by omega)⟩
    · split at h
      · exact ⟨by omega, .inr (by omega)⟩
      · exact nomatch h

/-! ### Local reads (R106, R107, R156, R159) -/

theorem needA_ok {s : State} {t : PT} {an : Nat} {y : Tile} (h : (s.tile t).need (fun w => decide (w = aWord an)) = .ok y) :
    s.needA t an = .ok (s.setTile t y) := by
  rw [State.needA, h]
  rfl

section
variable (t : PT) (h : Option LT) {a n : Nat} {x y : Tile} {d : List Byte}

/-- A read of a memory's bytes. -/
theorem readLocal_memory (ha : accessible a n = true) (hm : a < 0xF000) (hl : x.load a n = .ok (d, y)) :
    x.readLocal t h a n = .ok (d, y) := by
  rw [Tile.readLocal, if_neg (by simp [ha]), if_neg (by omega), hl]

/-- A read of whole tile registers. -/
theorem readLocal_registers (ha : accessible a n = true) (hr : 0xF000 ≤ a) (h8 : a % 8 = 0) (hn : n % 8 = 0)
    (hl : (x.need fun w => (List.range (n / 8)).any fun i => regWords (a - 0xF000 + 8 * i) w) = .ok y) :
    x.readLocal t h a n =
      .ok ((List.range (n / 8)).flatMap fun i => leBytes 8 (readTileReg t h y (a - 0xF000 + 8 * i)).toNat, y) := by
  rw [Tile.readLocal, if_neg (by simp [ha]), if_pos hr, if_neg (by omega), hl]
  rfl

theorem readLocal_inaccessible (ha : accessible a n = false) : x.readLocal t h a n = .error (.illegal 3) := by
  rw [Tile.readLocal, if_pos ha]

end

/-! ### Reads through an address register (R115, R117, R119, R128) -/

/-- POST: the address register moves on by its stride. -/
def Tile.posted (post : Bool) (an : Nat) (r : AddrReg) (x : Tile) : Tile := if post then x.setCur an (r.cur + r.stride) else x

/-- The tags of a tagged read's slots empty where it reaches them, unless KEEP. -/
def Tile.emptied (keep : Bool) (a n : Nat) (sl : List Nat) (x : Tile) : Tile :=
  if keep = false ∧ tagReaches a n = true then x.setTags sl false else x

theorem areg_emptied (keep : Bool) (a n : Nat) (sl : List Nat) (x : Tile) (an : Nat) :
    (x.emptied keep a n sl).areg an = x.areg an := by
  unfold Tile.emptied
  split
  · rw [Tile.areg, setTags_r, Tile.areg]
  · rfl

section
variable {s : State} {t : PT} {an n : Nat} {post keep : Bool} {x y : Tile} {d : List Byte}
  (hy : (s.tile t).need (fun w => decide (w = aWord an)) = .ok y)
include hy

/-- An untagged read. -/
theorem readMem_untagged (hr : y.readLocal t (s.hosted t) ((s.tile t).areg an).cur.toNat n = .ok (d, x)) (hx : CodeRead y x) :
    s.readMem t an n post false keep =
      .ok (d, (s.setTile t y).setTile t (x.posted post an ((s.tile t).areg an))) := by
  have areg := (need_codeRead hy).areg an
  simp only [State.readMem, needA_ok hy, R.ok_bind, State.tile_setTile_same, hosted_setTile, areg, Bool.false_and,
    Bool.false_eq_true, if_false, hr, hx.areg]
  cases post <;> rfl

/-- An untagged read that is illegal. -/
theorem readMem_untagged_error {e : Stop} (hr : y.readLocal t (s.hosted t) ((s.tile t).areg an).cur.toNat n = .error e) :
    s.readMem t an n post false keep = .error e := by
  have areg := (need_codeRead hy).areg an
  simp only [State.readMem, needA_ok hy, R.ok_bind, State.tile_setTile_same, hosted_setTile, areg, Bool.false_and,
    Bool.false_eq_true, if_false, hr]
  rfl

theorem readMem_unaligned (hs : tagSlots ((s.tile t).areg an).cur.toNat n = none) :
    s.readMem t an n post true keep = .error (.illegal 3) := by
  have areg := (need_codeRead hy).areg an
  simp only [State.readMem, needA_ok hy, R.ok_bind, State.tile_setTile_same, areg, if_true, taggedSlots, hs]
  rfl

variable {sl : List Nat} (hs : tagSlots ((s.tile t).areg an).cur.toNat n = some sl)
include hs

/-- A tagged read that must wait (R115, R119). -/
theorem readMem_waits (hw : y.mustWaitLocal sl true = true) : s.readMem t an n post true keep = .error (.tags 2 an sl) := by
  have areg := (need_codeRead hy).areg an
  simp only [State.readMem, needA_ok hy, R.ok_bind, State.tile_setTile_same, areg, if_true, taggedSlots, hs, hw, Bool.and_self]

/-- A tagged read that need not wait. -/
theorem readMem_tagged (hw : y.mustWaitLocal sl true = false) (hl : y.load ((s.tile t).areg an).cur.toNat n = .ok (d, x)) :
    s.readMem t an n post true keep = .ok (d, (s.setTile t y).setTile t
      ((x.emptied keep ((s.tile t).areg an).cur.toNat n sl).posted post an ((s.tile t).areg an))) := by
  have areg := (need_codeRead hy).areg an
  obtain ⟨-, range⟩ := range_of_tagSlots hs
  have reads := readLocal_memory t (s.hosted t) (accessible_of_range (by omega)) (by omega) hl
  have kept := areg_emptied keep ((s.tile t).areg an).cur.toNat n sl x an
  rw [(load_codeRead hl).areg, areg] at kept
  have empties : (if (!keep && tagReaches ((s.tile t).areg an).cur.toNat n) = true then x.setTags sl false else x) =
      x.emptied keep ((s.tile t).areg an).cur.toNat n sl := by
    simp only [Tile.emptied, Bool.and_eq_true, Bool.not_eq_true']
  simp only [State.readMem, needA_ok hy, R.ok_bind, State.tile_setTile_same, hosted_setTile, areg, if_true, taggedSlots, hs, hw,
    Bool.false_eq_true, if_false, reads, Bool.true_and, empties, kept]
  rfl

end

end Sys2Proof.Machine
end

section
/-! SUPPORT. The source operand of a queue, and the four kinds together (R128, R129, R174, R180). -/

namespace Sys2Proof.Machine

/-! ### A micro-op waits for tags (R115, R116, R119) -/

theorem mustWaitLocal_of_not_ready {x : Tile} {sl : List Nat} {full : Bool} (h : x.ready sl full = false) :
    x.mustWaitLocal sl full = true := by
  rw [Tile.mustWaitLocal, h]
  rfl

/-- Nothing waits at the tile: a micro-op whose slots are ready goes on. -/
theorem mustWaitLocal_of_ready {x : Tile} {sl : List Nat} {full : Bool} (h : x.ready sl full = true) (hp : x.q.parked = [])
    (hh : x.q.held = []) : x.mustWaitLocal sl full = false := by
  rw [Tile.mustWaitLocal, h, Tile.earlier, hp, hh, List.take_nil]
  rfl

/-! ### Looking at a queue (R174) -/

/-- The data entries before the first token. -/
def dataBefore (l : List QEntry) : Nat := (l.takeWhile fun e => !e.tok).length

theorem dataBefore_of_data {l : List QEntry} (h : ∀ e ∈ l, e.tok = false) : dataBefore l = l.length := by
  rw [dataBefore, List.takeWhile_eq_self_iff.2 fun e he => by rw [h e he]; rfl]

/-- What is looked at behind which nothing more is: the entries before the last are data. -/
theorem tok_dropLast_take {l : List QEntry} {e : QEntry} (h : e ∈ (l.take (dataBefore l + 1)).dropLast) : e.tok = false := by
  have front : (l.take (dataBefore l + 1)).dropLast <+: l.takeWhile fun e => !e.tok := by
    apply List.prefix_of_prefix_length_le ((List.dropLast_prefix _).trans (List.take_prefix _ _)) (List.takeWhile_prefix _)
    rw [List.length_dropLast, List.length_take, dataBefore]
    omega
  have data := List.mem_takeWhile_imp (front.subset h)
  simpa using data

/-- Data entries alone are looked at when no token is there. -/
theorem take_dataBefore_of_data {l : List QEntry} (h : ∀ e ∈ l.take (dataBefore l + 1), e.tok = false) :
    dataBefore l = l.length := by
  by_contra short
  have le : dataBefore l ≤ l.length := (List.takeWhile_prefix _).length_le
  have lt : dataBefore l < l.length := by omega
  have head : (l.drop (dataBefore l)) = l.dropWhile fun e => !e.tok := by
    have parts := List.takeWhile_append_dropWhile (p := fun e : QEntry => !e.tok) (l := l)
    calc l.drop (dataBefore l) = (l.takeWhile (fun e => !e.tok) ++ l.dropWhile fun e => !e.tok).drop (dataBefore l) := by rw [parts]
      _ = _ := List.drop_left' rfl
  have here : l[dataBefore l] ∈ l.take (dataBefore l + 1) := by
    rw [List.take_succ_eq_append_getElem lt]
    exact List.mem_append_right _ (List.mem_singleton_self _)
  have nonempty : (l.dropWhile fun e => !e.tok) ≠ [] := by
    rw [← head]
    simpa using lt
  have token := List.head_dropWhile_not (fun e : QEntry => !e.tok) nonempty
  have same : (l.dropWhile fun e => !e.tok).head nonempty = l[dataBefore l] := by
    simp only [← head, List.head_drop]
  rw [same, h _ here] at token
  exact absurd token (by decide)

section
variable {x y : Tile} {q k : Nat} {es : List QEntry}

/-- A look that succeeds gives the entries up to the first token, and `k` of them when there is none. -/
theorem look_spec (h : x.look q 0 k = .ok (es, y)) : let l := (x.queue q).visible.take k
    es = l.take (dataBefore l + 1) ∧ CodeRead x y ∧ (dataBefore l = l.length → l.length = k) := by
  unfold Tile.look at h
  dsimp only [List.drop_zero] at h
  split at h
  · exact nomatch h
  · next enough =>
    split at h
    · exact nomatch h
    · next read =>
      obtain ⟨rfl, rfl⟩ := Prod.mk.inj (Except.ok.inj h)
      refine ⟨rfl, checked_codeRead read, fun all => ?_⟩
      have : (List.take k (x.queue q).visible).length ≤ k := List.length_take_le _ _
      exact Nat.le_antisymm this (Nat.le_of_not_lt fun few => enough ⟨all, few⟩)

/-- Too few data entries and no token among them: the micro-op waits (BLK 1). -/
theorem look_waits (h : ∀ e ∈ (x.queue q).visible.take k, e.tok = false) (few : ((x.queue q).visible.take k).length < k) :
    x.look q 0 k = .error (.block 1 q) := by
  exact if_pos ⟨dataBefore_of_data h, few⟩

theorem readEntries_data (h : x.look q 0 k = .ok (es, y)) (data : ∀ e ∈ es, e.tok = false) :
    x.readEntries q k = .ok (es, y) := by
  rw [Tile.readEntries, h, R.ok_bind]
  cases last : es.getLast? with
  | none => rfl
  | some e => simp only [data e (List.mem_of_getLast? last), if_true]

/-- A read meets a token behind the data entries `b`. -/
theorem readEntries_token {b : List QEntry} {e : QEntry} (h : x.look q 0 k = .ok (b ++ [e], y)) (token : e.tok = true) :
    x.readEntries q k = .error (if e.kind = 4 then .flush q ((x.queue q).popped + b.length) else .illegal 1) := by
  rw [Tile.readEntries, h, R.ok_bind]
  simp only [List.getLast?_append, List.getLast?_singleton, Option.some_or, token, Bool.true_eq_false, if_false,
    List.length_append, List.length_singleton]
  split <;> rfl

end

/-! ### The four kinds (R128) -/

section
variable {s : State} {t : PT} {o : Ops} {n : Nat}

theorem readOp_vectors (h : opsKind o = 0) : s.readOp t o n = (do
    let x ← (s.tile t).need (vWords (opsNum o 32) (opN n)).contains
    .ok ((x.regs (opsNum o 32) (opN n)).take n, s.setTile t x)) := by
  rw [State.readOp, h]
  rfl

theorem readOp_memory (h : opsKind o = 1) :
    s.readOp t o n = s.readMem t (opsNum o 8) n (o.getLsbD 3) (o.getLsbD 4) (o.getLsbD 5) := by
  rw [State.readOp, h]
  rfl

theorem readOp_queue (h : opsKind o = 2) : s.readOp t o n = (do
    let r ← (s.tile t).readEntries (opsNum o 8) (opN n)
    .ok ((r.1.flatMap fun e => leBytes 16 e.data.toNat).take n,
      if o.getLsbD 3 then s.setTile t r.2 else (s.setTile t r.2).popN t (opsNum o 8) (opN n))) := by
  rw [State.readOp, h]
  rfl

theorem readOp_zeros (h : opsKind o = 3) : s.readOp t o n = .ok (List.replicate n 0, s) := by
  rw [State.readOp, h]
  rfl

end

theorem CodeRead.regs {x y : Tile} (h : CodeRead x y) (r n : Nat) : y.regs r n = x.regs r n := by
  rw [Tile.regs, h.r, Tile.regs]

/-- Settles O13: by the kind of the operand, through the rules of a look, a local read and a register read. -/
theorem sourceOperands : Obligations.SourceOperands := by
  unfold Obligations.SourceOperands
  intro s t o n
  refine ⟨readOp_zeros, fun h0 => ⟨fun x hx => ?_, fun e he => ?_⟩, fun h1 y hy => ?_, fun h2 => ⟨fun es x hl => ?_, fun data few => ?_⟩⟩
  · rw [readOp_vectors h0, opN, hx, R.ok_bind, (need_codeRead hx).regs]
  · rw [readOp_vectors h0, opN, he]
    rfl
  · rw [readOp_memory h1]
    refine ⟨fun h4 ha hm d x hl => ?_, fun h4 ha hr h8 hn x hl => ?_, fun h4 ha => ?_, fun h4 hs => ?_, fun h4 sl hs => ⟨fun hw => ?_, fun hw d x hl => ?_, fun hr => ?_, fun hr hp hh => ?_⟩⟩ <;>
      (try rw [h4])
    · exact readMem_untagged hy (readLocal_memory _ _ ha hm hl) (load_codeRead hl)
    · exact readMem_untagged hy (readLocal_registers _ _ ha hr h8 hn hl) (need_codeRead hl)
    · exact readMem_untagged_error hy (readLocal_inaccessible _ _ ha)
    · exact readMem_unaligned hy hs
    · exact readMem_waits hy hs hw
    · exact readMem_tagged hy hs hw hl
    · exact mustWaitLocal_of_not_ready (by rw [(need_codeRead hy).ready, hr])
    · have frame := need_codeRead hy
      exact mustWaitLocal_of_ready (by rw [frame.ready, hr]) (by rw [frame.q, hp]) (by rw [frame.q, hh])
  · obtain ⟨rfl, -, count⟩ := look_spec hl
    refine ⟨List.take_prefix _ _, fun e he => tok_dropLast_take he, fun data => ?_, fun b e split token => ?_⟩
    · have all := take_dataBefore_of_data data
      refine ⟨by rw [List.length_take, all, count all]; omega, ?_⟩
      rw [readOp_queue h2, opN, readEntries_data hl data, R.ok_bind]
    · rw [split] at hl
      rw [readOp_queue h2, opN, readEntries_token hl token]
      split <;> rfl
  · rw [readOp_queue h2, opN, Tile.readEntries, look_waits data few]
    rfl

end Sys2Proof.Machine
end

section
/-! SUPPORT. Proofs about destination operands (R106, R116, R117, R119, R128, R129, R137, R156). -/

namespace Sys2Proof.Machine

/-! ### Vector groups -/

/-- Writing a vector group changes the vector registers and the damage of the words that it covers. -/
theorem setRegs_frame (n : Nat) : ∀ (r : Nat) (d : List Byte) (x : Tile), x.setRegs r n d =
    { x with r := { x.r with v := (x.setRegs r n d).r.v }, defects := (x.setRegs r n d).defects } := by
  induction n with
  | zero => exact fun _ _ _ => rfl
  | succ n ih =>
    intro r d x
    rw [Tile.setRegs, ih]
    rfl

theorem get_setV_ne (x : Tile) {r j : Nat} (v : Quad) (h : j ≠ r) :
    Tab.get (0 : Quad) (x.setV r v).r.v j = Tab.get (0 : Quad) x.r.v j := Tab.get_set_ne _ _ _ h

/-- A register outside the group keeps its value. -/
theorem get_setRegs_other {j : Nat} (n : Nat) : ∀ {r : Nat} (d : List Byte) (x : Tile), (j < r ∨ r + n ≤ j) →
    Tab.get (0 : Quad) (x.setRegs r n d).r.v j = Tab.get (0 : Quad) x.r.v j := by
  induction n with
  | zero => exact fun _ _ _ => rfl
  | succ n ih =>
    intro r d x h
    rw [Tile.setRegs, ih _ _ (by omega), get_setV_ne _ _ (by omega)]

/-- Register `i` of the group holds bytes 16·i to 16·i + 15. -/
theorem get_setRegs (n : Nat) : ∀ (r i : Nat) (d : List Byte) (x : Tile), i < n →
    Tab.get (0 : Quad) (x.setRegs r n d).r.v (r + i) = BitVec.ofNat 128 (ofLe ((d.drop (16 * i)).take 16)) := by
  induction n with
  | zero => exact fun _ _ _ _ h => absurd h (Nat.not_lt_zero _)
  | succ n ih =>
    intro r i d x h
    rw [Tile.setRegs]
    cases i with
    | zero => exact (get_setRegs_other n _ _ (.inl (Nat.lt_succ_self r))).trans (get_setV ..)
    | succ i => rw [show r + (i + 1) = r + 1 + i by omega, ih _ _ _ _ (by omega), List.drop_drop, Nat.mul_succ, Nat.add_comm]

/-! ### Local writes (R106, R156) -/

theorem memAt_im {a : Nat} (h : memAt a = some .im) : 0xC000 ≤ a ∧ a < 0xD000 := by
  unfold memAt at h
  grind

theorem memAt_none {a : Nat} (h : 0xA800 ≤ a ∧ a < 0xB000 ∨ 0xD000 ≤ a ∧ a < 0xF000 ∨ 0xF200 ≤ a) : memAt a = none := by
  unfold memAt
  grind

section
variable (s : State) (t : PT) {a : Nat} (d : List Byte)

/-- No byte of the range lies in IM. -/
theorem no_im_of_range (h : a + d.length ≤ 0xC000 ∨ 0xD000 ≤ a ∧ a + d.length ≤ 0x10000) :
    ((List.range d.length).any fun i => decide (memAt ((a + i) % 0x10000) = some .im)) = false := by
  rw [List.any_eq_false]
  intro i hi
  have := List.mem_range.1 hi
  rw [Nat.mod_eq_of_lt (by omega), decide_eq_true_eq]
  intro im
  have := memAt_im im
  omega

/-- A write of WM, AM or PM. -/
theorem writeLocal_memory (h : a + d.length ≤ 0xA800 ∨ 0xB000 ≤ a ∧ a + d.length ≤ 0xC000) :
    s.writeLocal t a d = .ok (s.modTile t fun x => x.store a d) := by
  rw [State.writeLocal, no_im_of_range d (by omega), accessible_of_range (by omega), if_neg (by simp), if_neg (by omega)]

/-- A write of whole tile registers. -/
theorem writeLocal_registers (hl : 0xF000 ≤ a) (hh : a + d.length ≤ 0xF200) (h8 : a % 8 = 0) (hn : d.length % 8 = 0) :
    s.writeLocal t a d = .ok (s.writeRegs t (a - 0xF000) (d.length / 8) d) := by
  rw [State.writeLocal, no_im_of_range d (by omega), accessible_of_range (by omega), if_neg (by simp), if_pos hl,
    if_neg (by omega)]

/-- A write of IM, of the spillway or of a reserved address is illegal. -/
theorem writeLocal_illegal (hd : 0 < d.length) (ha : a < 0x10000)
    (h : 0xA800 ≤ a ∧ a < 0xB000 ∨ 0xC000 ≤ a ∧ a < 0xF000 ∨ 0xF200 ≤ a) : s.writeLocal t a d = .error (.illegal 3) := by
  have first := List.mem_range.2 hd
  have here : (a + 0) % 0x10000 = a := Nat.mod_eq_of_lt ha
  by_cases im : 0xC000 ≤ a ∧ a < 0xD000
  · refine if_pos (.inr (List.any_eq_true.2 ⟨0, first, ?_⟩))
    rw [here, decide_eq_true_eq]
    unfold memAt
    grind
  · refine if_pos (.inl (Bool.eq_false_iff.2 fun all => ?_))
    have found := List.all_eq_true.1 all 0 first
    rw [here, memAt_none (by omega)] at found
    exact absurd found (by decide)

end

/-! ### Writes through an address register (R116, R117, R128) -/

/-- The tags of a tagged write's slots fill where it reaches them. -/
def Tile.filled (tag : Bool) (a n : Nat) (sl : List Nat) (x : Tile) : Tile :=
  if tag && tagReaches a n then x.setTags sl true else x

theorem filled_frame (tag : Bool) (a n : Nat) (sl : List Nat) (x : Tile) : x.filled tag a n sl =
    { x with amTag := (x.filled tag a n sl).amTag, pmTag := (x.filled tag a n sl).pmTag } := by
  unfold Tile.filled
  split
  · exact setTags_frame ..
  · rfl

theorem tagOf_filled (a n : Nat) (sl : List Nat) (x : Tile) {k : Nat} (hk : k < 448) :
    (x.filled true a n sl).tagOf k = (x.tagOf k || (tagReaches a n && sl.contains k)) := by
  unfold Tile.filled
  cases tagReaches a n
  · simp
  · simp only [Bool.and_self, if_true, tagOf_setTags x sl true hk, Bool.true_and]
    by_cases h : k ∈ sl <;> simp [h]

theorem areg_setA (n : Nat) (a : AddrReg) (x : Tile) : (x.setA n a).areg n = a := Tab.get_set_same _ _ _ _

theorem posted_frame (post : Bool) (an : Nat) (r : AddrReg) (x : Tile) :
    x.posted post an r = { x with r := { x.r with a := (x.posted post an r).r.a }, defects := (x.posted post an r).defects } := by
  cases post <;> rfl

section
variable (post tag : Bool) (an a n : Nat) (r : AddrReg) (sl : List Nat) (x : Tile)
theorem posted_mem : (x.posted post an r).mem = x.mem := by rw [posted_frame]
theorem posted_queues : (x.posted post an r).queues = x.queues := by rw [posted_frame]
theorem posted_s : (x.posted post an r).s = x.s := by rw [posted_frame]
theorem posted_v : (x.posted post an r).r.v = x.r.v := by rw [posted_frame]
theorem filled_r : (x.filled tag a n sl).r = x.r := by rw [filled_frame]
theorem filled_mem : (x.filled tag a n sl).mem = x.mem := by rw [filled_frame]
theorem filled_queues : (x.filled tag a n sl).queues = x.queues := by rw [filled_frame]
theorem filled_s : (x.filled tag a n sl).s = x.s := by rw [filled_frame]
theorem filled_areg : (x.filled tag a n sl).areg an = x.areg an := by rw [Tile.areg, filled_r, Tile.areg]
end

theorem tagOf_posted (post : Bool) (an : Nat) (r : AddrReg) (x : Tile) (k : Nat) : (x.posted post an r).tagOf k = x.tagOf k := by
  rw [posted_frame]
  rfl

theorem cur_posted {post : Bool} {an : Nat} {r : AddrReg} {x : Tile} (h : x.areg an = r) :
    ((x.posted post an r).areg an).cur = if post then r.cur + r.stride else r.cur := by
  cases post
  · exact congrArg AddrReg.cur h
  · exact congrArg AddrReg.cur (areg_setA ..)

section
variable {s : State} {t : PT} {an : Nat} {d : List Byte} {post tag : Bool} {y : Tile}
  (hy : (s.tile t).need (fun w => decide (w = aWord an)) = .ok y)
include hy

/-- A write through an address register, once it need not wait. -/
theorem writeMem_go {sl : List Nat} (hs : (if tag then taggedSlots ((s.tile t).areg an).cur.toNat d.length else .ok []) = .ok sl)
    (hw : (tag && y.mustWaitLocal sl false) = false) :
    s.writeMem t an d post tag = (do
      let u ← (s.setTile t y).writeLocal t ((s.tile t).areg an).cur.toNat d
      .ok (u.modTile t fun x => (x.filled tag ((s.tile t).areg an).cur.toNat d.length sl).posted post an
        ((x.filled tag ((s.tile t).areg an).cur.toNat d.length sl).areg an))) := by
  have areg := (need_codeRead hy).areg an
  cases tag
  · cases hs
    simp only [State.writeMem, needA_ok hy, R.ok_bind, State.tile_setTile_same, areg]
    rfl
  · simp only [if_true, Bool.true_and] at hs hw
    simp only [State.writeMem, needA_ok hy, R.ok_bind, State.tile_setTile_same, areg, hs, hw, if_true, Bool.and_false,
      Bool.false_eq_true, if_false]
    rfl

theorem writeMem_waits {sl : List Nat} (hs : tagSlots ((s.tile t).areg an).cur.toNat d.length = some sl)
    (hw : y.mustWaitLocal sl false = true) : s.writeMem t an d post true = .error (.tags 3 an sl) := by
  have areg := (need_codeRead hy).areg an
  simp only [State.writeMem, needA_ok hy, R.ok_bind, State.tile_setTile_same, areg, if_true, taggedSlots, hs, hw, Bool.and_self]

/-- A write of WM, AM or PM through an address register: its bytes, its tags and POST. -/
theorem writeMem_memory {sl : List Nat} (hs : (if tag then taggedSlots ((s.tile t).areg an).cur.toNat d.length else .ok []) = .ok sl)
    (hw : (tag && y.mustWaitLocal sl false) = false)
    (range : ((s.tile t).areg an).cur.toNat + d.length ≤ 0xA800 ∨
      0xB000 ≤ ((s.tile t).areg an).cur.toNat ∧ ((s.tile t).areg an).cur.toNat + d.length ≤ 0xC000) :
    ∃ r, s.writeMem t an d post tag = .ok r ∧ OnlyTile t s r ∧
      r.tile t = ((y.store ((s.tile t).areg an).cur.toNat d).filled tag ((s.tile t).areg an).cur.toNat d.length sl).posted post an
        ((s.tile t).areg an) := by
  have areg := (need_codeRead hy).areg an
  refine ⟨_, by rw [writeMem_go hy hs hw, writeLocal_memory _ _ _ range, R.ok_bind],
    ((onlyTile_setTile ..).trans (onlyTile_modTile ..)).trans (onlyTile_modTile ..), ?_⟩
  rw [State.tile_modTile_same, State.tile_modTile_same, State.tile_setTile_same]
  congr 1
  exact (filled_areg ..).trans areg

end

section
variable {s : State} {t : PT} {o : Ops} {d : List Byte}

theorem writeOp_vectors (h : opsKind o = 0) :
    s.writeOp t o d = .ok (s.modTile t fun x => x.setRegs (opsNum o 32) (opN d.length) d) := by
  rw [State.writeOp, h]
  rfl

theorem writeOp_memory (h : opsKind o = 1) : s.writeOp t o d = s.writeMem t (opsNum o 8) d (o.getLsbD 3) (o.getLsbD 4) := by
  rw [State.writeOp, h]
  rfl

theorem writeOp_port (h : opsKind o = 2) : s.writeOp t o d =
    if ((s.tile t).port (opsNum o 16)).kind = 1 ∨ ((s.tile t).port (opsNum o 16)).kind = 2 then s.sendWrite t (opsNum o 16) d
    else s.sendEntries t (opsNum o 16) (flitsOf (opN d.length) d) false := by
  rw [State.writeOp, h]
  rfl

theorem writeOp_discard (h : opsKind o = 3) : s.writeOp t o d = .ok s := by
  rw [State.writeOp, h]
  rfl

end

/-- Settles O14: by the kind of the operand; a write through an address register goes through the rule of a local write. -/
theorem destinationOperands : Obligations.DestinationOperands := by
  unfold Obligations.DestinationOperands
  intro s t o d
  refine ⟨writeOp_discard, writeOp_port, fun h0 _ => ?_, fun h1 y hy => ?_⟩
  · refine ⟨_, writeOp_vectors h0, onlyTile_modTile .., ?_⟩
    rw [State.tile_modTile_same]
    exact ⟨fun i hi => get_setRegs _ _ _ _ _ hi, fun j hj => get_setRegs_other _ _ _ hj, setRegs_frame ..⟩
  · have code := need_codeRead hy
    have areg := code.areg (opsNum o 8)
    rw [writeOp_memory h1]
    refine ⟨fun range go => ?_, fun h4 hl hh h8 hn => ?_, fun h4 hd bad => ?_, fun sl h4 hs hw => ?_⟩
    · obtain ⟨sl, hs, hw⟩ : ∃ sl, (if o.getLsbD 4 then taggedSlots ((s.tile t).areg (opsNum o 8)).cur.toNat d.length else .ok []) =
          (.ok sl : R (List Nat)) ∧ (o.getLsbD 4 && y.mustWaitLocal sl false) = false := by
        rcases go with h4 | ⟨sl, hs, hw⟩
        · exact ⟨[], by rw [h4]; rfl, by rw [h4]; rfl⟩
        · cases o.getLsbD 4
          · exact ⟨[], rfl, rfl⟩
          · exact ⟨sl, by rw [if_pos rfl, taggedSlots, hs], hw⟩
      obtain ⟨r, run, only, tile⟩ := writeMem_memory (post := o.getLsbD 3) hy hs hw range
      refine ⟨r, run, only, ?_, fun b hb => ?_, ?_, ?_, ?_, ?_, fun sl' k h4 hs' hk => ?_⟩ <;> rw [tile]
      · rw [posted_mem, filled_mem]
        exact memRead_memWrite_same ..
      · rw [posted_mem, filled_mem]
        exact (get_memWrite ..).trans ((if_neg (by omega)).trans (by rw [code.mem]))
      · exact cur_posted ((filled_areg ..).trans areg)
      · rw [posted_v, filled_r]
        exact congrArg TileRegs.v code.r
      · rw [posted_queues, filled_queues]
        exact code.queues
      · rw [posted_s, filled_s]
        exact code.s
      · rw [h4, if_pos rfl, taggedSlots, hs'] at hs
        cases hs
        rw [tagOf_posted, h4, tagOf_filled _ _ _ _ hk]
        exact congrArg (· || _) (code.tagOf k)
    · rw [h4, writeMem_go hy rfl rfl, writeLocal_registers _ _ _ hl hh h8 hn]
      rfl
    · rw [h4, writeMem_go hy rfl rfl, writeLocal_illegal _ _ _ hd (BitVec.isLt _) bad]
      rfl
    · rw [h4]
      exact writeMem_waits hy hs hw

end Sys2Proof.Machine
end

section
/-!
SUPPORT. Proofs about sends through a port (R137, R160, R167 to R170, R200, R277, R278, R293, R295, R303).
-/

namespace Sys2Proof.Machine

/-! ### Bytes of a string and of its number -/

theorem padTo_nil (n : Nat) : padTo n [] = List.replicate n 0 := by
  rw [padTo, List.nil_append, List.length_nil, Nat.sub_zero, List.take_replicate, Nat.min_self]

theorem padTo_cons (n : Nat) (b : Byte) (d : List Byte) : padTo (n + 1) (b :: d) = b :: padTo n d := by
  rw [padTo, padTo, List.length_cons, Nat.add_sub_add_right, List.cons_append, List.take_succ_cons]

theorem padTo_add (m n : Nat) (d : List Byte) : padTo (m + n) d = padTo m d ++ padTo n (d.drop m) := by
  induction m generalizing d with
  | zero => rw [Nat.zero_add, List.drop_zero]; rfl
  | succ m ih =>
    cases d with
    | nil => rw [List.drop_nil, padTo_nil, padTo_nil, padTo_nil, List.replicate_add]
    | cons b d => rw [Nat.succ_add, padTo_cons, padTo_cons, ih, List.drop_succ_cons, List.cons_append]

/-- The bytes of the number of a string are the string. -/
theorem leBytes_ofLe (n : Nat) (d : List Byte) : leBytes n (ofLe d) = padTo n d := by
  induction n generalizing d with
  | zero => rfl
  | succ n ih =>
    cases d with
    | nil =>
      have zeros := ih []
      rw [padTo_nil] at zeros ⊢
      rw [List.replicate_succ, ← zeros]
      rfl
    | cons b r =>
      have hb : b.toNat < 256 := b.isLt
      have low : BitVec.ofNat 8 (b.toNat + 256 * ofLe r) = b := BitVec.eq_of_toNat_eq (by
        rw [BitVec.toNat_ofNat, Nat.add_mul_mod_self_left, Nat.mod_eq_of_lt hb])
      rw [leBytes, ofLe, low, Nat.add_mul_div_left _ _ (by decide), Nat.div_eq_of_lt hb, Nat.zero_add, ih, padTo_cons]

/-- The 16 bytes of a word made from the first bytes of a string. -/
theorem leBytes_word (d : List Byte) : leBytes 16 (BitVec.ofNat 128 (ofLe (d.take 16))).toNat = padTo 16 d := by
  have small : ofLe (d.take 16) < 2 ^ 128 :=
    calc ofLe (d.take 16) = ofLe d % 256 ^ 16 := ofLe_take 16 d
      _ < 2 ^ 128 := Nat.mod_lt _ (by decide)
  rw [BitVec.toNat_ofNat, Nat.mod_eq_of_lt small, leBytes_ofLe, padTo, padTo]
  rcases Nat.le_total d.length 16 with h | h
  · rw [List.take_of_length_le h]
  · rw [List.length_take, Nat.min_eq_left h, Nat.sub_self, Nat.sub_eq_zero_of_le h, List.replicate_zero, List.append_nil,
      List.append_nil, List.take_take, Nat.min_self]

/-- Body flits hold the bytes of their string, and zeros behind it. -/
theorem data_flitsOf (n : Nat) (d : List Byte) :
    ((flitsOf n d).flatMap fun f => leBytes 16 f.data.toNat) = padTo (16 * n) d := by
  induction n generalizing d with
  | zero => rfl
  | succ n ih => rw [flitsOf, List.flatMap_cons, ih, leBytes_word, ← padTo_add, Nat.mul_succ, Nat.add_comm]

/-! ### Frames of sends -/

theorem OnlyTile.net {t : PT} {s r : State} (h : OnlyTile t s r) : OnlyTileNet t s r := by
  have same : ({ s with comp := { s.comp with net := r.comp.net, fresh := r.comp.fresh } } : State) = s := by rw [h.1]
  rw [OnlyTileNet, same]
  exact h

theorem OnlyTileNet.trans {t : PT} {a b c : State} (h : OnlyTileNet t a b) (k : OnlyTileNet t b c) : OnlyTileNet t a c := by
  refine ⟨?_, fun u hu => (k.2 u hu).trans (h.2 u hu)⟩
  rw [k.1, h.1]

theorem onlyTileNet_send (t : PT) (s : State) (p : Packet) : OnlyTileNet t s (s.send p) := ⟨rfl, fun _ _ => rfl⟩

/-- Packets are sent one after another. -/
theorem foldl_send (ps : List Packet) (s : State) : ps.foldl (fun s p => s.send p) s =
    { s with comp := { s.comp with net := s.comp.net ++ ps, fresh := s.comp.fresh ++ ps } } := by
  induction ps generalizing s with
  | nil => simp
  | cons p ps ih =>
    rw [List.foldl_cons, ih]
    simp [State.send]

theorem onlyTileNet_foldl_send (t : PT) (ps : List Packet) (s : State) : OnlyTileNet t s (ps.foldl (fun s p => s.send p) s) := by
  rw [foldl_send]
  exact ⟨rfl, fun _ _ => rfl⟩

/-- Sends to logical tiles that all have a scarf entry. -/
theorem foldl_sendTo {α : Type} (t : PT) (g : α → LT) (mk : α → PT → Bool → Packet) (cs : List α) (s : State)
    (h : ∀ c ∈ cs, ((s.router t).scarf (g c)).isSome = true) :
    cs.foldl (fun s c => s.sendTo t (g c) (mk c)) s =
      (cs.filterMap fun c => ((s.router t).scarf (g c)).map fun d => mk c d.1 d.2).foldl (fun s p => s.send p) s := by
  induction cs generalizing s with
  | nil => rfl
  | cons c cs ih =>
    obtain ⟨d, hd⟩ := Option.isSome_iff_exists.1 (h c (List.mem_cons_self ..))
    have sent : s.sendTo t (g c) (mk c) = s.send (mk c d.1 d.2) := by rw [State.sendTo, hd]
    rw [List.foldl_cons, sent, ih (s.send _) fun c' hc' => h c' (List.mem_cons_of_mem _ hc'), List.filterMap_cons, hd]
    rfl

/-! ### Ports -/

section
variable (x : Tile) (n : Nat) (f : Port → Port)
theorem port_modPort_same : (x.modPort n f).port n = f (x.port n) := Tab.get_set_same _ _ _ _
theorem port_modPort_ne {m : Nat} (h : m ≠ n) : (x.modPort n f).port m = x.port m := Tab.get_set_ne _ _ _ h
end

/-- A port that nobody asked to close does not hold. -/
theorem holdPort_open {s : State} {t : PT} {n : Nat} (h : ((s.tile t).port n).prod.closing = none) : s.holdPort t n = s := by
  rw [State.holdPort, Producer.mustHold, h]
  rfl

theorem spends {p : Producer} {k : Nat} (held : p.held = false) (credit : k ≤ p.credits) :
    ¬ (p.held || decide (p.credits < k)) = true := by simp [held, credit]

/-- The state whose port has spent its credits for `k` entries. -/
def State.spent (t : PT) (n k : Nat) (stop : Bool) (s : State) : State :=
  s.modTile t fun x => x.modPort n fun p => { p with prod := p.prod.sentN k stop }

theorem holdPort_spent {s : State} {t : PT} {n k : Nat} {stop : Bool} (h : ((s.tile t).port n).prod.closing = none) :
    (s.spent t n k stop).holdPort t n = s.spent t n k stop := by
  apply holdPort_open
  rw [State.spent, State.tile_modTile_same, port_modPort_same]
  exact h

section
variable {s : State} {t : PT} {n : Nat} {body : List Flitem} {stop : Bool}

/-- No credit, or held: the micro-op waits (BLK 4). -/
theorem sendEntries_waits (h : ((s.tile t).port n).prod.held = true ∨ ((s.tile t).port n).prod.credits < body.length) :
    s.sendEntries t n body stop = .error (.block 4 n) := by
  refine if_pos ?_
  rcases h with h | h <;> simp [h]

variable (held : ((s.tile t).port n).prod.held = false) (credit : body.length ≤ ((s.tile t).port n).prod.credits)
include held credit

theorem sendEntries_queue_miss (kind : ((s.tile t).port n).kind ≠ 3) (hs : (s.router t).scarf ((s.tile t).port n).lt = none) :
    s.sendEntries t n body stop = .error (.scarf ((s.tile t).port n).lt 4 n) := by
  rw [State.sendEntries, if_neg (spends held credit), if_neg kind, hs]

theorem sendEntries_fountain_miss {f : FountRec} {c : Nat × FountNode} (kind : ((s.tile t).port n).kind = 3)
    (hf : s.fountRow t (((s.tile t).port n).addr % 4096) = some f)
    (hc : ((f.children 0).find? fun c => ((s.router t).scarf c.2.t).isNone) = some c) :
    s.sendEntries t n body stop = .error (.scarf c.2.t 4 n) := by
  simp only [State.sendEntries, if_neg (spends held credit), if_pos kind, hf, hc]

variable (going : ((s.tile t).port n).prod.closing = none)
include going

/-- Through a queue port: one QSEND. -/
theorem sendEntries_queue {h : PT} {dep : Bool} (kind : ((s.tile t).port n).kind ≠ 3)
    (hs : (s.router t).scarf ((s.tile t).port n).lt = some (h, dep)) :
    s.sendEntries t n body stop = .ok ((s.spent t n body.length stop).send
      { op := opQsend, dst := .tile h, src := .tile t, tag := 0,
        addr := BitVec.ofNat 16 (((s.tile t).port n).addr % 8 + 8 * flag ((s.tile t).port n).prod.phase),
        seq := ((s.tile t).port n).prod.seq, ep := dep, ext := 0, part := s.ptPart t, body := body }) := by
  have hold := holdPort_spent (k := body.length) (stop := stop) going
  rw [State.spent] at hold
  simp only [State.sendEntries, if_neg (spends held credit), if_neg kind, hs, hold, State.spent]

/-- Through a fountain port: what node 0 does with the entries. -/
theorem sendEntries_fountain {f : FountRec} (kind : ((s.tile t).port n).kind = 3)
    (hf : s.fountRow t (((s.tile t).port n).addr % 4096) = some f)
    (hc : ∀ c ∈ f.children 0, ((s.router t).scarf c.2.t).isSome = true) :
    s.sendEntries t n body stop = .ok ((s.spent t n body.length stop).fountAt (s.ptPart t) f 0
      ((s.tile t).port n).prod.seq ((s.tile t).port n).prod.phase body) := by
  have hold := holdPort_spent (k := body.length) (stop := stop) going
  have none_missing : ((f.children 0).find? fun c => ((s.router t).scarf c.2.t).isNone) = none := by
    rw [List.find?_eq_none]
    intro c hm
    have := hc c hm
    simpa [Option.isSome_iff_ne_none] using this
  rw [State.spent] at hold
  simp only [State.sendEntries, if_neg (spends held credit), if_pos kind, hf, none_missing, hold, State.spent]

end

/-! ### What a send leaves -/

theorem port_spent_same (s : State) (t : PT) (n k : Nat) (stop : Bool) : ((s.spent t n k stop).tile t).port n =
    { (s.tile t).port n with prod := ((s.tile t).port n).prod.sentN k stop } := by
  rw [State.spent, State.tile_modTile_same, port_modPort_same]

theorem port_spent_ne (s : State) (t : PT) {n m : Nat} (k : Nat) (stop : Bool) (h : m ≠ n) :
    ((s.spent t n k stop).tile t).port m = (s.tile t).port m := by
  rw [State.spent, State.tile_modTile_same, port_modPort_ne _ _ _ h]

theorem tile_spent_frame (s : State) (t : PT) (n k : Nat) (stop : Bool) : (s.spent t n k stop).tile t =
    { s.tile t with r := { (s.tile t).r with ports := ((s.spent t n k stop).tile t).r.ports } } := by
  rw [State.spent, State.tile_modTile_same]
  rfl

theorem onlyTile_spent (s : State) (t : PT) (n k : Nat) (stop : Bool) : OnlyTile t s (s.spent t n k stop) := onlyTile_modTile ..

/-- What node 0 of a fountain does at the tile that runs it. -/
theorem fountAt_root {s : State} {t : PT} {f : FountRec} {nd : FountNode} {sq : BitVec 4} {phase : Bool} {body : List Flitem} {p : Nat}
    (hn : f.nodes[0]? = some nd) (here : s.runsAt nd.t = t) (hc : ∀ c ∈ f.children 0, ((s.router t).scarf c.2.t).isSome = true) :
    ∃ r, s.fountAt p f 0 sq phase body = (if nd.leaf then r.acceptAll t nd.q phase (s.router t).ep sq body else r) ∧
      r = ((f.children 0).filterMap fun c => ((s.router t).scarf c.2.t).map fun d =>
          ({ op := opFount, dst := .tile d.1, src := .tile t, tag := 0, addr := BitVec.ofNat 16 (f.fid + 4096 * flag phase),
             seq := sq, ep := d.2, ext := 0, part := p, body := body } : Packet)).foldl (fun s p => s.send p) s := by
  refine ⟨_, ?_, rfl⟩
  have sends := foldl_sendTo t (fun c : Nat × FountNode => c.2.t) (fun _ d dep =>
    ({ op := opFount, dst := .tile d, src := .tile t, tag := 0, addr := BitVec.ofNat 16 (f.fid + 4096 * flag phase),
       seq := sq, ep := dep, ext := 0, part := p, body := body } : Packet)) (f.children 0) s hc
  rw [State.fountAt, hn]
  dsimp only
  rw [here, sends, foldl_send]
  rfl

/-! ### Requests of a tile (R277) -/

theorem tile_request (s : State) (t : PT) (p : Packet) : (s.request t p).tile t =
    { s.tile t with q := { (s.tile t).q with out := (s.tile t).q.out ++ [{ p with tag := (s.tile t).q.tag }],
                                             tag := (s.tile t).q.tag + 1 } } := by
  rw [State.request, tile_send, State.tile_modTile_same]

theorem onlyTileNet_request (s : State) (t : PT) (p : Packet) : OnlyTileNet t s (s.request t p) :=
  (onlyTile_modTile ..).net.trans (onlyTileNet_send ..)

/-- The cursor after a write, as one number. -/
theorem advance_eq (n : Nat) (p : Port) : p.advance n =
    { p with cursor := BitVec.ofNat 16 (if p.wrap ≠ 0 ∧ p.addr + p.wrap * 64 ≤ p.cursor.toNat + n then p.addr else p.cursor.toNat + n) } := by
  unfold Port.advance
  split
  · next back => rw [if_pos back]
  · next on => rw [if_neg on]

/-- Settles O15: the rules of the sends, one for each kind of port. -/
theorem portSends : Obligations.PortSends := by
  unfold Obligations.PortSends
  intro s t n
  refine ⟨fun body stop h dep kind held credit going hs => ?_, fun body stop f nd kind held credit going hf hn here hc => ?_,
    fun body stop => sendEntries_waits, fun body stop kind held credit => sendEntries_queue_miss held credit kind,
    fun body stop f c kind held credit hf => sendEntries_fountain_miss held credit kind hf, fun d h dep hs => ?_, fun d hs => ?_⟩
  · refine ⟨_, sendEntries_queue held credit going kind hs, ?_, fun m hm => ?_, ⟨_, rfl, rfl, ?_⟩,
      (onlyTile_spent ..).net.trans (onlyTileNet_send ..), ?_⟩
    · rw [tile_send]; exact port_spent_same ..
    · rw [tile_send]; exact port_spent_ne _ _ _ _ hm
    · exact ⟨rfl, rfl, rfl, rfl, rfl, rfl, rfl⟩
    · rw [tile_send]; exact tile_spent_frame ..
  · obtain ⟨r, at_root, sent⟩ := fountAt_root (s := s.spent t n body.length stop) (sq := ((s.tile t).port n).prod.seq)
      (phase := ((s.tile t).port n).prod.phase) (body := body) (p := s.ptPart t) hn here hc
    have only := onlyTileNet_foldl_send t ((f.children 0).filterMap fun c => ((s.router t).scarf c.2.t).map fun d =>
      ({ op := opFount, dst := .tile d.1, src := .tile t, tag := 0,
         addr := BitVec.ofNat 16 (f.fid + 4096 * flag ((s.tile t).port n).prod.phase),
         seq := ((s.tile t).port n).prod.seq, ep := d.2, ext := 0, part := s.ptPart t, body := body } : Packet))
      (s.spent t n body.length stop)
    have tile : r.tile t = (s.spent t n body.length stop).tile t := by rw [sent, foldl_send]; rfl
    refine ⟨r, by rw [sendEntries_fountain held credit going kind hf hc, at_root]; rfl, ?_, fun m hm => ?_, ?_, ?_, ?_⟩
    · rw [tile]; exact port_spent_same ..
    · rw [tile]; exact port_spent_ne _ _ _ _ hm
    · rw [sent, foldl_send]; rfl
    · rw [sent]; exact (onlyTile_spent ..).net.trans only
    · rw [tile]; exact tile_spent_frame ..
  · refine ⟨_, by rw [State.sendWrite, hs], ?_⟩
    rw [State.tile_modTile_same, tile_request]
    refine ⟨(port_modPort_same ..).trans (advance_eq ..), fun m hm => port_modPort_ne _ _ _ hm,
      ⟨_, rfl, rfl, rfl, ?_⟩, rfl, rfl, rfl, rfl, (onlyTileNet_request ..).trans (onlyTile_modTile ..).net⟩
    exact ⟨rfl, rfl, rfl, rfl, rfl, rfl, data_flitsOf ..⟩
  · rw [State.sendWrite, hs]

end Sys2Proof.Machine
end

section
/-! SUPPORT. Proofs about the data movements MOV, LDS, SETA, ADDA, TAGS, RGET and RREG (R128, R137, R138, R147, R156, R161). -/

namespace Sys2Proof.Machine

/-! ### A corrected word on the way changes no packet -/

theorem comp_ceHigh (s : State) (t : PT) (x : Tile) :
    (s.ceHigh t x).comp = { s.comp with tiles := (s.ceHigh t x).comp.tiles } := by
  rcases ceHigh_spec s t x with h | ⟨u, p, ops, raised, h⟩
  · rw [h]
  · rw [h, ← raised.comp (by decide)]
    rfl

theorem net_ceHigh (s : State) (t : PT) (x : Tile) : (s.ceHigh t x).comp.net = s.comp.net := by rw [comp_ceHigh]
theorem fresh_ceHigh (s : State) (t : PT) (x : Tile) : (s.ceHigh t x).comp.fresh = s.comp.fresh := by rw [comp_ceHigh]

theorem OnlyTile.comp_net {t : PT} {s r : State} (h : OnlyTile t s r) : r.comp.net = s.comp.net := by rw [h.1]
theorem OnlyTile.comp_fresh {t : PT} {s r : State} (h : OnlyTile t s r) : r.comp.fresh = s.comp.fresh := by rw [h.1]

/-! ### Address registers and tags -/

theorem areg_setA_ne (x : Tile) {n b : Nat} (a : AddrReg) (h : b ≠ n) : (x.setA n a).areg b = x.areg b := Tab.get_set_ne _ _ _ h

theorem setA_frame (x : Tile) (n : Nat) (a : AddrReg) :
    x.setA n a = { x with r := { x.r with a := (x.setA n a).r.a }, defects := (x.setA n a).defects } := rfl

theorem setV_frame (x : Tile) (n : Nat) (v : Quad) :
    x.setV n v = { x with r := { x.r with v := (x.setV n v).r.v }, defects := (x.setV n v).defects } := rfl

/-- The slots from `k` to `k + n − 1`. -/
theorem mem_slots {k n j : Nat} : (j ∈ (List.range n).map fun i => k + i) ↔ k ≤ j ∧ j < k + n := by
  simp only [List.mem_map, List.mem_range]
  constructor
  · rintro ⟨i, hi, rfl⟩
    omega
  · exact fun h => ⟨j - k, by omega, by omega⟩

/-! ### The effects -/

section
variable {s : State} {t : PT}

theorem movBody_ok {dst src : Ops} {w : BitVec 2} {d : List Byte} {s1 s2 : State}
    (hr : s.readOp t src (16 * (w.toNat + 1)) = .ok (d, s1)) (hw : s1.writeOp t dst d = .ok s2) :
    movBody t dst src w s = .ok (s2.next t 0x08) := by
  rw [movBody, wBytes, hr, R.ok_bind, hw, R.ok_bind]

theorem ldsBody_ok {sel now : Bool} {len : BitVec 4} {src : Ops} {d : List Byte} {s1 : State}
    (hr : s.readOp t src 16 = .ok (d, s1)) :
    ldsBody t sel now len src s = .ok ((s1.modTile t fun x =>
      let x := x.rewritten fun w => decide (w = kWord sel (!now) 0 ∨ w = kWord sel (!now) 1)
      if sel then { x with r := { x.r with k1 := loadScale now (if len.toNat = 0 then 16 else len.toNat) d x.r.k1 } }
      else { x with r := { x.r with k0 := loadScale now (if len.toNat = 0 then 16 else len.toNat) d x.r.k0 } }).next t 0x09) := by
  rw [ldsBody, hr, R.ok_bind]

section
variable {an : BitVec 3} {y : Tile} (hy : (s.tile t).need (fun w => decide (w = aWord an.toNat)) = .ok y)
include hy

theorem addaBody_ok (imm : BitVec 16) : addaBody t an imm s = .ok (((s.setTile t y).modTile t fun x =>
    x.setCur an.toNat ((x.areg an.toNat).cur + imm)).next t 0x0B) := by
  rw [addaBody, needA_ok hy, R.ok_bind]

theorem tagsBody_ok (full : Bool) {count : BitVec 8} {k : Nat} (hk : slotAt ((s.tile t).areg an.toNat).cur.toNat = some k)
    (hn : let n := if count.toNat = 0 then 256 else count.toNat; k + n ≤ 160 ∨ 192 ≤ k ∧ k + n ≤ 448) :
    tagsBody t an full count s = .ok (((s.setTile t y).modTile t fun x => x.setTags
      ((List.range (if count.toNat = 0 then 256 else count.toNat)).map fun i => k + i) full).next t 0x0C) := by
  have one : 0 < if count.toNat = 0 then 256 else count.toNat := by split <;> omega
  have areg := (need_codeRead hy).areg an.toNat
  rw [tagsBody, needA_ok hy, R.ok_bind, State.tile_setTile_same, areg, hk]
  exact if_pos (hn.imp (fun h => ⟨by omega, h⟩) id)

end

theorem ptPart_sentAndWaits (blk arg : Nat) (u : PT) : (s.sentAndWaits t blk arg).ptPart u = s.ptPart u :=
  (ptPart_blocked ..).trans (ptPart_modTile ..)

/-- RGET whose answer has not been asked for: a raw read is on its way, and the tile waits (BLK 5). -/
theorem rgetBody_asks {port : BitVec 4} {dst : Ops} {w : BitVec 2} {off : BitVec 16} {h : PT} {dep : Bool}
    (ha : (s.tile t).s.arrived = false) (hk : ((s.tile t).port port.toNat).kind = 1 ∨ ((s.tile t).port port.toNat).kind = 2)
    (hs : (s.router t).scarf ((s.tile t).port port.toNat).lt = some (h, dep)) :
    rgetBody t port dst w off s = .ok ((s.sentAndWaits t 5 port.toNat).request t
      { op := opRdRaw, dst := .tile h, src := .tile t, tag := 0,
        addr := BitVec.ofNat 16 (((s.tile t).port port.toNat).addr + off.toNat), seq := 0, ep := dep,
        ext := BitVec.ofNat 48 (wBytes w), part := s.ptPart t, body := [] }) := by
  have memory : ¬ (((s.tile t).port port.toNat).kind ≠ 1 ∧ ((s.tile t).port port.toNat).kind ≠ 2) := by omega
  unfold rgetBody
  dsimp only
  rw [if_neg (by rw [ha]; decide), if_neg memory, hs]
  dsimp only
  rw [ptPart_sentAndWaits]

theorem rgetBody_answered {port : BitVec 4} {dst : Ops} {w : BitVec 2} {off : BitVec 16} {d : List Byte} {s2 : State}
    (ha : (s.tile t).s.arrived = true) (hg : (s.tile t).q.got = some d) (hw : s.writeOp t dst d = .ok s2) :
    rgetBody t port dst w off s = .ok (s2.next t 0x0D) := by
  simp only [rgetBody, ha, if_true, hg, hw]
  rfl

theorem rregBody_ok {v : BitVec 5} {reg : BitVec 6} {y : Tile} (hy : (s.tile t).need (regWords (8 * reg.toNat)) = .ok y) :
    rregBody t v reg s = .ok (((s.setTile t y).modTile t fun x => x.setV v.toNat
      ((readTileReg t (s.hosted t) y (8 * reg.toNat)).setWidth 128)).next t 0x1C) := by
  rw [rregBody, hy, R.ok_bind]
  simp only [State.tile_setTile_same, hosted_setTile]

theorem net_request (p : Packet) : (s.request t p).comp.net = s.comp.net ++ [{ p with tag := (s.tile t).q.tag }] := rfl
theorem fresh_request (p : Packet) : (s.request t p).comp.fresh = s.comp.fresh ++ [{ p with tag := (s.tile t).q.tag }] := rfl

/-- What a read asks for. -/
theorem pkBytes_read (w : BitVec 2) (p : Packet) : pkBytes { p with op := opRdRaw, ext := BitVec.ofNat 48 (wBytes w) } =
    16 * (w.toNat + 1) := by
  have small : 16 * (w.toNat + 1) < 2 ^ 48 := by omega
  exact Nat.mod_eq_of_lt small

/-- A micro-op that has been sent and waits. -/
theorem sentAndWaits_parts (s : State) (t : PT) (blk arg : Nat) : let y := (s.sentAndWaits t blk arg).tile t
    OnlyTile t s (s.sentAndWaits t blk arg) ∧ y.s.seq = .blocked ∧ y.s.blk = blk ∧ y.s.blkarg = arg ∧ y.s.arrived = true ∧
      y.s.pc = (s.tile t).s.pc ∧ y.r = (s.tile t).r ∧ y.mem = (s.tile t).mem ∧ y.q = (s.tile t).q := by
  obtain ⟨only, same⟩ := blocked_spec (s.modTile t fun x => { x with s := { x.s with arrived := true } }) t blk arg
  rw [State.tile_modTile_same, ← State.sentAndWaits] at same
  refine ⟨(onlyTile_modTile ..).trans only, ?_, ?_, ?_, ?_, ?_, ?_, ?_, ?_⟩ <;> rw [same]

end

/-- Settles O16: where each is fetched, its effect is that of its rule above. -/
theorem dataMovementCompletes : Obligations.DataMovementCompletes := by
  unfold Obligations.DataMovementCompletes
  intro s t x
  have here : (s.setTile t x).tile t = x := State.tile_setTile_same ..
  have only := onlyTile_setTile s t x
  refine ⟨fun dst src w d s1 s2 hf hr hw => exec_uop_of_fetches hf (movBody_ok hr hw),
    fun sel now len src d s1 hf hr => ?lds, fun a base stride hf => ?seta, fun a imm y hf hy => ?adda,
    fun a full count k y hf hy hk hn => ?tags, fun port dst w off h dep hf ha hk hs => ?asks,
    fun port dst w off d s2 hf ha hg hw => ?answered, fun v reg y hf hy => ?rreg⟩
  case lds =>
    refine (exec_uop_of_fetches hf (ldsBody_ok hr)).trans ?_
    cases sel <;> cases now <;> rfl
  case seta =>
    refine ⟨_, exec_uop_of_fetches hf rfl, ?_⟩
    rw [State.tile_modTile_same, here]
    exact ⟨areg_setA .., fun b hb => areg_setA_ne _ _ hb, setA_frame .., only.trans (onlyTile_modTile ..)⟩
  case adda =>
    have areg := (need_codeRead hy).areg
    refine ⟨_, exec_uop_of_fetches hf (addaBody_ok (by rw [here]; exact hy) imm), ?_⟩
    rw [State.tile_modTile_same, State.tile_setTile_same, Tile.setCur, areg]
    exact ⟨areg_setA .., fun b hb => (areg_setA_ne _ _ hb).trans (areg b), setA_frame ..,
      (only.trans (onlyTile_setTile ..)).trans (onlyTile_modTile ..)⟩
  case tags =>
    refine ⟨_, exec_uop_of_fetches hf (tagsBody_ok (by rw [here]; exact hy) full (by rw [here]; exact hk) hn), ?_⟩
    rw [State.tile_modTile_same, State.tile_setTile_same]
    refine ⟨fun j hj => ?_, setTags_frame .., (only.trans (onlyTile_setTile ..)).trans (onlyTile_modTile ..)⟩
    rw [tagOf_setTags _ _ _ hj, (need_codeRead hy).tagOf]
    simp only [mem_slots]
  case asks =>
    have body := rgetBody_asks (s := s.setTile t x) (dst := dst) (w := w) (off := off) (by rw [here]; exact ha) (by rw [here]; exact hk)
      (by rw [here]; exact hs)
    obtain ⟨waits, seq, blk, arg, arrived, pc, regs, mem, q⟩ := sentAndWaits_parts (s.setTile t x) t 5 port.toNat
    rw [here] at body pc regs mem q
    refine ⟨_, exec_uop_of_fetches hf body, ?_⟩
    generalize (s.setTile t x).sentAndWaits t 5 port.toNat = z at *
    rw [ceHigh_s, ceHigh_r, ceHigh_mem, ceHigh_q, net_ceHigh, fresh_ceHigh, tile_request, net_request,
      fresh_request, q]
    refine ⟨seq, blk, arg, arrived, pc, regs, mem, _, ?_, ?_, rfl, ?_⟩
    · exact congrArg (· ++ _) waits.comp_net
    · exact congrArg (· ++ _) waits.comp_fresh
    exact ⟨rfl, rfl, rfl, rfl, rfl, rfl, pkBytes_read w _⟩
  case answered => exact exec_uop_of_fetches hf (rgetBody_answered (by rw [here]; exact ha) (by rw [here]; exact hg) hw)
  case rreg =>
    refine ⟨_, exec_uop_of_fetches hf (rregBody_ok (by rw [here]; exact hy)), ?_⟩
    rw [State.tile_modTile_same, State.tile_setTile_same]
    refine ⟨get_setV .., fun j hj => (get_setV_ne _ _ hj).trans (by rw [(need_codeRead hy).r]), setV_frame ..,
      (only.trans (onlyTile_setTile ..)).trans (onlyTile_modTile ..)⟩

end Sys2Proof.Machine
end

section
/-!
SUPPORT. A WEIR whose router lists the member itself among its children (R309, R311): its own arrival is then that child's
too, which the claim about the synchronising micro-ops leaves out.
-/

namespace Sys2Proof.Machine

/-- Tile PT(0, 0, 0), a child of nobody here: it hosts LT(0, 0) and is about to issue WEIR of group 4095. -/
def selfChildTile : PT := { bay := 0, col := 0, row := 0 }

/-- The scarf entry by which LT(1, 0) is at PT(0, 1, 0). -/
def selfChildEntry : Word × Word := (BitVec.ofNat 64 (2 ^ 63 + 2 ^ 52 + 2 ^ 31), 0)

/-- Weir 4095 of LT(0, 0) and LT(1, 0). -/
def selfChildFrame : Frame := { Frame.empty with
  weirs := [{ wid := 4095, sig := false, rects := [{ x0 := 0, y0 := 0, x1 := 1, y1 := 0 }] }]
  stepWeir := 0xFFFF }

/-- The row of the group at the tile's router: LT(0, 0) is a child of itself, and LT(1, 0) its parent. -/
def selfChildRow : WeirRow := { wid := 4095, parent := some { x := 1, y := 0 }, kids := [{ x := 0, y := 0 }] }

def selfChildRunning : Tile :=
  ({ Tile.reset with s := { TileSeq.reset with seq := .run, before := .run, inv := true } }).store 0xC000
    (leBytes 8 (encodeUop (.weir 4095)).toNat)

/-- Bay 0 has its supplies, the tile is in RUN at its WEIR, and its router holds the row. -/
def selfChildState : State :=
  let s := (State.reset.modBay 0 fun b => { b with supply := .on, sill := true, ripple := true }).setTile selfChildTile selfChildRunning
  let s := s.modOwn 0 fun o => { o with frame := some selfChildFrame }
  let s := { s with comp := { s.comp with hosts := [((LT.mk 0 0).key, some selfChildTile)] } }
  let s := s.modBoot fun b => { b with rebuilt := some [] }
  s.modRouter selfChildTile fun r => { r with scarf0 := [(0, selfChildEntry)], fab0 := { FabTables.empty with weirs := [selfChildRow] } }

/-- A WEIR that everything the tile sent allows arrives, and waits. -/
theorem weirBody_arrives {s : State} {t : PT} (wid : BitVec 12) (h : (s.tile t).s.arrived = false)
    (k : (s.tile t).allAnswered = true) : weirBody t wid s = .ok ((s.sentAndWaits t 6 0).weirOwn t wid.toNat) := by
  simp [weirBody, h, k]

theorem selfChild_fetches : Fetches selfChildState selfChildTile (.weir 4095) selfChildRunning := by
  refine ⟨by decide, by decide, by decide, by decide, by decide, leBytes 8 (encodeUop (.weir 4095)).toNat, ?_, by decide⟩
  rfl

/-- Its own arrival completes the member's children, so the arrival goes up to the parent. -/
theorem selfChild_forwards : ((((selfChildState.setTile selfChildTile selfChildRunning).sentAndWaits selfChildTile 6 0).weirOwn
    selfChildTile (4095 : BitVec 12).toNat).comp.net).length = 1 := by decide

/-- Refutes O21: in a tree whose row lists the member itself among its children, no child's arrival has come before its own,
yet the WEIR sends its arrival to the parent, where the claim has it send nothing. -/
theorem not_syncMicroOpsComplete : ¬ Obligations.SyncMicroOpsComplete := by
  unfold Obligations.SyncMicroOpsComplete
  intro h
  obtain ⟨-, -, -, weir, -⟩ := h selfChildState selfChildTile selfChildRunning
  obtain ⟨kept, -⟩ := weir 4095 { x := 0, y := 0 } { wid := 4095, sig := false, rects := [{ x0 := 0, y0 := 0, x1 := 1, y1 := 0 }] }
    selfChild_fetches (by decide) (by decide) (by decide) (by decide) (by decide) rfl (by decide) (by decide) (fun e => absurd e (by decide))
  obtain ⟨n, run, -, same⟩ := kept (by decide)
  have body := weirBody_arrives (s := selfChildState.setTile selfChildTile selfChildRunning) (t := selfChildTile) 4095
    (by decide) (by decide)
  have ran := Host.Outcome.next.inj (run.symm.trans (exec_uop_of_fetches selfChild_fetches body))
  have sent := selfChild_forwards
  rw [← net_ceHigh _ selfChildTile (selfChildState.tile selfChildTile), ← ran, same] at sent
  exact absurd sent (by decide)

end Sys2Proof.Machine
end

section
/-! SUPPORT. Proofs about the commands that move a sequencer (R112, R149, R151, R152, R160, R179). -/

namespace Sys2Proof.Machine

/-! ### Pops (R168, R182) -/

/-- Progress changes the progress counter and the stall age alone. -/
theorem progressBy_frame (n : Nat) (x : Tile) : x.progressBy n =
    { x with s := { x.s with progress := (x.progressBy n).s.progress, stall := (x.progressBy n).s.stall,
                             stallSince := (x.progressBy n).s.stallSince, paused := (x.progressBy n).s.paused } } := by
  unfold Tile.progressBy
  split <;> rfl

section
variable (n : Nat) (x : Tile)
theorem progressBy_r : (x.progressBy n).r = x.r := by rw [progressBy_frame]
theorem progressBy_queues : (x.progressBy n).queues = x.queues := by rw [progressBy_frame]
theorem progressBy_c : (x.progressBy n).c = x.c := by rw [progressBy_frame]
theorem progressBy_q : (x.progressBy n).q = x.q := by rw [progressBy_frame]
theorem progressBy_seq : (x.progressBy n).s.seq = x.s.seq := by rw [progressBy_frame]
end

/-- A return changes fountain nodes and the packets on their way alone. -/
theorem tile_fountainReturn (k : FCount) (p : Nat) (f : FountRec) (i branch n : Nat) (phase : Bool) (s : State) (u : PT) :
    (s.fountainReturn k p f i branch n phase).tile u = s.tile u := by
  cases k
  all_goals
    unfold State.fountainReturn
    dsimp only
    repeat' split
    all_goals rfl

theorem tile_returnFor (k : FCount) (t : PT) (q n : Nat) (phase ep : Bool) (s : State) (u : PT) :
    (s.returnFor k t q n phase ep).tile u = s.tile u := by
  unfold State.returnFor
  dsimp only
  split
  · rfl
  · split
    · rfl
    · split
      · rfl
      · rfl
      · split
        · rfl
        · split
          · rfl
          · exact tile_fountainReturn ..

section
variable {s : State} {t : PT} {q : Nat} {e : QEntry} {st : Bool} {q' : Queue} (h : ((s.tile t).queue q).pop = some (e, st, q'))
include h

theorem tile_popQ_same : (s.popQ t q).tile t = ((s.tile t).setQueue q q').progressBy 1 := by
  rw [State.popQ, h]
  dsimp only
  split
  · rw [tile_returnFor, State.tile_modTile_same]
  · rw [State.tile_modTile_same]

theorem tile_popQ_ne {v : PT} (hv : v.key ≠ t.key) : (s.popQ t q).tile v = s.tile v := by
  rw [State.popQ, h]
  dsimp only
  split
  · rw [tile_returnFor, State.tile_modTile_ne _ _ hv]
  · rw [State.tile_modTile_ne _ _ hv]

end

theorem queue_setQueue (x : Tile) (q : Nat) (v : Queue) : (x.setQueue q v).queue q = v := Tab.get_set_same _ _ _ _

/-- A read under the code leaves ENTRY. -/
theorem checked_entry {x y : Tile} {p : CodeWord → Bool} (h : x.checked p = .ok y) : y.c.entry = x.c.entry := by
  unfold Tile.checked at h
  dsimp only at h
  split at h
  · exact nomatch h
  · obtain rfl := Except.ok.inj h
    unfold Tile.countCe
    split <;> rfl

theorem look_entry {x y : Tile} {q k n : Nat} {es : List QEntry} (h : x.look q k n = .ok (es, y)) : y.c.entry = x.c.entry := by
  unfold Tile.look at h
  dsimp only at h
  split at h
  · exact nomatch h
  · split at h
    · exact nomatch h
    · next read =>
      obtain ⟨-, rfl⟩ := Prod.mk.inj (Except.ok.inj h)
      exact checked_entry read

/-! ### Start (R179) -/

/-- An invocation starts: the tile in RUN at ENTRY, no loop active, every cursor at its port's address. -/
def Tile.started (x : Tile) : Tile := { x with
  s := { x.s with seq := .run, inv := true, pc := x.c.entry.setWidth 10, check := none, arrived := false,
                  done := none, lost := false, blk := 0, blkarg := 0 }
  r := { x.r with loops := [], ports := x.r.ports.map fun kp =>
    (kp.1, { kp.2 with cursor := BitVec.ofNat 16 kp.2.addr }) } }

theorem cursor_started (x : Tile) : ∀ kp ∈ x.started.r.ports, kp.2.cursor = BitVec.ofNat 16 kp.2.addr := by
  intro kp h
  obtain ⟨kp', -, rfl⟩ := List.mem_map.1 h
  rfl

section
variable {s : State} {t : PT} {e : QEntry} {y : Tile} (hseq : (s.tile t).s.seq = .idle) (hr : s.runs (s.ptPart t) = true)
  (hl : (s.tile t).look (s.tile t).c.startq.toNat 0 1 = .ok ([e], y)) (ht : e.tok = true)
include hseq hr hl ht

theorem exec_start (hk : e.kind = 0) : exec (.tileStart t) s = .next (((((s.setTile t y).ceHigh t (s.tile t)).popQ t
    (s.tile t).c.startq.toNat).modTile t Tile.started).restall t) := by
  show execTileStart t s = _
  rw [execTileStart, if_neg (by simp [hseq, hr]), hl]
  dsimp only
  rw [if_neg (by simp [ht]), if_neg (by simp [hk]), if_neg (by simp [hk])]
  rfl

theorem exec_start_flush (hk : e.kind = 4) : exec (.tileStart t) s = .next ((((s.setTile t y).ceHigh t (s.tile t)).popQ t
    (s.tile t).c.startq.toNat).restall t) := by
  show execTileStart t s = _
  rw [execTileStart, if_neg (by simp [hseq, hr]), hl]
  dsimp only
  rw [if_neg (by simp [ht]), if_pos hk]

end

/-- The head of a queue that has been looked at is popped. -/
theorem tile_looked_popQ {s : State} {t : PT} {q : Nat} {e : QEntry} {st : Bool} {q' : Queue} {y : Tile}
    (hl : CodeRead (s.tile t) y) (hp : ((s.tile t).queue q).pop = some (e, st, q')) :
    let u := (((s.setTile t y).ceHigh t (s.tile t)).popQ t q)
    (u.tile t).s.seq = (s.tile t).s.seq ∧ (u.tile t).queue q = q' ∧ (u.tile t).mem = (s.tile t).mem ∧ (u.tile t).r = (s.tile t).r ∧
      (u.tile t).c = y.c ∧ ∀ v : PT, v.key ≠ t.key → u.tile v = s.tile v := by
  have same : (((s.setTile t y).ceHigh t (s.tile t)).tile t).queue q = (s.tile t).queue q := by
    rw [Tile.queue, ceHigh_queues, State.tile_setTile_same, hl.queues, Tile.queue]
  rw [← same] at hp
  intro u
  have here : u.tile t = ((((s.setTile t y).ceHigh t (s.tile t)).tile t).setQueue q q').progressBy 1 := tile_popQ_same hp
  refine ⟨?_, ?_, ?_, ?_, ?_, fun v hv => ?_⟩
  · rw [here, progressBy_seq]
    exact (congrArg TileSeq.seq (ceHigh_s ..)).trans (by rw [State.tile_setTile_same, hl.s])
  · rw [here, Tile.queue, progressBy_queues]
    exact queue_setQueue ..
  · rw [here, progressBy_mem]
    exact (ceHigh_mem ..).trans (by rw [State.tile_setTile_same, hl.mem])
  · rw [here, progressBy_r]
    exact (ceHigh_r ..).trans (by rw [State.tile_setTile_same, hl.r])
  · rw [here, progressBy_c]
    exact (ceHigh_c ..).trans (by rw [State.tile_setTile_same])
  · rw [tile_popQ_ne hp hv, tile_ceHigh_ne _ _ hv, State.tile_setTile_ne _ _ hv]

theorem tile_restall (s : State) (t : PT) : (s.restall t).tile t = (s.tile t).restall s.now := State.tile_modTile_same ..
theorem tile_restall_ne (s : State) {t v : PT} (hv : v.key ≠ t.key) : (s.restall t).tile v = s.tile v :=
  State.tile_modTile_ne _ _ hv

/-! ### Halt, resume, reset and the clears (R112, R149, R151, R152, R160) -/

/-- A write of `TILE_CTL` with one bit set. -/
theorem exec_ctl (s : State) (t : PT) : exec (.tileHalt t) s = .next (s.haltTile t) ∧ exec (.tileResume t) s = .next (s.resumeTile t) ∧
    exec (.tileReset t) s = .next (s.resetTile t) ∧
    exec (.tileClrtags t) s = .next (if (s.tile t).still then s.modTile t Tile.clearTags else s) ∧
    exec (.tileEccClr t) s = .next (s.modTile t fun x => { x with c := { x.c with ce := 0, ue := 0 } }) := by
  refine ⟨?_, ?_, ?_, ?_, rfl⟩
  · show Host.Outcome.next (s.tileCtl t 1) = _
    simp [State.tileCtl]
  · show Host.Outcome.next (s.tileCtl t 2) = _
    simp [State.tileCtl]
  · show Host.Outcome.next (s.tileCtl t 4) = _
    simp [State.tileCtl]
  · show Host.Outcome.next (s.tileCtl t 8) = _
    simp [State.tileCtl]

theorem SameData.of_s {x y : Tile} (h : y = { x with s := y.s }) : SameData x y := by
  rw [h]
  exact ⟨rfl, rfl, rfl, rfl, rfl, rfl, rfl, rfl, rfl, rfl, rfl⟩

theorem halt_frame (x : Tile) : x.halt = { x with s := x.halt.s } := by
  unfold Tile.halt
  split <;> rfl

theorem halt_spec {x : Tile} (h : x.s.seq = .idle ∨ x.s.seq = .run ∨ x.s.seq = .blocked) :
    x.halt.s.seq = .halted ∧ (x.s.seq ≠ .idle → x.halt.s.inv = true) ∧ x.halt.s.pc = x.s.pc := by
  unfold Tile.halt
  rcases h with h | h | h <;> rw [h]
  · exact ⟨rfl, fun n => absurd rfl n, rfl⟩
  · exact ⟨rfl, fun _ => rfl, rfl⟩
  · exact ⟨rfl, fun _ => rfl, rfl⟩

theorem resume_eq {x : Tile} (h : x.s.seq = .halted) :
    x.resume = { x with s := { x.s with seq := if x.s.inv then .run else .idle, blk := 0, blkarg := 0 } } := if_pos h

/-- The packets of a reset: each parked request is answered with RESET. -/
theorem resetTile_eq {s : State} {t : PT} (h : (s.tile t).s.seq ≠ .off) : s.resetTile t =
    (((s.tile t).q.parked.map fun p => errAnswer p errReset).foldl (fun s p => s.send p) s).modTile t fun x =>
      (x.progressBy x.q.parked.length).toReset := by
  rw [State.resetTile, if_neg h, List.foldl_map]

/-- Settles O23: start through the pop of the token, and every other command through what it does to the tile. -/
theorem sequencerCommandsComplete : Obligations.SequencerCommandsComplete := by
  unfold Obligations.SequencerCommandsComplete
  intro s t
  obtain ⟨halt, resume, reset, clrtags, eccClr⟩ := exec_ctl s t
  refine ⟨fun e st q' y hseq hr hl hp ht hk => ?start, fun e st q' y hseq hr hl hp ht hk => ?flush,
    fun hseq hr hd hc ha => ?unblock, fun d hseq hr hd hw hlost => ?answered, fun hseq hf hh => ?resetDone,
    fun hseq => ⟨_, halt, ?halt⟩, fun hseq => ⟨_, resume, ?resume⟩, fun hseq => ⟨_, reset, ?reset⟩,
    fun hseq => ⟨_, clrtags, ?clrtags⟩, _, eccClr, State.tile_modTile_same .., onlyTile_modTile ..⟩
  case start =>
    obtain ⟨-, code, -⟩ := look_spec hl
    obtain ⟨-, queue, mem, regs, conf, others⟩ := tile_looked_popQ code hp
    have entry := look_entry hl
    refine ⟨_, exec_start hseq hr hl ht hk, ?_⟩
    generalize ((s.setTile t y).ceHigh t (s.tile t)).popQ t (s.tile t).c.startq.toNat = u at *
    rw [tile_restall, State.tile_modTile_same, Tile.queue, restall_r, restall_queues]
    refine ⟨restall_seq .., restall_inv .., (restall_pc ..).trans ?_, rfl, queue, cursor_started _, (restall_mem ..).trans mem,
      (congrArg TileRegs.v regs :), (congrArg TileRegs.a regs :), fun v hv => ?_⟩
    · exact congrArg (BitVec.setWidth 10) ((congrArg TileCfg.entry conf).trans entry)
    · rw [tile_restall_ne _ hv, State.tile_modTile_ne _ _ hv, others v hv]
  case flush =>
    obtain ⟨-, code, -⟩ := look_spec hl
    obtain ⟨seq, queue, mem, regs, -, others⟩ := tile_looked_popQ code hp
    refine ⟨_, exec_start_flush hseq hr hl ht hk, ?_⟩
    generalize ((s.setTile t y).ceHigh t (s.tile t)).popQ t (s.tile t).c.startq.toNat = u at *
    rw [tile_restall, Tile.queue, restall_queues]
    exact ⟨(restall_seq ..).trans (seq.trans hseq), queue, (restall_mem ..).trans mem, (restall_r ..).trans regs,
      fun v hv => (tile_restall_ne _ hv).trans (others v hv)⟩
  case unblock =>
    have woken : s.unblock t = (s.modTile t fun x => { x with s := { x.s with seq := .run, blk := 0, blkarg := 0 } }).restall t := by
      rw [State.unblock, if_pos ⟨hseq, hr⟩, hd, hc, ha]
      rfl
    refine ⟨_, congrArg Host.Outcome.next woken, ?_⟩
    rw [tile_restall, State.tile_modTile_same]
    exact ⟨restall_seq .., restall_blk .., restall_pc .., (SameData.of_s rfl).trans (restall_spec ..).data, restall_r ..,
      (onlyTile_modTile ..).trans (onlyTile_restall ..)⟩
  case answered =>
    refine congrArg Host.Outcome.next ?_
    rw [State.unblock, if_pos ⟨hseq, hr⟩, if_pos (by rw [hd]; rfl), State.settleDone, hd]
    simp only [hw, hlost, Bool.or_self, Bool.false_eq_true, if_false]
  case resetDone =>
    refine ⟨_, congrArg Host.Outcome.next (if_pos ⟨hseq, hf, hh⟩), ?_⟩
    rw [tile_restall, State.tile_modTile_same]
    refine ⟨restall_seq .., SameData.trans ?_ (restall_spec ..).data, (onlyTile_modTile ..).trans (onlyTile_restall ..)⟩
    exact ⟨rfl, rfl, rfl, rfl, rfl, rfl, rfl, rfl, rfl, rfl, rfl⟩
  case halt =>
    obtain ⟨seq, inv, pc⟩ := halt_spec hseq
    have frame := halt_frame (s.tile t)
    rw [State.haltTile, State.tile_modTile_same]
    refine ⟨(restall_seq ..).trans seq, fun running => (restall_inv ..).trans (inv running), (restall_pc ..).trans pc,
      (restall_r ..).trans ?_, (SameData.of_s frame).trans (restall_spec ..).data, onlyTile_modTile ..⟩
    rw [frame]
  case resume =>
    rw [State.resumeTile, State.tile_modTile_same, resume_eq hseq]
    exact ⟨restall_seq .., restall_pc .., restall_r .., (SameData.of_s rfl).trans (restall_spec ..).data, onlyTile_modTile ..⟩
  case reset =>
    have tile := tile_resetTile hseq
    rw [tile]
    refine ⟨rfl, rfl, rfl, rfl, rfl, rfl, rfl, rfl, progressBy_mem .., (congrArg TileRegs.v (progressBy_r _ (s.tile t)) :), progressBy_queues .., ?_, ?_⟩
    · rw [resetTile_eq hseq, foldl_send]
      rfl
    · rw [resetTile_eq hseq]
      exact (onlyTileNet_foldl_send ..).trans (onlyTile_modTile ..).net
  case clrtags =>
    have still := (still_iff (s.tile t)).2 hseq
    rw [if_pos still]
    exact ⟨State.tile_modTile_same .., onlyTile_modTile ..⟩

end Sys2Proof.Machine
end

section
/-! SUPPORT. Proofs about remote requests (R115 to R123, R157, R160, R182, R278, R298). -/

namespace Sys2Proof.Machine

/-! ### The command of a request -/

/-- The command that serves a request hands it to its tile. -/
theorem exec_request {p : Packet} {c : Instr} (h : requestInstr p = some c) (s : State) : exec c s = .next (s.remoteAt p.op p) := by
  unfold requestInstr at h
  split at h
  · next op => obtain rfl := Option.some.inj h; rw [op]; rfl
  · split at h
    · next op => obtain rfl := Option.some.inj h; rw [op]; rfl
    · split at h
      · next op => obtain rfl := Option.some.inj h; rw [op]; rfl
      · split at h
        · next op => obtain rfl := Option.some.inj h; rw [op]; rfl
        · split at h
          · next op => obtain rfl := Option.some.inj h; rw [op]; rfl
          · exact nomatch h

/-- The five requests. -/
theorem op_of_request {p : Packet} {c : Instr} (h : requestInstr p = some c) :
    p.op = opWrRaw ∨ p.op = opWrTag ∨ p.op = opRdRaw ∨ p.op = opRdTag ∨ p.op = opRdKeep := by
  unfold requestInstr at h
  by_contra other
  simp only [not_or] at other
  obtain ⟨h1, h2, h3, h4, h5⟩ := other
  simp only [h1, h2, h3, h4, h5, if_false] at h
  exact nomatch h

section
variable {s : State} {t : PT} {p : Packet}

theorem remoteAt_tile (hd : p.dst = .tile t) (hs : (s.tile t).s.seq ≠ .plumb) :
    s.remoteAt p.op p = s.atTile t p fun s => s.remote t p := by
  unfold State.remoteAt
  rw [hd]
  dsimp only
  rw [if_neg hs, ← hd]

/-- A request that arrives is refused, turned away, parked or served at its tile. -/
theorem remoteAt_arrives (h : Arrives s t p) : s.remoteAt p.op p = (s.take p).remote t p := by
  obtain ⟨hd, hs, hr, he⟩ := h
  have here : (s.take p).reaches t = true := hr
  have same : (s.take p).epochOk t p = true := he
  rw [remoteAt_tile hd hs, State.atTile, if_neg (by rw [here]; decide), if_pos same]

/-- One of another epoch is discarded, and answered unless it is a raw write. -/
theorem remoteAt_stale (hd : p.dst = .tile t) (hs : (s.tile t).s.seq ≠ .plumb) (hr : s.reaches t = true)
    (he : s.epochOk t p = false) : s.remoteAt p.op p =
      if p.op = opRdRaw ∨ p.op = opRdTag ∨ p.op = opRdKeep ∨ p.op = opWrTag then
        (((s.take p).countEpdisc t).send (errAnswer p errReset)).answered t
      else (s.take p).countEpdisc t := by
  have here : (s.take p).reaches t = true := hr
  have other : (s.take p).epochOk t p = false := he
  rw [remoteAt_tile hd hs, State.atTile, if_neg (by rw [here]; decide), if_neg (by rw [other]; decide)]

/-- At a dark router or a tile whose clock has stopped it is only removed. -/
theorem remoteAt_dark (hd : p.dst = .tile t) (hs : (s.tile t).s.seq ≠ .plumb) (hr : s.reaches t = false) :
    s.remoteAt p.op p = s.take p := by
  have here : (s.take p).reaches t = false := hr
  rw [remoteAt_tile hd hs, State.atTile, if_pos here]

theorem remote_refused (h : reqOk p = false) : s.remote t p = (s.send (errAnswer p errRefused)).answered t := if_pos h

variable (hok : reqOk p = true)
include hok

theorem remote_imBusy (h : imBusy p (s.tile t) = true) : s.remote t p = (s.send (errAnswer p errImBusy)).answered t := by
  rw [State.remote, if_neg (by rw [hok]; decide), if_pos h]

variable (hi : imBusy p (s.tile t) = false)
include hi

theorem remote_served (h : (p.op = opWrTag ∨ p.op = opRdTag ∨ p.op = opRdKeep) →
    (s.tile t).mustWait p (s.tile t).q.parked.length = false) : s.remote t p = s.serve t p := by
  rw [State.remote, if_neg (by rw [hok]; decide), if_neg (by rw [hi]; decide), if_neg]
  rintro ⟨tagged, waits⟩
  rw [h tagged] at waits
  exact absurd waits (by decide)

variable (htag : p.op = opWrTag ∨ p.op = opRdTag ∨ p.op = opRdKeep) (hw : (s.tile t).mustWait p (s.tile t).q.parked.length = true)
include htag hw

theorem remote_parked (h : (s.tile t).q.parked.length < 4) :
    s.remote t p = s.modTile t fun x => { x with q := { x.q with parked := x.q.parked ++ [p] } } := by
  rw [State.remote, if_neg (by rw [hok]; decide), if_neg (by rw [hi]; decide), if_pos ⟨htag, hw⟩, if_pos h]

theorem remote_busy (h : 4 ≤ (s.tile t).q.parked.length) : s.remote t p = (s.send (errAnswer p errBusy)).answered t := by
  rw [State.remote, if_neg (by rw [hok]; decide), if_neg (by rw [hi]; decide), if_pos ⟨htag, hw⟩, if_neg (by omega)]

end

/-! ### Answers (R182) -/

theorem progressBy_data (n : Nat) (x : Tile) : SameData x (x.progressBy n) := .of_s (by rw [progressBy_frame])

section
variable (s : State) (t : PT)

theorem tile_answered : (s.answered t).tile t = ((s.tile t).progressBy 1).restall s.now := by
  rw [State.answered, tile_restall, State.tile_modTile_same]
  rfl

theorem onlyTile_answered : OnlyTile t s (s.answered t) := (onlyTile_modTile ..).trans (onlyTile_restall ..)

/-- An answer is progress of the tile, and changes nothing else of it. -/
theorem answered_parts : let y := (s.answered t).tile t
    SameData (s.tile t) y ∧ y.s.progress = (s.tile t).s.progress + 1 ∧ y.s.seq = (s.tile t).s.seq ∧ y.r = (s.tile t).r ∧
      y.queues = (s.tile t).queues ∧ y.q = (s.tile t).q := by
  rw [tile_answered]
  exact ⟨(progressBy_data ..).trans (restall_spec ..).data, restall_progress .., (restall_seq ..).trans (progressBy_seq ..),
    (restall_r ..).trans (progressBy_r ..), (restall_queues ..).trans (progressBy_queues ..), (restall_q ..).trans (progressBy_q ..)⟩

theorem net_answered : (s.answered t).comp.net = s.comp.net := (onlyTile_answered s t).comp_net

/-- A request that is turned away: one answer, and progress. -/
theorem turnedAway (p e : Packet) : let n := ((s.take p).send e).answered t
    n.comp.net = s.comp.net.erase p ++ [e] ∧ SameData (s.tile t) (n.tile t) ∧ (n.tile t).queues = (s.tile t).queues ∧
      (n.tile t).q = (s.tile t).q ∧ OnlyTileNet t s n := by
  obtain ⟨data, -, -, -, queues, q⟩ := answered_parts ((s.take p).send e) t
  exact ⟨net_answered .., data, queues, q, OnlyTileNet.trans ⟨rfl, fun _ _ => rfl⟩ (onlyTile_answered ..).net⟩

end

theorem OnlyTile.router {t : PT} {s r : State} (h : OnlyTile t s r) (u : PT) : r.router u = s.router u := by rw [h.1]; rfl

theorem SameData.mem {x y : Tile} (h : SameData x y) : y.mem = x.mem := by obtain ⟨-, -, -, -, -, -, -, h, -⟩ := h; exact h
theorem SameData.tagOf {x y : Tile} (h : SameData x y) (k : Nat) : y.tagOf k = x.tagOf k := by
  obtain ⟨-, -, -, -, -, -, -, -, am, pm, -⟩ := h
  rw [Tile.tagOf, am, pm, Tile.tagOf]

/-! ### Service (R115 to R118, R121, R157) -/

theorem length_leBytes (n v : Nat) : (leBytes n v).length = n := by
  induction n generalizing v with
  | zero => rfl
  | succ n ih => rw [leBytes, List.length_cons, ih]

theorem length_pkData (p : Packet) : (pkData p).length = 16 * p.body.length := by
  simp only [pkData, List.length_flatMap, length_leBytes, List.map_const', List.sum_replicate, smul_eq_mul, Nat.mul_comm]

theorem length_pkData_write {p : Packet} (h : pkWrite p = true) : (pkData p).length = pkBytes p := by
  rw [pkBytes, if_pos h, length_pkData]

/-- A write's tile: its bytes stored, and for WR_TAG its slots filled where it reaches them. -/
def Tile.written (p : Packet) (x : Tile) : Tile :=
  (x.store p.addr.toNat (pkData p)).filled (decide (p.op = opWrTag)) p.addr.toNat (pkBytes p) (pkSlots p)

theorem written_eq (p : Packet) : (fun x : Tile =>
    let x := x.store p.addr.toNat (pkData p)
    if p.op = opWrTag ∧ tagReaches p.addr.toNat (pkBytes p) = true then x.setTags (pkSlots p) true else x) = Tile.written p := by
  funext x
  simp only [Tile.written, Tile.filled, Bool.and_eq_true, decide_eq_true_eq]

/-- A read's tile: for RD_TAG its slots emptied where it reaches them. -/
def Tile.taken (p : Packet) (x : Tile) : Tile := x.emptied (decide (p.op ≠ opRdTag)) p.addr.toNat (pkBytes p) (pkSlots p)

theorem taken_eq (p : Packet) (x : Tile) :
    (if p.op = opRdTag ∧ tagReaches p.addr.toNat (pkBytes p) = true then x.setTags (pkSlots p) false else x) = x.taken p := by
  simp only [Tile.taken, Tile.emptied, decide_eq_false_iff_not, not_not, ne_eq]

theorem tagOf_emptied (keep : Bool) (a n : Nat) (sl : List Nat) (x : Tile) {k : Nat} (hk : k < 448) :
    (x.emptied keep a n sl).tagOf k = (x.tagOf k && !(!keep && tagReaches a n && sl.contains k)) := by
  unfold Tile.emptied
  cases keep
  · cases tagReaches a n
    · simp
    · simp only [and_self, if_true, tagOf_setTags x sl false hk, Bool.not_false, Bool.true_and]
      by_cases h : k ∈ sl <;> simp [h]
  · simp

section
variable {s : State} {t : PT} {p : Packet}

theorem serve_write (ha : p.addr.toNat < 0xF000) (hw : pkWrite p = true) : s.serve t p =
    ((s.modTile t (Tile.written p)).send (answer p opWrAck p.addr [])).answered t := by
  rw [State.serve, if_neg (by omega), if_pos hw, ← written_eq]

theorem serve_read (ha : p.addr.toNat < 0xF000) (hw : pkWrite p = false) {d : List Byte} {x : Tile}
    (hl : (s.tile t).load p.addr.toNat (pkBytes p) = .ok (d, x)) : s.serve t p =
      (((s.setTile t (x.taken p)).send (answer p opRdData p.addr (flitsOf (pkBytes p / 16) d))).answered t).ceHigh t (s.tile t) := by
  simp only [State.serve, if_neg (show ¬ 0xF000 ≤ p.addr.toNat by omega), hw, Bool.false_eq_true, if_false, hl,
    taken_eq]

theorem serve_writeReg (ha : 0xF000 ≤ p.addr.toNat) (hw : pkWrite p = true) : s.serve t p =
    ((s.writeTileReg t (p.addr.toNat - 0xF000) (BitVec.ofNat 64 (ofLe ((pkData p).take 8)))).send
      (answer p opWrAck p.addr [])).answered t := by
  rw [State.serve, if_pos ha, if_pos hw]

theorem serve_readReg (ha : 0xF000 ≤ p.addr.toNat) (hw : pkWrite p = false) {y : Tile}
    (hl : (s.tile t).checked (regWords (p.addr.toNat - 0xF000)) = .ok y) : s.serve t p =
      (((s.setTile t y).send (answer p opRdData p.addr
        [{ data := (readTileReg t (s.hosted t) (s.tile t) (p.addr.toNat - 0xF000)).setWidth 128, tok := false }])).answered
          t).ceHigh t (s.tile t) := by
  rw [State.serve, if_pos ha, if_neg (by rw [hw]; decide), hl]

end

/-- A write stores its bytes and fills its tags; all else of the tile's data stays. -/
theorem written_parts (p : Packet) (x : Tile) : let y := x.written p
    y.mem = memWrite x.mem p.addr.toNat (pkData p) ∧ y.s = x.s ∧ y.r = x.r ∧ y.queues = x.queues ∧ ∀ k, k < 448 → y.tagOf k =
      (x.tagOf k || (decide (p.op = opWrTag) && tagReaches p.addr.toNat (pkBytes p) && (pkSlots p).contains k)) := by
  refine ⟨filled_mem .., filled_s .., filled_r .., filled_queues .., fun k hk => ?_⟩
  rw [Tile.written]
  cases decide (p.op = opWrTag)
  · rw [Bool.false_and, Bool.false_and, Bool.or_false]
    rfl
  · rw [tagOf_filled _ _ _ _ hk, Bool.true_and]
    rfl

theorem emptied_frame (keep : Bool) (a n : Nat) (sl : List Nat) (x : Tile) : x.emptied keep a n sl =
    { x with amTag := (x.emptied keep a n sl).amTag, pmTag := (x.emptied keep a n sl).pmTag } := by
  unfold Tile.emptied
  split
  · exact setTags_frame ..
  · rfl

/-- A read empties its tags; all else of the tile stays. -/
theorem taken_parts (p : Packet) (x : Tile) : let y := x.taken p
    y.mem = x.mem ∧ y.s = x.s ∧ y.r = x.r ∧ y.queues = x.queues ∧ ∀ k, k < 448 → y.tagOf k =
      (x.tagOf k && !(decide (p.op = opRdTag) && tagReaches p.addr.toNat (pkBytes p) && (pkSlots p).contains k)) := by
  have frame := emptied_frame (decide (p.op ≠ opRdTag)) p.addr.toNat (pkBytes p) (pkSlots p) x
  rw [← Tile.taken] at frame
  refine ⟨by rw [frame], by rw [frame], by rw [frame], by rw [frame], fun k hk => ?_⟩
  rw [Tile.taken, tagOf_emptied _ _ _ _ _ hk, decide_not, Bool.not_not]

theorem data_ceHigh (s : State) (t : PT) (x : Tile) : SameData (s.tile t) ((s.ceHigh t x).tile t) := by
  rw [tile_ceHigh]
  exact ⟨rfl, rfl, rfl, rfl, rfl, rfl, rfl, rfl, rfl, rfl, rfl⟩

theorem requestInstr_wrRaw {p : Packet} (h : p.op = opWrRaw) : requestInstr p = some (.wrRaw p) := if_pos h
theorem requestInstr_rdRaw {p : Packet} (h : p.op = opRdRaw) : requestInstr p = some (.rdRaw p) := by
  rw [requestInstr, h]
  rfl

/-- A tagged request never goes to a register. -/
theorem reqOk_tagged_register {p : Packet} (ha : 0xF000 ≤ p.addr.toNat) (h : p.op = opWrTag ∨ p.op = opRdTag ∨ p.op = opRdKeep) :
    reqOk p = false := by
  unfold reqOk
  dsimp only
  rw [if_pos ha]
  rcases h with h | h | h <;> rw [h] <;> rfl

theorem memAt_register {a : Nat} (h : 0xF000 ≤ a) : memAt a ≠ some .im := fun im => by
  have := memAt_im im
  omega

/-- A read that has been answered: what is left of the tile `z` that the read gave. -/
theorem answered_read (s : State) (t : PT) (p a : Packet) (z b : Tile) :
    let n := ((((s.take p).setTile t z).send a).answered t).ceHigh t b
    n.comp.net = s.comp.net.erase p ++ [a] ∧ SameData z (n.tile t) ∧ (n.tile t).s.progress = z.s.progress + 1 ∧
      (n.tile t).s.seq = z.s.seq ∧ (n.tile t).r = z.r ∧ (n.tile t).queues = z.queues ∧
      ∀ v : PT, v.key ≠ t.key → n.tile v = s.tile v := by
  obtain ⟨data, progress, seq, regs, queues, -⟩ := answered_parts (((s.take p).setTile t z).send a) t
  have only := onlyTile_answered (((s.take p).setTile t z).send a) t
  rw [tile_send, State.tile_setTile_same] at data progress seq regs queues
  refine ⟨?_, data.trans (data_ceHigh ..), ?_, ?_, ?_, ?_, fun v hv => ?_⟩
  · rw [net_ceHigh, net_answered]; rfl
  · rw [ceHigh_s, progress]
  · rw [ceHigh_s, seq]
  · rw [ceHigh_r, regs]
  · rw [ceHigh_queues, queues]
  · rw [tile_ceHigh_ne _ _ hv, only.2 v hv, tile_send, State.tile_setTile_ne _ _ hv, tile_take]

/-- A write that has been answered. -/
theorem answered_write (s : State) (t : PT) (p a : Packet) (f : Tile → Tile) :
    let n := (((s.take p).modTile t f).send a).answered t
    n.comp.net = s.comp.net.erase p ++ [a] ∧ SameData (f (s.tile t)) (n.tile t) ∧
      (n.tile t).s.progress = (f (s.tile t)).s.progress + 1 ∧ (n.tile t).s.seq = (f (s.tile t)).s.seq ∧
      (n.tile t).r = (f (s.tile t)).r ∧ (n.tile t).queues = (f (s.tile t)).queues ∧ OnlyTileNet t s n := by
  obtain ⟨data, progress, seq, regs, queues, -⟩ := answered_parts (((s.take p).modTile t f).send a) t
  rw [tile_send, State.tile_modTile_same, tile_take] at data progress seq regs queues
  exact ⟨net_answered .., data, progress, seq, regs, queues,
    OnlyTileNet.trans (b := s.take p) ⟨rfl, fun _ _ => rfl⟩ ((onlyTile_modTile ..).net.trans
      ((onlyTileNet_send ..).trans (onlyTile_answered ..).net))⟩

/-- Settles O24: by whether the request writes, at a memory and at a register; each goes through the rule of its service. -/
theorem remoteRequestsAreServed : Obligations.RemoteRequestsAreServed := by
  unfold Obligations.RemoteRequestsAreServed
  refine ⟨fun s t p c hc ha hok hm hi hw => ⟨fun write => ?write, fun read d x hl => ?read⟩,
    fun s t p ha hr => ⟨fun op hok => ?writeReg, fun op hok y hl => ?readReg, fun c hc htag => ?tagged⟩⟩
  case write =>
    have run : exec c s = .next ((((s.take p).modTile t (Tile.written p)).send (answer p opWrAck p.addr [])).answered t) := by
      rw [exec_request hc, remoteAt_arrives ha, remote_served (s := s.take p) hok hi hw, serve_write hm write]
    obtain ⟨net, data, progress, seq, regs, queues, only⟩ := answered_write s t p (answer p opWrAck p.addr []) (Tile.written p)
    obtain ⟨mem, same, regs', queues', tags⟩ := written_parts p (s.tile t)
    rw [same] at progress seq
    refine ⟨_, run, net, ?_, fun b hb => ?_, fun k hk => (data.tagOf k).trans (tags k hk), progress, seq, regs.trans regs',
      queues.trans queues', only⟩
    · rw [data.mem, mem, ← length_pkData_write write]
      exact memRead_memWrite_same ..
    · rw [← length_pkData_write write] at hb
      rw [data.mem, mem, get_memWrite, if_neg (by omega)]
  case read =>
    have run : exec c s = .next (((((s.take p).setTile t (x.taken p)).send
        (answer p opRdData p.addr (flitsOf (pkBytes p / 16) d))).answered t).ceHigh t (s.tile t)) := by
      rw [exec_request hc, remoteAt_arrives ha, remote_served (s := s.take p) hok hi hw, serve_read (s := s.take p) hm read hl]
      rfl
    have code := load_codeRead hl
    obtain ⟨net, data, progress, seq, regs, queues, others⟩ := answered_read s t p
      (answer p opRdData p.addr (flitsOf (pkBytes p / 16) d)) (x.taken p) (s.tile t)
    obtain ⟨mem, same, regs', queues', tags⟩ := taken_parts p x
    rw [same, code.s] at progress seq
    refine ⟨_, run, net, ?_, fun k hk => ?_, progress, seq, ?_, ?_, others⟩
    · rw [data.mem, mem, code.mem]
    · rw [data.tagOf, tags k hk, code.tagOf]
    · rw [regs, regs', code.r]
    · rw [queues, queues', code.queues]
  case writeReg =>
    have write : pkWrite p = true := by rw [pkWrite, op]; rfl
    have free : imBusy p (s.tile t) = false := by simp [imBusy, memAt_register hr]
    have untagged : (p.op = opWrTag ∨ p.op = opRdTag ∨ p.op = opRdKeep) →
        (s.tile t).mustWait p (s.tile t).q.parked.length = false := by rw [op]; exact fun h => absurd h (by decide)
    rw [exec_request (requestInstr_wrRaw op), remoteAt_arrives ha, remote_served (s := s.take p) hok free untagged,
      serve_writeReg hr write]
  case readReg =>
    have read : pkWrite p = false := by rw [pkWrite, op]; rfl
    have free : imBusy p (s.tile t) = false := by rw [imBusy, read]; rfl
    have untagged : (p.op = opWrTag ∨ p.op = opRdTag ∨ p.op = opRdKeep) →
        (s.tile t).mustWait p (s.tile t).q.parked.length = false := by rw [op]; exact fun h => absurd h (by decide)
    have run : exec (.rdRaw p) s = .next (((((s.take p).setTile t y).send (answer p opRdData p.addr
        [{ data := (readTileReg t (s.hosted t) (s.tile t) (p.addr.toNat - 0xF000)).setWidth 128, tok := false }])).answered
          t).ceHigh t (s.tile t)) := by
      rw [exec_request (requestInstr_rdRaw op), remoteAt_arrives ha, remote_served (s := s.take p) hok free untagged,
        serve_readReg (s := s.take p) hr read hl]
      rfl
    obtain ⟨net, data, -, -, -, queues, others⟩ := answered_read s t p (answer p opRdData p.addr
      [{ data := (readTileReg t (s.hosted t) (s.tile t) (p.addr.toNat - 0xF000)).setWidth 128, tok := false }]) y (s.tile t)
    exact ⟨_, _, run, rfl, net, data, queues.trans (checked_codeRead hl).queues, others⟩
  case tagged =>
    obtain ⟨net, data, -⟩ := turnedAway s t p (errAnswer p errRefused)
    exact ⟨_, by rw [exec_request hc, remoteAt_arrives ha, remote_refused (reqOk_tagged_register hr htag)], net, data⟩

/-- Settles O25: by where the request is turned away; every answer is one packet and progress. -/
theorem remoteRequestsTurnedAway : Obligations.RemoteRequestsTurnedAway := by
  unfold Obligations.RemoteRequestsTurnedAway
  intro s t p c hc hd hs
  have run := exec_request hc s
  refine ⟨fun ha => ⟨fun hok => ?refused, fun hok hi => ?imBusy, fun hok hi htag hw => ⟨fun room => ?parked, fun full => ?busy⟩⟩,
    fun hr he => ?stale, fun hr => ?dark⟩
  case refused =>
    obtain ⟨net, data, queues, -, only⟩ := turnedAway s t p (errAnswer p errRefused)
    exact ⟨_, by rw [run, remoteAt_arrives ha, remote_refused hok], net, data, queues, only⟩
  case imBusy =>
    obtain ⟨net, data, -, -, only⟩ := turnedAway s t p (errAnswer p errImBusy)
    exact ⟨_, by rw [run, remoteAt_arrives ha, remote_imBusy (s := s.take p) hok hi], net, data, only⟩
  case parked =>
    refine ⟨_, by rw [run, remoteAt_arrives ha, remote_parked (s := s.take p) hok hi htag hw room], rfl, State.tile_modTile_same .., ?_⟩
    exact OnlyTileNet.trans ⟨rfl, fun _ _ => rfl⟩ (onlyTile_modTile ..).net
  case busy =>
    obtain ⟨net, data, -, q, only⟩ := turnedAway s t p (errAnswer p errBusy)
    exact ⟨_, by rw [run, remoteAt_arrives ha, remote_busy (s := s.take p) hok hi htag hw full], net, data, q, only⟩
  case stale =>
    have counted : ((s.take p).countEpdisc t).router t = { s.router t with
        epdisc := BitVec.ofNat 32 (min ((s.router t).epdisc.toNat + 1) 0xFFFFFFFF) } := State.router_modRouter_same ..
    by_cases raw : p.op = opWrRaw
    · have silent : ¬ (p.op = opRdRaw ∨ p.op = opRdTag ∨ p.op = opRdKeep ∨ p.op = opWrTag) := by rw [raw]; decide
      refine ⟨_, by rw [run, remoteAt_stale hd hs hr he, if_neg silent], ?_, congrArg Router.epdisc counted, .refl _, rfl,
        fun _ _ => rfl⟩
      rw [if_pos raw, List.append_nil]
      rfl
    · have answers : p.op = opRdRaw ∨ p.op = opRdTag ∨ p.op = opRdKeep ∨ p.op = opWrTag := by
        rcases op_of_request hc with h | h | h | h | h
        · exact absurd h raw
        all_goals simp [h]
      obtain ⟨data, -, -, -, queues, -⟩ := answered_parts (((s.take p).countEpdisc t).send (errAnswer p errReset)) t
      have only := onlyTile_answered (((s.take p).countEpdisc t).send (errAnswer p errReset)) t
      refine ⟨_, by rw [run, remoteAt_stale hd hs hr he, if_pos answers], ?_, ?_, data, queues, only.2⟩
      · rw [if_neg raw, net_answered]
        rfl
      · rw [only.router]
        exact congrArg Router.epdisc counted
  case dark => exact ⟨_, by rw [run, remoteAt_dark hd hs hr], onlyNet_take .., rfl⟩

end Sys2Proof.Machine
end

section
/-! SUPPORT. Proofs about what waits at a tile, and goes on (R119, R123, R124, R150, R299). -/

namespace Sys2Proof.Machine

section
variable {s : State} {t : PT}

/-! ### Parked requests (R119, R123) -/

theorem completeParked_go {i : Nat} {p : Packet} (hp : (s.tile t).q.parked[i]? = some p) (hc : s.clockStands t = false)
    (hw : (s.tile t).mustWait p i = false) : s.completeParked t i = (s.modTile t (Tile.unpark i)).serve t p := by
  simp only [State.completeParked, hp, hc, hw, Bool.or_self, Bool.false_eq_true, if_false]

theorem completeParked_waits {i : Nat} {p : Packet} (hp : (s.tile t).q.parked[i]? = some p)
    (hw : (s.tile t).mustWait p i = true) : s.completeParked t i = s := by
  simp only [State.completeParked, hp, hw, Bool.or_true, if_true]

/-- Nothing began before the first parked request, so it goes on once its slots are ready. -/
theorem mustWait_first {x : Tile} {p : Packet} (hr : x.parkedReady p = true) (hh : x.q.held = []) (hl : x.q.waiting = none) :
    x.mustWait p 0 = false := by
  rw [Tile.mustWait, hr, Tile.earlier, List.take_zero, hh, Tile.localReady, hl]
  rfl

/-! ### Held writebacks (R119, R150) -/

/-- A held writeback leaves the list, stores its bytes and fills its slots where it reaches them. -/
def Tile.writtenBack (w : Writeback) (x : Tile) : Tile :=
  ((({ x with q := { x.q with held := x.q.held.erase w } } : Tile)).store w.addr w.data).filled true w.addr w.data.length w.slots

theorem completeHeld_go {w : Writeback} (hs : (s.tile t).s.seq ≠ .halted) (hc : s.clockStands t = false)
    (hr : (s.tile t).ready w.slots false = true) (hp : (s.tile t).q.parked = []) :
    s.completeHeld t w = s.modTile t (Tile.writtenBack w) := by
  rw [State.completeHeld, if_neg]
  · rfl
  · rw [hp, List.take_nil, hc, hr]
    simp [hs]

theorem writtenBack_parts (w : Writeback) (x : Tile) : let y := x.writtenBack w
    y.q.held = x.q.held.erase w ∧ y.mem = memWrite x.mem w.addr w.data ∧ y.r = x.r ∧
      ∀ k, k < 448 → y.tagOf k = (x.tagOf k || (tagReaches w.addr w.data.length && w.slots.contains k)) := by
  have frame := filled_frame true w.addr w.data.length w.slots
    ((({ x with q := { x.q with held := x.q.held.erase w } } : Tile)).store w.addr w.data)
  rw [← Tile.writtenBack] at frame
  exact ⟨by rw [frame]; rfl, by rw [frame]; rfl, by rw [frame]; rfl, fun k hk => tagOf_filled _ _ _ _ hk⟩

/-! ### Which waiter goes on (R119) -/

/-- A held writeback on the slot comes first. -/
theorem proceed_held {slot : Nat} {w : Writeback} {ws : List Writeback} (hh : (s.tile t).q.held = w :: ws)
    (hk : w.slots.contains slot = true) (hr : (s.tile t).ready w.slots false = true) :
    exec (.taggedWaitProceed t slot) s = .next (s.completeHeld t w) := by
  have first : ((s.tile t).q.held.find? fun w => w.slots.contains slot) = some w := by
    rw [hh]
    exact List.find?_cons_of_pos hk
  show execTaggedWaitProceed t slot s = _
  simp only [execTaggedWaitProceed, first, hr, if_true]

/-- With no writeback held, a local micro-op that can issue goes to RUN. -/
theorem proceed_local {slot : Nat} (hh : (s.tile t).q.held = []) (hl : (s.tile t).localReady [slot] (s.tile t).q.parked.length = true)
    (hb : (s.tile t).s.seq = .blocked) (ha : s.available t = true) :
    exec (.taggedWaitProceed t slot) s = .next (s.unblock t) := by
  show execTaggedWaitProceed t slot s = _
  rw [execTaggedWaitProceed, hh, List.find?_nil]
  exact congrArg Host.Outcome.next (if_pos ⟨hl, hb, ha⟩)

/-- With no writeback held and no local wait, the parked request on the slot is served when it is ready. -/
theorem proceed_parked {slot : Nat} {p : Packet} (hh : (s.tile t).q.held = []) (hl : (s.tile t).q.waiting = none)
    (hp : (s.tile t).q.parked = [p]) (hk : (pkSlots p).contains slot = true) (hr : (s.tile t).parkedReady p = true) :
    exec (.taggedWaitProceed t slot) s = .next (s.completeParked t 0) := by
  have no_local : ¬ ((s.tile t).localReady [slot] (s.tile t).q.parked.length = true ∧ (s.tile t).s.seq = .blocked ∧
      s.available t = true) := by
    rw [Tile.localReady, hl]
    rintro ⟨found, -⟩
    exact absurd found Bool.false_ne_true
  rw [List.contains_eq_mem, decide_eq_true_eq] at hk
  show execTaggedWaitProceed t slot s = _
  simp only [execTaggedWaitProceed, hh, List.find?_nil, if_neg no_local]
  simp [hp, hk, hr, List.range_succ]

/-! ### Re-issues (R124, R299) -/

theorem reissue_sends {r : Reissue} {rest : List Reissue} (h : (s.tile t).q.reissues = r :: rest)
    (hs : (s.tile t).s.seq = .run ∨ (s.tile t).s.seq = .blocked) (hr : s.runs (s.ptPart t) = true) :
    exec (.reissue t) s =
      .next (((s.passTo r.at_).modTile t fun x => { x with q := { x.q with reissues := rest } }).send r.req) := by
  show execReissue t s = _
  rw [execReissue, h]
  exact congrArg Host.Outcome.next (if_pos ⟨hs, hr⟩)

theorem reissue_waits (hs : (s.tile t).s.seq ≠ .run) (hb : (s.tile t).s.seq ≠ .blocked) : exec (.reissue t) s = .next s := by
  show execReissue t s = _
  unfold execReissue
  dsimp only
  split
  · rfl
  · rw [if_neg (by simp [hs, hb])]

end

/-- Settles O26: each waiter through its own rule; of the waiters on a slot the first that can go on does. -/
theorem parkedWaitersProceed : Obligations.ParkedWaitersProceed := by
  unfold Obligations.ParkedWaitersProceed
  intro s t
  refine ⟨fun i p hp hc hw => congrArg Host.Outcome.next (completeParked_go hp hc hw),
    fun i p hp hw => congrArg Host.Outcome.next (completeParked_waits hp hw), fun slot w hh hk hr hs hc hp => ?held,
    fun slot p hh hl hp hk hr hc => ?parked, fun slot hh hp hl hb ha => proceed_local hh (by rw [hp]; exact hl) hb ha,
    fun r rest h => ⟨fun hs hr => ?sends, reissue_waits⟩⟩
  case held =>
    obtain ⟨held, mem, regs, tags⟩ := writtenBack_parts w (s.tile t)
    refine ⟨_, by rw [proceed_held hh hk hr, completeHeld_go hs hc hr hp], ?_⟩
    rw [State.tile_modTile_same]
    refine ⟨?_, ?_, fun b hb => ?_, tags, regs, onlyTile_modTile ..⟩
    · rw [held, hh, List.erase_cons_head]
    · rw [mem]
      exact memRead_memWrite_same ..
    · rw [mem, get_memWrite, if_neg (by omega)]
  case parked =>
    rw [proceed_parked hh hl hp hk hr, completeParked_go (by rw [hp]; rfl) hc (mustWait_first hr hh hl)]
  case sends =>
    refine ⟨_, reissue_sends h hs hr, rfl, ?_, fun late => ?_⟩
    · rw [tile_send, State.tile_modTile_same]
      rfl
    · exact (State.now_passTo s r.at_ late).symm ▸ Nat.le_max_right _ _

end Sys2Proof.Machine
end

section
/-! SUPPORT. Proofs about responses at the tile that asked (R122, R124, R125, R298, R299). -/

namespace Sys2Proof.Machine

section
variable {s : State} {t : PT} {p r : Packet} {ops : List (BitVec 5)} {f : Packet → State → State}

/-- A response that answers an outstanding request is handed on. -/
theorem respond_asked (hr : s.reaches t = true) (ha : (s.tile t).asked p ops = some r) :
    s.respond t p ops f = f r (s.take p) := by
  have here : (s.take p).reaches t = true := hr
  have found : ((s.take p).tile t).asked p ops = some r := ha
  rw [State.respond, if_neg (by rw [here]; decide), found]

/-- One that answers nothing outstanding is discarded and counted. -/
theorem respond_unasked (hr : s.reaches t = true) (ha : (s.tile t).asked p ops = none) :
    s.respond t p ops f = (s.take p).countEpdisc t := by
  have here : (s.take p).reaches t = true := hr
  have found : ((s.take p).tile t).asked p ops = none := ha
  rw [State.respond, if_neg (by rw [here]; decide), found]

/-! ### What each response does -/

/-- The request ends unanswered: the micro-op that sent it stays blocked. -/
def Tile.lostAnswer (r : Packet) (x : Tile) : Tile := { x.answeredBy r with s := { x.s with lost := true } }

/-- A tile whose program named a faulty access. -/
def Tile.faultCaused (x : Tile) : Tile := { x with s := { x.s with fcause := 4 } }

/-- What an ERR does at the tile that asked: BUSY and RESET set a re-issue; the others end the request, and those of the two
that name a faulty program raise TILE_ILLEGAL. -/
def State.errAt (t : PT) (p r : Packet) (s : State) : State :=
  let k := p.addr.toNat % 8
  if k = errBusy ∨ k = errReset then
    s.modTile t fun x => { x with q := { x.q with
      reissues := x.q.reissues ++ [{ req := r, at_ := s.now + s.cycles t.bay 256 }] } }
  else
    let s := s.modTile t (Tile.lostAnswer r)
    if k = errRefused ∨ k = errImBusy then
      let s := s.modTile t Tile.faultCaused
      s.signal Ev.tileIllegal (s.ptPart t) (tileOps (s.hosted t) t ++ [(s.tile t).s.pc.toNat, 4])
    else s

section
variable (hd : p.dst = .tile t)
include hd

theorem exec_wrAck : exec (.wrAck p) s =
    .next (s.respond t p writeOps fun r s => (s.modTile t (Tile.answeredBy r)).settleDone t) := by
  show execWrAck p s = _
  rw [execWrAck, hd]

theorem exec_rdData : exec (.rdData p) s =
    .next (s.respond t p readOps fun r s => (s.modTile t (Tile.answeredBy r)).rgetData t (pkData p)) := by
  show execRdData p s = _
  rw [execRdData, hd]

theorem exec_err : exec (.err p) s = .next (s.respond t p (readOps ++ writeOps) (State.errAt t p)) := by
  show execErr p s = _
  rw [execErr, hd]
  rfl

end

theorem errAt_again (h : p.addr.toNat % 8 = errBusy ∨ p.addr.toNat % 8 = errReset) : s.errAt t p r =
    s.modTile t fun x => { x with q := { x.q with
      reissues := x.q.reissues ++ [{ req := r, at_ := s.now + s.cycles t.bay 256 }] } } := if_pos h

theorem errAt_illegal (h : p.addr.toNat % 8 = errRefused ∨ p.addr.toNat % 8 = errImBusy) :
    let u := (s.modTile t (Tile.lostAnswer r)).modTile t Tile.faultCaused
    Signals Ev.tileIllegal (u.ptPart t) (tileOps (u.hosted t) t ++ [(u.tile t).s.pc.toNat, 4]) u (s.errAt t p r) := by
  have ends : ¬ (p.addr.toNat % 8 = errBusy ∨ p.addr.toNat % 8 = errReset) := by
    unfold errBusy errReset
    unfold errRefused errImBusy at h
    omega
  intro u
  have raises : s.errAt t p r = u.signal Ev.tileIllegal (u.ptPart t) (tileOps (u.hosted t) t ++ [(u.tile t).s.pc.toNat, 4]) := by
    rw [State.errAt, if_neg ends, if_pos h]
  rw [raises]
  exact signal_spec ..

theorem errAt_uncorr (h : p.addr.toNat % 8 = errUncorr) : s.errAt t p r = s.modTile t (Tile.lostAnswer r) := by
  rw [State.errAt, if_neg (by rw [h]; decide), if_neg (by rw [h]; decide)]

/-! ### Ends of a wait (R124, R125) -/

theorem settleDone_answered {d : Finish} (hd : (s.tile t).s.done = some d) (hw : (s.tile t).writing = false)
    (hl : (s.tile t).s.lost = false) : s.settleDone t =
      (s.modTile t fun x => { x with s := { x.s with done := none } }).retire t d.op d.next d.kind := by
  rw [State.settleDone, hd]
  simp only [hw, hl, Bool.or_self, Bool.false_eq_true, if_false]

/-- The data that have come for an RGET. -/
def Tile.gotData (d : List Byte) (y : Tile) : Tile := { y with q := { y.q with got := some d } }

/-- The data of a blocked RGET whose destination can be written. -/
theorem rgetData_retires {d : List Byte} {port : BitVec 4} {dst : Ops} {w : BitVec 2} {off : BitVec 16} {s2 : State}
    (hu : (s.tile t).uopAt = some (.rget port dst w off)) (ha : (s.tile t).s.arrived = true) (hb : (s.tile t).s.seq = .blocked)
    (hw : (s.modTile t (Tile.gotData d)).writeOp t dst d = .ok s2) : s.rgetData t d = s2.next t 0x0D := by
  have tile : (s.modTile t (Tile.gotData d)).tile t = (s.tile t).gotData d := State.tile_modTile_same ..
  have body : rgetBody t port dst w off (s.modTile t (Tile.gotData d)) = .ok (s2.next t 0x0D) :=
    rgetBody_answered (by rw [tile]; exact ha) (by rw [tile]; rfl) hw
  have same : ((s.modTile t (Tile.gotData d)).tile t).uopAt = some (.rget port dst w off) := by rw [tile]; exact hu
  have waits : ((s.modTile t (Tile.gotData d)).tile t).s.arrived = true ∧
      ((s.modTile t (Tile.gotData d)).tile t).s.seq = .blocked := by rw [tile]; exact ⟨ha, hb⟩
  unfold Tile.gotData at same waits body
  simp only [State.rgetData, same, if_pos waits, body]

/-- No micro-op waits for the data: they are kept. -/
theorem rgetData_kept {d : List Byte} (ha : (s.tile t).s.arrived = false) :
    s.rgetData t d = s.modTile t (Tile.gotData d) := by
  have still : ¬ (((s.modTile t (Tile.gotData d)).tile t).s.arrived = true ∧
      ((s.modTile t (Tile.gotData d)).tile t).s.seq = .blocked) := by
    rw [State.tile_modTile_same]
    simp [Tile.gotData, ha]
  unfold Tile.gotData at still ⊢
  unfold State.rgetData
  dsimp only
  split
  · rw [if_neg still]
  · rfl

end

/-- Settles O27: by the response; each acts on the request that it answers through the rule of its own. -/
theorem responsesReachTheirRequester : Obligations.ResponsesReachTheirRequester := by
  unfold Obligations.ResponsesReachTheirRequester
  intro s t p r hd hr
  have ended (f : Tile → Tile) : ((s.take p).modTile t f).tile t = f (s.tile t) := State.tile_modTile_same ..
  have only (f : Tile → Tile) : OnlyTileNet t s ((s.take p).modTile t f) :=
    OnlyTileNet.trans (b := s.take p) ⟨rfl, fun _ _ => rfl⟩ (onlyTile_modTile ..).net
  refine ⟨fun ha => ⟨fun hn => ?ack, fun d hdone hl hw => ?ackRetires⟩,
    fun ha => ⟨fun port dst w off s2 hu harr hb hw => ?data, fun harr => ?dataKept⟩,
    fun ha => ⟨fun hk => ?again, fun hk => ?illegal, fun hk => ?uncorr⟩, fun ha => ?noAck, fun ha => ?noData, fun ha => ?noErr⟩
  case ack =>
    rw [exec_wrAck hd, respond_asked hr ha, settleDone_none (by rw [ended]; exact hn)]
    rfl
  case ackRetires =>
    rw [exec_wrAck hd, respond_asked hr ha]
    exact congrArg Host.Outcome.next (settleDone_answered (by rw [ended]; exact hdone) hw (by rw [ended]; exact hl))
  case data =>
    rw [exec_rdData hd, respond_asked hr ha]
    exact congrArg Host.Outcome.next (rgetData_retires (by rw [ended]; exact hu) (by rw [ended]; exact harr)
      (by rw [ended]; exact hb) hw)
  case dataKept =>
    rw [exec_rdData hd, respond_asked hr ha, rgetData_kept (by rw [ended]; exact harr)]
    rfl
  case again => exact ⟨_, by rw [exec_err hd, respond_asked hr ha, errAt_again hk], ended _, rfl, only _⟩
  case illegal =>
    have raised := errAt_illegal (s := s.take p) (t := t) (r := r) hk
    have tile : (((s.take p).modTile t (Tile.lostAnswer r)).modTile t Tile.faultCaused).tile t =
        ((s.tile t).lostAnswer r).faultCaused := by rw [State.tile_modTile_same, ended]
    have moved : OnlyTileNet t s (((s.take p).modTile t (Tile.lostAnswer r)).modTile t Tile.faultCaused) :=
      (only _).trans (onlyTile_modTile ..).net
    dsimp only at raised
    generalize ((s.take p).modTile t (Tile.lostAnswer r)).modTile t Tile.faultCaused = u at *
    rw [tile] at raised
    refine ⟨_, u, by rw [exec_err hd, respond_asked hr ha], moved, ?_, ?_, ?_, ?_, raised⟩ <;> rw [tile] <;> rfl
  case uncorr => rw [exec_err hd, respond_asked hr ha, errAt_uncorr hk]; rfl
  case noAck => rw [exec_wrAck hd, respond_unasked hr ha]
  case noData => rw [exec_rdData hd, respond_unasked hr ha]
  case noErr => rw [exec_err hd, respond_unasked hr ha]

end Sys2Proof.Machine
end

section
/-!
SUPPORT. A region past DRAIN_LIMIT whose inlet belongs to a logical tile outside the grid of R34: the word that would name its
bay's owner is then the TAIL of an event log, which DRAIN_TIMEOUT moves (R203, R206, R620, R634).
-/

namespace Sys2Proof.Machine

/-- LT(480, 66528), beyond the 1440 × 672 logical tiles of R34: its bay number is 8320, and bits 3 to 0 of
`HST_EVLOG_TAIL@1` stand where the owner of that bay would. -/
def offGridTile : LT := { x := 480, y := 66528 }

/-- The tile that is recorded as the host of it, and the one that a dry fit of partition 1 tries for it. -/
def confirmedHost : PT := { bay := 0, col := 0, row := 0 }
def openHost : PT := { bay := 0, col := 1, row := 0 }

/-- A Frame whose region 0 has one inlet: queue 0 of the tile. -/
def offGridFrame : Frame := { Frame.empty with
  queues := [{ t := offGridTile, q := 0, prod := .port { x := 0, y := 0 } 0, inlet := true, start := false }] }

/-- Region 0 of partition 1 is EMPTYING, its recalls confirmed and its tiles quiet, past any DRAIN_LIMIT; the event log of PF1
takes entries. -/
def offGridState : State :=
  let s := State.reset.setTile confirmedHost { Tile.reset with
    s := { TileSeq.reset with seq := .idle }, queues := [(0, { Queue.reset with confirmed := true })] }
  let s := { s with comp := { s.comp with hosts := [(offGridTile.key, some confirmedHost)] }, tide := 0x10000000,
                    host := { s.host with pcie := { s.host.pcie with up := true } } }
  let s := s.setReg (Reg.hstEvlogCfg 1) 0x10002
  let s := s.modOwn 1 fun o => { o with frame := some offGridFrame }
  let s := s.modCommit 1 fun c => { c with trials := [(offGridTile.key, openHost)] }
  s.setRegion 1 0 { st := .emptying, mode := .boundary, goAt := 0 }

/-- Past DRAIN_LIMIT the region is STUCK first, and its inlet is then read at the other host. -/
theorem stick_offGrid : (offGridState.stick 1 0).inletsConfirmed 1 0 = false := by decide

/-- So it stays STUCK. -/
theorem regionDrained_offGrid : exec (.regionDrained 1 0) offGridState = .next (offGridState.stick 1 0) := by
  have late : (offGridState.region 1 0).st ≠ .purging ∧ offGridState.drainLimit 1 0 ≤ offGridState.now := by decide
  show execRegionDrained 1 0 offGridState = _
  simp only [execRegionDrained, if_pos late, stick_offGrid, if_true]

theorem region_setRegion (s : State) (p r : Nat) (x : Region) : (s.setRegion p r x).region p r = x := by
  rw [State.region, State.setRegion, State.modRun, State.modPart, State.part_setPart_same]
  exact Tab.get_set_same ..

/-- Entering DRAINED gives the region that state, whatever it was. -/
theorem region_enterDrained (p r : Nat) (s : State) : ((s.enterDrained p r).region p r).st = .drained := by
  have kept (ops : List Nat) (u : State) : (u.signal Ev.regionDrained p ops).region p r = u.region p r := by
    have same : (u.signal Ev.regionDrained p ops).comp = u.comp := (signal_spec ..).comp (by decide)
    rw [State.region, State.part_congr (congrArg Compute.parts same), State.region]
  rw [State.enterDrained, kept]
  exact congrArg Region.st (region_setRegion ..)

/-- Refutes O34: where the inlet's tile lies outside the grid, DRAIN_TIMEOUT's entry in the event log moves the word that names
its bay's owner; its recall is then confirmed no more, and the region stays STUCK where the claim has it DRAINED. -/
theorem not_drainsMoveTheRegion : ¬ Obligations.DrainsMoveTheRegion := by
  unfold Obligations.DrainsMoveTheRegion
  intro h
  obtain ⟨-, -, -, late, -⟩ := h offGridState 1 0
  have claimed := late (by decide) (by decide) (by decide) (by decide)
  have same := Host.Outcome.next.inj (regionDrained_offGrid.symm.trans claimed)
  have stuck : ((offGridState.stick 1 0).region 1 0).st = .stuck := by decide
  rw [same, region_enterDrained] at stuck
  exact absurd stuck (by decide)

end Sys2Proof.Machine
end

section
/-!
SUPPORT. The host's windows onto tiles and routers, and the selected reads that advance their index (R162, R163, R327,
R328, R376, R502, R581).
-/

namespace Sys2Proof.Machine

/-! ### The end of an access -/

theorem endAccess_onlyRegs (s : State) (sel inc lo st : Nat) : OnlyRegs [sel] s (s.endAccess sel inc lo st) := by
  unfold State.endAccess
  by_cases h : ((s.setField sel 63 61 st).reg sel).getLsbD inc = true
  · simp only [h, if_true]
    refine ⟨rfl, fun a ha => ?_⟩
    have hne : a ≠ sel := List.mem_singleton.not.1 ha
    rw [State.reg_setField_ne _ _ _ _ hne, State.reg_setField_ne _ _ _ _ hne]
  · simp only [h, Bool.false_eq_true, if_false]
    exact onlyRegs_setReg s sel _

theorem comp_endAccess (s : State) (sel inc lo st : Nat) : (s.endAccess sel inc lo st).comp = s.comp := by
  rw [(endAccess_onlyRegs s sel inc lo st).1]
theorem out_endAccess (s : State) (sel inc lo st : Nat) : (s.endAccess sel inc lo st).out = s.out := by
  rw [(endAccess_onlyRegs s sel inc lo st).1]
theorem tile_endAccess (s : State) (sel inc lo st : Nat) (u : PT) : (s.endAccess sel inc lo st).tile u = s.tile u := by
  rw [(endAccess_onlyRegs s sel inc lo st).1]; rfl
theorem router_endAccess (s : State) (sel inc lo st : Nat) (u : PT) :
    (s.endAccess sel inc lo st).router u = s.router u := by
  rw [(endAccess_onlyRegs s sel inc lo st).1]; rfl

/-- Setting ST leaves the lower bits of the selection. -/
theorem getLsbD_setField_st (s : State) (sel st : Nat) {inc : Nat} (h : inc < 61) :
    ((s.setField sel 63 61 st).reg sel).getLsbD inc = (s.reg sel).getLsbD inc := by
  rw [State.setField, State.reg_setReg_same, getLsbD_withField _ _ _ _ _ (by omega) (by omega) (by omega), if_neg (by omega)]

/-- ST holds the outcome. -/
theorem field_endAccess_st (s : State) (sel inc : Nat) {lo st : Nat} (hlo : lo + 15 < 61) (hst : st < 8) :
    (s.endAccess sel inc lo st).field sel 63 61 = st := by
  have hset : (s.setField sel 63 61 st).field sel 63 61 = st := by
    rw [State.field_setField_same _ _ _ _ _ (by omega) (by omega)]
    exact Nat.mod_eq_of_lt hst
  unfold State.endAccess
  by_cases h : ((s.setField sel 63 61 st).reg sel).getLsbD inc = true
  · simp only [h, if_true]
    rw [State.field_setField_apart _ _ _ _ _ _ _ (by omega) (by omega) (by omega) (by omega) (.inr hlo), hset]
  · simp only [h, Bool.false_eq_true, if_false]
    exact hset

/-- ADDR advances by 8 when INC is set. -/
theorem field_endAccess_addr (s : State) (sel st : Nat) {inc lo : Nat} (hinc : inc < 61) (hlo : lo + 15 < 61) :
    (s.endAccess sel inc lo st).field sel (lo + 15) lo =
      if (s.reg sel).getLsbD inc then (s.field sel (lo + 15) lo + 8) % 2 ^ 16 else s.field sel (lo + 15) lo := by
  have hset : (s.setField sel 63 61 st).field sel (lo + 15) lo = s.field sel (lo + 15) lo :=
    State.field_setField_apart _ _ _ _ _ _ _ (by omega) (by omega) (by omega) (by omega) (.inl hlo)
  have hwidth : lo + 15 + 1 - lo = 16 := by omega
  rw [← getLsbD_setField_st s sel st hinc]
  unfold State.endAccess
  by_cases h : ((s.setField sel 63 61 st).reg sel).getLsbD inc = true
  · simp only [h, if_true]
    rw [State.field_setField_same _ _ _ _ _ (by omega) (by omega), hset, hwidth]
  · simp only [h, Bool.false_eq_true, if_false]
    exact hset

/-- An access from `s` is over at `t`: ST is the outcome, and ADDR has advanced by 8 when INC was set. -/
def WindowEnded (sel inc lo st : Nat) (s t : State) : Prop :=
  t.field sel 63 61 = st ∧ t.field sel (lo + 15) lo =
    if (s.reg sel).getLsbD inc then (s.field sel (lo + 15) lo + 8) % 2 ^ 16 else s.field sel (lo + 15) lo

/-- It is so after an access that ends at `u`, whose selection is still the one of `s`. -/
theorem windowEnded_endAccess {s u : State} {sel inc lo st : Nat} (hreg : u.reg sel = s.reg sel) (hinc : inc < 61)
    (hlo : lo + 15 < 61) (hst : st < 8) : WindowEnded sel inc lo st s (u.endAccess sel inc lo st) := by
  have hfield : u.field sel (lo + 15) lo = s.field sel (lo + 15) lo := by simp only [State.field, hreg]
  refine ⟨field_endAccess_st u sel inc hlo hst, ?_⟩
  rw [field_endAccess_addr u sel st hinc hlo, hreg, hfield]

/-! ### The window onto a tile -/

theorem windowTile_none {s : State} {b : Nat} (h : s.selTile b = none) : s.windowTile b = .error 2 := by
  simp only [State.windowTile, h]
theorem windowTile_off {s : State} {b : Nat} {x : PT} (h : s.selTile b = some x) (hoff : (s.tile x).s.seq = .off) :
    s.windowTile b = .error 1 := by
  simp only [State.windowTile, h, hoff, if_true]
theorem windowTile_ok {s : State} {b : Nat} {x : PT} (h : s.selTile b = some x) (hon : (s.tile x).s.seq ≠ .off) :
    s.windowTile b = .ok x := by
  simp only [State.windowTile, h, hon, if_false]

/-- What a window answers: data for a read, nothing for a write. -/
def State.windowReply (reg : Nat) (write : Option Word) (v : Word) (s : State) : State :=
  if write.isSome then s else s.emitOut (.regData 0 reg v)

section
variable {s : State} {b : Nat} (hb : b < 84) (hsill : (s.bay b).sill = true)
include hb hsill

/-- A bay whose window is there. -/
theorem window_there : ¬ (84 ≤ b ∨ (s.bay b).sill = false) := by
  rw [hsill]
  simp only [Bool.true_eq_false, or_false]
  omega

theorem exec_silTdata_error {st : Nat} (h : s.windowTile b = .error st) (w : Option Word) :
    exec (.silTdataAccess b w) s =
      .next ((s.endAccess (Reg.silTsel b) 23 32 st).windowReply (Reg.silTdata b) w 0) := by
  change execSilTdataAccess b w s = _
  simp only [execSilTdataAccess, window_there hb hsill, if_false, h]
  rfl

theorem exec_silTdata_read {x : PT} (h : s.windowTile b = .ok x) :
    exec (.silTdataAccess b none) s =
      .next (((s.rawRead x (s.field (Reg.silTsel b) 47 32)).2.2.endAccess (Reg.silTsel b) 23 32
        (s.rawRead x (s.field (Reg.silTsel b) 47 32)).1).emitOut
          (.regData 0 (Reg.silTdata b) (s.rawRead x (s.field (Reg.silTsel b) 47 32)).2.1)) := by
  change execSilTdataAccess b none s = _
  simp only [execSilTdataAccess, window_there hb hsill, if_false, h]
  rfl

theorem exec_silTdata_write {x : PT} (h : s.windowTile b = .ok x) (v : Word) :
    exec (.silTdataAccess b (some v)) s =
      .next ((s.rawWrite x (s.field (Reg.silTsel b) 47 32) v).2.endAccess (Reg.silTsel b) 23 32
        (s.rawWrite x (s.field (Reg.silTsel b) 47 32) v).1) := by
  change execSilTdataAccess b (some v) s = _
  simp only [execSilTdataAccess, window_there hb hsill, if_false, h]

end

/-- The selections of a bay are not registers of an event log. -/
theorem silTsel_not_log (b : Nat) : ¬ IsLogReg (Reg.silTsel b) := by
  rintro ⟨f, h⟩
  simp only [Reg.silTsel, Reg.hstEvlogTail, Reg.hstFuncstat, Reg.hst] at h
  grind

theorem reg_ceHigh (s : State) (t : PT) (x : Tile) {a : Nat} (ha : ¬ IsLogReg a) : (s.ceHigh t x).reg a = s.reg a := by
  obtain h | ⟨u, p, ops, hu, h⟩ := ceHigh_spec s t x
  · rw [h]
  · rw [h, State.reg_modTile_, hu.reg ha]

section
variable {s : State} {x : PT} {a : Nat} {v : Word}

theorem rawRead_ok {d : List Byte} {y : Tile} (h : (s.tile x).readLocal x (s.hosted x) a 8 = .ok (d, y)) :
    s.rawRead x a = (0, BitVec.ofNat 64 (ofLe d), (s.setTile x y).ceHigh x (s.tile x)) := by
  simp only [State.rawRead, h]
theorem rawRead_illegal {e : Stop} (h : (s.tile x).readLocal x (s.hosted x) a 8 = .error e) (he : ∀ w, e ≠ .uncorr w) :
    s.rawRead x a = (2, 0, s) := by
  cases e with
  | uncorr w => exact absurd rfl (he w)
  | _ => simp only [State.rawRead, h]
theorem rawRead_uncorr {w : CodeWord} (h : (s.tile x).readLocal x (s.hosted x) a 8 = .error (.uncorr w)) :
    s.rawRead x a = (4, 0, s.sramUncorr x w) := by
  simp only [State.rawRead, h]

theorem rawWrite_inaccessible (h : accessible a 8 = false) : s.rawWrite x a v = (2, s) := by
  simp only [State.rawWrite, h, if_true]
theorem rawWrite_im (h : accessible a 8 = true) (him : memAt a = some .im ∧ ((s.tile x).s.seq = .run ∨ (s.tile x).s.seq = .blocked)) :
    s.rawWrite x a v = (3, s) := by
  simp only [State.rawWrite, h, him, Bool.true_eq_false, if_false, true_and, if_true]
theorem rawWrite_store (h : accessible a 8 = true) (ha : a < 0xF000)
    (him : ¬ (memAt a = some .im ∧ ((s.tile x).s.seq = .run ∨ (s.tile x).s.seq = .blocked))) :
    s.rawWrite x a v = (0, s.modTile x fun y => y.store a (leBytes 8 v.toNat)) := by
  have hreg : ¬ 0xF000 ≤ a := by omega
  simp only [State.rawWrite, h, him, hreg, Bool.true_eq_false, if_false]

end

/-! ### The window onto a router -/

section
variable {s : State} {b : Nat} {x : PT} (hb : b < 84) (hsill : (s.bay b).sill = true) (hx : s.windowTile b = .ok x)
include hb hsill hx

theorem exec_silRtdata_reserved (h : s.routerWord x (s.field (Reg.silRtsel b) 15 0) = none) (w : Option Word) :
    exec (.silRtdataAccess b w) s =
      .next ((s.endAccess (Reg.silRtsel b) 16 0 2).windowReply (Reg.silRtdata b) w 0) := by
  change execSilRtdataAccess b w s = _
  simp only [execSilRtdataAccess, window_there hb hsill, if_false, hx, h]
  rfl

theorem exec_silRtdata_read {v : Word} (h : s.routerWord x (s.field (Reg.silRtsel b) 15 0) = some v) :
    exec (.silRtdataAccess b none) s =
      .next ((s.endAccess (Reg.silRtsel b) 16 0 0).emitOut (.regData 0 (Reg.silRtdata b) v)) := by
  change execSilRtdataAccess b none s = _
  simp only [execSilRtdataAccess, window_there hb hsill, if_false, hx, h]
  rfl

theorem exec_silRtdata_refused (h : (s.routerWord x (s.field (Reg.silRtsel b) 15 0)).isSome = true)
    (ha : s.field (Reg.silRtsel b) 15 0 ≠ 0x20) (v : Word) :
    exec (.silRtdataAccess b (some v)) s = .next (s.endAccess (Reg.silRtsel b) 16 0 3) := by
  obtain ⟨old, hold⟩ := Option.isSome_iff_exists.1 h
  change execSilRtdataAccess b (some v) s = _
  simp only [execSilRtdataAccess, window_there hb hsill, if_false, hx, hold, ha]

theorem exec_silRtdata_fabCtl (ha : s.field (Reg.silRtsel b) 15 0 = 0x20) (v : Word) :
    exec (.silRtdataAccess b (some v)) s = .next
      ((if v.getLsbD 0 then after (execFabCtlClr x s) s else s).endAccess (Reg.silRtsel b) 16 0 0) := by
  have hold : s.routerWord x 0x20 = some 0 := rfl
  change execSilRtdataAccess b (some v) s = _
  simp only [execSilRtdataAccess, window_there hb hsill, if_false, hx, ha, hold, if_true]

end

/-! ### The clauses about the windows -/

/-- An access that fails before it reaches a tile: ST, the selection moves on, and nothing else but what it answers. -/
theorem silTdata_fails {s : State} {b st : Nat} (hb : b < 84) (hsill : (s.bay b).sill = true) (hst : st < 8)
    (h : s.windowTile b = .error st) (w : Option Word) :
    ∃ t, exec (.silTdataAccess b w) s = .next t ∧
      WindowEnded (Reg.silTsel b) 23 32 st s t ∧
      t.out = (s.windowReply (Reg.silTdata b) w 0).out ∧ SameTiles s t ∧
      OnlyRegs [Reg.silTsel b] { s with out := t.out } t := by
  have hframe := endAccess_onlyRegs s (Reg.silTsel b) 23 32 st
  have hended := windowEnded_endAccess (s := s) (u := s) (sel := Reg.silTsel b) (inc := 23) (lo := 32) (st := st) rfl
    (by decide) (by decide) hst
  have htile := tile_endAccess s (Reg.silTsel b) 23 32 st
  have hout := out_endAccess s (Reg.silTsel b) 23 32 st
  refine ⟨_, exec_silTdata_error hb hsill h w, ?_⟩
  generalize s.endAccess (Reg.silTsel b) 23 32 st = u at hframe hended htile hout ⊢
  obtain ⟨hu, hregs⟩ := hframe
  cases w with
  | none => exact ⟨hended, by simp [State.windowReply, State.emitOut, hout], htile, by
      rw [hu]; rfl, hregs⟩
  | some v => exact ⟨hended, hout, htile, by rw [hu]; rfl, hregs⟩

/-- A read by the window that finds its 8 bytes, and one that finds none. -/
theorem silTdata_read_ok {s : State} {b : Nat} {x : PT} (hb : b < 84) (hsill : (s.bay b).sill = true)
    (hx : s.windowTile b = .ok x) {d : List Byte} {y : Tile}
    (h : (s.tile x).readLocal x (s.hosted x) (s.field (Reg.silTsel b) 47 32) 8 = .ok (d, y)) :
    ∃ t rest, exec (.silTdataAccess b none) s = .next t ∧
      WindowEnded (Reg.silTsel b) 23 32 0 s t ∧
      t.out = .regData 0 (Reg.silTdata b) (BitVec.ofNat 64 (ofLe d)) :: rest := by
  have hexec := exec_silTdata_read hb hsill hx
  rw [rawRead_ok h] at hexec
  dsimp only at hexec
  have hreg : ((s.setTile x y).ceHigh x (s.tile x)).reg (Reg.silTsel b) = s.reg (Reg.silTsel b) :=
    reg_ceHigh _ _ _ (silTsel_not_log b)
  exact ⟨_, _, hexec, windowEnded_endAccess (inc := 23) (lo := 32) hreg (by decide) (by decide) (by decide), rfl⟩

theorem silTdata_read_illegal {s : State} {b : Nat} {x : PT} (hb : b < 84) (hsill : (s.bay b).sill = true)
    (hx : s.windowTile b = .ok x) {e : Stop}
    (h : (s.tile x).readLocal x (s.hosted x) (s.field (Reg.silTsel b) 47 32) 8 = .error e) (he : ∀ w, e ≠ .uncorr w) :
    ∃ t, exec (.silTdataAccess b none) s = .next t ∧
      WindowEnded (Reg.silTsel b) 23 32 2 s t ∧
      t.out = .regData 0 (Reg.silTdata b) 0 :: s.out ∧ SameTiles s t := by
  have hexec := exec_silTdata_read hb hsill hx
  rw [rawRead_illegal h he] at hexec
  dsimp only at hexec
  refine ⟨_, hexec, windowEnded_endAccess (inc := 23) (lo := 32) rfl (by decide) (by decide) (by decide), ?_,
    fun u => tile_endAccess s _ _ _ _ u⟩
  rw [State.emitOut_out, out_endAccess]

theorem silTdata_read_uncorr {s : State} {b : Nat} {x : PT} (hb : b < 84) (hsill : (s.bay b).sill = true)
    (hx : s.windowTile b = .ok x) {w : CodeWord}
    (h : (s.tile x).readLocal x (s.hosted x) (s.field (Reg.silTsel b) 47 32) 8 = .error (.uncorr w)) :
    ∃ t, exec (.silTdataAccess b none) s = .next t ∧ t.field (Reg.silTsel b) 63 61 = 4 := by
  have hexec := exec_silTdata_read hb hsill hx
  rw [rawRead_uncorr h] at hexec
  dsimp only at hexec
  exact ⟨_, hexec, field_endAccess_st _ _ _ (by decide) (by decide)⟩

/-- A write by the window that is refused, and one that stores its 8 bytes. -/
theorem silTdata_write_refused {s : State} {b st : Nat} {x : PT} (hb : b < 84) (hsill : (s.bay b).sill = true)
    (hx : s.windowTile b = .ok x) {v : Word} (hst : st < 8)
    (h : s.rawWrite x (s.field (Reg.silTsel b) 47 32) v = (st, s)) :
    ∃ t, exec (.silTdataAccess b (some v)) s = .next t ∧
      WindowEnded (Reg.silTsel b) 23 32 st s t ∧ SameTiles s t := by
  have hexec := exec_silTdata_write hb hsill hx v
  rw [h] at hexec
  exact ⟨_, hexec, windowEnded_endAccess (inc := 23) (lo := 32) rfl (by decide) (by decide) hst,
    fun u => tile_endAccess s _ _ _ _ u⟩

theorem silTdata_write_store {s : State} {b : Nat} {x : PT} (hb : b < 84) (hsill : (s.bay b).sill = true)
    (hx : s.windowTile b = .ok x) {v : Word}
    (h : s.rawWrite x (s.field (Reg.silTsel b) 47 32) v =
      (0, s.modTile x fun y => y.store (s.field (Reg.silTsel b) 47 32) (leBytes 8 v.toNat))) :
    ∃ t, exec (.silTdataAccess b (some v)) s = .next t ∧
      WindowEnded (Reg.silTsel b) 23 32 0 s t ∧
      t.tile x = (s.tile x).store (s.field (Reg.silTsel b) 47 32) (leBytes 8 v.toNat) ∧ t.out = s.out ∧
      ∀ u : PT, u.key ≠ x.key → t.tile u = s.tile u := by
  have hexec := exec_silTdata_write hb hsill hx v
  rw [h] at hexec
  dsimp only at hexec
  refine ⟨_, hexec, windowEnded_endAccess (inc := 23) (lo := 32) rfl (by decide) (by decide) (by decide), ?_, ?_, fun u hu => ?_⟩
  · rw [tile_endAccess, State.tile_modTile_same]
  · exact out_endAccess _ _ _ _ _
  · rw [tile_endAccess, State.tile_modTile_ne _ _ hu]

section
variable {s : State} {b : Nat} {x : PT} (hb : b < 84) (hsill : (s.bay b).sill = true) (hx : s.windowTile b = .ok x)
include hb hsill hx

/-- The router's space by the window: a read. -/
theorem silRtdata_read {v : Word} (h : s.routerWord x (s.field (Reg.silRtsel b) 15 0) = some v) :
    ∃ t, exec (.silRtdataAccess b none) s = .next t ∧
      WindowEnded (Reg.silRtsel b) 16 0 0 s t ∧
      t.out = .regData 0 (Reg.silRtdata b) v :: s.out ∧ t.comp = s.comp := by
  refine ⟨_, exec_silRtdata_read hb hsill hx h,
    windowEnded_endAccess (inc := 16) (lo := 0) rfl (by decide) (by decide) (by decide), ?_, comp_endAccess _ _ _ _ _⟩
  rw [State.emitOut_out, out_endAccess]

/-- An access of a reserved address of the router's space. -/
theorem silRtdata_reserved (h : s.routerWord x (s.field (Reg.silRtsel b) 15 0) = none) (w : Option Word) :
    ∃ t, exec (.silRtdataAccess b w) s = .next t ∧
      WindowEnded (Reg.silRtsel b) 16 0 2 s t ∧ t.comp = s.comp := by
  have hended := windowEnded_endAccess (s := s) (u := s) (sel := Reg.silRtsel b) (inc := 16) (lo := 0) (st := 2) rfl
    (by decide) (by decide) (by decide)
  have hcomp := comp_endAccess s (Reg.silRtsel b) 16 0 2
  refine ⟨_, exec_silRtdata_reserved hb hsill hx h w, ?_⟩
  cases w with
  | none => exact ⟨hended, hcomp⟩
  | some v => exact ⟨hended, hcomp⟩

/-- A write of a register of the router other than FAB_CTL. -/
theorem silRtdata_refused (h : (s.routerWord x (s.field (Reg.silRtsel b) 15 0)).isSome = true)
    (ha : s.field (Reg.silRtsel b) 15 0 ≠ 0x20) (v : Word) :
    ∃ t, exec (.silRtdataAccess b (some v)) s = .next t ∧
      WindowEnded (Reg.silRtsel b) 16 0 3 s t ∧ t.comp = s.comp ∧ t.out = s.out :=
  ⟨_, exec_silRtdata_refused hb hsill hx h ha v,
    windowEnded_endAccess (inc := 16) (lo := 0) rfl (by decide) (by decide) (by decide),
    comp_endAccess _ _ _ _ _, out_endAccess _ _ _ _ _⟩

/-- A write of FAB_CTL: with CLR the router's counts are cleared. -/
theorem silRtdata_fabCtl (ha : s.field (Reg.silRtsel b) 15 0 = 0x20) (v : Word) :
    ∃ t, exec (.silRtdataAccess b (some v)) s = .next t ∧
      WindowEnded (Reg.silRtsel b) 16 0 0 s t ∧
      t.router x = if v.getLsbD 0 then { s.router x with retry := 0, onoff := 0, rsfail := 0, epdisc := 0, divert := 0 }
        else s.router x := by
  refine ⟨_, exec_silRtdata_fabCtl hb hsill hx ha v, ?_⟩
  by_cases hclr : v.getLsbD 0 = true
  · simp only [hclr, if_true]
    refine ⟨windowEnded_endAccess (inc := 16) (lo := 0) rfl (by decide) (by decide) (by decide), ?_⟩
    rw [router_endAccess]
    exact State.router_modRouter_same s x fun r =>
      { r with retry := 0, onoff := 0, rsfail := 0, epdisc := 0, divert := 0 }
  · simp only [hclr, Bool.false_eq_true, if_false]
    exact ⟨windowEnded_endAccess (inc := 16) (lo := 0) rfl (by decide) (by decide) (by decide), router_endAccess _ _ _ _ _ _⟩

end

end Sys2Proof.Machine
end

section
/-!
SUPPORT. Reads of selected entries that advance their index, the readers of the log, and the I3C target (R376, R502, R581,
R832 to R836, R860).
-/

namespace Sys2Proof.Machine

/-! ### Reads that advance an index -/

/-- A read that answers `d` and with INC set counts its selection's index up. -/
def State.advancingRead (sel inc hi lo : Nat) (o : Output) (s : State) : State :=
  if (s.reg sel).getLsbD inc then (s.emitOut o).bumpWrap sel hi lo 1 else s.emitOut o

theorem advancingRead_spec (s : State) (sel inc : Nat) {hi lo : Nat} (o : Output) (h : lo ≤ hi) (hh : hi < 64) :
    (s.advancingRead sel inc hi lo o).out = o :: s.out ∧
      (s.advancingRead sel inc hi lo o).field sel hi lo =
        (if (s.reg sel).getLsbD inc then (s.field sel hi lo + 1) % 2 ^ (hi + 1 - lo) else s.field sel hi lo) ∧
      OnlyRegs [sel] { s with out := (s.advancingRead sel inc hi lo o).out } (s.advancingRead sel inc hi lo o) := by
  unfold State.advancingRead
  by_cases hinc : (s.reg sel).getLsbD inc = true
  · simp only [hinc, if_true]
    exact ⟨rfl, State.field_bumpWrap _ sel hi lo 1 h hh, onlyRegs_setReg (s.emitOut o) sel _⟩
  · simp only [hinc, Bool.false_eq_true, if_false]
    exact ⟨rfl, rfl, rfl, fun _ _ => rfl⟩

theorem exec_prtMapDataRead (s : State) {f p : Nat} (h : f = 0 ∨ f = p) : exec (.prtMapDataRead f p) s =
    .next (s.advancingRead (Reg.prtMapSel p) 20 19 0 (.regData f (Reg.prtMapData p) (s.mapData p))) := by
  have hf : ¬ (f ≠ 0 ∧ f ≠ p) := by tauto
  change execPrtMapDataRead f p s = _
  simp only [execPrtMapDataRead, hf, if_false]
  rfl

theorem exec_prtMapDataRead_other (s : State) {f p : Nat} (h0 : f ≠ 0) (hp : f ≠ p) :
    exec (.prtMapDataRead f p) s = .next s := by
  change execPrtMapDataRead f p s = _
  simp only [execPrtMapDataRead, h0, hp, ne_eq, not_false_eq_true, and_self, if_true]

theorem exec_fltFdataRead_second (s : State) : exec (.fltFdataRead true) s =
    .next (s.advancingRead Reg.fltFsel 32 31 0 (.regData 0 Reg.fltFdata1 s.man.fltLatch)) := rfl

theorem exec_jnrStrdataRead_second (s : State) : exec (.jnrStrdataRead true) s =
    .next (s.advancingRead Reg.jnrStrsel 32 6 0 (.regData 0 Reg.jnrStrdata1 s.man.strLatch)) := rfl

/-! ### The readers of the log -/

section
variable (s : State) (i : Inst) (x : Reader)

@[simp] theorem reader_setReader_same : (s.setReader i x).reader i = x := by cases i <;> rfl
theorem reader_setReader_ne {j : Inst} (h : j ≠ i) : (s.setReader i x).reader j = s.reader j := by
  cases i <;> cases j
  · exact absurd rfl h
  · rfl
  · rfl
  · exact absurd rfl h
@[simp] theorem grain_setReader : (s.setReader i x).grain = s.grain := by cases i <;> rfl
@[simp] theorem pins_setReader : (s.setReader i x).man.pins = s.man.pins := by cases i <;> rfl
@[simp] theorem out_setReader : (s.setReader i x).out = s.out := by cases i <;> rfl

end

/-- Drawing bytes that the spec leaves open changes nothing but what is left to draw. -/
theorem openBytes_onlyFree (n : Nat) (s : State) : (s.openBytes n).2 = { s with free := (s.openBytes n).2.free } := by
  induction n generalizing s with
  | zero => rfl
  | succ n ih => exact ih s.draw.2
theorem reader_openBytes (n : Nat) (s : State) (j : Inst) : (s.openBytes n).2.reader j = s.reader j := by
  rw [openBytes_onlyFree]
  cases j <;> rfl

/-- A fetch at its reader's SEL: what its ST and buffer may become. -/
inductive Fetched (s : State) (i : Inst) (x : Reader) : State → Prop where
  | committed (d : List Byte) : s.grain.held (fieldOf x.sel 63 62) (fieldOf x.sel 31 0) = true →
      s.grain.slot (fieldOf x.sel 63 62) (fieldOf x.sel 31 0) = .record d → recSeq d = fieldOf x.sel 31 0 →
      Fetched s i x (s.setReader i { x with st := 1, seq := BitVec.ofNat 32 (fieldOf x.sel 31 0), buf := d })
  | torn : s.grain.held (fieldOf x.sel 63 62) (fieldOf x.sel 31 0) = true →
      s.grain.slot (fieldOf x.sel 63 62) (fieldOf x.sel 31 0) = .torn →
      Fetched s i x ((s.openBytes 256).2.setReader i
        { x with st := 2, seq := BitVec.ofNat 32 (fieldOf x.sel 31 0), buf := (s.openBytes 256).1 })
  | gone : ¬ (s.grain.held (fieldOf x.sel 63 62) (fieldOf x.sel 31 0) = true ∧
        (s.grain.slot (fieldOf x.sel 63 62) (fieldOf x.sel 31 0) = .torn ∨
          ∃ d, s.grain.slot (fieldOf x.sel 63 62) (fieldOf x.sel 31 0) = .record d ∧ recSeq d = fieldOf x.sel 31 0)) →
      Fetched s i x (s.setReader i
        { x with st := 3, seq := BitVec.ofNat 32 (fieldOf x.sel 31 0), buf := List.replicate 256 0xFF })

theorem fetched_fetchSlot (s : State) (i : Inst) : Fetched s i (s.reader i) (s.fetchSlot i) := by
  unfold State.fetchSlot
  cases hheld : s.grain.held (fieldOf (s.reader i).sel 63 62) (fieldOf (s.reader i).sel 31 0) with
  | false =>
    simp only [if_true, hheld]
    exact .gone fun h => by simp [hheld] at h
  | true =>
    simp only [hheld, Bool.true_eq_false, if_false]
    cases hslot : s.grain.slot (fieldOf (s.reader i).sel 63 62) (fieldOf (s.reader i).sel 31 0) with
    | free => exact .gone fun h => by simp [hslot] at h
    | torn => exact .torn hheld hslot
    | record d =>
      by_cases hseq : recSeq d = fieldOf (s.reader i).sel 31 0
      · simp only [hseq, if_true]
        exact .committed d hheld hslot hseq
      · simp only [hseq, if_false]
        exact .gone fun h => by simp [hslot, hseq] at h

section
variable {s t : State} {i : Inst} {x : Reader}

/-- What every fetch keeps and gives. -/
theorem Fetched.sel (h : Fetched s i x t) : (t.reader i).sel = x.sel := by
  cases h <;> rw [reader_setReader_same]
theorem Fetched.seq (h : Fetched s i x t) : (t.reader i).seq.toNat = fieldOf x.sel 31 0 := by
  have hlt : fieldOf x.sel 31 0 < 2 ^ 32 := fieldOf_lt x.sel 31 0
  have hseq : (BitVec.ofNat 32 (fieldOf x.sel 31 0)).toNat = fieldOf x.sel 31 0 := by
    rw [BitVec.toNat_ofNat, Nat.mod_eq_of_lt hlt]
  cases h <;> simp only [reader_setReader_same, hseq]
theorem Fetched.out (h : Fetched s i x t) : t.out = s.out := by
  cases h with
  | committed d => exact out_setReader ..
  | torn => rw [out_setReader, openBytes_onlyFree]
  | gone => exact out_setReader ..
theorem Fetched.pins (h : Fetched s i x t) : t.man.pins = s.man.pins := by
  cases h with
  | committed d => exact pins_setReader ..
  | torn => rw [pins_setReader, openBytes_onlyFree]
  | gone => exact pins_setReader ..
theorem Fetched.other (h : Fetched s i x t) {j : Inst} (hj : j ≠ i) : t.reader j = s.reader j := by
  cases h with
  | committed d => exact reader_setReader_ne _ _ _ hj
  | torn => rw [reader_setReader_ne _ _ _ hj, reader_openBytes]
  | gone => exact reader_setReader_ne _ _ _ hj

/-- A committed slot is fetched; a torn one is marked; one that is free or no longer held gives all ones. -/
theorem Fetched.of_record (h : Fetched s i x t) {d : List Byte}
    (hheld : s.grain.held (fieldOf x.sel 63 62) (fieldOf x.sel 31 0) = true)
    (hslot : s.grain.slot (fieldOf x.sel 63 62) (fieldOf x.sel 31 0) = .record d) (hseq : recSeq d = fieldOf x.sel 31 0) :
    (t.reader i).st = 1 ∧ (t.reader i).buf = d := by
  cases h with
  | committed e _ he _ =>
    obtain rfl : e = d := by simpa [hslot] using he.symm
    rw [reader_setReader_same]
    exact ⟨rfl, rfl⟩
  | torn _ he => simp [hslot] at he
  | gone hno => exact absurd ⟨hheld, .inr ⟨d, hslot, hseq⟩⟩ hno
theorem Fetched.of_torn (h : Fetched s i x t)
    (hheld : s.grain.held (fieldOf x.sel 63 62) (fieldOf x.sel 31 0) = true)
    (hslot : s.grain.slot (fieldOf x.sel 63 62) (fieldOf x.sel 31 0) = .torn) : (t.reader i).st = 2 := by
  cases h with
  | committed e _ he _ => simp [hslot] at he
  | torn => rw [reader_setReader_same]
  | gone hno => exact absurd ⟨hheld, .inl hslot⟩ hno
theorem Fetched.of_gone (h : Fetched s i x t)
    (hgone : s.grain.held (fieldOf x.sel 63 62) (fieldOf x.sel 31 0) = false ∨
      s.grain.slot (fieldOf x.sel 63 62) (fieldOf x.sel 31 0) = .free) :
    (t.reader i).st = 3 ∧ (t.reader i).buf = List.replicate 256 0xFF := by
  cases h with
  | committed e hheld he _ => simp [hheld, he] at hgone
  | torn hheld he => simp [hheld, he] at hgone
  | gone => rw [reader_setReader_same]; exact ⟨rfl, rfl⟩

end

/-- A write of GRN_RSEL fetches the slot that it selects. -/
theorem fetched_writeRsel (s : State) (i : Inst) (v : Word) :
    Fetched (s.setReader i { s.reader i with sel := v &&& 0xC0000001FFFFFFFF, st := 0 }) i
      { s.reader i with sel := v &&& 0xC0000001FFFFFFFF, st := 0 } (s.writeRsel i v) := by
  have h := fetched_fetchSlot (s.setReader i { s.reader i with sel := v &&& 0xC0000001FFFFFFFF, st := 0 }) i
  rw [reader_setReader_same] at h
  exact h

/-! ### A selection's fields as numbers -/

/-- A field is the quotient of the word by its place, cut to its width. -/
theorem fieldOf_eq (w : Word) (hi lo : Nat) : fieldOf w hi lo = w.toNat / 2 ^ lo % 2 ^ (hi + 1 - lo) := by
  simp only [fieldOf, BitVec.extractLsb'_toNat, Nat.shiftRight_eq_div_pow]

/-- GRN_RSEL keeps AREA, SEQ and INC of what is written. -/
theorem fieldOf_rselMask (v : Word) {hi lo : Nat} (h : hi = 63 ∧ lo = 62 ∨ hi = 31 ∧ lo = 0) :
    fieldOf (v &&& 0xC0000001FFFFFFFF) hi lo = fieldOf v hi lo := by
  have hones : (0xC0000001FFFFFFFF : Word).extractLsb' lo (hi + 1 - lo) = BitVec.allOnes (hi + 1 - lo) := by
    obtain ⟨rfl, rfl⟩ | ⟨rfl, rfl⟩ := h <;> decide
  rw [fieldOf, BitVec.extractLsb'_and, hones, BitVec.and_allOnes, fieldOf]

/-! ### The clauses about the readers -/

/-- GRN_RSEL is written by either set. -/
theorem grnRsel_fetches (s : State) (i : Inst) (v : Word) :
    ∃ t, exec (.grnRselFetch i v) s = .next t ∧ (t.reader i).sel = v &&& 0xC0000001FFFFFFFF ∧
      (t.reader i).seq.toNat = v.toNat % 2 ^ 32 ∧ (∀ j, j ≠ i → t.reader j = s.reader j) ∧
      (∀ d, s.man.grain.held (v.toNat / 2 ^ 62) (v.toNat % 2 ^ 32) = true →
        s.man.grain.slot (v.toNat / 2 ^ 62) (v.toNat % 2 ^ 32) = .record d → recSeq d = v.toNat % 2 ^ 32 →
        (t.reader i).st = 1 ∧ (t.reader i).buf = d) ∧
      (s.man.grain.held (v.toNat / 2 ^ 62) (v.toNat % 2 ^ 32) = true →
        s.man.grain.slot (v.toNat / 2 ^ 62) (v.toNat % 2 ^ 32) = .torn → (t.reader i).st = 2) ∧
      ((s.man.grain.held (v.toNat / 2 ^ 62) (v.toNat % 2 ^ 32) = false ∨
          s.man.grain.slot (v.toNat / 2 ^ 62) (v.toNat % 2 ^ 32) = .free) →
        (t.reader i).st = 3 ∧ (t.reader i).buf = List.replicate 256 0xFF) := by
  obtain ⟨u, hexec, hgrain, hreader⟩ : ∃ u : State, exec (.grnRselFetch i v) s = .next (u.writeRsel i v) ∧
      u.grain = s.man.grain ∧ ∀ j, u.reader j = s.reader j := by
    cases i with
    | pcie => exact ⟨s.staged Reg.grnRsel v, rfl, rfl, fun j => by cases j <;> rfl⟩
    | i3c => exact ⟨s, rfl, rfl, fun _ => rfl⟩
  have harea : fieldOf (v &&& 0xC0000001FFFFFFFF) 63 62 = v.toNat / 2 ^ 62 := by
    rw [fieldOf_rselMask v (.inl ⟨rfl, rfl⟩), fieldOf_eq]
    omega
  have hseq : fieldOf (v &&& 0xC0000001FFFFFFFF) 31 0 = v.toNat % 2 ^ 32 := by
    rw [fieldOf_rselMask v (.inr ⟨rfl, rfl⟩), fieldOf_eq, pow_zero, Nat.div_one]
  have h := fetched_writeRsel u i v
  refine ⟨_, hexec, h.sel, h.seq.trans hseq, fun j hj => ?_, fun d h1 h2 h3 => ?_, fun h1 h2 => ?_, fun h1 => ?_⟩
  · rw [h.other hj, reader_setReader_ne _ _ _ hj, hreader]
  · exact h.of_record (by rw [grain_setReader, hgrain, harea, hseq]; exact h1)
      (by rw [grain_setReader, hgrain, harea, hseq]; exact h2) (by rw [hseq]; exact h3)
  · exact h.of_torn (by rw [grain_setReader, hgrain, harea, hseq]; exact h1)
      (by rw [grain_setReader, hgrain, harea, hseq]; exact h2)
  · exact h.of_gone (by rw [grain_setReader, hgrain, harea, hseq]; exact h1)

/-- The read of a reader's last word, with INC clear and set. -/
theorem readLast_still {s : State} {i : Inst} (h : (s.reader i).sel.getLsbD 32 = false) : s.readLast i = s := by
  simp only [State.readLast, h, Bool.false_eq_true, if_false]

theorem fetched_readLast {s : State} {i : Inst} (h : (s.reader i).sel.getLsbD 32 = true) :
    Fetched (s.setReader i { s.reader i with sel := withField (s.reader i).sel 31 0 (fieldOf (s.reader i).sel 31 0 + 1), st := 0 }) i
      { s.reader i with sel := withField (s.reader i).sel 31 0 (fieldOf (s.reader i).sel 31 0 + 1), st := 0 } (s.readLast i) := by
  have k := fetched_fetchSlot (s.setReader i { s.reader i with
    sel := withField (s.reader i).sel 31 0 (fieldOf (s.reader i).sel 31 0 + 1), st := 0 }) i
  rw [reader_setReader_same] at k
  simp only [State.readLast, h, if_true]
  exact k

theorem readLast_keeps (s : State) (i : Inst) : (s.readLast i).out = s.out ∧ (s.readLast i).man.pins = s.man.pins := by
  cases h : (s.reader i).sel.getLsbD 32 with
  | false => rw [readLast_still h]; exact ⟨rfl, rfl⟩
  | true =>
    have k := fetched_readLast h
    exact ⟨by rw [k.out, out_setReader], by rw [k.pins, pins_setReader]⟩

/-- SEQ of a selection counted up: the low half moves, the rest of the word stays. -/
theorem toNat_withField_seq (w : Word) :
    (withField w 31 0 (fieldOf w 31 0 + 1)).toNat % 2 ^ 32 = (w.toNat + 1) % 2 ^ 32 ∧
      (withField w 31 0 (fieldOf w 31 0 + 1)).toNat / 2 ^ 32 = w.toNat / 2 ^ 32 := by
  have hlow : ∀ u : Word, fieldOf u 31 0 = u.toNat % 2 ^ 32 := fun u => by
    rw [fieldOf_eq, pow_zero, Nat.div_one]
  have hhigh : ∀ u : Word, fieldOf u 63 32 = u.toNat / 2 ^ 32 := fun u => by
    rw [fieldOf_eq]
    omega
  refine ⟨?_, ?_⟩
  · rw [← hlow, fieldOf_withField_same _ _ _ _ (by decide) (by decide), hlow]
    omega
  · rw [← hhigh, fieldOf_withField_apart _ _ _ _ _ _ (by decide) (by decide) (by decide) (by decide) (.inr (by decide)), hhigh]

theorem grnRdata_read (s : State) :
    ∃ t, exec .grnRdataRead s = .next t ∧
      t.out = .regData 0 (Reg.grnRdatak 31) (BitVec.ofNat 64 (leAt (s.reader .pcie).buf 248 8)) :: s.out ∧
      ((s.reader .pcie).sel.getLsbD 32 = false → t = { s with out := t.out }) ∧
      ((s.reader .pcie).sel.getLsbD 32 = true →
        (t.reader .pcie).sel.toNat % 2 ^ 32 = ((s.reader .pcie).sel.toNat + 1) % 2 ^ 32 ∧
        (t.reader .pcie).sel.toNat / 2 ^ 32 = (s.reader .pcie).sel.toNat / 2 ^ 32 ∧
        (t.reader .pcie).seq.toNat = ((s.reader .pcie).sel.toNat + 1) % 2 ^ 32) := by
  let o : Output := .regData 0 (Reg.grnRdatak 31) (BitVec.ofNat 64 (leAt s.man.rdPcie.buf 248 8))
  refine ⟨(s.emitOut o).readLast .pcie, rfl, (readLast_keeps (s.emitOut o) .pcie).1, fun hinc => ?_, fun hinc => ?_⟩
  · have hstill : (s.emitOut o).readLast .pcie = s.emitOut o := readLast_still hinc
    rw [hstill]
    rfl
  · have h := fetched_readLast (s := s.emitOut o) (i := .pcie) hinc
    have hsel : (((s.emitOut o).readLast .pcie).reader .pcie).sel =
        withField (s.reader .pcie).sel 31 0 (fieldOf (s.reader .pcie).sel 31 0 + 1) := h.sel
    have hseq : (((s.emitOut o).readLast .pcie).reader .pcie).seq.toNat =
        fieldOf (withField (s.reader .pcie).sel 31 0 (fieldOf (s.reader .pcie).sel 31 0 + 1)) 31 0 := h.seq
    obtain ⟨hlow, hhigh⟩ := toNat_withField_seq (s.reader .pcie).sel
    rw [hsel, hseq, fieldOf_eq, pow_zero, Nat.div_one]
    exact ⟨hlow, hhigh, hlow⟩

end Sys2Proof.Machine
end

section
/-!
SUPPORT. The I3C target: the bytes that an I3C write puts on its registers, and what an I3C read gives (R833 to R836,
R860).
-/

namespace Sys2Proof.Machine

/-! ### Bytes of a word -/

/-- The bytes of a list put into a word from byte `i` on. -/
def setBytes (w : Word) (i : Nat) : List Byte → Word
  | [] => w
  | d :: r => setBytes (setByte w i d) (i + 1) r

theorem testBit_ofLe_cons (d : Byte) (r : List Byte) (j : Nat) :
    (ofLe (d :: r)).testBit j = if j < 8 then d.toNat.testBit j else (ofLe r).testBit (j - 8) := by
  have h : ofLe (d :: r) = 2 ^ 8 * ofLe r + d.toNat := by
    simp only [ofLe]
    omega
  rw [h, Nat.testBit_two_pow_mul_add _ d.isLt]

theorem getLsbD_setBytes (ds : List Byte) (w : Word) (i j : Nat) (hlen : i + ds.length ≤ 8) (hj : j < 64) :
    (setBytes w i ds).getLsbD j =
      if 8 * i ≤ j ∧ j < 8 * (i + ds.length) then (ofLe ds).testBit (j - 8 * i) else w.getLsbD j := by
  induction ds generalizing w i with
  | nil =>
    have hno : ¬ (8 * i ≤ j ∧ j < 8 * i) := by omega
    simp [setBytes, hno]
  | cons d r ih =>
    rw [List.length_cons] at hlen
    rw [setBytes, ih _ _ (by omega), setByte, getLsbD_withField _ _ _ _ _ (by omega) (by omega) hj, testBit_ofLe_cons]
    have hsub : j - 8 * i - 8 = j - 8 * (i + 1) := by omega
    rw [hsub, List.length_cons]
    grind

/-- Eight bytes make the whole word. -/
theorem setBytes_whole (ds : List Byte) (w : Word) (hlen : ds.length = 8) : setBytes w 0 ds = BitVec.ofNat 64 (ofLe ds) := by
  refine BitVec.eq_of_getLsbD_eq fun j hj => ?_
  have hin : 8 * 0 ≤ j ∧ j < 8 * (0 + ds.length) := by omega
  rw [getLsbD_setBytes ds w 0 j (by omega) hj, if_pos hin, BitVec.getLsbD_ofNat]
  simp [hj]

/-! ### What an I3C write puts where -/

/-- A write that does not reach the nonce leaves it. -/
theorem nonceBytes_outside (ds : List Byte) (p : Nat) (t : Tab Word)
    (h : ∀ a, p ≤ a → a < p + ds.length → ¬ (0x110 ≤ a ∧ a < 0x130)) : nonceBytes p ds t = t := by
  induction ds generalizing p t with
  | nil => rfl
  | cons d r ih =>
    rw [List.length_cons] at h
    rw [nonceBytes, if_neg (h p le_rfl (by omega))]
    exact ih _ _ fun a h1 h2 => h a (by omega) (by omega)

/-- A write within one nonce word sets that word's bytes and no other word. -/
theorem get_nonceBytes (ds : List Byte) {k : Nat} (hk : k < 4) (i j : Nat) (t : Tab Word) (hlen : i + ds.length ≤ 8) :
    Tab.get 0 (nonceBytes (0x110 + 8 * k + i) ds t) j =
      if j = k then setBytes (Tab.get 0 t k) i ds else Tab.get 0 t j := by
  induction ds generalizing i t with
  | nil => by_cases hj : j = k <;> simp [nonceBytes, setBytes, hj]
  | cons d r ih =>
    rw [List.length_cons] at hlen
    have hin : 0x110 ≤ 0x110 + 8 * k + i ∧ 0x110 + 8 * k + i < 0x130 := by omega
    have hword : (0x110 + 8 * k + i - 0x110) / 8 = k := by omega
    have hbyte : (0x110 + 8 * k + i) % 8 = i := by omega
    rw [nonceBytes, if_pos hin, hword, hbyte, Nat.add_assoc _ i 1, ih _ _ (by omega), Tab.get_set, Tab.get_set]
    by_cases hj : j = k <;> simp [hj, setBytes]

theorem writtenAt_outside (p : Nat) (ds : List Byte) (a : Nat) (h : ¬ (p ≤ a ∧ a < p + ds.length)) : writtenAt p ds a = none := by
  unfold writtenAt
  by_cases hp : a < p
  · rw [if_pos hp]
  · rw [if_neg hp, List.getElem?_eq_none (by omega)]

theorem rselWritten_outside (p : Nat) (ds : List Byte) (old : Word)
    (h : ∀ a, p ≤ a → a < p + ds.length → ¬ (Reg.grnRsel ≤ a ∧ a < Reg.grnRsel + 8)) : rselWritten p ds old = none := by
  have hnone : ∀ i ∈ List.range 8, writtenAt p ds (Reg.grnRsel + i) = none := fun i hi => by
    have hi8 := List.mem_range.1 hi
    exact writtenAt_outside _ _ _ fun hin => h _ hin.1 hin.2 ⟨by omega, by omega⟩
  have hany : (List.range 8).any (fun i => (writtenAt p ds (Reg.grnRsel + i)).isSome) = false := by
    rw [List.any_eq_false]
    intro i hi
    rw [hnone i hi]
    exact Bool.false_ne_true
  simp only [rselWritten, hany, Bool.false_eq_true, if_false]

/-- Eight bytes at GRN_RSEL make its whole value. -/
theorem rselWritten_whole (ds : List Byte) (old : Word) (hlen : ds.length = 8) :
    rselWritten Reg.grnRsel ds old = some (BitVec.ofNat 64 (ofLe ds)) := by
  rw [← setBytes_whole ds old hlen]
  match ds, hlen with
  | [_, _, _, _, _, _, _, _], _ => rfl

/-! ### An I3C write -/

/-- The parts of an I3C write after the pointer: the nonce, GO, and the reader's selection. -/
def State.i3cNonce (p : Nat) (ds : List Byte) (s : State) : State :=
  s.setAttest .i3c { s.attest .i3c with nonce := nonceBytes p ds (s.attest .i3c).nonce }
def State.i3cGo (p : Nat) (ds : List Byte) (s : State) : State :=
  match writtenAt p ds Reg.idAttctl with
  | some d => if d.getLsbD 0 then s.writeGo .i3c else s
  | none => s
def State.i3cSel (p : Nat) (ds : List Byte) (s : State) : State :=
  match rselWritten p ds (s.reader .i3c).sel with
  | some v => s.writeRsel .i3c v
  | none => s

theorem i3cNonce_outside {p : Nat} {ds : List Byte} (s : State)
    (h : ∀ a, p ≤ a → a < p + ds.length → ¬ (0x110 ≤ a ∧ a < 0x130)) : s.i3cNonce p ds = s := by
  rw [State.i3cNonce, nonceBytes_outside _ _ _ h]
  rfl
theorem i3cGo_outside {p : Nat} {ds : List Byte} (s : State)
    (h : ¬ (p ≤ Reg.idAttctl ∧ Reg.idAttctl < p + ds.length)) : s.i3cGo p ds = s := by
  rw [State.i3cGo, writtenAt_outside _ _ _ h]
theorem i3cSel_outside {p : Nat} {ds : List Byte} (s : State)
    (h : ∀ a, p ≤ a → a < p + ds.length → ¬ (Reg.grnRsel ≤ a ∧ a < Reg.grnRsel + 8)) : s.i3cSel p ds = s := by
  rw [State.i3cSel, rselWritten_outside _ _ _ h]

theorem ofLe_leBytes_address {p : Nat} (hp : p < 2 ^ 24) : ofLe (leBytes 3 p) = p := by
  simp only [leBytes, ofLe, BitVec.toNat_ofNat]
  omega

theorem exec_i3cPrivateWrite_ignored {s : State} {bytes : List Byte} (h : s.segUp 0 = false ∨ bytes.length < 3) :
    exec (.i3cPrivateWrite bytes) s = .next s := by
  change execI3cPrivateWrite bytes s = _
  simp only [execI3cPrivateWrite, h, if_true]

theorem exec_i3cPrivateWrite {s : State} (hup : s.segUp 0 = true) {p : Nat} (hp : p < 2 ^ 24) (ds : List Byte) :
    exec (.i3cPrivateWrite (leBytes 3 p ++ ds)) s =
      .next ((((s.modPins fun x => { x with i3cPtr := p }).i3cNonce p ds).i3cGo p ds).i3cSel p ds) := by
  have hlen : (leBytes 3 p).length = 3 := length_leBytes 3 p
  have hgo : ¬ (s.segUp 0 = false ∨ (leBytes 3 p ++ ds).length < 3) := by
    rw [hup, List.length_append, hlen]
    simp
  have htake : (leBytes 3 p ++ ds).take 3 = leBytes 3 p := List.take_left' hlen
  have hdrop : (leBytes 3 p ++ ds).drop 3 = ds := List.drop_left' hlen
  change execI3cPrivateWrite _ s = _
  simp only [execI3cPrivateWrite, hgo, if_false, htake, hdrop, ofLe_leBytes_address hp]
  rfl

end Sys2Proof.Machine
end

section
/-!
SUPPORT. The clauses of `Obligations.WindowsAndSelectedReads` about the I3C target, and the obligation.
-/

namespace Sys2Proof.Machine

section
variable {s : State} (hup : s.segUp 0 = true)
include hup

/-- An I3C write whose bytes fall on nothing that can be written. -/
theorem i3cWrite_ignored {p : Nat} (hp : p < 2 ^ 24) (ds : List Byte)
    (h : ∀ a, p ≤ a → a < p + ds.length → ¬ (0x110 ≤ a ∧ a < 0x130) ∧ a ≠ Reg.idAttctl ∧
      ¬ (Reg.grnRsel ≤ a ∧ a < Reg.grnRsel + 8)) :
    exec (.i3cPrivateWrite (leBytes 3 p ++ ds)) s = .next (s.modPins fun x => { x with i3cPtr := p }) := by
  rw [exec_i3cPrivateWrite hup hp, i3cNonce_outside _ fun a h1 h2 => (h a h1 h2).1,
    i3cGo_outside _ fun hin => (h _ hin.1 hin.2).2.1 rfl, i3cSel_outside _ fun a h1 h2 => (h a h1 h2).2.2]

/-- An I3C write of one whole nonce word. -/
theorem i3cWrite_nonce {k : Nat} (hk : k < 4) {ds : List Byte} (hlen : ds.length = 8) :
    ∃ t, exec (.i3cPrivateWrite (leBytes 3 (Reg.idNoncek k) ++ ds)) s = .next t ∧
      Tab.get 0 (t.attest .i3c).nonce k = BitVec.ofNat 64 (ofLe ds) ∧
      (∀ j, j ≠ k → Tab.get 0 (t.attest .i3c).nonce j = Tab.get 0 (s.attest .i3c).nonce j) ∧
      t = (s.modPins fun x => { x with i3cPtr := Reg.idNoncek k }).setAttest .i3c
        { s.attest .i3c with nonce := t.man.attI3c.nonce } := by
  have haddr : Reg.idNoncek k = 0x110 + 8 * k + 0 := by
    simp only [Reg.idNoncek]
    omega
  have hget : ∀ j, Tab.get 0 (nonceBytes (Reg.idNoncek k) ds (s.attest .i3c).nonce) j =
      if j = k then BitVec.ofNat 64 (ofLe ds) else Tab.get 0 (s.attest .i3c).nonce j := fun j => by
    rw [haddr, get_nonceBytes ds hk 0 j _ (by omega), setBytes_whole ds _ hlen]
  have hgo : ¬ (Reg.idNoncek k ≤ Reg.idAttctl ∧ Reg.idAttctl < Reg.idNoncek k + ds.length) := by
    rw [haddr, Reg.idAttctl]
    omega
  have hsel : ∀ a, Reg.idNoncek k ≤ a → a < Reg.idNoncek k + ds.length → ¬ (Reg.grnRsel ≤ a ∧ a < Reg.grnRsel + 8) := by
    intro a h1 h2
    rw [haddr] at h2
    rw [Reg.grnRsel]
    omega
  refine ⟨(s.modPins fun x => { x with i3cPtr := Reg.idNoncek k }).i3cNonce (Reg.idNoncek k) ds, ?_,
    (hget k).trans (if_pos rfl), fun j hj => (hget j).trans (if_neg hj), rfl⟩
  rw [exec_i3cPrivateWrite hup (by rw [haddr]; omega), i3cGo_outside _ hgo, i3cSel_outside _ hsel]

/-- An I3C write of GO. -/
theorem i3cWrite_go {d : Byte} (hd : d.getLsbD 0 = true) :
    exec (.i3cPrivateWrite (leBytes 3 Reg.idAttctl ++ [d])) s =
      .next ((s.modPins fun x => { x with i3cPtr := Reg.idAttctl }).writeGo .i3c) := by
  have hone : ∀ a, Reg.idAttctl ≤ a → a < Reg.idAttctl + [d].length → a = 0x100 := by
    intro a h1 h2
    simp only [Reg.idAttctl, List.length_singleton] at h1 h2
    omega
  have hwritten : writtenAt Reg.idAttctl [d] Reg.idAttctl = some d := rfl
  rw [exec_i3cPrivateWrite hup (by decide), i3cSel_outside _ fun a h1 h2 => by rw [hone a h1 h2]; decide,
    i3cNonce_outside _ fun a h1 h2 => by rw [hone a h1 h2]; decide, State.i3cGo, hwritten]
  simp only [hd, if_true]

/-- An I3C write of the reader's whole selection. -/
theorem i3cWrite_sel {ds : List Byte} (hlen : ds.length = 8) :
    ∃ t, exec (.i3cPrivateWrite (leBytes 3 Reg.grnRsel ++ ds)) s = .next t ∧
      (t.reader .i3c).sel = BitVec.ofNat 64 (ofLe ds) &&& 0xC0000001FFFFFFFF ∧ t.man.pins.i3cPtr = Reg.grnRsel := by
  have hnonce : ∀ a, Reg.grnRsel ≤ a → a < Reg.grnRsel + ds.length → ¬ (0x110 ≤ a ∧ a < 0x130) := by
    intro a h1 _
    rw [Reg.grnRsel] at h1
    omega
  have hgo : ¬ (Reg.grnRsel ≤ Reg.idAttctl ∧ Reg.idAttctl < Reg.grnRsel + ds.length) := fun h => absurd h.1 (by decide)
  have h := fetched_writeRsel (s.modPins fun x => { x with i3cPtr := Reg.grnRsel }) .i3c (BitVec.ofNat 64 (ofLe ds))
  refine ⟨_, ?_, h.sel, ?_⟩
  · rw [exec_i3cPrivateWrite hup (by decide), i3cNonce_outside _ hnonce, i3cGo_outside _ hgo, State.i3cSel,
      rselWritten_whole ds _ hlen]
  · rw [h.pins, pins_setReader]
    rfl

/-- An I3C read: the bytes from the pointer on, and the pointer moves behind them. -/
theorem i3cRead (n : Nat) :
    ∃ t, exec (.i3cPrivateRead n) s = .next t ∧
      t.out = .i3cData ((List.range n).map fun i => s.i3cByte (s.man.pins.i3cPtr + i)) :: s.out ∧
      t.man.pins.i3cPtr = s.man.pins.i3cPtr + n ∧
      ((n = 0 ∨ rdataEnd < s.man.pins.i3cPtr ∨ s.man.pins.i3cPtr + n ≤ rdataEnd) →
        t = { s with out := t.out, man := { s.man with pins := t.man.pins } }) := by
  let o : Output := .i3cData ((List.range n).map fun i => s.i3cByte (s.man.pins.i3cPtr + i))
  let u := (s.emitOut o).modPins fun x => { x with i3cPtr := s.man.pins.i3cPtr + n }
  have hexec : exec (.i3cPrivateRead n) s = .next
      (if s.man.pins.i3cPtr ≤ rdataEnd ∧ rdataEnd < s.man.pins.i3cPtr + n then u.readLast .i3c else u) := by
    change execI3cPrivateRead n s = _
    simp only [execI3cPrivateRead, hup, Bool.true_eq_false, if_false]
    rfl
  refine ⟨_, hexec, ?_⟩
  by_cases hlast : s.man.pins.i3cPtr ≤ rdataEnd ∧ rdataEnd < s.man.pins.i3cPtr + n
  · obtain ⟨hout, hpins⟩ := readLast_keeps u .i3c
    rw [if_pos hlast]
    exact ⟨hout, congrArg Pins.i3cPtr hpins, fun h => absurd hlast (by omega)⟩
  · rw [if_neg hlast]
    exact ⟨rfl, rfl, fun _ => rfl⟩

theorem i3cDynamic (a : BitVec 7) :
    exec (.i3cDynamicAddress a) s = .next (s.modPins fun x => { x with dyn := some a }) := by
  change execI3cDynamicAddress a s = _
  simp only [execI3cDynamicAddress, hup, if_true]

end

/-- The first 16 bytes of the target's space are the serial number; behind GRN_RDATA31 there is nothing. -/
theorem i3cByte_serial (s : State) {a : Nat} (ha : a < 16) : s.i3cByte a = s.man.fuses.serial.extractLsb' (8 * a) 8 := by
  obtain h | h : a / 8 = 0 ∨ a / 8 = 1 := by omega
  · have hword : s.i3cWord (a / 8 * 8) = s.man.fuses.serial.extractLsb' 0 64 := by rw [h]; rfl
    refine BitVec.eq_of_getLsbD_eq fun j hj => ?_
    rw [State.i3cByte, hword]
    simp only [BitVec.getLsbD_extractLsb']
    grind
  · have hword : s.i3cWord (a / 8 * 8) = s.man.fuses.serial.extractLsb' 64 64 := by rw [h]; rfl
    refine BitVec.eq_of_getLsbD_eq fun j hj => ?_
    rw [State.i3cByte, hword]
    simp only [BitVec.getLsbD_extractLsb']
    grind

theorem i3cByte_beyond (s : State) {a : Nat} (ha : 0x30300 ≤ a) : s.i3cByte a = 0 := by
  have hword : s.i3cWord (a / 8 * 8) = 0 := by
    have h1 : ¬ a / 8 * 8 < 0x3000 := by omega
    have h2 : a / 8 * 8 ≠ Reg.bootStage := by rw [Reg.bootStage]; omega
    have h3 : ¬ (a / 8 * 8 = Reg.fltStat ∨ a / 8 * 8 = Reg.pwrStat) := by rw [Reg.fltStat, Reg.pwrStat]; omega
    have h4 : ¬ (Reg.grnStat ≤ a / 8 * 8 ∧ a / 8 * 8 < 0x30300) := by omega
    simp only [State.i3cWord, h1, h2, h3, h4, if_false]
  rw [State.i3cByte, hword]
  exact BitVec.extractLsb'_zero

/-- Settles O60, clause by clause: each access is its end, which moves the selection on, after its effect. -/
theorem windowsAndSelectedReads : Obligations.WindowsAndSelectedReads := by
  unfold Obligations.WindowsAndSelectedReads
  intro s
  refine ⟨fun b hb hsill => ⟨fun hnone => ?_, fun x hx => ⟨fun hoff w => ?_, fun hon => ?_⟩⟩,
    fun b hb hsill x hx hon => ?_,
    fun f p => ⟨fun h0 hp => exec_prtMapDataRead_other s h0 hp, fun h =>
      ⟨_, exec_prtMapDataRead s h, advancingRead_spec s _ _ _ (by decide) (by decide)⟩⟩,
    ⟨_, rfl, rfl, rfl, rfl⟩,
    ⟨_, exec_fltFdataRead_second s, advancingRead_spec s _ _ _ (by decide) (by decide)⟩,
    ⟨_, rfl, rfl, rfl, rfl⟩,
    ⟨_, exec_jnrStrdataRead_second s, advancingRead_spec s _ _ _ (by decide) (by decide)⟩,
    fun i v => grnRsel_fetches s i v, grnRdata_read s, fun bytes h => exec_i3cPrivateWrite_ignored h,
    fun hup p ds hp => ⟨i3cWrite_ignored hup hp ds, fun k hk he hlen => ?_, fun he d hd h0 => ?_, fun he hlen => ?_⟩,
    fun n hup => i3cRead hup n, fun a => ⟨i3cByte_serial s, i3cByte_beyond s⟩,
    fun a hup => ⟨_, i3cDynamic hup a, rfl, rfl⟩⟩
  · obtain ⟨t, hexec, hended, hout, htiles, _⟩ := silTdata_fails hb hsill (by decide) (windowTile_none hnone) none
    exact ⟨t, hexec, hended, hout, htiles⟩
  · obtain ⟨t, hexec, hended, _, htiles, hregs⟩ := silTdata_fails hb hsill (by decide) (windowTile_off hx hoff) w
    exact ⟨t, hexec, hended, htiles, hregs⟩
  · have hwin := windowTile_ok hx hon
    exact ⟨fun d y h => silTdata_read_ok hb hsill hwin h, fun e h he => silTdata_read_illegal hb hsill hwin h he,
      fun w h => silTdata_read_uncorr hb hsill hwin h,
      fun v h => silTdata_write_refused hb hsill hwin (by decide) (rawWrite_inaccessible h),
      fun v h him hrun => silTdata_write_refused hb hsill hwin (by decide) (rawWrite_im h ⟨him, hrun⟩),
      fun v h ha him => silTdata_write_store hb hsill hwin (rawWrite_store h ha him)⟩
  · have hwin := windowTile_ok hx hon
    exact ⟨fun v h => silRtdata_read hb hsill hwin h, fun h w => silRtdata_reserved hb hsill hwin h w,
      fun v ha h => silRtdata_refused hb hsill hwin h ha v, fun v ha => silRtdata_fabCtl hb hsill hwin ha v⟩
  · subst he
    exact i3cWrite_nonce hup hk hlen
  · subst he hd
    exact i3cWrite_go hup h0
  · subst he
    exact i3cWrite_sel hup hlen

end Sys2Proof.Machine
end

section
/-!
SUPPORT. A RECALL whose producer is recorded at a place off the wafer (R29): that place has the number of the inlet's own
tile, and reads as the base tile of its bay only until that tile is listed (R200, R305, log 122).
-/

namespace Sys2Proof.Machine

/-- LT(0, 0), whose queue 0 is the inlet, and LT(1, 0), whose port 0 feeds it. -/
def inletTile : LT := { x := 0, y := 0 }
def feederTile : LT := { x := 1, y := 0 }

/-- PT(1, 0, 0), and a place of bay 0 in row 96, beyond the rows of R29, which has the same number. -/
def inletHost : PT := { bay := 1, col := 0, row := 0 }
def offWaferHost : PT := { bay := 0, col := 0, row := 96 }

/-- A port that has sent one entry. -/
def sentOnePort : Port := { Port.reset with prod := { Producer.reset with sent := 1 } }

/-- Bay 0's tiles have sent one entry each through port 0, bay 1's are idle with their supply on; no tile differs from its bay's
base. -/
def offWaferState : State :=
  let s := State.reset.setBay 0 { Bay.reset with
    base := { Tile.reset with r := { TileRegs.reset with ports := [(0, sentOnePort)] } } }
  let s := s.setBay 1 { Bay.reset with supply := .on, base := { Tile.reset with s := { TileSeq.reset with seq := .idle } } }
  let s := s.modComp fun c => { c with hosts := [(inletTile.key, some inletHost), (feederTile.key, some offWaferHost)] }
  s.modOwn 0 fun o => { o with frame := some { Frame.empty with
    queues := [{ t := inletTile, q := 0, prod := .port feederTile 0, inlet := true, start := false }] } }

/-- The RECALL of the feeder's port: no credit unspent, send count 0 modulo 16. -/
def offWaferRecall : Packet :=
  { op := opRecall, dst := .tile inletHost, src := .tile offWaferHost, tag := 0, addr := 0, seq := 0, ep := false, ext := 0,
    part := 0, body := [] }

/-- The feeder has sent one entry and the inlet has accepted none, so the recall does not account for all 16 credits. -/
theorem sentTo_offWafer : offWaferState.sentTo inletHost 0 = 1 := by decide

/-- Once the inlet's tile is listed, with the recall that has come, the feeder's place reads as that tile, and the inlet
confirms. -/
theorem recall_offWafer : ∃ n, exec (.recall offWaferRecall) offWaferState = .next n ∧
    ((n.tile inletHost).queue 0).confirmed = true :=
  ⟨_, rfl, by decide⟩

/-- Refutes O28, at its last clause: where the producer's recorded place lies off the wafer and has the number of the inlet's tile,
the inlet confirms a recall although its producer has sent more than the inlet has accepted. -/
theorem not_queuePacketsComplete : ¬ Obligations.QueuePacketsComplete := by
  unfold Obligations.QueuePacketsComplete
  intro h
  obtain ⟨-, -, -, -, -, -, -, -, -, recalls⟩ := h offWaferState inletHost offWaferRecall
  obtain ⟨n, hn, -, -, -, confirms⟩ := recalls inletTile 0 rfl (by decide) (by decide) (by decide)
  obtain ⟨m, hm, confirmed⟩ := recall_offWafer
  obtain rfl := Host.Outcome.next.inj (hm.symm.trans hn)
  obtain already | ⟨-, few⟩ := confirms.mp confirmed
  · exact absurd already (by decide)
  · rw [sentTo_offWafer] at few
    exact absurd few (by decide)

end Sys2Proof.Machine
end

section
/-!
SUPPORT. A read of partition memory changes nothing that a partition runs with: its gateways, its map, its regions (R443 to
R446, R455).
-/

namespace Sys2Proof.Machine

/-- Every partition runs with what it ran with. -/
structure SameRuns (s t : State) : Prop where
  run : ∀ c, (t.part c).run = (s.part c).run

section
variable {s t : State}

theorem SameRuns.refl (s : State) : SameRuns s s := ⟨fun _ => rfl⟩
theorem SameRuns.trans {u : State} (h : SameRuns s t) (k : SameRuns t u) : SameRuns s u := ⟨fun c => (k.run c).trans (h.run c)⟩
theorem SameRuns.ite {u : State} {c : Prop} [Decidable c] (h : SameRuns s t) (k : SameRuns s u) :
    SameRuns s (if c then t else u) := by
  split
  · exact h
  · exact k

/-- A change that leaves the partitions. -/
theorem SameRuns.same {u : State} (h : SameRuns s t) (hp : u.comp.parts = t.comp.parts := by rfl) : SameRuns s u :=
  h.trans ⟨fun c => by rw [State.part_congr hp]⟩

theorem sameRuns_stopFor (sev : Severity) (p : Nat) (s : State) : SameRuns s (s.stopFor sev p) := by
  cases sev
  case partitionFatal =>
    refine ⟨fun c => ?_⟩
    rw [State.stopFor, State.modOwn, State.part_modPart]
    split
    next h => rw [h]
    next => rfl
  all_goals exact (SameRuns.refl s).same

theorem SameRuns.signal (h : SameRuns s t) (id : EventId) (p : Nat) (ops : List Nat) : SameRuns s (t.signal id p ops) := by
  obtain ⟨u, logs, -, stopped⟩ := signal_spec id p ops t
  rw [stopped]
  exact (h.same (congrArg Compute.parts logs.comp)).trans (sameRuns_stopFor ..)

theorem SameRuns.hbmLog (h : SameRuns s t) (k kind blk b0 b1 : Nat) : SameRuns s (t.hbmLog k kind blk b0 b1) := h.same

theorem SameRuns.lineSuspect (h : SameRuns s t) (k ch byte : Nat) : SameRuns s (t.lineSuspect k ch byte) :=
  .ite (SameRuns.signal (h.same) ..) h

theorem SameRuns.lineSuspects (h : SameRuns s t) (k ch : Nat) (bytes : List Nat) :
    SameRuns s (bytes.foldl (fun s b => s.lineSuspect k ch b) t) := by
  induction bytes generalizing t with
  | nil => exact h
  | cons b bs ih => exact ih (h.lineSuspect ..)

theorem SameRuns.countCorrected (h : SameRuns s t) (k blk : Nat) (bytes : List Nat) (scrub : Bool) :
    SameRuns s (t.countCorrected k blk bytes scrub) := by
  unfold State.countCorrected
  extract_lets ch s1 s2 x new y s3 n s4
  have h2 : SameRuns s s2 := .ite h.same h.same
  have h4 : SameRuns s s4 := .ite (SameRuns.signal h2.same ..) h2.same
  exact h4.lineSuspects ..

theorem SameRuns.countUncorrectable (h : SameRuns s t) (k blk : Nat) : SameRuns s (t.countUncorrectable k blk) := by
  unfold State.countUncorrectable
  extract_lets ch s1 p s2 x hist y s3 due z s4
  have h2 : SameRuns s s2 := SameRuns.signal h.same ..
  have h4 : SameRuns s s4 := h2.same
  exact .ite (.ite (h4.signal ..) h4) h2.same

theorem SameRuns.blockLost (h : SameRuns s t) (k blk : Nat) (scrub : Bool) : SameRuns s (t.blockLost k blk scrub).2 :=
  .ite (h.countUncorrectable k blk) (h.countUncorrectable k blk).same

theorem SameRuns.blockFixed (h : SameRuns s t) (k blk : Nat) (scrub : Bool) (fixed : List Nat) :
    SameRuns s (t.blockFixed k blk scrub fixed) := .ite h.same (SameRuns.countCorrected h.same ..)

theorem SameRuns.readBlock (h : SameRuns s t) (k blk : Nat) (scrub : Bool) : SameRuns s (t.readBlock k blk scrub).2 := by
  unfold State.readBlock
  dsimp only
  split
  · exact .ite h h.same
  · split
    · exact h
    · split
      · exact h.blockFixed ..
      · split
        · exact h.blockLost ..
        · split
          · exact h.blockLost ..
          · exact SameRuns.blockFixed h.same ..

theorem SameRuns.readUnit (h : SameRuns s t) {p pa len : Nat} {e : PaRead × State} (he : t.readUnit p pa len = some e) :
    SameRuns s e.2 := by
  unfold State.readUnit at he
  dsimp only at he
  split at he
  · exact nomatch he
  · split at he
    · exact nomatch he
    · obtain rfl := Option.some.inj he
      exact h.readBlock ..

theorem SameRuns.readPa (p n : Nat) : ∀ (pa len : Nat) {t : State}, SameRuns s t →
    SameRuns s (State.readPa p n pa len t).2 := by
  induction n with
  | zero => exact fun _ _ _ h => h
  | succ n ih =>
    intro pa len t h
    rw [State.readPa]
    split
    · exact h
    next e he => exact ih _ _ (h.readUnit he)

end

theorem sameRuns_readRange (s : State) (p pa len : Nat) : SameRuns s (s.readRange p pa len).2 := .readPa _ _ _ _ (.refl s)

/-- No byte is read of nothing. -/
theorem readRange_nothing (s : State) (p pa : Nat) : s.readRange p pa 0 = ({ data := [], bad := [], n := 0 }, s) := by
  have none_left : s.readUnit p pa 0 = none := by
    rw [State.readUnit, unitPart, Nat.zero_min]
    rfl
  rw [State.readRange, State.readPa, none_left]

end Sys2Proof.Machine
end

section
/-!
SUPPORT. Proofs about spills, refills and the flow counters (R167, R168, R187 to R197, R214).
-/

namespace Sys2Proof.Machine

/-! ### Spills (R187, R188, R196) -/

/-- The stalled tile's full queues are spilled one after another, and its stall age restarts (R187, R198). -/
theorem exec_spill_stalled {s : State} {t : PT} (hrun : s.phys.power.halted = false) (hst : (s.tile t).stallCond = true)
    (hage : s.field (Reg.prtFlowcfg (s.ptPart t)) 15 0 ≠ 0) (hstalled : (s.passTo (s.stallDue t)).stalled t = true) :
    exec (.spill t) s = .next ((((List.range 8).foldl (fun s q => if 16 ≤ ((s.tile t).queue q).depth then s.spillQueue t q else s)
      (s.passTo (s.stallDue t))).modTile t fun x => { x with s := { x.s with stall := 0, stallSince := none } }).restall t) := by
  have go : ¬ (s.phys.power.halted = true ∨ (s.tile t).stallCond = false ∨
      s.field (Reg.prtFlowcfg (s.ptPart t)) 15 0 = 0) := by
    rw [hrun, hst]
    simpa using hage
  show execSpill t s = _
  simp only [execSpill, if_neg go, hstalled, Bool.true_eq_false, if_false]

/-- The words of the oldest `n` entries of a queue, under the code. -/
def Queue.oldestWords (q n : Nat) (qu : Queue) (w : CodeWord) : Bool :=
  (List.range n).any fun i => (queueWords q (qu.place i)).contains w

/-- The queue whose oldest `n` entries have left its storage: `a` for the segment, the others for chunk `c` (R188). -/
def Queue.spill (n a c : Nat) (qu : Queue) : Queue := { qu with
  fifo := qu.fifo.drop n
  seg := qu.seg ++ qu.fifo.take a
  chunks := qu.chunks ++ (if n = a then [] else [{ num := c, entries := (qu.fifo.take n).drop a, committed := false }]) }

/-- What a spill counts: one event, the entries, the chunks in use and their peak (R214). -/
def State.countSpill (p a b : Nat) (s : State) : State :=
  let s := ((s.bump (Reg.prtSpillEvents p) 31 0 1).bump (Reg.prtSpillEntries p) 31 0 a).bump (Reg.prtSpillEntries p) 63 32 b
  let s := s.recount p
  s.setField (Reg.prtBasinUse p) 63 32 (max (s.field (Reg.prtBasinUse p) 63 32) (s.part p).run.chunksUsed)

theorem tile_countSpill (p a b : Nat) (s : State) (u : PT) : (s.countSpill p a b).tile u = s.tile u := rfl

theorem field_countSpill (p a b : Nat) (s : State) : (s.countSpill p a b).field (Reg.prtSpillEvents p) 31 0 =
    min (s.field (Reg.prtSpillEvents p) 31 0 + 1) (2 ^ 32 - 1) := by
  have entries : Reg.prtSpillEvents p ≠ Reg.prtSpillEntries p := by unfold Reg.prtSpillEvents Reg.prtSpillEntries; omega
  have used : Reg.prtSpillEvents p ≠ Reg.prtBasinUse p := by unfold Reg.prtSpillEvents Reg.prtBasinUse; omega
  have counted : (s.countSpill p a b).reg (Reg.prtSpillEvents p) =
      (s.bump (Reg.prtSpillEvents p) 31 0 1).reg (Reg.prtSpillEvents p) := by
    rw [State.countSpill, State.reg_setField_ne _ _ _ _ used, State.recount, State.reg_modRun_, State.reg_bump_ne _ _ _ _ entries,
      State.reg_bump_ne _ _ _ _ entries]
  rw [State.field, counted]
  exact State.field_bump s _ 31 0 1 (by decide) (by decide)

/-! ### Credits that return (R168) -/

theorem regs_fountainReturn (k : FCount) (p : Nat) (f : FountRec) (i branch n : Nat) (phase : Bool) (s : State) :
    (s.fountainReturn k p f i branch n phase).regs = s.regs := by
  cases k
  all_goals
    unfold State.fountainReturn
    dsimp only
    repeat' split
    all_goals rfl

theorem regs_returnFor (k : FCount) (t : PT) (q n : Nat) (phase ep : Bool) (s : State) :
    (s.returnFor k t q n phase ep).regs = s.regs := by
  unfold State.returnFor
  dsimp only
  split
  · rfl
  · split
    · rfl
    · split
      · rfl
      · rfl
      · split
        · rfl
        · split
          · rfl
          · exact regs_fountainReturn ..

theorem tile_returnMoved (t : PT) (q : Nat) (es : List QEntry) (s : State) (u : PT) : (s.returnMoved t q es).tile u = s.tile u := by
  induction es generalizing s with
  | nil => rfl
  | cons e es ih => exact (ih _).trans (tile_returnFor ..)

theorem regs_returnMoved (t : PT) (q : Nat) (es : List QEntry) (s : State) : (s.returnMoved t q es).regs = s.regs := by
  induction es generalizing s with
  | nil => rfl
  | cons e es ih => exact (ih _).trans (regs_returnFor ..)

/-! ### One queue is spilled -/

section
variable {s : State} {t : PT} {q c : Nat}

/-- The tile whose queue has spilled its oldest `n` entries, once the code has been read as `x`. -/
def Tile.spilled (q n a c : Nat) (x : Tile) : Tile :=
  (x.rewritten ((x.queue q).cellWords q a)).setQueue q ((x.queue q).spill n a c)

/-- The queue of a tile that has spilled. -/
theorem queue_spilled (q n a c : Nat) (x : Tile) : (x.spilled q n a c).queue q = (x.queue q).spill n a c := queue_setQueue ..

/-- The state before the tile's count of corrected words is looked at. -/
def State.spilledTo (t : PT) (q n a c : Nat) (x : Tile) (s : State) : State :=
  ((s.setTile t (x.spilled q n a c)).returnMoved t q ((x.queue q).fifo.take n)).countSpill (s.ptPart t) a (n - a)

theorem tile_spilledTo_same (n a : Nat) (x : Tile) : (s.spilledTo t q n a c x).tile t = x.spilled q n a c := by
  rw [State.spilledTo, tile_countSpill, tile_returnMoved, State.tile_setTile_same]

theorem tile_spilledTo_ne (n a : Nat) (x : Tile) {v : PT} (hv : v.key ≠ t.key) : (s.spilledTo t q n a c x).tile v = s.tile v := by
  rw [State.spilledTo, tile_countSpill, tile_returnMoved, State.tile_setTile_ne _ _ hv]

theorem field_spilledTo (n a : Nat) (x : Tile) : (s.spilledTo t q n a c x).field (Reg.prtSpillEvents (s.ptPart t)) 31 0 =
    min (s.field (Reg.prtSpillEvents (s.ptPart t)) 31 0 + 1) (2 ^ 32 - 1) := by
  rw [State.spilledTo, field_countSpill, State.field_congr (regs_returnMoved ..)]
  rfl

section
variable (hmax : ((s.tile t).queue q).spilled + s.spillCount t q ≤ s.field (Reg.prtFlowcfg (s.ptPart t)) 31 16)
  (hn : s.spillCount t q ≠ 0) (hc : s.freeChunk (s.ptPart t) = some c)
include hmax hn hc

/-- Within SPILL_QMAX and with a free chunk, a spill moves what it should (R187, R188, R196). -/
theorem spillQueue_moves : s.spillQueue t q = s.spillMove t q (s.ptPart t) (min (s.spillCount t q) ((s.tile t).queue q).cells)
    (s.spillCount t q - min (s.spillCount t q) ((s.tile t).queue q).cells) c := by
  rw [State.spillQueue]
  simp only [if_neg (Nat.not_lt.2 hmax), if_neg hn, hc]

/-- An entry whose word is uncorrectable stops the spill (R159). -/
theorem spillQueue_uncorr {w : CodeWord}
    (h : (s.tile t).checked (((s.tile t).queue q).oldestWords q (s.spillCount t q)) = .error w) :
    s.spillQueue t q = s.sramUncorr t w := by
  rw [spillQueue_moves hmax hn hc, State.spillMove, Nat.add_sub_cancel' (Nat.min_le_left ..)]
  dsimp only
  unfold Queue.oldestWords at h
  rw [h]

/-- Otherwise the entries move. -/
theorem spillQueue_ok {x : Tile}
    (h : (s.tile t).checked (((s.tile t).queue q).oldestWords q (s.spillCount t q)) = .ok x) :
    s.spillQueue t q = (s.spilledTo t q (s.spillCount t q) (min (s.spillCount t q) ((s.tile t).queue q).cells) c x).ceHigh t
      (s.tile t) := by
  have hq : x.queue q = (s.tile t).queue q := (checked_codeRead h).queue q
  have ha : min (s.spillCount t q) ((s.tile t).queue q).cells ≤ s.spillCount t q := Nat.min_le_left ..
  have full : (s.spillCount t q - min (s.spillCount t q) ((s.tile t).queue q).cells = 0) =
      (s.spillCount t q = min (s.spillCount t q) ((s.tile t).queue q).cells) := propext (by omega)
  rw [spillQueue_moves hmax hn hc, State.spillMove, Nat.add_sub_cancel' ha]
  dsimp only
  unfold Queue.oldestWords at h
  simp only [h, List.take_take, min_eq_left ha, full, State.spilledTo, Tile.spilled, Queue.spill, State.countSpill, hq]

section
variable {x : Tile} (h : (s.tile t).checked (((s.tile t).queue q).oldestWords q (s.spillCount t q)) = .ok x)
include h

theorem queue_spillQueue : ((s.spillQueue t q).tile t).queue q =
    ((s.tile t).queue q).spill (s.spillCount t q) (min (s.spillCount t q) ((s.tile t).queue q).cells) c := by
  rw [spillQueue_ok hmax hn hc h, Tile.queue, ceHigh_queues, tile_spilledTo_same, ← Tile.queue, queue_spilled,
    (checked_codeRead h).queue]

theorem mem_spillQueue : ((s.spillQueue t q).tile t).mem = (s.tile t).mem := by
  rw [spillQueue_ok hmax hn hc h, ceHigh_mem, tile_spilledTo_same]
  exact (checked_codeRead h).mem

theorem r_spillQueue : ((s.spillQueue t q).tile t).r = (s.tile t).r := by
  rw [spillQueue_ok hmax hn hc h, ceHigh_r, tile_spilledTo_same]
  exact (checked_codeRead h).r

theorem tile_spillQueue_ne {v : PT} (hv : v.key ≠ t.key) : (s.spillQueue t q).tile v = s.tile v := by
  rw [spillQueue_ok hmax hn hc h, tile_ceHigh_ne _ _ hv, tile_spilledTo_ne _ _ _ hv]

/-- A spill that corrects no word counts its event (R214). -/
theorem field_spillQueue (same : x.c = (s.tile t).c) : (s.spillQueue t q).field (Reg.prtSpillEvents (s.ptPart t)) 31 0 =
    min (s.field (Reg.prtSpillEvents (s.ptPart t)) 31 0 + 1) (2 ^ 32 - 1) := by
  have quiet := ceHigh_same (s := s.spilledTo t q (s.spillCount t q) (min (s.spillCount t q) ((s.tile t).queue q).cells) c x)
    (t := t) (x := s.tile t) (by rw [tile_spilledTo_same, ← same]; rfl)
  rw [spillQueue_ok hmax hn hc h, quiet, field_spilledTo]

end
end
end

/-- The segment, the chunks and the storage of a queue without chunks hold after a spill what the segment and the storage held
before, in order. -/
theorem spill_keeps_order (qu : Queue) {n a : Nat} (c : Nat) (ha : a ≤ n) (hch : qu.chunks = []) :
    (qu.spill n a c).seg ++ ((qu.spill n a c).chunks.flatMap fun c => c.entries) ++ (qu.spill n a c).fifo = qu.seg ++ qu.fifo := by
  have moved : qu.fifo.take a ++ (qu.fifo.take n).drop a = qu.fifo.take n := by
    conv_rhs => rw [← List.take_append_drop a (qu.fifo.take n), List.take_take, min_eq_left ha]
  rw [Queue.spill, hch]
  split
  next h => simp [← h]
  next =>
    calc
      _ = qu.seg ++ (qu.fifo.take a ++ (qu.fifo.take n).drop a ++ qu.fifo.drop n) := by simp
      _ = _ := by rw [moved, List.take_append_drop]

theorem tile_recount (s : State) (p : Nat) (u : PT) : (s.recount p).tile u = s.tile u := rfl

/-! ### Chunks (R190, R195, R197) -/

/-- Committing the oldest chunk leaves the chunks behind it. -/
theorem commit_head {c : Chunk} {r : List Chunk} (h : c ∉ r) :
    ((c :: r).map fun d => if d = c then { d with committed := true } else d) = { c with committed := true } :: r := by
  rw [List.map_cons, if_pos rfl]
  congr 1
  refine (List.map_congr_left fun d hd => ?_).trans (List.map_id r)
  exact if_neg (ne_of_mem_of_not_mem hd h)

/-- Once the write of a chunk has ended, the oldest uncommitted chunk is committed (R197). -/
theorem spillBasinDone_commits {s : State} {t : PT} {q : Nat} {c : Chunk} {r : List Chunk}
    (hch : ((s.tile t).queue q).chunks = c :: r) (hc : c.committed = false) (hr : c ∉ r) :
    ∃ n, exec (.spillBasinDone t q) s = .next n ∧
      (n.tile t).queue q = { (s.tile t).queue q with chunks := { c with committed := true } :: r } := by
  have oldest : ((s.tile t).queue q).chunks.find? (fun c => !c.committed) = some c := by
    rw [hch]
    exact List.find?_cons_of_pos (by rw [hc]; rfl)
  refine ⟨_, rfl, ?_⟩
  simp only [oldest, State.tile_modTile_same, queue_setQueue]
  rw [hch, commit_head hr]

/-- A committed chunk that fits, and whose bytes are good, moves behind the segment (R190). -/
theorem refill_moves {s : State} {t : PT} {q : Nat} {c : Chunk} {r : List Chunk} {al : Alloc}
    (hch : ((s.tile t).queue q).chunks = c :: r) (hc : c.committed = true)
    (hfit : ((s.tile t).queue q).seg.length + c.entries.length ≤ 15) (hal : s.alloc (s.ptPart t) basinAllocKey = some al)
    (hgood : (s.readRange (s.ptPart t) (al.base + 256 * c.num) 256).1.bad = []) :
    ∃ n, exec (.refill t q) s = .next n ∧
      (n.tile t).queue q = { (s.tile t).queue q with seg := ((s.tile t).queue q).seg ++ c.entries, chunks := r } := by
  have go : ¬ (c.committed = false ∨ 15 < ((s.tile t).queue q).seg.length + c.entries.length) := by
    rw [hc]
    simpa using hfit
  refine ⟨_, rfl, ?_⟩
  simp only [hch, if_neg go, hal, hgood]
  rw [tile_recount, State.tile_modTile_same, queue_setQueue]

/-! ### Flow counters (R214) -/

theorem flowClrDiscard_zeroes (s : State) (p : Nat) : ∃ n, exec (.flowClrDiscard p) s = .next n ∧
    n.reg (Reg.prtFlowDiscard p) = 0 ∧ OnlyRegs [Reg.prtFlowDiscard p] s n :=
  ⟨_, rfl, s.reg_setReg_same _ _, onlyRegs_setReg ..⟩

theorem flowClrPeak_sets (s : State) (p : Nat) : ∃ n, exec (.flowClrPeak p) s = .next n ∧
    n.field (Reg.prtBasinUse p) 63 32 = (s.chunksOf p).length % 2 ^ 32 ∧
    n.field (Reg.prtBasinUse p) 31 0 = s.field (Reg.prtBasinUse p) 31 0 ∧ OnlyRegs [Reg.prtBasinUse p] s n :=
  ⟨_, rfl, s.field_setField_same _ 63 32 _ (by decide) (by decide),
    s.field_setField_apart _ 63 32 _ 31 0 (by decide) (by decide) (by decide) (by decide) (by decide), onlyRegs_setReg ..⟩

theorem flowClrSpill_zeroes (s : State) (p : Nat) : ∃ n, exec (.flowClrSpill p) s = .next n ∧
    n.reg (Reg.prtSpillEvents p) = 0 ∧ n.reg (Reg.prtSpillEntries p) = 0 ∧
    OnlyRegs [Reg.prtSpillEvents p, Reg.prtSpillEntries p] s n := by
  have apart : Reg.prtSpillEvents p ≠ Reg.prtSpillEntries p := by unfold Reg.prtSpillEvents Reg.prtSpillEntries; omega
  refine ⟨_, rfl, ?_, State.reg_setReg_same .., rfl, fun b hb => ?_⟩
  · rw [State.reg_setReg_ne _ _ apart, State.reg_setReg_same]
  · rw [List.mem_cons, List.mem_singleton, not_or] at hb
    rw [State.reg_setReg_ne _ _ hb.2, State.reg_setReg_ne _ _ hb.1]

end Sys2Proof.Machine
end

section
/-!
SUPPORT. Proofs about the stream of a gateway (R167, R168, R240, R279, R296), and the claim on spills, refills and streams.
-/

namespace Sys2Proof.Machine

/-! ### A gateway's own state -/

section
variable (s : State) (p k : Nat) (x : Gateway)
@[simp] theorem gateway_setGateway_same : (s.setGateway p k x).gateway p k = x := by
  rw [State.gateway, State.setGateway, State.modRun, State.part_modPart_same]
  exact Tab.get_set_same ..
@[simp] theorem net_setGateway : (s.setGateway p k x).comp.net = s.comp.net := rfl
@[simp] theorem frameOf_setGateway : (s.setGateway p k x).frameOf p = s.frameOf p := by
  rw [State.frameOf, State.setGateway, State.modRun, State.part_modPart_same, State.frameOf]
@[simp] theorem alloc_setGateway (tid : Nat) : (s.setGateway p k x).alloc p tid = s.alloc p tid := by
  rw [State.alloc, State.setGateway, State.modRun, State.part_modPart_same, State.alloc]
@[simp] theorem mapOf_setGateway (l : LT) : (s.setGateway p k x).mapOf p l = s.mapOf p l := by
  rw [State.mapOf, State.setGateway, State.modRun, State.part_modPart_same, State.mapOf]
end

theorem SameRuns.gateway {s t : State} (h : SameRuns s t) (p k : Nat) : t.gateway p k = s.gateway p k := by
  rw [State.gateway, h.run p, State.gateway]
theorem SameRuns.mapOf {s t : State} (h : SameRuns s t) (p : Nat) (l : LT) : t.mapOf p l = s.mapOf p l := by
  rw [State.mapOf, h.run p, State.mapOf]

/-! ### Packets of a gateway (R276, R279, R296) -/

/-- The packet that takes entries from a gateway whose producer is `x` to queue `b` on the tile and epoch of `d`. -/
def gatewayPacket (p : Nat) (b : QueueRec) (d : PT × Bool) (x : Producer) (body : List Flitem) : Packet :=
  { op := opQsend, dst := .tile d.1, src := .gateway (nearestGateway d.1), tag := 0,
    addr := BitVec.ofNat 16 (b.q + 8 * flag x.phase), seq := x.seq, ep := d.2, ext := 0, part := p, body := body }

/-- The gateway once it has sent the entries. -/
def Gateway.sent (n : Nat) (g : Gateway) : Gateway := { g with prod := g.prod.sentN n false }

theorem gatewaySend_none (s : State) (p : Nat) (b : QueueRec) (n : Nat) : s.gatewaySend p b n [] = s := by
  cases n <;> rfl

/-- Up to four entries take one packet. -/
theorem gatewaySend_packet {s : State} {p n : Nat} {b : QueueRec} {d : PT × Bool} {body : List Flitem} (hn : n ≠ 0)
    (hb : body ≠ []) (h4 : body.length ≤ 4) (hd : s.mapOf p b.t = some d) :
    s.gatewaySend p b n body = (s.send (gatewayPacket p b d (s.gateway p (gwKey b.t b.q)).prod body)).setGateway p (gwKey b.t b.q)
      ((s.gateway p (gwKey b.t b.q)).sent body.length) := by
  obtain ⟨m, rfl⟩ := Nat.exists_eq_succ_of_ne_zero hn
  obtain ⟨f, fs, rfl⟩ := List.exists_cons_of_ne_nil hb
  rw [State.gatewaySend]
  · simp only [hd, List.take_of_length_le h4, List.drop_of_length_le h4, gatewaySend_none]
    rfl
  · exact nofun

theorem length_flitsOf (n : Nat) (d : List Byte) : (flitsOf n d).length = n := by
  induction n generalizing d with
  | zero => rfl
  | succ n ih => rw [flitsOf, List.length_cons, ih]

/-- The kind of a start token (R171). -/
theorem gatewayToken_kind (s : State) (p free : Nat) : (s.gatewayToken p free).data.toNat % 8 = 0 := by
  rw [State.gatewayToken, BitVec.toNat_ofNat]
  omega

@[simp] theorem gatewayToken_setGateway (s : State) (p k : Nat) (x : Gateway) (free : Nat) :
    (s.setGateway p k x).gatewayToken p free = s.gatewayToken p free := by
  rw [State.gatewayToken, frameOf_setGateway]
  rfl

/-! ### The two parts of a stream (R240) -/

/-- A queue whose binding is the only one of the Frame is found by its number. -/
theorem find_only_binding {f : Frame} {b : QueueRec} (h : f.queues = [b]) :
    f.queues.find? (fun r => decide (r.t = b.t) && decide (r.q = b.q)) = some b := by
  rw [h]
  exact List.find?_cons_of_pos (by simp)

/-- The gateway as it takes up its stream: one that is between two tensors takes a trigger. -/
def Gateway.begun (start : Bool) (g : Gateway) : Gateway :=
  if g.pos.isSome then g else { g with pos := some 0, started := !start, triggers := g.triggers - 1 }

/-- The start token goes before the first entry, where it has a credit. -/
def State.streamToken (p : Nat) (b : QueueRec) (s : State) : State :=
  let k := gwKey b.t b.q
  if !(s.gateway p k).started && decide ((s.gateway p k).prod.credits ≠ 0) then
    let d := s.draw
    let s := d.2.gatewaySend p b 1 [d.2.gatewayToken p d.1]
    s.setGateway p k { s.gateway p k with started := true }
  else s

/-- The entries that the credits allow. -/
def State.streamEntries (p tid : Nat) (b : QueueRec) (s : State) : State :=
  let k := gwKey b.t b.q
  let g := s.gateway p k
  if g.started = false then s
  else
    match s.alloc p tid, (s.frameOf p).tensor tid with
    | some a, some t =>
      let size := tensorBytes t
      let pos := g.pos.getD 0
      let n := min g.prod.credits ((size + 15) / 16 - pos)
      let rd := s.readRange p (a.base + 16 * pos) (min (16 * n) (size - 16 * pos))
      match rd.1.bad with
      | bad :: _ => rd.2.poisonConsumed p bad 3
      | [] =>
        let s := rd.2.gatewaySend p b n (flitsOf n rd.1.data)
        s.setGateway p k { s.gateway p k with pos := if pos + n = (size + 15) / 16 then none else some (pos + n) }
    | _, _ => s

section
variable {s : State} {p tid : Nat} {b : QueueRec} (hb : (s.frameOf p).queues = [b]) (hp : b.prod = .gateway tid)
include hb hp

/-- A gateway that is held, or that has nothing to stream, sends nothing. -/
theorem gatewayStream_idle (h : (s.gateway p (gwKey b.t b.q)).prod.held = true ∨
    (s.gateway p (gwKey b.t b.q)).pos = none ∧ (s.gateway p (gwKey b.t b.q)).triggers = 0) :
    exec (.gatewayStream p b.t b.q) s = .next s := by
  have found := find_only_binding hb
  have idle : (s.gateway p (gwKey b.t b.q)).prod.held = true ∨ ((s.gateway p (gwKey b.t b.q)).pos.isNone = true ∧
      (s.gateway p (gwKey b.t b.q)).triggers = 0) ∨ s.phys.power.halted = true := by
    rw [Option.isNone_iff_eq_none]
    exact h.imp_right .inl
  show execGatewayStream p b.t b.q s = _
  simp only [execGatewayStream, found, hp, if_pos idle]

/-- Otherwise it sends its start token, where that is due, and then entries. -/
theorem gatewayStream_go (hheld : (s.gateway p (gwKey b.t b.q)).prod.held = false)
    (hwork : (s.gateway p (gwKey b.t b.q)).pos ≠ none ∨ (s.gateway p (gwKey b.t b.q)).triggers ≠ 0)
    (hrun : s.phys.power.halted = false) : exec (.gatewayStream p b.t b.q) s = .next
      (((s.setGateway p (gwKey b.t b.q) ((s.gateway p (gwKey b.t b.q)).begun b.start)).streamToken p b).streamEntries p tid b) := by
  have found := find_only_binding hb
  have go : ¬ ((s.gateway p (gwKey b.t b.q)).prod.held = true ∨ ((s.gateway p (gwKey b.t b.q)).pos.isNone = true ∧
      (s.gateway p (gwKey b.t b.q)).triggers = 0) ∨ s.phys.power.halted = true) := by
    rw [hheld, hrun, Option.isNone_iff_eq_none]
    tauto
  show execGatewayStream p b.t b.q s = _
  simp only [execGatewayStream, found, hp, if_neg go, State.streamEntries, State.streamToken, Gateway.begun,
    gateway_setGateway_same] <;> rfl

end

/-! ### What each part of a stream sends -/

section
variable (start : Bool) (g : Gateway)
theorem begun_prod : (g.begun start).prod = g.prod := by
  rw [Gateway.begun]
  split <;> rfl
theorem begun_pos : (g.begun start).pos = some (g.pos.getD 0) := by
  obtain ⟨triggers, pos, started, prod⟩ := g
  cases pos <;> rfl
theorem begun_triggers : (g.begun start).triggers = if g.pos = none then g.triggers - 1 else g.triggers := by
  obtain ⟨triggers, pos, started, prod⟩ := g
  cases pos <;> rfl
end

section
variable {s : State} {p tid : Nat} {b : QueueRec}

theorem streamToken_none (h : (s.gateway p (gwKey b.t b.q)).started = true ∨ (s.gateway p (gwKey b.t b.q)).prod.credits = 0) :
    s.streamToken p b = s := by
  refine if_neg ?_
  simp only [Bool.and_eq_true, Bool.not_eq_true', decide_eq_true_eq]
  rintro ⟨waits, credit⟩
  exact h.elim (fun started => absurd started (by rw [waits]; decide)) credit

theorem streamToken_sends {d : PT × Bool} (hs : (s.gateway p (gwKey b.t b.q)).started = false)
    (hc : (s.gateway p (gwKey b.t b.q)).prod.credits ≠ 0) (hd : s.mapOf p b.t = some d) :
    let u := s.streamToken p b
    let g := s.gateway p (gwKey b.t b.q)
    (∃ free, u.comp.net = s.comp.net ++ [gatewayPacket p b d g.prod [s.gatewayToken p free]]) ∧
      u.gateway p (gwKey b.t b.q) = { g.sent 1 with started := true } ∧
      u.alloc p tid = s.alloc p tid ∧ u.frameOf p = s.frameOf p := by
  have sends := gatewaySend_packet (s := s.draw.2) (p := p) (n := 1) (b := b) (d := d)
    (body := [s.draw.2.gatewayToken p s.draw.1]) Nat.one_ne_zero (List.cons_ne_nil _ _) (Nat.le_add_left 1 3) hd
  have token : s.streamToken p b = ((s.draw.2.send (gatewayPacket p b d (s.gateway p (gwKey b.t b.q)).prod
      [s.gatewayToken p s.draw.1])).setGateway p (gwKey b.t b.q) ((s.gateway p (gwKey b.t b.q)).sent 1)).setGateway p
      (gwKey b.t b.q) { (s.gateway p (gwKey b.t b.q)).sent 1 with started := true } := by
    have due : (!(s.gateway p (gwKey b.t b.q)).started && decide ((s.gateway p (gwKey b.t b.q)).prod.credits ≠ 0)) = true := by
      rw [hs, decide_eq_true hc]
      rfl
    simp only [State.streamToken, if_pos due, sends, gateway_setGateway_same]
    rfl
  simp only [token, gateway_setGateway_same, alloc_setGateway, frameOf_setGateway, net_setGateway]
  exact ⟨⟨_, rfl⟩, trivial, rfl, rfl⟩

section
variable {a : Alloc} {te : TensorRec} {g : Gateway} (hg : s.gateway p (gwKey b.t b.q) = g) (hs : g.started = true)
  (ha : s.alloc p tid = some a) (ht : (s.frameOf p).tensor tid = some te)
include hg hs ha ht

/-- Without credits no entry goes, and the gateway stays where it is. -/
theorem streamEntries_none (hc : g.prod.credits = 0) (hpos : g.pos.getD 0 < (tensorBytes te + 15) / 16) :
    s.streamEntries p tid b = s.setGateway p (gwKey b.t b.q) { g with pos := some (g.pos.getD 0) } := by
  have more : ¬ g.pos.getD 0 = (tensorBytes te + 15) / 16 := Nat.ne_of_lt hpos
  simp only [State.streamEntries, hg, hs, ha, ht, hc, Bool.true_eq_false, if_false, Nat.zero_min, Nat.mul_zero, readRange_nothing,
    flitsOf, gatewaySend_none, Nat.add_zero, if_neg more]

/-- Up to four entries go in one packet (R167, R240). -/
theorem streamEntries_sends {d : PT × Bool} {k : Nat} {rd : PaRead × State} (hd : s.mapOf p b.t = some d) (hpos : g.pos = some k)
    (h1 : 1 ≤ g.prod.credits) (h4 : g.prod.credits ≤ 4) (hmore : g.prod.credits ≤ (tensorBytes te + 15) / 16 - k)
    (hrd : s.readRange p (a.base + 16 * k) (min (16 * g.prod.credits) (tensorBytes te - 16 * k)) = rd) (good : rd.1.bad = []) :
    (s.streamEntries p tid b).comp.net = rd.2.comp.net ++ [gatewayPacket p b d g.prod (flitsOf g.prod.credits rd.1.data)] ∧
      (s.streamEntries p tid b).gateway p (gwKey b.t b.q) = { g.sent g.prod.credits with
        pos := if k + g.prod.credits = (tensorBytes te + 15) / 16 then none else some (k + g.prod.credits) } := by
  have runs : SameRuns s rd.2 := hrd ▸ sameRuns_readRange ..
  have len : (flitsOf g.prod.credits rd.1.data).length = g.prod.credits := length_flitsOf ..
  have sends := gatewaySend_packet (s := rd.2) (p := p) (n := g.prod.credits) (b := b) (d := d)
    (body := flitsOf g.prod.credits rd.1.data) (Nat.ne_of_gt h1) (List.ne_nil_of_length_pos (by rw [len]; exact h1))
    (by rw [len]; exact h4) ((runs.mapOf p b.t).trans hd)
  rw [runs.gateway, hg, len] at sends
  have count : min g.prod.credits ((tensorBytes te + 15) / 16 - k) = g.prod.credits := min_eq_left hmore
  have entries : s.streamEntries p tid b = ((rd.2.send (gatewayPacket p b d g.prod (flitsOf g.prod.credits rd.1.data))).setGateway p
      (gwKey b.t b.q) (g.sent g.prod.credits)).setGateway p (gwKey b.t b.q) { g.sent g.prod.credits with
        pos := if k + g.prod.credits = (tensorBytes te + 15) / 16 then none else some (k + g.prod.credits) } := by
    simp only [State.streamEntries, hg, hs, ha, ht, hpos, Option.getD_some, Bool.true_eq_false, if_false, count, hrd, good, sends,
      gateway_setGateway_same]
  rw [entries, gateway_setGateway_same]
  exact ⟨rfl, rfl⟩

end
end

/-! ### The stream of a gateway with one binding -/

section
variable {s : State} {p tid : Nat} {b : QueueRec} {a : Alloc} {te : TensorRec} {d : PT × Bool} {g : Gateway}
  (hb : (s.frameOf p).queues = [b]) (hp : b.prod = .gateway tid) (hd : s.mapOf p b.t = some d)
  (hg : s.gateway p (gwKey b.t b.q) = g) (hheld : g.prod.held = false) (hrun : s.phys.power.halted = false)
  (ha : s.alloc p tid = some a) (ht : (s.frameOf p).tensor tid = some te)
include hb hp hg hheld hrun ha ht

/-- Without credits the gateway takes its trigger and sends nothing. -/
theorem gatewayStream_waits (hwork : g.pos ≠ none ∨ g.triggers ≠ 0) (hc : g.prod.credits = 0)
    (hpos : g.pos.getD 0 < (tensorBytes te + 15) / 16) : ∃ n, exec (.gatewayStream p b.t b.q) s = .next n ∧
      n.comp.net = s.comp.net ∧ (n.gateway p (gwKey b.t b.q)).pos = some (g.pos.getD 0) ∧
      (n.gateway p (gwKey b.t b.q)).triggers = (if g.pos = none then g.triggers - 1 else g.triggers) := by
  have goes := gatewayStream_go hb hp (hg ▸ hheld) (hg ▸ hwork) hrun
  rw [hg] at goes
  have taken : (s.setGateway p (gwKey b.t b.q) (g.begun b.start)).gateway p (gwKey b.t b.q) = g.begun b.start :=
    gateway_setGateway_same ..
  rw [streamToken_none (.inr (by rw [taken, begun_prod, hc]))] at goes
  refine ⟨_, goes, ?_⟩
  by_cases hs : (g.begun b.start).started = true
  · rw [streamEntries_none taken hs ((alloc_setGateway ..).trans ha) (by rw [frameOf_setGateway, ht]) (by rw [begun_prod, hc])
      (by rw [begun_pos]; exact hpos), gateway_setGateway_same]
    exact ⟨rfl, by rw [begun_pos]; rfl, begun_triggers ..⟩
  · rw [State.streamEntries, taken, if_pos (Bool.not_eq_true _ ▸ hs), taken]
    exact ⟨rfl, begun_pos .., begun_triggers ..⟩

include hd

/-- With one credit a gateway that begins sends its start token (R240). -/
theorem gatewayStream_token (hpos : g.pos = none) (hwork : g.triggers ≠ 0) (hc : g.prod.credits = 1) (hstart : b.start = true)
    (hbytes : 0 < tensorBytes te) : ∃ n free, exec (.gatewayStream p b.t b.q) s = .next n ∧
      n.comp.net = s.comp.net ++ [gatewayPacket p b d g.prod [s.gatewayToken p free]] ∧
      (n.gateway p (gwKey b.t b.q)).prod.credits = 0 ∧ (n.gateway p (gwKey b.t b.q)).triggers = g.triggers - 1 := by
  have goes := gatewayStream_go hb hp (hg ▸ hheld) (.inr (hg ▸ hwork)) hrun
  obtain ⟨g1, begins⟩ : ∃ g1, g.begun b.start = g1 := ⟨_, rfl⟩
  have hg1 : g1 = { g with pos := some 0, started := false, triggers := g.triggers - 1 } := by
    rw [← begins, Gateway.begun, hpos, hstart]
    rfl
  rw [hg, begins] at goes
  have taken : (s.setGateway p (gwKey b.t b.q) g1).gateway p (gwKey b.t b.q) = g1 := gateway_setGateway_same ..
  obtain ⟨⟨free, net⟩, after, hav, hfv⟩ := streamToken_sends (tid := tid) (d := d) (by rw [taken, hg1])
    (by rw [taken, hg1]; exact hc ▸ Nat.one_ne_zero) ((mapOf_setGateway ..).trans hd)
  rw [taken, gatewayToken_setGateway, show g1.prod = g.prod by rw [hg1]] at net
  rw [taken] at after
  obtain ⟨g2, hg2⟩ : ∃ g2, { g1.sent 1 with started := true } = g2 := ⟨_, rfl⟩
  have started : g2.started = true := by rw [← hg2]
  have spent : g2.prod.credits = 0 := by
    rw [← hg2, hg1]
    exact congrArg (· - 1) hc
  have first : g2.pos.getD 0 < (tensorBytes te + 15) / 16 := by
    rw [← hg2, hg1]
    exact Nat.div_pos (by omega) (by decide)
  rw [hg2] at after
  rw [streamEntries_none after started (hav.trans ((alloc_setGateway ..).trans ha)) (by rw [hfv, frameOf_setGateway, ht]) spent
    first] at goes
  refine ⟨_, free, goes, net, ?_, ?_⟩
  · rw [gateway_setGateway_same]
    exact spent
  · rw [gateway_setGateway_same, ← hg2, hg1]
    rfl

/-- With credits it sends as many of the next entries (R167, R240). -/
theorem gatewayStream_entries {k : Nat} {rd : PaRead × State} (hpos : g.pos = some k) (hs : g.started = true)
    (h1 : 1 ≤ g.prod.credits) (h4 : g.prod.credits ≤ 4) (hmore : g.prod.credits ≤ (tensorBytes te + 15) / 16 - k)
    (hrd : (s.setGateway p (gwKey b.t b.q) g).readRange p (a.base + 16 * k)
      (min (16 * g.prod.credits) (tensorBytes te - 16 * k)) = rd) (good : rd.1.bad = []) :
    ∃ n, exec (.gatewayStream p b.t b.q) s = .next n ∧
      n.comp.net = rd.2.comp.net ++ [gatewayPacket p b d g.prod (flitsOf g.prod.credits rd.1.data)] ∧
      (n.gateway p (gwKey b.t b.q)).prod.credits = 0 ∧ (n.gateway p (gwKey b.t b.q)).pos =
        if k + g.prod.credits = (tensorBytes te + 15) / 16 then none else some (k + g.prod.credits) := by
  have goes := gatewayStream_go hb hp (hg ▸ hheld) (.inl (by rw [hg, hpos]; exact nofun)) hrun
  have begins : g.begun b.start = g := by
    rw [Gateway.begun, hpos]
    rfl
  have taken : (s.setGateway p (gwKey b.t b.q) g).gateway p (gwKey b.t b.q) = g := gateway_setGateway_same ..
  rw [hg, begins, streamToken_none (.inl (by rw [taken, hs]))] at goes
  obtain ⟨net, after⟩ := streamEntries_sends taken hs ((alloc_setGateway ..).trans ha) (by rw [frameOf_setGateway, ht])
    ((mapOf_setGateway ..).trans hd) hpos h1 h4 hmore hrd good
  refine ⟨_, goes, net, ?_, ?_⟩
  · rw [after]
    exact Nat.sub_self _
  · rw [after]

end

/-- Settles O35, clause by clause: a spill moves what it reads under the code, and a stream is its start token, where that is due,
and then the entries that the credits allow. -/
theorem spillRefillAndStream : Obligations.SpillRefillAndStream := by
  unfold Obligations.SpillRefillAndStream
  refine ⟨fun s t => exec_spill_stalled,
    fun s t q c hmax hn _ hc => ⟨fun w hw => spillQueue_uncorr hmax hn hc hw, fun x hx => ?_⟩,
    fun s t q c r hch hc hr => ?_, fun s t q c r al hch hc hfit hal hgood => ?_,
    fun s p => ⟨flowClrDiscard_zeroes s p, flowClrPeak_sets s p, flowClrSpill_zeroes s p⟩, ?_⟩
  · have hq := queue_spillQueue hmax hn hc hx
    exact ⟨by rw [hq]; rfl, by rw [hq]; rfl, by rw [hq]; rfl,
      fun hch => by rw [hq]; exact spill_keeps_order _ _ (Nat.min_le_left ..) hch,
      field_spillQueue hmax hn hc hx, mem_spillQueue hmax hn hc hx, r_spillQueue hmax hn hc hx,
      fun v hv => tile_spillQueue_ne hmax hn hc hx hv⟩
  · obtain ⟨n, hexec, hq⟩ := spillBasinDone_commits hch hc hr
    exact ⟨n, hexec, by rw [hq], by rw [hq], by rw [hq]⟩
  · obtain ⟨n, hexec, hq⟩ := refill_moves hch hc hfit hal hgood
    exact ⟨n, hexec, by rw [hq], by rw [hq], by rw [hq]⟩
  · rintro s p c q tid b a te d hb rfl rfl hp hd
    refine ⟨gatewayStream_idle hb hp,
      fun hheld hwork hrun hc ha ht _ _ hpos => gatewayStream_waits hb hp rfl hheld hrun ha ht hwork hc hpos,
      fun hheld hpos hwork hrun hc hstart ha ht hbytes => ?_, fun k hheld hpos hs hrun h1 h4 hmore ha ht good => ?_⟩
    · obtain ⟨n, free, hexec, net, spent, triggers⟩ :=
        gatewayStream_token hb hp hd rfl hheld hrun ha ht hpos hwork hc hstart hbytes
      refine ⟨n, _, hexec, net, rfl, rfl, rfl, rfl, rfl, fun f hf => ?_, spent, triggers⟩
      obtain rfl := List.mem_singleton.1 hf
      exact ⟨rfl, gatewayToken_kind ..⟩
    · obtain ⟨n, hexec, net, spent, pos⟩ := gatewayStream_entries hb hp hd rfl hheld hrun ha ht hpos hs h1 h4 hmore rfl good
      exact ⟨n, _, hexec, net, rfl, rfl, rfl, rfl, rfl, spent, pos⟩

end Sys2Proof.Machine
end

section
/-!
SUPPORT. What the Plane's work on partition memory, its resets and its ring scans leave: supply, tiles, hosts, Joiner pairs, the
PCIe link and PERST# (R388, R410 to R417, R443 to R448, R455).
-/

namespace Sys2Proof.Machine

/-- What the Plane leaves when it reads, writes, copies in and resets. -/
structure PlaneFrame (s t : State) : Prop where
  phys : t.phys = s.phys
  tiles : t.comp.tiles = s.comp.tiles
  hosts : t.comp.hosts = s.comp.hosts
  pairs : t.man.pairs = s.man.pairs
  pcie : t.host.pcie = s.host.pcie
  perst : t.man.boot.perst = s.man.boot.perst

section
variable {s t u : State}

/-! ### The rules of `PlaneFrame` -/

theorem PlaneFrame.refl (s : State) : PlaneFrame s s := ⟨rfl, rfl, rfl, rfl, rfl, rfl⟩

theorem PlaneFrame.trans (h : PlaneFrame s t) (k : PlaneFrame t u) : PlaneFrame s u where
  phys := k.phys.trans h.phys
  tiles := k.tiles.trans h.tiles
  hosts := k.hosts.trans h.hosts
  pairs := k.pairs.trans h.pairs
  pcie := k.pcie.trans h.pcie
  perst := k.perst.trans h.perst

/-- A change beside what the frame speaks of. -/
theorem PlaneFrame.same (h : PlaneFrame s t) (hphys : u.phys = t.phys := by rfl)
    (htiles : u.comp.tiles = t.comp.tiles := by rfl) (hhosts : u.comp.hosts = t.comp.hosts := by rfl)
    (hpairs : u.man.pairs = t.man.pairs := by rfl) (hpcie : u.host.pcie = t.host.pcie := by rfl)
    (hperst : u.man.boot.perst = t.man.boot.perst := by rfl) : PlaneFrame s u :=
  h.trans ⟨hphys, htiles, hhosts, hpairs, hpcie, hperst⟩

theorem PlaneFrame.ite {c : Prop} [Decidable c] (h : PlaneFrame s t) (k : PlaneFrame s u) :
    PlaneFrame s (if c then t else u) := by
  split
  · exact h
  · exact k

theorem PlaneFrame.foldl {α : Type} {f : State → α → State} (l : List α) (h : PlaneFrame s t)
    (hf : ∀ u x, PlaneFrame s u → PlaneFrame s (f u x)) : PlaneFrame s (l.foldl f t) := by
  induction l generalizing t with
  | nil => exact h
  | cons x xs ih => exact ih (hf t x h)

theorem PlaneFrame.modPart (h : PlaneFrame s t) (p : Nat) (f : Part → Part) : PlaneFrame s (t.modPart p f) := h.same
theorem PlaneFrame.modPln (h : PlaneFrame s t) (p : Nat) (f : PartPlane → PartPlane) : PlaneFrame s (t.modPln p f) := h.same
theorem PlaneFrame.modRun (h : PlaneFrame s t) (p : Nat) (f : PartRun → PartRun) : PlaneFrame s (t.modRun p f) := h.same
theorem PlaneFrame.setLayer (h : PlaneFrame s t) (p l : Nat) (x : Layer) : PlaneFrame s (t.setLayer p l x) := h.modPln ..
theorem PlaneFrame.setReg (h : PlaneFrame s t) (a : Nat) (v : Word) : PlaneFrame s (t.setReg a v) := h.same
theorem PlaneFrame.bump (h : PlaneFrame s t) (a hi lo n : Nat) : PlaneFrame s (t.bump a hi lo n) := h.same

theorem PlaneFrame.setEngine (h : PlaneFrame s t) (e : Nat) (x : Engine) : PlaneFrame s (t.setEngine e x) := h.same

theorem PlaneFrame.stopFor (h : PlaneFrame s t) (sev : Severity) (p : Nat) : PlaneFrame s (t.stopFor sev p) := by
  cases sev
  all_goals exact h.same

theorem LogFrame.planeFrame (h : LogFrame s t) : PlaneFrame s t where
  phys := h.phys
  tiles := by rw [h.comp]
  hosts := by rw [h.comp]
  pairs := by rw [h.1]
  pcie := h.pcie
  perst := by rw [h.boot]

theorem PlaneFrame.signal (h : PlaneFrame s t) (id : EventId) (p : Nat) (ops : List Nat) :
    PlaneFrame s (t.signal id p ops) := by
  obtain ⟨u, logs, -, stopped⟩ := signal_spec id p ops t
  rw [stopped]
  exact (h.trans logs.planeFrame).stopFor ..

/-! ### Blocks of HBM (R443 to R448, R455) -/

theorem PlaneFrame.lineSuspect (h : PlaneFrame s t) (k ch byte : Nat) : PlaneFrame s (t.lineSuspect k ch byte) :=
  .ite (PlaneFrame.signal h.same ..) h

theorem PlaneFrame.countCorrected (h : PlaneFrame s t) (k blk : Nat) (bytes : List Nat) (scrub : Bool) :
    PlaneFrame s (t.countCorrected k blk bytes scrub) := by
  unfold State.countCorrected
  extract_lets ch s1 s2 x new y s3 n s4
  have h2 : PlaneFrame s s2 := .ite h.same h.same
  have h4 : PlaneFrame s s4 := .ite (PlaneFrame.signal h2.same ..) h2.same
  exact h4.foldl _ fun _ _ hu => hu.lineSuspect ..

theorem PlaneFrame.countUncorrectable (h : PlaneFrame s t) (k blk : Nat) : PlaneFrame s (t.countUncorrectable k blk) := by
  unfold State.countUncorrectable
  extract_lets ch s1 p s2 x hist y s3 due z s4
  have h1 : PlaneFrame s s1 := h.same
  have h2 : PlaneFrame s s2 := h1.signal ..
  have h3 : PlaneFrame s s3 := h2.same
  have h4 : PlaneFrame s s4 := PlaneFrame.setReg h3.same ..
  exact .ite (.ite (h4.signal ..) h4) h3

theorem PlaneFrame.blockLost (h : PlaneFrame s t) (k blk : Nat) (scrub : Bool) : PlaneFrame s (t.blockLost k blk scrub).2 :=
  .ite (h.countUncorrectable k blk) (h.countUncorrectable k blk).same

theorem PlaneFrame.blockFixed (h : PlaneFrame s t) (k blk : Nat) (scrub : Bool) (fixed : List Nat) :
    PlaneFrame s (t.blockFixed k blk scrub fixed) := .ite h.same (PlaneFrame.countCorrected h.same ..)

theorem PlaneFrame.readBlock (h : PlaneFrame s t) (k blk : Nat) (scrub : Bool) : PlaneFrame s (t.readBlock k blk scrub).2 := by
  unfold State.readBlock
  dsimp only
  split
  · exact .ite h h.same
  · split
    · exact h
    · split
      · exact h.blockFixed ..
      · split
        · exact h.blockLost ..
        · split
          · exact h.blockLost ..
          · exact PlaneFrame.blockFixed h.same ..

theorem PlaneFrame.refuseWrite (h : PlaneFrame s t) (k rel : Nat) : PlaneFrame s (t.refuseWrite k rel) :=
  PlaneFrame.signal h.same ..

theorem PlaneFrame.writeBlock (h : PlaneFrame s t) (k rel : Nat) (d : List Byte) : PlaneFrame s (t.writeBlock k rel d) := by
  have read := h.readBlock k (rel / 64) false
  unfold State.writeBlock
  dsimp only
  split
  · exact h.same
  · split
    · exact h.refuseWrite ..
    · exact .ite read.same (PlaneFrame.refuseWrite read.same ..)

/-! ### Ranges of partition memory (R391, R392, R438) -/

theorem PlaneFrame.writeUnit (h : PlaneFrame s t) {p pa : Nat} {d : List Byte} {e : Nat × State}
    (he : t.writeUnit p pa d = some e) : PlaneFrame s e.2 := by
  unfold State.writeUnit at he
  dsimp only at he
  split at he
  · exact nomatch he
  · split at he
    · exact nomatch he
    · obtain rfl := Option.some.inj he
      exact h.writeBlock ..

theorem PlaneFrame.writePa (p n : Nat) : ∀ (pa : Nat) (d : List Byte) {t : State}, PlaneFrame s t →
    PlaneFrame s (State.writePa p n pa d t).2 := by
  induction n with
  | zero => exact fun _ _ _ h => h
  | succ n ih =>
    intro pa d t h
    rw [State.writePa]
    split
    · exact h
    next e he => exact ih _ _ (h.writeUnit he)

theorem PlaneFrame.readUnit (h : PlaneFrame s t) {p pa len : Nat} {e : PaRead × State} (he : t.readUnit p pa len = some e) :
    PlaneFrame s e.2 := by
  unfold State.readUnit at he
  dsimp only at he
  split at he
  · exact nomatch he
  · split at he
    · exact nomatch he
    · obtain rfl := Option.some.inj he
      exact h.readBlock ..

theorem PlaneFrame.readPa (p n : Nat) : ∀ (pa len : Nat) {t : State}, PlaneFrame s t →
    PlaneFrame s (State.readPa p n pa len t).2 := by
  induction n with
  | zero => exact fun _ _ _ h => h
  | succ n ih =>
    intro pa len t h
    rw [State.readPa]
    split
    · exact h
    next e he => exact ih _ _ (h.readUnit he)

theorem PlaneFrame.readRange (h : PlaneFrame s t) (p pa len : Nat) : PlaneFrame s (t.readRange p pa len).2 := .readPa _ _ _ _ h

theorem PlaneFrame.countGradient (h : PlaneFrame s t) (p pa n : Nat) (r : LayerRec) :
    PlaneFrame s (t.countGradient p pa n r) := by
  unfold State.countGradient
  split
  · exact h
  · exact .ite h (.ite (h.signal ..) (.ite ((h.setLayer ..).modPln ..) (h.setLayer ..)))

theorem PlaneFrame.writeRange (h : PlaneFrame s t) (p pa : Nat) (d : List Byte) : PlaneFrame s (t.writeRange p pa d).2 :=
  (PlaneFrame.writePa _ _ _ _ h).foldl _ fun _ _ hu => hu.countGradient ..

theorem PlaneFrame.poisonPa (h : PlaneFrame s t) (p pa : Nat) : PlaneFrame s (t.poisonPa p pa) := by
  unfold State.poisonPa
  split
  · exact h.same
  · exact h

/-! ### The staging ring and copy-in (R388, R410 to R417) -/

theorem PlaneFrame.ringRead (h : PlaneFrame s t) (p : Nat) (a : Alloc) (off n : Nat) :
    PlaneFrame s (t.ringRead p a off n).2.2 := by
  unfold State.ringRead
  dsimp only
  split
  · exact (h.readRange ..).readRange ..
  · exact h.readRange ..

theorem PlaneFrame.ringWrite (h : PlaneFrame s t) (p : Nat) (a : Alloc) (off : Nat) (d : List Byte) :
    PlaneFrame s (t.ringWrite p a off d) := .ite ((h.writeRange ..).writeRange ..) (h.writeRange ..)

theorem PlaneFrame.spreadPoison (h : PlaneFrame s t) (p src dst len : Nat) (bad : List Nat) :
    PlaneFrame s (t.spreadPoison p src dst len bad) :=
  h.foldl _ fun _ _ hu => .ite (hu.foldl _ fun _ _ hv => hv.poisonPa ..) hu

theorem PlaneFrame.copyIn (h : PlaneFrame s t) (p : Nat) (r : LayerRec) (g : Staged) : PlaneFrame s (t.copyIn p r g) := by
  unfold State.copyIn
  split
  · exact h
  · extract_lets wn sn q s1 wBase s2 s3 u s4 sBase s5
    have h1 : PlaneFrame s s1 := h.ringRead ..
    have h3 : PlaneFrame s s3 := (h1.writeRange ..).spreadPoison ..
    have h4 : PlaneFrame s s4 := h3.ringRead ..
    have h5 : PlaneFrame s s5 := .ite h4 ((h4.writeRange ..).spreadPoison ..)
    split
    · exact h5
    · split
      · exact (h5.writeRange ..).foldl _ fun v _ hv =>
          have elements := hv.foldl _ fun _ _ hw => hw.poisonPa ..
          .ite elements (elements.foldl _ fun _ _ hw => hw.poisonPa ..)
      · exact h5

theorem PlaneFrame.sendTo (h : PlaneFrame s t) (x : PT) (l : LT) (mk : PT → Bool → Packet) : PlaneFrame s (t.sendTo x l mk) := by
  unfold State.sendTo
  split
  · exact h.same
  · exact h.signal ..

theorem PlaneFrame.floatApply (h : PlaneFrame s t) (p fid : Nat) (v : Bool) : PlaneFrame s (t.floatApply p fid v) :=
  PlaneFrame.foldl _ (h.modRun ..) fun _ _ hu => hu.sendTo ..

theorem PlaneFrame.refreshWindows (h : PlaneFrame s t) (p tid : Nat) : PlaneFrame s (t.refreshWindows p tid) :=
  h.foldl _ fun _ _ hu => .ite (PlaneFrame.floatApply (hu.modRun ..) ..) hu

theorem PlaneFrame.finishCopy (h : PlaneFrame s t) (p : Nat) (r : LayerRec) (g : Staged) :
    PlaneFrame s (t.finishCopy p r g) := by
  unfold State.finishCopy
  extract_lets s1 x s2 s3
  have h1 : PlaneFrame s s1 := by
    unfold s1
    split
    · exact h.ringWrite ..
    · exact h
  exact ((h1.setLayer ..).bump ..).foldl _ fun _ _ hu => hu.refreshWindows ..

theorem PlaneFrame.beginCopy (h : PlaneFrame s t) (p l : Nat) : PlaneFrame s (t.beginCopy p l) := by
  unfold State.beginCopy
  dsimp only
  split
  · split
    · exact (((h.ringWrite ..).setLayer ..).modPln ..).setEngine ..
    · exact ((h.setLayer ..).modPln ..).setEngine ..
  · exact h

theorem PlaneFrame.beginCopies (h : PlaneFrame s t) : PlaneFrame s t.beginCopies :=
  h.foldl _ fun _ _ hu => hu.foldl _ fun _ _ hv => .ite (hv.beginCopy ..) hv

/-! ### The ring scan and the reset of a partition's layers (R416, R417) -/

theorem PlaneFrame.scanLayer (h : PlaneFrame s t) (p l : Nat) : PlaneFrame s (t.scanLayer p l) := by
  unfold State.scanLayer
  dsimp only
  split
  · exact .ite (((h.copyIn ..).finishCopy ..).signal ..) ((h.setLayer ..).signal ..)
  · exact .ite ((h.setLayer ..).signal ..) h
  · exact h

theorem PlaneFrame.ringScan (h : PlaneFrame s t) (e : Nat) : PlaneFrame s (t.ringScan e) := by
  have freed : PlaneFrame s (t.freeEngine e) := h.setEngine ..
  exact ((freed.foldl _ fun _ _ hu => hu.scanLayer ..).setEngine ..).beginCopies

theorem PlaneFrame.finishCommitted (h : PlaneFrame s t) (p l : Nat) (x : Layer) : PlaneFrame s (t.finishCommitted p l x) := by
  unfold State.finishCommitted
  split
  · exact .ite ((h.copyIn ..).finishCopy ..) h
  · exact h

theorem PlaneFrame.freeOf (h : PlaneFrame s t) (p l : Nat) : PlaneFrame s (t.freeOf p l) := .ite (h.setEngine ..) h

theorem PlaneFrame.idleLayer (h : PlaneFrame s t) (p l : Nat) : PlaneFrame s (t.idleLayer p l) := .ite h (h.setLayer ..)

theorem PlaneFrame.planeReset (h : PlaneFrame s t) (p : Nat) : PlaneFrame s (t.planeReset p) :=
  (h.foldl _ fun _ _ hu => ((hu.finishCommitted ..).freeOf ..).idleLayer ..).beginCopies

end

end Sys2Proof.Machine
end

section
/-!
SUPPORT. What the logs of the functions change when commands complete (R604 to R609, R617, R618, R621), and the compute reset of a
partition (R417, R628, R671): what it leaves, and the state of the partition's tiles.
-/

namespace Sys2Proof.Machine

/-! ### Completions (R606, R617, R618, R621) -/

/-- Only the functions, their registers, what has left the module and the records that wait for the Grain log differ. -/
def OnlyHostLogs (s t : State) : Prop :=
  t = { s with regs := t.regs, out := t.out, host := { s.host with funcs := t.host.funcs },
               man := { s.man with grain := { s.man.grain with waiting := t.man.grain.waiting } } }

section
variable {s t u : State}

theorem OnlyHostLogs.trans (h : OnlyHostLogs s t) (k : OnlyHostLogs t u) : OnlyHostLogs s u := by
  unfold OnlyHostLogs at *
  rw [k, h]

theorem OnlyHostLogs.ite {c : Prop} [Decidable c] (h : OnlyHostLogs s t) (k : OnlyHostLogs s u) :
    OnlyHostLogs s (if c then t else u) := by
  split
  · exact h
  · exact k

theorem LogFrame.onlyHostLogs (h : LogFrame s t) : OnlyHostLogs s t := h.1

theorem OnlyHostLogs.comp (h : OnlyHostLogs s t) : t.comp = s.comp := by rw [h]
theorem OnlyHostLogs.phys (h : OnlyHostLogs s t) : t.phys = s.phys := by rw [h]
theorem OnlyHostLogs.pcie (h : OnlyHostLogs s t) : t.host.pcie = s.host.pcie := by rw [h]
theorem OnlyHostLogs.boot (h : OnlyHostLogs s t) : t.boot = s.boot := by rw [h]; rfl

theorem OnlyHostLogs.planeFrame (h : OnlyHostLogs s t) : PlaneFrame s t := by
  rw [h]
  exact (PlaneFrame.refl s).same

end

theorem onlyHostLogs_logWrite (s : State) (f : Nat) (k : LogKind) (e : Bool → List Byte) :
    OnlyHostLogs s (s.logWrite f k e) := by
  unfold State.logWrite
  extract_lets n i ph a s1 s2
  have written : OnlyHostLogs s s1 := (((LogFrame.rfl' s).emitOut _).ite ((LogFrame.rfl' s).holdBlocked _ _)).onlyHostLogs
  exact .ite (written.trans rfl) (written.trans rfl)

theorem onlyHostLogs_flushCompletions (f n : Nat) (s : State) : OnlyHostLogs s (s.flushCompletions f n) := by
  induction n generalizing s with
  | zero => rfl
  | succ n ih =>
    rw [State.flushCompletions]
    split
    · rfl
    next e r _ =>
      have written : OnlyHostLogs s ((s.modFunc f fun x => { x with waiting := r }).logWrite f .completion (withPhase e.2)) :=
        OnlyHostLogs.trans (t := s.modFunc f fun x => { x with waiting := r }) rfl (onlyHostLogs_logWrite ..)
      have told := written.trans ((LogFrame.rfl' _).sendMsix f (e.1 - 1)).onlyHostLogs
      exact .ite ((written.ite told).trans (ih _)) rfl

theorem onlyHostLogs_complete (s : State) (f : Nat) (c : Cmd) (st : Status) (r : Nat) : OnlyHostLogs s (s.complete f c st r) :=
  OnlyHostLogs.trans (t := (s.modFunc f fun x => { x with inflight := x.inflight.filter fun d => decide (d.seq ≠ c.seq) }).modFunc f
    fun x => { x with waiting := x.waiting ++ [_] }) rfl (onlyHostLogs_flushCompletions ..)

/-- Entries that waited for the link leave everything but the logs (R586). -/
theorem onlyHostLogs_flushHost (s : State) : OnlyHostLogs s s.flushHost :=
  List.foldlRecOn (motive := OnlyHostLogs s) _ _ rfl fun _ hu f _ =>
    (hu.trans (onlyHostLogs_flushCompletions f _ _)).trans ((LogFrame.rfl' _).flushEvents f _).onlyHostLogs

theorem planeFrame_abortCommands (s : State) (p : Nat) : PlaneFrame s (s.abortCommands p) :=
  PlaneFrame.foldl _ ((PlaneFrame.refl s).foldl _ fun _ _ hu => hu.foldl _ fun v _ hv =>
    hv.trans (onlyHostLogs_complete v ..).planeFrame) fun _ _ hu => hu.same

/-! ### The sequencers of a bay's tiles -/

/-- The sequencer of every tile of bay `b`, listed or not, is in a state that `P` allows. -/
def State.BayTiles (s : State) (b : Nat) (P : Seq → Prop) : Prop :=
  P (s.bay b).base.s.seq ∧ ∀ e ∈ s.comp.tiles, e.1 / 12288 = b → P e.2.s.seq

theorem Tab.get_mem {α : Type} (d : α) (t : Tab α) (k : Nat) : Tab.get d t k = d ∨ (k, Tab.get d t k) ∈ t := by
  induction t with
  | nil => exact .inl rfl
  | cons e r ih =>
    obtain ⟨j, v⟩ := e
    rw [Tab.get]
    split
    next hj => exact .inr (hj ▸ List.mem_cons_self)
    next => exact ih.imp_right (List.mem_cons_of_mem _)

theorem State.BayTiles.get {s : State} {b k : Nat} {P : Seq → Prop} (h : s.BayTiles b P) (hk : k / 12288 = b) :
    P (Tab.get (s.bay b).base s.comp.tiles k).s.seq := by
  rcases Tab.get_mem (s.bay b).base s.comp.tiles k with base | listed
  · rw [base]
    exact h.1
  · exact h.2 _ listed hk

theorem State.BayTiles.tile {s : State} {x : PT} {P : Seq → Prop} (h : s.BayTiles x.bay P) (hx : x.valid = true) :
    P (s.tile x).s.seq := h.get (PT.key_div hx)

section
variable {s : State} {b c : Nat} {P Q : Seq → Prop} {f : PT → Tile → Tile}

theorem bay_modBayTiles_same (s : State) (b : Nat) (f : PT → Tile → Tile) :
    (s.modBayTiles b f).bay b = { s.bay b with base := f { bay := b, col := 128, row := 96 } (s.bay b).base } :=
  State.bay_setBay_same s b _

theorem bay_modBayTiles_ne (s : State) (f : PT → Tile → Tile) (h : c ≠ b) : (s.modBayTiles b f).bay c = s.bay c :=
  State.bay_setBay_ne s _ h

theorem supply_modBayTiles (s : State) (b : Nat) (f : PT → Tile → Tile) (c : Nat) :
    ((s.modBayTiles b f).bay c).supply = (s.bay c).supply := by
  by_cases h : c = b
  · rw [h, bay_modBayTiles_same]
  · rw [bay_modBayTiles_ne s f h]

/-- What is listed after a change of a bay's tiles was listed before, changed if it is of that bay. -/
theorem mem_modBayTiles {e : Nat × Tile} (h : e ∈ (s.modBayTiles b f).comp.tiles) :
    ∃ x, (e.1, x) ∈ s.comp.tiles ∧ e.2 = if e.1 / 12288 = b then f (PT.ofKey e.1) x else x := by
  obtain ⟨kv, hkv, rfl⟩ := List.mem_map.1 (List.mem_filter.1 h).1
  refine ⟨kv.2, ?_⟩
  split
  next => exact ⟨hkv, rfl⟩
  next => exact ⟨hkv, rfl⟩

/-- A bay's tiles change as `f` changes each. -/
theorem State.BayTiles.modBayTiles_same (h : s.BayTiles b P) (hf : ∀ t x, P x.s.seq → Q (f t x).s.seq) :
    (s.modBayTiles b f).BayTiles b Q := by
  refine ⟨?_, fun e he hb => ?_⟩
  · rw [bay_modBayTiles_same]
    exact hf _ _ h.1
  · obtain ⟨x, hx, hex⟩ := mem_modBayTiles he
    rw [hex, if_pos hb]
    exact hf _ _ (h.2 _ hx hb)

theorem State.BayTiles.modBayTiles_ne (h : s.BayTiles c P) (hc : c ≠ b) : (s.modBayTiles b f).BayTiles c P := by
  refine ⟨?_, fun e he hb => ?_⟩
  · rw [bay_modBayTiles_ne s f hc]
    exact h.1
  · obtain ⟨x, hx, hex⟩ := mem_modBayTiles he
    rw [hex, if_neg (hb ▸ hc)]
    exact h.2 _ hx hb

theorem State.BayTiles.modBayTiles (h : s.BayTiles c P) (hf : ∀ t x, P x.s.seq → P (f t x).s.seq) :
    (s.modBayTiles b f).BayTiles c P := by
  by_cases hc : c = b
  · subst hc
    exact h.modBayTiles_same hf
  · exact h.modBayTiles_ne hc

theorem State.BayTiles.congr {t : State} (h : s.BayTiles b P) (hphys : t.phys = s.phys)
    (htiles : t.comp.tiles = s.comp.tiles) : t.BayTiles b P := by
  unfold State.BayTiles
  rw [State.bay_congr (congrArg Physical.bays hphys), htiles]
  exact h

theorem State.BayTiles.modPart (h : s.BayTiles b P) (p : Nat) (g : Part → Part) : (s.modPart p g).BayTiles b P := h.congr rfl rfl

theorem State.BayTiles.foldl {α : Type} {g : State → α → State} (l : List α) (h : s.BayTiles b P)
    (hg : ∀ u, ∀ x ∈ l, u.BayTiles b P → (g u x).BayTiles b P) : (l.foldl g s).BayTiles b P :=
  List.foldlRecOn (motive := fun u : State => u.BayTiles b P) l g h fun _ hu x hx => hg _ x hx hu

theorem PlaneFrame.bayTiles {t : State} (k : PlaneFrame s t) (h : s.BayTiles b P) : t.BayTiles b P := h.congr k.phys k.tiles

/-- A tile on the wafer is changed, and the state of its sequencer is not. -/
theorem State.BayTiles.modTile {t : PT} {g : Tile → Tile} (h : s.BayTiles b P) (ht : t.key / 12288 = t.bay)
    (hg : ∀ x, (g x).s.seq = x.s.seq) : (s.modTile t g).BayTiles b P := by
  refine ⟨h.1, fun e he hb => ?_⟩
  have cases_ : e = (t.key, g (s.tile t)) ∨ e ∈ s.comp.tiles := by
    change e ∈ Tab.set _ s.comp.tiles t.key (g (s.tile t)) at he
    unfold Tab.set at he
    split at he
    · exact .inr (Tab.mem_drop he)
    · exact Tab.mem_put he
  rcases cases_ with rfl | listed
  · rw [hg]
    have own : t.bay = b := ht.symm.trans hb
    rw [State.tile, own]
    exact h.get hb
  · exact h.2 e listed hb

theorem PT.key_ofKey_div (k : Nat) : (PT.ofKey k).key / 12288 = (PT.ofKey k).bay := by
  change (12288 * (k / 12288) + 128 * (k % 12288 / 128) + k % 128) / 12288 = k / 12288
  omega

end

/-! ### The compute reset (R628) -/

/-- What the reset of a partition, of the wafer and of the functions leaves. -/
structure ResetFrame (s t : State) : Prop where
  hosts : t.comp.hosts = s.comp.hosts
  pairs : t.man.pairs = s.man.pairs
  pcie : t.host.pcie = s.host.pcie
  perst : t.man.boot.perst = s.man.boot.perst
  supply : ∀ b, (t.bay b).supply = (s.bay b).supply

section
variable {s t u : State}

theorem ResetFrame.refl (s : State) : ResetFrame s s := ⟨rfl, rfl, rfl, rfl, fun _ => rfl⟩

theorem ResetFrame.trans (h : ResetFrame s t) (k : ResetFrame t u) : ResetFrame s u where
  hosts := k.hosts.trans h.hosts
  pairs := k.pairs.trans h.pairs
  pcie := k.pcie.trans h.pcie
  perst := k.perst.trans h.perst
  supply := fun b => (k.supply b).trans (h.supply b)

/-- A change beside what the frame speaks of. -/
theorem ResetFrame.same (h : ResetFrame s t) (hhosts : u.comp.hosts = t.comp.hosts := by rfl)
    (hpairs : u.man.pairs = t.man.pairs := by rfl) (hpcie : u.host.pcie = t.host.pcie := by rfl)
    (hperst : u.man.boot.perst = t.man.boot.perst := by rfl) (hphys : u.phys = t.phys := by rfl) : ResetFrame s u :=
  h.trans ⟨hhosts, hpairs, hpcie, hperst, fun b => by rw [State.bay_congr (congrArg Physical.bays hphys)]⟩

theorem ResetFrame.ite {c : Prop} [Decidable c] (h : ResetFrame s t) (k : ResetFrame s u) :
    ResetFrame s (if c then t else u) := by
  split
  · exact h
  · exact k

theorem ResetFrame.foldl {α : Type} {f : State → α → State} (l : List α) (h : ResetFrame s t)
    (hf : ∀ u x, ResetFrame s u → ResetFrame s (f u x)) : ResetFrame s (l.foldl f t) := by
  induction l generalizing t with
  | nil => exact h
  | cons x xs ih => exact ih (hf t x h)

theorem ResetFrame.setReg (h : ResetFrame s t) (a : Nat) (v : Word) : ResetFrame s (t.setReg a v) := h.same

theorem ResetFrame.modPart (h : ResetFrame s t) (p : Nat) (f : Part → Part) : ResetFrame s (t.modPart p f) := h.same

theorem ResetFrame.plane (h : ResetFrame s t) (k : PlaneFrame t u) : ResetFrame s u :=
  h.same k.hosts k.pairs k.pcie k.perst k.phys

theorem ResetFrame.modBayTiles (h : ResetFrame s t) (b : Nat) (f : PT → Tile → Tile) : ResetFrame s (t.modBayTiles b f) :=
  h.trans ⟨rfl, rfl, rfl, rfl, supply_modBayTiles t b f⟩

end

/-- A tile in RESET, or OFF (R151, R152). -/
def Seq.AtRest (q : Seq) : Prop := q = .reset ∨ q = .off

/-- The answers of a bay's parked requests. -/
theorem planeFrame_answers (s : State) (b : Nat) : PlaneFrame s (s.comp.tiles.foldl (fun s kt => if kt.1 / 12288 = b then
    kt.2.q.parked.foldl (fun s q => s.send (errAnswer q errReset)) s else s) s) :=
  (PlaneFrame.refl s).foldl _ fun _ _ hu => .ite (hu.foldl _ fun _ _ hv => hv.same) hu

theorem seq_atRest_toReset (x : Tile) : (if x.s.seq = .off then x else x.toReset).s.seq.AtRest := by
  split
  next off => exact .inr off
  next => exact .inl rfl

theorem bayTiles_resetBay_same (s : State) (b : Nat) : (s.resetBay b).BayTiles b Seq.AtRest :=
  State.BayTiles.modBayTiles_same (P := fun _ => True) ⟨trivial, fun _ _ _ => trivial⟩ fun _ x _ => seq_atRest_toReset x

theorem State.BayTiles.resetBay {s : State} {b : Nat} (h : s.BayTiles b Seq.AtRest) (c : Nat) :
    (s.resetBay c).BayTiles b Seq.AtRest :=
  ((planeFrame_answers s c).bayTiles h).modBayTiles fun _ x _ => seq_atRest_toReset x

theorem bayTiles_resetBays (s : State) {l : List Nat} {b : Nat} (hb : b ∈ l) :
    (l.foldl (fun s c => s.resetBay c) s).BayTiles b Seq.AtRest := by
  induction l generalizing s with
  | nil => exact nomatch hb
  | cons c l ih =>
    rcases List.mem_cons.1 hb with rfl | later
    · exact (bayTiles_resetBay_same s b).foldl _ fun _ _ _ hu => hu.resetBay _
    · exact ih _ later

theorem State.BayTiles.emptyQueues {s : State} {b : Nat} {P : Seq → Prop} (h : s.BayTiles b P) (p k : Nat) :
    (s.emptyQueues p (PT.ofKey k)).BayTiles b P := by
  unfold State.emptyQueues
  extract_lets x n s1
  have emptied : s1.BayTiles b P := h.modTile (PT.key_ofKey_div k) fun _ => rfl
  exact emptied.congr rfl rfl

theorem State.BayTiles.regionsEmptied {s : State} {b : Nat} {P : Seq → Prop} (h : s.BayTiles b P) (p : Nat) :
    (s.regionsEmptied p).BayTiles b P :=
  h.foldl _ fun u kt _ hu => by
    split
    · exact hu.emptyQueues ..
    · exact hu

/-- What a compute reset does between the tiles and the Frame: the Plane, the puts and the commands of the partition (R628). -/
def State.resetWork (p : Nat) (s : State) : State :=
  let s := s.planeReset p
  let s := ((s.setReg (Reg.plnStep0 p) 0).setReg (Reg.plnStep1 p) 0).setReg (Reg.plnStepstat p) 0
  let s := s.modPln p fun y => { y with latched := none, staleRaised := none, firstReadyAt := none }
  (s.resetPuts p).abortCommands p

theorem computeReset_eq (s : State) (p : Nat) :
    s.computeReset p = ((((s.baysOf p).foldl (fun s b => s.resetBay b) s).regionsEmptied p).resetWork p).dropFrame p := rfl

theorem planeFrame_resetWork (s : State) (p : Nat) : PlaneFrame s (s.resetWork p) := by
  unfold State.resetWork
  extract_lets s1 s2 s3
  have layers : PlaneFrame s s1 := (PlaneFrame.refl s).planeReset p
  have steps : PlaneFrame s s2 := ((layers.setReg ..).setReg ..).setReg ..
  have puts : PlaneFrame s (s3.resetPuts p) := (steps.modPln ..).modPart ..
  exact puts.trans (planeFrame_abortCommands ..)

/-- The tiles of the partition have generation 0. -/
def State.clearGens (p : Nat) (s : State) : State :=
  (s.baysOf p).foldl (fun s b => s.modBayTiles b fun _ x => { x with c := { x.c with gen := 0 } }) s

/-- The Frame's number, its state and its step are cleared. -/
def State.clearFrameStat (p : Nat) (s : State) : State :=
  ((((s.setField (Reg.prtFrameStat p) 63 48 0).setFrameSt p .none).setField (Reg.prtFrameStat p) 47 32 0).setField
    (Reg.prtFrameStat p) 19 16 0)

/-- What the partition runs, plans and owns of a Frame goes. -/
def State.forgetFrame (p : Nat) (s : State) : State :=
  let s := s.modRun p fun r => { r with weirs := [], floats := [], fnodes := [], windows := [], gateways := [] }
  let s := (s.modCommit p fun _ => Commit.reset).modHeal p fun h => { h with st := .none, lost := [] }
  (s.modPart p fun x => { x with queued := [] }).modOwn p fun o =>
    { o with frame := none, copy := none, schedule := [], stopped := false }

theorem regs_forgetFrame (s : State) (p : Nat) : (s.forgetFrame p).regs = s.regs := by
  simp only [State.forgetFrame, State.modOwn_regs, State.modPart_regs, State.modHeal_regs, State.modCommit_regs, State.modRun_regs]

theorem resetFrame_forgetFrame (s : State) (p : Nat) : ResetFrame s (s.forgetFrame p) := by
  unfold State.forgetFrame
  extract_lets s1 s2
  have runs : ResetFrame s s1 := (ResetFrame.refl s).modPart ..
  have plans : ResetFrame s s2 := (runs.modPart ..).modPart ..
  exact (plans.modPart ..).modPart ..

theorem State.BayTiles.forgetFrame {s : State} {b : Nat} {P : Seq → Prop} (h : s.BayTiles b P) (p : Nat) :
    (s.forgetFrame p).BayTiles b P := by
  unfold State.forgetFrame
  extract_lets s1 s2
  have runs : s1.BayTiles b P := h.modPart ..
  have plans : s2.BayTiles b P := (runs.modPart ..).modPart ..
  exact (plans.modPart ..).modPart ..

theorem dropFrame_eq (s : State) (p : Nat) : s.dropFrame p = ((s.clearFrameStat p).clearGens p).forgetFrame p := rfl

/-- The partition has no Frame, and runs on after a stop. -/
theorem own_dropFrame (s : State) (p : Nat) :
    ((s.dropFrame p).part p).own.frame = none ∧ ((s.dropFrame p).part p).own.stopped = false := by
  rw [dropFrame_eq, State.forgetFrame, State.modOwn, State.part_modPart_same]
  exact ⟨rfl, rfl⟩

theorem regs_clearGens (s : State) (p : Nat) : (s.clearGens p).regs = s.regs :=
  List.foldlRecOn (motive := fun u : State => u.regs = s.regs) _ _ rfl fun _ hu _ _ => hu

theorem field_dropFrame (s : State) (p a hi lo : Nat) : (s.dropFrame p).field a hi lo = (s.clearFrameStat p).field a hi lo := by
  have regs : (s.dropFrame p).regs = (s.clearFrameStat p).regs := by
    rw [dropFrame_eq, regs_forgetFrame, regs_clearGens]
  unfold State.field
  rw [State.reg_congr regs]

theorem resetFrame_clearGens (s : State) (p : Nat) : ResetFrame s (s.clearGens p) :=
  (ResetFrame.refl s).foldl _ fun _ _ hu => hu.modBayTiles ..

theorem resetFrame_dropFrame (s : State) (p : Nat) : ResetFrame s (s.dropFrame p) := by
  rw [dropFrame_eq]
  have cleared : ResetFrame s (s.clearFrameStat p) := (((ResetFrame.refl s).setReg ..).setReg ..).setReg ..|>.setReg ..
  exact (cleared.trans (resetFrame_clearGens ..)).trans (resetFrame_forgetFrame ..)

theorem State.BayTiles.clearGens {s : State} {b : Nat} {P : Seq → Prop} (h : s.BayTiles b P) (p : Nat) :
    (s.clearGens p).BayTiles b P := h.foldl _ fun _ _ _ hu => hu.modBayTiles fun _ _ hx => hx

theorem State.BayTiles.dropFrame {s : State} {b : Nat} {P : Seq → Prop} (h : s.BayTiles b P) (p : Nat) :
    (s.dropFrame p).BayTiles b P := by
  rw [dropFrame_eq]
  have cleared : (s.clearFrameStat p).BayTiles b P := h.congr rfl rfl
  exact (cleared.clearGens p).forgetFrame p

theorem resetFrame_resetBay (s : State) (b : Nat) : ResetFrame s (s.resetBay b) :=
  ((ResetFrame.refl s).plane (planeFrame_answers s b)).modBayTiles b fun _ x => if x.s.seq = .off then x else x.toReset

theorem resetFrame_regionsEmptied (s : State) (p : Nat) : ResetFrame s (s.regionsEmptied p) :=
  (ResetFrame.refl s).foldl _ fun _ _ hu => .ite hu.same hu

theorem resetFrame_computeReset (s : State) (p : Nat) : ResetFrame s (s.computeReset p) := by
  rw [computeReset_eq]
  have bays : ResetFrame s ((s.baysOf p).foldl (fun s b => s.resetBay b) s) :=
    (ResetFrame.refl s).foldl _ fun u b hu => hu.trans (resetFrame_resetBay u b)
  have emptied := bays.trans (resetFrame_regionsEmptied _ p)
  exact (emptied.plane (planeFrame_resetWork ..)).trans (resetFrame_dropFrame ..)

/-- Every tile of the partition's bays is in RESET, or OFF. -/
theorem bayTiles_computeReset (s : State) {p b : Nat} (hb : b ∈ s.baysOf p) :
    (s.computeReset p).BayTiles b Seq.AtRest := by
  rw [computeReset_eq]
  have emptied := (bayTiles_resetBays s hb).regionsEmptied p
  exact ((planeFrame_resetWork _ p).bayTiles emptied).dropFrame p

theorem own_computeReset (s : State) (p : Nat) :
    ((s.computeReset p).part p).own.frame = none ∧ ((s.computeReset p).part p).own.stopped = false := by
  rw [computeReset_eq]
  exact own_dropFrame ..

theorem field_clearFrameStat (s : State) (p : Nat) : (s.clearFrameStat p).field (Reg.prtFrameStat p) 23 20 = 0 ∧
    (s.clearFrameStat p).field (Reg.prtFrameStat p) 63 48 = 0 := by
  unfold State.clearFrameStat State.setFrameSt
  refine ⟨?_, ?_⟩
  · rw [State.field_setField_apart, State.field_setField_apart, State.field_setField_same]
    · rfl
    all_goals omega
  · rw [State.field_setField_apart, State.field_setField_apart, State.field_setField_apart, State.field_setField_same]
    · rfl
    all_goals omega

/-- The state of the Frame and its number are 0 (R265). -/
theorem field_frameStat_computeReset (s : State) (p : Nat) :
    (s.computeReset p).frameSt p = 0 ∧ (s.computeReset p).field (Reg.prtFrameStat p) 63 48 = 0 := by
  rw [computeReset_eq, State.frameSt, field_dropFrame, field_dropFrame]
  exact field_clearFrameStat ..

end Sys2Proof.Machine
end

section
/-!
SUPPORT. Proofs about the warm reset (R578, R586, R631, R701, R732, R767, R785 to R788), the Function Level Reset (R628 to R630) and
the PCIe link going down and up (R584, R586, R865).
-/

namespace Sys2Proof.Machine

/-! ### Registers, pairs and stacks that are reset -/

theorem Tab.get_filter_key {α : Type} (d : α) (t : Tab α) (keep : Nat → Bool) (k : Nat) :
    Tab.get d (t.filter fun e => keep e.1) k = if keep k then Tab.get d t k else d := by
  induction t with
  | nil => rw [List.filter_nil, Tab.get_nil, ite_self]
  | cons e r ih =>
    obtain ⟨j, v⟩ := e
    rw [List.filter_cons]
    by_cases hj : j = k
    · subst hj
      by_cases kept : keep j = true
      · simp only [kept, if_true, Tab.get]
      · rw [if_neg kept, ih, if_neg kept, if_neg kept]
    · by_cases kept : keep j = true
      · simp only [kept, if_true, Tab.get, if_neg hj, ih]
      · rw [if_neg kept, ih, Tab.get, if_neg hj]

theorem reg_resetRegs (s : State) (keep : Nat → Bool) (a : Nat) :
    (s.resetRegs keep).reg a = if keep a then s.reg a else regReset a := Tab.get_filter_key ..

section
variable {α : Type} [DecidableEq α] (d : α) (f : Nat → α → α) (t : Tab α) (k : Nat)

/-- What a key reads after every listed value has changed: the default, or a changed value. -/
theorem Tab.get_mapVals_cases : Tab.get d (Tab.mapVals d f t) k = d ∨ ∃ x, Tab.get d (Tab.mapVals d f t) k = f k x := by
  refine (Tab.get_mem d (Tab.mapVals d f t) k).imp_right fun listed => ?_
  obtain ⟨e, -, changed⟩ := List.mem_map.1 (List.mem_filter.1 listed).1
  obtain ⟨rfl, value⟩ := Prod.mk.inj changed
  exact ⟨e.2, value.symm⟩

/-- Where `f` keeps the default, a key reads its value changed, unless that is the default. -/
theorem Tab.get_mapVals (hd : f k d = d) (h : f k (Tab.get d t k) ≠ d) :
    Tab.get d (Tab.mapVals d f t) k = f k (Tab.get d t k) := by
  induction t with
  | nil => exact absurd hd h
  | cons e r ih =>
    obtain ⟨j, v⟩ := e
    unfold Tab.mapVals at ih ⊢
    rw [List.map_cons, List.filter_cons]
    by_cases hj : j = k
    · subst hj
      rw [Tab.get, if_pos rfl] at h ⊢
      rw [if_pos (decide_eq_true h), Tab.get, if_pos rfl]
    · rw [Tab.get, if_neg hj] at h ⊢
      split
      · rw [Tab.get, if_neg hj]
        exact ih h
      · exact ih h

end

/-! ### The partitions end (R579, R631) -/

/-- The rings of every engine are scanned. -/
def State.ringsScanned (s : State) : State := (List.range 24).foldl (fun s e => s.ringScan e) s
/-- The compute of every partition is reset. -/
def State.computesReset (s : State) : State :=
  (List.range 8).foldl (fun s i => if s.partExists (i + 1) then s.computeReset (i + 1) else s) s
/-- No tile remembers a range-exceeded word. -/
def State.rangesForgotten (s : State) : State := (List.range 9).foldl (fun s p => s.forgetRange p) s
/-- No partition is left, and no packet or copy of one. -/
def State.noParts (s : State) : State :=
  { s with comp := { s.comp with parts := [], flumes := [], net := [], fresh := [], pubs := s.comp.pubs.map Pub.silence } }

theorem endPartitions_eq (s : State) : s.endPartitions = s.ringsScanned.computesReset.rangesForgotten.noParts := by
  unfold State.endPartitions State.noParts State.rangesForgotten State.computesReset State.ringsScanned
  with_reducible rfl

theorem resetFrame_ringsScanned (s : State) : ResetFrame s s.ringsScanned :=
  (ResetFrame.refl s).foldl _ fun u e hu => hu.plane ((PlaneFrame.refl u).ringScan e)
theorem resetFrame_computesReset (s : State) : ResetFrame s s.computesReset :=
  (ResetFrame.refl s).foldl _ fun u i hu => .ite (hu.trans (resetFrame_computeReset u (i + 1))) hu
theorem resetFrame_rangesForgotten (s : State) : ResetFrame s s.rangesForgotten :=
  (ResetFrame.refl s).foldl _ fun _ _ hu => hu.same
theorem resetFrame_noParts (s : State) : ResetFrame s s.noParts := (ResetFrame.refl s).same

theorem resetFrame_endPartitions (s : State) : ResetFrame s s.endPartitions := by
  rw [endPartitions_eq]
  exact (((resetFrame_ringsScanned s).trans (resetFrame_computesReset _)).trans (resetFrame_rangesForgotten _)).trans
    (resetFrame_noParts _)
theorem parts_endPartitions (s : State) : s.endPartitions.comp.parts = [] := by
  rw [endPartitions_eq]
  rfl

/-! ### The wafer (R631, R870) -/

/-- The tiles of bay `b` move to RESET when it has its supply. -/
def State.waferBay (s : State) (b : Nat) : State :=
  if (s.bay b).supply = .on then s.modBayTiles b fun _ x => x.toReset else s

theorem resetFrame_waferBay (s : State) (b : Nat) : ResetFrame s (s.waferBay b) :=
  .ite ((ResetFrame.refl s).modBayTiles ..) (.refl s)

theorem resetWafer_eq (s : State) : s.resetWafer = (List.range 84).foldl State.waferBay s := rfl

theorem resetFrame_resetWafer (s : State) : ResetFrame s s.resetWafer := by
  rw [resetWafer_eq]
  exact (ResetFrame.refl s).foldl _ fun u b hu => hu.trans (resetFrame_waferBay u b)

theorem parts_waferBay (s : State) (b : Nat) : (s.waferBay b).comp.parts = s.comp.parts := by
  unfold State.waferBay
  split <;> rfl

theorem parts_resetWafer (s : State) : s.resetWafer.comp.parts = s.comp.parts := by
  rw [resetWafer_eq]
  exact List.foldlRecOn (motive := fun u : State => u.comp.parts = s.comp.parts) _ _ rfl fun u hu b _ => (parts_waferBay u b).trans hu

theorem State.BayTiles.waferBay {s : State} {b : Nat} (h : s.BayTiles b (· = .reset)) (c : Nat) :
    (s.waferBay c).BayTiles b (· = .reset) := by
  unfold State.waferBay
  split
  · exact h.modBayTiles fun _ _ _ => rfl
  · exact h

theorem bayTiles_waferBays {b : Nat} {l : List Nat} (hb : b ∈ l) : ∀ s : State, (s.bay b).supply = .on →
    (l.foldl State.waferBay s).BayTiles b (· = .reset) := by
  induction l with
  | nil => exact nomatch hb
  | cons c l ih =>
    intro s on
    rcases List.mem_cons.1 hb with rfl | later
    · have here : (s.waferBay b).BayTiles b (· = .reset) := by
        rw [State.waferBay, if_pos on]
        exact State.BayTiles.modBayTiles_same (P := fun _ => True) ⟨trivial, fun _ _ _ => trivial⟩ fun _ _ _ => rfl
      exact here.foldl _ fun _ c _ hu => hu.waferBay c
    · exact ih later _ (((resetFrame_waferBay s c).supply b).trans on)

theorem bayTiles_resetWafer (s : State) {b : Nat} (hb : b < 84) (on : (s.bay b).supply = .on) :
    s.resetWafer.BayTiles b (· = .reset) := by
  rw [resetWafer_eq]
  exact bayTiles_waferBays (List.mem_range.2 hb) s on

/-! ### Supply at the new dividers, and surge time (R732, R743) -/

/-- Only what the bays hold differs, and not what their unlisted tiles are. -/
structure OnlyBays (s t : State) : Prop where
  only : t = { s with phys := { s.phys with bays := t.phys.bays } }
  base : ∀ b, (t.bay b).base = (s.bay b).base

section
variable {s t u : State}

theorem OnlyBays.refl (s : State) : OnlyBays s s := ⟨rfl, fun _ => rfl⟩
theorem OnlyBays.trans (h : OnlyBays s t) (k : OnlyBays t u) : OnlyBays s u :=
  ⟨by rw [k.only, h.only], fun b => (k.base b).trans (h.base b)⟩
theorem OnlyBays.foldl {α : Type} {f : State → α → State} (l : List α) (hf : ∀ u x, OnlyBays u (f u x)) (s : State) :
    OnlyBays s (l.foldl f s) :=
  List.foldlRecOn (motive := OnlyBays s) l f (.refl s) fun u hu x _ => hu.trans (hf u x)

theorem OnlyBays.regs (h : OnlyBays s t) : t.regs = s.regs := by rw [h.only]
theorem OnlyBays.comp (h : OnlyBays s t) : t.comp = s.comp := by rw [h.only]
theorem OnlyBays.man (h : OnlyBays s t) : t.man = s.man := by rw [h.only]
theorem OnlyBays.host (h : OnlyBays s t) : t.host = s.host := by rw [h.only]
theorem OnlyBays.clock (h : OnlyBays s t) : t.phys.clock = s.phys.clock := by rw [h.only]

theorem onlyBays_setBay {b : Nat} {x : Bay} (hx : x.base = (s.bay b).base) : OnlyBays s (s.setBay b x) := by
  refine ⟨rfl, fun c => ?_⟩
  by_cases h : c = b
  · rw [h, State.bay_setBay_same, hx]
  · rw [State.bay_setBay_ne _ _ h]

end

theorem onlyBays_settleBay (s : State) (b : Nat) : OnlyBays s (s.settleBay b) := by
  unfold State.settleBay
  dsimp only
  split
  · split
    · exact onlyBays_setBay rfl
    · exact .refl s
  · split
    · exact .refl s
    · exact onlyBays_setBay rfl

theorem onlyBays_settleIssue (s : State) : OnlyBays s s.settleIssue := .foldl _ (fun u b => onlyBays_settleBay u b) s

theorem onlyBays_setArrays (s : State) (east : Bool) (v : Nat) : OnlyBays s (s.setArrays east v) :=
  .foldl _ (fun u b => onlyBays_setBay (b := b) (x := { u.bay b with volts := v }) rfl) s

/-- The dividers are at 12 before the array voltages follow. -/
def State.dividersSet (s : State) : State :=
  (s.setReg Reg.clkHdiv 0x0C0C).modClock fun c => { c with wcur := 12, ecur := 12, changing := false, wchg := false, echg := false }

theorem onlyBays_resetDividers (s : State) : OnlyBays s.dividersSet s.resetDividers :=
  (onlyBays_setArrays ..).trans (onlyBays_setArrays ..)

/-! ### The warm reset (R578, R631, R785 to R788) -/

/-- What a warm reset does beside the partitions, the wafer and bring-up. -/
def State.resetRest (s : State) : State :=
  let s := s.resetPairs.resetRegs warmKept
  let s := { s with comp := { s.comp with
    stackTab := Tab.mapVals Stack.reset (fun _ x => { x with up := false }) s.comp.stackTab } }
  s.modMan fun m => { m with attPcie := m.attPcie.cut, attI3c := m.attI3c.cut, attQueue := [] }

/-- Bring-up begins again and the Grain log is scanned. -/
def State.restarted (s : State) : State := s.restartBoot.startScan

/-- The partitions have ended and the wafer is reset. -/
def State.warmCore (s : State) : State := s.resetFuncs.endPartitions.resetWafer.resetRest

/-- A warm reset from the dividers on. -/
def State.warmTail (s : State) : State := s.resetDividers.restarted.settleIssue

theorem warmReset_eq {s : State} (h : 5 ≤ s.boot.stage) : s.warmReset = s.warmCore.warmTail := by
  unfold State.warmReset State.warmCore State.warmTail State.resetRest State.restarted
  rw [if_neg (Nat.not_lt.2 h)]

theorem warmReset_absorbed {s : State} (h : s.boot.stage < 5) : s.warmReset = s := if_pos h

section
variable (s : State)

theorem comp_restarted : s.restarted.comp = s.comp := rfl
theorem host_restarted : s.restarted.host = s.host := rfl
theorem phys_restarted : s.restarted.phys = s.phys := rfl
theorem joiners_restarted : s.restarted.man.pairs = s.man.pairs ∧ s.restarted.man.basins = s.man.basins ∧
    s.restarted.man.ports = s.man.ports := ⟨rfl, rfl, rfl⟩
theorem boot_restarted : s.restarted.boot.stage = 5 ∧ s.restarted.boot.st = .running ∧ s.restarted.boot.image = none ∧
    s.restarted.boot.perst = s.man.boot.perst := ⟨rfl, rfl, rfl, rfl⟩

theorem reg_restarted {a : Nat} (h : a ≠ Reg.bootStage) : s.restarted.reg a = s.reg a := by
  change s.restartBoot.reg a = _
  unfold State.restartBoot State.beginStage State.setCode
  rw [State.reg_setField_ne _ _ _ _ h, State.reg_setField_ne _ _ _ _ h]
  rfl

theorem code_restarted : s.restarted.field Reg.bootStage 63 48 = 0x0500 := by
  change s.restartBoot.field Reg.bootStage 63 48 = _
  unfold State.restartBoot State.beginStage State.setCode
  rw [State.field_setField_apart, State.field_setField_same]
  · rfl
  all_goals omega

/-- In `warmTail` only bays change before bring-up begins again, and after it. -/
theorem onlyBays_warmTail : OnlyBays s.resetDividers.restarted s.warmTail := onlyBays_settleIssue _

theorem comp_warmTail : s.warmTail.comp = s.comp := by
  rw [(onlyBays_warmTail s).comp, comp_restarted, (onlyBays_resetDividers s).comp]
  rfl

theorem host_warmTail : s.warmTail.host = s.host := by
  rw [(onlyBays_warmTail s).host, host_restarted, (onlyBays_resetDividers s).host]
  rfl

theorem reg_warmTail {a : Nat} (hb : a ≠ Reg.bootStage) (hc : a ≠ Reg.clkHdiv) : s.warmTail.reg a = s.reg a := by
  rw [State.reg_congr (onlyBays_warmTail s).regs, reg_restarted _ hb, State.reg_congr (onlyBays_resetDividers s).regs]
  change (s.setReg Reg.clkHdiv 0x0C0C).reg a = _
  exact s.reg_setReg_ne _ hc

theorem code_warmTail : s.warmTail.field Reg.bootStage 63 48 = 0x0500 := by
  rw [State.field, State.reg_congr (onlyBays_warmTail s).regs]
  exact code_restarted _

theorem boot_warmTail : s.warmTail.boot.stage = 5 ∧ s.warmTail.boot.st = .running ∧ s.warmTail.boot.image = none ∧
    s.warmTail.boot.perst = s.man.boot.perst := by
  obtain ⟨stage, running, image, perst⟩ := boot_restarted s.resetDividers
  rw [(onlyBays_resetDividers s).man] at perst
  rw [State.boot, (onlyBays_warmTail s).man]
  exact ⟨stage, running, image, perst⟩

theorem joiners_warmTail : s.warmTail.man.pairs = s.man.pairs ∧ s.warmTail.man.basins = s.man.basins ∧
    s.warmTail.man.ports = s.man.ports := by
  have restarted := joiners_restarted s.resetDividers
  rw [(onlyBays_resetDividers s).man] at restarted
  rw [(onlyBays_warmTail s).man]
  exact restarted

theorem clock_warmTail : s.warmTail.phys.clock.wcur = 12 ∧ s.warmTail.phys.clock.ecur = 12 := by
  rw [(onlyBays_warmTail s).clock, phys_restarted, (onlyBays_resetDividers s).clock]
  exact ⟨rfl, rfl⟩

theorem base_warmTail (b : Nat) : (s.warmTail.bay b).base = (s.bay b).base := by
  rw [(onlyBays_warmTail s).base, State.bay_congr (congrArg Physical.bays (phys_restarted _)), (onlyBays_resetDividers s).base]
  rfl

theorem resetFrame_resetFuncs : ResetFrame s s.resetFuncs := (ResetFrame.refl s).same
theorem resetFrame_ended : ResetFrame s s.resetFuncs.endPartitions := (resetFrame_resetFuncs s).trans (resetFrame_endPartitions _)

theorem pairs_resetRest : s.resetRest.man.pairs =
    Tab.mapVals Pair.reset (fun _ x => { Pair.reset with stopped := x.stopped }) s.man.pairs := rfl
theorem ports_resetRest : s.resetRest.man.basins = [] ∧ s.resetRest.man.ports = [] := ⟨rfl, rfl⟩
theorem parts_resetRest : s.resetRest.comp.parts = s.comp.parts := rfl
theorem hosts_resetRest : s.resetRest.comp.hosts = s.comp.hosts := rfl
theorem pcie_resetRest : s.resetRest.host.pcie = s.host.pcie := rfl
theorem perst_resetRest : s.resetRest.man.boot.perst = s.man.boot.perst := rfl
theorem reg_resetRest {a : Nat} (h : warmKept a = false) : s.resetRest.reg a = regReset a :=
  (reg_resetRegs s.resetPairs warmKept a).trans (if_neg (by rw [h]; decide))
theorem up_resetRest (k : Nat) : (s.resetRest.stack k).up = false := by
  change (Tab.get Stack.reset (Tab.mapVals Stack.reset (fun _ x => { x with up := false }) s.comp.stackTab) k).up = false
  rcases Tab.get_mapVals_cases Stack.reset (fun _ x => { x with up := false }) s.comp.stackTab k with e | ⟨x, e⟩
  · rw [e]
    rfl
  · rw [e]
theorem State.BayTiles.resetRest {s : State} {b : Nat} {P : Seq → Prop} (h : s.BayTiles b P) : s.resetRest.BayTiles b P :=
  h.congr rfl rfl

theorem bayTiles_warmCore {b : Nat} (hb : b < 84) (on : (s.bay b).supply = .on) : s.warmCore.BayTiles b (· = .reset) :=
  (bayTiles_resetWafer _ hb (((resetFrame_ended s).supply b).trans on)).resetRest

end

/-- A stopped pair stays stopped, and is reset like every other (R466, R578). -/
theorem pair_reset {s t : State} (h : t.man.pairs = Tab.mapVals Pair.reset (fun _ x => { Pair.reset with stopped := x.stopped }) s.man.pairs)
    (k : Nat) : ∃ b, t.pair k = { Pair.reset with stopped := b } ∧ ((s.pair k).stopped = true → b = true) := by
  unfold State.pair
  rw [h]
  by_cases stopped : (Tab.get Pair.reset s.man.pairs k).stopped = true
  · refine ⟨true, ?_, fun _ => rfl⟩
    have changed : { Pair.reset with stopped := (Tab.get Pair.reset s.man.pairs k).stopped } ≠ Pair.reset := by
      rw [stopped]
      decide
    rw [Tab.get_mapVals _ _ _ _ rfl changed, stopped]
  · rcases Tab.get_mapVals_cases Pair.reset (fun _ x => { Pair.reset with stopped := x.stopped }) s.man.pairs k with e | ⟨x, e⟩
    · exact ⟨false, e, fun c => absurd c stopped⟩
    · exact ⟨x.stopped, e, fun c => absurd c stopped⟩

/-- From stage 5 on, a warm reset is one. -/
theorem warmReset_spec {s : State} (h : 5 ≤ s.boot.stage) : WarmReset s s.warmReset := by
  rw [warmReset_eq h]
  have core := (resetFrame_ended s).trans (resetFrame_resetWafer _)
  obtain ⟨pairs, basins, ports⟩ := joiners_warmTail s.warmCore
  obtain ⟨noBasins, noPorts⟩ := ports_resetRest s.resetFuncs.endPartitions.resetWafer
  obtain ⟨stage, running, image, perst⟩ := boot_warmTail s.warmCore
  refine {
    boot := ⟨stage, running, image, perst.trans ((perst_resetRest _).trans core.perst)⟩
    code := code_warmTail _
    regs := fun a kept hb hc => (reg_warmTail _ hb hc).trans (reg_resetRest _ kept)
    parts := fun p => ?_
    hosts := (congrArg Compute.hosts (comp_warmTail _)).trans ((hosts_resetRest _).trans core.hosts)
    pairs := pair_reset (pairs.trans ((pairs_resetRest _).trans (congrArg _ core.pairs)))
    basins := ⟨basins.trans noBasins, ports.trans noPorts⟩
    hbmStacks := fun k => ?_
    dividers := clock_warmTail _
    tiles := fun x hx on => ?_ }
  · rw [State.part, comp_warmTail, State.warmCore, parts_resetRest, parts_resetWafer, parts_endPartitions, Tab.get_nil]
  · rw [stack_congr (congrArg Compute.stackTab (comp_warmTail _)), State.warmCore, up_resetRest]
  · have bay : x.bay < 84 := by
      simp only [PT.valid, Bool.and_eq_true, decide_eq_true_eq] at hx
      omega
    have reset := (bayTiles_warmCore s bay on).tile hx
    have same : s.warmCore.warmTail.tile x = s.warmCore.tile x := by rw [State.tile, State.tile, base_warmTail, comp_warmTail]
    rw [same]
    exact reset

theorem pcie_warmReset (s : State) : s.warmReset.host.pcie = s.host.pcie := by
  rcases Nat.lt_or_ge s.boot.stage 5 with early | late
  · rw [warmReset_absorbed early]
  · rw [warmReset_eq late, host_warmTail, State.warmCore, pcie_resetRest, (resetFrame_resetWafer _).pcie, (resetFrame_ended s).pcie]

/-- A lost link takes part in no warm reset. -/
theorem WarmReset.of_pcieDown {s t : State} (h : WarmReset s.pcieDown t) : WarmReset s t :=
  ⟨h.boot, h.code, h.regs, h.parts, h.hosts, h.pairs, h.basins, h.hbmStacks, h.dividers, h.tiles⟩

theorem up_pcieDown_warmReset (s : State) : s.pcieDown.warmReset.host.pcie.up = false := by
  rw [pcie_warmReset]
  rfl

/-! ### Function Level Resets (R628 to R630) -/

theorem isHstReg_iff (f a : Nat) : isHstReg f a = true ↔ Reg.hst f ≤ a ∧ a < Reg.hst f + 0x58 := by
  rw [isHstReg, Bool.and_eq_true, decide_eq_true_iff, decide_eq_true_iff]

theorem isHstReg_logCfg (f : Nat) (k : LogKind) : isHstReg f (logCfg f k) = true := by
  rw [isHstReg_iff]
  cases k
  · change Reg.hst f ≤ Reg.hst f + 0x10 ∧ Reg.hst f + 0x10 < Reg.hst f + 0x58
    omega
  · change Reg.hst f ≤ Reg.hst f + 0x30 ∧ Reg.hst f + 0x30 < Reg.hst f + 0x58
    omega

theorem isHstReg_funcstat (f : Nat) : isHstReg f (Reg.hstFuncstat f) = true := by
  rw [isHstReg_iff, Reg.hstFuncstat]
  omega

theorem funcstat_ne_logCfg (f : Nat) (k : LogKind) : Reg.hstFuncstat f ≠ logCfg f k := by
  unfold Reg.hstFuncstat
  cases k
  · change Reg.hst f + 0x50 ≠ Reg.hst f + 0x10
    omega
  · change Reg.hst f + 0x50 ≠ Reg.hst f + 0x30
    omega

section
variable (s : State) (f : Nat)

theorem reg_disableLog_ne (k : LogKind) {a : Nat} (h : a ≠ logCfg f k) : (s.disableLog f k).reg a = s.reg a :=
  s.reg_setField_ne _ _ _ h

theorem func_resetFunction_same : (s.resetFunction f).func f =
    { Func.reset with events := (s.func f).events, lost := (s.func f).lost } :=
  State.func_setFunc_same (s.resetRegs fun a => !isHstReg f a) f _

theorem func_resetFunction_ne {g : Nat} (h : g ≠ f) : (s.resetFunction f).func g = s.func g :=
  State.func_setFunc_ne (s.resetRegs fun a => !isHstReg f a) _ h

theorem reg_resetFunction_ne {a : Nat} (h : a ≠ Reg.hstFuncstat f) :
    (s.resetFunction f).reg a = if isHstReg f a then regReset a else s.reg a := by
  unfold State.resetFunction
  extract_lets n x s1 s2
  rw [State.reg_setField_ne _ _ _ _ h]
  change s1.reg a = _
  rw [reg_resetRegs]
  cases isHstReg f a <;> rfl

theorem reg_resetFunction_hst {a : Nat} (ha : isHstReg f a = true) (h : a ≠ Reg.hstFuncstat f) :
    (s.resetFunction f).reg a = regReset a := (reg_resetFunction_ne s f h).trans (if_pos ha)

theorem reg_resetFunction_other {a : Nat} (ha : isHstReg f a = false) : (s.resetFunction f).reg a = s.reg a := by
  have ne : a ≠ Reg.hstFuncstat f := fun e => by rw [e, isHstReg_funcstat] at ha; exact nomatch ha
  exact (reg_resetFunction_ne s f ne).trans (if_neg (by rw [ha]; decide))

/-- The count of resets goes on, up to its highest value (R632). -/
theorem count_resetFunction : (s.resetFunction f).field (Reg.hstFuncstat f) 63 48 =
    min (s.field (Reg.hstFuncstat f) 63 48 + 1) 0xFFFF := by
  unfold State.resetFunction
  rw [State.field_setField_same _ _ _ _ _ (by omega) (by omega)]
  exact Nat.mod_eq_of_lt (by omega)

end

/-- From `v` to `u` function `f` is reset (R629, R632). -/
structure FunctionReset (f : Nat) (v u : State) : Prop where
  func : u.func f = { Func.reset with events := (v.func f).events, lost := (v.func f).lost }
  others : ∀ g, g ≠ f → u.func g = v.func g
  regs : ∀ a, isHstReg f a = true → a ≠ Reg.hstFuncstat f → u.reg a = regReset a
  count : u.field (Reg.hstFuncstat f) 63 48 = min (v.field (Reg.hstFuncstat f) 63 48 + 1) 0xFFFF
  kept : ∀ a, isHstReg f a = false → u.reg a = v.reg a
  comp : u.comp = v.comp
  phys : u.phys = v.phys
  man : u.man = v.man

theorem functionReset_resetFunction (v : State) (f : Nat) : FunctionReset f v (v.resetFunction f) :=
  ⟨func_resetFunction_same v f, fun _ hg => func_resetFunction_ne v f hg, fun _ ha hne => reg_resetFunction_hst v f ha hne,
    count_resetFunction v f, fun _ ha => reg_resetFunction_other v f ha, rfl, rfl, rfl⟩

/-- The logs of a function that is reset are disabled first, which is no change beside its registers. -/
theorem FunctionReset.of_disabled {s u : State} {f : Nat}
    (h : FunctionReset f ((s.disableLog f .completion).disableLog f .event) u) : FunctionReset f s u := by
  refine { h with count := ?_, kept := fun a ha => ?_ }
  · rw [h.count, State.field, reg_disableLog_ne _ _ _ (funcstat_ne_logCfg _ _), reg_disableLog_ne _ _ _ (funcstat_ne_logCfg _ _)]
    rfl
  · have ne (k : LogKind) : a ≠ logCfg f k := fun e => by rw [e, isHstReg_logCfg] at ha; exact nomatch ha
    rw [h.kept a ha, reg_disableLog_ne _ _ _ (ne _), reg_disableLog_ne _ _ _ (ne _)]

/-- `FUNCTION_LEVEL_RESET` of a partition function: its partition's compute is reset first (R628). -/
theorem exec_functionLevelReset (s : State) {f : Nat} (h1 : 1 ≤ f) (h8 : f ≤ 8) : exec (.functionLevelReset f) s =
    .next (((State.resetFunction f (if s.partExists f then ((s.disableLog f .completion).disableLog f .event).computeReset f
      else (s.disableLog f .completion).disableLog f .event)).unstall f).signal Ev.hstFlr f [f]) := by
  change execFunctionLevelReset f s = _
  rw [execFunctionLevelReset, if_neg (by omega)]
  rfl

/-! ### The link (R584, R586, R865) -/

theorem exec_hotReset {s : State} (up : s.host.pcie.up = true) : exec .hotReset s = .next s.pcieDown.warmReset := by
  change execHotReset s = _
  rw [execHotReset, if_pos up]

theorem exec_hstLinkDown {s : State} (up : s.host.pcie.up = true) :
    exec .hstLinkDown s = .next (s.pcieDown.warmReset.signal Ev.hstLinkDown 0 []) := by
  change execHstLinkDown s = _
  rw [execHstLinkDown, if_pos up]

/-- PERST# held, while bring-up has not seen it yet. -/
def State.perstHeld (s : State) : State := s.modBoot fun b => { b with perst := true }

theorem onlyBoot_perstHeld (s : State) : OnlyBoot s s.perstHeld := rfl

theorem exec_perstAssert {s : State} (released : s.boot.perst = false) (seg : s.segUp 0 = true) :
    exec .perstAssert s = .next s.perstHeld.pcieDown.warmReset := by
  change execPerstAssert s = _
  rw [execPerstAssert, if_neg (by rw [released]; decide)]
  exact congrArg _ (if_pos seg)

/-- Without a warm reset PERST# is held and the link is down; with one, bring-up keeps PERST#. -/
theorem perstAssert_spec {s : State} (released : s.boot.perst = false) (seg : s.segUp 0 = true) :
    ∃ n, exec .perstAssert s = .next n ∧ n.boot.perst = true ∧ n.host.pcie.up = false ∧
      (5 ≤ s.boot.stage → ∃ u : State, OnlyBoot s u ∧ WarmReset u n) ∧
      (s.boot.stage < 5 → n.regs = s.regs ∧ n.comp = s.comp ∧ n.phys = s.phys) := by
  refine ⟨_, exec_perstAssert released seg, ?_, up_pcieDown_warmReset _, fun late => ?_, fun early => ?_⟩
  · rcases Nat.lt_or_ge s.boot.stage 5 with early | late
    · rw [warmReset_absorbed (s := s.perstHeld.pcieDown) early]
      rfl
    · obtain ⟨-, -, -, kept⟩ := (warmReset_spec (s := s.perstHeld.pcieDown) late).boot
      exact kept
  · exact ⟨s.perstHeld, onlyBoot_perstHeld s, (warmReset_spec (s := s.perstHeld.pcieDown) late).of_pcieDown⟩
  · rw [warmReset_absorbed (s := s.perstHeld.pcieDown) early]
    exact ⟨rfl, rfl, rfl⟩

theorem getD_mem {α : Type} {l : List α} {k : Nat} (d : α) (h : k < l.length) : l.getD k d ∈ l := by
  rw [List.getD_eq_getElem _ _ h]
  exact List.getElem_mem h

/-- The link comes up as the partner decides, and what waited for it is written. -/
theorem pcieLinkUp_spec {s : State} (down : s.host.pcie.up = false) (released : s.boot.perst = false) (seg : s.segUp 0 = true) :
    ∃ n, exec .pcieLinkUp s = .next n ∧ n.host.pcie.up = true ∧ n.host.pcie.width ∈ linkWidths ∧ n.host.pcie.rate ∈ linkRates ∧
      n.comp = s.comp ∧ n.phys = s.phys ∧ n.boot = s.boot := by
  have open_ : ¬ (s.host.pcie.up = true ∨ s.boot.perst = true ∨ s.segUp 0 = false) := by
    rw [down, released, seg]
    decide
  change ∃ n, execPcieLinkUp s = .next n ∧ _
  rw [execPcieLinkUp, if_neg open_]
  extract_lets w r m l t
  have flushed := onlyHostLogs_flushHost t
  have kept : t.comp = s.comp ∧ t.phys = s.phys ∧ t.man = s.man := by
    simp only [t, l, m, r, w, State.modHost_comp, State.modHost_phys, State.modHost_man, State.draw_comp, State.draw_phys,
      State.draw_man, and_self]
  obtain ⟨comp, phys, man⟩ := kept
  refine ⟨_, rfl, ?_, ?_, ?_, flushed.comp.trans comp, flushed.phys.trans phys, flushed.boot.trans (congrArg Manage.boot man)⟩
  · rw [flushed.pcie]
    rfl
  · rw [flushed.pcie]
    exact getD_mem _ (Nat.mod_lt _ (by decide))
  · rw [flushed.pcie]
    exact getD_mem _ (Nat.mod_lt _ (by decide))

/-- Settles O40, rung by rung: what each reset changes is what its operation lays down, and the warm reset is one from stage 5 on. -/
theorem resetsTakeTheirEffect : Obligations.ResetsTakeTheirEffect := by
  unfold Obligations.ResetsTakeTheirEffect
  intro s
  refine ⟨fun f h1 h8 => ?_, fun p h1 h8 => ?_, ?_, fun up => ?_, fun released seg => ?_, fun held => ?_, ?_, fun up => ?_,
    fun down released seg => pcieLinkUp_spec down released seg, fun held => ?_⟩
  · have reset := functionReset_resetFunction (if s.partExists f then
      ((s.disableLog f .completion).disableLog f .event).computeReset f else (s.disableLog f .completion).disableLog f .event) f
    exact ⟨_, _, _, exec_functionLevelReset s h1 h8, signal_spec .., rfl, ⟨_, _, reset.func⟩, reset.others, reset.regs, reset.count,
      reset.kept, reset.comp, reset.phys, reset.man⟩
  · obtain ⟨state, gen⟩ := field_frameStat_computeReset s p
    refine ⟨fun x hx owner => ?_, ?_, ?_, state, gen⟩
    · have bay : x.bay < 84 := by
        simp only [PT.valid, Bool.and_eq_true, decide_eq_true_eq] at hx
        omega
      have own : x.bay ∈ s.baysOf p := List.mem_filter.2 ⟨List.mem_range.2 bay, decide_eq_true owner⟩
      exact (bayTiles_computeReset s own).tile hx
    · exact (own_computeReset s p).1
    · exact (own_computeReset s p).2
  · have reset := (functionReset_resetFunction ((s.disableLog 0 .completion).disableLog 0 .event) 0).of_disabled
    exact ⟨_, _, rfl, signal_spec .., reset.func, reset.others, reset.regs, reset.count, reset.kept, reset.comp, reset.phys, reset.man⟩
  · refine ⟨s.pcieDown.warmReset, exec_hotReset up, up_pcieDown_warmReset s,
      fun late => (warmReset_spec (s := s.pcieDown) late).of_pcieDown, fun early => warmReset_absorbed (s := s.pcieDown) early⟩
  · exact perstAssert_spec released seg
  · exact congrArg _ (if_pos held)
  · exact ⟨_, rfl, rfl, rfl, fun held at5 => if_pos ⟨held, at5⟩⟩
  · refine ⟨s.pcieDown.warmReset, _, exec_hstLinkDown up, signal_spec .., up_pcieDown_warmReset s,
      fun late => (warmReset_spec (s := s.pcieDown) late).of_pcieDown, fun early => warmReset_absorbed (s := s.pcieDown) early⟩
  · exact congrArg _ (if_pos (.inr (.inl held)))

end Sys2Proof.Machine
end

section
/-!
SUPPORT. Who owns the bays and the flumes while partitions are created and deleted (R597 to R600, R634).
-/

namespace Sys2Proof.Machine

/-! ### Owners of bays and flumes (R634) -/

/-- A register of owners, 4 bits each: the owner that is set, and every other one as before. -/
theorem field_setOwner {R : Nat → Nat} (apart : ∀ i j, i ≠ j → R i ≠ R j) (s : State) {p : Nat} (hp : p < 16) (b c : Nat) :
    (s.setField (R (b / 16)) (4 * (b % 16) + 3) (4 * (b % 16)) p).field (R (c / 16)) (4 * (c % 16) + 3) (4 * (c % 16)) =
      if c = b then p else s.field (R (c / 16)) (4 * (c % 16) + 3) (4 * (c % 16)) := by
  split
  next own =>
    have width : 4 * (b % 16) + 3 + 1 - 4 * (b % 16) = 4 := by omega
    rw [own, State.field_setField_same _ _ _ _ _ (by omega) (by omega), width]
    exact Nat.mod_eq_of_lt hp
  next other =>
    by_cases reg : c / 16 = b / 16
    · rw [reg]
      exact State.field_setField_apart _ _ _ _ _ _ _ (by omega) (by omega) (by omega) (by omega) (by omega)
    · unfold State.field
      rw [State.reg_setField_ne _ _ _ _ (apart _ _ reg)]

theorem bayOwner_setBayOwner (s : State) {p : Nat} (hp : p < 16) (b c : Nat) :
    (s.setBayOwner b p).bayOwner c = if c = b then p else s.bayOwner c :=
  field_setOwner (R := Reg.prtBayownk) (fun i j h => by unfold Reg.prtBayownk; omega) s hp b c

theorem flumeOwner_setFlumeOwner (s : State) {p : Nat} (hp : p < 16) (x y : Nat) :
    (s.setFlumeOwner x p).flumeOwner y = if y = x then p else s.flumeOwner y :=
  field_setOwner (R := Reg.prtFlumeown) (fun i j h => by unfold Reg.prtFlumeown; omega) s hp x y

/-- The owners of the bays and of the flumes are as before. -/
structure SameOwners (s t : State) : Prop where
  bays : ∀ b, b < 84 → t.bayOwner b = s.bayOwner b
  flumes : ∀ x, x < 32 → t.flumeOwner x = s.flumeOwner x

section
variable {s t u : State}

theorem SameOwners.refl (s : State) : SameOwners s s := ⟨fun _ _ => rfl, fun _ _ => rfl⟩
theorem SameOwners.trans (h : SameOwners s t) (k : SameOwners t u) : SameOwners s u :=
  ⟨fun b hb => (k.bays b hb).trans (h.bays b hb), fun x hx => (k.flumes x hx).trans (h.flumes x hx)⟩

/-- The registers of owners are as before. -/
theorem sameOwners_of_regs (h : ∀ a, 0x50000 ≤ a → a < 0x50040 → t.reg a = s.reg a) : SameOwners s t := by
  refine ⟨fun b hb => ?_, fun x hx => ?_⟩
  · unfold State.bayOwner State.field
    rw [h _ (by unfold Reg.prtBayownk; omega) (by unfold Reg.prtBayownk; omega)]
  · unfold State.flumeOwner State.field
    rw [h _ (by unfold Reg.prtFlumeown; omega) (by unfold Reg.prtFlumeown; omega)]

theorem sameOwners_of_regs_eq (h : t.regs = s.regs) : SameOwners s t := sameOwners_of_regs fun a _ _ => State.reg_congr h a

theorem sameOwners_setReg (s : State) {a : Nat} (ha : a < 0x50000 ∨ 0x50040 ≤ a) (v : Word) : SameOwners s (s.setReg a v) :=
  sameOwners_of_regs fun b low high => s.reg_setReg_ne v (by omega)

theorem SameOwners.foldl {α : Type} {f : State → α → State} (l : List α) (hf : ∀ u x, SameOwners u (f u x)) (s : State) :
    SameOwners s (l.foldl f s) :=
  List.foldlRecOn (motive := SameOwners s) l f (.refl s) fun u hu x _ => hu.trans (hf u x)

end

section
variable (s : State) {p : Nat} (hp : p < 16)
include hp

theorem bayOwner_setBayOwners (l : List Nat) (b : Nat) :
    (l.foldl (fun s b => s.setBayOwner b p) s).bayOwner b = if b ∈ l then p else s.bayOwner b := by
  induction l generalizing s with
  | nil => exact (if_neg List.not_mem_nil).symm
  | cons c l ih =>
    rw [List.foldl_cons, ih, bayOwner_setBayOwner s hp]
    by_cases later : b ∈ l
    · rw [if_pos later, if_pos (List.mem_cons_of_mem c later)]
    · simp only [later, List.mem_cons, or_false, if_false]

theorem flumeOwner_setFlumeOwners (l : List Nat) (x : Nat) :
    (l.foldl (fun s x => s.setFlumeOwner x p) s).flumeOwner x = if x ∈ l then p else s.flumeOwner x := by
  induction l generalizing s with
  | nil => exact (if_neg List.not_mem_nil).symm
  | cons c l ih =>
    rw [List.foldl_cons, ih, flumeOwner_setFlumeOwner s hp]
    by_cases later : x ∈ l
    · rw [if_pos later, if_pos (List.mem_cons_of_mem c later)]
    · simp only [later, List.mem_cons, or_false, if_false]

end

/-- Flumes have registers of their own. -/
theorem bayOwner_setFlumeOwner (s : State) (x p : Nat) {b : Nat} (hb : b < 84) : (s.setFlumeOwner x p).bayOwner b = s.bayOwner b := by
  unfold State.bayOwner State.field State.setFlumeOwner
  rw [State.reg_setField_ne _ _ _ _ (by unfold Reg.prtBayownk Reg.prtFlumeown; omega)]

theorem flumeOwner_setBayOwner (s : State) {b : Nat} (hb : b < 84) (p x : Nat) : (s.setBayOwner b p).flumeOwner x = s.flumeOwner x := by
  unfold State.flumeOwner State.field State.setBayOwner
  rw [State.reg_setField_ne _ _ _ _ (by unfold Reg.prtBayownk Reg.prtFlumeown; omega)]

theorem mem_setBits {n m i : Nat} : i ∈ setBits n m ↔ i < n ∧ m.testBit i = true := by
  rw [setBits, List.mem_filter, List.mem_range]

/-! ### What a new partition is given (R597, R599) -/

/-- The regions of the descriptor. -/
def State.ownRegions (p : Nat) (d : List Byte) (s : State) : State :=
  (descRegions d).foldl (fun s r => if r.2.2 = 0 then s else
    s.setReg (Reg.hbmPregp r.1 (p - 1)) (fld 63 63 1 ||| fld 54 48 r.2.1 ||| fld 46 40 r.2.2)) s

theorem ownParts_eq (s : State) (p : Nat) (d : List Byte) : s.ownParts p d = State.ownRegions p d
    ((setBits 32 (leAt d 0x10 4)).foldl (fun s x => s.setFlumeOwner x p)
      ((setBits 84 (leAt d 0 11)).foldl (fun s b => s.setBayOwner b p) s)) := rfl

theorem hbmPregp_high (k p : Nat) : Reg.hbmPregp k p < 0x50000 ∨ 0x50040 ≤ Reg.hbmPregp k p := by
  unfold Reg.hbmPregp
  omega

theorem sameOwners_ownRegions (s : State) (p : Nat) (d : List Byte) : SameOwners s (s.ownRegions p d) :=
  .foldl _ (fun u r => by
    split
    · exact .refl u
    · exact sameOwners_setReg u (hbmPregp_high ..) _) s

theorem comp_ownParts (s : State) (p : Nat) (d : List Byte) : (s.ownParts p d).comp = s.comp := by
  have bays := List.foldlRecOn (motive := fun u : State => u.comp = s.comp) (setBits 84 (leAt d 0 11))
    (fun s b => s.setBayOwner b p) rfl fun _ hu _ _ => hu
  have flumes := List.foldlRecOn (motive := fun u : State => u.comp = s.comp) (setBits 32 (leAt d 0x10 4))
    (fun s x => s.setFlumeOwner x p) bays fun _ hu _ _ => hu
  rw [ownParts_eq]
  exact List.foldlRecOn (motive := fun u : State => u.comp = s.comp) _ _ flumes fun _ hu _ _ => by
    split
    · exact hu
    · exact hu

section
variable (s : State) {p : Nat} (hp : p < 16) (d : List Byte)
include hp

theorem bayOwner_ownParts {b : Nat} (hb : b < 84) :
    (s.ownParts p d).bayOwner b = if (leAt d 0 11).testBit b then p else s.bayOwner b := by
  have flumes (u : State) : ((setBits 32 (leAt d 0x10 4)).foldl (fun s x => s.setFlumeOwner x p) u).bayOwner b = u.bayOwner b :=
    List.foldlRecOn (motive := fun v : State => v.bayOwner b = u.bayOwner b) _ _ rfl fun v hv x _ =>
      (bayOwner_setFlumeOwner v x p hb).trans hv
  rw [ownParts_eq, (sameOwners_ownRegions ..).bays b hb, flumes, bayOwner_setBayOwners s hp]
  simp only [mem_setBits, hb, true_and]

theorem flumeOwner_ownParts {x : Nat} (hx : x < 32) :
    (s.ownParts p d).flumeOwner x = if (leAt d 0x10 4).testBit x then p else s.flumeOwner x := by
  have bays : ((setBits 84 (leAt d 0 11)).foldl (fun s b => s.setBayOwner b p) s).flumeOwner x = s.flumeOwner x :=
    List.foldlRecOn (motive := fun v : State => v.flumeOwner x = s.flumeOwner x) _ _ rfl fun v hv b hb =>
      (flumeOwner_setBayOwner v (mem_setBits.1 hb).1 p x).trans hv
  rw [ownParts_eq, (sameOwners_ownRegions ..).flumes x hx, flumeOwner_setFlumeOwners _ hp, bays]
  simp only [mem_setBits, hx, true_and]

end

/-! ### PART_CREATE (R598, R599) -/

/-- The partition exists, with its registers at reset. -/
def State.cleared (p : Nat) (s : State) : State :=
  (s.resetRegs fun a => !isPartReg p a).setPart p { Part.reset with own := { PartOwn.reset with present := true } }

/-- The state with the new partition, before its map is looked at. -/
def State.created (p : Nat) (d : List Byte) (s : State) : State := ((s.cleared p).ownParts p d).forgetRange p

theorem isPartReg_owner {p a : Nat} (hp : 1 ≤ p) (low : 0x50000 ≤ a) (high : a < 0x50040) : isPartReg p a = false := by
  unfold isPartReg
  rw [Bool.or_eq_false_iff, Bool.and_eq_false_iff, Bool.and_eq_false_iff]
  exact ⟨.inl (decide_eq_false (by omega)), .inl (decide_eq_false (by omega))⟩

section
variable (s : State) {p : Nat} (d : List Byte)

theorem parts_forgetRange (p : Nat) : (s.forgetRange p).comp.parts = s.comp.parts := rfl
theorem hosts_forgetRange (p : Nat) : (s.forgetRange p).comp.hosts = s.comp.hosts := rfl
theorem fences_forgetRange (p : Nat) : (s.forgetRange p).comp.fences = s.comp.fences := rfl
theorem regs_forgetRange (p : Nat) : (s.forgetRange p).regs = s.regs := rfl

theorem hosts_created : (s.created p d).comp.hosts = s.comp.hosts := by
  rw [State.created, hosts_forgetRange, comp_ownParts]
  rfl

theorem fences_created : (s.created p d).comp.fences = s.comp.fences := by
  rw [State.created, fences_forgetRange, comp_ownParts]
  rfl

theorem partExists_created : (s.created p d).partExists p = true := by
  have kept : (s.created p d).comp.parts = (s.cleared p).comp.parts := by
    rw [State.created, parts_forgetRange, comp_ownParts]
  rw [State.partExists, State.part_congr kept, State.cleared, State.part_setPart_same]

theorem reg_cleared {a : Nat} (ha : isPartReg p a = false) : (s.cleared p).reg a = s.reg a :=
  (reg_resetRegs s (fun a => !isPartReg p a) a).trans (by rw [ha]; rfl)

theorem sameOwners_cleared (h1 : 1 ≤ p) : SameOwners s (s.cleared p) :=
  sameOwners_of_regs fun _ low high => reg_cleared s (isPartReg_owner h1 low high)

theorem sameOwners_forgetRange (p : Nat) : SameOwners s (s.forgetRange p) := sameOwners_of_regs_eq (regs_forgetRange s p)

theorem bayOwner_created (h1 : 1 ≤ p) (h8 : p ≤ 8) {b : Nat} (hb : b < 84) :
    (s.created p d).bayOwner b = if (leAt d 0 11).testBit b then p else s.bayOwner b := by
  rw [State.created, (sameOwners_forgetRange _ p).bays b hb, bayOwner_ownParts _ (by omega) d hb, (sameOwners_cleared s h1).bays b hb]

theorem flumeOwner_created (h1 : 1 ≤ p) (h8 : p ≤ 8) {x : Nat} (hx : x < 32) :
    (s.created p d).flumeOwner x = if (leAt d 0x10 4).testBit x then p else s.flumeOwner x := by
  rw [State.created, (sameOwners_forgetRange _ p).flumes x hx, flumeOwner_ownParts _ (by omega) d hx,
    (sameOwners_cleared s h1).flumes x hx]

end

/-- Without fences no home place fails. -/
theorem lostHomes_nil {s : State} (h : s.comp.fences = []) (b : Nat) : s.lostHomes b = [] := by
  have none_ : s.fencedIn b = [] := by rw [State.fencedIn, h]; rfl
  rw [State.lostHomes, none_]
  rfl

/-- Where nothing is hosted away from home and nothing is fenced, every logical tile has its host. -/
theorem strangers_nil {s : State} (hosts : s.comp.hosts = []) (fences : s.comp.fences = []) (p : Nat) : s.strangers p = [] := by
  have home (bays : List Nat) : bays.flatMap (fun b => (s.lostHomes b).filter fun l => decide (s.hostOf l = l.home)) = [] :=
    List.flatMap_eq_nil_iff.2 fun b _ => by rw [lostHomes_nil fences, List.filter_nil]
  rw [State.strangers, hosts, home]
  rfl

/-- An admissible descriptor creates the partition where nothing is hosted away from home and nothing is fenced. -/
theorem createPart_admissible {s : State} {p : Nat} {d : List Byte} (admissible : s.descReason d = 0) (hosts : s.comp.hosts = [])
    (fences : s.comp.fences = []) : s.createPart p d = (none, s.created p d) := by
  have strangers : (s.created p d).strangers p = [] :=
    strangers_nil ((hosts_created s d).trans hosts) ((fences_created s d).trans fences) p
  unfold State.created State.cleared at strangers
  unfold State.createPart State.created State.cleared
  simp only [admissible, strangers, State.firstFail, State.placeAll, State.recordHostings, if_true]

/-! ### PART_DELETE (R600) -/

/-- The partition's flumes are nobody's. -/
def State.freeFlumes (p : Nat) (s : State) : State :=
  (List.range 32).foldl (fun s x => if s.flumeOwner x = p then s.setFlumeOwner x 0 else s) s

/-- The partition's regions are free. -/
def State.freeRegions (p : Nat) (s : State) : State :=
  (List.range 24).foldl (fun s k => s.setReg (Reg.hbmPregp k (p - 1)) 0) s

/-- The partition as it stands when it gives back what it owns. -/
def State.endedPart (p : Nat) (s : State) : State :=
  let s := if (s.part p).own.frame.isSome then s.purgeAll p else s
  ((s.planeReset p).abortCommands p).dropFrame p

/-- The partition's bays are nobody's. -/
def State.freeBays (p : Nat) (s : State) : State := (s.baysOf p).foldl (fun s b => s.setBayOwner b 0) (s.forgetRange p)

/-- The partition is gone, and no more is published of it. -/
def State.withoutPart (p : Nat) (s : State) : State :=
  (s.setPart p Part.reset).modComp fun c => { c with pubs := c.pubs.map fun u => if u.part = p then u.silence else u }

theorem deletePart_eq (s : State) (p : Nat) :
    s.deletePart p = ((((s.endedPart p).freeBays p).freeFlumes p).freeRegions p).withoutPart p := by
  unfold State.deletePart State.withoutPart State.freeFlumes State.freeRegions State.freeBays State.endedPart
  with_reducible rfl

theorem regs_withoutPart (s : State) (p : Nat) : (s.withoutPart p).regs = s.regs := rfl

theorem part_withoutPart (s : State) (p : Nat) : (s.withoutPart p).part p = Part.reset := by
  change (s.setPart p Part.reset).part p = _
  exact State.part_setPart_same s p _

theorem partExists_deletePart (s : State) (p : Nat) : (s.deletePart p).partExists p = false := by
  rw [deletePart_eq, State.partExists, part_withoutPart]
  rfl

theorem bayOwner_freeFlumes (s : State) (p : Nat) {b : Nat} (hb : b < 84) : (s.freeFlumes p).bayOwner b = s.bayOwner b :=
  List.foldlRecOn (motive := fun u : State => u.bayOwner b = s.bayOwner b) _ _ rfl fun u hu x _ => by
    split
    · exact (bayOwner_setFlumeOwner u x 0 hb).trans hu
    · exact hu

theorem bayOwner_freeRegions (s : State) (p : Nat) {b : Nat} (hb : b < 84) : (s.freeRegions p).bayOwner b = s.bayOwner b :=
  (SameOwners.foldl _ (fun u k => sameOwners_setReg u (hbmPregp_high k (p - 1)) 0) s).bays b hb

theorem bayOwner_freeBays (s : State) (p b : Nat) :
    (s.freeBays p).bayOwner b = if b ∈ s.baysOf p then 0 else (s.forgetRange p).bayOwner b :=
  bayOwner_setBayOwners _ (by decide) _ b

/-- No bay is the deleted partition's. -/
theorem bayOwner_deletePart (s : State) {p b : Nat} (h1 : 1 ≤ p) (hb : b < 84) : (s.deletePart p).bayOwner b ≠ p := by
  rw [deletePart_eq, (sameOwners_of_regs_eq (regs_withoutPart _ p)).bays b hb, bayOwner_freeRegions _ p hb, bayOwner_freeFlumes _ p hb,
    bayOwner_freeBays, (sameOwners_forgetRange _ p).bays b hb]
  split
  next => omega
  next other => exact fun own => other (List.mem_filter.2 ⟨List.mem_range.2 hb, decide_eq_true own⟩)

end Sys2Proof.Machine
end

section
/-!
SUPPORT. Proofs about the commands on partitions, Frames, gateways and flumes (R255 to R263, R563, R597 to R600, R610, R611, R615,
R616, R622 to R624), each where its checks pass.
-/

namespace Sys2Proof.Machine

/-! ### The checks that commands share (R602, R607, R610) -/

theorem command_seq {s : State} {f op : Nat} {seq : Dword} {c : Cmd} (h : s.command f seq op = some c) : c.seq = seq := by
  have found := List.find?_some h
  simp only [Bool.and_eq_true, decide_eq_true_eq] at found
  exact found.1

theorem onlyPf0_runs {s : State} {c : Cmd} {used : List (Nat × Nat)} (turn : s.inTurn 0 moduleCommands c = true)
    (tidy : c.tidy used = true) (k : State → State) : s.onlyPf0 0 c used k = k s := by
  rw [State.onlyPf0, if_neg (by rw [turn]; decide), if_neg (by decide), if_pos tidy]

theorem withPart_runs {s : State} {f : Nat} {c : Cmd} {used : List (Nat × Nat)} (may : cmdPartOk f c = true)
    (there : s.partExists (cmdPart f c) = true) (tidy : c.tidy ((0x10, 1) :: used) = true) (k : Nat → State → State) :
    s.withPart f c used k = k (cmdPart f c) s := by
  unfold State.withPart
  dsimp only
  rw [may, there, tidy, Bool.or_true]
  rfl

/-! ### PART_CREATE and PART_DELETE -/

section
variable {s : State} {seq : Dword} {c : Cmd}

theorem partCreate_runs {d : List Byte} {r : Option Nat × State} (hc : s.command 0 seq 0x0101 = some c)
    (turn : s.inTurn 0 moduleCommands c = true) (tidy : c.tidy [(0x10, 1), (0x18, 8)] = true) (h1 : 1 ≤ c.at 0x10 1)
    (h8 : c.at 0x10 1 ≤ 8) (new : s.partExists (c.at 0x10 1) = false) (dma : s.dmaOk 0 (c.at 0x18 8) 128 = true)
    (hr : s.createPart (c.at 0x10 1) (padTo 128 d) = r) :
    (r.1 = none → exec (.partCreate 0 seq (.good d)) s = .next (r.2.complete 0 c .ok 0)) ∧
    (∀ w, r.1 = some w → exec (.partCreate 0 seq (.good d)) s = .next (r.2.complete 0 c .failed w)) := by
  have checks : ¬ (c.at 0x10 1 = 0 ∨ 8 < c.at 0x10 1 ∨ s.partExists (c.at 0x10 1) = true) := by
    rintro (none_ | high | exists_)
    · omega
    · omega
    · rw [new] at exists_
      exact nomatch exists_
  have window : ¬ s.dmaOk 0 (c.at 0x18 8) 128 = false := by rw [dma]; decide
  change (_ → execPartCreate 0 seq (.good d) s = _) ∧ ∀ w, _ → execPartCreate 0 seq (.good d) s = _
  simp only [execPartCreate, hc, onlyPf0_runs turn tidy, if_neg checks, if_neg window, hr]
  exact ⟨fun e => by rw [e], fun w e => by rw [e]⟩

theorem partDelete_runs (hc : s.command 0 seq 0x0102 = some c) (turn : s.inTurn 0 moduleCommands c = true)
    (tidy : c.tidy [(0x10, 1)] = true) (h1 : 1 ≤ c.at 0x10 1) (h8 : c.at 0x10 1 ≤ 8) (there : s.partExists (c.at 0x10 1) = true) :
    exec (.partDelete 0 seq) s = .next ((s.deletePart (c.at 0x10 1)).complete 0 c .ok 0) := by
  have checks : ¬ (c.at 0x10 1 = 0 ∨ 8 < c.at 0x10 1 ∨ s.partExists (c.at 0x10 1) = false) := by
    rintro (none_ | high | exists_)
    · omega
    · omega
    · rw [there] at exists_
      exact nomatch exists_
  change execPartDelete 0 seq s = _
  simp only [execPartDelete, hc, onlyPf0_runs turn tidy, if_neg checks]

end

/-! ### Frames (R255 to R263, R611) -/

/-- The Frame state before the copy is validated. -/
def State.frameWas (s : State) (p : Nat) : FrameSt := if (s.part p).own.frame.isSome then .ready else .none

/-- A Frame command whose checks pass copies its Frame and goes on with the copy. -/
theorem frameCommand_fetches {s s1 : State} {f p : Nat} {c : Cmd} {apply : Bool} {x : Except Rej (List Byte)}
    (first : c.begun = false) (free : s.frameSt p < 2) (mode : ¬ (apply = true ∧ (c.at 0x11 1).testBit 0 = false ∧ s.frameSt p = 0))
    (fetched : s.fetchFrame p (c.at 0x18 8) (c.at 0x20 4) = (x, s1)) :
    (∀ e, x = .error e → s.frameCommand f p c apply = s1.rejectFrame f p c e) ∧
    (∀ d, x = .ok d → s.frameCommand f p c apply = s1.frameBytes f p c apply (s.frameWas p) d) := by
  unfold State.frameCommand State.frameWas
  rw [if_neg (by rw [first]; decide), if_neg (Nat.not_le.2 free), if_neg mode, fetched]
  exact ⟨fun e he => by rw [he], fun d hd => by rw [hd]⟩

section
variable {s : State} {f : Nat} {seq : Dword} {c : Cmd} (may : cmdPartOk f c = true) (there : s.partExists (cmdPart f c) = true)
include may there

theorem exec_frameCheck (hc : s.command f seq 0x0201 = some c) (tidy : c.tidy [(0x10, 1), (0x18, 8), (0x20, 4)] = true) :
    exec (.frameCheck f seq) s = .next (s.frameCommand f (cmdPart f c) c false) := by
  change execFrameCheck f seq s = _
  simp only [execFrameCheck, hc, withPart_runs may there tidy]

theorem exec_frameApply (hc : s.command f seq 0x0202 = some c)
    (tidy : c.tidy [(0x10, 1), (0x11, 1), (0x18, 8), (0x20, 4)] = true) (mode : c.at 0x11 1 < 4) :
    exec (.frameApply f seq) s = .next (s.frameCommand f (cmdPart f c) c true) := by
  change execFrameApply f seq s = _
  simp only [execFrameApply, hc, withPart_runs may there tidy, if_pos mode]

end

/-- A copy that is only checked (R255, R257). -/
theorem frameBytes_check {s : State} {f p : Nat} {c : Cmd} {was : FrameSt} {d : List Byte} :
    (∀ v, s.validate p (c.at 0x20 4) false d = .ok v →
      s.frameBytes f p c false was d = ((s.setFrameSt p was).dropCopy p).complete f c .ok 0) ∧
    (∀ e, s.validate p (c.at 0x20 4) false d = .error e →
      s.frameBytes f p c false was d = ((s.setFrameSt p was).dropCopy p).rejectFrame f p c e) := by
  refine ⟨fun v valid => ?_, fun e invalid => ?_⟩
  · simp only [State.frameBytes, Bool.false_and, valid, Bool.false_eq_true, if_false]
  · simp only [State.frameBytes, Bool.false_and, invalid]

/-- A copy that is valid is applied (R255). -/
theorem frameBytes_apply {s : State} {f p : Nat} {c : Cmd} {was : FrameSt} {d : List Byte} {v : Frame × Placed}
    (valid : s.validate p (c.at 0x20 4) (!(c.at 0x11 1).testBit 0) d = .ok v) :
    s.frameBytes f p c true was d = s.applyNow f p c d v.1 := by
  simp only [State.frameBytes, Bool.true_and, valid, if_true]

/-- The application of a valid Frame once the heal in progress is complete, where the command has not been ended in it: it
waits for a dry fit and for the end of a halt, and else applies the Frame (R259 to R263, R533, R760). -/
theorem applyNow_spec {s h : State} {f p : Nat} {c : Cmd} {d : List Byte} {fr : Frame} {r : Option Nat × State}
    (healed : s.healNow p = h) (live : (h.command f c.seq 0x0202).isSome = true)
    (hr : h.applyFrame p ((c.at 0x11 1).testBit 0) ((c.at 0x11 1).testBit 1) d fr = r) :
    ((h.part p).commit.df = .none → h.phys.power.halted = false →
      (r.1 = none → s.applyNow f p c d fr = (r.2.dropCopy p).complete f c .ok 0) ∧
      (∀ k, r.1 = some k → s.applyNow f p c d fr = (r.2.dropCopy p).complete f c .failed (2 ^ 8 * k))) ∧
    ((h.part p).commit.df ≠ .none → s.applyNow f p c d fr = h.applyWaits f p 0 c fr) ∧
    ((h.part p).commit.df = .none → h.phys.power.halted = true → s.applyNow f p c d fr = h.applyHalted f p c fr) := by
  have going : ¬ (h.command f c.seq 0x0202).isNone = true := fun ended =>
    Option.isSome_iff_ne_none.1 live (Option.isNone_iff_eq_none.1 ended)
  unfold State.applyNow
  rw [healed]
  dsimp only
  rw [if_neg going]
  refine ⟨fun rests runs => ?_, fun dry => if_pos dry, fun rests halted => ?_⟩
  · rw [if_neg (not_not.2 rests), if_neg (by rw [runs]; decide), hr]
    exact ⟨fun done => by rw [done], fun k failed => by rw [failed]⟩
  · rw [if_neg (not_not.2 rests), if_pos halted]

/-! ### REMAP and the gateways (R563, R615, R616) -/

section
variable {s : State} {f : Nat} {seq : Dword} {c : Cmd} (may : cmdPartOk f c = true) (there : s.partExists (cmdPart f c) = true)
include may there

/-- REMAP recovers a partition that a failed heal has stopped, and only that (R563, R614). -/
theorem remap_spec {r : Remapped × State} (hc : s.command f seq 0x0203 = some c) (tidy : c.tidy [(0x10, 1)] = true)
    (hr : s.remapNow (cmdPart f c) = r) :
    ((s.part (cmdPart f c)).heal.remapStop = false → exec (.remap f seq) s = .next (s.complete f c .invalid 0)) ∧
    ((s.part (cmdPart f c)).heal.remapStop = true →
      (∀ n, r.1 = .done n → exec (.remap f seq) s = .next (r.2.complete f c .ok n)) ∧
      (r.1 = .failed → (r.2.command f seq 0x0203).isSome = true → exec (.remap f seq) s = .next (r.2.complete f c .failed 0)) ∧
      (r.1 = .waits → exec (.remap f seq) s = .next r.2)) := by
  have runs : exec (.remap f seq) s = execRemap f seq s := rfl
  simp only [runs, execRemap, hc, withPart_runs may there tidy, hr]
  refine ⟨fun none_ => by rw [if_pos none_], fun stopped => ?_⟩
  rw [if_neg (by rw [stopped]; decide), command_seq hc]
  refine ⟨fun n done => by rw [done], fun failed live => ?_, fun waits => by rw [waits]⟩
  rw [failed]
  exact congrArg _ (if_neg fun ended => Option.isSome_iff_ne_none.1 live (Option.isNone_iff_eq_none.1 ended))

/-- GATE_RUN triggers the gateways of its tensor, or is to be tried again (R615). -/
theorem gateRun_spec (hc : s.command f seq 0x0204 = some c) (tidy : c.tidy [(0x10, 1), (0x14, 4)] = true)
    (ready : s.frameSt (cmdPart f c) = 1) (bound : s.gateBindings (cmdPart f c) (c.at 0x14 4) ≠ [])
    (replayed : s.beforeReplay (cmdPart f c) = false) :
    (s.canTrigger (cmdPart f c) (c.at 0x14 4) = true → exec (.gateRun f seq) s = .next ((s.triggerTid (cmdPart f c)
      (c.at 0x14 4)).complete f c .ok (s.gateBindings (cmdPart f c) (c.at 0x14 4)).length)) ∧
    (s.canTrigger (cmdPart f c) (c.at 0x14 4) = false → exec (.gateRun f seq) s = .next (s.complete f c .retry 0)) := by
  have runs : exec (.gateRun f seq) s = execGateRun f seq s := rfl
  have valid : ¬ (s.frameSt (cmdPart f c) ≠ 1 ∨ s.gateBindings (cmdPart f c) (c.at 0x14 4) = []) := by
    rw [ready]
    rintro (h | h)
    · exact h rfl
    · exact bound h
  simp only [runs, execGateRun, hc, withPart_runs may there tidy, if_neg valid]
  refine ⟨fun can => ?_, fun cannot => by rw [if_pos (Or.inl cannot)]⟩
  rw [if_neg]
  rw [can, replayed]
  decide

/-- GATE_ARM gives its schedule to the partition (R616). -/
theorem gateArm_spec {new : List Nat} (hc : s.command f seq 0x0205 = some c)
    (tidy : c.tidy [(0x10, 1), (0x11, 1), (0x14, 4)] = true) (bound : s.gateBindings (cmdPart f c) (c.at 0x14 4) ≠ [])
    (arm : c.at 0x11 1 ≤ 1) (hnew : (if c.at 0x11 1 = 1 then insertTid (c.at 0x14 4) (s.part (cmdPart f c)).own.schedule
      else (s.part (cmdPart f c)).own.schedule.filter fun t => decide (t ≠ c.at 0x14 4)) = new) :
    ∃ u : State, (u.part (cmdPart f c)).own.schedule = new ∧ OnlyPart (cmdPart f c) s u ∧
      (new.length ≤ 64 → exec (.gateArm f seq) s = .next (u.complete f c .ok new.length)) := by
  refine ⟨s.modOwn (cmdPart f c) fun o => { o with schedule := new }, ?_, ⟨rfl, fun q hq => State.part_modPart_ne _ _ hq⟩, fun room => ?_⟩
  · rw [State.modOwn, State.part_modPart_same]
  · have runs : exec (.gateArm f seq) s = execGateArm f seq s := rfl
    have valid : ¬ (1 < c.at 0x11 1 ∨ s.gateBindings (cmdPart f c) (c.at 0x14 4) = []) := by
      rintro (h | h)
      · omega
      · exact bound h
    simp only [runs, execGateArm, hc, withPart_runs may there tidy, if_neg valid, hnew, if_neg (Nat.not_lt.2 room)]

/-! ### Flumes (R622 to R624) -/

/-- A copy queues on its flume behind those that wait (R622). -/
theorem flumeCopy_queues (hc : s.command f seq 0x0206 = some c) (first : c.begun = false) (turn : s.inTurn f [0x0206] c = true)
    (tidy : c.tidy [(0x10, 1), (0x11, 1), (0x12, 1), (0x18, 8), (0x20, 8), (0x28, 4)] = true) (way : c.at 0x12 1 ≤ 1)
    (some_ : 1 ≤ c.at 0x28 4) (fits : c.at 0x28 4 ≤ 2 ^ 30) (exists_ : c.at 0x11 1 ≤ 31)
    (own : s.flumeOwner (c.at 0x11 1) = cmdPart f c) (dma : s.dmaOk f (c.at 0x18 8) (c.at 0x28 4) = true)
    (room : (s.flume (c.at 0x11 1)).length ≤ 16) :
    ∃ n k, exec (.flumeCopy f seq) s = .next n ∧ n.flume (c.at 0x11 1) = s.flume (c.at 0x11 1) ++ [k] ∧
      k = { f := f, seq := seq, part := cmdPart f c, toHost := c.at 0x12 1 == 1, host := c.at 0x18 8, pa := c.at 0x20 8,
            len := c.at 0x28 4 } ∧
      (∀ x, x ≠ c.at 0x11 1 → n.flume x = s.flume x) ∧ n.regs = s.regs ∧ SameTiles s n := by
  have runs : exec (.flumeCopy f seq) s = execFlumeCopy f seq s := rfl
  have begins : ¬ (c.begun = true ∨ s.inTurn f [0x0206] c = false) := by
    rw [first, turn]
    decide
  have length : ¬ (1 < c.at 0x12 1 ∨ c.at 0x28 4 = 0 ∨ 2 ^ 30 < c.at 0x28 4) := by omega
  have owned : ¬ (31 < c.at 0x11 1 ∨ s.flumeOwner (c.at 0x11 1) ≠ cmdPart f c) := by
    rintro (h | h)
    · omega
    · exact h own
  have window : ¬ s.dmaOk f (c.at 0x18 8) (c.at 0x28 4) = false := by
    rw [dma]
    decide
  simp only [runs, execFlumeCopy, hc, if_neg begins, withPart_runs may there tidy, if_neg length, if_neg owned, if_neg window,
    if_neg (Nat.not_lt.2 room)]
  exact ⟨_, _, rfl, State.flume_setFlume_same _ _ _, rfl, fun x hx => State.flume_setFlume_ne _ _ hx, rfl, fun _ => rfl⟩

end

/-- The copy at the head of a flume is carried out and its command completes (R622 to R624, R626). -/
theorem flumeCopyDone_spec {s s0 : State} {fl : Nat} {h : HostOutcome} {k : Copy} {r : List Copy} {c : Cmd}
    (head : s.flume fl = k :: r) (hs0 : s.setFlume fl r = s0) (seg : s.segUp (3 * fl / 4) = true)
    (runs : s.phys.power.halted = false) (hc : s0.command k.f k.seq 0x0206 = some c) :
    (s0.dmaOk k.f k.host k.len = false → exec (.flumeCopyDone fl h) s = .next ((s0.dmaBlocked k.f k.host).complete k.f c .denied 0)) ∧
    (s0.dmaOk k.f k.host k.len = true → k.toHost = true → exec (.flumeCopyDone fl h) s =
      .next ((s0.copyToHost k).2.complete k.f c (s0.copyToHost k).1.1 (s0.copyToHost k).1.2)) ∧
    (s0.dmaOk k.f k.host k.len = true → k.toHost = false → exec (.flumeCopyDone fl h) s =
      .next ((s0.copyFromHost k h).2.complete k.f c (s0.copyFromHost k h).1.1 (s0.copyFromHost k h).1.2)) := by
  have open_ : ¬ (s.segUp (3 * fl / 4) = false ∨ s.phys.power.halted = true) := by
    rw [seg, runs]
    decide
  have does : exec (.flumeCopyDone fl h) s = execFlumeCopyDone fl h s := rfl
  simp only [does, execFlumeCopyDone, head, if_neg open_, hs0, hc]
  refine ⟨fun blocked => by rw [if_pos blocked], fun dma out => ?_, fun dma back => ?_⟩
  · rw [if_neg (by rw [dma]; decide), if_pos out]
  · rw [if_neg (by rw [dma]; decide), if_neg (by rw [back]; decide)]

/-- Settles O38, command by command: each goes through the checks that it shares with the others, and then does what its own
operation does. -/
theorem partitionAndWorkCommandsComplete : Obligations.PartitionAndWorkCommandsComplete := by
  unfold Obligations.PartitionAndWorkCommandsComplete
  refine ⟨fun s seq d c hc tidy turn h1 h8 new dma => ?_, fun s seq c hc tidy turn h1 h8 there => ?_,
    fun s f seq c may there => ⟨fun hc tidy first free d s1 fetched => ?_, fun hc tidy mode first free d s1 v fetched valid live => ?_,
      fun e s1 hc tidy first free fetched => ?_, fun hc tidy => remap_spec may there hc tidy rfl,
      fun hc tidy ready bound replayed => gateRun_spec may there hc tidy ready bound replayed,
      fun hc tidy bound => ⟨fun arm room => ?_, fun disarm => ?_⟩,
      fun hc first turn tidy way some_ fits exists_ own dma room =>
        flumeCopy_queues may there hc first turn tidy way some_ fits exists_ own dma room⟩,
    fun s fl h k r c head seg runs hc => flumeCopyDone_spec head rfl seg runs hc⟩
  · obtain ⟨done, failed⟩ := partCreate_runs hc turn tidy h1 h8 new dma rfl
    refine ⟨done, failed, fun admissible hosts fences => ?_⟩
    rw [createPart_admissible admissible hosts fences]
    exact ⟨rfl, partExists_created s _, fun b hb => bayOwner_created s _ h1 h8 hb, fun x hx => flumeOwner_created s _ h1 h8 hx⟩
  · exact ⟨partDelete_runs hc turn tidy h1 h8 there, partExists_deletePart s _, fun b hb => bayOwner_deletePart s h1 hb⟩
  · have check : ¬ (false = true ∧ (c.at 0x11 1).testBit 0 = false ∧ s.frameSt (cmdPart f c) = 0) := nofun
    obtain ⟨-, copied⟩ := frameCommand_fetches (f := f) first free check fetched
    rw [exec_frameCheck may there hc tidy, copied d rfl]
    obtain ⟨passes, fails⟩ := frameBytes_check (s := s1) (f := f) (p := cmdPart f c) (c := c) (was := s.frameWas (cmdPart f c)) (d := d)
    exact ⟨fun v valid => by rw [passes v valid, State.frameWas], fun e invalid => by rw [fails e invalid, State.frameWas]⟩
  · have below : s.frameSt (cmdPart f c) < 2 := by omega
    have inMode : ¬ (true = true ∧ (c.at 0x11 1).testBit 0 = false ∧ s.frameSt (cmdPart f c) = 0) := by
      rintro ⟨-, drain, none_⟩
      rcases free with ready | ⟨-, epoch⟩
      · omega
      · rw [epoch] at drain
        exact nomatch drain
    obtain ⟨-, copied⟩ := frameCommand_fetches (f := f) first below inMode fetched
    rw [exec_frameApply may there hc tidy mode, copied d rfl, frameBytes_apply valid]
    rw [← command_seq hc] at live
    obtain ⟨applies, waits, halts⟩ := applyNow_spec (fr := v.1) (d := d) rfl live rfl
    refine ⟨fun rests runs => ?_, fun dry => by rw [waits dry], fun rests halted => by rw [halts rests halted]⟩
    obtain ⟨done, failed⟩ := applies rests runs
    exact ⟨fun none_ => by rw [done none_], fun k at_ => by rw [failed k at_]⟩
  · have check : ¬ (false = true ∧ (c.at 0x11 1).testBit 0 = false ∧ s.frameSt (cmdPart f c) = 0) := nofun
    obtain ⟨rejected, -⟩ := frameCommand_fetches (f := f) first free check fetched
    rw [exec_frameCheck may there hc tidy, rejected e rfl]
  · obtain ⟨u, scheduled, only, completes⟩ := gateArm_spec may there hc tidy bound (Nat.le_of_eq arm) (if_pos arm)
    exact ⟨u, scheduled, only, completes room⟩
  · obtain ⟨u, scheduled, only, completes⟩ := gateArm_spec may there hc tidy bound (by omega) (if_neg (by omega))
    exact ⟨u, scheduled, only, fun room => scheduled ▸ completes (scheduled ▸ room)⟩

end Sys2Proof.Machine
end

section
/-!
SUPPORT. Proofs about the clears of statistics: which registers and fields each sets to zero, and what it leaves (R429, R430,
R459, R460, R502, R545, R581, R633, R678, R716, R717, R763, R764, R837).
-/

namespace Sys2Proof.Machine

/-! ### A run of register writes within a set of addresses -/

section
variable {A : List Nat} {s t : State}

theorem OnlyRegs.refl (A : List Nat) (s : State) : OnlyRegs A s s := ⟨rfl, fun _ _ => rfl⟩

theorem OnlyRegs.setReg (h : OnlyRegs A s t) {a : Nat} (ha : a ∈ A) (v : Word) : OnlyRegs A s (t.setReg a v) := by
  obtain ⟨same, others⟩ := h
  refine ⟨?_, fun b hb => (t.reg_setReg_ne v (ne_of_mem_of_not_mem ha hb).symm).trans (others b hb)⟩
  rw [same]
  rfl

theorem OnlyRegs.setField (h : OnlyRegs A s t) {a : Nat} (ha : a ∈ A) (hi lo v : Nat) : OnlyRegs A s (t.setField a hi lo v) :=
  h.setReg ha _

end

section
variable (s : State) {a b : Nat}

theorem State.field_setReg_ne (v : Word) (hi lo : Nat) (h : b ≠ a) : (s.setReg a v).field b hi lo = s.field b hi lo := by
  rw [State.field, s.reg_setReg_ne v h, State.field]

theorem State.field_setField_ne (h1 l1 v hi lo : Nat) (h : b ≠ a) : (s.setField a h1 l1 v).field b hi lo = s.field b hi lo :=
  s.field_setReg_ne _ hi lo h

/-- A field that is set to zero reads zero. -/
theorem State.field_clear {hi lo : Nat} (h : lo ≤ hi) (hh : hi < 64) : (s.setField a hi lo 0).field a hi lo = 0 := by
  rw [s.field_setField_same a hi lo 0 h hh, Nat.zero_mod]

/-- A field below the one that is set to zero is left. -/
theorem State.field_clear_below {hi lo k l : Nat} (h : lo ≤ hi) (hh : hi < 64) (kl : l ≤ k) (below : k < lo) :
    (s.setField a hi lo 0).field a k l = s.field a k l :=
  s.field_setField_apart a hi lo 0 k l h hh kl (by omega) (.inl below)

/-- A field above the one that is set to zero is left. -/
theorem State.field_clear_above {hi lo k l : Nat} (h : lo ≤ hi) (kl : l ≤ k) (kk : k < 64) (above : hi < l) :
    (s.setField a hi lo 0).field a k l = s.field a k l :=
  s.field_setField_apart a hi lo 0 k l h (by omega) kl kk (.inr above)

end

/-! ### One clear after another -/

section
variable (s : State)

theorem exec_prtPlnClr {p : Nat} (h1 : 1 ≤ p) (h8 : p ≤ 8) : ∃ n, exec (.prtPlnClr p) s = .next n ∧ n.reg (Reg.prtPlnCnt p) = 0 ∧
    n.field (Reg.plnStepstat p) 3 1 = 0 ∧ n.field (Reg.plnStepstat p) 63 4 = s.field (Reg.plnStepstat p) 63 4 ∧
    n.field (Reg.plnStepstat p) 0 0 = s.field (Reg.plnStepstat p) 0 0 ∧
    OnlyRegs [Reg.prtPlnCnt p, Reg.plnStepstat p] s n := by
  have apart : Reg.prtPlnCnt p ≠ Reg.plnStepstat p := by unfold Reg.prtPlnCnt Reg.plnStepstat; omega
  refine ⟨(s.setReg (Reg.prtPlnCnt p) 0).setField (Reg.plnStepstat p) 3 1 0, rfl, ?_, State.field_clear _ (by decide) (by decide),
    ?_, ?_, ((OnlyRegs.refl ..).setReg (by simp) _).setField (by simp) ..⟩
  · rw [State.reg_setField_ne _ _ _ _ apart, State.reg_setReg_same]
  · rw [State.field_clear_above _ (by decide) (by decide) (by decide) (by decide), State.field_setReg_ne _ _ _ _ apart.symm]
  · rw [State.field_clear_below _ (by decide) (by decide) (by decide) (by decide), State.field_setReg_ne _ _ _ _ apart.symm]

theorem exec_hbmCtlClr (k : Nat) : ∃ n, exec (.hbmCtlClr k) s = .next n ∧ n.reg (Reg.hbmErrcnt k) = 0 ∧ n.reg (Reg.hbmErrcnt2 k) = 0 ∧
    n.reg (Reg.hbmElog0 k) = 0 ∧ OnlyRegs [Reg.hbmErrcnt k, Reg.hbmErrcnt2 k, Reg.hbmElog0 k] s n := by
  have h01 : Reg.hbmErrcnt k ≠ Reg.hbmErrcnt2 k := by unfold Reg.hbmErrcnt Reg.hbmErrcnt2; omega
  have h02 : Reg.hbmErrcnt k ≠ Reg.hbmElog0 k := by unfold Reg.hbmErrcnt Reg.hbmElog0; omega
  have h12 : Reg.hbmErrcnt2 k ≠ Reg.hbmElog0 k := by unfold Reg.hbmErrcnt2 Reg.hbmElog0; omega
  refine ⟨_, rfl, ?_, ?_, State.reg_setReg_same .., (((OnlyRegs.refl ..).setReg (by simp) _).setReg (by simp) _).setReg (by simp) _⟩
  · rw [State.reg_setReg_ne _ _ h02, State.reg_setReg_ne _ _ h01, State.reg_setReg_same]
  · rw [State.reg_setReg_ne _ _ h12, State.reg_setReg_same]

/-- The function status registers are at different addresses. -/
theorem hstFuncstat_inj {f g : Nat} (h : Reg.hstFuncstat f = Reg.hstFuncstat g) : f = g := by
  unfold Reg.hstFuncstat Reg.hst at h
  split at h <;> split at h <;> omega

/-- Registers set to zero one after another read zero. -/
theorem reg_foldl_clear {f : Nat} (fs : List Nat) (hf : f ∈ fs) (u : State) :
    (fs.foldl (fun s f => s.setReg (Reg.hstFuncstat f) 0) u).reg (Reg.hstFuncstat f) = 0 := by
  induction fs using List.reverseRecOn with
  | nil => exact absurd hf List.not_mem_nil
  | append_singleton gs g ih =>
    rw [List.foldl_append, List.foldl_cons, List.foldl_nil]
    by_cases e : f = g
    · rw [e, State.reg_setReg_same]
    · rw [State.reg_setReg_ne _ _ fun h => e (hstFuncstat_inj h)]
      exact ih ((List.mem_append.1 hf).resolve_right fun m => e (List.mem_singleton.1 m))

theorem onlyRegs_foldl_clear {A : List Nat} {u : State} (fs : List Nat) (h : OnlyRegs A s u) (hA : ∀ f ∈ fs, Reg.hstFuncstat f ∈ A) :
    OnlyRegs A s (fs.foldl (fun s f => s.setReg (Reg.hstFuncstat f) 0) u) := by
  induction fs generalizing u with
  | nil => exact h
  | cons f fs ih =>
    exact ih (h.setReg (hA f List.mem_cons_self) 0) fun g hg => hA g (List.mem_cons_of_mem _ hg)

theorem exec_hstCtlClr : ∃ n, exec .hstCtlClr s = .next n ∧ n.reg Reg.hstLinkcnt = 0 ∧ (∀ f, f ≤ 8 → n.reg (Reg.hstFuncstat f) = 0) ∧
    OnlyRegs (Reg.hstLinkcnt :: funcs.map Reg.hstFuncstat) s n := by
  have apart : Reg.hstLinkcnt ∉ funcs.map Reg.hstFuncstat := by decide
  have cleared := onlyRegs_foldl_clear (A := funcs.map Reg.hstFuncstat) _ funcs (OnlyRegs.refl _ (s.setReg Reg.hstLinkcnt 0))
    fun f hf => List.mem_map_of_mem hf
  refine ⟨s.clearHst, rfl, ?_, fun f hf => reg_foldl_clear funcs (List.mem_range.2 (by omega)) _,
    onlyRegs_foldl_clear s funcs ((OnlyRegs.refl ..).setReg List.mem_cons_self 0)
      fun f hf => List.mem_cons_of_mem _ (List.mem_map_of_mem hf)⟩
  rw [State.clearHst, cleared.2 _ apart, State.reg_setReg_same]

theorem exec_pwrCtlClr : ∃ n, exec .pwrCtlClr s = .next n ∧ n.reg Reg.pwrCnt = 0 ∧ n.field Reg.pwrExc 63 32 = 0 ∧
    n.field Reg.pwrExc 31 0 = s.field Reg.pwrExc 31 0 ∧ OnlyRegs [Reg.pwrCnt, Reg.pwrExc] s n := by
  refine ⟨(s.setReg Reg.pwrCnt 0).setField Reg.pwrExc 63 32 0, rfl, ?_, State.field_clear _ (by decide) (by decide), ?_,
    ((OnlyRegs.refl ..).setReg (by simp) _).setField (by simp) ..⟩
  · rw [State.reg_setField_ne _ _ _ _ (by decide), State.reg_setReg_same]
  · rw [State.field_clear_below _ (by decide) (by decide) (by decide) (by decide), State.field_setReg_ne _ _ _ _ (by decide)]

theorem exec_clkCtlClr : ∃ n, exec .clkCtlClr s = .next n ∧ n.reg Reg.clkCnt = 0 ∧ n.field Reg.clkHstat 63 48 = 0 ∧
    n.field Reg.clkStat 47 32 = 0 ∧ n.field Reg.clkHstat 47 0 = s.field Reg.clkHstat 47 0 ∧
    n.field Reg.clkStat 31 0 = s.field Reg.clkStat 31 0 ∧ OnlyRegs [Reg.clkCnt, Reg.clkHstat, Reg.clkStat] s n := by
  refine ⟨((s.setReg Reg.clkCnt 0).setField Reg.clkHstat 63 48 0).setField Reg.clkStat 47 32 0, rfl, ?_, ?_,
    State.field_clear _ (by decide) (by decide), ?_, ?_,
    (((OnlyRegs.refl ..).setReg (by simp) _).setField (by simp) ..).setField (by simp) ..⟩
  · rw [State.reg_setField_ne _ _ _ _ (by decide), State.reg_setField_ne _ _ _ _ (by decide), State.reg_setReg_same]
  · rw [State.field_setField_ne _ _ _ _ _ _ (by decide), State.field_clear _ (by decide) (by decide)]
  · rw [State.field_setField_ne _ _ _ _ _ _ (by decide), State.field_clear_below _ (by decide) (by decide) (by decide) (by decide),
      State.field_setReg_ne _ _ _ _ (by decide)]
  · rw [State.field_clear_below _ (by decide) (by decide) (by decide) (by decide), State.field_setField_ne _ _ _ _ _ _ (by decide),
      State.field_setReg_ne _ _ _ _ (by decide)]

theorem exec_tideCtlClr : ∃ n, exec .tideCtlClr s = .next n ∧ n.field Reg.tideSync 63 32 = 0 ∧ n.field Reg.tideStat 47 32 = 0 ∧
    n.field Reg.tideSync 31 0 = s.field Reg.tideSync 31 0 ∧ n.field Reg.tideStat 31 0 = s.field Reg.tideStat 31 0 ∧
    n.field Reg.tideStat 63 48 = s.field Reg.tideStat 63 48 ∧ OnlyRegs [Reg.tideSync, Reg.tideStat] s n := by
  refine ⟨(s.setField Reg.tideSync 63 32 0).setField Reg.tideStat 47 32 0, rfl, ?_, State.field_clear _ (by decide) (by decide), ?_, ?_, ?_,
    ((OnlyRegs.refl ..).setField (by simp) ..).setField (by simp) ..⟩
  · rw [State.field_setField_ne _ _ _ _ _ _ (by decide), State.field_clear _ (by decide) (by decide)]
  · rw [State.field_setField_ne _ _ _ _ _ _ (by decide), State.field_clear_below _ (by decide) (by decide) (by decide) (by decide)]
  · rw [State.field_clear_below _ (by decide) (by decide) (by decide) (by decide), State.field_setField_ne _ _ _ _ _ _ (by decide)]
  · rw [State.field_clear_above _ (by decide) (by decide) (by decide) (by decide), State.field_setField_ne _ _ _ _ _ _ (by decide)]

theorem exec_stlCtlClr (p : Nat) : ∃ n, exec (.stlCtlClr p) s = .next n ∧ n.reg (Reg.stlLinkcnt p) = 0 ∧ n.reg (Reg.stlPktcnt p) = 0 ∧
    OnlyRegs [Reg.stlLinkcnt p, Reg.stlPktcnt p] s n := by
  have apart : Reg.stlLinkcnt p ≠ Reg.stlPktcnt p := by unfold Reg.stlLinkcnt Reg.stlPktcnt; omega
  refine ⟨(s.setReg (Reg.stlLinkcnt p) 0).setReg (Reg.stlPktcnt p) 0, rfl, ?_, State.reg_setReg_same ..,
    ((OnlyRegs.refl ..).setReg (by simp) _).setReg (by simp) _⟩
  rw [State.reg_setReg_ne _ _ apart, State.reg_setReg_same]

theorem exec_grnCtlClr : ∃ n, exec .grnCtlClr s = .next n ∧ n.field Reg.grnStat 63 32 = 0 ∧
    n.field Reg.grnStat 31 0 = s.field Reg.grnStat 31 0 ∧ OnlyRegs [Reg.grnStat] s n :=
  ⟨s.setField Reg.grnStat 63 32 0, rfl, State.field_clear _ (by decide) (by decide),
    State.field_clear_below _ (by decide) (by decide) (by decide) (by decide), (OnlyRegs.refl ..).setField (by simp) ..⟩

/-- One endpoint's counts. -/
theorem clearStreams_one {v : Word} (h : v.getLsbD 16 = false) :
    s.clearStreams v = s.setSport (fieldOf v 15 0 / 32) (s.sport (fieldOf v 15 0 / 32)).clear := by
  rw [State.clearStreams, h]
  rfl

/-- Every endpoint's counts. -/
theorem clearStreams_all {v : Word} (h : v.getLsbD 16 = true) :
    s.clearStreams v = { s with man := { s.man with ports := Tab.mapVals SendPort.reset (fun _ x => x.clear) s.man.ports } } := by
  rw [State.clearStreams, h]
  rfl

theorem exec_jnrStrclr (v : Word) : ∃ n, exec (.jnrStrclr v) s = .next n ∧
    (v.getLsbD 16 = false → n.sport (fieldOf v 15 0 / 32) = (s.sport (fieldOf v 15 0 / 32)).clear ∧
      ∀ e, e ≠ fieldOf v 15 0 / 32 → n.sport e = s.sport e) ∧
    (v.getLsbD 16 = true → ∀ e, (n.sport e).streams = []) ∧
    n = { s with man := { s.man with ports := n.man.ports } } := by
  refine ⟨s.clearStreams v, rfl, fun one => ?_, fun all e => ?_, ?_⟩
  · rw [clearStreams_one s one]
    exact ⟨State.sport_setSport_same .., fun e he => State.sport_setSport_ne _ _ he⟩
  · rw [clearStreams_all s all, State.sport]
    obtain reset | ⟨x, cleared⟩ := Tab.get_mapVals_cases (d := SendPort.reset) (f := fun _ x => x.clear) (t := s.man.ports) (k := e)
    · exact congrArg SendPort.streams reset
    · exact congrArg SendPort.streams cleared
  · cases one : v.getLsbD 16
    · rw [clearStreams_one s one]
      rfl
    · rw [clearStreams_all s one]

theorem exec_silPwrctlClr (b : Nat) : ∃ n, exec (.silPwrctlClr b) s = .next n ∧ (n.bay b).droops = 0 ∧ (n.bay b).vmin = (s.bay b).volts ∧
    OnlyBay b { s with free := n.free } n := by
  refine ⟨s.clearMargin b, rfl, ?_, ?_, rfl, fun c hc => State.bay_modBay_ne _ _ hc⟩ <;> rw [State.clearMargin, State.bay_modBay_same]
  rfl

end

/-- Settles O36, clear by clear. -/
theorem clearActionsZeroTheirCounts : Obligations.ClearActionsZeroTheirCounts := by
  unfold Obligations.ClearActionsZeroTheirCounts
  intro s
  have one (a : Nat) : (s.setReg a 0).reg a = 0 ∧ OnlyRegs [a] s (s.setReg a 0) := ⟨State.reg_setReg_same .., onlyRegs_setReg s a 0⟩
  exact ⟨fun p => ⟨_, rfl, one (Reg.prtDetCnt p)⟩, fun p h1 h8 => exec_prtPlnClr s h1 h8, fun e => ⟨_, rfl, one (Reg.plnEcnt e)⟩,
    exec_hbmCtlClr s, fun p => ⟨_, rfl, one (Reg.prtHbmPoison p)⟩, ⟨_, rfl, one Reg.fltRecov⟩, exec_hstCtlClr s, exec_pwrCtlClr s,
    exec_clkCtlClr s, exec_tideCtlClr s, exec_stlCtlClr s, exec_grnCtlClr s, exec_jnrStrclr s, exec_silPwrctlClr s⟩

end Sys2Proof.Machine
end

section
/-!
SUPPORT. A router at a place beyond the 84 bays of R29: the word that would name its bay's owner is then `PRT_FAB_CNT` of a
partition, which PRT_CTL.FAB_CLR writes (R328, R329, R634, log 125).
-/

namespace Sys2Proof.Machine

/-- PT(11280, 0, 0), beyond the 84 bays: bits 3 to 0 of `PRT_FAB_CNT@1` stand where the owner of its bay would. -/
def beyondTile : PT := { bay := 11280, col := 0, row := 0 }

/-- Partition 1 owns bay 0, whose router at PT(0, 0, 0) has diverted one packet; the router beyond the bays has diverted five. -/
def beyondState : State :=
  let s := State.reset.setReg (Reg.prtBayownk 0) 1
  let s := s.setRouter { bay := 0, col := 0, row := 0 } { Router.reset with divert := 1 }
  s.setRouter beyondTile { Router.reset with divert := 5 }

/-- Only the one packet is partition 1's before the clear. -/
theorem fabSums_beyond : beyondState.fabSums 1 = (0, 1) := by decide

/-- The clear stores that sum of 1, which makes partition 1 the owner beyond the bays, and the other five count. -/
theorem prtFabClr_beyond : ∃ n, exec (.prtFabClr 1) beyondState = .next n ∧ n.fabCnt 1 = 5 := ⟨_, rfl, by decide⟩

/-- Refutes O33, at its last clause: where a router is listed beyond the 84 bays, the sum that PRT_CTL.FAB_CLR stores names the
partition as the owner there, and the partition's sum then reads 5 where the claim has it read 0. -/
theorem not_linkTimersMoveTheStateTable : ¬ Obligations.LinkTimersMoveTheStateTable := by
  unfold Obligations.LinkTimersMoveTheStateTable
  intro h
  obtain ⟨-, -, -, -, clears⟩ := h beyondState beyondTile .north
  obtain ⟨n, run, zero, -⟩ := clears 1 (by decide) (by decide)
  have sums := fabSums_beyond
  have reads := zero (by rw [sums]; decide) (by rw [sums]; decide)
  obtain ⟨m, ran, five⟩ := prtFabClr_beyond
  obtain rfl := Host.Outcome.next.inj (ran.symm.trans run)
  rw [reads] at five
  exact absurd five (by decide)

end Sys2Proof.Machine
end

section
/-!
SUPPORT. Links of a router: what a change of one link leaves, and what a word that comes back does to it (R273 to R275, R283
to R285).
-/

namespace Sys2Proof.Machine

/-! ### One link among a router's (R270) -/

theorem Dir.key_inj {d e : Dir} (h : d.key = e.key) : d = e := by
  cases d <;> cases e <;> simp_all [Dir.key]

/-- A neighbour's coordinates (R32). -/
theorem step_coordinates {r u : PT} {d : Dir} (h : r.step d = some u) : ∃ x y, u = PT.ofXY x y ∧
    (x = r.px ∧ (y + 1 = r.py ∨ y = r.py + 1) ∨ y = r.py ∧ (x + 1 = r.px ∨ x = r.px + 1)) := by
  cases d <;> dsimp only [PT.step] at h <;> rw [Option.ite_none_left_eq_some] at h <;> obtain ⟨inside, e⟩ := h <;>
    exact ⟨_, _, (Option.some.inj e).symm, by omega⟩

/-- Neighbours have different numbers, at a place off the wafer too. -/
theorem step_key_ne {r u : PT} {d : Dir} (h : r.step d = some u) : u.key ≠ r.key := by
  obtain ⟨x, y, rfl, near⟩ := step_coordinates h
  unfold PT.px PT.py at near
  simp only [PT.key, PT.ofXY]
  omega

section
variable (s : State) (r : PT) (d : Dir) (x : Link)

theorem link_setLink_ne {e : Dir} (h : e ≠ d) : (s.setLink r d x).link r e = s.link r e := by
  rw [State.link, State.setLink, State.router_modRouter_same]
  exact Tab.get_set_ne _ _ _ fun k => h (Dir.key_inj k)

/-- A change of a router beside its links. -/
theorem link_modRouter {f : Router → Router} (hf : (f (s.router r)).links = (s.router r).links) :
    (s.modRouter r f).link r d = s.link r d := by
  rw [State.link, State.router_modRouter_same, hf, State.link]

theorem link_congr {t : State} {u : PT} (h : t.router u = s.router u) (e : Dir) : t.link u e = s.link u e := by
  rw [State.link, h, State.link]

end

/-! ### What a change of a router leaves -/

theorem OnlyRouterOut.trans {r : PT} {a b c : State} (h : OnlyRouterOut r a b) (k : OnlyRouterOut r b c) : OnlyRouterOut r a c := by
  obtain ⟨hs, hr⟩ := h
  obtain ⟨ks, kr⟩ := k
  exact ⟨by rw [ks, hs], fun u hu => (kr u hu).trans (hr u hu)⟩

section
variable (s : State) (r : PT)

theorem onlyRouterOut_modRouter (f : Router → Router) : OnlyRouterOut r s (s.modRouter r f) :=
  ⟨rfl, fun _ hu => s.router_modRouter_ne f hu⟩
theorem onlyRouterOut_setLink (d : Dir) (x : Link) : OnlyRouterOut r s (s.setLink r d x) := onlyRouterOut_modRouter ..
theorem onlyRouterOut_emitOut (o : Output) : OnlyRouterOut r s (s.emitOut o) := ⟨rfl, fun _ _ => rfl⟩

/-- Outputs leave one after another. -/
theorem foldl_emitOut_of {α : Type} (g : State → α → Output) (h : ∀ (s : State) o a, g (s.emitOut o) a = g s a) (l : List α) :
    l.foldl (fun s a => s.emitOut (g s a)) s = { s with out := (l.map (g s)).reverse ++ s.out } := by
  induction l generalizing s with
  | nil => rfl
  | cons a l ih =>
    have same : g (s.emitOut (g s a)) = g s := funext fun b => h s (g s a) b
    rw [List.foldl_cons, ih, same]
    simp [State.emitOut]

theorem foldl_emitOut {α : Type} (g : α → Output) (l : List α) :
    l.foldl (fun s a => s.emitOut (g a)) s = { s with out := (l.map g).reverse ++ s.out } :=
  foldl_emitOut_of s (fun _ => g) (fun _ _ _ => rfl) l

theorem router_foldl_emitOut {α : Type} (g : α → Output) (l : List α) (u : PT) :
    (l.foldl (fun s a => s.emitOut (g a)) s).router u = s.router u := by
  rw [foldl_emitOut]
  rfl

theorem onlyRouterOut_foldl_emitOut {α : Type} (g : α → Output) (l : List α) :
    OnlyRouterOut r s (l.foldl (fun s a => s.emitOut (g a)) s) := by
  rw [foldl_emitOut]
  exact ⟨rfl, fun _ _ => rfl⟩

end

/-! ### A word of bad parity, or at a link that is not live (R275, R283) -/

section
variable {s : State} {r : PT} {d : Dir} {w : BitVec 16}

theorem exec_returnWord : exec (.returnWord r d w) s = .next (s.returnWord r d w) := rfl

theorem returnWord_dead (live : s.linkLive r d = false) : s.returnWord r d w = s := by
  rw [State.returnWord, if_pos live]

variable (live : s.linkLive r d = true)
include live

theorem returnWord_parity (bad : parity 16 w.toNat = true) :
    ((s.link r d).st = .credit → s.returnWord r d w = s.linkOnoff r d) ∧
    ((s.link r d).st = .resync → s.returnWord r d w = s.resyncFail r d) ∧ ((s.link r d).st = .onoff → s.returnWord r d w = s) := by
  have up : ¬ s.linkLive r d = false := by rw [live]; decide
  rw [State.returnWord, if_neg up, if_pos bad]
  refine ⟨fun st => ?_, fun st => ?_, fun st => ?_⟩ <;> rw [st]

omit live in
/-- CREDIT to ONOFF. -/
theorem linkOnoff_spec : (s.linkOnoff r d).link r d = { s.link r d with st := .onoff, resyncGot := [] } ∧
    ((s.linkOnoff r d).router r).onoff = BitVec.ofNat 16 (min ((s.router r).onoff.toNat + 1) 0xFFFF) ∧
    OnlyRouterOut r s (s.linkOnoff r d) := by
  refine ⟨?_, ?_, (onlyRouterOut_setLink ..).trans (onlyRouterOut_modRouter ..)⟩
  · rw [State.linkOnoff, State.link, State.router_modRouter_same]
    exact State.link_setLink_same ..
  · rw [State.linkOnoff, State.router_modRouter_same, State.setLink, State.router_modRouter_same]

/-! ### A word of good parity -/

variable (good : parity 16 w.toNat = false)
include good

/-- The kinds of word that do nothing to the link. -/
theorem returnWord_nothing (kind : w.toNat / 2 ^ 14 = 0 ∨ w.toNat / 2 ^ 14 = 3 ∧ (s.link r d).st ≠ .resync) :
    s.returnWord r d w = s.forward r := by
  have up : ¬ s.linkLive r d = false := by rw [live]; decide
  have even : ¬ parity 16 w.toNat = true := by rw [good]; decide
  have not1 : ¬ w.toNat / 2 ^ 14 = 1 := by omega
  have not2 : ¬ w.toNat / 2 ^ 14 = 2 := by omega
  have not3 : ¬ (w.toNat / 2 ^ 14 = 3 ∧ (s.link r d).st = .resync) := fun h => kind.elim (by omega) fun k => k.2 h.2
  rw [State.returnWord, if_neg up, if_neg even, if_neg not1, if_neg not2, if_neg not3]

theorem returnWord_stop (kind : w.toNat / 2 ^ 14 = 2) :
    s.returnWord r d w = (s.setLink r d { s.link r d with stop := w.extractLsb' 6 8 }).forward r := by
  have up : ¬ s.linkLive r d = false := by rw [live]; decide
  have even : ¬ parity 16 w.toNat = true := by rw [good]; decide
  rw [State.returnWord, if_neg up, if_neg even, if_neg (by omega), if_pos kind]

end

/-! ### Acknowledgements (R273, R274) -/

/-- The credits spent after an acknowledgement word, which may return one. -/
def creditsAfter (w : BitVec 16) (spent : Tab Nat) : Tab Nat :=
  if w.getLsbD 3 then Tab.set 0 spent (w.toNat / 16 % 8) (Tab.get 0 spent (w.toNat / 16 % 8) - 1) else spent

/-- A link whose flit `aseq` is acknowledged, when its replay buffer holds it. -/
def Link.acked (w : BitVec 16) (aseq : BitVec 6) (l : Link) : Link :=
  if l.replay.any fun f => decide (f.lseq = aseq) then
    { l with replay := replayFrom (aseq + 1) l.replay, fails := 0, spent := creditsAfter w l.spent }
  else { l with spent := creditsAfter w l.spent }

theorem get_creditsAfter (w : BitVec 16) (spent : Tab Nat) (v : Nat) : Tab.get 0 (creditsAfter w spent) v =
    if v = w.toNat / 16 % 8 ∧ w.getLsbD 3 = true then Tab.get 0 spent v - 1 else Tab.get 0 spent v := by
  unfold creditsAfter
  cases w.getLsbD 3
  · simp
  · simp only [if_true, and_true, Tab.get_set]
    split
    · next e => rw [e]
    · rfl

section
variable {w : BitVec 16} {aseq : BitVec 6} {l : Link}

theorem acked_found (h : ∃ f ∈ l.replay, f.lseq = aseq) :
    l.acked w aseq = { l with replay := replayFrom (aseq + 1) l.replay, fails := 0, spent := creditsAfter w l.spent } :=
  if_pos (List.any_eq_true.2 (by simpa using h))

theorem acked_unknown (h : ∀ f ∈ l.replay, f.lseq ≠ aseq) : l.acked w aseq = { l with spent := creditsAfter w l.spent } :=
  if_neg fun k => by
    obtain ⟨f, hf, e⟩ := List.any_eq_true.1 k
    exact h f hf (of_decide_eq_true e)

theorem acked_rest : (l.acked w aseq).st = l.st ∧ (l.acked w aseq).spent = creditsAfter w l.spent := by
  unfold Link.acked
  split <;> exact ⟨rfl, rfl⟩

end

/-- A NAK is answered by the flits again, which are counted as retries. -/
def State.replayed (r : PT) (d : Dir) (again : List Flit) (fails : Nat) (s : State) : State :=
  again.foldl (fun s f => s.emitOut (.meshFlit r d f)) ((s.setLink r d { s.link r d with replay := again, fails := fails }).modRouter r
    fun x => { x with retry := BitVec.ofNat 16 (min (x.retry.toNat + again.length) 0xFFFF) })

theorem replayed_spec (s : State) (r : PT) (d : Dir) (again : List Flit) (fails : Nat) : let n := s.replayed r d again fails
    (n.link r d).replay = again ∧ n.out = (again.map fun f => Output.meshFlit r d f).reverse ++ s.out ∧ (n.link r d).fails = fails ∧
      (n.router r).retry = BitVec.ofNat 16 (min ((s.router r).retry.toNat + again.length) 0xFFFF) ∧ OnlyRouterOut r s n := by
  have only := ((onlyRouterOut_setLink s r d { s.link r d with replay := again, fails := fails }).trans (onlyRouterOut_modRouter _ r
    fun x => { x with retry := BitVec.ofNat 16 (min (x.retry.toNat + again.length) 0xFFFF) })).trans
    (onlyRouterOut_foldl_emitOut _ r (fun f => .meshFlit r d f) again)
  have link : (s.replayed r d again fails).link r d = { s.link r d with replay := again, fails := fails } := by
    rw [State.replayed, link_congr _ (router_foldl_emitOut ..), link_modRouter _ r d rfl, State.link_setLink_same]
  have router : ((s.replayed r d again fails).router r).retry =
      BitVec.ofNat 16 (min ((s.router r).retry.toNat + again.length) 0xFFFF) := by
    rw [State.replayed, router_foldl_emitOut, State.router_modRouter_same, State.setLink, State.router_modRouter_same]
  refine ⟨by rw [link], ?_, by rw [link], router, only⟩
  rw [State.replayed, foldl_emitOut]
  rfl

/-- The eighth word of RESYNC: CREDIT, with each VC's credits from its FREE (R285). -/
def Link.resynced (size : Nat) (got : List (Nat × Nat)) (l : Link) : Link :=
  { l with st := .credit, spent := got.foldl (fun t g => Tab.set 0 t g.1 (size - g.2)) [], resyncGot := [], rsFails := 0, slow := false }

/-- Each VC that is named once has spent what its FREE leaves. -/
theorem get_foldl_spent (size : Nat) (got : List (Nat × Nat)) (t : Tab Nat) (once : (got.map (·.1)).Nodup) :
    ∀ g ∈ got, Tab.get 0 (got.foldl (fun t g => Tab.set 0 t g.1 (size - g.2)) t) g.1 = size - g.2 := by
  induction got using List.reverseRecOn with
  | nil => exact fun g hg => absurd hg List.not_mem_nil
  | append_singleton gs k ih =>
    intro g hg
    rw [List.map_append, List.nodup_append] at once
    obtain ⟨first, -, apart⟩ := once
    rw [List.foldl_append, List.foldl_cons, List.foldl_nil]
    rcases List.mem_append.1 hg with old | last
    · rw [Tab.get_set_ne _ _ _ (apart _ (List.mem_map_of_mem old) _ (by simp)), ih first g old]
    · rw [List.mem_singleton.1 last, Tab.get_set_same]

section
variable {s : State} {r : PT} {d : Dir} {w : BitVec 16} (live : s.linkLive r d = true) (good : parity 16 w.toNat = false)
include live good

theorem returnWord_ack (kind : w.toNat / 2 ^ 14 = 1) (positive : w.getLsbD 7 = false) :
    s.returnWord r d w = (s.setLink r d ((s.link r d).acked w (w.extractLsb' 8 6))).forward r := by
  have up : ¬ s.linkLive r d = false := by rw [live]; decide
  have even : ¬ parity 16 w.toNat = true := by rw [good]; decide
  have ack : ¬ w.getLsbD 7 = true := by rw [positive]; decide
  rw [State.returnWord, if_neg up, if_neg even, if_pos kind, if_neg ack]
  refine congrArg (State.forward r) ?_
  rw [Link.acked, apply_ite (s.setLink r d)]
  rfl

theorem returnWord_nak (kind : w.toNat / 2 ^ 14 = 1) (negative : w.getLsbD 7 = true) :
    let l := s.link r d
    let again := replayFrom (w.extractLsb' 8 6) l.replay
    s.returnWord r d w = State.forward r (if again = [] then s
      else if l.fails = 4 ∧ again.length = l.replay.length then s.takeDown r d
      else s.replayed r d again (if again.length = l.replay.length then l.fails + 1 else 1)) := by
  have up : ¬ s.linkLive r d = false := by rw [live]; decide
  have even : ¬ parity 16 w.toNat = true := by rw [good]; decide
  rw [State.returnWord, if_neg up, if_neg even, if_pos kind, if_pos negative]
  rfl

theorem returnWord_resync (kind : w.toNat / 2 ^ 14 = 3) (st : (s.link r d).st = .resync) :
    let got := ((s.link r d).resyncGot.filter fun g => decide (g.1 ≠ w.toNat / 2 ^ 11 % 8)) ++
      [(w.toNat / 2 ^ 11 % 8, w.toNat / 16 % 128)]
    s.returnWord r d w = (s.setLink r d (if got.length = 8 then (s.link r d).resynced (bufferSize r d) got
      else { s.link r d with resyncGot := got })).forward r := by
  have up : ¬ s.linkLive r d = false := by rw [live]; decide
  have even : ¬ parity 16 w.toNat = true := by rw [good]; decide
  dsimp only
  rw [State.returnWord, if_neg up, if_neg even, if_neg (by omega), if_neg (by omega), if_pos ⟨kind, st⟩]
  refine congrArg (State.forward r) ?_
  rw [apply_ite (s.setLink r d)]
  rfl

end

/-- Settles O32, kind of word by kind of word. -/
theorem returnWordsAreTaken : Obligations.ReturnWordsAreTaken := by
  unfold Obligations.ReturnWordsAreTaken
  intro s r d w
  simp only [exec_returnWord]
  refine ⟨fun dead => by rw [returnWord_dead dead], fun live => ⟨fun good => ⟨fun kind => ?idle, fun kind positive => ?ack,
    fun kind negative => ?nak, fun kind => ?stop, fun kind st => ?resync, fun kind st => ?late⟩, fun bad => ?parity⟩⟩
  case idle => rw [returnWord_nothing live good (.inl kind)]
  case late => rw [returnWord_nothing live good (.inr ⟨kind, st⟩)]
  case ack =>
    obtain ⟨st, spent⟩ := acked_rest (w := w) (aseq := w.extractLsb' 8 6) (l := s.link r d)
    refine ⟨_, congrArg _ (returnWord_ack live good kind positive), ?_⟩
    rw [State.link_setLink_same]
    refine ⟨fun found => ?_, fun unknown => ?_, st, fun v => by rw [spent, get_creditsAfter], rfl, onlyRouterOut_setLink ..⟩
    · rw [acked_found found]
      exact ⟨rfl, rfl⟩
    · rw [acked_unknown unknown]
      exact ⟨rfl, rfl⟩
  case nak =>
    have taken := returnWord_nak live good kind negative
    dsimp only at taken
    refine ⟨fun some_ few => ?_, fun some_ fifth all => ?_, fun none_ => ?_⟩
    · rw [if_neg some_, if_neg fun h => few.elim (· h.1) (· h.2)] at taken
      exact ⟨_, congrArg _ taken, replayed_spec ..⟩
    · rw [taken, if_neg some_, if_pos ⟨fifth, all⟩]
    · rw [taken, if_pos none_]
  case stop => exact ⟨_, congrArg _ (returnWord_stop live good kind), State.link_setLink_same .., rfl, onlyRouterOut_setLink ..⟩
  case resync =>
    have taken := returnWord_resync live good kind st
    dsimp only at taken
    refine ⟨fun eighth => ?_, fun fewer => ?_⟩
    · rw [if_pos eighth] at taken
      refine ⟨_, congrArg _ taken, ?_⟩
      rw [State.link_setLink_same]
      exact ⟨rfl, rfl, rfl, fun once => get_foldl_spent _ _ [] once, rfl, onlyRouterOut_setLink ..⟩
    · rw [if_neg fewer] at taken
      exact ⟨_, congrArg _ taken, State.link_setLink_same .., onlyRouterOut_setLink ..⟩
  case parity =>
    obtain ⟨credit, resync, onoff⟩ := returnWord_parity live bad
    exact ⟨fun st => ⟨_, congrArg _ (credit st), linkOnoff_spec⟩, fun st => by rw [resync st], fun st => by rw [onoff st]⟩

end Sys2Proof.Machine
end

section
/-!
SUPPORT. Reception at a port and what a router sends on (R271 to R274, R278, R281, R283 to R286, R290).
-/

namespace Sys2Proof.Machine

/-! ### A change of the receiving direction of one port -/

/-- Only what has left the module and the receiving direction of port `d` of router `r` differ. -/
structure OnlyReceives (r : PT) (d : Dir) (s t : State) : Prop where
  only : OnlyRouterOut r s t
  router : t.router r = { s.router r with links := (t.router r).links }
  ports : ∀ e, e ≠ d → t.link r e = s.link r e
  here : t.link r d = { s.link r d with
    discarding := (t.link r d).discarding, rxSeq := (t.link r d).rxSeq, bufs := (t.link r d).bufs, stopOut := (t.link r d).stopOut }

section
variable {r : PT} {d : Dir} {s t u : State}

theorem OnlyReceives.trans (h : OnlyReceives r d s t) (k : OnlyReceives r d t u) : OnlyReceives r d s u where
  only := h.only.trans k.only
  router := by rw [k.router, h.router]
  ports := fun e he => (k.ports e he).trans (h.ports e he)
  here := by rw [k.here, h.here]

theorem onlyReceives_emitOut (s : State) (r : PT) (d : Dir) (o : Output) : OnlyReceives r d s (s.emitOut o) :=
  ⟨onlyRouterOut_emitOut .., rfl, fun _ _ => rfl, rfl⟩

theorem onlyReceives_setLink (s : State) (r : PT) (d : Dir) {x : Link}
    (hx : x = { s.link r d with discarding := x.discarding, rxSeq := x.rxSeq, bufs := x.bufs, stopOut := x.stopOut }) :
    OnlyReceives r d s (s.setLink r d x) where
  only := onlyRouterOut_setLink ..
  router := by rw [State.setLink, State.router_modRouter_same]
  ports := fun e he => link_setLink_ne s r d x he
  here := by rw [State.link_setLink_same]; exact hx

/-! What such a change leaves: where the router's packets go, and whether they may. -/

theorem OnlyReceives.routerDark (h : OnlyReceives r d s t) (x : PT) : t.routerDark x = s.routerDark x := by
  rw [h.only.1]; rfl
theorem OnlyReceives.gatewayDark (h : OnlyReceives r d s t) (x : PT) (e : Dir) : t.gatewayDark x e = s.gatewayDark x e := by
  rw [h.only.1]; rfl

/-- The sending direction of each port. -/
theorem OnlyReceives.sends (h : OnlyReceives r d s t) (e : Dir) : (t.link r e).st = (s.link r e).st ∧
    (t.link r e).spent = (s.link r e).spent ∧ (t.link r e).stop = (s.link r e).stop ∧ (t.link r e).txSeq = (s.link r e).txSeq ∧
    (t.link r e).replay = (s.link r e).replay := by
  by_cases he : e = d
  · rw [he, h.here]
    exact ⟨rfl, rfl, rfl, rfl, rfl⟩
  · rw [h.ports e he]
    exact ⟨rfl, rfl, rfl, rfl, rfl⟩

theorem OnlyReceives.hopDead (h : OnlyReceives r d s t) (e : Dir) : t.hopDead r e = s.hopDead r e := by
  obtain ⟨st, -⟩ := h.sends e
  simp only [State.hopDead, st, h.routerDark, h.gatewayDark]

theorem OnlyReceives.linkLive (h : OnlyReceives r d s t) (e : Dir) : t.linkLive r e = s.linkLive r e := by
  simp only [State.linkLive, h.hopDead, h.routerDark]

theorem OnlyReceives.maySend (h : OnlyReceives r d s t) (e : Dir) (vc n : Nat) : t.maySend r e vc n = s.maySend r e vc n := by
  obtain ⟨st, spent, stop, -, replay⟩ := h.sends e
  simp only [State.maySend, h.linkLive, st, spent, stop, replay]

theorem OnlyReceives.wayOf (h : OnlyReceives r d s t) (vc : Nat) (q : Quad) : t.wayOf r vc q = s.wayOf r vc q := by
  have version : t.comp.escapeVer = s.comp.escapeVer := by rw [h.only.1]
  simp only [State.wayOf, State.escapeWay, State.escapePort, h.hopDead, version]

theorem OnlyReceives.senderState (h : OnlyReceives r d s t) (e : Dir) : t.senderState r e = s.senderState r e := by
  unfold State.senderState
  cases next : r.step e with
  | none => exact (h.sends e).1
  | some u => exact congrArg Link.st (link_congr s (h.only.2 u (step_key_ne next)) e.back)

theorem OnlyReceives.waiting_tile (h : OnlyReceives r d s t) (vc : Nat) : t.waiting r none vc = s.waiting r none vc := by
  rw [State.waiting, h.router, State.waiting]

theorem OnlyReceives.waiting_port (h : OnlyReceives r d s t) {e : Dir} (he : e ≠ d) (vc : Nat) :
    t.waiting r (some e) vc = s.waiting r (some e) vc := by
  rw [State.waiting, h.ports e he, State.waiting]

end

/-! ### Buffers (R281, R284) -/

theorem flit_vc_lt (f : Flit) : f.vc < 8 := by
  have := f.hdr.isLt
  unfold Flit.vc
  omega

theorem getLsbD_vcMask {v vc : Nat} (h : vc < 8) : ((1 : BitVec 8) <<< vc).getLsbD v = decide (v = vc) := by
  have power : (1 : BitVec 8) <<< vc = BitVec.twoPow 8 vc := rfl
  rw [power, BitVec.getLsbD_twoPow]
  simp [h, eq_comm]

section
variable (s : State) (r : PT) (d : Dir) {vc : Nat} (hv : vc < 8)
include hv

/-- The STOP bit of the VC follows its free buffers. -/
theorem stopBit_same : (s.stopBit r d vc).getLsbD vc =
    let free := bufferSize r d - (Tab.get [] (s.link r d).bufs vc).length
    if free ≤ (stopLimits (bufferSize r d)).1 then true
    else if (stopLimits (bufferSize r d)).2 ≤ free then false else (s.link r d).stopOut.getLsbD vc := by
  dsimp only [State.stopBit]
  split
  · rw [BitVec.getLsbD_or, getLsbD_vcMask hv]
    simp
  · split
    · rw [BitVec.getLsbD_and, BitVec.getLsbD_not, getLsbD_vcMask hv]
      simp
    · rfl

/-- Every other STOP bit is left. -/
theorem stopBit_other {v : Nat} (h : v ≠ vc) : (s.stopBit r d vc).getLsbD v = (s.link r d).stopOut.getLsbD v := by
  by_cases h8 : v < 8
  · unfold State.stopBit
    dsimp only
    split
    · rw [BitVec.getLsbD_or, getLsbD_vcMask hv]
      simp [h]
    · split
      · rw [BitVec.getLsbD_and, BitVec.getLsbD_not, getLsbD_vcMask hv]
        simp [h, h8]
      · rfl
  · rw [BitVec.getLsbD_of_ge _ _ (by omega), BitVec.getLsbD_of_ge _ _ (by omega)]

end

/-! ### What a receiver sends back (R274, R284) -/

/-- The stop word that follows an acknowledgement in ONOFF and RESYNC. -/
def stopWords (r : PT) (d : Dir) (st : LinkState) (stop : BitVec 8) : List Output :=
  match st with
  | .onoff | .resync => [Output.returnWord r d (stopWord stop)]
  | _ => []

theorem sendBack_spec (s : State) (r : PT) (d : Dir) (vc : Nat) (credit : Bool) : let n := s.sendBack r d vc credit
    OnlyReceives r d s n ∧ n.link r d = { s.link r d with stopOut := s.stopBit r d vc } ∧
      n.out = stopWords r d (s.senderState r d) (s.stopBit r d vc) ++
        .returnWord r d (ackWord ((s.link r d).rxSeq - 1) false vc credit) :: s.out := by
  have linked : OnlyReceives r d s (s.setLink r d { s.link r d with stopOut := s.stopBit r d vc }) := onlyReceives_setLink s r d rfl
  have acked := linked.trans (onlyReceives_emitOut _ r d
    (.returnWord r d (ackWord (((s.setLink r d { s.link r d with stopOut := s.stopBit r d vc }).link r d).rxSeq - 1) false vc credit)))
  have here : (s.setLink r d { s.link r d with stopOut := s.stopBit r d vc }).link r d =
      { s.link r d with stopOut := s.stopBit r d vc } := State.link_setLink_same ..
  dsimp only
  rw [State.sendBack, acked.senderState d]
  have kept : (s.setLink r d { s.link r d with stopOut := s.stopBit r d vc }).out = s.out := rfl
  generalize (s.setLink r d { s.link r d with stopOut := s.stopBit r d vc }) = t at *
  have out (o : Output) : (t.emitOut o).link r d = t.link r d := rfl
  cases s.senderState r d <;> dsimp only
  case onoff | resync =>
    exact ⟨acked.trans (onlyReceives_emitOut ..), here, by rw [State.emitOut_out, out, here, State.emitOut_out, kept]; rfl⟩
  case credit | down => exact ⟨acked, here, by rw [State.emitOut_out, here, kept]; rfl⟩

/-! ### Receiving a flit (R274) -/

/-- The OP of a descriptor is its highest field (R277). -/
theorem descField_op (q : Quad) : descField q 127 123 = q.toNat / 2 ^ 123 := by
  have := q.isLt
  unfold descField
  omega

/-- A good flit has joined the buffer of its VC and has been acknowledged. -/
def State.buffered (r : PT) (d : Dir) (f : Flit) (s : State) : State :=
  let t := s.setLink r d { s.link r d with discarding := false, rxSeq := (s.link r d).rxSeq + 1 }
  (t.setWaiting r (some d) f.vc (t.waiting r (some d) f.vc ++ [f])).sendBack r d f.vc false

/-- A SYNC flit is answered with a resync word for each VC (R285). -/
def State.synced (r : PT) (d : Dir) (f : Flit) (s : State) : State :=
  let t := (s.setLink r d { s.link r d with discarding := false, rxSeq := (s.link r d).rxSeq + 1 }).emitOut
    (.returnWord r d (ackWord f.lseq false f.vc true))
  (List.range 8).foldl (fun s v => s.emitOut (.returnWord r d (resyncWord v (bufferSize r d - (s.waiting r (some d) v).length)))) t

section
variable {s : State} {r : PT} {d : Dir} {f : Flit}

theorem exec_linkFlitReceive : exec (.linkFlitReceive r d f) s = .next (s.receiveFlit r d f) := rfl
theorem exec_sync : exec (.sync r d f) s = .next (s.receiveFlit r d f) := rfl

theorem receiveFlit_ignored (h : s.linkLive r d = false ∨ (s.link r d).discarding = true ∧ f.lseq ≠ (s.link r d).rxSeq) :
    s.receiveFlit r d f = s := by
  rw [State.receiveFlit]
  split
  · rfl
  · next live => rw [if_pos (h.resolve_left live)]

variable (live : s.linkLive r d = true)
include live

theorem receiveFlit_bad (bad : f.checks = false ∨ f.lseq ≠ (s.link r d).rxSeq) (first : (s.link r d).discarding = false) :
    s.receiveFlit r d f = (s.setLink r d { s.link r d with discarding := true }).emitOut
      (.returnWord r d (ackWord (s.link r d).rxSeq true 0 false)) := by
  rw [State.receiveFlit, if_neg (by rw [live]; decide), if_neg (by rw [first]; exact fun h => nomatch h.1), if_pos bad]

variable (checks : f.checks = true) (expected : f.lseq = (s.link r d).rxSeq)
include checks expected

theorem receiveFlit_sync (single : f.ft = 3) (op : f.data.toNat / 2 ^ 123 = 0x1F) : s.receiveFlit r d f = s.synced r d f := by
  rw [State.receiveFlit, if_neg (by rw [live]; decide), if_neg fun h => h.2 expected,
    if_neg (by rw [checks]; exact fun h => h.elim (nomatch ·) fun h => h expected), if_pos ⟨single, by rw [descField_op, op]⟩]
  rfl

theorem receiveFlit_good (other : f.ft ≠ 3 ∨ f.data.toNat / 2 ^ 123 ≠ 0x1F) :
    s.receiveFlit r d f = (s.buffered r d f).forward r := by
  have notSync : ¬ (f.ft = 3 ∧ descField f.data 127 123 = 0x1F) := by
    rw [descField_op]
    exact fun h => other.elim (· h.1) (· h.2)
  rw [State.receiveFlit, if_neg (by rw [live]; decide), if_neg fun h => h.2 expected,
    if_neg (by rw [checks]; exact fun h => h.elim (nomatch ·) fun h => h expected), if_neg notSync]
  rfl

end

/-- What the buffering of a flit does to its port. -/
theorem buffered_spec (s : State) (r : PT) (d : Dir) (f : Flit) : let n := s.buffered r d f
    OnlyReceives r d s n ∧
      n.link r d = { s.link r d with
        discarding := false, rxSeq := (s.link r d).rxSeq + 1
        bufs := Tab.set [] (s.link r d).bufs f.vc (Tab.get [] (s.link r d).bufs f.vc ++ [f]), stopOut := (n.link r d).stopOut } ∧
      (∀ v, v ≠ f.vc → (n.link r d).stopOut.getLsbD v = (s.link r d).stopOut.getLsbD v) ∧
      (n.link r d).stopOut.getLsbD f.vc =
        (let free := bufferSize r d - ((Tab.get [] (s.link r d).bufs f.vc).length + 1)
         if free ≤ (stopLimits (bufferSize r d)).1 then true
         else if (stopLimits (bufferSize r d)).2 ≤ free then false else (s.link r d).stopOut.getLsbD f.vc) ∧
      n.out = stopWords r d (s.senderState r d) (n.link r d).stopOut ++
        .returnWord r d (ackWord (s.link r d).rxSeq false f.vc false) :: s.out := by
  let l : Link := { s.link r d with discarding := false, rxSeq := (s.link r d).rxSeq + 1 }
  let b : Link := { l with bufs := Tab.set [] l.bufs f.vc (Tab.get [] l.bufs f.vc ++ [f]) }
  have expects : OnlyReceives r d s (s.setLink r d l) := onlyReceives_setLink s r d rfl
  have l_here : (s.setLink r d l).link r d = l := State.link_setLink_same ..
  have joins : OnlyReceives r d s ((s.setLink r d l).setLink r d b) :=
    expects.trans (onlyReceives_setLink _ r d (by rw [l_here]))
  have b_here : ((s.setLink r d l).setLink r d b).link r d = b := State.link_setLink_same ..
  have b_out : ((s.setLink r d l).setLink r d b).out = s.out := rfl
  have joined : (s.setLink r d l).setWaiting r (some d) f.vc ((s.setLink r d l).waiting r (some d) f.vc ++ [f]) =
      (s.setLink r d l).setLink r d b := by
    rw [State.setWaiting, State.waiting, l_here]
  have n_eq : s.buffered r d f = ((s.setLink r d l).setLink r d b).sendBack r d f.vc false := by rw [← joined]; rfl
  rw [n_eq]
  generalize ((s.setLink r d l).setLink r d b) = t at *
  obtain ⟨only, here, out⟩ := sendBack_spec t r d f.vc false
  have same := stopBit_same t r d (flit_vc_lt f)
  have others {v : Nat} (h : v ≠ f.vc) := stopBit_other t r d (flit_vc_lt f) h
  have count : (Tab.get [] b.bufs f.vc).length = (Tab.get [] (s.link r d).bufs f.vc).length + 1 := by
    rw [Tab.get_set_same, List.length_append, List.length_singleton]
  have seq : b.rxSeq - 1 = (s.link r d).rxSeq := BitVec.add_sub_cancel ..
  rw [b_here, count] at same
  rw [b_here] at here others
  rw [b_here, joins.senderState d, seq, b_out] at out
  generalize t.stopBit r d f.vc = stop at *
  dsimp only
  rw [here, out]
  exact ⟨joins.trans only, rfl, fun _ h => others h, same, rfl⟩

end Sys2Proof.Machine
end

section
/-!
SUPPORT. What a router sends on: nothing while no packet has come whole, and the one packet of a single flit (R278, R283, R286,
R290).
-/

namespace Sys2Proof.Machine

/-! ### Folds that change the state once -/

section
variable {α σ : Type} {g : σ → α → σ} {l : List α}

theorem foldl_fixed {s : σ} (h : ∀ a ∈ l, g s a = s) : l.foldl g s = s := by
  induction l with
  | nil => rfl
  | cons a l ih =>
    rw [List.foldl_cons, h a List.mem_cons_self]
    exact ih fun b hb => h b (List.mem_cons_of_mem _ hb)

/-- Only the step of `a` changes `s`, and then no step does. -/
theorem foldl_once {s n : σ} {a : α} (ha : a ∈ l) (before : ∀ b ∈ l, b ≠ a → g s b = s) (here : g s a = n)
    (after : ∀ b ∈ l, g n b = n) : l.foldl g s = n := by
  induction l with
  | nil => exact absurd ha List.not_mem_nil
  | cons b l ih =>
    have rest : ∀ c ∈ l, g n c = n := fun c hc => after c (List.mem_cons_of_mem _ hc)
    rw [List.foldl_cons]
    by_cases e : b = a
    · rw [e, here, foldl_fixed rest]
    · rw [before b List.mem_cons_self e]
      exact ih ((List.mem_cons.1 ha).resolve_left (Ne.symm e)) (fun c hc => before c (List.mem_cons_of_mem _ hc)) rest

end

/-! ### A router with no whole packet (R282) -/

/-- No buffer of router `r` holds a whole packet. -/
def State.noWhole (s : State) (r : PT) : Prop := ∀ i v, v < 8 → cutPacket (s.waiting r i v) = none

section
variable {s n : State} {r : PT}

theorem forwardFrom_incomplete {i : Option Dir} {vc : Nat} (h : cutPacket (s.waiting r i vc) = none) (fuel : Nat) :
    s.forwardFrom r i vc fuel = s := by
  cases fuel with
  | zero => rfl
  | succ fuel => rw [State.forwardFrom, h]

theorem forwardFrom_noWhole (h : s.noWhole r) (i : Option Dir) :
    (List.range 8).foldl (fun s vc => s.forwardFrom r i vc (s.waiting r i vc).length) s = s :=
  foldl_fixed fun vc hvc => forwardFrom_incomplete (h i vc (List.mem_range.1 hvc)) _

theorem forward_noWhole (h : s.noWhole r) : s.forward r = s := foldl_fixed fun i _ => forwardFrom_noWhole h i

/-- Only the buffer of VC `vc` of port `d` holds whole packets, and once they are gone none is left. -/
theorem forward_one {d : Dir} {vc : Nat} (hvc : vc < 8)
    (others : ∀ i v, v < 8 → (i, v) ≠ (some d, vc) → cutPacket (s.waiting r i v) = none)
    (here : s.forwardFrom r (some d) vc (s.waiting r (some d) vc).length = n) (after : n.noWhole r) : s.forward r = n := by
  have listed : some d ∈ [none, some Dir.north, some Dir.east, some Dir.south, some Dir.west] := by cases d <;> decide
  refine foldl_once listed (fun i _ hi => ?_) ?_ fun i _ => forwardFrom_noWhole after i
  · exact foldl_fixed fun v hv => forwardFrom_incomplete (others i v (List.mem_range.1 hv) fun e => hi (Prod.mk.inj e).1) _
  · exact foldl_once (List.mem_range.2 hvc)
      (fun v hv e => forwardFrom_incomplete (others _ v (List.mem_range.1 hv) fun k => e (Prod.mk.inj k).2) _) here
      fun v hv => forwardFrom_incomplete (after (some d) v (List.mem_range.1 hv)) _

end

/-! ### A packet of a single flit, alone in its buffer (R278, R286, R290) -/

theorem cutPacket_single {f : Flit} (single : f.ft = 3) : cutPacket [f] = some ([f], []) := by
  have last : f.isLast = true := by rw [Flit.isLast, single]; decide
  rw [cutPacket, if_pos last]

section
variable {s : State} {r : PT} {d : Dir} {f : Flit}

section
variable (alone : s.waiting r (some d) f.vc = [f]) (single : f.ft = 3)
include alone single

/-- A reserved OP: dropped. -/
theorem forwardFrom_reserved (reserved : opReserved (f.data.toNat / 2 ^ 123) = true) :
    s.forwardFrom r (some d) f.vc 1 = (s.leave r (some d) f.vc 1 []).badOp r := by
  have head : ¬ f.isHead = false := by rw [Flit.isHead, single]; decide
  rw [State.forwardFrom, alone, cutPacket_single single]
  dsimp only
  rw [if_neg head, descField_op, if_pos reserved]
  rfl

variable (known : opReserved (f.data.toNat / 2 ^ 123) = false)
include known

/-- At its end: it leaves the fabric. -/
theorem forwardFrom_eject (way : s.wayOf r f.vc f.data = .eject) : s.forwardFrom r (some d) f.vc 1 =
    (s.leave r (some d) f.vc 1 []).arrived (s.bayOwner r.bay) [f] := by
  have head : ¬ f.isHead = false := by rw [Flit.isHead, single]; decide
  rw [State.forwardFrom, alone, cutPacket_single single]
  dsimp only
  rw [if_neg head, descField_op, if_neg (by rw [known]; decide), way]
  rfl

/-- On its way: it goes out of the next port. -/
theorem forwardFrom_go {e : Dir} {c : Nat} (way : s.wayOf r f.vc f.data = .go e c false) (may : s.maySend r e c 1 = true) :
    s.forwardFrom r (some d) f.vc 1 = (s.leave r (some d) f.vc 1 []).sendOut r e c [f] := by
  have head : ¬ f.isHead = false := by rw [Flit.isHead, single]; decide
  rw [State.forwardFrom, alone, cutPacket_single single]
  dsimp only
  rw [if_neg head, descField_op, if_neg (by rw [known]; decide), way]
  dsimp only
  exact if_pos may

end

/-! ### A single flit that leaves as soon as it has come (R274, R281) -/

/-- The state between the arrival of a single flit and its way on: its buffer is empty again and its credit has gone back. -/
def State.passed (r : PT) (d : Dir) (f : Flit) (s : State) : State := (s.buffered r d f).leave r (some d) f.vc 1 []

/-- The buffer that a flit joins, and the others. -/
theorem waiting_buffered (i : Option Dir) (v : Nat) : (s.buffered r d f).waiting r i v =
    if i = some d ∧ v = f.vc then s.waiting r i v ++ [f] else s.waiting r i v := by
  obtain ⟨only, here, -⟩ := buffered_spec s r d f
  match i with
  | none => rw [only.waiting_tile, if_neg (fun h => nomatch h.1)]
  | some e =>
    by_cases he : e = d
    · subst he
      rw [State.waiting, here, State.waiting]
      simp only [Tab.get_set, true_and]
      split
      · next hv => rw [hv]
      · rfl
    · rw [only.waiting_port he, if_neg fun h => he (Option.some.inj h.1)]

theorem buffered_alone (empty : s.waiting r (some d) f.vc = []) : (s.buffered r d f).waiting r (some d) f.vc = [f] := by
  rw [waiting_buffered, if_pos ⟨rfl, rfl⟩, empty]
  rfl

/-- Emptying the buffer of a VC, and the credit of one flit. -/
theorem leave_spec (s : State) (r : PT) (d : Dir) (vc : Nat) (credit : s.senderState r d = .credit) :
    let u := s.leave r (some d) vc 1 []
    OnlyReceives r d s u ∧ u.out = .returnWord r d (ackWord ((s.link r d).rxSeq - 1) false vc true) :: s.out ∧
      ∀ i v, u.waiting r i v = if i = some d ∧ v = vc then [] else s.waiting r i v := by
  have emptied : OnlyReceives r d s (s.setWaiting r (some d) vc []) := onlyReceives_setLink s r d rfl
  have here : (s.setWaiting r (some d) vc []).link r d = { s.link r d with bufs := Tab.set [] (s.link r d).bufs vc [] } :=
    State.link_setLink_same ..
  have out : (s.setWaiting r (some d) vc []).out = s.out := rfl
  have u_eq : s.leave r (some d) vc 1 [] = (s.setWaiting r (some d) vc []).sendBack r d vc true := rfl
  dsimp only
  rw [u_eq]
  generalize s.setWaiting r (some d) vc [] = t at *
  obtain ⟨only, link, words⟩ := sendBack_spec t r d vc true
  rw [emptied.senderState, credit, here, out] at words
  rw [here] at link
  refine ⟨emptied.trans only, words, fun i v => ?_⟩
  match i with
  | none => rw [(emptied.trans only).waiting_tile, if_neg (fun h => nomatch h.1)]
  | some e =>
    by_cases he : e = d
    · subst he
      rw [State.waiting, link, State.waiting]
      simp only [Tab.get_set, true_and]
    · rw [(emptied.trans only).waiting_port he, if_neg fun h => he (Option.some.inj h.1)]

section
variable (credit : s.senderState r d = .credit) (empty : s.waiting r (some d) f.vc = [])
include credit empty

theorem passed_spec : OnlyReceives r d s (s.passed r d f) ∧
    (s.passed r d f).out = .returnWord r d (ackWord (s.link r d).rxSeq false f.vc true) ::
      .returnWord r d (ackWord (s.link r d).rxSeq false f.vc false) :: s.out ∧
    ∀ i v, (s.passed r d f).waiting r i v = s.waiting r i v := by
  obtain ⟨only, here, -, -, words⟩ := buffered_spec s r d f
  rw [credit] at words
  obtain ⟨left, back, waits⟩ := leave_spec (s.buffered r d f) r d f.vc (by rw [only.senderState, credit])
  refine ⟨only.trans left, ?_, fun i v => ?_⟩
  · have seq : ((s.buffered r d f).link r d).rxSeq - 1 = (s.link r d).rxSeq := by
      rw [here]
      exact BitVec.add_sub_cancel ..
    rw [State.passed, back, seq, words]
    rfl
  · rw [State.passed, waits, waiting_buffered]
    split
    · next h => rw [h.1, h.2, empty]
    · rfl

variable (live : s.linkLive r d = true) (checks : f.checks = true) (expected : f.lseq = (s.link r d).rxSeq)
  (other : f.data.toNat / 2 ^ 123 ≠ 0x1F) (quiet : s.noWhole r) {n : State}
include live checks expected other quiet

omit credit in
/-- What is left to show for a single flit: what the router does with it after its arrival. -/
theorem receiveFlit_single (sent : (s.buffered r d f).forwardFrom r (some d) f.vc 1 = n) (after : n.noWhole r) :
    s.receiveFlit r d f = n := by
  rw [receiveFlit_good live checks expected (.inr other)]
  have alone := buffered_alone empty
  refine forward_one (flit_vc_lt f) (fun i v hv h => ?_) (by rw [alone]; exact sent) after
  rw [waiting_buffered, if_neg fun k => h (by rw [k.1, k.2])]
  exact quiet i v hv

end

/-! ### What sending, dropping and SYNC do -/

theorem sendFlit_link (s : State) (r : PT) (e : Dir) (c : Nat) (f : Flit) : (s.sendFlit r e c f).link r e =
    { s.link r e with txSeq := (s.link r e).txSeq + 1, replay := (s.link r e).replay ++ [f.onLink c (s.link r e).txSeq]
                      spent := Tab.set 0 (s.link r e).spent c (Tab.get 0 (s.link r e).spent c + 1) } :=
  State.link_setLink_same s r e _

theorem sendFlit_waiting (s : State) (r : PT) (e : Dir) (c : Nat) (f : Flit) (i : Option Dir) (v : Nat) :
    (s.sendFlit r e c f).waiting r i v = s.waiting r i v := by
  match i with
  | none =>
    have inject : ((s.sendFlit r e c f).router r).inject = (s.router r).inject := by
      show ((s.setLink r e _).router r).inject = _
      rw [State.setLink, State.router_modRouter_same]
    rw [State.waiting, inject, State.waiting]
  | some k =>
    by_cases hk : k = e
    · rw [hk, State.waiting, sendFlit_link, State.waiting]
    · rw [State.waiting, State.waiting]
      exact congrArg (fun l : Link => Tab.get [] l.bufs v) (link_setLink_ne s r e _ hk)

theorem onlyRouterOut_sendFlit (s : State) (r : PT) (e : Dir) (c : Nat) (f : Flit) : OnlyRouterOut r s (s.sendFlit r e c f) :=
  (onlyRouterOut_setLink ..).trans (onlyRouterOut_emitOut ..)

/-- A flit of good FCRC that is a packet under way is at its end. -/
theorem arrived_known {part : Nat} {fs : List Flit} (good : fs.all Flit.crcGood = true) (known : s.comp.net.any (Packet.isOf fs) = true) :
    s.arrived part fs = s := by
  rw [State.arrived.eq_def, if_neg (by rw [good]; decide), if_pos known]

theorem crcGood_of_checks (checks : f.checks = true) : f.crcGood = true := (Bool.and_eq_true_iff.1 checks).1

/-- A packet with a reserved OP is counted, its moment is kept, and the event follows. -/
def State.dropped (r : PT) (s : State) : State :=
  (s.countEpdisc r).modRouter r fun x => { x with badOps := recent s.now dayNs x.badOps ++ [s.now] }

/-- The first one in 24 hours raises the event only. -/
theorem badOp_first (first : recent s.now dayNs (s.router r).badOps = []) :
    s.badOp r = (s.dropped r).signal Ev.fabBadOp (s.bayOwner r.bay) [r.bay, r.col, r.row] := by
  have counted : ((s.countEpdisc r).router r).badOps = (s.router r).badOps := by rw [State.countEpdisc, State.router_modRouter_same]
  have now : (s.countEpdisc r).now = s.now := rfl
  have dropped : s.dropped r = (s.countEpdisc r).modRouter r fun x => { x with badOps := [s.now] } := by
    have : (recent s.now dayNs ((s.countEpdisc r).router r).badOps ++ [s.now]) = [s.now] := by rw [counted, first]; rfl
    rw [State.dropped, State.modRouter, this]
    rfl
  rw [State.badOp, counted, now, first, List.nil_append, if_neg (by rw [List.length_singleton]; decide), dropped]
  rfl

theorem dropped_spec (s : State) (r : PT) : OnlyRouterOut r s (s.dropped r) ∧ (s.dropped r).out = s.out ∧
    ((s.dropped r).router r).epdisc = BitVec.ofNat 32 (min ((s.router r).epdisc.toNat + 1) 0xFFFFFFFF) ∧
    ∀ i v, (s.dropped r).waiting r i v = s.waiting r i v := by
  have router : (s.dropped r).router r = { s.router r with
      epdisc := BitVec.ofNat 32 (min ((s.router r).epdisc.toNat + 1) 0xFFFFFFFF)
      badOps := recent s.now dayNs (s.router r).badOps ++ [s.now] } := by
    rw [State.dropped, State.router_modRouter_same, State.countEpdisc, State.router_modRouter_same]
  refine ⟨(onlyRouterOut_modRouter ..).trans (onlyRouterOut_modRouter ..), rfl, by rw [router], fun i v => ?_⟩
  cases i with
  | none => rw [State.waiting, router, State.waiting]
  | some e => rw [State.waiting, State.link, router, State.waiting, State.link]

theorem waiting_congr {n : State} (h : n.router r = s.router r) (i : Option Dir) (v : Nat) :
    n.waiting r i v = s.waiting r i v := by
  cases i with
  | none => rw [State.waiting, h, State.waiting]
  | some e => rw [State.waiting, link_congr s h, State.waiting]

/-- SYNC: the resync words tell the free buffers of each VC. -/
theorem synced_spec (s : State) (r : PT) (d : Dir) (f : Flit) : let n := s.synced r d f
    n.link r d = { s.link r d with discarding := false, rxSeq := (s.link r d).rxSeq + 1 } ∧
      n.out = ((List.range 8).map fun v =>
        Output.returnWord r d (resyncWord v (bufferSize r d - (Tab.get [] (s.link r d).bufs v).length))).reverse ++
          .returnWord r d (ackWord f.lseq false f.vc true) :: s.out ∧ OnlyRouterOut r s n := by
  let l : Link := { s.link r d with discarding := false, rxSeq := (s.link r d).rxSeq + 1 }
  have link : (s.setLink r d l).link r d = l := State.link_setLink_same s r d l
  have words := foldl_emitOut_of ((s.setLink r d l).emitOut (.returnWord r d (ackWord f.lseq false f.vc true)))
    (fun s v => Output.returnWord r d (resyncWord v (bufferSize r d - (s.waiting r (some d) v).length))) (fun _ _ _ => rfl) (List.range 8)
  have waits (v : Nat) : ((s.setLink r d l).emitOut (.returnWord r d (ackWord f.lseq false f.vc true))).waiting r (some d) v =
      Tab.get [] (s.link r d).bufs v := by
    show Tab.get [] ((s.setLink r d l).link r d).bufs v = _
    rw [link]
  have synced : s.synced r d f = _ := words
  simp only [waits] at synced
  refine ⟨?_, ?_, ?_⟩
  · rw [synced]
    exact link
  · rw [synced]
    rfl
  · rw [synced]
    exact ⟨rfl, (onlyRouterOut_setLink s r d l).2⟩

/-! ### The three ways of a single flit (R278, R286, R290) -/

section
variable {s : State} {r : PT} {d : Dir} {f : Flit} (credit : s.senderState r d = .credit) (empty : s.waiting r (some d) f.vc = [])
  (live : s.linkLive r d = true) (checks : f.checks = true) (expected : f.lseq = (s.link r d).rxSeq)
  (single : f.ft = 3) (other : f.data.toNat / 2 ^ 123 ≠ 0x1F) (quiet : s.noWhole r)
include credit empty live checks expected single other quiet

/-- It leaves on its next hop. -/
theorem receiveFlit_go {e : Dir} {c : Nat} (known : opReserved (f.data.toNat / 2 ^ 123) = false)
    (way : s.wayOf r f.vc f.data = .go e c false) (may : s.maySend r e c 1 = true) (inside : (r.step e).isSome = true) :
    s.receiveFlit r d f = (s.passed r d f).sendFlit r e c f := by
  obtain ⟨-, -, waits⟩ := passed_spec credit empty
  have only := (buffered_spec s r d f).1
  refine receiveFlit_single empty live checks expected other quiet ?_ fun i v hv => by rw [sendFlit_waiting, waits]; exact quiet i v hv
  have alone := buffered_alone empty
  rw [forwardFrom_go alone single known (by rw [only.wayOf, way]) (by rw [only.maySend, may]), State.sendOut,
    if_neg (by rw [Option.isNone_eq_false_iff.2 inside]; decide)]
  rfl

/-- It leaves the fabric at its end. -/
theorem receiveFlit_eject (known : opReserved (f.data.toNat / 2 ^ 123) = false) (way : s.wayOf r f.vc f.data = .eject)
    (sent : s.comp.net.any (Packet.isOf [f]) = true) : s.receiveFlit r d f = s.passed r d f := by
  obtain ⟨passed, -, waits⟩ := passed_spec credit empty
  have only := (buffered_spec s r d f).1
  refine receiveFlit_single empty live checks expected other quiet ?_ fun i v hv => by rw [waits]; exact quiet i v hv
  have alone := buffered_alone empty
  have good : [f].all Flit.crcGood = true := by simp [crcGood_of_checks checks]
  have net : (s.passed r d f).comp.net = s.comp.net := by rw [passed.only.1]
  rw [forwardFrom_eject alone single known (by rw [only.wayOf, way])]
  exact arrived_known good (by rw [← sent, ← net]; rfl)

/-- It is dropped. -/
theorem receiveFlit_reserved (reserved : opReserved (f.data.toNat / 2 ^ 123) = true) (first : recent s.now dayNs (s.router r).badOps = []) :
    s.receiveFlit r d f = ((s.passed r d f).dropped r).signal Ev.fabBadOp (s.bayOwner r.bay) [r.bay, r.col, r.row] := by
  obtain ⟨passed, -, waits⟩ := passed_spec credit empty
  have alone := buffered_alone empty
  have moment : recent (s.passed r d f).now dayNs ((s.passed r d f).router r).badOps = [] := by
    rw [passed.router, ← first, passed.only.1]
    rfl
  have owner : (s.passed r d f).bayOwner r.bay = s.bayOwner r.bay := by rw [passed.only.1]; rfl
  refine receiveFlit_single empty live checks expected other quiet ?_ fun i v hv => ?_
  · rw [forwardFrom_reserved alone single reserved, ← owner]
    exact badOp_first moment
  · have event := signal_spec Ev.fabBadOp (s.bayOwner r.bay) [r.bay, r.col, r.row] ((s.passed r d f).dropped r)
    obtain ⟨-, -, -, still⟩ := dropped_spec (s.passed r d f) r
    have router : (((s.passed r d f).dropped r).signal Ev.fabBadOp (s.bayOwner r.bay) [r.bay, r.col, r.row]).router r =
        ((s.passed r d f).dropped r).router r := by rw [State.router, event.comp (by decide), event.bay, State.router]
    rw [waiting_congr router, still, waits]
    exact quiet i v hv

end

end

/-- Settles O31, by what the receiver finds: a good flit, SYNC, a bad one, or one it has no ear for. -/
theorem linkReception : Obligations.LinkReception := by
  unfold Obligations.LinkReception
  intro s r d f
  simp only [exec_linkFlitReceive, exec_sync]
  refine ⟨?good, forward_noWhole, ?single, ?sync, ?bad, ?ignored⟩
  case good =>
    rintro ⟨live, checks, expected⟩ other
    obtain ⟨only, here, others, bit, words⟩ := buffered_spec s r d f
    refine ⟨_, congrArg _ (receiveFlit_good live checks expected other), only.only, here, others, bit, ?_⟩
    rw [words, expected]
    cases s.senderState r d <;> rfl
  case single =>
    rintro ⟨live, checks, expected⟩ single other credit empty quiet
    obtain ⟨passed, words, waits⟩ := passed_spec (f := f) credit empty
    rw [← expected] at words
    refine ⟨fun e c known way may inside => ?_, fun known way sent => ?_, fun reserved first => ?_⟩
    · obtain ⟨-, spent, -, seq, replay⟩ := passed.sends e
      refine ⟨_, congrArg _ (receiveFlit_go credit empty live checks expected single other quiet known way may inside), ?_⟩
      rw [sendFlit_link, sendFlit_waiting, waits, spent, seq, replay]
      refine ⟨?_, empty, rfl, ?_, rfl, passed.only.trans (onlyRouterOut_sendFlit ..)⟩
      · rw [← words, ← seq]
        rfl
      · dsimp only
        rw [Tab.get_set_same]
    · exact ⟨_, congrArg _ (receiveFlit_eject credit empty live checks expected single other quiet known way sent), words,
        (waits ..).trans empty, passed.only⟩
    · obtain ⟨dropped, out, counted, -⟩ := dropped_spec (s.passed r d f) r
      refine ⟨_, _, congrArg _ (receiveFlit_reserved credit empty live checks expected single other quiet reserved first),
        passed.only.trans dropped, out.trans words, ?_, signal_spec ..⟩
      rw [counted, passed.router]
  case sync =>
    rintro ⟨live, checks, expected⟩ single op
    exact ⟨_, congrArg _ (receiveFlit_sync live checks expected single op), synced_spec s r d f⟩
  case bad =>
    intro live bad first
    have nak := receiveFlit_bad live bad first
    exact ⟨_, congrArg _ nak, congrArg _ nak, State.link_setLink_same s r d _, rfl,
      (onlyRouterOut_setLink ..).trans (onlyRouterOut_emitOut ..)⟩
  case ignored =>
    intro h
    rw [receiveFlit_ignored h]
    exact ⟨rfl, rfl⟩

end Sys2Proof.Machine
end

section
/-!
SUPPORT. A retirement outside every loop, and what the end of a micro-op leaves beside its own tile (R151, R159, R175, R178).
-/

namespace Sys2Proof.Machine

/-! ### Outside every loop -/

/-- What the end-of-iteration checks have found outside every loop. -/
def Ends.none (kind : Nat) : Ends := { kind := kind, pops := [], seen := [], ended := 0 }

/-- A micro-op of a tile that is not held still retires to `next`. -/
theorem retire_no_loop {s : State} {t : PT} {op next kind : Nat} (loops : (s.tile t).r.loops = [])
    (active : ¬ ((s.tile t).s.seq = .halted ∨ (s.tile t).s.seq = .plumb)) : OnlyTile t s (s.retire t op next kind) ∧
      SameButStall ((s.tile t).retired op next [] (.none kind)) ((s.retire t op next kind).tile t) := by
  have clean : (s.tile t).checked ((s.tile t).seenWords (.none kind)) = .ok (s.tile t) := checked_none fun _ => rfl
  have ends : loopEnd (s.tile t) (s.tile t).r.loops next (.none kind) = .go next [] (.none kind) := by rw [loops, loopEnd]
  obtain ⟨only, same⟩ := retireBy_go (s.setTile t (s.tile t)) t op next [] (.none kind) rfl
  rw [State.tile_setTile_same] at same
  have moves : (s.setTile t (s.tile t)).keepStill t (State.retireBy t op (.go next [] (.none kind))) =
      (s.setTile t (s.tile t)).retireBy t op (.go next [] (.none kind)) := by
    rw [State.keepStill, State.tile_setTile_same, if_neg active]
  have count : ((s.setTile t (s.tile t)).retireBy t op (.go next [] (.none kind))).ceHigh t (s.tile t) =
      (s.setTile t (s.tile t)).retireBy t op (.go next [] (.none kind)) := ceHigh_same (by rw [same]; rfl)
  have e : s.retire t op next kind = (s.setTile t (s.tile t)).retireBy t op (.go next [] (.none kind)) := by
    rw [State.retire, State.retireAt]
    dsimp only
    rw [show ({ kind := kind, pops := [], seen := [], ended := 0 } : Ends) = .none kind from rfl, ends]
    dsimp only [LoopEnd.found]
    rw [clean]
    dsimp only
    rw [moves, count]
  rw [e]
  exact ⟨(onlyTile_setTile ..).trans only, same⟩

/-- What a BLOCKED tile is after that. -/
theorem retire_blocked {s : State} {t : PT} {x : Tile} {op next kind : Nat} (here : s.tile t = x) (loops : x.r.loops = [])
    (blocked : x.s.seq = .blocked) : let y := (s.retire t op next kind).tile t
    y.s.seq = .run ∧ y.s.arrived = false ∧ y.s.pc = BitVec.ofNat 10 next ∧ SameData x y := by
  subst here
  obtain ⟨-, same⟩ := retire_no_loop (op := op) (next := next) (kind := kind) loops (by rw [blocked]; decide)
  have kept : SameData (s.tile t) ((s.tile t).retired op next [] (.none kind)) := ⟨rfl, rfl, rfl, rfl, rfl, rfl, rfl, rfl, rfl, rfl, rfl⟩
  refine ⟨?_, ?_, ?_, kept.trans same.data⟩ <;> rw [same]
  · exact if_pos blocked
  · rfl
  · rfl

/-! ### Beside a tile -/

/-- The other tiles and every float are as before. -/
structure Spares (t : PT) (s n : State) : Prop where
  tiles : ∀ v : PT, v.key ≠ t.key → n.tile v = s.tile v
  floats : ∀ q, (n.part q).run.floats = (s.part q).run.floats

section
variable {t : PT} {s u n : State}

theorem Spares.refl (t : PT) (s : State) : Spares t s s := ⟨fun _ _ => rfl, fun _ => rfl⟩
theorem Spares.trans (h : Spares t s u) (k : Spares t u n) : Spares t s n :=
  ⟨fun v hv => (k.tiles v hv).trans (h.tiles v hv), fun q => (k.floats q).trans (h.floats q)⟩
/-- Neither tiles nor partitions change. -/
theorem Spares.same (h : Spares t s u) (tiles : ∀ v, n.tile v = u.tile v := by exact fun _ => rfl)
    (parts : n.comp.parts = u.comp.parts := by rfl) : Spares t s n :=
  h.trans ⟨fun v _ => tiles v, fun q => by rw [State.part_congr parts]⟩
theorem Spares.ite {c : Prop} [Decidable c] {a b : State} (h : Spares t s a) (k : Spares t s b) : Spares t s (if c then a else b) := by
  split
  · exact h
  · exact k
theorem Spares.foldl {α : Type} {f : State → α → State} (l : List α) (step : ∀ u a, Spares t s u → Spares t s (f u a))
    (h : Spares t s u) : Spares t s (l.foldl f u) := by
  induction l generalizing u with
  | nil => exact h
  | cons a l ih => exact ih (step u a h)

section
variable (h : Spares t s u)
include h

theorem Spares.setTile (x : Tile) : Spares t s (u.setTile t x) := h.trans ⟨fun _ hv => State.tile_setTile_ne _ x hv, fun _ => rfl⟩
theorem Spares.modTile (f : Tile → Tile) : Spares t s (u.modTile t f) := h.setTile _
theorem Spares.restall : Spares t s (u.restall t) := h.modTile _
theorem Spares.blocked (blk arg : Nat) : Spares t s (u.blocked t blk arg) := (h.modTile _).restall
theorem Spares.send (p : Packet) : Spares t s (u.send p) := h.same
theorem Spares.signal (id : EventId) (p : Nat) (ops : List Nat) (hs : id.sev ≠ .partitionFatal := by decide) :
    Spares t s (u.signal id p ops) :=
  have raised := signal_spec id p ops u
  h.same raised.tile (by rw [raised.comp hs])

/-- A partition changes beside its floats. -/
theorem Spares.modPart (p : Nat) (f : Part → Part) (kept : ∀ x, (f x).run.floats = x.run.floats := by exact fun _ => rfl) :
    Spares t s (u.modPart p f) := by
  refine h.trans ⟨fun _ _ => rfl, fun q => ?_⟩
  rw [State.part_modPart]
  split
  · next e => rw [kept, e]
  · rfl

theorem Spares.modCommit (p : Nat) (f : Commit → Commit) : Spares t s (u.modCommit p f) := h.modPart ..
theorem Spares.modHeal (p : Nat) (f : Heal → Heal) : Spares t s (u.modHeal p f) := h.modPart ..
theorem Spares.bump (a hi lo k : Nat) : Spares t s (u.bump a hi lo k) := h.same
theorem Spares.bumpWrap (a hi lo k : Nat) : Spares t s (u.bumpWrap a hi lo k) := h.same
theorem Spares.setFnode (p fid i : Nat) (x : FNode) : Spares t s (u.setFnode p fid i x) := by
  unfold State.setFnode State.modRun
  exact h.modPart ..

/-! What may follow from an uncorrectable word (R159, R525, R547, R559). -/

theorem Spares.suspect (p : Nat) (cause : EventId) (named : List LT) : Spares t s (u.suspect p cause named) :=
  .ite (h.modCommit ..) (((h.modCommit ..).bump ..).signal ..)

theorem Spares.enterFence (id cause p : Nat) : Spares t s (u.enterFence 1 id cause p) := by
  have listed := h.same (n := u.withFence 1 id cause)
  exact .ite listed listed.same

theorem Spares.resetTile : Spares t s (u.resetTile t) := .ite h ((Spares.foldl _ (fun _ _ k => k.send _) h).modTile _)

theorem Spares.restartRecovery (r p : Nat) : Spares t s (u.restartRecovery r p) := ((h.modHeal ..).bumpWrap ..).signal ..

theorem Spares.loseHost (l : LT) : Spares t s (u.loseHost l) :=
  .ite h (.ite h (.ite (h.modPart ..) ((Spares.ite (h.restartRecovery ..) (.ite (h.restartRecovery ..) h)).modHeal ..)))

theorem Spares.fenceTile (cause : Nat) : Spares t s (u.fenceTile t cause) := by
  have fenced := (h.enterFence (tileId t) cause (u.ptPart t)).resetTile
  unfold State.fenceTile
  cases u.hosted t with
  | none => exact fenced
  | some l => exact fenced.loseHost l

theorem Spares.tileUncorr (w : CodeWord) : Spares t s (u.tileUncorr t w) :=
  ((((h.modTile _).restall.modTile _).signal ..).suspect ..).fenceTile _

/-! What may follow from a pop (R168, R178, R304). -/

theorem Spares.fountainReturn (k : FCount) (p : Nat) (f : FountRec) (i branch m : Nat) (phase : Bool) :
    Spares t s (u.fountainReturn k p f i branch m phase) := by
  unfold State.fountainReturn
  dsimp only
  refine .ite (h.setFnode ..) ?_
  split
  · exact h.setFnode ..
  · refine .ite ((h.setFnode ..).send _) ?_
    split
    · exact h.setFnode ..
    · exact (h.setFnode ..).send _

theorem Spares.returnFor (k : FCount) (v : PT) (q m : Nat) (phase ep : Bool) : Spares t s (u.returnFor k v q m phase ep) := by
  unfold State.returnFor
  dsimp only
  split
  · exact h
  · split
    · exact h
    · split
      · exact h.send _
      · exact h.send _
      · split
        · exact h
        · split
          · exact h
          · exact h.fountainReturn ..

theorem Spares.popQ (q : Nat) : Spares t s (u.popQ t q) := by
  unfold State.popQ
  split
  · exact h
  · exact .ite ((h.modTile _).returnFor ..) (h.modTile _)

theorem Spares.flushAt (q : Nat) : Spares t s (u.flushAt t q 0) := by
  unfold State.flushAt
  dsimp only [State.popN]
  split
  · exact h
  · exact Spares.restall (.ite (((h.popQ q).modTile _).modTile _) (((h.popQ q).modTile _).modTile _))

theorem Spares.retireBy (op : Nat) (r : LoopEnd) : Spares t s (u.retireBy t op r) := by
  have popped : Spares t s (r.found.pops.foldl (fun s q => s.popQ t q) u) := .foldl _ (fun _ _ k => k.popQ _) h
  cases r with
  | wait q next ls e => exact (popped.modTile _).blocked ..
  | flush q e => exact (popped.modTile _).flushAt q
  | go nx ls e => exact (popped.modTile _).restall

/-! The end of a micro-op. -/

theorem Spares.keepStill {f : State → State} (step : ∀ v, Spares t s v → Spares t s (f v)) : Spares t s (u.keepStill t f) :=
  .ite ((step _ (h.modTile _)).modTile _).restall (step _ h)

theorem Spares.ceHigh (x : Tile) : Spares t s (u.ceHigh t x) := .ite ((h.signal ..).modTile _) h

theorem Spares.retire (op next kind : Nat) : Spares t s (u.retire t op next kind) := by
  unfold State.retire State.retireAt
  dsimp only
  split
  · exact h.tileUncorr _
  · exact ((h.setTile _).keepStill fun _ k => k.retireBy ..).ceHigh _

theorem Spares.next (op : Nat) : Spares t s (u.next t op) := by
  unfold State.next State.finish
  split
  · exact (h.modTile _).keepStill fun _ k => k.blocked ..
  · exact h.retire ..

end

end

end Sys2Proof.Machine
end

section
/-!
SUPPORT. Arrivals and releases of a weir, and the values of a float, one command at a time (R309, R311 to R313, R317, R318, R361).
-/

namespace Sys2Proof.Machine

/-! ### What a change of a partition's running state leaves -/

section
variable (s : State) (p : Nat) (f : PartRun → PartRun)

theorem part_modRun (q : Nat) : (s.modRun p f).part q = if q = p then { s.part p with run := f (s.part p).run } else s.part q :=
  State.part_modPart ..
theorem commit_modRun (q : Nat) : ((s.modRun p f).part q).commit = (s.part q).commit := by
  rw [part_modRun]
  split
  · next e => rw [e]
  · rfl
theorem frameOf_modRun (q : Nat) : (s.modRun p f).frameOf q = s.frameOf q := by
  rw [State.frameOf, State.frameOf, part_modRun]
  split
  · next e => rw [e]
  · rfl
theorem trialOf_modRun (l : LT) : (s.modRun p f).trialOf l = s.trialOf l := by
  have bay : (s.modRun p f).bayOwner l.bay = s.bayOwner l.bay := rfl
  rw [State.trialOf, bay, commit_modRun, State.trialOf]
theorem runsAt_modRun (l : LT) : (s.modRun p f).runsAt l = s.runsAt l := by
  rw [State.runsAt, trialOf_modRun]
  rfl

end

section
variable (s : State) (p wid : Nat) (x : Weir)
@[simp] theorem weirOf_setWeir : weirOf p wid (s.setWeir p wid x) = x := by
  rw [weirOf, State.setWeir, part_modRun, if_pos rfl, Tab.get_set_same]
theorem runsAt_setWeir (l : LT) : (s.setWeir p wid x).runsAt l = s.runsAt l := runsAt_modRun ..
theorem frameOf_setWeir (q : Nat) : (s.setWeir p wid x).frameOf q = s.frameOf q := frameOf_modRun ..
theorem weirRow_setWeir (t : PT) (v : Nat) : (s.setWeir p wid x).weirRow t v = s.weirRow t v := rfl
end

/-! ### An arrival at a node (R311 to R313) -/

section
variable {s : State} {p wid : Nat} {l c : LT} {phase : Bool}

theorem exec_weirArr {k : Packet} {t u : PT} (dst : k.dst = .tile t) (src : k.src = .tile u) (there : s.reaches t = true)
    (node : s.hosted t = some l) (member : s.hosted u = some c) : exec (.weirArr k) s =
      .next ((s.take k).weirArrive k.part (k.addr.toNat % 4096) l c (k.addr.getLsbD 12)) := by
  have there' : (s.take k).reaches t = true := there
  show execWeirArr k s = _
  rw [execWeirArr, dst, src]
  dsimp only
  rw [if_neg (by rw [there']; decide), hosted_take, hosted_take, node, member]

theorem weirArrive_other (other : phase ≠ (weirOf p wid s).phase) : s.weirArrive p wid l c phase = s := by
  rw [State.weirArrive, if_pos (bne_iff_ne.2 other)]

variable (current : phase = (weirOf p wid s).phase)
include current

theorem weirArrive_withdrawn (child : l ≠ c) (gone : (l.key, c.key) ∈ (weirOf p wid s).withdrawn) : s.weirArrive p wid l c phase =
    s.setWeir p wid { weirOf p wid s with withdrawn := (weirOf p wid s).withdrawn.erase (l.key, c.key) } := by
  rw [State.weirArrive, if_neg (by simp [current]), if_pos ⟨child, List.contains_iff_mem.2 gone⟩]

variable (counts : l = c ∨ (l.key, c.key) ∉ (weirOf p wid s).withdrawn)
include counts

theorem weirArrive_early (behind : l.key ∈ (weirOf p wid s).behind) (once : (l.key, c.key) ∉ (weirOf p wid s).early) :
    s.weirArrive p wid l c phase =
      s.setWeir p wid { weirOf p wid s with early := (weirOf p wid s).early ++ [(l.key, c.key)] } := by
  rw [State.weirArrive, if_neg (by simp [current]),
    if_neg fun h => counts.elim h.1 fun k => k (List.contains_iff_mem.1 h.2), if_pos (List.contains_iff_mem.2 behind),
    if_neg fun h => once (List.contains_iff_mem.1 h)]

theorem weirArrive_counted (released : l.key ∉ (weirOf p wid s).behind) (once : (l.key, c.key) ∉ (weirOf p wid s).arrived) :
    s.weirArrive p wid l c phase = (s.setWeir p wid { weirOf p wid s with
      arrived := (weirOf p wid s).arrived ++ [(l.key, c.key)]
      firstAt := if (weirOf p wid s).arrived = [] then s.now else (weirOf p wid s).firstAt }).weirForward p wid l := by
  rw [State.weirArrive, if_neg (by simp [current]),
    if_neg fun h => counts.elim h.1 fun k => k (List.contains_iff_mem.1 h.2), if_neg fun h => released (List.contains_iff_mem.1 h),
    if_neg fun h => once (List.contains_iff_mem.1 h)]

end

/-! ### A node that may be complete (R311, R526) -/

/-- All that node `l` waits for is in `x`. -/
def State.weirComplete (s : State) (wid : Nat) (l : LT) (x : Weir) : Bool :=
  x.arrived.contains (l.key, l.key) && (s.weirKids (s.runsAt l) wid).all fun k => x.arrived.contains (l.key, k.key)

section
variable {s : State} {p wid : Nat} {l : LT} {x : Weir}

theorem weirFull_setWeir : (s.setWeir p wid x).weirFull p wid l = s.weirComplete wid l x := by
  rw [State.weirFull, weirOf_setWeir, runsAt_setWeir]
  rfl

theorem weirForward_waits (waits : s.weirComplete wid l x = false) : (s.setWeir p wid x).weirForward p wid l = s.setWeir p wid x := by
  rw [State.weirForward, if_pos (by rw [weirFull_setWeir, waits])]

variable (full : s.weirComplete wid l x = true)
include full

theorem weirForward_up {m : LT} {d : PT × Bool} (up : ((s.weirRow (s.runsAt l) wid).bind fun r => r.parent) = some m)
    (way : (s.router (s.runsAt l)).scarf m = some d) : (s.setWeir p wid x).weirForward p wid l =
      (s.setWeir p wid x).send (weirPacket opWeirArr p wid x.phase (s.runsAt l) d.1 d.2) := by
  have way' : ((s.setWeir p wid x).router (s.runsAt l)).scarf m = some d := way
  rw [State.weirForward, if_neg (by rw [weirFull_setWeir, full]; decide), runsAt_setWeir, weirRow_setWeir, up, weirOf_setWeir]
  dsimp only
  rw [State.sendTo, way']

variable (root : ((s.weirRow (s.runsAt l) wid).bind fun r => r.parent) = none)
include root

theorem weirForward_hold (step : (s.frameOf p).stepWeir = wid) : (s.setWeir p wid x).weirForward p wid l =
    ((s.setWeir p wid x).setWeir p wid { x with heldAt := some s.now }).modCommit p fun c => { c with settled := false } := by
  have now : (s.setWeir p wid x).now = s.now := rfl
  rw [State.weirForward, if_neg (by rw [weirFull_setWeir, full]; decide), runsAt_setWeir, weirRow_setWeir, root, frameOf_setWeir]
  dsimp only
  rw [if_pos step, weirOf_setWeir, now]

theorem weirForward_release (other : (s.frameOf p).stepWeir ≠ wid) : (s.setWeir p wid x).weirForward p wid l =
    (s.setWeir p wid x).releaseWeir p wid := by
  rw [State.weirForward, if_neg (by rw [weirFull_setWeir, full]; decide), runsAt_setWeir, weirRow_setWeir, root, frameOf_setWeir]
  dsimp only
  rw [if_neg other]

end

theorem weirOf_modCommit (s : State) (p wid q : Nat) (f : Commit → Commit) : weirOf p wid (s.modCommit q f) = weirOf p wid s := by
  rw [weirOf, State.modCommit, State.part_modPart]
  split
  · next e => rw [e, weirOf]
  · rfl

/-! ### A release at a member (R311) -/

section
variable {s : State} {l : LT}

theorem exec_weirRel {k : Packet} {t : PT} (dst : k.dst = .tile t) (there : s.reaches t = true) (node : s.hosted t = some l) :
    exec (.weirRel k) s = .next ((s.take k).releaseAt k.part (k.addr.toNat % 4096) l) := by
  have there' : (s.take k).reaches t = true := there
  show execWeirRel k s = _
  rw [execWeirRel, dst]
  dsimp only
  rw [if_neg (by rw [there']; decide), hosted_take, node]

variable {p wid : Nat}

theorem releaseAt_released (released : l.key ∉ (weirOf p wid s).behind) : s.releaseAt p wid l = s := by
  rw [State.releaseAt, if_neg fun h => released (List.contains_iff_mem.1 h)]

theorem releaseAt_behind (behind : l.key ∈ (weirOf p wid s).behind) :
    s.releaseAt p wid l = (s.passRelease p wid l).retireWeir (s.runsAt l) wid := by
  rw [State.releaseAt, if_pos (List.contains_iff_mem.2 behind)]

/-- A group after member `l` has taken the release. -/
def Weir.releasedBy (l : LT) (x : Weir) : Weir :=
  { x with
    behind := x.behind.filter fun k => decide (k ≠ l.key)
    arrived := x.arrived ++ x.early.filter fun e => decide (e.1 = l.key)
    early := x.early.filter fun e => decide (e.1 ≠ l.key) }

theorem passRelease_eq (ways : ∀ k ∈ s.weirKids (s.runsAt l) wid, ((s.router (s.runsAt l)).scarf k).isSome = true) :
    s.passRelease p wid l = ((s.weirKids (s.runsAt l) wid).filterMap fun k => ((s.router (s.runsAt l)).scarf k).map fun d =>
      weirPacket opWeirRel p wid (!(weirOf p wid s).phase) (s.runsAt l) d.1 d.2).foldl (fun s k => s.send k)
        (s.setWeir p wid ((weirOf p wid s).releasedBy l)) := by
  rw [State.passRelease]
  exact foldl_sendTo (s.runsAt l) id (fun _ => weirPacket opWeirRel p wid (!(weirOf p wid s).phase) (s.runsAt l)) _
    (s.setWeir p wid ((weirOf p wid s).releasedBy l)) ways

theorem passRelease_spec (ways : ∀ k ∈ s.weirKids (s.runsAt l) wid, ((s.router (s.runsAt l)).scarf k).isSome = true) :
    let n := s.passRelease p wid l
    weirOf p wid n = (weirOf p wid s).releasedBy l ∧
      n.comp.net = s.comp.net ++ (s.weirKids (s.runsAt l) wid).filterMap (fun k => ((s.router (s.runsAt l)).scarf k).map fun d =>
        weirPacket opWeirRel p wid (!(weirOf p wid s).phase) (s.runsAt l) d.1 d.2) ∧ SameTiles s n := by
  dsimp only
  rw [passRelease_eq ways, foldl_send]
  exact ⟨weirOf_setWeir s .., rfl, fun _ => rfl⟩

/-- A WEIR that waits for the release retires. -/
theorem retireWeir_blocked {t : PT} {x : Tile} (here : s.tile t = x) (arrived : x.s.arrived = true)
    (waits : x.uopAt = some (.weir (BitVec.ofNat 12 wid))) (blocked : x.s.seq = .blocked) (loops : x.r.loops = []) :
    let y := (s.retireWeir t wid).tile t
    y.s.seq = .run ∧ y.s.arrived = false ∧ y.s.pc = BitVec.ofNat 10 (x.s.pc.toNat + 1) ∧ SameData x y := by
  subst here
  have retires : s.retireWeir t wid = s.retire t 0x04 ((s.tile t).s.pc.toNat + 1) 7 := by
    rw [State.retireWeir]
    exact if_pos ⟨arrived, waits⟩
  rw [retires]
  exact retire_blocked rfl loops blocked

end

/-! ### Floats and their shadows (R317) -/

/-- The first entry for a key after it has been put. -/
theorem Tab.find?_put {α : Type} (t : Tab α) (k : Nat) (v : α) : (Tab.put t k v).find? (fun e => decide (e.1 = k)) = some (k, v) := by
  induction t with
  | nil => simp [Tab.put]
  | cons e t ih =>
    unfold Tab.put
    split
    · simp
    · split
      · simp
      · next other _ => simp [other, ih]

section
variable (s : State) (p fid : Nat) (x : Float)
theorem float_setFloat : (s.setFloat p fid x).float p fid = x := by
  rw [State.float, State.setFloat, part_modRun, if_pos rfl, Tab.get_put_same]
theorem runsAt_setFloat (l : LT) : (s.setFloat p fid x).runsAt l = s.runsAt l := runsAt_modRun ..
theorem float_congr {n : State} (h : ∀ q, (n.part q).run.floats = (s.part q).run.floats) : n.float p fid = s.float p fid := by
  rw [State.float, h, State.float]
theorem shadow_congr {n : State} (h : ∀ q, (n.part q).run.floats = (s.part q).run.floats) (l : LT) :
    n.shadow p fid l = s.shadow p fid l := by
  rw [State.shadow, float_congr s p fid h, State.shadow]
end

/-- The notifications that tile `t` sends on. -/
def State.notices (s : State) (t : PT) (p fid : Nat) (v : Bool) (count : BitVec 16) : List Packet :=
  (((s.floatRow t fid).map fun r => r.notify).getD []).filterMap fun k =>
    ((s.router t).scarf k).map fun d => floatVal p fid v count t d.1 d.2

section
variable {s : State} {t : PT} {p fid : Nat} {v : Bool} {count : BitVec 16}
  (ways : ∀ k ∈ ((s.floatRow t fid).map fun r => r.notify).getD [], ((s.router t).scarf k).isSome = true)
include ways

theorem notify_eq : s.notify t p fid v count = (s.notices t p fid v count).foldl (fun s k => s.send k) s := by
  rw [State.notify]
  exact foldl_sendTo t id (fun _ => floatVal p fid v count t) _ s ways

theorem notify_net : (s.notify t p fid v count).comp.net = s.comp.net ++ s.notices t p fid v count := by
  rw [notify_eq ways, foldl_send]

theorem notify_parts : (s.notify t p fid v count).comp.parts = s.comp.parts := by rw [notify_eq ways, foldl_send]

theorem notify_tile (u : PT) : (s.notify t p fid v count).tile u = s.tile u := by
  rw [notify_eq ways, foldl_send]
  rfl

end

/-! ### An operation at the home (R317, R361) -/

section
variable {s : State} {p fid : Nat} {v : Bool}
  (ways : ∀ k ∈ ((s.floatRow (s.runsAt (s.float p fid).home) fid).map fun r => r.notify).getD [],
    ((s.router (s.runsAt (s.float p fid).home)).scarf k).isSome = true)
include ways

/-- The value, the count and the notification. -/
theorem floatApply_spec : let n := s.floatApply p fid v
    (n.float p fid).value = v ∧ (n.float p fid).count = (s.float p fid).count + 1 ∧
      n.comp.net = s.comp.net ++ s.notices (s.runsAt (s.float p fid).home) p fid v ((s.float p fid).count + 1) ∧ SameTiles s n := by
  let x : Float := { s.float p fid with value := v, count := (s.float p fid).count + 1 }
  have applied : s.floatApply p fid v = (s.setFloat p fid x).notify (s.runsAt (s.float p fid).home) p fid v x.count := by
    rw [State.floatApply]
    dsimp only
    rw [runsAt_setFloat]
  have float : ((s.setFloat p fid x).notify (s.runsAt (s.float p fid).home) p fid v x.count).float p fid = x := by
    rw [State.float, State.part_congr (notify_parts (s := s.setFloat p fid x) ways)]
    exact float_setFloat s p fid x
  dsimp only
  rw [applied, float]
  exact ⟨rfl, rfl, notify_net (s := s.setFloat p fid x) ways, notify_tile (s := s.setFloat p fid x) ways⟩

end

/-- The windows' next fills are a matter of the partition alone. -/
theorem sameTiles_nextFills (s : State) (p fid : Nat) : SameTiles s (s.nextFills p fid) := by
  unfold State.nextFills
  generalize (s.frameOf p).windows = ws
  induction ws generalizing s with
  | nil => exact fun _ => rfl
  | cons w ws ih =>
    intro u
    rw [List.foldl_cons, ih]
    split <;> rfl

section
variable {s : State} {k : Packet} {u : PT}

theorem exec_floatOp {t : PT} (dst : k.dst = .tile t) (src : k.src = .tile u) (there : s.reaches t = true)
    (known : s.hasFloat k.part (k.addr.toNat % 4096) = true) : exec (.floatOp k) s =
      let v := decide (k.addr.toNat / 4096 % 4 = 0)
      let n := (s.take k).floatApply k.part (k.addr.toNat % 4096) v
      .next ((if v then n else n.nextFills k.part (k.addr.toNat % 4096)).retireFloat u k) := by
  have there' : (s.take k).reaches t = true := there
  have known' : (s.take k).hasFloat k.part (k.addr.toNat % 4096) = true := known
  show execFloatOp k s = _
  rw [execFloatOp, dst, src]
  dsimp only
  rw [if_neg (by rw [there']; decide), if_pos known']

/-- A tile whose operation to a float has been carried out. -/
def Tile.floated (k : Packet) (x : Tile) : Tile :=
  { x with q := { x.q with out := x.q.out.filter fun r => !(decide (r.op = opFloatOp) && decide (r.tag = k.tag)) } }

/-- The FLOAT that sent the operation retires. -/
theorem retireFloat_blocked {x : Tile} {act : BitVec 2} {f : BitVec 12} (here : s.tile u = x)
    (mine : x.q.out.any (fun r => decide (r.op = opFloatOp) && decide (r.tag = k.tag)) = true)
    (waits : x.uopAt = some (.float act f)) (sets : act.toNat < 2) (arrived : x.s.arrived = true) (blocked : x.s.seq = .blocked)
    (loops : x.r.loops = []) : let y := (s.retireFloat u k).tile u
    y.s.seq = .run ∧ y.s.arrived = false ∧ y.s.pc = BitVec.ofNat 10 (x.s.pc.toNat + 1) ∧ SameData x y := by
  subst here
  have waits' : ((s.tile u).floated k).uopAt = some (.float act f) := waits
  have retires : s.retireFloat u k = (s.modTile u (Tile.floated k)).retire u 0x05 ((s.tile u).s.pc.toNat + 1) 7 := by
    rw [State.retireFloat]
    dsimp only
    rw [if_neg (by rw [mine]; decide), State.tile_modTile_same]
    change (match ((s.tile u).floated k).uopAt with | some (.float act _) => _ | _ => _) = _
    rw [waits']
    exact if_pos ⟨arrived, sets⟩
  rw [retires]
  exact retire_blocked (x := (s.tile u).floated k) (State.tile_modTile_same ..) loops blocked

end

/-! ### A notification at a shadow (R317, R318) -/

section
variable {s : State} {t : PT} {fid : Nat} {v : Bool}

theorem wakeFloat_not_blocked (h : (s.tile t).s.seq ≠ .blocked) : s.wakeFloat t fid v = s := by
  unfold State.wakeFloat
  dsimp only
  split
  · exact if_neg fun ⟨_, _, blocked, _⟩ => h blocked
  · rfl

/-- A FLOAT that waits for the value retires. -/
theorem wakeFloat_blocked {x : Tile} {act : BitVec 2} {f : BitVec 12} (here : s.tile t = x) (waits : x.uopAt = some (.float act f))
    (name : f.toNat = fid) (value : act.toNat = if v then 2 else 3) (blocked : x.s.seq = .blocked) (blk : x.s.blk = 7)
    (done : x.s.done = none) (loops : x.r.loops = []) : let y := (s.wakeFloat t fid v).tile t
    y.s.seq = .run ∧ y.s.pc = BitVec.ofNat 10 (x.s.pc.toNat + 1) ∧ SameData x y := by
  subst here
  have wakes : s.wakeFloat t fid v = s.retire t 0x05 ((s.tile t).s.pc.toNat + 1) 7 := by
    unfold State.wakeFloat
    dsimp only
    rw [waits]
    dsimp only
    rw [if_pos ⟨name, value, blocked, blk⟩, State.next, State.finish, done]
  obtain ⟨run, -, pc, data⟩ := retire_blocked (op := 0x05) (next := (s.tile t).s.pc.toNat + 1) (kind := 7) rfl loops blocked
  rw [wakes]
  exact ⟨run, pc, data⟩

/-- A FLOAT wakes, or nothing happens. -/
theorem wakeFloat_cases (s : State) (t : PT) (fid : Nat) (v : Bool) :
    s.wakeFloat t fid v = s ∨ (s.tile t).s.seq = .blocked ∧ s.wakeFloat t fid v = s.next t 0x05 := by
  unfold State.wakeFloat
  dsimp only
  split
  · next act f _ =>
    by_cases h : f.toNat = fid ∧ act.toNat = (if v then 2 else 3) ∧ (s.tile t).s.seq = .blocked ∧ (s.tile t).s.blk = 7
    · obtain ⟨-, -, blocked, -⟩ := id h
      exact .inr ⟨blocked, if_pos h⟩
    · exact .inl (if_neg h)
  · exact .inl rfl

theorem spares_wakeFloat (s : State) (t : PT) (fid : Nat) (v : Bool) : Spares t s (s.wakeFloat t fid v) := by
  rcases wakeFloat_cases s t fid v with h | ⟨-, h⟩ <;> rw [h]
  · exact .refl ..
  · exact (Spares.refl ..).next _

/-- Outside every loop, what wakes sends nothing. -/
theorem next_blocked {op : Nat} (loops : (s.tile t).r.loops = []) (blocked : (s.tile t).s.seq = .blocked) :
    (s.next t op).comp.net = s.comp.net := by
  have active : ¬ ((s.tile t).s.seq = .halted ∨ (s.tile t).s.seq = .plumb) := by rw [blocked]; decide
  unfold State.next State.finish
  cases done : (s.tile t).s.done with
  | none => exact (retire_no_loop loops active).1.comp_net
  | some d =>
    dsimp only
    rw [State.keepStill, State.tile_modTile_same, if_neg active]
    exact ((onlyTile_modTile ..).trans (onlyTile_blocked ..)).comp_net

theorem wakeFloat_net (h : (s.tile t).s.seq ≠ .blocked ∨ (s.tile t).r.loops = []) : (s.wakeFloat t fid v).comp.net = s.comp.net := by
  rcases wakeFloat_cases s t fid v with e | ⟨blocked, e⟩ <;> rw [e]
  exact next_blocked (h.resolve_left fun k => k blocked) blocked

variable {p : Nat} {l : LT} {n : BitVec 16}

/-- The float once the shadow of `l` has taken a notification. -/
def Float.shadowed (l : LT) (n : BitVec 16) (v : Bool) (x : Float) : Float :=
  { x with
    shadows := Tab.put x.shadows l.key (v, n)
    early := x.early.filter fun e => !(decide (e.1 = l.key) && decide (e.2.1 = n)) }

theorem shadowVal_eq : s.shadowVal t p fid l n v = (s.setFloat p fid ((s.float p fid).shadowed l n v)).wakeFloat t fid v := rfl

theorem shadow_shadowVal : (s.shadowVal t p fid l n v).shadow p fid l = some (v, n) := by
  rw [shadowVal_eq, shadow_congr _ p fid (spares_wakeFloat ..).floats, State.shadow, float_setFloat]
  show ((Tab.put _ l.key (v, n)).find? fun sh => decide (sh.1 = l.key)).map (·.2) = _
  rw [Tab.find?_put]
  rfl

end

/-- The state in which the shadow takes a notification: it has been sent on, where it did not come from the tile itself. -/
def State.passedOn (t : PT) (k : Packet) (s : State) : State :=
  let s := s.take k
  if k.src = .tile t then s else s.notify t k.part (k.addr.toNat % 4096) (k.addr.getLsbD 12) (k.ext.setWidth 16)

/-- Those whom tile `t` notifies: none when its own home told it. -/
def State.below (s : State) (t : PT) (k : Packet) : List LT :=
  if k.src = .tile t then [] else ((s.floatRow t (k.addr.toNat % 4096)).map fun r => r.notify).getD []

section
variable {s : State} {k : Packet} {t : PT} (ways : ∀ c ∈ s.below t k, ((s.router t).scarf c).isSome = true)
include ways

/-- A notification passed on leaves tiles and partitions. -/
theorem passedOn_spec : SameTiles s (s.passedOn t k) ∧ (s.passedOn t k).comp.parts = s.comp.parts ∧ (s.passedOn t k).comp.net =
    s.comp.net.erase k ++ (s.below t k).filterMap (fun c => ((s.router t).scarf c).map fun d =>
      floatVal k.part (k.addr.toNat % 4096) (k.addr.getLsbD 12) (k.ext.setWidth 16) t d.1 d.2) := by
  unfold State.below at *
  rw [State.passedOn]
  split
  · exact ⟨fun _ => rfl, rfl, (List.append_nil _).symm⟩
  · next other =>
    rw [if_neg other] at ways
    exact ⟨notify_tile (s := s.take k) ways, notify_parts (s := s.take k) ways, notify_net (s := s.take k) ways⟩

end

section
variable {s : State} {k : Packet} {t : PT} {l : LT} {sv : Bool} {sn : BitVec 16}
  (dst : k.dst = .tile t) (there : s.reaches t = true) (node : s.hosted t = some l)
  (shadow : s.shadow k.part (k.addr.toNat % 4096) l = some (sv, sn))
include dst there node shadow

theorem exec_floatVal : exec (.floatVal k) s =
    let n : BitVec 16 := k.ext.setWidth 16
    let fid := k.addr.toNat % 4096
    let u := s.passedOn t k
    let x := u.float k.part fid
    .next (if n = sn + 1 then (u.shadowVal t k.part fid l n (k.addr.getLsbD 12)).shadowRun t k.part fid l x.early.length
      else if (n - sn).toNat < 2 ^ 15 ∧ n ≠ sn then
        u.setFloat k.part fid { x with early := x.early ++ [(l.key, n, k.addr.getLsbD 12)] }
      else u) := by
  have there' : (s.take k).reaches t = true := there
  have shadow' : (s.take k).shadow k.part (k.addr.toNat % 4096) l = some (sv, sn) := shadow
  show execFloatVal k s = _
  rw [execFloatVal, dst]
  dsimp only
  rw [if_neg (by rw [there']; decide), hosted_take, node]
  dsimp only
  rw [shadow']
  rfl

end

/-- Settles O29, packet kind by packet kind. -/
theorem weirAndFloatPacketsComplete : Obligations.WeirAndFloatPacketsComplete := by
  unfold Obligations.WeirAndFloatPacketsComplete
  intro s t p dst there
  refine ⟨fun u l c src node member => ?arrival, fun l node => ?release, fun u src known => ?operation, fun l sv sn node shadow => ?value⟩
  case arrival =>
    rw [exec_weirArr dst src there node member]
    refine ⟨fun other => ?_, fun current child gone => ?_, fun current counts behind once => ?_,
      fun current counts released once => ?_⟩
    · rw [weirArrive_other (s := s.take p) other]
    · exact ⟨_, congrArg _ (weirArrive_withdrawn (s := s.take p) current child gone), weirOf_setWeir .., rfl, fun _ => rfl⟩
    · exact ⟨_, congrArg _ (weirArrive_early (s := s.take p) current counts behind once), weirOf_setWeir .., rfl, fun _ => rfl⟩
    · rw [weirArrive_counted (s := s.take p) current counts released once]
      refine ⟨fun waits => ?_, fun m d full up way => ?_, fun full root step => ?_, fun full root other => ?_⟩
      · exact ⟨_, congrArg _ (weirForward_waits (s := s.take p) waits), weirOf_setWeir .., rfl, fun _ => rfl⟩
      · exact ⟨_, congrArg _ (weirForward_up (s := s.take p) full up way), weirOf_setWeir (s.take p) .., fun _ => rfl, rfl⟩
      · refine ⟨_, congrArg _ (weirForward_hold (s := s.take p) full root step), ?_, fun _ => rfl⟩
        rw [weirOf_modCommit, weirOf_setWeir]
        rfl
      · exact congrArg _ (weirForward_release (s := s.take p) full root other)
  case release =>
    rw [exec_weirRel dst there node]
    refine ⟨fun behind ways => ?_, fun released => by rw [releaseAt_released (s := s.take p) released]⟩
    obtain ⟨weir, net, tiles⟩ := passRelease_spec (s := s.take p) (p := p.part) ways
    refine ⟨_, _, congrArg _ (releaseAt_behind (s := s.take p) behind), net, congrArg Weir.behind weir, congrArg Weir.arrived weir,
      congrArg Weir.early weir, (congrArg Weir.phase weir).trans rfl, tiles, rfl, fun arrived waits blocked loops => ?_⟩
    exact retireWeir_blocked (tiles (s.runsAt l)) arrived waits blocked loops
  case operation =>
    intro v home below ways
    rw [exec_floatOp dst src there known]
    obtain ⟨value, count, net, tiles⟩ := floatApply_spec (s := s.take p) (v := v) ways
    refine ⟨_, _, rfl, rfl, value, count, net, tiles, fun act f mine waits sets arrived blocked loops => ?_⟩
    refine retireFloat_blocked ?_ mine waits sets arrived blocked loops
    split
    · exact tiles u
    · exact (sameTiles_nextFills _ _ _ u).trans (tiles u)
  case value =>
    intro n x below sent ways
    rw [exec_floatVal dst there node shadow]
    obtain ⟨tiles, parts, net⟩ := passedOn_spec (s := s) ways
    have float : (s.passedOn t p).float p.part (p.addr.toNat % 4096) = x := by rw [State.float, State.part_congr parts, ← State.float]
    have set (y : Float) : SameTiles s ((s.passedOn t p).setFloat p.part (p.addr.toNat % 4096) y) := tiles
    refine ⟨fun next none_early => ?_, fun other later new => ?_⟩
    · refine ⟨_, congrArg _ ((if_pos next).trans (by rw [float, none_early]; rfl)), shadow_shadowVal, fun h => ?_, fun v hv => ?_,
        fun act f waits name value blocked blk done loops => ?_, fun h => ?_⟩
      all_goals rw [shadowVal_eq]
      · rw [wakeFloat_net (by rw [set]; exact h)]
        exact net
      · rw [(spares_wakeFloat ..).tiles v hv, set]
      · exact wakeFloat_blocked (set _ t) waits name value blocked blk done loops
      · rw [wakeFloat_not_blocked (by rw [set]; exact h), set]
    · refine ⟨_, congrArg _ ((if_neg other).trans (if_pos ⟨later, new⟩)), net, ?_, ?_, set _⟩
      · rw [float_setFloat, float]
      · rw [State.shadow, float_setFloat, float]
        exact shadow

end Sys2Proof.Machine
end

section
/-!
SUPPORT. A Frame that names region 11520, beyond the 256 regions of R227: bit 0 of `PRT_STEP` then stands where that region's bit of
`PRT_DRAINEDk` would, and the end of a trial placement moves it (R214, R301, R523, R532).
-/

namespace Sys2Proof.Machine

/-- A Frame with region 11520. -/
def farRegionFrame : Frame := { Frame.empty with
  regions := [{ rect := { x0 := 0, y0 := 0, x1 := 0, y1 := 0 }, region := 11520 }] }

/-- Partition 1 at step 1: the replay of its dry fit is to be compared, no layer has a digest recorded, and LT(0, 0), which no
fence took, has a trial host. -/
def farRegionState : State :=
  let s := State.reset.setReg (Reg.prtStep 1) 1
  let s := s.modOwn 1 fun o => { o with frame := some farRegionFrame }
  s.modCommit 1 fun c => { c with df := .comparing, trials := [(0, { bay := 0, col := 0, row := 0 })] }

/-- The state in which the trial placement ends, the digests being equal. -/
def farRegionEqual : State :=
  (farRegionState.bump (Reg.prtDetCnt 1) 47 32 1).signal Ev.dryfitEqual 1 [1, (farRegionState.stepNo 1).toNat]

/-- Withdrawing the trial host purges the region and reopens it, which takes bit 0 from the step number. -/
theorem stepNo_endTrials_farRegion : (farRegionEqual.endTrials 1 []).stepNo 1 = 0 := by decide +kernel

/-- The comparison ends the trial placement and commits. -/
theorem dryfitCompare_farRegion :
    exec (.dryfitCompare 1) farRegionState = .next ((farRegionEqual.endTrials 1 []).commitStep 1) := by
  have goes : ¬ ((farRegionState.part 1).commit.df ≠ .comparing ∨ farRegionState.replayStaged 1 = false ∨
      farRegionState.phys.power.halted = true) := by decide
  have digests : (farRegionState.part 1).commit.digests = [] := by decide
  have named : (farRegionState.part 1).commit.named = [] := by decide
  have fenced : (farRegionState.part 1).commit.fencedNow = [] := by decide
  show execDryfitCompare 1 farRegionState = _
  simp only [execDryfitCompare, if_neg goes, digests, named, fenced, List.filter_nil, List.map_nil, List.foldl_nil, if_true]
  rfl

/-- Refutes O41, at its clause on DRYFIT_COMPARE: with region 11520 in the Frame, the end of the trial placement takes the step
number from 1 to 0; the step that commits is then followed by step 1, where the claim has step 2 follow. -/
theorem not_recoveryCommandsComplete : ¬ Obligations.RecoveryCommandsComplete := by
  unfold Obligations.RecoveryCommandsComplete
  intro h
  obtain ⟨commits, -, -, compares, -⟩ := h
  obtain ⟨equal, -⟩ := compares farRegionState 1 (by decide) (by decide) (by decide) (by decide) (by decide)
  obtain ⟨-, n, -, run, claimed, -⟩ := equal (by decide)
  obtain rfl := Host.Outcome.next.inj (dryfitCompare_farRegion.symm.trans run)
  obtain ⟨next, -⟩ := commits (farRegionEqual.endTrials 1 []) 1 (by decide) (by decide)
  rw [next, stepNo_endTrials_farRegion] at claimed
  exact absurd claimed (by decide)

end Sys2Proof.Machine
end

section
/-!
SUPPORT. What the reads and writes of partition memory leave of the Plane: beside the logs and the counts of the HBM controllers
they stop partitions and gather gradients in layers that are IDLE (R388, R391, R392, R410 to R414, R443 to R448, R455).
-/

namespace Sys2Proof.Machine

/-! ### The relation -/

/-- What a gathered gradient may make of a layer: only one in IDLE changes, and it stays there or becomes READY (R391, R392). -/
structure LayerGathers (x y : Layer) : Prop where
  busy : x.st ≠ .idle → y = x
  idle : x.st = .idle → y.st = .idle ∨ y.st = .ready

/-- What accesses to partition memory may make of a partition. -/
structure PartGathers (x y : Part) : Prop where
  own : y.own = { x.own with stopped := y.own.stopped }
  run : y.run = x.run
  commit : y.commit = x.commit
  latched : y.pln.latched = x.pln.latched
  layer : ∀ l, LayerGathers (Tab.get Layer.reset x.pln.layers l) (Tab.get Layer.reset y.pln.layers l)

/-- `PLN_STEPSTAT` of a partition (R428). -/
def IsStepstat (a : Nat) : Prop := ∃ p, 1 ≤ p ∧ p ≤ 8 ∧ a = Reg.plnStepstat p

/-- From `s` to `t` partition memory has been read and written. -/
structure Gathers (s t : State) : Prop where
  tide : t.tide = s.tide
  engines : t.comp.engines = s.comp.engines
  stepstat : ∀ a, IsStepstat a → t.reg a = s.reg a
  part : ∀ q, PartGathers (s.part q) (t.part q)

/-- An address whose place in its page is not that of `PLN_STEPSTAT`. -/
theorem not_stepstat {a : Nat} (h : a % 0x10000 < 0x100) : ¬ IsStepstat a := by
  rintro ⟨p, h1, h8, rfl⟩
  unfold Reg.plnStepstat at h
  omega
theorem IsStepstat.not_logReg {a : Nat} (h : IsStepstat a) : ¬ IsLogReg a := by
  obtain ⟨p, -, -, rfl⟩ := h
  rintro ⟨f, h | h⟩
  all_goals
    simp only [Reg.plnStepstat, Reg.hstEvlogTail, Reg.hstFuncstat, Reg.hst] at h
    split at h
    all_goals omega
theorem not_stepstat_hbmErrcnt (k : Nat) : ¬ IsStepstat (Reg.hbmErrcnt k) := not_stepstat (by unfold Reg.hbmErrcnt; omega)
theorem not_stepstat_hbmErrcnt2 (k : Nat) : ¬ IsStepstat (Reg.hbmErrcnt2 k) := not_stepstat (by unfold Reg.hbmErrcnt2; omega)
theorem not_stepstat_hbmElog0 (k : Nat) : ¬ IsStepstat (Reg.hbmElog0 k) := not_stepstat (by unfold Reg.hbmElog0; omega)
theorem not_stepstat_hbmElog1 (k : Nat) : ¬ IsStepstat (Reg.hbmElog1 k) := not_stepstat (by unfold Reg.hbmElog1; omega)
theorem not_stepstat_hbmScrub (k : Nat) : ¬ IsStepstat (Reg.hbmScrub k) := not_stepstat (by unfold Reg.hbmScrub; omega)

theorem LayerGathers.refl (x : Layer) : LayerGathers x x := ⟨fun _ => rfl, .inl⟩

theorem LayerGathers.trans {x y z : Layer} (h : LayerGathers x y) (k : LayerGathers y z) : LayerGathers x z where
  busy hx := by
    have same := h.busy hx
    rw [k.busy (by rwa [same]), same]
  idle hx := by
    obtain idle | ready := h.idle hx
    · exact k.idle idle
    · rw [k.busy (by rw [ready]; decide)]
      exact .inr ready

theorem PartGathers.refl (x : Part) : PartGathers x x := ⟨rfl, rfl, rfl, rfl, fun _ => .refl _⟩

theorem PartGathers.trans {x y z : Part} (h : PartGathers x y) (k : PartGathers y z) : PartGathers x z where
  own := by
    rw [k.own, h.own]
  run := k.run.trans h.run
  commit := k.commit.trans h.commit
  latched := k.latched.trans h.latched
  layer l := (h.layer l).trans (k.layer l)

section
variable {s t u : State}

/-! ### The rules of `Gathers` -/

theorem Gathers.refl (s : State) : Gathers s s := ⟨rfl, rfl, fun _ _ => rfl, fun _ => .refl _⟩

theorem Gathers.trans (h : Gathers s t) (k : Gathers t u) : Gathers s u where
  tide := k.tide.trans h.tide
  engines := k.engines.trans h.engines
  stepstat a ha := (k.stepstat a ha).trans (h.stepstat a ha)
  part q := (h.part q).trans (k.part q)

/-- A change beside what the relation speaks of. -/
theorem Gathers.same (h : Gathers s t) (hparts : u.comp.parts = t.comp.parts := by rfl)
    (hengines : u.comp.engines = t.comp.engines := by rfl) (hregs : u.regs = t.regs := by rfl)
    (htide : u.tide = t.tide := by rfl) : Gathers s u :=
  h.trans ⟨htide, hengines, fun a _ => State.reg_congr hregs a, fun q => by rw [State.part_congr hparts]; exact .refl _⟩

theorem Gathers.setReg (h : Gathers s t) {a : Nat} (ha : ¬ IsStepstat a) (v : Word) : Gathers s (t.setReg a v) :=
  h.trans ⟨rfl, rfl, fun _ hb => State.reg_setReg_ne _ _ fun e => ha (e ▸ hb), fun _ => .refl _⟩

theorem Gathers.bump (h : Gathers s t) {a : Nat} (ha : ¬ IsStepstat a) (hi lo n : Nat) : Gathers s (t.bump a hi lo n) :=
  h.setReg ha _

theorem Gathers.modPart (h : Gathers s t) (p : Nat) {f : Part → Part} (hf : PartGathers (t.part p) (f (t.part p))) :
    Gathers s (t.modPart p f) :=
  h.trans ⟨rfl, rfl, fun _ _ => rfl, fun q => by
    rw [State.part_modPart]
    split
    next e => exact e ▸ hf
    next => exact .refl _⟩

theorem Gathers.ite {c : Prop} [Decidable c] (h : Gathers s t) (k : Gathers s u) : Gathers s (if c then t else u) := by
  split
  · exact h
  · exact k

theorem Gathers.foldl {α : Type} {f : State → α → State} (l : List α) (h : Gathers s t)
    (hf : ∀ u x, Gathers s u → Gathers s (f u x)) : Gathers s (l.foldl f t) := by
  induction l generalizing t with
  | nil => exact h
  | cons x xs ih => exact ih (hf t x h)

theorem LogFrame.gathers (h : LogFrame s t) : Gathers s t where
  tide := h.tide
  engines := by rw [h.comp]
  stepstat a ha := h.2 a ha.not_logReg
  part q := by rw [State.part_congr (congrArg Compute.parts h.comp)]; exact .refl _

theorem Gathers.stopFor (h : Gathers s t) (sev : Severity) (p : Nat) : Gathers s (t.stopFor sev p) := by
  cases sev
  case partitionFatal =>
    exact h.modPart p (f := fun x => { x with own := { x.own with stopped := true } }) ⟨rfl, rfl, rfl, rfl, fun _ => .refl _⟩
  all_goals exact h.same

theorem Gathers.signal (h : Gathers s t) (id : EventId) (p : Nat) (ops : List Nat) : Gathers s (t.signal id p ops) := by
  obtain ⟨u, logs, -, stopped⟩ := signal_spec id p ops t
  rw [stopped]
  exact (h.trans logs.gathers).stopFor ..

/-! ### What follows for the parts of the state -/

theorem Gathers.engine (h : Gathers s t) (e : Nat) : t.engine e = s.engine e := by rw [State.engine, h.engines, State.engine]
theorem Gathers.layer (h : Gathers s t) (q m : Nat) : LayerGathers (s.layer q m) (t.layer q m) := (h.part q).layer m

/-- A gathered gradient stages nothing. -/
theorem Gathers.notStaged (h : Gathers s t) {q m : Nat} (hs : (s.layer q m).st ≠ .staged) : (t.layer q m).st ≠ .staged := by
  by_cases idle : (s.layer q m).st = .idle
  · obtain still | ready := (h.layer q m).idle idle
    · rw [still]; decide
    · rw [ready]; decide
  · rwa [(h.layer q m).busy idle]

theorem Gathers.frameOf (h : Gathers s t) (p : Nat) : t.frameOf p = s.frameOf p := by
  rw [State.frameOf, (h.part p).own, State.frameOf]
theorem Gathers.alloc (h : Gathers s t) (p tid : Nat) : t.alloc p tid = s.alloc p tid := by
  rw [State.alloc, (h.part p).own, State.alloc]
theorem Gathers.layerStack (h : Gathers s t) (p : Nat) (r : LayerRec) : t.layerStack p r = s.layerStack p r := by
  rw [State.layerStack, h.alloc, State.layerStack]
theorem Gathers.slice (h : Gathers s t) (p k : Nat) : t.slice p k = s.slice p k := h.alloc ..
theorem Gathers.stepCommitted (h : Gathers s t) (p : Nat) (step : Word) : t.stepCommitted p step = s.stepCommitted p step := by
  rw [State.stepCommitted, (h.part p).commit, State.stepCommitted]

/-! ### Blocks of HBM (R443 to R448, R455) -/

theorem Gathers.hbmLog (h : Gathers s t) (k kind blk b0 b1 : Nat) : Gathers s (t.hbmLog k kind blk b0 b1) :=
  (h.setReg (not_stepstat_hbmElog0 k) _).setReg (not_stepstat_hbmElog1 k) _

theorem Gathers.lineSuspect (h : Gathers s t) (k ch byte : Nat) : Gathers s (t.lineSuspect k ch byte) :=
  .ite (Gathers.signal h.same ..) h

theorem Gathers.countCorrected (h : Gathers s t) (k blk : Nat) (bytes : List Nat) (scrub : Bool) :
    Gathers s (t.countCorrected k blk bytes scrub) := by
  have logged := (h.bump (not_stepstat_hbmErrcnt k) 63 32 1).hbmLog k 1 blk (bytes.getD 0 127) (bytes.getD 1 127)
  unfold State.countCorrected
  extract_lets ch s1 s2 x new y s3 n s4
  have h2 : Gathers s s2 := .ite (logged.bump (not_stepstat_hbmErrcnt2 k) ..) logged
  have h4 : Gathers s s4 := .ite (Gathers.signal h2.same ..) h2.same
  exact h4.foldl _ fun _ _ hu => hu.lineSuspect ..

theorem Gathers.countUncorrectable (h : Gathers s t) (k blk : Nat) : Gathers s (t.countUncorrectable k blk) := by
  unfold State.countUncorrectable
  extract_lets ch s1 p s2 x hist y s3 due z s4
  have h1 : Gathers s s1 := ((h.bump (not_stepstat_hbmErrcnt k) ..).hbmLog ..).same
  have h3 : Gathers s s3 := (h1.signal ..).same
  have h4 : Gathers s s4 := Gathers.setReg h3.same (not_stepstat_hbmScrub k) _
  exact .ite (.ite (h4.signal ..) h4) h3

theorem Gathers.blockLost (h : Gathers s t) (k blk : Nat) (scrub : Bool) : Gathers s (t.blockLost k blk scrub).2 :=
  .ite (h.countUncorrectable k blk) ((h.countUncorrectable k blk).bump (not_stepstat_hbmErrcnt k) ..)

theorem Gathers.blockFixed (h : Gathers s t) (k blk : Nat) (scrub : Bool) (fixed : List Nat) :
    Gathers s (t.blockFixed k blk scrub fixed) := .ite h.same (Gathers.countCorrected h.same ..)

theorem Gathers.readBlock (h : Gathers s t) (k blk : Nat) (scrub : Bool) : Gathers s (t.readBlock k blk scrub).2 := by
  unfold State.readBlock
  dsimp only
  split
  case isTrue => exact .ite h ((h.bump (not_stepstat_hbmErrcnt k) ..).hbmLog ..)
  case isFalse =>
    split
    · exact h
    · split
      · exact h.blockFixed ..
      · split
        · exact h.blockLost ..
        · split
          · exact h.blockLost ..
          · exact Gathers.blockFixed h.same ..

theorem Gathers.refuseWrite (h : Gathers s t) (k rel : Nat) : Gathers s (t.refuseWrite k rel) :=
  (h.bump (not_stepstat_hbmErrcnt2 k) ..).signal ..

theorem Gathers.writeBlock (h : Gathers s t) (k rel : Nat) (d : List Byte) : Gathers s (t.writeBlock k rel d) := by
  have read := h.readBlock k (rel / 64) false
  unfold State.writeBlock
  dsimp only
  split
  · exact h.same
  · exact .ite (h.refuseWrite ..) (.ite read.same ((read.setReg (not_stepstat_hbmErrcnt k) _).refuseWrite ..))

/-! ### Ranges of partition memory (R391, R392, R438) -/

theorem Gathers.writeUnit (h : Gathers s t) {p pa : Nat} {d : List Byte} {e : Nat × State}
    (he : t.writeUnit p pa d = some e) : Gathers s e.2 := by
  unfold State.writeUnit at he
  dsimp only at he
  split at he
  · exact nomatch he
  · split at he
    · exact nomatch he
    · obtain rfl := Option.some.inj he
      exact h.writeBlock ..

theorem Gathers.writePa (p n : Nat) : ∀ (pa : Nat) (d : List Byte) {t : State}, Gathers s t →
    Gathers s (State.writePa p n pa d t).2 := by
  induction n with
  | zero => exact fun _ _ _ h => h
  | succ n ih =>
    intro pa d t h
    rw [State.writePa]
    split
    · exact h
    next e he => exact ih _ _ (h.writeUnit he)

theorem Gathers.readUnit (h : Gathers s t) {p pa len : Nat} {e : PaRead × State} (he : t.readUnit p pa len = some e) :
    Gathers s e.2 := by
  unfold State.readUnit at he
  dsimp only at he
  split at he
  · exact nomatch he
  · split at he
    · exact nomatch he
    · obtain rfl := Option.some.inj he
      exact h.readBlock ..

theorem Gathers.readPa (p n : Nat) : ∀ (pa len : Nat) {t : State}, Gathers s t → Gathers s (State.readPa p n pa len t).2 := by
  induction n with
  | zero => exact fun _ _ _ h => h
  | succ n ih =>
    intro pa len t h
    rw [State.readPa]
    split
    · exact h
    next e he => exact ih _ _ (h.readUnit he)

theorem Gathers.readRange (h : Gathers s t) (p pa len : Nat) : Gathers s (t.readRange p pa len).2 := .readPa _ _ _ _ h

/-- A layer whose gradient has grown, when it was IDLE. -/
theorem Gathers.gathered (h : Gathers s t) {p l : Nat} {y : Layer} (was : (t.layer p l).st = .idle)
    (is : y.st = .idle ∨ y.st = .ready) : Gathers s (t.setLayer p l y) := by
  refine h.modPart p (f := fun x => { x with pln := { x.pln with layers := Tab.set Layer.reset x.pln.layers l y } })
    ⟨rfl, rfl, rfl, rfl, fun m => ?_⟩
  rw [Tab.get_set]
  split
  next e => exact e ▸ ⟨fun busy => absurd was busy, fun _ => is⟩
  next => exact .refl _

theorem Gathers.firstReadyAt (h : Gathers s t) (p : Nat) (g : PartPlane → Option Nat) :
    Gathers s (t.modPln p fun y => { y with firstReadyAt := g y }) :=
  h.modPart p (f := fun x => { x with pln := { x.pln with firstReadyAt := g x.pln } }) ⟨rfl, rfl, rfl, rfl, fun _ => .refl _⟩

theorem Gathers.countGradient (h : Gathers s t) (p pa n : Nat) (r : LayerRec) : Gathers s (t.countGradient p pa n r) := by
  unfold State.countGradient
  split
  · exact h
  · dsimp only
    split
    · exact h
    · split
      · exact h.signal ..
      next idle =>
        have was : (t.layer p r.layer).st = .idle := not_not.1 fun busy => idle (.inl busy)
        refine .ite ?_ (h.gathered was (.inl was))
        exact (h.gathered was (.inr rfl)).firstReadyAt ..

theorem Gathers.writeRange (h : Gathers s t) (p pa : Nat) (d : List Byte) : Gathers s (t.writeRange p pa d).2 :=
  (Gathers.writePa _ _ _ _ h).foldl _ fun _ _ hu => hu.countGradient ..

theorem Gathers.poisonPa (h : Gathers s t) (p pa : Nat) : Gathers s (t.poisonPa p pa) := by
  unfold State.poisonPa
  split
  · exact h.same
  · exact h

/-! ### The staging ring, copy-in and the engine's reads (R388, R399, R410 to R414) -/

theorem Gathers.ringRead (h : Gathers s t) (p : Nat) (a : Alloc) (off n : Nat) : Gathers s (t.ringRead p a off n).2.2 := by
  unfold State.ringRead
  dsimp only
  split
  · exact (h.readRange ..).readRange ..
  · exact h.readRange ..

theorem Gathers.ringWrite (h : Gathers s t) (p : Nat) (a : Alloc) (off : Nat) (d : List Byte) :
    Gathers s (t.ringWrite p a off d) := .ite ((h.writeRange ..).writeRange ..) (h.writeRange ..)

theorem Gathers.spreadPoison (h : Gathers s t) (p src dst len : Nat) (bad : List Nat) :
    Gathers s (t.spreadPoison p src dst len bad) :=
  h.foldl _ fun _ _ hu => .ite (hu.foldl _ fun _ _ hv => hv.poisonPa ..) hu

theorem Gathers.copyIn (h : Gathers s t) (p : Nat) (r : LayerRec) (g : Staged) : Gathers s (t.copyIn p r g) := by
  unfold State.copyIn
  split
  · exact h
  · extract_lets wn sn q s1 wBase s2 s3 u s4 sBase s5
    have h1 : Gathers s s1 := h.ringRead ..
    have h3 : Gathers s s3 := (h1.writeRange ..).spreadPoison ..
    have h4 : Gathers s s4 := h3.ringRead ..
    have h5 : Gathers s s5 := .ite h4 ((h4.writeRange ..).spreadPoison ..)
    split
    · exact h5
    · split
      · exact (h5.writeRange ..).foldl _ fun v _ hv =>
          have elements := hv.foldl _ fun _ _ hw => hw.poisonPa ..
          .ite elements (elements.foldl _ fun _ _ hw => hw.poisonPa ..)
      · exact h5

theorem Gathers.readTensor (h : Gathers s t) (p tid : Nat) : Gathers s (t.readTensor p tid).2.2 := by
  unfold State.readTensor
  split
  · exact h
  · exact h.readRange ..

theorem Gathers.readUpdate (h : Gathers s t) (p : Nat) (r : LayerRec) : Gathers s (t.readUpdate p r).2 := by
  have read := ((h.readTensor p r.w).readTensor p r.st).readTensor p r.g
  simpa only [State.readUpdate] using read

theorem Gathers.fillBytes (h : Gathers s t) (p : Nat) (w : WmloadRec) (j k : Nat) : Gathers s (t.fillBytes p w j k).2.2 := by
  unfold State.fillBytes
  split
  · exact h
  · exact h.readRange ..

end

theorem gathers_ringWrite (s : State) (p : Nat) (a : Alloc) (off : Nat) (d : List Byte) : Gathers s (s.ringWrite p a off d) :=
  (Gathers.refl s).ringWrite ..
theorem gathers_copyIn (s : State) (p : Nat) (r : LayerRec) (g : Staged) : Gathers s (s.copyIn p r g) := (Gathers.refl s).copyIn ..
theorem gathers_readUpdate (s : State) (p : Nat) (r : LayerRec) : Gathers s (s.readUpdate p r).2 := (Gathers.refl s).readUpdate ..

/-- A fill writes into tiles, after reads of partition memory (R361). -/
theorem gathers_writeFill (s : State) (p : Nat) (w : WmloadRec) (j : Nat) : Gathers s (s.writeFill p w j).2 := by
  have fold (l : List (Nat × LT)) : ∀ acc : List Nat × State, Gathers s acc.2 → Gathers s (l.foldl (fun acc kl =>
      let r := acc.2.fillBytes p w j kl.1
      if r.2.1 = [] then (acc.1, r.2.2.modTile (r.2.2.runsAt kl.2) fun x => x.store w.wmaddr r.1)
      else (acc.1 ++ r.2.1, r.2.2)) acc).2 := by
    induction l with
    | nil => exact fun _ h => h
    | cons kl l ih =>
      intro acc h
      refine ih _ ?_
      have read := h.fillBytes p w j kl.1
      dsimp only
      split
      · exact read.same
      · exact read
  exact fold _ _ (.refl s)

end Sys2Proof.Machine
end

section
/-!
SUPPORT. When copy-ins begin, and what they and the refresh of windows leave of the Plane (R317, R362, R363, R398, R414, R415).
-/

namespace Sys2Proof.Machine

/-! ### Layers and engines after an update -/

/-- A change of a partition's Plane beside its layers. -/
theorem layer_modPln (s : State) (p : Nat) {f : PartPlane → PartPlane} (kept : ∀ y, (f y).layers = y.layers) (q m : Nat) :
    (s.modPln p f).layer q m = s.layer q m := by
  rw [State.layer, State.modPln, State.part_modPart]
  split
  next e => rw [e, kept, State.layer]
  next => rfl

theorem layer_setLayer_same (s : State) (p l : Nat) (x : Layer) : (s.setLayer p l x).layer p l = x := by
  rw [State.layer_setLayer, if_pos ⟨rfl, rfl⟩]

theorem layer_setLayer_ne (s : State) {p l q m : Nat} (x : Layer) (h : (q, m) ≠ (p, l)) :
    (s.setLayer p l x).layer q m = s.layer q m := by
  rw [State.layer_setLayer, if_neg fun e => h (Prod.ext e.1 e.2)]

/-- A layer that is not staged takes the place of one that need not be so. -/
theorem notStaged_setLayer {s : State} {p l : Nat} {x : Layer} (hx : x.st ≠ .staged)
    (others : ∀ q m, (q, m) ≠ (p, l) → (s.layer q m).st ≠ .staged) (q m : Nat) : ((s.setLayer p l x).layer q m).st ≠ .staged := by
  by_cases e : (q, m) = (p, l)
  · obtain ⟨rfl, rfl⟩ := Prod.mk.inj e
    rwa [layer_setLayer_same]
  · rw [layer_setLayer_ne _ _ e]
    exact others q m e

/-- The record of a layer of the applied Frame is its own. -/
theorem layer_of_layerRec {s : State} {p l : Nat} {r : LayerRec} (h : s.layerRec p l = some r) : r.layer = l :=
  by simpa using List.find?_some h

/-! ### Which layers can be copied in (R363, R415) -/

/-- The listed layers, in the order in which they are looked at. -/
def State.planeLayers (s : State) : List (Nat × Nat) :=
  s.comp.parts.flatMap fun kp => kp.2.pln.layers.map fun kl => (kp.1, kl.1)

/-- A layer is looked at: it begins when it can be copied in. -/
def State.tryCopy (s : State) (e : Nat × Nat) : State := if s.copyReady e.1 e.2 then s.beginCopy e.1 e.2 else s

theorem beginCopies_eq (s : State) : s.beginCopies = s.planeLayers.foldl State.tryCopy s := by
  rw [State.planeLayers, List.foldl_flatMap]
  simp only [List.foldl_map]
  rfl

section
variable {s : State} {p l : Nat}

theorem mem_planeLayers (h : (s.layer p l).st ≠ .idle) : (p, l) ∈ s.planeLayers := by
  have layer : (l, s.layer p l) ∈ (s.part p).pln.layers :=
    (Tab.get_mem ..).resolve_left fun e => h (by rw [State.layer, e]; rfl)
  have part : (p, s.part p) ∈ s.comp.parts :=
    (Tab.get_mem ..).resolve_left fun e => by
      rw [State.part, e] at layer
      exact absurd layer List.not_mem_nil
  exact List.mem_flatMap.2 ⟨_, part, List.mem_map.2 ⟨_, layer, rfl⟩⟩

theorem copyReady_spec (h : s.copyReady p l = true) : (s.layer p l).st = .staged ∧ (s.layer p l).granted = true ∧
    ∃ g r, (s.layer p l).staged = some g ∧ s.layerRec p l = some r := by
  unfold State.copyReady at h
  dsimp only at h
  split at h
  next g r staged known =>
    simp only [Bool.and_eq_true, decide_eq_true_eq] at h
    obtain ⟨⟨⟨⟨⟨st, granted⟩, -⟩, -⟩, -⟩, -⟩ := h
    exact ⟨st, granted, g, r, staged, known⟩
  next => exact absurd h Bool.false_ne_true

theorem tryCopy_of_not_ready {e : Nat × Nat} (h : s.copyReady e.1 e.2 ≠ true) : s.tryCopy e = s := if_neg h
theorem tryCopy_of_not_staged {e : Nat × Nat} (h : (s.layer e.1 e.2).st ≠ .staged) : s.tryCopy e = s :=
  tryCopy_of_not_ready fun ready => h (copyReady_spec ready).1

/-- Where no layer can be copied in, none begins. -/
theorem beginCopies_none (h : ∀ q m, s.copyReady q m ≠ true) : s.beginCopies = s := by
  rw [beginCopies_eq]
  exact foldl_fixed fun e _ => tryCopy_of_not_ready (h e.1 e.2)

theorem beginCopies_not_staged (h : ∀ q m, (s.layer q m).st ≠ .staged) : s.beginCopies = s :=
  beginCopies_none fun q m ready => h q m (copyReady_spec ready).1

end

/-! ### One copy-in begins (R398, R414) -/

/-- COMMIT is written in the record of a staged layer. -/
def State.writeCommit (p : Nat) (r : LayerRec) (g : Staged) (s : State) : State :=
  match s.slice p (s.layerStack p r) with
  | some a => s.ringWrite p a (g.off + 0x30) (leBytes 8 commitWord)
  | none => s

theorem gathers_writeCommit (s : State) (p : Nat) (r : LayerRec) (g : Staged) : Gathers s (s.writeCommit p r g) := by
  unfold State.writeCommit
  split
  · exact gathers_ringWrite ..
  · exact .refl s

/-- A layer whose copy-in begins. -/
def Layer.copying (g : Staged) (x : Layer) : Layer := { x with st := .copying, staged := some { g with committed := true } }

/-- The record of the last commit of a tensor (R412). -/
def State.putRec (p tid : Nat) (upd : BitVec 48) (s : State) : State := s.modPln p fun y => { y with recs := Tab.put y.recs tid upd }

/-- The engine that copies a layer in. -/
def Engine.copies (p l : Nat) (x : Engine) : Engine := { x with part := p, layer := l, work := 5 }

theorem layer_putRec (s : State) (p tid : Nat) (upd : BitVec 48) (q m : Nat) : (s.putRec p tid upd).layer q m = s.layer q m :=
  layer_modPln s p (f := fun y => { y with recs := Tab.put y.recs tid upd }) (fun _ => rfl) q m
theorem layer_setEngine (s : State) (e : Nat) (x : Engine) (q m : Nat) : (s.setEngine e x).layer q m = s.layer q m := rfl
theorem engine_putRec (s : State) (p tid : Nat) (upd : BitVec 48) (e : Nat) : (s.putRec p tid upd).engine e = s.engine e := rfl
theorem engine_setLayer (s : State) (p l : Nat) (x : Layer) (e : Nat) : (s.setLayer p l x).engine e = s.engine e := rfl

section
variable {s : State} {p l : Nat} {g : Staged} {r : LayerRec} (staged : (s.layer p l).staged = some g)
  (known : s.layerRec p l = some r)
include staged known

theorem beginCopy_eq : s.beginCopy p l =
    (((s.writeCommit p r g).setLayer p l ((s.layer p l).copying g)).putRec p r.w g.upd).setEngine (s.layer p l).engine
      (((((s.writeCommit p r g).setLayer p l ((s.layer p l).copying g)).putRec p r.w g.upd).engine (s.layer p l).engine).copies p l) := by
  unfold State.beginCopy
  simp only [staged, known]
  rfl

theorem layer_beginCopy (q m : Nat) :
    (s.beginCopy p l).layer q m = ((s.writeCommit p r g).setLayer p l ((s.layer p l).copying g)).layer q m := by
  rw [beginCopy_eq staged known, layer_setEngine, layer_putRec]

theorem layer_beginCopy_same : (s.beginCopy p l).layer p l = (s.layer p l).copying g := by
  rw [layer_beginCopy staged known, layer_setLayer_same]

theorem layer_beginCopy_ne {q m : Nat} (h : (q, m) ≠ (p, l)) : LayerGathers (s.layer q m) ((s.beginCopy p l).layer q m) := by
  rw [layer_beginCopy staged known, layer_setLayer_ne _ _ h]
  exact (gathers_writeCommit ..).layer q m

/-- Once the only staged layer has begun, none is staged. -/
theorem notStaged_beginCopy (others : ∀ q m, (q, m) ≠ (p, l) → (s.layer q m).st ≠ .staged) (q m : Nat) :
    ((s.beginCopy p l).layer q m).st ≠ .staged := by
  rw [layer_beginCopy staged known]
  refine notStaged_setLayer ?_ (fun q m h => (gathers_writeCommit ..).notStaged (others q m h)) q m
  show LayerState.copying ≠ .staged
  decide

theorem mismatches_beginCopy (e : Nat) : ((s.beginCopy p l).engine e).mismatches = (s.engine e).mismatches := by
  have written (k : Nat) := (gathers_writeCommit s p r g).engine k
  rw [beginCopy_eq staged known]
  by_cases here : e = (s.layer p l).engine
  · rw [here, State.engine_setEngine_same, engine_putRec, engine_setLayer, written, Engine.copies]
  · rw [State.engine_setEngine_ne _ _ here, engine_putRec, engine_setLayer, written]

end

/-- Where one layer alone is staged and can be copied in, it begins and no other. -/
theorem beginCopies_one {s : State} {p l : Nat} (ready : s.copyReady p l = true)
    (others : ∀ q m, (q, m) ≠ (p, l) → (s.layer q m).st ≠ .staged) : s.beginCopies = s.beginCopy p l := by
  obtain ⟨st, -, g, r, staged, known⟩ := copyReady_spec ready
  rw [beginCopies_eq]
  refine foldl_once (a := (p, l)) (mem_planeLayers (by rw [st]; decide)) (fun e _ ne => ?_) (if_pos ready) fun e _ => ?_
  · exact tryCopy_of_not_staged (others e.1 e.2 ne)
  · exact tryCopy_of_not_staged (notStaged_beginCopy staged known others e.1 e.2)

/-! ### What copy-ins that begin leave -/

/-- From `s` to `t` some staged layers have begun to be copied in. -/
structure CopiesBegun (s t : State) : Prop where
  tide : t.tide = s.tide
  run : ∀ q, (t.part q).run = (s.part q).run
  mismatches : ∀ e, (t.engine e).mismatches = (s.engine e).mismatches
  ready : ∀ q m, (s.layer q m).st = .ready → t.layer q m = s.layer q m

theorem CopiesBegun.refl (s : State) : CopiesBegun s s := ⟨rfl, fun _ => rfl, fun _ => rfl, fun _ _ _ => rfl⟩

theorem CopiesBegun.trans {s t u : State} (h : CopiesBegun s t) (k : CopiesBegun t u) : CopiesBegun s u where
  tide := k.tide.trans h.tide
  run q := (k.run q).trans (h.run q)
  mismatches e := (k.mismatches e).trans (h.mismatches e)
  ready q m hs := by
    have same := h.ready q m hs
    rw [k.ready q m (by rwa [same]), same]

theorem run_modPln (s : State) (p : Nat) (f : PartPlane → PartPlane) (q : Nat) : ((s.modPln p f).part q).run = (s.part q).run := by
  rw [State.modPln, State.part_modPart]
  split
  next e => rw [e]
  next => rfl

theorem run_setEngine (s : State) (e : Nat) (x : Engine) (q : Nat) : ((s.setEngine e x).part q).run = (s.part q).run := rfl

theorem copiesBegun_tryCopy (s : State) (e : Nat × Nat) : CopiesBegun s (s.tryCopy e) := by
  unfold State.tryCopy
  split
  next ready =>
    obtain ⟨st, -, g, r, staged, known⟩ := copyReady_spec ready
    have written := gathers_writeCommit s e.1 r g
    refine ⟨?_, fun q => ?_, mismatches_beginCopy staged known, fun q m hs => ?_⟩
    · rw [beginCopy_eq staged known, State.setEngine_tide, State.putRec, State.modPln_tide, State.setLayer, State.modPln_tide,
        written.tide]
    · rw [beginCopy_eq staged known, run_setEngine, State.putRec, run_modPln, State.setLayer, run_modPln, (written.part q).run]
    · refine (layer_beginCopy_ne staged known fun here => ?_).busy (by rw [hs]; decide)
      rw [Prod.mk.injEq] at here
      rw [here.1, here.2, st] at hs
      exact nomatch hs
  next => exact .refl s

theorem copiesBegun_beginCopies (s : State) : CopiesBegun s s.beginCopies := by
  rw [beginCopies_eq]
  generalize s.planeLayers = es
  induction es generalizing s with
  | nil => exact .refl s
  | cons e es ih => exact (copiesBegun_tryCopy s e).trans (ih _)

/-! ### Floats and windows (R317, R362) -/

/-- The layers and the engines are as they were. -/
structure SamePlane (s t : State) : Prop where
  engines : t.comp.engines = s.comp.engines
  pln : ∀ q, (t.part q).pln = (s.part q).pln

section
variable {s t u : State}

theorem SamePlane.refl (s : State) : SamePlane s s := ⟨rfl, fun _ => rfl⟩
theorem SamePlane.trans (h : SamePlane s t) (k : SamePlane t u) : SamePlane s u :=
  ⟨k.engines.trans h.engines, fun q => (k.pln q).trans (h.pln q)⟩

theorem SamePlane.layer (h : SamePlane s t) (q m : Nat) : t.layer q m = s.layer q m := by rw [State.layer, h.pln, State.layer]
theorem SamePlane.engine (h : SamePlane s t) (e : Nat) : t.engine e = s.engine e := by rw [State.engine, h.engines, State.engine]

/-- A change that leaves the partitions and the engines. -/
theorem SamePlane.same (h : SamePlane s t) (hparts : u.comp.parts = t.comp.parts := by rfl)
    (hengines : u.comp.engines = t.comp.engines := by rfl) : SamePlane s u :=
  h.trans ⟨hengines, fun q => by rw [State.part_congr hparts]⟩

theorem SamePlane.modPart (h : SamePlane s t) (p : Nat) {f : Part → Part} (kept : ∀ x, (f x).pln = x.pln) :
    SamePlane s (t.modPart p f) :=
  h.trans ⟨rfl, fun q => by
    rw [State.part_modPart]
    split
    next e => rw [e, kept]
    next => rfl⟩

theorem SamePlane.modRun (h : SamePlane s t) (p : Nat) (f : PartRun → PartRun) : SamePlane s (t.modRun p f) :=
  h.modPart p (f := fun x => { x with run := f x.run }) fun _ => rfl

theorem SamePlane.stopFor (h : SamePlane s t) (sev : Severity) (p : Nat) : SamePlane s (t.stopFor sev p) := by
  cases sev
  case partitionFatal => exact h.modPart p (f := fun x => { x with own := { x.own with stopped := true } }) fun _ => rfl
  all_goals exact h.same

theorem SamePlane.signal (h : SamePlane s t) (id : EventId) (p : Nat) (ops : List Nat) : SamePlane s (t.signal id p ops) := by
  obtain ⟨u, logs, -, stopped⟩ := signal_spec id p ops t
  rw [stopped]
  exact SamePlane.stopFor (h.same (congrArg Compute.parts logs.comp) (congrArg Compute.engines logs.comp)) ..

theorem SamePlane.sendTo (h : SamePlane s t) (x : PT) (l : LT) (mk : PT → Bool → Packet) : SamePlane s (t.sendTo x l mk) := by
  unfold State.sendTo
  split
  · exact h.same
  · exact h.signal ..

theorem SamePlane.foldl {α : Type} {f : State → α → State} (l : List α) (h : SamePlane s t)
    (hf : ∀ u x, SamePlane s u → SamePlane s (f u x)) : SamePlane s (l.foldl f t) := by
  induction l generalizing t with
  | nil => exact h
  | cons x xs ih => exact ih (hf t x h)

theorem SamePlane.floatApply (h : SamePlane s t) (p fid : Nat) (v : Bool) : SamePlane s (t.floatApply p fid v) :=
  SamePlane.foldl _ (h.modRun ..) fun _ _ hu => hu.sendTo ..

theorem SamePlane.refreshWindows (h : SamePlane s t) (p tid : Nat) : SamePlane s (t.refreshWindows p tid) := by
  refine h.foldl _ fun u w hu => ?_
  dsimp only
  split
  · exact SamePlane.floatApply (hu.modRun ..) ..
  · exact hu

theorem SameRuns.sendTo (h : SameRuns s t) (x : PT) (l : LT) (mk : PT → Bool → Packet) : SameRuns s (t.sendTo x l mk) := by
  unfold State.sendTo
  split
  · exact h.same
  · exact h.signal ..

end

theorem sameRuns_notify (s : State) (t : PT) (p fid : Nat) (v : Bool) (count : BitVec 16) : SameRuns s (s.notify t p fid v count) := by
  unfold State.notify
  generalize ((s.floatRow t fid).map fun r => r.notify).getD [] = ls
  suffices fold : ∀ u, SameRuns s u → SameRuns s (ls.foldl (fun s l => s.sendTo t l (floatVal p fid v count t)) u) from fold s (.refl s)
  induction ls with
  | nil => exact fun _ h => h
  | cons l ls ih => exact fun u h => ih _ (h.sendTo ..)

end Sys2Proof.Machine
end

section
/-!
SUPPORT. An update of a layer begins, fails a check, or is staged (R380, R396, R398, R411, R412, R418 to R421, R448).
-/

namespace Sys2Proof.Machine

/-! ### LAYER_COMPUTE (R396, R398, R411, R412) -/

section
variable {z : State} {p l : Nat} {r : LayerRec} {eta : Dword} {a : Alloc}

theorem exec_layerCompute {e : Nat} {s : State} (engine : z.engineFrom (z.layer p l).engine = e) (scanned : z.scanRings e = s)
    (running : z.enginesRun = true) (runs : s.enginesRun = true) (known : s.layerRec p l = some r)
    (size : s.stepSize p (s.layer p l).gradStep = some eta) (slice : s.slice p (s.layerStack p r) = some a)
    (ready : (s.layer p l).st = .ready) (free : (s.engine e).work = 0) (next : s.nextServed p l = true)
    (room : s.ringUsed p (s.layerStack p r) + up64 (s.stagedBytes p r) ≤ a.size) :
    exec (.layerCompute p l) z = .next (s.beginCompute p l e eta r a) := by
  show execLayerCompute p l z = _
  simp only [execLayerCompute, engine, scanned, if_pos running, known, size, slice]
  rw [if_pos ⟨runs, ready, free, next, room⟩]

end

/-- The step size is latched (R396). -/
def State.latchSize (p : Nat) (step : Word) (eta : Dword) (s : State) : State :=
  (s.modPln p fun y => { y with latched := some (step, eta) }).setField (Reg.plnStepstat p) 63 32 (stepTag step).toNat

section
variable (s : State) (p : Nat) (step : Word) (eta : Dword)

theorem latched_latchSize : ((s.latchSize p step eta).part p).pln.latched = some (step, eta) := by
  have same : (s.latchSize p step eta).part p = (s.modPln p fun y => { y with latched := some (step, eta) }).part p := rfl
  rw [same, State.modPln, State.part_modPart_same]

theorem field_latchSize : (s.latchSize p step eta).field (Reg.plnStepstat p) 63 32 = (stepTag step).toNat := by
  rw [State.latchSize, State.field_setField_same _ _ 63 32 _ (by decide) (by decide)]
  exact Nat.mod_eq_of_lt (stepTag step).isLt

end

/-! ### Beside the layer that is set -/

section
variable (s : State) (p l : Nat) (x : Layer) (q : Nat)

theorem latched_setLayer : ((s.setLayer p l x).part q).pln.latched = (s.part q).pln.latched := by
  rw [State.setLayer, State.modPln, State.part_modPart]
  split
  next e => rw [e]
  next => rfl

theorem commit_setLayer : ((s.setLayer p l x).part q).commit = (s.part q).commit := by
  rw [State.setLayer, State.modPln, State.part_modPart]
  split
  next e => rw [e]
  next => rfl

theorem reg_setLayer (b : Nat) : (s.setLayer p l x).reg b = s.reg b := rfl

theorem part_setEngine (e : Nat) (y : Engine) : (s.setEngine e y).part q = s.part q := rfl
theorem reg_setEngine (e : Nat) (y : Engine) (b : Nat) : (s.setEngine e y).reg b = s.reg b := rfl

end

/-- What a layer has that enters COMPUTE: its place in the ring, its step, its update, and the latched size. -/
theorem beginCompute_spec (s : State) {p : Nat} (l e : Nat) (eta : Dword) (r : LayerRec) (a : Alloc) (h1 : 1 ≤ p) (h8 : p ≤ 8) :
    let x := s.layer p l
    let n := s.beginCompute p l e eta r a
    ∃ g, n.layer p l = { x with st := .compute, engine := e, staged := some g, granted := false } ∧
      g.step = x.gradStep ∧ g.upd = x.upd + 1 ∧ g.committed = false ∧ g.off = s.ringNext p (s.layerStack p r) ∧
      g.addr = a.base + g.off ∧ n.engine e = { s.engine e with part := p, layer := l, work := ruleWork r.rule } ∧
      (n.part p).pln.latched = some (x.gradStep, eta) ∧ n.field (Reg.plnStepstat p) 63 32 = (stepTag x.gradStep).toNat := by
  unfold State.beginCompute
  extract_lets x off g s1 s2 s3 s4 e0 n
  have latched : s2 = s.latchSize p x.gradStep eta := rfl
  have written : Gathers s2 s3 := gathers_ringWrite s2 p a off _
  have engine : s3.engine e = s.engine e := written.engine e
  clear_value s3
  refine ⟨g, ?layer, rfl, rfl, rfl, rfl, rfl, ?engine, ?latched, ?size⟩
  case layer => exact (layer_setEngine ..).trans (layer_setLayer_same ..)
  case engine =>
    have same : e0 = s.engine e := engine
    exact (State.engine_setEngine_same ..).trans (by rw [same])
  case latched => rw [part_setEngine, latched_setLayer, (written.part p).latched, latched, latched_latchSize]
  case size =>
    rw [State.field, reg_setEngine, reg_setLayer, written.stepstat _ ⟨p, h1, h8, rfl⟩, latched, ← State.field, field_latchSize]

/-! ### A check fails (R421) -/

theorem checkFailed_spec (s : State) (p l e : Nat) : let x := s.layer p l
    ∃ u v, Signals Ev.plnCheck p [e, p, l, x.gradStep.toNat] u v ∧
      u.layer p l = { x with st := .ready, staged := none, granted := false, engine := s.engineFrom ((e + 1) % 24) } ∧
      ((∀ q m, (s.layer q m).st ≠ .staged) → (u.engine e).work = 0) ∧
      s.checkFailed p l e = if recent s.now dayNs (s.engine e).mismatches = [] then v else v.fenceEngine e 0x0603 p := by
  unfold State.checkFailed
  extract_lets x s1 s2 old e0 s3 s4 s5
  have here : (s1.freeEngine e).layer p l =
      { x with st := .ready, staged := none, granted := false, engine := s.engineFrom ((e + 1) % 24) } := by
    rw [State.freeEngine, layer_setEngine, layer_setLayer_same]
  have free : (s1.freeEngine e).engine e = { s.engine e with part := 0, layer := 0, work := 0 } := State.engine_setEngine_same ..
  have none_left : (∀ q m, (s.layer q m).st ≠ .staged) → ∀ q m, ((s1.freeEngine e).layer q m).st ≠ .staged :=
    fun none_staged => notStaged_setLayer (fun h => nomatch h) fun q m _ => none_staged q m
  have now : (s1.freeEngine e).now = s.now := rfl
  have begun : CopiesBegun (s1.freeEngine e) s2 := copiesBegun_beginCopies _
  have still : (∀ q m, (s.layer q m).st ≠ .staged) → s2 = s1.freeEngine e := fun h => beginCopies_not_staged (none_left h)
  generalize s1.freeEngine e = f at here free now begun still
  clear_value s2
  have hist : old = recent s.now dayNs (s.engine e).mismatches := by
    have same : s2.now = s.now := (congrArg BitVec.toNat begun.tide).trans now
    have mismatches : (s2.engine e).mismatches = (s.engine e).mismatches := by rw [begun.mismatches, free]
    show recent s2.now dayNs (s2.engine e).mismatches = _
    rw [same, mismatches]
  refine ⟨s4, s5, signal_spec Ev.plnCheck p [e, p, l, x.gradStep.toNat] s4, ?layer, fun none_staged => ?free, by rw [hist]⟩
  case layer => exact (begun.ready p l (by rw [here])).trans here
  case free =>
    have marked : s4.engine e = { s2.engine e with mismatches := old ++ [s2.now] } := State.engine_setEngine_same ..
    rw [marked, still none_staged, free]

/-! ### The update is staged (R403 to R405, R411, R412) -/

/-- A layer whose update is staged. -/
def Layer.stagedBy (g : Staged) (digest : Word) (res : PlnResult) (x : Layer) : Layer :=
  { x with
    st := .staged, fbLast := res.fallback
    refPend := (if res.fallback then true else if res.refreshed then false else x.refPend)
    staged := some { g with fallback := res.fallback, refreshed := res.refreshed, digest := digest } }

/-- An engine that has held the products of an update and is free. -/
def Engine.freeAfter (res : PlnResult) (x : Engine) : Engine :=
  { x.hold (res.w.flatMap (leBytes 4) ++ res.s.flatMap (leBytes 4)) with part := 0, layer := 0, work := 0 }

theorem stageUpdate_spec {s : State} {p l : Nat} (e : Nat) (r : LayerRec) (a : Alloc) (g : Staged) (digest : Word) (res : PlnResult)
    (ungranted : (s.layer p l).granted = false) (none_staged : ∀ q m, (s.layer q m).st ≠ .staged) :
    let n := s.stageUpdate p l e r a g digest res
    n.layer p l = (s.layer p l).stagedBy g digest res ∧ n.engine e = (s.engine e).freeAfter res ∧
      (n.part p).commit = (s.part p).commit := by
  unfold State.stageUpdate
  extract_lets x wn d s1 s2 fl s3 pend g' s4 s5 s6 s7 n
  have written : Gathers s s3 := ((gathers_ringWrite s ..).ringWrite ..).ringWrite ..
  clear_value s3
  have here : (s6.freeEngine e).layer p l = x.stagedBy g digest res := layer_setLayer_same ..
  have engine : (s6.freeEngine e).engine e = (s.engine e).freeAfter res := by
    have held : s6.engine e = (s3.engine e).hold (d ++ res.s.flatMap (leBytes 4)) := State.engine_setEngine_same ..
    rw [State.freeEngine, State.engine_setEngine_same, held, written.engine]
    rfl
  have commit : ((s6.freeEngine e).part p).commit = (s.part p).commit := by
    have set : ((s6.freeEngine e).part p).commit = (s4.part p).commit := rfl
    rw [set, commit_setLayer, (written.part p).commit]
  have idle : ∀ q m, (s6.freeEngine e).copyReady q m ≠ true := by
    intro q m ready
    obtain ⟨st, granted, -⟩ := copyReady_spec ready
    by_cases same : (q, m) = (p, l)
    · obtain ⟨rfl, rfl⟩ := Prod.mk.inj same
      rw [here] at granted
      exact Bool.false_ne_true (ungranted.symm.trans granted)
    · have other : (s6.freeEngine e).layer q m = s3.layer q m := layer_setLayer_ne _ _ same
      rw [other] at st
      exact written.notStaged (none_staged q m) st
  have freed : s7 = s6.freeEngine e := beginCopies_none idle
  have comp : n.comp = (s6.freeEngine e).comp := by
    rw [← freed]
    unfold n
    cases res.failed with
    | none => rfl
    | some f => exact (signal_spec Ev.plnSingular p _ _).comp (by decide)
  have parts (q : Nat) : n.part q = (s6.freeEngine e).part q := State.part_congr (congrArg Compute.parts comp) q
  refine ⟨?_, ?_, ?_⟩
  · rw [State.layer, parts, ← State.layer, here]
  · rw [State.engine, comp, ← State.engine, engine]
  · rw [parts, commit]

/-- The same, once the tensors of the layer, which is in COMPUTE, have been read. -/
theorem stageUpdate_read {s t : State} {p l : Nat} (read : Gathers s t) (r : LayerRec) (a : Alloc) (g : Staged) (digest : Word)
    (res : PlnResult) (computes : (s.layer p l).st = .compute) (ungranted : (s.layer p l).granted = false)
    (none_staged : ∀ q m, (s.layer q m).st ≠ .staged) :
    let n := t.stageUpdate p l (s.layer p l).engine r a g digest res
    n.layer p l = (s.layer p l).stagedBy g digest res ∧ n.engine (s.layer p l).engine = (s.engine (s.layer p l).engine).freeAfter res ∧
      n.stepCommitted p g.step = s.stepCommitted p g.step := by
  have same : t.layer p l = s.layer p l := (read.layer p l).busy (by rw [computes]; decide)
  obtain ⟨layer, engine, commit⟩ := stageUpdate_spec (s.layer p l).engine r a g digest res (same ▸ ungranted)
    fun q m => read.notStaged (none_staged q m)
  refine ⟨layer.trans (by rw [same]), engine.trans (by rw [read.engine]), ?_⟩
  rw [State.stepCommitted, commit, ← State.stepCommitted, read.stepCommitted]

/-! ### LAYER_COMPUTE_DONE (R398, R418 to R421, R448) -/

/-- The latched step size, as the engine takes it (R396). -/
def State.latchedSize (s : State) (p : Nat) : Nat :=
  match (s.part p).pln.latched with
  | some (_, v) => v.toNat
  | none => 0

/-- What the engine makes of the tensors that it has read (R399 to R408). -/
def State.updateResult (s : State) (p l : Nat) (r : LayerRec) (g : Staged) : PlnResult :=
  plnUpdate (plnRuleOf (s.frameOf p) r) (s.latchedSize p) g.upd.toNat (s.layer p l).refPend (s.readUpdate p r).1.w
    (s.readUpdate p r).1.st (s.readUpdate p r).1.g

/-- The end of an update whose tensors have been read: a poisoned block resets the partition (R448), a wrong checksum discards the
copy (R421), and else it is staged. -/
def State.updateEnd (s : State) (p l : Nat) (r : LayerRec) (g : Staged) : State :=
  match (s.readUpdate p r).1.bad, s.slice p (s.layerStack p r) with
  | b :: _, _ => (s.readUpdate p r).2.poisonConsumed p b 5
  | [], none => s
  | [], some a =>
    if (s.updateResult p l r g).checked = false then (s.readUpdate p r).2.checkFailed p l (s.layer p l).engine
    else
      let n := (s.readUpdate p r).2.stageUpdate p l (s.layer p l).engine r a g (s.readUpdate p r).1.digest (s.updateResult p l r g)
      if n.stepCommitted p g.step then n.grantLayer p l else n

section
variable {s : State} {p l : Nat} {g : Staged} {r : LayerRec} (staged : (s.layer p l).staged = some g)
  (known : s.layerRec p l = some r) (computes : (s.layer p l).st = .compute) (runs : s.enginesRun = true)
include staged known computes runs

theorem computeDone_fails {b : Bool}
    (bad : b = true ∨ (s.engine (s.layer p l).engine).lost (s.stagedBytes p r - 64) = true) :
    exec (.layerComputeDone p l b) s = .next (s.checkFailed p l (s.layer p l).engine) := by
  have goes : ¬ ((s.layer p l).st ≠ .compute ∨ s.enginesRun = false) := by rw [computes, runs]; decide
  show execLayerComputeDone p l b s = _
  simp only [execLayerComputeDone, staged, known, if_neg goes, if_pos bad]

variable (sound : (s.engine (s.layer p l).engine).lost (s.stagedBytes p r - 64) = false)
include sound

/-- A sound engine reads the tensors first. -/
theorem computeDone_reads : exec (.layerComputeDone p l false) s = .next (s.updateEnd p l r g) := by
  have goes : ¬ ((s.layer p l).st ≠ .compute ∨ s.enginesRun = false) := by rw [computes, runs]; decide
  have good : ¬ (false = true ∨ (s.engine (s.layer p l).engine).lost (s.stagedBytes p r - 64) = true) := by rw [sound]; decide
  show execLayerComputeDone p l false s = _
  simp only [execLayerComputeDone, staged, known, if_neg goes, if_neg good]
  rfl

theorem computeDone_poisoned {b : Nat} {bs : List Nat} (bad : (s.readUpdate p r).1.bad = b :: bs) :
    exec (.layerComputeDone p l false) s = .next ((s.readUpdate p r).2.poisonConsumed p b 5) := by
  rw [computeDone_reads staged known computes runs sound, State.updateEnd, bad]

variable {a : Alloc} (good : (s.readUpdate p r).1.bad = []) (slice : s.slice p (s.layerStack p r) = some a)
include good slice

theorem computeDone_unchecked (fails : (s.updateResult p l r g).checked = false) :
    exec (.layerComputeDone p l false) s = .next ((s.readUpdate p r).2.checkFailed p l (s.layer p l).engine) := by
  have reads := computeDone_reads staged known computes runs sound
  rw [State.updateEnd, good, slice] at reads
  exact reads.trans (by simp only [if_pos fails])

/-- An update whose check holds, of a step that has not committed, is staged. -/
theorem computeDone_stages (holds : (s.updateResult p l r g).checked = true) (open_ : s.stepCommitted p g.step = false)
    (ungranted : (s.layer p l).granted = false) (none_staged : ∀ q m, (s.layer q m).st ≠ .staged) :
    ∃ n, exec (.layerComputeDone p l false) s = .next n ∧
      n.layer p l = (s.layer p l).stagedBy g (s.readUpdate p r).1.digest (s.updateResult p l r g) ∧
      n.engine (s.layer p l).engine = (s.engine (s.layer p l).engine).freeAfter (s.updateResult p l r g) := by
  have reads := computeDone_reads staged known computes runs sound
  have read := gathers_readUpdate s p r
  rw [State.updateEnd, good, slice] at reads
  generalize s.updateResult p l r g = res at reads holds
  generalize s.readUpdate p r = q at reads read good
  obtain ⟨layer, engine, committed⟩ := stageUpdate_read read r a g q.1.digest res computes ungranted none_staged
  refine ⟨_, reads.trans ?_, layer, engine⟩
  simp only [holds, Bool.true_eq_false, if_false, committed, open_, Bool.false_eq_true]

end

end Sys2Proof.Machine
end

section
/-!
SUPPORT. A staged update is granted, copied in or discarded, and a window's fill ends (R361 to R363, R389, R398, R411 to R415).
-/

namespace Sys2Proof.Machine

/-! ### PLN_COMMIT_GRANT (R413 to R415) -/

/-- A layer whose commit grant has come. -/
def Layer.grant (x : Layer) : Layer := { x with granted := true }

section
variable {s : State} {p l : Nat} {g : Staged} (staged : (s.layer p l).staged = some g)
include staged

theorem exec_plnCommitGrant : exec (.plnCommitGrant p l) s = .next (if s.stepCommitted p g.step then s.grantLayer p l else s) := by
  show execPlnCommitGrant p l s = _
  rw [execPlnCommitGrant, staged]

/-- A layer granted alone begins when it can be copied in, and no other does. -/
theorem grantLayer_spec (st : (s.layer p l).st = .staged) (others : ∀ q m, (q, m) ≠ (p, l) → (s.layer q m).st ≠ .staged) :
    (s.grantLayer p l).layer p l =
      if (s.setLayer p l (s.layer p l).grant).copyReady p l then (s.layer p l).grant.copying g else (s.layer p l).grant := by
  have granted : s.grantLayer p l = (s.setLayer p l (s.layer p l).grant).beginCopies := if_pos st
  have others (q m : Nat) (ne : (q, m) ≠ (p, l)) : ((s.setLayer p l (s.layer p l).grant).layer q m).st ≠ .staged := by
    rw [layer_setLayer_ne _ _ ne]
    exact others q m ne
  rw [granted]
  split
  next ready =>
    obtain ⟨-, -, h, r, holds, known⟩ := copyReady_spec ready
    have same : h = g := by
      rw [layer_setLayer_same] at holds
      exact Option.some.inj (holds.symm.trans staged)
    rw [beginCopies_one ready others, layer_beginCopy_same holds known, layer_setLayer_same, same]
  next waits =>
    rw [beginCopies_none, layer_setLayer_same]
    intro q m ready
    by_cases here : (q, m) = (p, l)
    · obtain ⟨rfl, rfl⟩ := Prod.mk.inj here
      exact waits ready
    · exact others q m here (copyReady_spec ready).1

end

/-! ### PLN_DISCARD_ORDER (R398, R413) -/

theorem st_toIdle (x : Layer) : x.toIdle.st = .idle ∨ x.toIdle.st = .frozen := by
  unfold Layer.toIdle
  dsimp only
  split
  · exact .inr rfl
  · exact .inl rfl

theorem toIdle_not_staged (x : Layer) : x.toIdle.st ≠ .staged := by
  obtain idle | frozen := st_toIdle x
  · rw [idle]; decide
  · rw [frozen]; decide

/-- The engine of a layer in COMPUTE leaves its work. -/
def State.stopCompute (p l : Nat) (s : State) : State :=
  if (s.layer p l).st = .compute then s.freeEngine (s.layer p l).engine else s

section
variable {s : State} {p l : Nat}

theorem layer_stopCompute (q m : Nat) : (s.stopCompute p l).layer q m = s.layer q m := by
  unfold State.stopCompute
  split
  · exact layer_setEngine ..
  · rfl

theorem homeEngine_stopCompute : (s.stopCompute p l).homeEngine p l = s.homeEngine p l := by
  unfold State.stopCompute
  split
  · rfl
  · rfl

theorem layer_discardLayer (pending : (s.layer p l).st = .ready ∨ (s.layer p l).st = .held ∨ (s.layer p l).st = .compute ∨
      (s.layer p l).st = .staged)
    (others : ∀ q m, (q, m) ≠ (p, l) → (s.layer q m).st ≠ .staged) :
    (s.discardLayer p l).layer p l = { (s.layer p l).toIdle with engine := s.homeEngine p l } := by
  have ordered : s.discardLayer p l =
      ((s.stopCompute p l).setLayer p l { (s.layer p l).toIdle with engine := (s.stopCompute p l).homeEngine p l }).beginCopies :=
    if_pos pending
  rw [ordered, homeEngine_stopCompute, beginCopies_not_staged, layer_setLayer_same]
  refine notStaged_setLayer (toIdle_not_staged (s.layer p l)) fun q m ne => ?_
  rw [layer_stopCompute]
  exact others q m ne

theorem discardLayer_settled (settled : (s.layer p l).st = .idle ∨ (s.layer p l).st = .frozen ∨ (s.layer p l).st = .copying) :
    s.discardLayer p l = s := by
  refine if_neg fun pending => ?_
  obtain st | st | st := settled
  all_goals
    rw [st] at pending
    revert pending
    decide

end

/-! ### PLN_COPY_DONE (R389, R398, R411, R414) -/

/-- COPIED is written in the record of a layer. -/
def State.writeCopied (p : Nat) (r : LayerRec) (g : Staged) (s : State) : State :=
  match s.slice p (s.layerStack p r) with
  | some a => s.ringWrite p a (g.off + 0x38) (leBytes 8 copiedWord)
  | none => s

theorem gathers_writeCopied (s : State) (p : Nat) (r : LayerRec) (g : Staged) : Gathers s (s.writeCopied p r g) := by
  unfold State.writeCopied
  split
  · exact gathers_ringWrite ..
  · exact .refl s

/-- The layer of a copy-in that ends: IDLE at its own engine, its update count that of the staged copy. -/
def State.copiedIn (s : State) (p : Nat) (r : LayerRec) (g : Staged) (x : Layer) : Layer :=
  { x.toIdle with upd := g.upd, engine := s.layerStack p r }

theorem copiedIn_not_staged (s : State) (p : Nat) (r : LayerRec) (g : Staged) (x : Layer) : (s.copiedIn p r g x).st ≠ .staged :=
  toIdle_not_staged x

/-- Beside COPIED and the layer itself, the end of a copy-in leaves the Plane. -/
theorem samePlane_finishCopy (s : State) (p : Nat) (r : LayerRec) (g : Staged) : let t := s.writeCopied p r g
    SamePlane (t.setLayer p r.layer (t.copiedIn p r g (t.layer p r.layer))) (s.finishCopy p r g) := by
  intro t
  have counted := (SamePlane.refl (t.setLayer p r.layer (t.copiedIn p r g (t.layer p r.layer)))).same
    (u := (t.setLayer p r.layer (t.copiedIn p r g (t.layer p r.layer))).bump (Reg.plnEcnt (t.layer p r.layer).engine) 63 32 1)
  exact counted.foldl r.written fun u k hu => hu.refreshWindows ..

section
variable {s : State} {p l : Nat} {g : Staged} {r : LayerRec} (staged : (s.layer p l).staged = some g)
  (known : s.layerRec p l = some r) (copies : (s.layer p l).st = .copying)
include staged known copies

theorem exec_plnCopyDone (runs : s.enginesRun = true) : exec (.plnCopyDone p l) s =
    .next (((s.copyIn p r g).finishCopy p r g).freeEngine (s.layer p l).engine).beginCopies := by
  show execPlnCopyDone p l s = _
  simp only [execPlnCopyDone, staged, known, copies, runs, and_self, if_true]

omit staged in
theorem finishCopy_spec (none_staged : ∀ q m, (s.layer q m).st ≠ .staged) : let n := (s.copyIn p r g).finishCopy p r g
    n.layer p l = s.copiedIn p r g (s.layer p l) ∧ (∀ q m, (n.layer q m).st ≠ .staged) ∧ ∀ e, n.engine e = s.engine e := by
  have written : Gathers s ((s.copyIn p r g).writeCopied p r g) := (gathers_copyIn ..).trans (gathers_writeCopied ..)
  have ended := samePlane_finishCopy (s.copyIn p r g) p r g
  generalize (s.copyIn p r g).finishCopy p r g = n at ended
  generalize (s.copyIn p r g).writeCopied p r g = t at written ended
  have busy : t.layer p l = s.layer p l := (written.layer p l).busy (by rw [copies]; decide)
  have idle : t.copiedIn p r g (s.layer p l) = s.copiedIn p r g (s.layer p l) := by
    rw [State.copiedIn, written.layerStack, State.copiedIn]
  dsimp only at ended
  rw [layer_of_layerRec known, busy, idle] at ended
  refine ⟨?_, fun q m => ?_, fun e => ?_⟩
  · rw [ended.layer, layer_setLayer_same]
  · rw [ended.layer]
    exact notStaged_setLayer (copiedIn_not_staged s p r g (s.layer p l)) (fun q m _ => written.notStaged (none_staged q m)) q m
  · rw [ended.engine, engine_setLayer, written.engine]

theorem copyDone_spec (runs : s.enginesRun = true) (none_staged : ∀ q m, (s.layer q m).st ≠ .staged) :
    ∃ n, exec (.plnCopyDone p l) s = .next n ∧ n.layer p l = s.copiedIn p r g (s.layer p l) ∧
      (n.engine (s.layer p l).engine).scanned = (s.engine (s.layer p l).engine).scanned := by
  have done := exec_plnCopyDone staged known copies runs
  obtain ⟨layer, still, engine⟩ := finishCopy_spec (g := g) known copies none_staged
  generalize (s.copyIn p r g).finishCopy p r g = f at done layer still engine
  rw [beginCopies_not_staged (s := f.freeEngine (s.layer p l).engine) still] at done
  refine ⟨_, done, layer, ?_⟩
  rw [State.freeEngine, State.engine_setEngine_same, engine]

end

/-! ### WINDOW_FILL_DONE (R361, R363) -/

theorem window_setWindow (s : State) (p i : Nat) (x : Window) : (s.setWindow p i x).window p i = x := by
  rw [State.window, State.setWindow, part_modRun, if_pos rfl, Tab.get_set_same]

/-- A float takes a value: its readers are told, and the runs are else as they were. -/
theorem run_floatApply (s : State) (p fid : Nat) (v : Bool) :
    ((s.floatApply p fid v).part p).run =
      ((s.setFloat p fid { s.float p fid with value := v, count := (s.float p fid).count + 1 }).part p).run :=
  (sameRuns_notify ..).run p

theorem float_floatApply (s : State) (p fid : Nat) (v : Bool) :
    (s.floatApply p fid v).float p fid = { s.float p fid with value := v, count := (s.float p fid).count + 1 } := by
  rw [State.float, run_floatApply, ← State.float, float_setFloat]

theorem windows_setFloat (s : State) (p fid : Nat) (x : Float) (i : Nat) : (s.setFloat p fid x).window p i = s.window p i := by
  rw [State.window, State.setFloat, part_modRun, if_pos rfl, State.window]

theorem window_floatApply (s : State) (p fid : Nat) (v : Bool) (i : Nat) : (s.floatApply p fid v).window p i = s.window p i := by
  rw [State.window, run_floatApply, ← State.window, windows_setFloat]

theorem float_setWindow (s : State) (p i : Nat) (x : Window) (fid : Nat) : (s.setWindow p i x).float p fid = s.float p fid := by
  rw [State.float, State.setWindow, part_modRun, if_pos rfl, State.float]

section
variable {s t : State} {p i j : Nat} {w : WmloadRec}

/-- A fill without poison is written. -/
theorem endFill_written (e : FillEnd) (writing : (s.window p i).writing = some j) (free : s.copying p w.tid = false)
    (clean : (s.writeFill p w j).1 = []) :
    s.endFill p i w e = ({ e with wrote := true }, (s.writeFill p w j).2.setWindow p i { fill := j, writing := none }) := by
  simp only [State.endFill, writing, free, clean, Bool.false_eq_true, if_false]

/-- No fill is left of the only window once it is written. -/
theorem fillsLeft_one (only : (s.frameOf p).windows = [(i, w)]) (written : (s.window p i).writing = none) (fid : Nat) :
    s.fillsLeft p fid = false := by
  simp [State.fillsLeft, only, written]

theorem exec_windowFillDone (only : (s.frameOf p).windows = [(i, w)]) (streams : w.streamable = true)
    (writing : (s.window p i).writing = some j) (running : s.phys.power.halted = false) (free : s.copying p w.tid = false)
    (clean : (s.writeFill p w j).1 = []) (filled : (s.writeFill p w j).2.setWindow p i { fill := j, writing := none } = t) :
    exec (.windowFillDone p w.fid) s = .next (t.floatApply p w.fid true).beginCopies := by
  have kept : t.frameOf p = s.frameOf p := by
    rw [← filled, State.setWindow, frameOf_modRun, (gathers_writeFill ..).frameOf]
  have left : t.fillsLeft p w.fid = false := fillsLeft_one (kept ▸ only) (by rw [← filled, window_setWindow]) _
  show execWindowFillDone p w.fid s = _
  simp only [execWindowFillDone, running, only, List.foldl_cons, List.foldl_nil, streams, endFill_written _ writing free clean, filled,
    left, Bool.false_eq_true, and_self, if_false, if_true]

theorem windowFillDone_spec (only : (s.frameOf p).windows = [(i, w)]) (streams : w.streamable = true)
    (writing : (s.window p i).writing = some j) (running : s.phys.power.halted = false) (free : s.copying p w.tid = false)
    (clean : (s.writeFill p w j).1 = []) :
    ∃ n, exec (.windowFillDone p w.fid) s = .next n ∧ n.window p i = { fill := j, writing := none } ∧
      (n.float p w.fid).value = true ∧ (n.float p w.fid).count = (s.float p w.fid).count + 1 := by
  have done := exec_windowFillDone only streams writing running free clean rfl
  have window := window_setWindow (s.writeFill p w j).2 p i { fill := j, writing := none }
  have kept : ((s.writeFill p w j).2.setWindow p i { fill := j, writing := none }).float p w.fid = s.float p w.fid := by
    rw [float_setWindow, State.float, ((gathers_writeFill s p w j).part p).run, State.float]
  generalize (s.writeFill p w j).2.setWindow p i { fill := j, writing := none } = t at done window kept
  have begun := (copiesBegun_beginCopies (t.floatApply p w.fid true)).run p
  have float : ((t.floatApply p w.fid true).beginCopies).float p w.fid =
      { s.float p w.fid with value := true, count := (s.float p w.fid).count + 1 } := by
    rw [State.float, begun, ← State.float, float_floatApply, kept]
  refine ⟨_, done, ?_, by rw [float], by rw [float]⟩
  rw [State.window, begun, ← State.window, window_floatApply, window]

end

/-! ### The obligation -/

/-- Settles O45: each command is brought to the state operations that it makes; reads and writes of partition memory leave layers that
are not IDLE, and copy-ins begin only where a staged layer is granted. -/
theorem layersComputeStageAndCommit : Obligations.LayersComputeStageAndCommit := by
  unfold Obligations.LayersComputeStageAndCommit
  refine ⟨?computes, ?computed, ?granted, ?discarded, ?copied, ?filled⟩
  case computes =>
    intro z p l r eta a e s x h1 h8 running runs known size slice ready free next room
    have begins := exec_layerCompute (z := z) (e := e) (s := s) rfl rfl running runs known size slice ready free next room
    obtain ⟨g, spec⟩ := beginCompute_spec s l e eta r a h1 h8
    clear_value s e
    exact ⟨s.beginCompute p l e eta r a, g, begins, spec⟩
  case computed =>
    intro s p l g r x staged known computes runs bad
    refine ⟨fun b fails => computeDone_fails staged known computes runs fails, ?failed, ?sound⟩
    case failed =>
      obtain ⟨u, v, raised, layer, free, fenced⟩ := checkFailed_spec s p l x.engine
      exact ⟨u, v, _, rfl, raised, layer, free, fenced⟩
    case sound =>
      intro a q res sound
      have result : res = s.updateResult p l r g := rfl
      clear_value res
      subst result
      refine ⟨fun b bs => computeDone_poisoned staged known computes runs sound,
        computeDone_unchecked staged known computes runs sound, computeDone_stages staged known computes runs sound⟩
  case granted =>
    intro s p l g x staged
    have grants := exec_plnCommitGrant staged
    refine ⟨fun committed st others => ?_, fun open_ => by rw [grants, if_neg (ne_true_of_eq_false open_)]⟩
    have layer := grantLayer_spec staged st others
    rw [if_pos committed] at grants
    generalize s.grantLayer p l = n at grants layer
    refine ⟨n, grants, ?_, fun ready => layer.trans (if_pos ready), fun waits => ?_⟩
    · rw [layer]
      split
      · rfl
      · rfl
    · rw [layer.trans (if_neg (ne_true_of_eq_false waits))]
      exact st
  case discarded =>
    intro s p l x
    refine ⟨fun pending others => ⟨_, rfl, layer_discardLayer pending others⟩, fun settled => ?_⟩
    exact congrArg Host.Outcome.next (discardLayer_settled settled)
  case copied =>
    intro s p l g r x staged known copies runs none_staged
    exact copyDone_spec staged known copies runs none_staged
  case filled =>
    rintro s p _ i j w only streams rfl writing running free clean
    exact windowFillDone_spec only streams writing running free clean

end Sys2Proof.Machine
end

section
/-!
SUPPORT. Proofs about step sizes and about the control of a layer (R390, R394 to R397, R429).
-/

namespace Sys2Proof.Machine

/-! ### Frames of a partition -/

section
variable {p : Nat} {s t u : State}

theorem OnlyPart.refl (p : Nat) (s : State) : OnlyPart p s s := ⟨rfl, fun _ _ => rfl⟩

theorem OnlyPart.trans (h : OnlyPart p s t) (k : OnlyPart p t u) : OnlyPart p s u := by
  refine ⟨?_, fun q hq => (k.2 q hq).trans (h.2 q hq)⟩
  rw [k.1, h.1]

theorem onlyPart_modPart (p : Nat) (f : Part → Part) (s : State) : OnlyPart p s (s.modPart p f) :=
  ⟨rfl, fun _ hq => State.part_modPart_ne _ f hq⟩

theorem onlyPart_modPln (p : Nat) (f : PartPlane → PartPlane) (s : State) : OnlyPart p s (s.modPln p f) := onlyPart_modPart p _ s

theorem onlyPart_setLayer (p l : Nat) (x : Layer) (s : State) : OnlyPart p s (s.setLayer p l x) := onlyPart_modPln p _ s

theorem OnlyPart.foldl {α : Type} {f : State → α → State} (l : List α) (s : State) (hf : ∀ u x, OnlyPart p u (f u x)) :
    OnlyPart p s (l.foldl f s) := by
  induction l generalizing s with
  | nil => exact .refl p s
  | cons x xs ih => exact (hf s x).trans (ih _)

theorem OnlyPart.tide (h : OnlyPart p s t) : t.tide = s.tide := by rw [h.1]
theorem OnlyPart.regs (h : OnlyPart p s t) : t.regs = s.regs := by rw [h.1]

end

/-! ### Tables whose listed values change -/

theorem Tab.key_ge_of_rising {α : Type} {lo : Nat} {t : Tab α} (ht : Tab.rising lo t = true) {e : Nat × α} (he : e ∈ t) : lo ≤ e.1 := by
  induction t generalizing lo with
  | nil => exact absurd he List.not_mem_nil
  | cons x r ih =>
    simp only [Tab.rising, Bool.and_eq_true, decide_eq_true_eq] at ht
    obtain ⟨first, rest⟩ := ht
    obtain rfl | later := List.mem_cons.1 he
    · exact first
    · have above := ih rest later
      omega

/-- A table with rising keys reads what it lists. -/
theorem Tab.get_of_mem {α : Type} (d : α) {lo : Nat} {t : Tab α} (ht : Tab.rising lo t = true) {e : Nat × α} (he : e ∈ t) :
    Tab.get d t e.1 = e.2 := by
  induction t generalizing lo with
  | nil => exact absurd he List.not_mem_nil
  | cons x r ih =>
    simp only [Tab.rising, Bool.and_eq_true, decide_eq_true_eq] at ht
    obtain ⟨-, rest⟩ := ht
    obtain rfl | later := List.mem_cons.1 he
    · exact if_pos rfl
    · have above := Tab.key_ge_of_rising rest later
      rw [Tab.get, if_neg (by omega), ih rest later]

/-- Where `f` keeps the default and the keys rise, every key reads its value changed. -/
theorem Tab.get_mapVals_rising {α : Type} [DecidableEq α] (d : α) {f : Nat → α → α} {lo : Nat} {t : Tab α} (ht : Tab.rising lo t = true)
    {k : Nat} (hd : f k d = d) : Tab.get d (Tab.mapVals d f t) k = f k (Tab.get d t k) := by
  obtain default | listed := Tab.get_mem d (Tab.mapVals d f t) k
  · by_contra ne
    have changed : f k (Tab.get d t k) ≠ d := fun e => ne (default.trans e.symm)
    exact ne (Tab.get_mapVals d f t k hd changed)
  · obtain ⟨e, he, changed⟩ := List.mem_map.1 (List.mem_filter.1 listed).1
    obtain ⟨rfl, value⟩ := Prod.mk.inj changed
    rw [← value, Tab.get_of_mem d ht he]

/-! ### The flags of `PLN_STEPSTAT` (R395, R428) -/

/-- A flag of `PLN_STEPSTAT` is set where a condition holds. -/
def State.stepFlagIf (c : Bool) (p bit : Nat) (s : State) : State := if c then s.stepFlag p bit else s

section
variable (s : State) (c : Bool) (p : Nat) {bit : Nat}

theorem field_stepFlag (h : bit < 64) : (s.stepFlag p bit).field (Reg.plnStepstat p) bit bit = 1 := by
  rw [State.stepFlag, State.field_setField_same _ _ _ _ _ le_rfl h, Nat.add_sub_cancel_left, Nat.mod_eq_of_lt (by decide)]

theorem field_stepFlagIf (h : bit < 64) : (s.stepFlagIf c p bit).field (Reg.plnStepstat p) bit bit =
    if c then 1 else s.field (Reg.plnStepstat p) bit bit := by
  cases c
  case false => rfl
  case true => exact field_stepFlag s p h

theorem field_stepFlagIf_ne {other : Nat} (h : bit < 64) (ho : other < 64) (ne : other ≠ bit) :
    (s.stepFlagIf c p bit).field (Reg.plnStepstat p) other other = s.field (Reg.plnStepstat p) other other := by
  cases c
  case false => rfl
  case true => exact State.field_setField_apart _ _ _ _ _ _ _ le_rfl h le_rfl ho (by omega)

theorem OnlyRegs.stepFlagIf {A : List Nat} {s t : State} (h : OnlyRegs A s t) (hA : Reg.plnStepstat p ∈ A) (bit : Nat) :
    OnlyRegs A s (t.stepFlagIf c p bit) := by
  cases c
  case false => exact h
  case true => exact h.setField hA ..

theorem stage_stepFlagIf (bit : Nat) : (s.stepFlagIf c p bit).stage = s.stage := by cases c <;> rfl

end

/-! ### A write of a slot (R394 to R396) -/

/-- A size for the latched step comes too late (R396). -/
def State.sizeLate (s : State) (p : Nat) (tag : Dword) : Bool :=
  match (s.part p).pln.latched with
  | some (t, _) => decide (stepTag t = tag)
  | none => false

/-- A HELD layer of the step with the tag is READY once its size is there (R397). -/
def Layer.sized (tag : Dword) (x : Layer) : Layer :=
  if x.st = .held ∧ stepTag x.gradStep = tag then { x with st := .ready } else x

/-- The layers of the step with the tag have their size. -/
def State.sizeLayers (p : Nat) (tag : Dword) (s : State) : State :=
  s.modPln p fun y => { y with layers := Tab.mapVals Layer.reset (fun _ => Layer.sized tag) y.layers }

theorem layer_sizeLayers {s : State} {p : Nat} (rising : Tab.rising 0 (s.part p).pln.layers = true) (tag : Dword) (l : Nat) :
    (s.sizeLayers p tag).layer p l = (s.layer p l).sized tag := by
  rw [State.layer, State.sizeLayers, State.modPln, State.part_modPart_same]
  exact Tab.get_mapVals_rising Layer.reset (f := fun _ => Layer.sized tag) rising rfl

section
variable {s : State} {p : Nat} {odd : Bool} {v : Word}

theorem exec_plnStepWrite (known : s.partExists p = true) :
    exec (.plnStepWrite p odd v) s = .next ((s.staged (slotReg p odd) v).writeSlot p odd v) := by
  show execPlnStepWrite p odd v s = _
  rw [execPlnStepWrite, if_pos known]

/-- A TAG of the other parity or an ETA that is not finite. -/
theorem writeSlot_flagged (h : (v.extractLsb' 0 32 : Dword).getLsbD 0 ≠ odd ∨ fFinite f32 (v.extractLsb' 32 32 : Dword).toNat = false) :
    s.writeSlot p odd v = (s.stepFlagIf (decide ((v.extractLsb' 0 32 : Dword).getLsbD 0 ≠ odd)) p 2).stepFlagIf
      (!fFinite f32 (v.extractLsb' 32 32 : Dword).toNat) p 3 := by
  unfold State.writeSlot
  extract_lets tag late missed bad s1
  exact if_pos (h.imp decide_eq_true fun infinite => by rw [show bad = !_ from rfl, infinite]; rfl)

/-- A well-formed size is late or stored. -/
theorem writeSlot_wellFormed (parity : (v.extractLsb' 0 32 : Dword).getLsbD 0 = odd)
    (finite : fFinite f32 (v.extractLsb' 32 32 : Dword).toNat = true) : s.writeSlot p odd v =
      if s.sizeLate p (v.extractLsb' 0 32) then s.stepFlag p 1 else (s.setReg (slotReg p odd) v).sizeLayers p (v.extractLsb' 0 32) := by
  unfold State.writeSlot
  extract_lets tag late missed bad s1
  have missed_not : missed = false := decide_eq_false (not_not.2 parity)
  have bad_not : bad = false := by rw [show bad = !_ from rfl, finite]; rfl
  rw [if_neg (by rw [missed_not, bad_not]; decide)]
  rfl

end

/-- What a write of a slot does, by its TAG, its ETA and the latched step. -/
theorem plnStepWrite_spec {s : State} {p : Nat} (odd : Bool) (v : Word) (known : s.partExists p = true)
    (rising : Tab.rising 0 (s.part p).pln.layers = true) :
    let tag := v.extractLsb' 0 32
    let fin := fFinite f32 (v.extractLsb' 32 32).toNat
    ∃ n, exec (.plnStepWrite p odd v) s = .next n ∧
      (tag.getLsbD 0 ≠ odd ∨ fin = false →
        n.field (Reg.plnStepstat p) 2 2 = (if tag.getLsbD 0 ≠ odd then 1 else s.field (Reg.plnStepstat p) 2 2) ∧
        n.field (Reg.plnStepstat p) 3 3 = (if fin = false then 1 else s.field (Reg.plnStepstat p) 3 3) ∧
        OnlyRegs [Reg.plnStepstat p] { s with stage := n.stage } n) ∧
      (tag.getLsbD 0 = odd → fin = true → s.sizeLate p tag = true → n.field (Reg.plnStepstat p) 1 1 = 1 ∧
        OnlyRegs [Reg.plnStepstat p] { s with stage := n.stage } n) ∧
      (tag.getLsbD 0 = odd → fin = true → s.sizeLate p tag = false → n.reg (slotReg p odd) = v ∧
        OnlyRegs [slotReg p odd] { s with comp := n.comp, stage := n.stage } n ∧
        OnlyPart p { s with regs := n.regs, stage := n.stage } n ∧ ∀ l, n.layer p l = (s.layer p l).sized tag) := by
  intro tag fin
  refine ⟨_, exec_plnStepWrite known, fun flagged => ?flagged, fun parity finite late => ?late, fun parity finite timely => ?stored⟩
  case flagged =>
    rw [writeSlot_flagged flagged]
    refine ⟨?missed, ?bad, ?frame⟩
    case missed =>
      rw [field_stepFlagIf_ne _ _ _ (by decide) (by decide) (by decide), field_stepFlagIf _ _ _ (by decide)]
      simp only [decide_eq_true_eq]
      rfl
    case bad =>
      rw [field_stepFlagIf _ _ _ (by decide), field_stepFlagIf_ne _ _ _ (by decide) (by decide) (by decide)]
      simp only [Bool.not_eq_true']
      rfl
    case frame =>
      rw [stage_stepFlagIf, stage_stepFlagIf]
      exact ((OnlyRegs.refl ..).stepFlagIf _ _ (by simp) _).stepFlagIf _ _ (by simp) _
  case late =>
    have flagged : (s.staged (slotReg p odd) v).writeSlot p odd v = (s.staged (slotReg p odd) v).stepFlag p 1 :=
      (writeSlot_wellFormed parity finite).trans (if_pos late)
    rw [flagged]
    exact ⟨field_stepFlag _ _ (by decide), (OnlyRegs.refl ..).setField (by simp) ..⟩
  case stored =>
    have stored : (s.staged (slotReg p odd) v).writeSlot p odd v =
        ((s.staged (slotReg p odd) v).setReg (slotReg p odd) v).sizeLayers p tag :=
      (writeSlot_wellFormed parity finite).trans (if_neg (ne_true_of_eq_false timely))
    rw [stored]
    exact ⟨State.reg_setReg_same .., onlyRegs_setReg .., onlyPart_modPln p _ _, layer_sizeLayers rising tag⟩

/-! ### STEP_SIZE_STALE (R397) -/

/-- The layer waits for the size of its step. -/
def Layer.hold (x : Layer) : Layer := { x with st := .held }

/-- A layer of a step without a size is HELD. -/
def State.holdLayer (p : Nat) (step : Word) (s : State) (l : Nat) : State :=
  if (s.layer p l).gradStep = step then s.setLayer p l (s.layer p l).hold else s

/-- Every layer of the list that belongs to the step is HELD. -/
def State.holdLayers (p : Nat) (step : Word) (ls : List Nat) (s : State) : State := ls.foldl (State.holdLayer p step) s

section
variable (s : State) (p : Nat) (step : Word)

theorem layer_holdLayer (l k : Nat) : (s.holdLayer p step l).layer p k =
    if k = l ∧ (s.layer p k).gradStep = step then (s.layer p k).hold else s.layer p k := by
  unfold State.holdLayer
  by_cases here : k = l
  · subst here
    by_cases own : (s.layer p k).gradStep = step
    · rw [if_pos own, if_pos ⟨rfl, own⟩, layer_setLayer_same]
    · rw [if_neg own, if_neg fun h => own h.2]
  · have beside : ¬ (k = l ∧ (s.layer p k).gradStep = step) := fun h => here h.1
    rw [if_neg beside]
    split
    · exact layer_setLayer_ne _ _ fun e => here (Prod.mk.inj e).2
    · rfl

theorem layer_holdLayers (ls : List Nat) (k : Nat) : (s.holdLayers p step ls).layer p k =
    if k ∈ ls ∧ (s.layer p k).gradStep = step then (s.layer p k).hold else s.layer p k := by
  induction ls generalizing s with
  | nil => rw [if_neg fun h => List.not_mem_nil h.1]; rfl
  | cons l ls ih =>
    refine (ih (s.holdLayer p step l)).trans ?_
    rw [layer_holdLayer]
    by_cases held : k = l ∧ (s.layer p k).gradStep = step
    · obtain ⟨rfl, own⟩ := held
      have still : (s.layer p k).hold.gradStep = step := own
      have again : (s.layer p k).hold.hold = (s.layer p k).hold := rfl
      simp only [own, still, again, List.mem_cons_self, and_self, if_true, ite_self]
    · rw [if_neg held]
      have later : k ∈ l :: ls ∧ (s.layer p k).gradStep = step ↔ k ∈ ls ∧ (s.layer p k).gradStep = step := by
        rw [List.mem_cons, or_and_right, or_iff_right held]
      simp only [later]

theorem onlyPart_holdLayers (ls : List Nat) : OnlyPart p s (s.holdLayers p step ls) :=
  .foldl ls s fun u l => by
    unfold State.holdLayer
    split
    · exact onlyPart_setLayer ..
    · exact .refl p u

theorem staleRaised_holdLayers (ls : List Nat) : ((s.holdLayers p step ls).part p).pln.staleRaised = (s.part p).pln.staleRaised := by
  induction ls generalizing s with
  | nil => rfl
  | cons l ls ih =>
    refine (ih _).trans ?_
    unfold State.holdLayer
    split
    · rw [State.setLayer, State.modPln, State.part_modPart_same]
    · rfl

/-- STEP_SIZE_STALE is raised for a step, and is counted. -/
def State.markStale (p : Nat) (step : Word) (s : State) : State :=
  (s.modPln p fun y => { y with staleRaised := some step }).bump (Reg.prtPlnCnt p) 63 48 1

theorem staleRaised_markStale : ((s.markStale p step).part p).pln.staleRaised = some step := by
  show ((s.modPln p fun y => { y with staleRaised := some step }).part p).pln.staleRaised = _
  rw [State.modPln, State.part_modPart_same]

theorem layer_markStale (k : Nat) : (s.markStale p step).layer p k = s.layer p k :=
  layer_modPln s p (f := fun y => { y with staleRaised := some step }) (fun _ => rfl) p k

theorem field_markStale : (s.markStale p step).field (Reg.prtPlnCnt p) 63 48 = min (s.field (Reg.prtPlnCnt p) 63 48 + 1) 0xFFFF :=
  State.field_bump _ _ _ _ _ (by decide) (by decide)

end

section
variable {s w : State} {p l t : Nat} {ls : List Nat} (waits : (s.part p).pln.firstReadyAt = some t)
  (sizeless : s.sizeless p = l :: ls) (passed : s.passTo (t + max 1 (s.field (Reg.plnStepWait p) 31 0) * 1000) = w)
  (first : (w.part p).pln.staleRaised ≠ some (w.layer p l).gradStep)
include waits sizeless passed first

theorem exec_stepSizeStale : exec (.stepSizeStale p) s = .next (((w.holdLayers p (w.layer p l).gradStep (l :: ls)).markStale p
    (w.layer p l).gradStep).signal Ev.stepSizeStale p [p, (w.layer p l).gradStep.toNat]) := by
  show execStepSizeStale p s = _
  unfold execStepSizeStale
  rw [waits, sizeless]
  dsimp only
  rw [passed]
  refine congrArg Host.Outcome.next (if_neg fun raised => first ?_)
  exact (staleRaised_holdLayers w p (w.layer p l).gradStep (l :: ls)).symm.trans raised

/-- The READY layers of the step are HELD, and the event is counted and raised. -/
theorem stepSizeStale_spec : let step := (w.layer p l).gradStep
    ∃ u n : State, exec (.stepSizeStale p) s = .next n ∧ Signals Ev.stepSizeStale p [p, step.toNat] u n ∧ u.tide = w.tide ∧
      u.field (Reg.prtPlnCnt p) 63 48 = min (w.field (Reg.prtPlnCnt p) 63 48 + 1) 0xFFFF ∧ (u.part p).pln.staleRaised = some step ∧
      ∀ k, n.layer p k = if k ∈ l :: ls ∧ (w.layer p k).gradStep = step then (w.layer p k).hold else w.layer p k := by
  intro step
  have stale := exec_stepSizeStale waits sizeless passed first
  have held : OnlyPart p w (w.holdLayers p step (l :: ls)) := onlyPart_holdLayers ..
  have layer := layer_holdLayers w p step (l :: ls)
  generalize w.holdLayers p step (l :: ls) = h at stale held layer
  have signals := signal_spec Ev.stepSizeStale p [p, step.toNat] (h.markStale p step)
  refine ⟨h.markStale p step, _, stale, signals, held.tide, ?count, staleRaised_markStale .., fun k => ?layer⟩
  case count => rw [field_markStale, State.field_congr held.regs]
  case layer =>
    rw [State.layer, State.part_congr (congrArg Compute.parts (signals.comp (by decide))), ← State.layer, layer_markStale, layer]

end

/-! ### Freeze, unfreeze and SETUPD (R390, R429) -/

/-- A layer once its freeze has been asked for. -/
def Layer.freeze (x : Layer) : Layer :=
  if x.st = .frozen then x else if x.st = .idle then { x with st := .frozen, count := 0, frz := none } else { x with frz := some true }

/-- A layer once its unfreeze has been asked for; one without G_TID stays as it is. -/
def Layer.unfreeze (g : Nat) (x : Layer) : Layer :=
  if g = 0 ∨ x.st = .idle then x else if x.st = .frozen then { x with st := .idle, count := 0, frz := none }
  else { x with frz := some false }

/-- A layer once SETUPD has been written. -/
def Layer.setUpd (upd : BitVec 48) (x : Layer) : Layer := if x.st = .idle ∨ x.st = .frozen then { x with upd := upd } else x

theorem askFreeze_true {x : Layer} (h : x.st ≠ .frozen) : x.askFreeze true = x.freeze := by
  unfold Layer.askFreeze Layer.freeze
  simp only [h, or_false, if_false, if_true]

theorem askFreeze_false {x : Layer} {g : Nat} (h : ¬ (g = 0 ∨ x.st = .idle)) : x.askFreeze false = x.unfreeze g := by
  unfold Layer.askFreeze Layer.unfreeze
  rw [if_neg h]
  simp only [(not_or.1 h).2, false_or]
  rfl

/-- From `s` to `n` layer `l` of a partition has become `y`, and nothing else differs. -/
def LayerBecomes (p l : Nat) (y : Layer) (s n : State) : Prop :=
  n.layer p l = y ∧ (∀ m, m ≠ l → n.layer p m = s.layer p m) ∧ OnlyPart p s n

theorem layerBecomes_setLayer (p l : Nat) (y : Layer) (s : State) : LayerBecomes p l y s (s.setLayer p l y) :=
  ⟨layer_setLayer_same .., fun _ hm => layer_setLayer_ne _ _ fun e => hm (Prod.mk.inj e).2, onlyPart_setLayer ..⟩

theorem layerBecomes_itself {p l : Nat} {y : Layer} {s : State} (h : s.layer p l = y) : LayerBecomes p l y s s :=
  ⟨h, fun _ _ => rfl, .refl p s⟩

section
variable {s : State} {p : Nat} {r : LayerRec} (selected : s.selLayer p = some r)
include selected

theorem layerFreeze_spec : ∃ n, exec (.layerFreeze p) s = .next n ∧ LayerBecomes p r.layer (s.layer p r.layer).freeze s n := by
  refine ⟨s.freezeLayer p, rfl, ?_⟩
  simp only [State.freezeLayer, selected]
  split
  next frozen => exact layerBecomes_itself (if_pos frozen).symm
  next unfrozen => exact askFreeze_true unfrozen ▸ layerBecomes_setLayer ..

theorem layerUnfreeze_spec : ∃ n, exec (.layerUnfreeze p) s = .next n ∧
    LayerBecomes p r.layer ((s.layer p r.layer).unfreeze r.g) s n := by
  refine ⟨s.unfreezeLayer p, rfl, ?_⟩
  simp only [State.unfreezeLayer, selected]
  split
  next ignored => exact layerBecomes_itself (if_pos ignored).symm
  next acts => exact askFreeze_false acts ▸ layerBecomes_setLayer ..

theorem layerSetupd_spec (upd : BitVec 48) : ∃ n, exec (.layerSetupd p upd) s = .next n ∧
    LayerBecomes p r.layer ((s.layer p r.layer).setUpd upd) s n := by
  refine ⟨s.setUpd p upd, rfl, ?_⟩
  simp only [State.setUpd, selected, Layer.setUpd]
  split
  next => exact layerBecomes_setLayer ..
  next => exact layerBecomes_itself rfl

end

section
variable {s : State} {p : Nat} (unselected : s.selLayer p = none)
include unselected

theorem layerControl_unselected (upd : BitVec 48) : exec (.layerFreeze p) s = .next s ∧ exec (.layerUnfreeze p) s = .next s ∧
    exec (.layerSetupd p upd) s = .next s := by
  refine ⟨congrArg Host.Outcome.next (?_ : s.freezeLayer p = s), congrArg Host.Outcome.next (?_ : s.unfreezeLayer p = s),
    congrArg Host.Outcome.next (?_ : s.setUpd p upd = s)⟩
  · rw [State.freezeLayer, unselected]
  · rw [State.unfreezeLayer, unselected]
  · rw [State.setUpd, unselected]

end

/-! ### The obligation -/

/-- Settles O44: a write of a slot by what is wrong with it, the layers that WAIT holds, and each command on the selected layer. -/
theorem stepSizesAndLayerControl : Obligations.StepSizesAndLayerControl := by
  unfold Obligations.StepSizesAndLayerControl
  refine ⟨?sizes, ?stale, ?control, fun s p upd unselected => layerControl_unselected unselected upd⟩
  case sizes =>
    intro s p odd v _ _ known rising
    exact plnStepWrite_spec odd v known rising
  case stale =>
    intro s p l t ls waits sizeless first
    exact stepSizeStale_spec waits sizeless rfl first
  case control =>
    intro s p r upd selected x
    obtain ⟨n, freezes, nIs, nOthers, nOnly⟩ := layerFreeze_spec selected
    obtain ⟨m, unfreezes, mIs, mOthers, mOnly⟩ := layerUnfreeze_spec selected
    obtain ⟨k, sets, kIs, kOthers, kOnly⟩ := layerSetupd_spec selected upd
    exact ⟨n, m, k, freezes, unfreezes, sets, nIs, mIs, kIs, fun l hl => ⟨nOthers l hl, mOthers l hl, kOthers l hl⟩, nOnly, mOnly, kOnly⟩

end Sys2Proof.Machine
end

section
/-!
SUPPORT. Proofs about sighting: the digests of a step, their messages, and the comparison of the replicas (R422, R423, R537 to R540,
R673).
-/

namespace Sys2Proof.Machine

/-! ### A message on its way out leaves the compute side (R646, R657, R659) -/

theorem comp_pumpFlits (p : Nat) (fs : List StlFlit) (shut : List Nat) (s : State) : (s.pumpFlits p fs shut).2.comp = s.comp := by
  induction fs generalizing shut s with
  | nil => rfl
  | cons f fs ih =>
    rw [State.pumpFlits]
    split
    · exact ih ..
    · exact ih ..

theorem comp_sendPacket (p : Nat) (h : PutHeader) (d : List Byte) (s : State) : (s.sendPacket p h d).comp = s.comp :=
  comp_pumpFlits ..

theorem comp_sendTorus (i : Nat) (h : PutHeader) (d : List Byte) (s : State) : (s.sendTorus i h d).2.comp = s.comp := by
  unfold State.sendTorus
  split
  · rfl
  · dsimp only
    split
    · rfl
    · exact comp_sendPacket ..

theorem comp_foldl {α : Type} {f : State → α → State} (l : List α) (hf : ∀ s x, (f s x).comp = s.comp) (s : State) :
    (l.foldl f s).comp = s.comp := by
  induction l generalizing s with
  | nil => rfl
  | cons x xs ih => exact (ih _).trans (hf s x)

/-! ### The digests of a step (R423, R538) -/

/-- A layer with a digest of its weights. -/
def Layer.digested (d step : Word) (x : Layer) : Layer := { x with digest := d, dstep := step }

/-- The digests of a step stand in the registers of their layers. -/
def State.putDigests (p : Nat) (step : Word) (ds : Tab Word) (s : State) : State :=
  ds.foldl (fun s e => s.setLayer p e.1 ((s.layer p e.1).digested e.2 step)) s

/-- The wait for the peers' digests of a step begins. -/
def State.openSight (p : Nat) (step : Word) (ds : Tab Word) (s : State) : State :=
  s.modPart p fun x => { x with sight := { x.sight with
    open_ := true, step := step, deadline := s.now + 1000000 * max 1 (s.field (Reg.prtSightCfg p) 31 0), own := ds
    peers := if x.sight.step = step then x.sight.peers else [] } }

/-- Every peer is sent every digest. -/
def State.sendDigests (p : Nat) (step : Word) (ds : Tab Word) (s : State) : State :=
  (s.peers p).foldl (fun s q => ds.foldl (fun s e => s.sendDigest p q e.1 e.2 step) s) s

section
variable (s : State) (p : Nat) (step : Word)

theorem sightReady_eq (ds : Tab Word) : s.sightReady p step ds =
    (((s.putDigests p step ds).signal Ev.sightReady p [p, step.toNat]).openSight p step ds).sendDigests p step ds := rfl

theorem onlyPart_putDigests (ds : Tab Word) : OnlyPart p s (s.putDigests p step ds) := .foldl ds s fun _ _ => onlyPart_setLayer ..

theorem layer_putDigests_ne {ds : Tab Word} {l : Nat} (h : ∀ e ∈ ds, l ≠ e.1) : (s.putDigests p step ds).layer p l = s.layer p l := by
  induction ds generalizing s with
  | nil => rfl
  | cons e ds ih =>
    refine (ih _ fun e' he => h e' (List.mem_cons_of_mem _ he)).trans (layer_setLayer_ne _ _ fun here => ?_)
    exact h e List.mem_cons_self (Prod.mk.inj here).2

theorem layer_putDigests {lo : Nat} {ds : Tab Word} (rising : Tab.rising lo ds = true) {e : Nat × Word} (he : e ∈ ds) :
    (s.putDigests p step ds).layer p e.1 = (s.layer p e.1).digested e.2 step := by
  induction ds generalizing s lo with
  | nil => exact absurd he List.not_mem_nil
  | cons f ds ih =>
    simp only [Tab.rising, Bool.and_eq_true, decide_eq_true_eq] at rising
    obtain ⟨-, rest⟩ := rising
    have above {e' : Nat × Word} (later : e' ∈ ds) : f.1 < e'.1 := Tab.key_ge_of_rising rest later
    obtain rfl | later := List.mem_cons.1 he
    · exact (layer_putDigests_ne _ p step fun e' he => (above he).ne).trans (layer_setLayer_same ..)
    · refine (ih _ rest later).trans (congrArg (Layer.digested e.2 step) (layer_setLayer_ne _ _ fun here => ?_))
      exact (above later).ne' (Prod.mk.inj here).2

theorem comp_sendDigests (ds : Tab Word) : (s.sendDigests p step ds).comp = s.comp :=
  comp_foldl _ (fun _ _ => comp_foldl _ (fun _ _ => comp_sendTorus ..) _) s

theorem layer_openSight (ds : Tab Word) (l : Nat) : (s.openSight p step ds).layer p l = s.layer p l := by
  rw [State.layer, State.openSight, State.part_modPart_same, State.layer]

end

/-- A register of a partition beyond those of its function is none of the logs'. -/
theorem not_logReg_of_page {a : Nat} (h : 0x58 ≤ a % 0x1000) : ¬ IsLogReg a := by
  rintro ⟨f, rfl | rfl⟩
  all_goals
    simp only [Reg.hstEvlogTail, Reg.hstFuncstat] at h
    obtain e | e := Reg.hst_eq f <;> rw [e] at h <;> omega

theorem not_logReg_prtSightCfg (p : Nat) : ¬ IsLogReg (Reg.prtSightCfg p) := not_logReg_of_page (by unfold Reg.prtSightCfg; omega)

theorem sightReady_spec (s : State) (p : Nat) (step : Word) {ds : Tab Word} (rising : Tab.rising 0 ds = true) :
    let n := s.sightReady p step ds
    (n.part p).sight.open_ = true ∧ (n.part p).sight.step = step ∧ (n.part p).sight.own = ds ∧
      (n.part p).sight.deadline = s.now + 1000000 * max 1 (s.field (Reg.prtSightCfg p) 31 0) ∧
      ∀ e ∈ ds, n.layer p e.1 = (s.layer p e.1).digested e.2 step := by
  intro n
  have put := onlyPart_putDigests s p step ds
  have layer (e : Nat × Word) (he : e ∈ ds) := layer_putDigests s p step rising he
  have ready : n = _ := sightReady_eq s p step ds
  generalize s.putDigests p step ds = u at put layer ready
  have signals := signal_spec Ev.sightReady p [p, step.toNat] u
  generalize u.signal Ev.sightReady p [p, step.toNat] = v at signals ready
  have comp : n.comp = (v.openSight p step ds).comp := by rw [ready, comp_sendDigests]
  have part : n.part p = (v.openSight p step ds).part p := State.part_congr (congrArg Compute.parts comp) p
  have now : v.now = s.now := congrArg BitVec.toNat (signals.tide.trans put.tide)
  have wait : v.field (Reg.prtSightCfg p) 31 0 = s.field (Reg.prtSightCfg p) 31 0 :=
    (signals.field (not_logReg_prtSightCfg p) ..).trans (State.field_congr put.regs ..)
  have kept (l : Nat) : v.layer p l = u.layer p l := by
    rw [State.layer, State.part_congr (congrArg Compute.parts (signals.comp (by decide))), State.layer]
  refine ⟨?_, ?_, ?_, ?_, fun e he => ?_⟩
  · rw [part, State.openSight, State.part_modPart_same]
  · rw [part, State.openSight, State.part_modPart_same]
  · rw [part, State.openSight, State.part_modPart_same]
  · rw [part, State.openSight, State.part_modPart_same, now, wait]
  · rw [State.layer, part, ← State.layer, layer_openSight, kept, layer e he]

/-! ### SIGHT_DIGEST (R422, R423) -/

/-- One layer is digested, beside those digested before. -/
def digestOne (p k : Nat) (acc : Tab Word × List Nat × State) (r : LayerRec) : Tab Word × List Nat × State :=
  (Tab.put acc.1 r.layer (BitVec.ofNat 64 (acc.2.2.layerDigest p k r).1), acc.2.1 ++ (acc.2.2.layerDigest p k r).2.1,
    (acc.2.2.layerDigest p k r).2.2)

/-- Every sighted layer is digested: the digests, the poisoned blocks met, and the state after the reads. -/
def State.digestSighted (s : State) (p k : Nat) : Tab Word × List Nat × State := (s.frameOf p).sighted.foldl (digestOne p k) ([], [], s)

theorem Tab.exists_key_put {α : Type} (t : Tab α) (k : Nat) (v : α) (l : Nat) :
    (∃ e ∈ Tab.put t k v, e.1 = l) ↔ k = l ∨ ∃ e ∈ t, e.1 = l := by
  induction t with
  | nil => simp [Tab.put]
  | cons x r ih =>
    obtain ⟨j, w⟩ := x
    rw [Tab.put]
    split
    next same => simp [same]
    next =>
      split
      next => simp
      next =>
        simp only [List.mem_cons, exists_eq_or_imp, ih]
        exact or_left_comm

theorem digestOne_keys (p k : Nat) (rs : List LayerRec) (acc : Tab Word × List Nat × State) (rising : Tab.rising 0 acc.1 = true) :
    Tab.rising 0 (rs.foldl (digestOne p k) acc).1 = true ∧
      ∀ l, (∃ e ∈ (rs.foldl (digestOne p k) acc).1, e.1 = l) ↔ (∃ r ∈ rs, r.layer = l) ∨ ∃ e ∈ acc.1, e.1 = l := by
  induction rs generalizing acc with
  | nil => exact ⟨rising, fun l => by simp⟩
  | cons r rs ih =>
    obtain ⟨still, keys⟩ := ih (digestOne p k acc r) (Tab.rising_put _ (Nat.zero_le _) rising)
    refine ⟨still, fun l => (keys l).trans ?_⟩
    rw [digestOne, Tab.exists_key_put, List.exists_mem_cons_iff, or_assoc]
    exact or_left_comm

/-- The digests are those of the sighted layers. -/
theorem digestSighted_keys (s : State) (p k : Nat) : Tab.rising 0 (s.digestSighted p k).1 = true ∧
    ∀ l, (∃ r ∈ (s.frameOf p).sighted, r.layer = l) ↔ ∃ e ∈ (s.digestSighted p k).1, e.1 = l := by
  obtain ⟨rising, keys⟩ := digestOne_keys p k (s.frameOf p).sighted ([], [], s) rfl
  exact ⟨rising, fun l => ((keys l).trans (or_iff_left (by simp))).symm⟩

/-- An update of the step is pending in a layer. -/
def Layer.pends (step : Word) (x : Layer) : Bool :=
  decide (x.gradStep = step) && (decide (x.st = .staged) || decide (x.st = .copying) || decide (x.st = .compute))

theorem pends_none {layers : Tab Layer} {step : Word} (settled : (layers.all fun kl => decide (kl.2.gradStep ≠ step) ||
    !(kl.2.st == .staged || kl.2.st == .copying || kl.2.st == .compute)) = true) : layers.any (fun kl => kl.2.pends step) = false := by
  rw [List.any_eq_false]
  intro kl listed pending
  have settled := List.all_eq_true.1 settled kl listed
  simp only [Layer.pends, Bool.and_eq_true, Bool.or_eq_true, decide_eq_true_eq] at pending
  obtain ⟨own, st⟩ := pending
  simp only [own, ne_eq, not_true_eq_false, decide_false, Bool.false_or, Bool.not_eq_true', Bool.or_eq_false_iff, beq_eq_false_iff_ne] at settled
  obtain ⟨⟨staged, copying⟩, compute⟩ := settled
  exact st.elim (fun st => st.elim staged copying) compute

section
variable {s : State} {p k : Nat} (key : s.sightKey p = some k) (sights : (s.frameOf p).sightK ≠ 0) (begun : s.stepNo p ≠ 0)
  (due : (s.stepNo p - 1).toNat % (s.frameOf p).sightK = 0) (some_sighted : (s.frameOf p).sighted ≠ [])
  (runs : s.phys.power.halted = false)
  (settled : ((s.part p).pln.layers.all fun kl => decide (kl.2.gradStep ≠ s.stepNo p - 1) ||
    !(kl.2.st == .staged || kl.2.st == .copying || kl.2.st == .compute)) = true)
include key sights begun due some_sighted runs settled

theorem exec_sightDigest : exec (.sightDigest p) s = .next (match (s.digestSighted p k).2.1 with
    | b :: _ => (s.digestSighted p k).2.2.poisonConsumed p b 5
    | [] => (s.digestSighted p k).2.2.sightReady p (s.stepNo p - 1) (s.digestSighted p k).1) := by
  have waits_not : ¬ ((s.frameOf p).sightK = 0 ∨ s.stepNo p = 0 ∨ (s.stepNo p - 1).toNat % (s.frameOf p).sightK ≠ 0 ∨
      (s.part p).pln.layers.any (fun kl => kl.2.pends (s.stepNo p - 1)) = true ∨ (s.frameOf p).sighted = [] ∨ s.phys.power.halted = true) := by
    simp only [sights, begun, due, pends_none settled, some_sighted, runs, ne_eq, not_true_eq_false, Bool.false_eq_true, or_self,
      not_false_eq_true]
  show execSightDigest p s = _
  unfold execSightDigest
  rw [key]
  exact congrArg Host.Outcome.next (if_neg waits_not)

theorem sightDigest_ready (good : (s.digestSighted p k).2.1 = []) :
    exec (.sightDigest p) s = .next ((s.digestSighted p k).2.2.sightReady p (s.stepNo p - 1) (s.digestSighted p k).1) := by
  rw [exec_sightDigest key sights begun due some_sighted runs settled, good]

theorem sightDigest_poisoned {b : Nat} {bs : List Nat} (bad : (s.digestSighted p k).2.1 = b :: bs) :
    exec (.sightDigest p) s = .next ((s.digestSighted p k).2.2.poisonConsumed p b 5) := by
  rw [exec_sightDigest key sights begun due some_sighted runs settled, bad]

theorem sightDigest_spec :
    (∃ (u : State) (ds : Tab Word), exec (.sightDigest p) s = .next (u.sightReady p (s.stepNo p - 1) ds) ∧ Tab.rising 0 ds = true ∧
        ∀ l, (∃ r ∈ (s.frameOf p).sighted, r.layer = l) ↔ ∃ e ∈ ds, e.1 = l) ∨
      ∃ (u : State) (b : Nat), exec (.sightDigest p) s = .next (u.poisonConsumed p b 5) := by
  obtain ⟨rising, keys⟩ := digestSighted_keys s p k
  cases found : (s.digestSighted p k).2.1 with
  | nil => exact .inl ⟨_, _, sightDigest_ready key sights begun due some_sighted runs settled found, rising, keys⟩
  | cons b bs => exact .inr ⟨_, b, sightDigest_poisoned key sights begun due some_sighted runs settled found⟩

/-- The digest of the only sighted layer. -/
theorem sightDigest_one {r : LayerRec} (only : (s.frameOf p).sighted = [r]) (good : (s.layerDigest p k r).2.1 = []) :
    exec (.sightDigest p) s = .next ((s.layerDigest p k r).2.2.sightReady p (s.stepNo p - 1)
      [(r.layer, BitVec.ofNat 64 (s.layerDigest p k r).1)]) := by
  have one : s.digestSighted p k = digestOne p k ([], [], s) r := by rw [State.digestSighted, only]; rfl
  have ready := sightDigest_ready key sights begun due some_sighted runs settled (by rw [one]; exact good)
  rw [one] at ready
  exact ready

end

/-! ### STL_JOINERY_MESSAGE (R538, R673) -/

section
variable {s : State} {h : PutHeader} (l : Nat) (d : Word)

/-- The entry of the peer that sent a message. -/
def State.sender (s : State) (h : PutHeader) : Option (Nat × Dword × Nat) :=
  (s.peers h.dpart).find? fun q => decide (q.2.1 = h.src) && decide (q.2.2 = h.spart)

theorem stlJoineryMessage_stranger (stranger : s.sender h = none) : exec (.stlJoineryMessage h l d) s = .next s := by
  show execStlJoineryMessage h l d s = _
  unfold State.sender at stranger
  rw [execStlJoineryMessage]
  dsimp only
  rw [stranger]

/-- A peer's digests of the open step with one more. -/
def Sight.heard (i l : Nat) (d : Word) (g : Sight) : Sight := { g with peers := Tab.put g.peers i (Tab.put (Tab.get [] g.peers i) l d) }

theorem stlJoineryMessage_peer {q : Nat × Dword × Nat} (peer : s.sender h = some q) (kind : h.kind = 0x03) (dst : h.dst = s.address)
    (known : s.partExists h.dpart = true) (step : h.step = (s.part h.dpart).sight.step) : exec (.stlJoineryMessage h l d) s =
      .next (s.modPart h.dpart fun x => { x with sight := (s.part h.dpart).sight.heard q.1 l d }) := by
  show execStlJoineryMessage h l d s = _
  unfold State.sender at peer
  rw [execStlJoineryMessage]
  dsimp only
  rw [peer]
  have taken : ¬ (h.kind ≠ 0x03 ∨ h.dst ≠ s.address ∨ s.partExists h.dpart = false ∨ (h.step ≠ (s.part h.dpart).sight.step ∧
      ((s.part h.dpart).sight.open_ = true ∨ h.step < (s.part h.dpart).sight.step))) := by
    simp only [kind, dst, known, step, ne_eq, not_true_eq_false, Bool.true_eq_false, false_and, or_self, not_false_eq_true]
  refine congrArg Host.Outcome.next ((if_neg taken).trans ?_)
  rw [if_pos step, step]
  rfl

theorem stlJoineryMessage_spec {q : Nat × Dword × Nat} (peer : s.sender h = some q) (kind : h.kind = 0x03) (dst : h.dst = s.address)
    (known : s.partExists h.dpart = true) (step : h.step = (s.part h.dpart).sight.step) : let g := (s.part h.dpart).sight
    ∃ n, exec (.stlJoineryMessage h l d) s = .next n ∧ Tab.get 0 (Tab.get [] (n.part h.dpart).sight.peers q.1) l = d ∧
      (n.part h.dpart).sight.own = g.own ∧
      (∀ i, i ≠ q.1 → Tab.get [] (n.part h.dpart).sight.peers i = Tab.get [] g.peers i) ∧ OnlyPart h.dpart s n := by
  refine ⟨_, stlJoineryMessage_peer l d peer kind dst known step, ?_, ?_, fun i other => ?_, onlyPart_modPart ..⟩
  · rw [State.part_modPart_same, Sight.heard, Tab.get_put_same, Tab.get_put_same]
  · rw [State.part_modPart_same, Sight.heard]
  · rw [State.part_modPart_same, Sight.heard, Tab.get_put_ne _ _ _ other]

end

/-! ### SIGHT_DECIDE (R538 to R540) -/

theorem sightVote_agree {v : Word} {vs : List Word} (same : ∀ u ∈ vs, u = v) : sightVote (v :: vs) = .agree := by
  have all : ((v :: vs).all fun u => u == v) = true := by
    rw [List.all_cons, beq_self_eq_true, Bool.true_and, List.all_eq_true]
    exact fun u hu => beq_iff_eq.2 (same u hu)
  rw [sightVote, if_pos all]

/-- The digests of the peers that have sent one of every layer. -/
def State.replicas (s : State) (p : Nat) : List (Tab Word) :=
  (s.peers p).filterMap fun q =>
    let ds := Tab.get [] (s.part p).sight.peers q.1
    if digestsWhole (s.part p).sight.own ds then some ds else none

/-- The votes of the replicas, layer by layer. -/
def State.sightVotes (s : State) (p : Nat) : List (Nat × Word × SightVote) :=
  (s.part p).sight.own.map fun e => (e.1, e.2, sightVote (e.2 :: (s.replicas p).map fun ds => Tab.get 0 ds e.1))

/-- The wait for the peers' digests is over. -/
def State.closeSight (p : Nat) (s : State) : State := s.modPart p fun x => { x with sight := { x.sight with open_ := false, peers := [] } }

theorem part_closeSight (p : Nat) (s : State) : ((s.closeSight p).part p).sight = { (s.part p).sight with open_ := false, peers := [] } := by
  rw [State.closeSight, State.part_modPart_same]

theorem onlyPart_closeSight (p : Nat) (s : State) : OnlyPart p s (s.closeSight p) := onlyPart_modPart ..

section
variable {s : State} {p : Nat}

theorem replicas_whole (whole : ∀ q ∈ s.peers p, digestsWhole (s.part p).sight.own (Tab.get [] (s.part p).sight.peers q.1) = true) :
    s.replicas p = (s.peers p).map fun q => Tab.get [] (s.part p).sight.peers q.1 := by
  rw [State.replicas, ← List.filterMap_eq_map]
  exact List.filterMap_congr fun q hq => if_pos (whole q hq)

theorem replicas_none (missing : ∀ q ∈ s.peers p, digestsWhole (s.part p).sight.own (Tab.get [] (s.part p).sight.peers q.1) = false) :
    s.replicas p = [] :=
  List.filterMap_eq_nil_iff.2 fun q hq => if_neg (ne_true_of_eq_false (missing q hq))

/-- Replicas whose digests are the module's own differ in no layer. -/
theorem sightVotes_agree (same : ∀ ds ∈ s.replicas p, ∀ e ∈ (s.part p).sight.own, Tab.get 0 ds e.1 = e.2) :
    (s.sightVotes p).filter (fun v => decide (v.2.2 ≠ .agree)) = [] := by
  rw [List.filter_eq_nil_iff]
  intro v voted
  obtain ⟨e, own, rfl⟩ := List.mem_map.1 voted
  have agree : sightVote (e.2 :: (s.replicas p).map fun ds => Tab.get 0 ds e.1) = .agree := sightVote_agree fun u hu => by
    obtain ⟨ds, there, rfl⟩ := List.mem_map.1 hu
    exact same ds there e own
  simp only [agree, ne_eq, not_true_eq_false, decide_false, Bool.false_eq_true, not_false_eq_true]

variable (opened : (s.part p).sight.open_ = true) (runs : s.phys.power.halted = false) (paired : s.peers p ≠ [])
include opened runs paired

theorem sightDecide_equal (all : (s.replicas p).length = (s.peers p).length)
    (agree : (s.sightVotes p).filter (fun v => decide (v.2.2 ≠ .agree)) = []) : exec (.sightDecide p) s =
      .next ((s.closeSight p).setSightStat p ((s.peers p).length + 1) 0 1 (s.part p).sight.step) := by
  have acts : ¬ ((s.part p).sight.open_ = false ∨ s.phys.power.halted = true) := by simp [opened, runs]
  have several : ¬ (s.replicas p).length + 1 < 2 := by
    have := List.length_pos_iff.2 paired
    omega
  rw [← all]
  show execSightDecide p s = _
  unfold execSightDecide
  refine congrArg Host.Outcome.next ((if_neg acts).trans ?_)
  extract_lets here s1 s2 n votes diff
  have equal : diff = 0 := congrArg List.length agree
  have now : s1 = s := if_pos all
  refine (if_neg several).trans ((if_pos equal).trans ?_)
  show (s1.closeSight p).setSightStat .. = _
  rw [now]
  rfl

theorem sightDecide_incomplete (none_here : s.replicas p = []) : exec (.sightDecide p) s =
    .next ((((s.passTo (s.part p).sight.deadline).closeSight p).setSightStat p 1 0 5 (s.part p).sight.step).signal Ev.sightIncomplete p
      [p, (s.part p).sight.step.toNat, 1]) := by
  have acts : ¬ ((s.part p).sight.open_ = false ∨ s.phys.power.halted = true) := by simp [opened, runs]
  have one : (s.replicas p).length = 0 := congrArg List.length none_here
  have fewer : ¬ (s.replicas p).length = (s.peers p).length := fun e => paired (List.length_eq_zero_iff.1 (e.symm.trans one))
  show execSightDecide p s = _
  unfold execSightDecide
  refine congrArg Host.Outcome.next ((if_neg acts).trans ?_)
  extract_lets here s1 s2 n votes diff
  have waited : s1 = s.passTo (s.part p).sight.deadline := if_neg fewer
  have alone : n = 1 := congrArg (· + 1) one
  refine (if_pos (alone ▸ Nat.one_lt_two)).trans ?_
  show ((s1.closeSight p).setSightStat p n 0 5 _).signal _ _ _ = _
  rw [waited, alone]

theorem sightDecide_equal_spec
    (whole : ∀ q ∈ s.peers p, digestsWhole (s.part p).sight.own (Tab.get [] (s.part p).sight.peers q.1) = true)
    (same : ∀ q ∈ s.peers p, ∀ e ∈ (s.part p).sight.own, Tab.get 0 (Tab.get [] (s.part p).sight.peers q.1) e.1 = e.2) :
    let g := (s.part p).sight
    ∃ n, exec (.sightDecide p) s = .next n ∧ (n.part p).sight = { g with open_ := false, peers := [] } ∧
      n.reg (Reg.prtSightStat p) = (fld 63 32 (g.step.toNat % 2 ^ 32) ||| fld 31 24 ((s.peers p).length + 1) ||| fld 2 0 1) ∧
      OnlyPart p { s with regs := n.regs } n ∧ OnlyRegs [Reg.prtSightStat p] { s with comp := n.comp } n := by
  have replicas := replicas_whole whole
  have all : (s.replicas p).length = (s.peers p).length := by rw [replicas, List.length_map]
  have agree := sightVotes_agree (s := s) (p := p) fun ds there e own => by
    rw [replicas] at there
    obtain ⟨q, peer, rfl⟩ := List.mem_map.1 there
    exact same q peer e own
  refine ⟨_, sightDecide_equal opened runs paired all agree, part_closeSight .., ?_,
    ⟨rfl, (onlyPart_closeSight p s).2⟩, onlyRegs_setReg ..⟩
  exact (State.reg_setReg_same ..).trans (congrArg (· ||| fld 2 0 1) (BitVec.or_zero ..))

theorem sightDecide_incomplete_spec
    (missing : ∀ q ∈ s.peers p, digestsWhole (s.part p).sight.own (Tab.get [] (s.part p).sight.peers q.1) = false) :
    let g := (s.part p).sight
    ∃ u n, exec (.sightDecide p) s = .next n ∧ Signals Ev.sightIncomplete p [p, g.step.toNat, 1] u n ∧
      u.tide = (s.passTo g.deadline).tide ∧
      u.reg (Reg.prtSightStat p) = (fld 63 32 (g.step.toNat % 2 ^ 32) ||| fld 31 24 1 ||| fld 2 0 5) ∧
      (u.part p).sight.open_ = false := by
  refine ⟨_, _, sightDecide_incomplete opened runs paired (replicas_none missing), signal_spec .., rfl, ?_, ?_⟩
  · exact (State.reg_setReg_same ..).trans (congrArg (· ||| fld 2 0 5) (BitVec.or_zero ..))
  · exact congrArg Sight.open_ (part_closeSight ..)

end

/-! ### The obligation -/

/-- Settles O43: the digests as they become ready, SIGHT_DIGEST by what the reads of the weights meet, the messages of a peer and of a
stranger, and the comparison where all agree and where none has come. -/
theorem sightingComparesReplicas : Obligations.SightingComparesReplicas := by
  unfold Obligations.SightingComparesReplicas
  refine ⟨?ready, ?digest, ?message, ?decide⟩
  case ready =>
    intro s p step ds _ _ rising
    obtain ⟨opened, ofStep, own, deadline, layers⟩ := sightReady_spec s p step rising
    exact ⟨opened, ofStep, own, deadline, fun e he => ⟨congrArg Layer.digest (layers e he), congrArg Layer.dstep (layers e he)⟩⟩
  case digest =>
    intro s p k f step key sights begun due some_sighted runs settled
    exact ⟨sightDigest_spec key sights begun due some_sighted runs settled,
      fun r only good => sightDigest_one key sights begun due some_sighted runs settled only good⟩
  case message =>
    intro s h l d p g
    exact ⟨fun q peer kind dst known step => stlJoineryMessage_spec l d peer kind dst known step, stlJoineryMessage_stranger l d⟩
  case decide =>
    intro s p g opened runs
    exact ⟨sightDecide_equal_spec opened runs, sightDecide_incomplete_spec opened runs⟩

end Sys2Proof.Machine
end

section
/-!
SUPPORT. What events and the count of gradients leave of HBM, and proofs about reads and writes within one block (R391, R392, R437 to
R440, R443, R446, R447).
-/

namespace Sys2Proof.Machine

/-! ### What follows an access leaves HBM -/

/-- A register that the logs and a suspect stack's scrub period leave (R455, R620). -/
def AfterAccess (a : Nat) : Prop := ¬ IsLogReg a ∧ ∀ k, a ≠ Reg.hbmScrub k

theorem afterAccess_of_offset {a : Nat} (ht : a % 0x1000 ≠ 0x40) (hf : a % 0x1000 ≠ 0x50) (hs : a % 0x10000 ≠ 0x30) :
    AfterAccess a := by
  refine ⟨?_, fun k e => ?_⟩
  · rintro ⟨f, rfl | rfl⟩
    · unfold Reg.hstEvlogTail at ht
      obtain e | e := Reg.hst_eq f <;> omega
    · unfold Reg.hstFuncstat at hf
      obtain e | e := Reg.hst_eq f <;> omega
  · unfold Reg.hbmScrub at e
    omega

theorem afterAccess_hbmErrcnt (k : Nat) : AfterAccess (Reg.hbmErrcnt k) := by
  refine afterAccess_of_offset ?_ ?_ ?_ <;> unfold Reg.hbmErrcnt <;> omega
theorem afterAccess_hbmErrcnt2 (k : Nat) : AfterAccess (Reg.hbmErrcnt2 k) := by
  refine afterAccess_of_offset ?_ ?_ ?_ <;> unfold Reg.hbmErrcnt2 <;> omega
theorem afterAccess_prtHbmSpread (p : Nat) : AfterAccess (Reg.prtHbmSpread p) := by
  refine afterAccess_of_offset ?_ ?_ ?_ <;> unfold Reg.prtHbmSpread <;> omega
theorem afterAccess_hbmPregp (k : Nat) {i : Nat} (hi : i < 8) : AfterAccess (Reg.hbmPregp k i) := by
  refine afterAccess_of_offset ?_ ?_ ?_ <;> unfold Reg.hbmPregp <;> omega

/-- From `s` to `t` every byte of HBM stays, with its blocks' errors and poison, the supply, Tide and the map of partition
addresses; records on their way to the Grain log may join. -/
structure HbmKept (s t : State) : Prop where
  hbm : t.comp.hbm = s.comp.hbm
  poison : ∀ k, (t.stack k).poison = (s.stack k).poison
  errs : ∀ k, (t.stack k).errs = (s.stack k).errs
  phys : t.phys = s.phys
  tide : t.tide = s.tide
  reg : ∀ a, AfterAccess a → t.reg a = s.reg a
  grows : Grows s t

section
variable {s t u : State}

theorem HbmKept.refl (s : State) : HbmKept s s := ⟨rfl, fun _ => rfl, fun _ => rfl, rfl, rfl, fun _ _ => rfl, .of_eq rfl⟩

theorem HbmKept.trans (h : HbmKept s t) (k : HbmKept t u) : HbmKept s u where
  hbm := k.hbm.trans h.hbm
  poison := fun j => (k.poison j).trans (h.poison j)
  errs := fun j => (k.errs j).trans (h.errs j)
  phys := k.phys.trans h.phys
  tide := k.tide.trans h.tide
  reg := fun a ha => (k.reg a ha).trans (h.reg a ha)
  grows := h.grows.trans k.grows

theorem HbmKept.ite {c : Prop} [Decidable c] (h : HbmKept s t) (k : HbmKept s u) : HbmKept s (if c then t else u) := by
  split
  · exact h
  · exact k

theorem HbmKept.foldl {α : Type} {f : State → α → State} (l : List α) (h : HbmKept s t) (hf : ∀ u x, HbmKept u (f u x)) :
    HbmKept s (l.foldl f t) := by
  induction l generalizing t with
  | nil => exact h
  | cons x xs ih => exact ih (h.trans (hf t x))

/-- A change beside what the frame speaks of. -/
theorem HbmKept.same (h : HbmKept s t) (hb : u.comp.hbm = t.comp.hbm := by rfl) (hk : u.comp.stackTab = t.comp.stackTab := by rfl)
    (hp : u.phys = t.phys := by rfl) (ht : u.tide = t.tide := by rfl) (hr : u.regs = t.regs := by rfl)
    (hg : u.man.grain.waiting = t.man.grain.waiting := by rfl) : HbmKept s u :=
  h.trans ⟨hb, fun k => by rw [stack_congr hk], fun k => by rw [stack_congr hk], hp, ht, fun a _ => State.reg_congr hr a, .of_eq hg⟩

theorem stopFor_hbm (sev : Severity) (p : Nat) (u : State) : (u.stopFor sev p).comp.hbm = u.comp.hbm := by cases sev <;> rfl

theorem Signals.hbm {id : EventId} {p : Nat} {ops : List Nat} (h : Signals id p ops s t) : t.comp.hbm = s.comp.hbm := by
  obtain ⟨u, hu, -, rfl⟩ := h
  rw [stopFor_hbm, hu.comp]

theorem HbmKept.signals {id : EventId} {p : Nat} {ops : List Nat} (h : HbmKept s t) (k : Signals id p ops t u) : HbmKept s u :=
  h.trans {
    hbm := k.hbm, phys := k.phys, tide := k.tide, grows := k.grows
    poison := fun j => by rw [stack_congr k.stackTab]
    errs := fun j => by rw [stack_congr k.stackTab]
    reg := fun _ ha => k.reg ha.1 }

theorem HbmKept.signal (h : HbmKept s t) (id : EventId) (p : Nat) (ops : List Nat) : HbmKept s (t.signal id p ops) :=
  h.signals (signal_spec id p ops t)

theorem HbmKept.field (h : HbmKept s t) {a : Nat} (ha : AfterAccess a) (hi lo : Nat) : t.field a hi lo = s.field a hi lo := by
  rw [State.field, h.reg a ha, State.field]

theorem HbmKept.mem (h : HbmKept s t) {r : GrnRec} (hr : r ∈ s.man.grain.waiting) : r ∈ t.man.grain.waiting := h.grows.subset hr

theorem hbmKept_countGradient (s : State) (p pa n : Nat) (r : LayerRec) : HbmKept s (s.countGradient p pa n r) := by
  have h := HbmKept.refl s
  unfold State.countGradient
  split
  · exact h
  · exact .ite h (.ite (h.signal ..) (.ite h.same h.same))

theorem hbmKept_countGradients (s : State) (p pa n : Nat) : HbmKept s (s.countGradients p pa n) :=
  (HbmKept.refl s).foldl _ fun _ _ => hbmKept_countGradient ..

/-! ### Partition addresses (R435 to R437) -/

theorem HbmKept.hbmRegion (h : HbmKept s t) {p : Nat} (hp : p ≤ 8) (k : Nat) : t.hbmRegion p k = s.hbmRegion p k := by
  rw [State.hbmRegion, h.reg _ (afterAccess_hbmPregp k (by omega)), State.hbmRegion]

theorem HbmKept.decodePa (h : HbmKept s t) {p : Nat} (hp : p ≤ 8) (pa : Nat) : t.decodePa p pa = s.decodePa p pa := by
  simp only [State.decodePa, State.placeOf, State.stacksOf, h.hbmRegion hp, h.field (afterAccess_prtHbmSpread p), State.segUp,
    h.phys] <;> rfl

end

/-- A partition address and the place that it decodes to lie alike in their blocks: regions, shares and pages are whole blocks. -/
theorem decodePa_offset {s : State} {p pa k rel : Nat} (h : s.decodePa p pa = some (k, rel)) : rel % 64 = pa % 64 := by
  have place : s.placeOf p pa = some (k, rel) := by
    unfold State.decodePa at h
    split at h
    next e he =>
      split at h
      · rw [he, h]
      · exact nomatch h
    next => exact nomatch h
  unfold State.placeOf gib at place
  dsimp only at place
  split at place
  · split at place
    · obtain ⟨-, rfl⟩ := Prod.mk.inj (Option.some.inj place)
      omega
    · exact nomatch place
  · split at place
    · split at place
      · split at place
        · obtain ⟨-, rfl⟩ := Prod.mk.inj (Option.some.inj place)
          omega
        · exact nomatch place
      · exact nomatch place
    · exact nomatch place

/-! ### Reads and writes within one block -/

section
variable {s : State} {p pa k rel : Nat}

theorem unitPart_within {len : Nat} (h : pa % 64 + len ≤ 64) : unitPart 64 pa len = len := by
  unfold unitPart
  omega

theorem writePa_nothing (s : State) (p n pa : Nat) : State.writePa p n pa [] s = (0, s) := by
  cases n with
  | zero => rfl
  | succ n =>
    have none_left : s.writeUnit p pa [] = none := by
      rw [State.writeUnit, unitPart, List.length_nil, Nat.zero_min]
      rfl
    rw [State.writePa, none_left]

theorem readPa_nothing (s : State) (p n pa : Nat) : State.readPa p n pa 0 s = ({ data := [], bad := [], n := 0 }, s) := by
  cases n with
  | zero => rfl
  | succ n =>
    have none_left : s.readUnit p pa 0 = none := by
      rw [State.readUnit, unitPart, Nat.zero_min]
      rfl
    rw [State.readPa, none_left]

variable (at_ : s.decodePa p pa = some (k, rel))
include at_

/-- A write within one block is one write of the block, and counts once toward the gradients (R391, R440). -/
theorem writeRange_block {d : List Byte} (some_ : d ≠ []) (fits : pa % 64 + d.length ≤ 64) :
    s.writeRange p pa d = (d.length, (s.writeBlock k rel d).countGradients p pa d.length) := by
  have one : s.writeUnit p pa d = some (d.length, s.writeBlock k rel d) := by
    have hlen : d.length ≠ 0 := fun e => some_ (List.length_eq_zero_iff.1 e)
    rw [State.writeUnit, unitPart_within fits]
    simp only [if_neg hlen, at_, List.take_length]
  rw [State.writeRange, State.writePa, one]
  simp only [List.drop_length, writePa_nothing, Nat.add_zero]

/-- A read within one block that is neither poisoned nor in error brings its bytes (R443). -/
theorem readRange_block {len : Nat} (some_ : len ≠ 0) (fits : pa % 64 + len ≤ 64) (sound : ¬ rel / 64 ∈ (s.stack k).poison)
    (good : Tab.get [] (s.stack k).errs (rel / 64) = []) :
    (s.readRange p pa len).1 = { data := memRead s.comp.hbm (hbmKey k rel) len, bad := [], n := len } := by
  have block : s.readBlock k (rel / 64) false = (true, s) := by
    simp only [State.readBlock, List.contains_eq_mem, sound, decide_false, Bool.false_eq_true, if_false, good]
  have one : s.readUnit p pa len = some ({ data := memRead s.comp.hbm (hbmKey k rel) len, bad := [], n := len }, s) := by
    rw [State.readUnit, unitPart_within fits]
    simp only [if_neg some_, at_, block, if_true]
  rw [State.readRange, State.readPa, one]
  simp only [Nat.sub_self, readPa_nothing, List.append_nil, Nat.add_zero]

end

/-- The block is poisoned and in error no more. -/
def State.blockSound (k blk : Nat) (s : State) : State :=
  s.modStack k fun x => { x with poison := x.poison.filter fun b => decide (b ≠ blk), errs := Tab.set [] x.errs blk [] }

theorem blockSound_spec (s : State) (k blk : Nat) : ¬ blk ∈ ((s.blockSound k blk).stack k).poison ∧
    Tab.get [] ((s.blockSound k blk).stack k).errs blk = [] := by
  rw [State.blockSound, State.stack_modStack_same]
  exact ⟨by simp, by simp⟩

/-- A whole block, or a part of one that is neither poisoned nor in error, is stored; the block is then sound and without error
(R440, R447). -/
theorem writeBlock_stores {s : State} {k rel : Nat} {d : List Byte} (h : rel % 64 = 0 ∧ d.length = 64 ∨
      ¬ rel / 64 ∈ (s.stack k).poison ∧ Tab.get [] (s.stack k).errs (rel / 64) = []) : let t := s.writeBlock k rel d
    t.comp.hbm = memWrite s.comp.hbm (hbmKey k rel) d ∧ ¬ rel / 64 ∈ (t.stack k).poison ∧
      Tab.get [] (t.stack k).errs (rel / 64) = [] ∧ ∀ p pa, t.decodePa p pa = s.decodePa p pa := by
  intro t
  by_cases whole : rel % 64 = 0 ∧ d.length = 64
  · have stored : t = (s.blockSound k (rel / 64)).storeHbm k rel d := if_pos whole
    obtain ⟨sound, good⟩ := blockSound_spec s k (rel / 64)
    rw [stored]
    exact ⟨rfl, sound, good, fun _ _ => rfl⟩
  · obtain ⟨sound, good⟩ := h.resolve_left whole
    have stored : t = s.storeHbm k rel d := by
      show s.writeBlock k rel d = _
      simp only [State.writeBlock, if_neg whole, State.readBlock, List.contains_eq_mem, sound, decide_false, Bool.false_eq_true,
        if_false, good, if_true]
    rw [stored]
    exact ⟨rfl, sound, good, fun _ _ => rfl⟩

/-- A part of a poisoned block is not performed (R447). -/
theorem writeBlock_poisoned {s : State} {k rel : Nat} {d : List Byte} (part : ¬ (rel % 64 = 0 ∧ d.length = 64))
    (poisoned : rel / 64 ∈ (s.stack k).poison) : s.writeBlock k rel d = s.refuseWrite k rel := by
  simp only [State.writeBlock, if_neg part, List.contains_eq_mem, poisoned, decide_true, if_true]

/-- What is not performed counts, and its event is raised (R447). -/
theorem refuseWrite_spec (s : State) (k rel : Nat) : let t := s.refuseWrite k rel
    t.comp.hbm = s.comp.hbm ∧ t.stack k = s.stack k ∧
      t.field (Reg.hbmErrcnt2 k) 63 32 = min (s.field (Reg.hbmErrcnt2 k) 63 32 + 1) 0xFFFFFFFF ∧
      eventRecord Ev.hbmPoisonWrite 0 [k, rel] s.tide ∈ t.man.grain.waiting := by
  intro t
  have raised : Signals Ev.hbmPoisonWrite 0 [k, rel] (s.bump (Reg.hbmErrcnt2 k) 63 32 1) t := signal_spec ..
  refine ⟨raised.hbm, stack_congr raised.stackTab k, ?_, raised.mem⟩
  rw [raised.field (afterAccess_hbmErrcnt2 k).1]
  exact s.field_bump (Reg.hbmErrcnt2 k) 63 32 1 (by decide) (by decide)

/-- Settles O46: within one block a write is one write of the block, after which only gradients count; what was stored is read back
from a sound block, and what was refused left every byte. -/
theorem hbmBlocksReadAsWritten : Obligations.HbmBlocksReadAsWritten := by
  intro s p pa k rel d _ hp decodes some_ fits whole
  have offset := decodePa_offset decodes
  have whole_iff : whole ↔ rel % 64 = 0 ∧ d.length = 64 := by rw [offset]
  have counted := hbmKept_countGradients (s.writeBlock k rel d) p pa d.length
  refine ⟨fun h => ?stored, fun part poisoned => ?refused⟩
  case stored =>
    intro w
    rw [show w = _ from writeRange_block decodes some_ fits]
    obtain ⟨bytes, sound, good, map⟩ := writeBlock_stores (d := d) (h.imp_left whole_iff.1)
    have hlen : d.length ≠ 0 := fun e => some_ (List.length_eq_zero_iff.1 e)
    have read := readRange_block (s := (s.writeBlock k rel d).countGradients p pa d.length) (p := p) (k := k) (rel := rel)
      (by rw [counted.decodePa hp, map, decodes]) hlen fits (by rw [counted.poison]; exact sound) (by rw [counted.errs]; exact good)
    refine ⟨rfl, by rw [counted.poison]; exact sound, ?_, fun key apart => ?_⟩
    · rw [read, counted.hbm, bytes, memRead_memWrite_same]
    · rw [counted.hbm, bytes, get_memWrite, if_neg (by omega)]
  case refused =>
    intro w
    rw [show w = _ from writeRange_block decodes some_ fits]
    rw [writeBlock_poisoned (fun e => part (whole_iff.2 e)) poisoned] at counted ⊢
    obtain ⟨bytes, stack, count, event⟩ := refuseWrite_spec s k rel
    exact ⟨rfl, by rw [counted.poison, stack]; exact poisoned, counted.hbm.trans bytes,
      (counted.field (afterAccess_hbmErrcnt2 k) ..).trans count, counted.mem event⟩

end Sys2Proof.Machine
end


section
/-!
SUPPORT. Proofs about the patrol scrub: a read of the next block, the end of a pass, a new pass, and the end of suspicion (R443 to
R446, R452 to R455, R459).
-/

namespace Sys2Proof.Machine

theorem onlyStack_setStack (s : State) (k : Nat) (x : Stack) : OnlyStack k s (s.setStack k x) :=
  ⟨rfl, fun _ hj => s.stack_setStack_ne x hj⟩
theorem onlyStack_modStack (s : State) (k : Nat) (f : Stack → Stack) : OnlyStack k s (s.modStack k f) := onlyStack_setStack ..

section
variable {s t : State} {k : Nat}

/-- A stack whose blocks keep their poison and their errors is replaced. -/
theorem HbmKept.setStack (h : HbmKept s t) {x : Stack} (hp : x.poison = (t.stack k).poison) (he : x.errs = (t.stack k).errs) :
    HbmKept s (t.setStack k x) := by
  refine h.trans { HbmKept.refl t with poison := fun j => ?_, errs := fun j => ?_ }
  all_goals
    by_cases hj : j = k
    · rw [hj, State.stack_setStack_same]
      assumption
    · rw [State.stack_setStack_ne _ _ hj]

theorem HbmKept.sendRecord (h : HbmKept s t) (a b c : Nat) (d : List Byte) : HbmKept s (t.sendRecord a b c d) :=
  h.trans { HbmKept.refl t with grows := .sendRecord t a b c d }

theorem HbmKept.setScrub (h : HbmKept s t) (k hi lo v : Nat) : HbmKept s (t.setField (Reg.hbmScrub k) hi lo v) :=
  h.trans { HbmKept.refl t with reg := fun _ ha => State.reg_setField_ne _ _ _ _ (ha.2 k) }

end

/-! ### A block is corrected (R443, R444, R455) -/

theorem reg_hbmLog_ne (s : State) {k a : Nat} (kind blk b0 b1 : Nat) (h0 : a ≠ Reg.hbmElog0 k) (h1 : a ≠ Reg.hbmElog1 k) :
    (s.hbmLog k kind blk b0 b1).reg a = s.reg a := by
  rw [State.hbmLog, State.reg_setReg_ne _ _ h1, State.reg_setReg_ne _ _ h0]

theorem hbmErrcnt_ne (k : Nat) : Reg.hbmErrcnt k ≠ Reg.hbmElog0 k ∧ Reg.hbmErrcnt k ≠ Reg.hbmElog1 k ∧
    Reg.hbmErrcnt k ≠ Reg.hbmErrcnt2 k := by
  unfold Reg.hbmErrcnt Reg.hbmElog0 Reg.hbmElog1 Reg.hbmErrcnt2
  omega
theorem hbmErrcnt2_ne (k : Nat) : Reg.hbmErrcnt2 k ≠ Reg.hbmElog0 k ∧ Reg.hbmErrcnt2 k ≠ Reg.hbmElog1 k := by
  unfold Reg.hbmElog0 Reg.hbmElog1 Reg.hbmErrcnt2
  omega
theorem hbmPregp_ne (k i : Nat) : Reg.hbmPregp k i ≠ Reg.hbmErrcnt k ∧ Reg.hbmPregp k i ≠ Reg.hbmElog0 k ∧
    Reg.hbmPregp k i ≠ Reg.hbmElog1 k := by
  unfold Reg.hbmPregp Reg.hbmErrcnt Reg.hbmElog0 Reg.hbmElog1
  omega

section
variable (s : State) (k blk : Nat)

/-- The state once the scrub's correction of a block has been counted and logged. -/
def State.correctionCounted (bytes : List Nat) : State :=
  ((s.bump (Reg.hbmErrcnt k) 63 32 1).hbmLog k 1 blk (bytes.getD 0 127) (bytes.getD 1 127)).bump (Reg.hbmErrcnt2 k) 31 0 1

theorem correctionCounted_counts (bytes : List Nat) : let t := s.correctionCounted k blk bytes
    t.field (Reg.hbmErrcnt k) 63 32 = min (s.field (Reg.hbmErrcnt k) 63 32 + 1) 0xFFFFFFFF ∧
      t.field (Reg.hbmErrcnt2 k) 31 0 = min (s.field (Reg.hbmErrcnt2 k) 31 0 + 1) 0xFFFFFFFF := by
  obtain ⟨ne0, ne1, ne2⟩ := hbmErrcnt_ne k
  obtain ⟨two0, two1⟩ := hbmErrcnt2_ne k
  constructor
  · rw [State.correctionCounted, State.field, State.reg_bump_ne _ _ _ _ ne2, reg_hbmLog_ne _ _ _ _ _ ne0 ne1, ← State.field]
    exact s.field_bump (Reg.hbmErrcnt k) 63 32 1 (by decide) (by decide)
  · rw [State.correctionCounted, State.field_bump _ _ _ _ _ (by decide) (by decide), State.field,
      reg_hbmLog_ne _ _ _ _ _ two0 two1, State.reg_bump_ne _ _ _ _ ne2.symm]
    rfl

theorem hbmKept_lineSuspect (ch byte : Nat) : HbmKept s (s.lineSuspect k ch byte) := by
  have marked (x : Tab Nat) : HbmKept s (s.setStack k { s.stack k with lineRaised := x }) := (HbmKept.refl s).setStack rfl rfl
  exact .ite (((marked _).sendRecord ..).signal ..) (.refl s)

/-- What follows the count of a correction. -/
theorem hbmKept_countCorrected (bytes : List Nat) :
    HbmKept (s.correctionCounted k blk bytes) (s.countCorrected k blk bytes true) := by
  unfold State.countCorrected
  extract_lets ch s1 s2 x new y s3 n s4
  have counted : HbmKept (s.correctionCounted k blk bytes) s2 := .refl _
  have listed : HbmKept (s.correctionCounted k blk bytes) s3 := counted.setStack rfl rfl
  have raised : HbmKept (s.correctionCounted k blk bytes) s4 :=
    .ite ((listed.setStack (by rw [State.stack_setStack_same]) (by rw [State.stack_setStack_same])).signal ..) listed
  exact raised.foldl _ fun _ _ => hbmKept_lineSuspect ..

/-- The block is written back without its errors. -/
def State.blockCleared : State := s.modStack k fun x => { x with errs := Tab.set [] x.errs blk [] }

theorem blockCleared_spec : ((s.blockCleared k blk).stack k).poison = (s.stack k).poison ∧
    Tab.get [] ((s.blockCleared k blk).stack k).errs blk = [] := by
  rw [State.blockCleared, State.stack_modStack_same]
  exact ⟨rfl, by simp⟩

/-- What the write back of a block leaves, and that its errors are gone (R444). -/
theorem blockFixed_spec (fixed : List Nat) : let t := s.blockFixed k blk true fixed
    t.comp.hbm = s.comp.hbm ∧ (t.stack k).poison = (s.stack k).poison ∧ Tab.get [] (t.stack k).errs blk = [] := by
  obtain ⟨poison, errs⟩ := blockCleared_spec s k blk
  by_cases none_ : fixed = []
  · have cleared : s.blockFixed k blk true fixed = s.blockCleared k blk := if_pos none_
    rw [cleared]
    exact ⟨rfl, poison, errs⟩
  · have counted : s.blockFixed k blk true fixed = (s.blockCleared k blk).countCorrected k blk fixed true := if_neg none_
    have kept := hbmKept_countCorrected (s.blockCleared k blk) k blk fixed
    rw [counted]
    exact ⟨kept.hbm, (kept.poison k).trans poison, by rw [kept.errs]; exact errs⟩

/-- A correction by the scrub counts as one (R444, R459). -/
theorem blockFixed_counts {fixed : List Nat} (some_ : fixed ≠ []) : let t := s.blockFixed k blk true fixed
    t.field (Reg.hbmErrcnt k) 63 32 = min (s.field (Reg.hbmErrcnt k) 63 32 + 1) 0xFFFFFFFF ∧
      t.field (Reg.hbmErrcnt2 k) 31 0 = min (s.field (Reg.hbmErrcnt2 k) 31 0 + 1) 0xFFFFFFFF := by
  have counted : s.blockFixed k blk true fixed = (s.blockCleared k blk).countCorrected k blk fixed true := if_neg some_
  have kept := hbmKept_countCorrected (s.blockCleared k blk) k blk fixed
  dsimp only
  rw [counted, kept.field (afterAccess_hbmErrcnt k), kept.field (afterAccess_hbmErrcnt2 k)]
  exact correctionCounted_counts (s.blockCleared k blk) k blk fixed

/-! ### A block is uncorrectable (R445, R455) -/

/-- The state once an uncorrectable block has been counted, logged and poisoned. -/
def State.lossCounted : State := ((s.bump (Reg.hbmErrcnt k) 31 16 1).hbmLog k 2 blk 127 127).poisonBlock k blk

theorem lossCounted_spec : let t := s.lossCounted k blk
    t.field (Reg.hbmErrcnt k) 31 16 = min (s.field (Reg.hbmErrcnt k) 31 16 + 1) 0xFFFF ∧ blk ∈ (t.stack k).poison ∧
      t.tide = s.tide ∧ ∀ rel, t.regionOwner k rel = s.regionOwner k rel := by
  intro t
  obtain ⟨ne0, ne1, -⟩ := hbmErrcnt_ne k
  have written (a : Nat) : t.reg a = ((s.bump (Reg.hbmErrcnt k) 31 16 1).hbmLog k 2 blk 127 127).reg a := rfl
  refine ⟨?count, ?poisoned, rfl, fun rel => ?owner⟩
  case count =>
    rw [State.field, written, reg_hbmLog_ne _ _ _ _ _ ne0 ne1, ← State.field]
    exact s.field_bump (Reg.hbmErrcnt k) 31 16 1 (by decide) (by decide)
  case poisoned =>
    have stack : (t.stack k).poison = if (s.stack k).poison.contains blk then (s.stack k).poison else (s.stack k).poison ++ [blk] :=
      congrArg Stack.poison (State.stack_modStack_same ..)
    rw [stack]
    split
    next h => exact List.contains_iff_mem.1 h
    next => exact List.mem_append_right _ (List.mem_singleton_self _)
  case owner =>
    have region (i : Nat) : t.reg (Reg.hbmPregp k i) = s.reg (Reg.hbmPregp k i) := by
      obtain ⟨pc, p0, p1⟩ := hbmPregp_ne k i
      rw [written, reg_hbmLog_ne _ _ _ _ _ p0 p1, State.reg_bump_ne _ _ _ _ pc]
    simp only [State.regionOwner, State.hbmRegion, region]

/-- What follows the count of an uncorrectable block: its event, then the threshold of the stack (R455). -/
theorem hbmKept_countUncorrectable : let u := s.lossCounted k blk
    HbmKept (u.signal Ev.hbmUe (u.regionOwner k (blk * 64)) [k, blk * 64, Config.hbmChannel k blk % 32, u.regionOwner k (blk * 64)])
      (s.countUncorrectable k blk) := by
  intro u
  unfold State.countUncorrectable
  extract_lets ch s1 p s2 x hist y s3 due z s4
  have listed : HbmKept s2 s3 := (HbmKept.refl s2).setStack rfl rfl
  have suspect : HbmKept s2 s4 :=
    (listed.setStack (by rw [State.stack_setStack_same]) (by rw [State.stack_setStack_same])).setScrub ..
  exact .ite (.ite (suspect.signal ..) suspect) listed

theorem countUncorrectable_spec : let t := s.countUncorrectable k blk
    t.field (Reg.hbmErrcnt k) 31 16 = min (s.field (Reg.hbmErrcnt k) 31 16 + 1) 0xFFFF ∧ blk ∈ (t.stack k).poison ∧
      let p := s.regionOwner k (blk * 64)
      eventRecord Ev.hbmUe p [k, blk * 64, Config.hbmChannel k blk % 32, p] s.tide ∈ t.man.grain.waiting := by
  obtain ⟨count, poisoned, tide, owner⟩ := lossCounted_spec s k blk
  have kept := hbmKept_countUncorrectable s k blk
  dsimp only at kept
  rw [owner] at kept
  have raised := signal_spec Ev.hbmUe (s.regionOwner k (blk * 64))
    [k, blk * 64, Config.hbmChannel k blk % 32, s.regionOwner k (blk * 64)] (s.lossCounted k blk)
  refine ⟨?_, ?_, kept.mem (tide ▸ raised.mem)⟩
  · rw [kept.field (afterAccess_hbmErrcnt k), raised.field (afterAccess_hbmErrcnt k).1, count]
  · rw [kept.poison, stack_congr raised.stackTab]
    exact poisoned

end

/-! ### The read of the next block (R452, R453) -/

/-- The scrub goes on to a block, with the poisoned ones that it has met. -/
def State.scrubMoves (k pos met : Nat) (s : State) : State := s.modStack k fun y => { y with scrubPos := pos, passPoisoned := met }

theorem stack_scrubMoves (s : State) (k pos met : Nat) :
    (s.scrubMoves k pos met).stack k = { s.stack k with scrubPos := pos, passPoisoned := met } := State.stack_modStack_same ..

theorem hbmKept_scrubMoves (s : State) (k pos met : Nat) : HbmKept s (s.scrubMoves k pos met) := (HbmKept.refl s).setStack rfl rfl

section
variable {s : State} {k : Nat} (up : (s.stack k).up = true) (scrubbing : (s.stack k).scrubbing = true)
include up scrubbing

theorem exec_scrubRead : exec (.scrubRead k) s = .next (
    let x := s.stack k
    let met := if x.poison.contains x.scrubPos then x.passPoisoned + 1 else x.passPoisoned
    let t := (s.readBlock k x.scrubPos true).2.scrubMoves k (x.scrubPos + 1) met
    if x.scrubPos + 1 = stackBlocks then t.endPass k else t) := by
  have runs : ¬ ((s.stack k).up = false ∨ ((s.reg (Reg.hbmScrub k)).getLsbD 0 = false ∧ (s.stack k).scrubbing = false)) := by
    simp [up, scrubbing]
  show execScrubRead k s = _
  rw [execScrubRead, if_neg runs]
  simp only [scrubbing, if_true]
  rfl

/-- A poisoned block only counts toward the pass. -/
theorem exec_scrubRead_poisoned (more : (s.stack k).scrubPos + 1 ≠ stackBlocks)
    (poisoned : (s.stack k).scrubPos ∈ (s.stack k).poison) :
    exec (.scrubRead k) s = .next (s.scrubMoves k ((s.stack k).scrubPos + 1) ((s.stack k).passPoisoned + 1)) := by
  have block : s.readBlock k (s.stack k).scrubPos true = (false, s) := by
    simp only [State.readBlock, List.contains_eq_mem, poisoned, decide_true, if_true]
  rw [exec_scrubRead up scrubbing]
  dsimp only
  rw [if_neg more, block, if_pos (List.contains_iff_mem.2 poisoned)]

variable (sound : (s.stack k).scrubPos ∉ (s.stack k).poison) {t : State} (read : (s.readBlock k (s.stack k).scrubPos true).2 = t)
include sound read

/-- Any other block is read, and the scrub goes on. -/
theorem exec_scrubRead_sound (more : (s.stack k).scrubPos + 1 ≠ stackBlocks) :
    exec (.scrubRead k) s = .next (t.scrubMoves k ((s.stack k).scrubPos + 1) (s.stack k).passPoisoned) := by
  rw [exec_scrubRead up scrubbing]
  dsimp only
  rw [if_neg more, read, if_neg fun e => sound (List.contains_iff_mem.1 e)]

/-- The pass ends with the last block. -/
theorem exec_scrubRead_last (last : (s.stack k).scrubPos + 1 = stackBlocks) :
    exec (.scrubRead k) s = .next ((t.scrubMoves k ((s.stack k).scrubPos + 1) (s.stack k).passPoisoned).endPass k) := by
  rw [exec_scrubRead up scrubbing]
  dsimp only
  rw [if_pos last, read, if_neg fun e => sound (List.contains_iff_mem.1 e)]

end

section
variable {s : State} {k blk : Nat} (sound : blk ∉ (s.stack k).poison)
include sound

theorem readBlock_good (good : Tab.get [] (s.stack k).errs blk = []) (scrub : Bool) : s.readBlock k blk scrub = (true, s) := by
  simp only [State.readBlock, List.contains_eq_mem, sound, decide_false, Bool.false_eq_true, if_false, good]

theorem readBlock_corrected {bs : List (Nat × Nat)} (errs : Tab.get [] (s.stack k).errs blk = bs) (some_ : bs ≠ [])
    (two : bs.length ≤ 2) : (s.readBlock k blk true).2 = s.blockFixed k blk true (bs.map (·.1)) := by
  obtain ⟨e, es, rfl⟩ := List.exists_cons_of_ne_nil some_
  simp only [State.readBlock, List.contains_eq_mem, sound, decide_false, Bool.false_eq_true, if_false, errs, if_pos two]

theorem readBlock_lost {bs : List (Nat × Nat)} (errs : Tab.get [] (s.stack k).errs blk = bs) (three : 3 ≤ bs.length)
    (lost : bs.length ≤ 6 ∨ rsDecode (storedWord (s.blockData k blk) bs) = none) :
    (s.readBlock k blk true).2 = s.countUncorrectable k blk := by
  obtain ⟨e, es, rfl⟩ := List.exists_cons_of_ne_nil (List.ne_nil_of_length_pos (Nat.lt_of_lt_of_le (by decide) three))
  have more : ¬ (e :: es).length ≤ 2 := Nat.not_le.2 three
  by_cases six : (e :: es).length ≤ 6
  · simp only [State.readBlock, List.contains_eq_mem, sound, decide_false, Bool.false_eq_true, if_false, errs, if_neg more,
      if_pos six, State.blockLost, if_true]
  · simp only [State.readBlock, List.contains_eq_mem, sound, decide_false, Bool.false_eq_true, if_false, errs, if_neg more,
      if_neg six, lost.resolve_left six, State.blockLost, if_true]

theorem readBlock_mistaken {bs : List (Nat × Nat)} {w fixed : List Nat} (errs : Tab.get [] (s.stack k).errs blk = bs)
    (seven : 7 ≤ bs.length) (taken : rsDecode (storedWord (s.blockData k blk) bs) = some (w, fixed)) :
    (s.readBlock k blk true).2 = (s.modComp fun y => { y with
      hbm := memWrite y.hbm (hbmKey k (64 * blk)) ((w.take 64).map (BitVec.ofNat 8)) }).blockFixed k blk true fixed := by
  obtain ⟨e, es, rfl⟩ := List.exists_cons_of_ne_nil (List.ne_nil_of_length_pos (Nat.lt_of_lt_of_le (by decide) seven))
  have more : ¬ (e :: es).length ≤ 2 := Nat.not_le.2 (Nat.le_trans (by decide) seven)
  have six : ¬ (e :: es).length ≤ 6 := Nat.not_le.2 seven
  simp only [State.readBlock, List.contains_eq_mem, sound, decide_false, Bool.false_eq_true, if_false, errs, if_neg more,
    if_neg six, taken]

end

/-! ### The end of a pass, a new pass, the end of suspicion (R452, R454, R455, R459) -/

theorem endPass_spec (s : State) (k : Nat) : let t := s.endPass k
    (t.stack k).scrubbing = false ∧ (t.stack k).scrubPos = 0 ∧
      t.field (Reg.hbmScrub k) 63 32 = (s.field (Reg.hbmScrub k) 63 32 + 1) % 2 ^ 32 ∧
      t.field (Reg.hbmScrub k) 31 16 = min (s.stack k).passPoisoned 0xFFFF := by
  intro t
  have stack : t.stack k = { s.stack k with scrubPos := 0, scrubbing := false } := State.stack_setStack_same ..
  have written (hi lo : Nat) : t.field (Reg.hbmScrub k) hi lo = ((s.bumpWrap (Reg.hbmScrub k) 63 32 1).setField (Reg.hbmScrub k) 31 16
    (min (s.stack k).passPoisoned 0xFFFF)).field (Reg.hbmScrub k) hi lo := rfl
  refine ⟨by rw [stack], by rw [stack], ?_, ?_⟩
  · rw [written, State.field_setField_apart _ _ _ _ _ _ _ (by decide) (by decide) (by decide) (by decide) (.inr (by decide))]
    exact s.field_bumpWrap (Reg.hbmScrub k) 63 32 1 (by decide) (by decide)
  · rw [written, State.field_setField_same _ _ _ _ _ (by decide) (by decide)]
    exact Nat.mod_eq_of_lt (by omega)

theorem stack_beginPass (s : State) (k : Nat) : (s.beginPass k).stack k =
    { s.stack k with scrubPos := 0, scrubbing := true, passPoisoned := 0, passPeriod := s.field (Reg.hbmScrub k) 15 8 } :=
  State.stack_setStack_same ..

/-- The scrub of a stack without a pass in progress begins one, where it is enabled (R452). -/
theorem exec_scrubRead_begins {s : State} {k : Nat} (up : (s.stack k).up = true) (idle : (s.stack k).scrubbing = false)
    (en : (s.reg (Reg.hbmScrub k)).getLsbD 0 = true) : exec (.scrubRead k) s = exec (.scrubRead k) (s.beginPass k) := by
  have runs : ¬ ((s.stack k).up = false ∨ ((s.reg (Reg.hbmScrub k)).getLsbD 0 = false ∧ (s.stack k).scrubbing = false)) := by
    simp [up, en]
  rw [exec_scrubRead (s := s.beginPass k) (by rw [stack_beginPass]; exact up) (by rw [stack_beginPass])]
  show execScrubRead k s = _
  rw [execScrubRead, if_neg runs]
  simp only [idle, Bool.false_eq_true, if_false]
  rfl

/-- The window of a suspect stack has emptied below the limit: the scrub's own period is back (R455). (log 49) -/
theorem exec_hbmSuspectWindowEnd {s : State} {k : Nat} (suspect : (s.stack k).suspect = true)
    (lim : s.field (Reg.hbmThresh k) 39 32 ≠ 0) (below : (s.stack k).ueHist.length < s.field (Reg.hbmThresh k) 39 32) :
    exec (.hbmSuspectWindowEnd k) s = .next ((s.setStack k { s.stack k with
      suspect := false, ueHist := (s.stack k).ueHist.filter fun t => decide (s.now < t + dayNs) }).setField
        (Reg.hbmScrub k) 15 8 (s.stack k).savedPeriod) := by
  have ends : ¬ ((s.stack k).suspect = false ∨ s.field (Reg.hbmThresh k) 39 32 = 0) := by simp [suspect, lim]
  show execHbmSuspectWindowEnd k s = _
  unfold execHbmSuspectWindowEnd
  dsimp only
  rw [if_neg ends, if_neg (Nat.not_le.2 below)]

/-- Settles O47: the errors of the block decide what the scrub's read does to it; then the scrub goes on, or its pass ends. -/
theorem patrolScrubVisitsEveryBlock : Obligations.PatrolScrubVisitsEveryBlock := by
  intro s k _ x b
  refine ⟨fun up scrubbing more => ⟨fun sound good => ?good, fun sound bs errs some_ two => ?corrected,
      fun sound bs errs three lost => ?lost, fun sound bs w fixed errs seven taken => ?mistaken, fun poisoned => ?poisoned⟩,
    fun up scrubbing last sound good => ?last, fun up idle en => exec_scrubRead_begins up idle en, ?now,
    fun suspect lim below => ?cleared⟩
  case good =>
    have run := exec_scrubRead_sound up scrubbing sound (congrArg Prod.snd (readBlock_good sound good true)) more
    exact ⟨_, run, stack_scrubMoves .., onlyStack_modStack ..⟩
  case corrected =>
    have run := exec_scrubRead_sound up scrubbing sound (readBlock_corrected sound errs some_ two) more
    obtain ⟨bytes, poison, cleared⟩ := blockFixed_spec s k b (bs.map (·.1))
    obtain ⟨count, count2⟩ := blockFixed_counts s k b (fixed := bs.map (·.1)) (by simpa using some_)
    exact ⟨_, run, by rw [stack_scrubMoves], by rw [stack_scrubMoves]; exact cleared, by rw [stack_scrubMoves]; exact poison,
      count, count2, bytes⟩
  case lost =>
    have run := exec_scrubRead_sound up scrubbing sound (readBlock_lost sound errs three lost) more
    obtain ⟨count, poisoned, event⟩ := countUncorrectable_spec s k b
    exact ⟨_, run, by rw [stack_scrubMoves], by rw [stack_scrubMoves]; exact poisoned, count, event⟩
  case mistaken =>
    have run := exec_scrubRead_sound up scrubbing sound (readBlock_mistaken sound errs seven taken) more
    obtain ⟨bytes, -, cleared⟩ := blockFixed_spec (s.modComp fun y => { y with
      hbm := memWrite y.hbm (hbmKey k (64 * b)) ((w.take 64).map (BitVec.ofNat 8)) }) k b fixed
    exact ⟨_, run, by rw [stack_scrubMoves], by rw [stack_scrubMoves]; exact cleared, bytes⟩
  case poisoned =>
    exact ⟨_, exec_scrubRead_poisoned up scrubbing more poisoned, stack_scrubMoves .., onlyStack_modStack ..⟩
  case last =>
    have run := exec_scrubRead_last up scrubbing sound (congrArg Prod.snd (readBlock_good sound good true)) last
    obtain ⟨ended, first, passes, met⟩ := endPass_spec (s.scrubMoves k ((s.stack k).scrubPos + 1) (s.stack k).passPoisoned) k
    exact ⟨_, run, ended, first, passes, by rw [met, stack_scrubMoves]⟩
  case now => exact ⟨_, rfl, onlyStack_setStack .., stack_beginPass ..⟩
  case cleared =>
    refine ⟨_, exec_hbmSuspectWindowEnd suspect lim below, ?_, ?_, ?_, ?_⟩
    · rw [State.stack_setField_, State.stack_setStack_same]
    · exact State.field_setField_same _ _ _ _ _ (by decide) (by decide)
    · rw [State.field_setField_apart _ _ _ _ _ _ _ (by decide) (by decide) (by decide) (by decide) (.inr (by decide))]
      rfl
    · exact onlyRegs_setReg ..

end Sys2Proof.Machine
end


section
/-!
SUPPORT. Proofs about a log's configuration and its HEAD, the BAR2 window, and the rate cap (R438, R448, R588, R592, R617, R619,
R625, R627, R632).
-/

namespace Sys2Proof.Machine

/-! ### Registers of the logs and of the DMA windows -/

theorem logCfg_ne (f : Nat) (k : LogKind) : logCfg f k ≠ logHead f k ∧ logCfg f k ≠ logTail f k ∧ logHead f k ≠ logTail f k ∧
    logBase f k ≠ logCfg f k := by
  cases k <;> simp only [logCfg, logHead, logTail, logBase, Reg.hstClogCfg, Reg.hstClogHead, Reg.hstClogTail, Reg.hstClogBase,
    Reg.hstEvlogCfg, Reg.hstEvlogHead, Reg.hstEvlogTail, Reg.hstEvlogBase] <;> omega

/-- A log's registers lie in the first 88 bytes of a page, apart from the DMA windows. -/
theorem dmawin_ne_logCfg {f w : Nat} (hf : f ≤ 8) (hw : w < 8) (k : LogKind) :
    Reg.hstDmawinWb f w ≠ logCfg f k ∧ Reg.hstDmawinWl f w ≠ logCfg f k := by
  obtain e | e := Reg.hst_eq f <;> cases k <;>
    simp only [logCfg, Reg.hstClogCfg, Reg.hstEvlogCfg, Reg.hstDmawinWb, Reg.hstDmawinWl, e] <;> omega

theorem dmaOk_setReg {s : State} {f a : Nat} (ha : ∀ w, w < 8 → Reg.hstDmawinWb f w ≠ a ∧ Reg.hstDmawinWl f w ≠ a) (v : Word)
    (addr len : Nat) : (s.setReg a v).dmaOk f addr len = s.dmaOk f addr len := by
  unfold State.dmaOk
  rw [Bool.eq_iff_iff, List.any_eq_true, List.any_eq_true]
  refine exists_congr fun w => and_congr_right fun hw => ?_
  obtain ⟨wb, wl⟩ := ha w (List.mem_range.1 hw)
  rw [State.reg_setReg_ne _ _ wb, State.reg_setReg_ne _ _ wl]

theorem logEnBit_lt (k : LogKind) : logEnBit k < 64 ∧ 4 < logEnBit k := by cases k <;> decide

/-! ### A log is configured (R617, R632) -/

section
variable (s : State) (f : Nat) (k : LogKind) (v : Word)

/-- LOG2N after a write of a log's configuration: it does not change while the log is enabled. -/
def State.newLog2n : Nat := if s.logEn f k then s.field (logCfg f k) 4 0 else log2n v

theorem newLog2n_lt : s.newLog2n f k v < 32 := by
  unfold State.newLog2n log2n
  split
  · exact s.field_lt (logCfg f k) 4 0
  · omega

/-- The configuration is written, beside EN. -/
def State.logConfigured : State :=
  s.setReg (logCfg f k) (withField ((s.reg (logCfg f k) &&& ~~~(logOther k)) ||| (v &&& logOther k)) 4 0 (s.newLog2n f k v))

theorem log2n_logConfigured : (s.logConfigured f k v).field (logCfg f k) 4 0 = s.newLog2n f k v := by
  rw [State.logConfigured, State.field, State.reg_setReg_same, fieldOf_withField_same _ _ _ _ (by decide) (by decide)]
  exact Nat.mod_eq_of_lt (newLog2n_lt s f k v)

theorem onlyRegs_logConfigured {A : List Nat} (hA : logCfg f k ∈ A) : OnlyRegs A s (s.logConfigured f k v) :=
  (OnlyRegs.refl A s).setReg hA _

/-- EN is written. -/
def State.setLogEn (f : Nat) (k : LogKind) (n : Nat) (s : State) : State := s.setField (logCfg f k) (logEnBit k) (logEnBit k) n

theorem logEn_setLogEn (n : Nat) : (s.setLogEn f k n).logEn f k = n.testBit 0 := by
  obtain ⟨lt, -⟩ := logEnBit_lt k
  rw [State.logEn, State.setLogEn, State.setField, State.reg_setReg_same, getLsbD_withField _ _ _ _ _ le_rfl lt lt]
  simp

/-- The log begins at entry 0 in phase 1. -/
def State.logBegun : State :=
  (((s.setLogEn f k 1).setReg (logHead f k) 0).setField (logTail f k) 15 0 0).setField (logTail f k) 16 16 1

theorem logBegun_spec : let u := s.logBegun f k
    u.logEn f k = true ∧ u.field (logCfg f k) 4 0 = s.field (logCfg f k) 4 0 ∧ u.reg (logHead f k) = 0 ∧
      u.field (logTail f k) 15 0 = 0 ∧ (u.reg (logTail f k)).getLsbD 16 = true := by
  intro u
  obtain ⟨cfg_head, cfg_tail, head_tail, -⟩ := logCfg_ne f k
  obtain ⟨lt, low⟩ := logEnBit_lt k
  have cfg : u.reg (logCfg f k) = (s.setLogEn f k 1).reg (logCfg f k) := by
    simp only [u, State.logBegun, State.reg_setField_ne _ _ _ _ cfg_tail, State.reg_setReg_ne _ _ cfg_head]
  refine ⟨?_, ?_, ?_, ?_, getLsbD_setField_one _ _ (by decide)⟩
  · rw [State.logEn, cfg, ← State.logEn, logEn_setLogEn]
    rfl
  · rw [State.field, cfg, ← State.field, State.setLogEn,
      State.field_setField_apart _ _ _ _ _ _ _ le_rfl lt (by decide) (by decide) (.inl low)]
  · simp only [u, State.logBegun, State.reg_setField_ne _ _ _ _ head_tail, State.reg_setReg_same]
  · simp only [u, State.logBegun]
    rw [State.field_setField_apart _ _ _ _ _ _ _ (by decide) (by decide) (by decide) (by decide) (.inl (by decide)),
      State.field_setField_same _ _ _ _ _ (by decide) (by decide), Nat.zero_mod]

theorem OnlyRegs.logBegun {A : List Nat} {t : State} (h : OnlyRegs A s t) (hc : logCfg f k ∈ A) (hh : logHead f k ∈ A)
    (ht : logTail f k ∈ A) : OnlyRegs A s (t.logBegun f k) :=
  (((h.setField hc ..).setReg hh _).setField ht ..).setField ht ..

/-- What a write of a log's configuration does (R617). -/
theorem writeLogCfg_eq (hf : f ≤ 8) : s.writeLogCfg f k v =
    let base := fieldOf (s.reg (logBase f k)) 63 12 * 4096
    let t := s.logConfigured f k v
    if v.getLsbD (logEnBit k) = false then t.setLogEn f k 0
    else if s.dmaOk f base (32 * 2 ^ s.newLog2n f k v) = true then (t.logBegun f k).flushLog f k
    else (t.setLogEn f k 0).dmaBlocked f base := by
  obtain ⟨-, -, -, base_cfg⟩ := logCfg_ne f k
  have base : (s.logConfigured f k v).reg (logBase f k) = s.reg (logBase f k) := State.reg_setReg_ne _ _ base_cfg
  have dma (a n : Nat) : (s.logConfigured f k v).dmaOk f a n = s.dmaOk f a n := dmaOk_setReg (fun w hw => dmawin_ne_logCfg hf hw k) ..
  dsimp only
  rw [← base, ← dma]
  rfl

theorem exec_logEnable (hf : f ≤ 8) : exec (.logEnable f k v) s = .next ((s.staged (logCfg f k) v).writeLogCfg f k v) := by
  show execLogEnable f k v s = _
  rw [execLogEnable, if_neg (Nat.not_lt.2 hf)]

end

section
variable (s : State) {f : Nat} (hf : f ≤ 8) (k : LogKind) (v : Word)
include hf

theorem logEnable_disables (en : v.getLsbD (logEnBit k) = false) : ∃ n, exec (.logEnable f k v) s = .next n ∧
    n.logEn f k = false ∧ OnlyRegs [logCfg f k] { s with stage := n.stage } n := by
  refine ⟨_, exec_logEnable s f k v hf, ?_⟩
  rw [writeLogCfg_eq _ f k v hf]
  dsimp only
  rw [if_pos en]
  exact ⟨logEn_setLogEn .., (onlyRegs_logConfigured _ f k v (List.mem_singleton_self _)).setField (List.mem_singleton_self _) ..⟩

theorem logEnable_begins (en : v.getLsbD (logEnBit k) = true)
    (inside : s.dmaOk f (fieldOf (s.reg (logBase f k)) 63 12 * 4096) (32 * 2 ^ s.newLog2n f k v) = true) :
    ∃ u : State, exec (.logEnable f k v) s = .next (u.flushLog f k) ∧ u.logEn f k = true ∧
      u.field (logCfg f k) 4 0 = s.newLog2n f k v ∧ u.reg (logHead f k) = 0 ∧ u.field (logTail f k) 15 0 = 0 ∧
      (u.reg (logTail f k)).getLsbD 16 = true ∧ OnlyRegs [logCfg f k, logHead f k, logTail f k] { s with stage := u.stage } u := by
  obtain ⟨enabled, size, head, tail, phase⟩ := logBegun_spec ((s.staged (logCfg f k) v).logConfigured f k v) f k
  refine ⟨_, ?_, enabled, size.trans (log2n_logConfigured ..), head, tail, phase, ?_⟩
  · rw [exec_logEnable s f k v hf, writeLogCfg_eq _ f k v hf]
    dsimp only
    rw [if_neg (by simp [en])]
    exact congrArg _ (if_pos inside)
  · exact (onlyRegs_logConfigured _ f k v (by simp)).logBegun _ f k (by simp) (by simp) (by simp)

theorem logEnable_blocked (en : v.getLsbD (logEnBit k) = true)
    (outside : s.dmaOk f (fieldOf (s.reg (logBase f k)) 63 12 * 4096) (32 * 2 ^ s.newLog2n f k v) = false) :
    ∃ u : State, exec (.logEnable f k v) s = .next (u.dmaBlocked f (fieldOf (s.reg (logBase f k)) 63 12 * 4096)) ∧
      u.logEn f k = false ∧ OnlyRegs [logCfg f k] { s with stage := u.stage } u := by
  refine ⟨((s.staged (logCfg f k) v).logConfigured f k v).setLogEn f k 0, ?_, logEn_setLogEn ..,
    (onlyRegs_logConfigured _ f k v (List.mem_singleton_self _)).setField (List.mem_singleton_self _) ..⟩
  rw [exec_logEnable s f k v hf, writeLogCfg_eq _ f k v hf]
  dsimp only
  rw [if_neg (by simp [en])]
  exact congrArg _ (if_neg (by rw [Bool.not_eq_true]; exact outside))

/-- A write of HEAD (R617, R632). -/
theorem logHeadWrite_spec : ∃ u : State, exec (.logHeadWrite f k v) s = .next (u.flushLog f k) ∧ u.reg (logHead f k) = v &&& 0xFFFF ∧
    Tab.get 0 u.stage (logHead f k) = v.extractLsb' 0 32 ∧ OnlyRegs [logHead f k] { s with stage := u.stage } u := by
  refine ⟨(s.staged (logHead f k) v).setReg (logHead f k) (v &&& 0xFFFF), ?_, State.reg_setReg_same .., ?_,
    onlyRegs_setReg ..⟩
  · show execLogHeadWrite f k v s = _
    rw [execLogHeadWrite, if_neg (Nat.not_lt.2 hf)]
    rfl
  · exact Tab.get_set_same (0 : Dword) s.stage (logHead f k) (v.extractLsb' 0 32)

end

/-! ### BAR2 (R448, R588, R592, R625) -/

section
variable (s : State) {f : Nat} (low : 1 ≤ f) (high : f ≤ 8)
include low high

theorem exec_bar2Write {off : Nat} {d : List Byte} (exists_ : s.partExists f = true) (fits : off + d.length ≤ 2 ^ (s.func f).bar2Log) :
    exec (.bar2Write f off d) s = .next (s.writeAssigned f (d.length / 4096 + 2) (s.bar2Base f + off) d) := by
  have goes : ¬ (f = 0 ∨ 8 < f ∨ s.partExists f = false ∨ 2 ^ (s.func f).bar2Log < off + d.length) := by
    rintro (zero | many | absent | beyond)
    · exact absurd low (by omega)
    · exact absurd high (by omega)
    · exact absurd (exists_.symm.trans absent) (by decide)
    · exact absurd fits (by omega)
  show execBar2Write f off d s = _
  rw [execBar2Write, if_neg goes]

omit low high in
theorem exec_bar2Write_beyond {off : Nat} {d : List Byte} (beyond : 2 ^ (s.func f).bar2Log < off + d.length) :
    exec (.bar2Write f off d) s = .next s := by
  show execBar2Write f off d s = _
  rw [execBar2Write, if_pos (.inr (.inr (.inr beyond)))]

/-- A read within the BAR: zeros of no partition, and what the window brings of one (R448, R592). -/
theorem exec_bar2Read {off len : Nat} (fits : off + len ≤ 2 ^ (s.func f).bar2Log) : exec (.bar2Read f off len) s = .next (
    if s.partExists f = false then s.emitOut (.bar2Data f (List.replicate len 0) false)
    else
      let r := s.readAssigned f (len / 4096 + 2) (s.bar2Base f + off) len
      if r.2.1 = [] then r.2.2.emitOut (.bar2Data f r.1 false)
      else (r.2.2.emitOut (.bar2Data f (List.replicate len 0) true)).reportPoison f r.2.1) := by
  have goes : ¬ (f = 0 ∨ 8 < f ∨ 2 ^ (s.func f).bar2Log < off + len) := by omega
  show execBar2Read f off len s = _
  rw [execBar2Read, if_neg goes]

end

/-! ### The rate cap (R627) -/

/-- The state once a rate cap is stamped and counted, before its event. -/
def State.rateCounted (f : Nat) (s : State) : State :=
  (s.modFunc f fun x => { x with rateAt := some s.now }).bump (Reg.hstFuncstat f) 31 16 1

/-- The event is due once a second (R627). -/
theorem exec_hstRateLimit_due {s : State} {f : Nat} (hf : f ≤ 8)
    (due : (s.func f).rateAt = none ∨ ∃ t, (s.func f).rateAt = some t ∧ t + 1000000000 ≤ s.now) :
    exec (.hstRateLimit f) s = .next ((s.rateCounted f).signal Ev.hstRateLimit f [f]) := by
  show execHstRateLimit f s = _
  unfold execHstRateLimit
  obtain never | ⟨t, last, passed⟩ := due
  · rw [never]
    exact congrArg _ (if_pos ⟨rfl, hf⟩)
  · rw [last]
    exact congrArg _ (if_pos ⟨decide_eq_true passed, hf⟩)

theorem exec_hstRateLimit_early {s : State} {f t : Nat} (last : (s.func f).rateAt = some t) (early : s.now < t + 1000000000) :
    exec (.hstRateLimit f) s = .next s := by
  show execHstRateLimit f s = _
  unfold execHstRateLimit
  rw [last]
  exact congrArg _ (if_neg fun h => absurd (of_decide_eq_true h.1) (Nat.not_le.2 early))

theorem rateCounted_spec (s : State) (f : Nat) : let u := s.rateCounted f
    (u.func f).rateAt = some s.now ∧
      u.field (Reg.hstFuncstat f) 31 16 = min (s.field (Reg.hstFuncstat f) 31 16 + 1) (2 ^ 16 - 1) ∧
      OnlyRegs [Reg.hstFuncstat f] { s with host := u.host } u := by
  refine ⟨?_, ?_, onlyRegs_bump ..⟩
  · exact congrArg Func.rateAt (State.func_modFunc_same s f fun x => { x with rateAt := some s.now })
  · exact State.field_bump _ _ 31 16 1 (by decide) (by decide)

/-- Settles O39: the logs by EN and the ring's place, BAR2 by the window and what the read meets, the rate cap by the second. -/
theorem logsBarsAndRateLimit : Obligations.LogsBarsAndRateLimit := by
  refine ⟨fun s f k v hf => ?logs, fun s f off d low high => ⟨fun exists_ fits => exec_bar2Write s low high exists_ fits,
    fun beyond => exec_bar2Write_beyond s beyond, fun len fits => ⟨fun absent => ?absent, fun exists_ => ?read⟩⟩,
    fun s f hf => ⟨fun due => ?due, fun t last early => exec_hstRateLimit_early last early⟩⟩
  case logs =>
    exact ⟨logEnable_disables s hf k v, logEnable_begins s hf k v, logEnable_blocked s hf k v, logHeadWrite_spec s hf k v⟩
  case absent => rw [exec_bar2Read s low high fits, if_pos absent]
  case read =>
    rw [exec_bar2Read s low high fits, if_neg (by simp [exists_])]
    exact ⟨fun good => congrArg _ (if_pos good), fun bad => congrArg _ (if_neg bad)⟩
  case due =>
    obtain ⟨stamped, counted, only⟩ := rateCounted_spec s f
    exact ⟨_, s.rateCounted f, exec_hstRateLimit_due hf due, stamped, counted, only, signal_spec ..⟩

end Sys2Proof.Machine
end


section
/-!
SUPPORT. A tile that is listed twice: when stage 13 makes its first entry equal to its bay's base tile, that entry is no longer
listed, and the second one, in OFF, is what the tile reads (R769, R870).
-/

namespace Sys2Proof.Machine

/-- PT(0, 0, 0). -/
def twiceTile : PT := { bay := 0, col := 0, row := 0 }

/-- Every tile of bay 0 is in RESET, as power-up leaves it. -/
def twiceInReset : Tile := { Tile.reset with s := { TileSeq.reset with seq := .reset } }

/-- Stage 13 runs, bay 0 has its supply, no unit is fenced; the tile is listed in RESET, and once more in OFF. -/
def twiceState : State :=
  let s := State.reset.modPower fun w => { w with feed := true, segs := 1 }
  let s := s.modBay 0 fun b => { b with supply := .on, base := twiceInReset }
  let s := s.modBoot fun b => { b with stage := 13, st := .running }
  { s with comp := { s.comp with tiles := [(twiceTile.key, twiceInReset), (twiceTile.key, Tile.reset)] } }

/-- The tile reads RESET before stage 13 and OFF after it. -/
theorem seq_bootReady_twice : (twiceState.tile twiceTile).s.seq = .reset ∧
    ((after (exec .bootReady twiceState) twiceState).tile twiceTile).s.seq = .off := by decide +kernel

/-- Refutes O51, at its last clause: stage 13 leaves a tile in OFF that read RESET and that no fence holds, where the claim has it
IDLE. The table of tiles lists the tile twice, which the claim does not exclude. -/
theorem not_bringUpStagesSixToThirteen : ¬ Obligations.BringUpStagesSixToThirteen := by
  unfold Obligations.BringUpStagesSixToThirteen
  intro h
  obtain ⟨-, -, -, -, -, -, -, stage13⟩ := h twiceState
  obtain ⟨t, run, -, -, -, -, -, released⟩ := stage13 (by decide)
  have unfenced : ∀ e ∈ twiceState.comp.fences, e.kind = 1 ∨ e.kind = 2 → (tileOfId e.id).valid = true :=
    fun _ listed => absurd listed List.not_mem_nil
  obtain ⟨was, is⟩ := seq_bootReady_twice
  obtain ⟨idle, -⟩ := (released unfenced twiceTile (by decide) (by decide) was).1 (by decide)
  rw [run, after, idle] at is
  exact absurd is (by decide)

end Sys2Proof.Machine
end

section
/-!
SUPPORT. What the end of a bring-up stage, its report and the failure of a stage leave and set (R768 to R770, R799, R831).
-/

namespace Sys2Proof.Machine

/-! ### What a stage's end leaves -/

/-- Only registers, bring-up's own state, the records on their way to the writer and the numbers drawn differ. -/
def OnlyPosted (s t : State) : Prop :=
  t = { s with regs := t.regs, free := t.free, man := { s.man with boot := t.man.boot, grain := t.man.grain } }

section
variable {s t u : State}

theorem OnlyPosted.trans (h : OnlyPosted s t) (k : OnlyPosted t u) : OnlyPosted s u := by
  unfold OnlyPosted at *
  rw [k, h]
theorem OnlyPosted.comp (h : OnlyPosted s t) : t.comp = s.comp := by rw [h]
theorem OnlyPosted.phys (h : OnlyPosted s t) : t.phys = s.phys := by rw [h]
theorem OnlyPosted.tide (h : OnlyPosted s t) : t.tide = s.tide := by rw [h]
theorem OnlyPosted.pairs (h : OnlyPosted s t) : t.man.pairs = s.man.pairs := by rw [h]
theorem OnlyPosted.bay (h : OnlyPosted s t) (b : Nat) : t.bay b = s.bay b := State.bay_congr (congrArg Physical.bays h.phys) b
theorem OnlyPosted.pair (h : OnlyPosted s t) (k : Nat) : t.pair k = s.pair k := by
  simp only [State.pair, h.pairs]
theorem OnlyPosted.tile (h : OnlyPosted s t) (x : PT) : t.tile x = s.tile x := by
  simp only [State.tile, h.bay, h.comp]
theorem OnlyPosted.router (h : OnlyPosted s t) (x : PT) : t.router x = s.router x := by
  simp only [State.router, h.bay, h.comp]
theorem OnlyPosted.isFenced (h : OnlyPosted s t) (kind id : Nat) : t.isFenced kind id = s.isFenced kind id :=
  isFenced_congr (congrArg Compute.fences h.comp) kind id

end

/-! ### The reports of stages (R768, R831) -/

/-- Only the records that wait for the writer differ. -/
def OnlyWaiting (s t : State) : Prop := t = { s with man := { s.man with grain := t.man.grain } }

theorem onlyWaiting_stageRecords (l : List (Nat × Nat)) (s : State) :
    OnlyWaiting s (l.foldl (fun s r => s.stageRecord r.1 r.2 []) s) := by
  induction l generalizing s with
  | nil => rfl
  | cons r l ih =>
    have h := ih (s.stageRecord r.1 r.2 [])
    unfold OnlyWaiting at *
    exact h

section
variable (s : State) (code res : Nat) (extra : List Byte)

/-- The state once a stage's last code and its time are in the registers. -/
def State.timed : State :=
  (s.stageMs.2.setCode code).setField (Reg.bootStimek ((s.boot.stage - 1) / 4)) (16 * ((s.boot.stage - 1) % 4) + 15)
    (16 * ((s.boot.stage - 1) % 4)) s.stageMs.1

theorem stageMs_spec : s.stageMs.2 = { s with free := s.stageMs.2.free } := by
  unfold State.stageMs
  split <;> rfl

theorem onlyPosted_timed : OnlyPosted s (s.timed code) := by
  unfold OnlyPosted State.timed State.setField State.setReg State.setCode
  rw [stageMs_spec s]
  rfl

theorem boot_timed : (s.timed code).man.boot = s.man.boot := by
  unfold State.timed
  change s.stageMs.2.man.boot = _
  rw [stageMs_spec s]

theorem code_timed (h : code < 2 ^ 16) : (s.timed code).field Reg.bootStage 63 48 = code := by
  have apart : Reg.bootStage ≠ Reg.bootStimek ((s.boot.stage - 1) / 4) := by
    unfold Reg.bootStage Reg.bootStimek
    omega
  unfold State.timed State.setCode
  rw [State.field_setField_ne _ _ _ _ _ _ apart, State.field_setField_same _ _ _ _ _ (by decide) (by decide)]
  exact Nat.mod_eq_of_lt h

/-- The end of a stage posts its code and its time, and keeps the pair that runs the ROM. -/
theorem postEnd_spec : (s.postEnd code extra).regs = (s.timed code).regs ∧
    (s.postEnd code extra).man.boot.pair = s.man.boot.pair ∧
    OnlyPosted s (s.postEnd code extra) := by
  have timed := onlyPosted_timed s code
  have boot := boot_timed s code
  unfold State.postEnd
  extract_lets n q s1 s2 s3
  change OnlyPosted s s2 at timed
  have pair : s2.man.boot.pair = s.man.boot.pair := congrArg Boot.pair boot
  have records : OnlyWaiting s2 s3 := onlyWaiting_stageRecords s2.boot.reports s2
  split
  · exact ⟨rfl, pair, timed.trans rfl⟩
  · refine ⟨?_, ?_, timed.trans ?_⟩
    · change s3.regs = s2.regs
      rw [records]
    · change s3.man.boot.pair = _
      rw [records, pair]
    · unfold OnlyPosted
      rw [records]
      rfl

theorem code_postEnd (h : code < 2 ^ 16) : (s.postEnd code extra).field Reg.bootStage 63 48 = code := by
  rw [State.field_congr (postEnd_spec s code extra).1]
  exact code_timed s code h

/-! ### A stage passes (R767, R768) -/

theorem onlyPosted_passStage : OnlyPosted s (s.passStage res extra) :=
  (postEnd_spec s (reportCode s.boot.stage res) extra).2.2.trans rfl

theorem bootPair_passStage : (s.passStage res extra).boot.pair = s.boot.pair :=
  (postEnd_spec s (reportCode s.boot.stage res) extra).2.1

theorem passStage_over {s : State} {n : Nat} (hs : s.boot.stage = n) (hn : n < 255) : StageOver n (s.passStage res extra) := by
  refine ⟨?_, rfl, ?_⟩
  · rw [← hs]
    rfl
  · change (State.setCode (reportCode (s.boot.stage + 1) 0) _).field Reg.bootStage 63 48 = _
    unfold State.setCode
    rw [State.field_setField_same _ _ _ _ _ (by decide) (by decide), hs]
    unfold reportCode
    omega

end

/-! ### A stage fails (R770, R799) -/

/-- The upper field of a word that is put together from it and a lower part. -/
theorem fieldOf_fld_or (v w : Nat) (h : v < 2 ^ 16) : fieldOf (fld 63 48 v ||| fld 47 0 w) 63 48 = v := by
  have upper : (fld 63 48 v ||| fld 47 0 w).extractLsb' 48 16 = (fld 63 48 v).extractLsb' 48 16 := by
    apply BitVec.eq_of_getLsbD_eq
    intro i hi
    have low : (fld 47 0 w).getLsbD (48 + i) = false := by
      unfold fld
      rw [getLsbD_withField _ _ _ _ _ (by decide) (by decide) (by omega), if_neg (by omega)]
      exact BitVec.getLsbD_zero
    rw [BitVec.getLsbD_extractLsb', BitVec.getLsbD_extractLsb', BitVec.getLsbD_or, low, Bool.or_false]
  calc fieldOf (fld 63 48 v ||| fld 47 0 w) 63 48 = fieldOf (fld 63 48 v) 63 48 := congrArg BitVec.toNat upper
    _ = v % 2 ^ 16 := fieldOf_withField_same 0 63 48 v (by decide) (by decide)
    _ = v := Nat.mod_eq_of_lt h

theorem failStage_fails (s : State) {code : Nat} (h : code < 2 ^ 16) : StageFails code (s.failStage code) := by
  refine ⟨_, signal_spec Ev.bootStageFail 0 [code] _, rfl, ?_, ?_⟩
  · change (State.noteFail code _).field Reg.bootStage 63 48 = code
    unfold State.noteFail
    rw [State.field_setReg_ne _ _ _ _ (by decide)]
    exact code_postEnd s code [] h
  · change (State.noteFail code _).field Reg.bootFail 63 48 = code
    unfold State.noteFail State.field
    rw [State.reg_setReg_same]
    exact fieldOf_fld_or code _ h

end Sys2Proof.Machine
end

section
/-!
SUPPORT. What the loss of a unit leaves of bring-up: its stage, the Joiner pairs, and the supply and clocks of other bays (R552,
R566, R575, R687, R730).
-/

namespace Sys2Proof.Machine

/-- Bring-up is in the stage it was in, and the Joiner pairs are as before. -/
structure StageKept (s t : State) : Prop where
  stage : t.man.boot.stage = s.man.boot.stage
  pairs : t.man.pairs = s.man.pairs

section
variable {s t u : State}

theorem StageKept.refl (s : State) : StageKept s s := ⟨rfl, rfl⟩
theorem StageKept.trans (h : StageKept s t) (k : StageKept t u) : StageKept s u :=
  ⟨k.stage.trans h.stage, k.pairs.trans h.pairs⟩

/-- A change beside what the frame speaks of. -/
theorem StageKept.same (h : StageKept s t) (hstage : u.man.boot.stage = t.man.boot.stage := by rfl)
    (hpairs : u.man.pairs = t.man.pairs := by rfl) : StageKept s u := h.trans ⟨hstage, hpairs⟩

theorem StageKept.ite {c : Prop} [Decidable c] (h : StageKept s t) (k : StageKept s u) :
    StageKept s (if c then t else u) := by
  split
  · exact h
  · exact k

theorem StageKept.foldl {α : Type} {f : State → α → State} (l : List α) (h : StageKept s t)
    (hf : ∀ u x, StageKept s u → StageKept s (f u x)) : StageKept s (l.foldl f t) :=
  List.foldlRecOn (motive := StageKept s) l f h fun u hu x _ => hf u x hu

theorem LogFrame.stageKept (h : LogFrame s t) : StageKept s t :=
  ⟨congrArg Boot.stage h.boot, by rw [h.1]⟩

theorem StageKept.stopFor (h : StageKept s t) (sev : Severity) (p : Nat) : StageKept s (t.stopFor sev p) := by
  cases sev
  all_goals exact h.same

theorem StageKept.signal (h : StageKept s t) (id : EventId) (p : Nat) (ops : List Nat) :
    StageKept s (t.signal id p ops) := by
  obtain ⟨u, logs, -, stopped⟩ := signal_spec id p ops t
  rw [stopped]
  exact (h.trans logs.stageKept).stopFor ..

/-! ### Fences and lost hosts (R552, R559, R575) -/

theorem StageKept.announceFence (h : StageKept s t) (kind id cause part : Nat) :
    StageKept s (t.announceFence kind id cause part) := .ite ((h.signal ..).signal ..) (h.signal ..)

theorem StageKept.enterFence (h : StageKept s t) (kind id cause part : Nat) :
    StageKept s (t.enterFence kind id cause part) := by
  unfold State.enterFence
  extract_lets fld e old comp s1 s2 s3
  have h1 : StageKept s s1 := h.same
  have h2 : StageKept s s2 := h1.same
  have h3 : StageKept s s3 := .ite h2.same (h2.announceFence ..)
  exact .ite h1 (.ite (h3.signal ..) h3)

theorem StageKept.restartRecovery (h : StageKept s t) (r p : Nat) : StageKept s (t.restartRecovery r p) :=
  StageKept.signal h.same ..

theorem StageKept.loseHost (h : StageKept s t) (l : LT) : StageKept s (t.loseHost l) := by
  unfold State.loseHost
  extract_lets p x s1
  have h1 : StageKept s s1 := .ite (h.restartRecovery ..) (.ite (h.restartRecovery ..) h)
  exact .ite h (.ite h (.ite h.same h1.same))

/-! ### A bay is lost (R566, R687, R730) -/

theorem OnlyMesh.stageKept (h : OnlyMesh s t) : StageKept s t := by
  rw [h]
  exact (StageKept.refl s).same

theorem StageKept.darkenBay (h : StageKept s t) (b : Nat) : StageKept s (t.darkenBay b) := by
  unfold State.darkenBay
  extract_lets s1 s2
  have h1 : OnlyMesh t s1 := onlyMesh_lose ..
  have h2 : OnlyMesh t s2 := h1.foldl _ fun _ _ => onlyMesh_linkDown ..
  exact (h.trans h2.stageKept).same

theorem StageKept.settleBay (h : StageKept s t) (b : Nat) : StageKept s (t.settleBay b) :=
  have man := (onlyBays_settleBay t b).man
  h.same (congrArg (fun m : Manage => m.boot.stage) man) (congrArg Manage.pairs man)

theorem StageKept.loseBay (h : StageKept s t) (b cause : Nat) : StageKept s (t.loseBay b cause) := by
  rw [loseBay_eq]
  have opened : StageKept s (t.bayOpened b cause) :=
    .foldl _ (h.enterFence ..).same fun _ _ hu => hu.loseHost _
  exact StageKept.darkenBay opened.same b

/-- The other bays keep their array supply and their oscillator's lock. -/
def OthersRun (b : Nat) (s t : State) : Prop :=
  ∀ c, c ≠ b → (t.bay c).supply = (s.bay c).supply ∧ (t.bay c).ripple = (s.bay c).ripple

theorem OthersRun.trans {b : Nat} (h : OthersRun b s t) (k : OthersRun b t u) : OthersRun b s u :=
  fun c hc => ⟨(k c hc).1.trans (h c hc).1, (k c hc).2.trans (h c hc).2⟩

theorem othersRun_of_phys {b : Nat} (h : t.phys = s.phys) : OthersRun b s t := fun c _ => by
  rw [State.bay_congr (congrArg Physical.bays h)]
  exact ⟨rfl, rfl⟩

theorem othersRun_setBay (s : State) (b : Nat) (x : Bay) : OthersRun b s (s.setBay b x) := fun c hc => by
  rw [State.bay_setBay_ne _ _ hc]
  exact ⟨rfl, rfl⟩

theorem othersRun_modBayTiles (s : State) (b : Nat) (f : PT → Tile → Tile) : OthersRun b s (s.modBayTiles b f) :=
  fun c hc => othersRun_setBay s b { s.bay b with base := f { bay := b, col := 128, row := 96 } (s.bay b).base } c hc

theorem BaysKept.othersRun (h : BaysKept s t) (b : Nat) : OthersRun b s t := fun c _ => by
  rw [h.bays c]
  exact ⟨rfl, rfl⟩

theorem othersRun_loseBay (s : State) (b cause : Nat) : OthersRun b s (s.loseBay b cause) := by
  have fenced : OthersRun b s (s.enterFence 6 b cause (s.bayOwner b)) :=
    othersRun_of_phys ((Aftermath.refl s).enterFence ..).phys
  have opened : OthersRun b s (s.bayOpened b cause) :=
    (fenced.trans (othersRun_setBay _ _ _)).trans (othersRun_of_phys (aftermath_loseHosts ..).phys)
  exact (opened.trans (othersRun_modBayTiles _ _ _)).trans ((baysKept_loseBay s b cause).othersRun b)

end

section
variable (s : State) (b : Nat)

theorem stageKept_openBay (c : FuseCause) : StageKept s (s.openBay b c) := by
  rw [openBay_eq]
  have man := man_fuseShown s b c
  have shown : StageKept s (s.fuseShown b c) :=
    ⟨congrArg (fun m : Manage => m.boot.stage) man, congrArg Manage.pairs man⟩
  exact ((shown.signal ..).loseBay ..).settleBay b

/-- The state once the unlock of a bay's oscillator is counted and reported. -/
def State.unlockShown : State := (s.bump Reg.clkCnt 63 32 1).signal Ev.rippleUnlock (s.bayOwner b) [b]

theorem unlockRipple_eq : s.unlockRipple b = ((s.unlockShown b).loseBay b Ev.rippleUnlock.code.toNat).settleBay b := rfl

theorem phys_unlockShown : (s.unlockShown b).phys = s.phys := (signal_spec ..).phys
theorem fences_unlockShown : (s.unlockShown b).comp.fences = s.comp.fences := (signal_spec ..).fences

theorem stageKept_unlockRipple : StageKept s (s.unlockRipple b) := by
  have shown : StageKept s (s.unlockShown b) := .signal (StageKept.refl s).same ..
  rw [unlockRipple_eq]
  exact (shown.loseBay ..).settleBay b

theorem othersRun_unlockRipple : OthersRun b s (s.unlockRipple b) := by
  rw [unlockRipple_eq]
  exact ((othersRun_of_phys (phys_unlockShown s b)).trans (othersRun_loseBay _ _ _)).trans ((baysKept_settleBay _ b).othersRun b)

theorem bay_unlockRipple : ((s.unlockRipple b).bay b).IsOpen := ((baysKept_settleBay _ b).bays b).isOpen (bay_loseBay ..)

theorem isFenced_unlockRipple : (s.unlockRipple b).isFenced 6 b = true :=
  (baysKept_settleBay _ b).fenced 6 b (isFenced_loseBay ..)

theorem fenced_unlockRipple {kind id : Nat} (h : s.isFenced kind id = true) : (s.unlockRipple b).isFenced kind id = true := by
  rw [unlockRipple_eq]
  exact ((lossFrame_loseBay ..).trans (baysKept_settleBay ..).toLossFrame).fenced kind id
    ((isFenced_congr (fences_unlockShown s b) kind id).trans h)

end

end Sys2Proof.Machine
end

section
/-!
SUPPORT. Proofs about stages 1 and 2 of bring-up: the cold start, the rim segments, the bays, and the root PLL (R433, R554, R555,
R704, R719, R724 to R728, R766).
-/

namespace Sys2Proof.Machine

/-! ### The cold start (R554, R555, R719, R809, R811) -/

/-- The state at a cold start once the writer has scanned the log and the module's restart is recorded. -/
def State.restartRecorded (s : State) : State :=
  let s := s.unpowered false
  let s := { s with tide := 0, comp := { s.comp with
    fences := (s.comp.fences.map Fence.atColdStart).filter fun e => e.fuse || e.field } }
  let s := s.modPower fun w => { w with feed := true }
  let s := s.startScan
  let cause := s.grain.stopCause
  let s := s.modGrain fun g => { g with boots := g.newestBoot + 1 }
  s.sendRecord 0x0002 0 0 (leBytes 1 s.phys.clock.settle.toNat ++ leBytes 1 s.phys.clock.src ++ leBytes 2 cause)

/-- The surge buckets of every bay are read back. -/
def State.bucketsRead (s : State) : State := (List.range 84).foldl (fun s b => s.readBuckets b) s

/-- What the reading back of buckets and of the key engine's state leaves. -/
structure ColdKept (s t : State) : Prop where
  tide : t.tide = s.tide
  pending : t.pending = s.pending
  comp : t.comp = s.comp
  fuses : t.man.fuses = s.man.fuses
  power : t.phys.power = s.phys.power
  supply : ∀ b, (t.bay b).supply = (s.bay b).supply

section
variable {s t u : State}

theorem ColdKept.refl (s : State) : ColdKept s s := ⟨rfl, rfl, rfl, rfl, rfl, fun _ => rfl⟩
theorem ColdKept.trans (h : ColdKept s t) (k : ColdKept t u) : ColdKept s u where
  tide := k.tide.trans h.tide
  pending := k.pending.trans h.pending
  comp := k.comp.trans h.comp
  fuses := k.fuses.trans h.fuses
  power := k.power.trans h.power
  supply := fun b => (k.supply b).trans (h.supply b)

end

theorem coldKept_readBuckets (s : State) (b : Nat) : ColdKept s (s.readBuckets b) where
  tide := rfl
  pending := rfl
  comp := rfl
  fuses := rfl
  power := rfl
  supply := fun c => by
    unfold State.readBuckets
    by_cases h : c = b
    · rw [h, State.bay_setBay_same]
    · rw [State.bay_setBay_ne _ _ h]

theorem coldKept_bucketsRead (s : State) : ColdKept s s.bucketsRead :=
  List.foldlRecOn (motive := ColdKept s) _ _ (.refl s) fun u hu b _ => hu.trans (coldKept_readBuckets u b)

theorem coldKept_lmsLow (s : State) (q : Nat) : ColdKept s (s.signal Ev.lmsLow 0 [q]) :=
  have h := signal_spec Ev.lmsLow 0 [q] s
  ⟨h.tide, h.pending, h.comp (by decide), h.fuses, congrArg Physical.power h.phys,
    fun b => congrArg Bay.supply (h.bay b)⟩

theorem coldKept_startLms (s : State) : ColdKept s s.startLms := by
  unfold State.startLms
  split
  · exact ⟨rfl, rfl, rfl, rfl, rfl, fun _ => rfl⟩
  · rename_i q l _
    extract_lets s1 s2
    have h1 : ColdKept s s1 := ⟨rfl, rfl, rfl, rfl, rfl, fun _ => rfl⟩
    have h2 : ColdKept s s2 := by
      change ColdKept s (if _ then _ else _)
      split
      · exact h1.trans ⟨rfl, rfl, rfl, rfl, rfl, fun _ => rfl⟩
      · exact h1
    split
    · exact h2.trans (coldKept_lmsLow s2 q)
    · exact h2

/-- The cold start's first stage begins. -/
def State.coldBegun (s : State) : State := (s.modBoot fun b => { b with beganAt := 0 }).beginStage 1

theorem boot_coldBegun (s : State) : s.coldBegun.boot.stage = 1 ∧ s.coldBegun.boot.st = .running ∧
    s.coldBegun.field Reg.bootStage 63 48 = 0x0100 := by
  refine ⟨rfl, rfl, ?_⟩
  unfold State.coldBegun State.beginStage State.setCode
  rw [State.field_setField_same _ _ _ _ _ (by decide) (by decide)]
  rfl

theorem execColdStart_eq {s : State} (off : s.phys.power.feed = false) :
    exec .coldStart s = .next s.restartRecorded.bucketsRead.startLms.coldBegun := by
  change execColdStart s = _
  unfold execColdStart
  rw [if_neg (by rw [off]; decide)]
  rfl

theorem coldKept_coldBegun (s : State) : ColdKept s s.coldBegun := ⟨rfl, rfl, rfl, rfl, rfl, fun _ => rfl⟩

/-- What a cold start clears and what it keeps. -/
structure Cleared (s t : State) : Prop where
  tide : t.tide = 0
  feed : t.phys.power.feed = true
  segs : t.phys.power.segs = 0
  supply : ∀ b, (t.bay b).supply = .off
  hbm : t.comp.hbm = []
  parts : t.comp.parts = []
  fuses : t.man.fuses = s.man.fuses
  pending : t.pending = s.pending
  fences : t.comp.fences = ((s.committedFences.map Fence.atColdStart).filter fun e => e.fuse || e.field)
  hosts : t.comp.hosts = s.committedHosts

theorem cleared_restartRecorded (s : State) : Cleared s s.restartRecorded :=
  ⟨rfl, rfl, rfl, fun _ => rfl, rfl, rfl, rfl, rfl, rfl, rfl⟩

theorem Cleared.kept {s t u : State} (h : Cleared s t) (k : ColdKept t u) : Cleared s u where
  tide := k.tide.trans h.tide
  feed := (congrArg Power.feed k.power).trans h.feed
  segs := (congrArg Power.segs k.power).trans h.segs
  supply := fun b => (k.supply b).trans (h.supply b)
  hbm := (congrArg Compute.hbm k.comp).trans h.hbm
  parts := (congrArg Compute.parts k.comp).trans h.parts
  fuses := k.fuses.trans h.fuses
  pending := k.pending.trans h.pending
  fences := (congrArg Compute.fences k.comp).trans h.fences
  hosts := (congrArg Compute.hosts k.comp).trans h.hosts

theorem coldStart_spec {s : State} (off : s.phys.power.feed = false) : ∃ t, exec .coldStart s = .next t ∧ t.tide = 0 ∧
    t.boot.stage = 1 ∧ t.boot.st = .running ∧ t.field Reg.bootStage 63 48 = 0x0100 ∧ t.phys.power.feed = true ∧
    t.phys.power.segs = 0 ∧ (∀ b, (t.bay b).supply = .off) ∧ t.comp.hbm = [] ∧ t.comp.parts = [] ∧
    t.man.fuses = s.man.fuses ∧ t.pending = s.pending ∧
    t.comp.fences = ((s.committedFences.map Fence.atColdStart).filter fun e => e.fuse || e.field) ∧
    t.comp.hosts = s.committedHosts := by
  obtain ⟨tide, feed, segs, supply, hbm, parts, fuses, pending, fences, hosts⟩ :=
    (cleared_restartRecorded s).kept (((coldKept_bucketsRead _).trans (coldKept_startLms _)).trans (coldKept_coldBegun _))
  obtain ⟨stage, runs, code⟩ := boot_coldBegun s.restartRecorded.bucketsRead.startLms
  exact ⟨_, execColdStart_eq off, tide, stage, runs, code, feed, segs, supply, hbm, parts, fuses, pending, fences, hosts⟩

/-! ### Rim segments (R724, R728) -/

/-- The sill supplies of bays are switched on. -/
def State.sillsOn (l : List Nat) (s : State) : State := l.foldl (fun s b => s.modBay b fun x => { x with sill := true }) s

theorem onlyBays_sillsOn (l : List Nat) (s : State) : OnlyBays s (s.sillsOn l) :=
  .foldl _ (fun u b => onlyBays_setBay (b := b) (x := { u.bay b with sill := true }) rfl) s

theorem sill_sillsOn (l : List Nat) (s : State) {b : Nat} (h : b ∈ l ∨ (s.bay b).sill = true) :
    ((s.sillsOn l).bay b).sill = true := by
  induction l generalizing s with
  | nil => exact h.resolve_left (List.not_mem_nil)
  | cons c l ih =>
    refine ih (s.modBay c fun x => { x with sill := true }) ?_
    by_cases hc : b = c
    · refine .inr ?_
      rw [hc, State.bay_modBay_same]
    · rw [State.bay_modBay_ne _ _ hc]
      exact h.imp_left fun m => (List.mem_cons.1 m).resolve_left hc

/-- Rim power is good: stage 1 is over, and every sill supply is on. -/
theorem rimGood_spec {s : State} (stage : s.boot.stage = 1) (res : Nat) : StageOver 1 (s.rimGood res) ∧
    (s.rimGood res).phys.power = s.phys.power ∧ ∀ b, b < 84 → ((s.rimGood res).bay b).sill = true := by
  have bays := onlyBays_sillsOn (List.range 84) s
  have posted := onlyPosted_passStage ((s.sillsOn (List.range 84)).modBoot fun b => { b with faultPin := b.fatalSince }) res []
  refine ⟨passStage_over _ _ ?_ (by decide), ?_, fun b hb => ?_⟩
  · exact (congrArg (fun m : Manage => m.boot.stage) bays.man).trans stage
  · refine (congrArg Physical.power posted.phys).trans ?_
    change (s.sillsOn _).phys.power = _
    rw [bays.only]
  · exact (congrArg Bay.sill (posted.bay b)).trans (sill_sillsOn _ s (.inl (List.mem_range.2 hb)))

/-- Segment `n` has had its slot. -/
def State.segStepped (n : Nat) (good : Bool) (s : State) : State :=
  s.modPower fun w => { w with segSlot := n + 1, segs := if good then w.segs ||| ((1 : BitVec 24) <<< n) else w.segs }

/-- A segment that is left off is reported, unless it is segment 0. -/
def State.segReported (n : Nat) (good : Bool) (s : State) : State := if good ∨ n = 0 then s else s.signal Ev.rimSegLost 0 [n]

theorem segReported_keeps (n : Nat) (good : Bool) (s : State) :
    (s.segReported n good).man.boot.stage = s.man.boot.stage ∧ (s.segReported n good).phys = s.phys := by
  unfold State.segReported
  split
  · exact ⟨rfl, rfl⟩
  · exact ⟨((StageKept.refl s).signal ..).stage, (signal_spec ..).phys⟩

theorem rimSegPowerStep_eq {s : State} {n : Nat} (good : Bool) (fed : s.phys.power.feed = true) (stage : s.boot.stage = 1)
    (slot : n = s.phys.power.segSlot) (hn : n < 24) (seg : n = 0 ∨ s.segUp 0 = true) : exec (.rimSegPowerStep n good) s =
      .next (if n = 23 then ((s.segStepped n good).segReported n good).rimGood
          (if ((s.segStepped n good).segReported n good).phys.power.segs = 0xFFFFFF then 0x01 else 0x02)
        else (s.segStepped n good).segReported n good) := by
  have passes : ¬ (s.phys.power.feed = false ∨ s.boot.stage ≠ 1 ∨
      n ≠ s.phys.power.segSlot ∨ 24 ≤ n ∨ (n ≠ 0 ∧ s.segUp 0 = false)) := by
    rintro (h | h | h | h | ⟨h0, h⟩)
    · exact absurd (fed.symm.trans h) (by decide)
    · exact h stage
    · exact h slot
    · omega
    · exact absurd ((seg.resolve_left h0).symm.trans h) (by decide)
  change execRimSegPowerStep n good s = _
  unfold execRimSegPowerStep
  exact congrArg _ (if_neg passes)

theorem rimSegPowerStep_spec {s : State} {n : Nat} {good : Bool} (fed : s.phys.power.feed = true) (stage : s.boot.stage = 1)
    (slot : n = s.phys.power.segSlot) (hn : n < 24) (seg : n = 0 ∨ s.segUp 0 = true) : let v := s.segStepped n good
    ∃ t, exec (.rimSegPowerStep n good) s = .next t ∧ (n ≠ 23 → (good = true ∨ n = 0) → t = v) ∧
      (n ≠ 23 → good = false → n ≠ 0 → Signals Ev.rimSegLost 0 [n] v t) ∧
      (n = 23 → StageOver 1 t ∧ t.phys.power = v.phys.power ∧ ∀ b, b < 84 → (t.bay b).sill = true) := by
  intro v
  refine ⟨_, rimSegPowerStep_eq good fed stage slot hn seg, fun h on => ?_, fun h off h0 => ?_, fun h => ?_⟩
  · rw [if_neg h, State.segReported, if_pos on]
  · rw [if_neg h, State.segReported, if_neg (by rw [off]; simpa using h0)]
    exact signal_spec ..
  · obtain ⟨kept, phys⟩ := segReported_keeps n good v
    rw [if_pos h, ← congrArg Physical.power phys]
    exact rimGood_spec (kept.trans stage) _

/-! ### Bays (R725, R726) -/

/-- The bay has its supply, with its tiles in RESET and new routers. -/
def Bay.powered (now : Nat) (x : Bay) : Bay :=
  { x with supply := .on, volts := 720, base := { Tile.reset with s := { TileSeq.reset with seq := .reset } }
           rbase := Router.reset, hourAt := now }

/-- A bay in its slot is powered, or its fuse opens. -/
def State.bayStepped (b : Nat) (good : Bool) (s : State) : State :=
  if good then (s.powerBay b).clearMargin b else s.openBay b .powerGood

section
variable (s : State) (b : Nat)

theorem bay_powered : ((s.powerBay b).clearMargin b).bay b = { (s.powerBay b).bay b with
    droops := 0, vmin := ((s.powerBay b).bay b).volts, slack := BitVec.ofNat 16 (s.powerBay b).draw.1 } :=
  State.bay_modBay_same ..

theorem bay_powerBay : (s.powerBay b).bay b = (s.bay b).powered s.now :=
  (State.bay_congr (s := s.modBay b (Bay.powered s.now)) rfl b).trans (State.bay_modBay_same ..)

theorem tile_powered {x : PT} (hx : x.valid = true) (hb : x.bay = b) : (((s.powerBay b).clearMargin b).tile x).s.seq = .reset := by
  have base : ((s.powerBay b).clearMargin b).tile x = (((s.powerBay b).clearMargin b).bay x.bay).base := by
    refine Tab.get_of_forall_ne _ fun e he key => ?_
    exact (of_decide_eq_true (List.mem_filter.1 he).2) (by rw [key, PT.key_div hx, hb])
  rw [base, hb, bay_powered, bay_powerBay]
  rfl

theorem router_powered {x : PT} (hx : x.valid = true) (hb : x.bay = b) :
    ((s.powerBay b).clearMargin b).router x = Router.reset := by
  have base : ((s.powerBay b).clearMargin b).router x = (((s.powerBay b).clearMargin b).bay x.bay).rbase := by
    refine Tab.get_of_forall_ne _ fun e he key => ?_
    exact (of_decide_eq_true (List.mem_filter.1 he).2) (by rw [key, PT.key_div hx, hb])
  rw [base, hb, bay_powered, bay_powerBay]
  rfl

theorem bayStepped_keeps (good : Bool) : (s.bayStepped b good).man.boot.stage = s.man.boot.stage ∧
    (s.bayStepped b good).phys.power = s.phys.power := by
  cases good with
  | true => exact ⟨rfl, rfl⟩
  | false => exact ⟨(stageKept_openBay s b .powerGood).stage, power_openBay s b .powerGood⟩

end

/-- The slot of the next bay is over. -/
def State.slotTaken (s : State) : State := s.modPower fun w => { w with baySlot := s.phys.power.baySlot + 1 }

/-- The last slot ends stage 2. -/
def State.slotEnded (i : Nat) (s : State) : State :=
  if i = 83 then s.passStage (if (List.range 84).all (fun b => decide ((s.bay b).supply = .on)) then 0x01 else 0x02) [] else s

theorem onlyPosted_slotEnded (i : Nat) (s : State) : OnlyPosted s (s.slotEnded i) := by
  unfold State.slotEnded
  split
  · exact onlyPosted_passStage ..
  · rfl

theorem bayPowerStep_spec {s : State} {b : Nat} {good : Bool} (stage : s.boot.stage = 2) (left : s.phys.power.baySlot < 84)
    (slot : b = slotBay s.phys.power.baySlot) : ∃ t, exec (.bayPowerStep b good) s = .next t ∧
      t.phys.power.baySlot = s.phys.power.baySlot + 1 ∧
      (good = true → (t.bay b).supply = .on ∧
        ∀ x : PT, x.valid = true → x.bay = b → (t.tile x).s.seq = .reset ∧ t.router x = Router.reset) ∧
      (good = false → (t.bay b).supply = .open_ ∧ t.isFenced 6 b = true) ∧
      (s.phys.power.baySlot = 83 → StageOver 2 t) ∧ (s.phys.power.baySlot ≠ 83 → t.boot.stage = 2) := by
  have passes : ¬ (s.boot.stage ≠ 2 ∨ 84 ≤ s.phys.power.baySlot ∨ b ≠ slotBay s.phys.power.baySlot) := by
    rintro (h | h | h)
    · exact h stage
    · omega
    · exact h slot
  obtain ⟨keptStage, keptPower⟩ := bayStepped_keeps s.slotTaken b good
  have stepped : (s.slotTaken.bayStepped b good).boot.stage = 2 := keptStage.trans stage
  have posted := onlyPosted_slotEnded s.phys.power.baySlot (s.slotTaken.bayStepped b good)
  refine ⟨(s.slotTaken.bayStepped b good).slotEnded s.phys.power.baySlot, congrArg _ (if_neg passes), ?_,
    fun on => ?_, fun off => ?_, fun h => ?_, fun h => ?_⟩
  · rw [posted.phys, keptPower]
    rfl
  · rw [posted.bay]
    subst on
    refine ⟨?_, fun x hx hb => ?_⟩
    · exact congrArg Bay.supply ((bay_powered s.slotTaken b).trans (by rw [bay_powerBay]))
    · rw [posted.tile, posted.router]
      exact ⟨tile_powered _ _ hx hb, router_powered _ _ hx hb⟩
  · rw [posted.bay, posted.isFenced]
    subst off
    exact ⟨(bay_openBay s.slotTaken b .powerGood).1, isFenced_openBay ..⟩
  · rw [State.slotEnded, if_pos h]
    exact passStage_over _ _ stepped (by decide)
  · rw [State.slotEnded, if_neg h]
    exact stepped

/-! ### The root PLL (R690 to R694, R704) -/

/-- A PERIOD that was written before the lock takes effect. -/
def State.periodTaken (s : State) : State := match s.phys.time.heldPeriod with
  | some v => s.setField Reg.tideSync 19 0 v
  | none => s

theorem periodTaken_spec (s : State) : s.periodTaken = { s with regs := s.periodTaken.regs } ∧
    ∀ v, s.phys.time.heldPeriod = some v → s.periodTaken.field Reg.tideSync 19 0 = v % 2 ^ 20 := by
  unfold State.periodTaken
  split
  next v held =>
    refine ⟨rfl, fun w h => ?_⟩
    rw [Option.some.inj (held.symm.trans h).symm]
    exact State.field_setField_same _ _ _ _ _ (by decide) (by decide)
  next none_ => exact ⟨rfl, fun w h => nomatch none_.symm.trans h⟩

/-- The root PLL has locked, and Tide starts. -/
def State.rootLocked (ref : Bool) (trim : BitVec 10) (s : State) : State :=
  { s.draw.2.modClock fun c => { c with rootLock := true, holdSince := none, src := if ref then 1 else 2, trim := trim, trimAt := 0 }
    with tide := 0 }

/-- The time base and bring-up count from the lock. -/
def State.tideStarted (pre : Nat) (s : State) : State :=
  (s.modTime fun x => { x with heldPeriod := none, measAt := 0, lastEdge := none, trimEdges := 0, acc := 0 }).modBoot fun b =>
    { b with preMs := pre, beganAt := 0, stageAt := 0 }

theorem rootPllLock_eq {s : State} (ref sync : Bool) (trim : BitVec 10) (unlocked : s.phys.clock.rootLock = false)
    (stage : s.boot.stage = 2 ∨ s.boot.stage = 3) (runs : s.boot.st = .running) (seg : s.segUp 0 = true) :
    exec (.rootPllLock ref sync trim) s =
      .next (if ref = false ∧ sync = false then s else (s.rootLocked ref trim).periodTaken.tideStarted s.draw.1) := by
  have passes : ¬ (s.phys.clock.rootLock ∨ (s.boot.stage ≠ 2 ∧ s.boot.stage ≠ 3) ∨
      s.boot.st ≠ .running ∨ s.segUp 0 = false) := by
    rw [unlocked, seg, runs]
    simp only [Bool.false_eq_true, Bool.true_eq_false, ne_eq, not_true_eq_false, or_false, false_or]
    omega
  exact congrArg _ (if_neg passes)

theorem rootPllLock_spec {s : State} (ref sync : Bool) (trim : BitVec 10) (unlocked : s.phys.clock.rootLock = false)
    (stage : s.boot.stage = 2 ∨ s.boot.stage = 3) (runs : s.boot.st = .running) (seg : s.segUp 0 = true) :
    (ref = true ∨ sync = true → ∃ t, exec (.rootPllLock ref sync trim) s = .next t ∧ t.phys.clock.rootLock = true ∧
      t.phys.clock.trim = trim ∧ t.phys.clock.src = (if ref then 1 else 2) ∧ t.tide = 0 ∧ t.phys.time.heldPeriod = none ∧
      t.boot.stage = s.boot.stage ∧
      (∀ v, s.phys.time.heldPeriod = some v → t.field Reg.tideSync 19 0 = v % 2 ^ 20) ∧ t.comp = s.comp) ∧
    (ref = false → sync = false → exec (.rootPllLock ref sync trim) s = .next s) := by
  rw [rootPllLock_eq ref sync trim unlocked stage runs seg]
  refine ⟨fun locks => ?_, fun noRef noSync => congrArg _ (if_pos ⟨noRef, noSync⟩)⟩
  have found : ¬ (ref = false ∧ sync = false) := by
    rintro ⟨rfl, rfl⟩
    exact absurd locks (by decide)
  obtain ⟨only, period⟩ := periodTaken_spec (s.rootLocked ref trim)
  have clock := congrArg (fun t : State => t.phys.clock) only
  have kept := congrArg (fun t : State => t.man.boot.stage) only
  have comp := congrArg State.comp only
  refine ⟨_, congrArg _ (if_neg found), ?_, ?_, ?_, ?_, rfl, kept, period, comp⟩
  · exact congrArg Clock.rootLock clock
  · exact congrArg Clock.trim clock
  · exact congrArg Clock.src clock
  · exact congrArg State.tide only

end Sys2Proof.Machine
end

section
/-!
SUPPORT. Proofs about stages 3 to 5 of bring-up: the bays' oscillators, the fuses, the boot ROM and its pairs (R547, R687, R766,
R769), and what stages 1 to 5 do.
-/

namespace Sys2Proof.Machine

theorem inStage_stage {s : State} {n : Nat} (h : s.inStage n = true) : s.boot.stage = n := by
  simp only [State.inStage, Bool.and_eq_true, decide_eq_true_eq] at h
  exact h.1.1

/-! ### The bays' oscillators (R686, R687) -/

/-- A bay's oscillator locks, or the bay is lost. -/
def State.lockRipple (un : List Nat) (s : State) (b : Nat) : State :=
  if un.contains b then s.unlockRipple b else s.modBay b fun x => { x with ripple := true }

section
variable (un : List Nat)

theorem stageKept_lockRipples (l : List Nat) (s : State) : StageKept s (l.foldl (State.lockRipple un) s) :=
  .foldl l (.refl s) fun u b hu => .ite (hu.trans (stageKept_unlockRipple u b)) hu.same

theorem othersRun_lockRipple (s : State) (b : Nat) : OthersRun b s (s.lockRipple un b) := by
  unfold State.lockRipple
  split
  · exact othersRun_unlockRipple s b
  · exact othersRun_setBay s b _

theorem fenced_lockRipple (s : State) (b : Nat) {kind id : Nat} (h : s.isFenced kind id = true) :
    (s.lockRipple un b).isFenced kind id = true := by
  unfold State.lockRipple
  split
  · exact fenced_unlockRipple s b h
  · exact h

theorem fenced_lockRipples (l : List Nat) (s : State) {kind id : Nat} (h : s.isFenced kind id = true) :
    (l.foldl (State.lockRipple un) s).isFenced kind id = true :=
  List.foldlRecOn (motive := fun u : State => u.isFenced kind id = true) l _ h fun u hu b _ => fenced_lockRipple un u b hu

/-- Bays that are not listed keep their supply and lock. -/
theorem bay_lockRipples_of_notMem (l : List Nat) (s : State) {b : Nat} (h : b ∉ l) :
    ((l.foldl (State.lockRipple un) s).bay b).supply = (s.bay b).supply ∧
      ((l.foldl (State.lockRipple un) s).bay b).ripple = (s.bay b).ripple :=
  List.foldlRecOn (motive := fun u : State => (u.bay b).supply = (s.bay b).supply ∧ (u.bay b).ripple = (s.bay b).ripple) l _
    ⟨rfl, rfl⟩ fun u hu c hc => by
      obtain ⟨supply, ripple⟩ := othersRun_lockRipple un u c b (fun e => h (e ▸ hc))
      exact ⟨supply.trans hu.1, ripple.trans hu.2⟩

/-- A listed bay runs, or is lost. -/
theorem bay_lockRipples {l : List Nat} (nodup : l.Nodup) (s : State) {b : Nat} (hb : b ∈ l) (on : (s.bay b).supply = .on) :
    (b ∉ un → ((l.foldl (State.lockRipple un) s).bay b).ripple = true ∧
      ((l.foldl (State.lockRipple un) s).bay b).supply = .on) ∧
    (b ∈ un → ((l.foldl (State.lockRipple un) s).bay b).ripple = false ∧
      (l.foldl (State.lockRipple un) s).isFenced 6 b = true) := by
  obtain ⟨before, after, rfl⟩ := List.append_of_mem hb
  have apart : b ∉ before ∧ b ∉ after := by
    obtain ⟨-, tail, disjoint⟩ := List.nodup_append.1 nodup
    exact ⟨fun h => disjoint b h b List.mem_cons_self rfl, (List.nodup_cons.1 tail).1⟩
  rw [List.foldl_append, List.foldl_cons]
  have start := bay_lockRipples_of_notMem un before s apart.1
  generalize before.foldl (State.lockRipple un) s = u at start ⊢
  obtain ⟨supply, ripple⟩ := bay_lockRipples_of_notMem un after (u.lockRipple un b) apart.2
  rw [supply, ripple]
  refine ⟨fun locks => ?_, fun fails => ?_⟩
  · have step : u.lockRipple un b = u.modBay b fun x => { x with ripple := true } := if_neg (by simpa using locks)
    rw [step, State.bay_modBay_same]
    exact ⟨rfl, start.1.trans on⟩
  · have step : u.lockRipple un b = u.unlockRipple b := if_pos (by simpa using fails)
    have fenced := fenced_lockRipples un after _ (isFenced_unlockRipple u b)
    rw [step]
    exact ⟨(bay_unlockRipple u b).2.1, fenced⟩

end

/-- The bays with array supply, in their order. -/
def State.baysOn (s : State) : List Nat := (List.range 84).filter fun b => decide ((s.bay b).supply = .on)

theorem rippleLock_eq {s : State} (un : List Nat) (runs : s.inStage 3 = true) : exec (.rippleLock un) s =
    .next (if s.phys.clock.rootLock = false then s.failStage 0x0381
      else (s.baysOn.foldl (State.lockRipple un) s).passStage (passCode (s.baysOn.any fun b => un.contains b)) []) :=
  congrArg _ (if_neg (by rw [runs]; decide))

theorem rippleLock_spec {s : State} (un : List Nat) (runs : s.inStage 3 = true) :
    (s.phys.clock.rootLock = false → ∃ t, exec (.rippleLock un) s = .next t ∧ StageFails 0x0381 t) ∧
    (s.phys.clock.rootLock = true → ∃ t, exec (.rippleLock un) s = .next t ∧ StageOver 3 t ∧
      ∀ b, b < 84 → (s.bay b).supply = .on → (b ∉ un → (t.bay b).ripple = true ∧ (t.bay b).supply = .on) ∧
        (b ∈ un → (t.bay b).ripple = false ∧ t.isFenced 6 b = true)) := by
  rw [rippleLock_eq un runs]
  refine ⟨fun unlocked => ⟨_, congrArg _ (if_pos unlocked), failStage_fails s (by decide)⟩, fun locked => ?_⟩
  have stage : (s.baysOn.foldl (State.lockRipple un) s).boot.stage = 3 :=
    (stageKept_lockRipples un s.baysOn s).stage.trans (inStage_stage runs)
  have posted := onlyPosted_passStage (s.baysOn.foldl (State.lockRipple un) s) (passCode (s.baysOn.any fun b => un.contains b)) []
  refine ⟨_, congrArg _ (if_neg (by rw [locked]; decide)), passStage_over _ _ stage (by decide), fun b hb on => ?_⟩
  rw [posted.bay, posted.isFenced]
  exact bay_lockRipples un (List.nodup_range.filter _) s (List.mem_filter.2 ⟨List.mem_range.2 hb, decide_eq_true on⟩) on

/-! ### The fuses (R766, R769) -/

theorem fuseRead_eq {s : State} (good : Bool) (runs : s.inStage 4 = true) :
    exec (.fuseRead good) s = .next (if good then s.passStage 0x01 [] else s.failStage 0x0481) :=
  congrArg _ (if_neg (by rw [runs]; decide))

theorem fuseRead_spec {s : State} (runs : s.inStage 4 = true) :
    (∃ t, exec (.fuseRead true) s = .next t ∧ StageOver 4 t) ∧
      (∃ t, exec (.fuseRead false) s = .next t ∧ StageFails 0x0481 t) :=
  ⟨⟨_, fuseRead_eq true runs, passStage_over _ _ (inStage_stage runs) (by decide)⟩,
    ⟨_, fuseRead_eq false runs, failStage_fails s (by decide)⟩⟩

/-! ### The boot ROM and its pairs (R547, R766) -/

/-- An entry of the fence set counts for its own unit only. -/
theorem addEntry_other (e : Fence) {kind id : Nat} (h : id ≠ e.id) (l : List Fence) :
    (addEntry e l).any (Fence.counts [kind] id) = l.any (Fence.counts [kind] id) := by
  have own {f : Fence} (hf : f.id = e.id) : Fence.counts [kind] id f = false := by
    simp only [Fence.counts, hf, decide_eq_false h.symm, Bool.and_false, Bool.false_and]
  induction l with
  | nil => simp only [addEntry, List.any_cons, own rfl, List.any_nil, Bool.or_false]
  | cons g r ih =>
    unfold addEntry
    split
    next same =>
      rw [List.any_cons, List.any_cons, own (f := g) same.2,
        own (f := { g with field := g.field || e.field, test := g.test || e.test }) same.2]
    next => rw [List.any_cons, List.any_cons, ih]

theorem fences_announceFence (s : State) (kind id cause part : Nat) :
    (s.announceFence kind id cause part).comp.fences = s.comp.fences := by
  unfold State.announceFence
  dsimp only
  split
  · exact (signal_spec ..).fences.trans (signal_spec ..).fences
  · exact (signal_spec ..).fences

/-- Only the entry itself is new in the fence set. -/
theorem fences_enterFence (s : State) (kind id cause part : Nat) :
    (s.enterFence kind id cause part).comp.fences = (s.withFence kind id cause).comp.fences := by
  unfold State.enterFence
  extract_lets fld e old comp s1 s2 s3
  have h3 : s3.comp.fences = s2.comp.fences := by
    change (if _ then _ else _ : State).comp.fences = _
    split
    · rfl
    · exact fences_announceFence ..
  split
  · rfl
  · split
    · exact (signal_spec ..).fences.trans h3
    · exact h3

/-- A pair that fails its self-test is fenced and stopped. -/
def State.pairFailed (s : State) (k : Nat) : State :=
  ((s.enterFence 5 k 0 0).setPair k { s.pair k with stopped := true }).resetCores k true

section
variable (s : State)

theorem stage_pairFailed (k : Nat) : (s.pairFailed k).man.boot.stage = s.man.boot.stage :=
  ((StageKept.refl s).enterFence 5 k 0 0).stage

theorem phys_pairFailed (k : Nat) : (s.pairFailed k).phys = s.phys := ((Aftermath.refl s).enterFence 5 k 0 0).phys

theorem pair_pairFailed_same (k : Nat) : (s.pairFailed k).pair k = { s.pair k with stopped := true } := by
  rw [State.pairFailed, State.pair_resetCores_, State.pair_setPair_same]

theorem pair_pairFailed_ne {j k : Nat} (h : j ≠ k) : (s.pairFailed k).pair j = s.pair j := by
  rw [State.pairFailed, State.pair_resetCores_, State.pair_setPair_ne _ _ h, State.pair, ((StageKept.refl s).enterFence 5 k 0 0).pairs,
    State.pair]

theorem isFenced_pairFailed_ne {j k : Nat} (h : j ≠ k) : (s.pairFailed k).isFenced 5 j = s.isFenced 5 j :=
  (isFenced_congr (fences_enterFence s 5 k 0 0) 5 j).trans (addEntry_other (fenceEntry s 5 k 0) h _)

/-- The pairs of a list fail their self-test. -/
def State.pairsFailed (l : List Nat) : State := l.foldl State.pairFailed s

theorem stage_pairsFailed (l : List Nat) : (s.pairsFailed l).man.boot.stage = s.man.boot.stage :=
  List.foldlRecOn (motive := fun u : State => u.man.boot.stage = s.man.boot.stage) l _ rfl fun u hu k _ =>
    (stage_pairFailed u k).trans hu

theorem phys_pairsFailed (l : List Nat) : (s.pairsFailed l).phys = s.phys :=
  List.foldlRecOn (motive := fun u : State => u.phys = s.phys) l _ rfl fun u hu k _ => (phys_pairFailed u k).trans hu

/-- A pair that does not fail is as before. -/
theorem pair_pairsFailed_of_notMem {l : List Nat} {j : Nat} (h : j ∉ l) :
    (s.pairsFailed l).pair j = s.pair j ∧ (s.pairsFailed l).isFenced 5 j = s.isFenced 5 j :=
  List.foldlRecOn (motive := fun u : State => u.pair j = s.pair j ∧ u.isFenced 5 j = s.isFenced 5 j) l _ ⟨rfl, rfl⟩
    fun u hu k hk => by
      have apart : j ≠ k := fun e => h (e ▸ hk)
      exact ⟨(pair_pairFailed_ne u apart).trans hu.1, (isFenced_pairFailed_ne u apart).trans hu.2⟩

theorem stopped_pairFailed {j : Nat} (k : Nat) (h : j = k ∨ (s.pair j).stopped = true) :
    ((s.pairFailed k).pair j).stopped = true := by
  by_cases e : j = k
  · rw [e, pair_pairFailed_same]
  · rw [pair_pairFailed_ne s e]
    exact h.resolve_left e

theorem stopped_pairsFailed (l : List Nat) {j : Nat} (h : j ∈ l ∨ (s.pair j).stopped = true) :
    ((s.pairsFailed l).pair j).stopped = true := by
  induction l generalizing s with
  | nil => exact h.resolve_left List.not_mem_nil
  | cons k l ih =>
    refine ih (s.pairFailed k) ?_
    rcases h with listed | stopped
    · exact (List.mem_cons.1 listed).symm.imp_right fun e => stopped_pairFailed s k (.inl e)
    · exact .inr (stopped_pairFailed s k (.inr stopped))

/-- The pairs that may run the ROM and fail its self-test. -/
def State.failingPairs (bad : List Nat) : List Nat := s.romPairs.filter fun k => bad.contains k

theorem romPairs_failed (bad : List Nat) :
    (s.pairsFailed (s.failingPairs bad)).romPairs = s.romPairs.filter fun k => !bad.contains k := by
  unfold State.romPairs
  rw [List.filter_filter]
  refine List.filter_congr fun k hk => ?_
  have phys := phys_pairsFailed s (s.failingPairs bad)
  by_cases fails : k ∈ s.failingPairs bad
  · have stopped := stopped_pairsFailed s (s.failingPairs bad) (.inl fails)
    have listed : bad.contains k = true := (List.mem_filter.1 fails).2
    simp only [State.pairLive, stopped, listed, Bool.not_true, Bool.false_and]
  · obtain ⟨pair, fenced⟩ := pair_pairsFailed_of_notMem s fails
    have keeps : s.pairLive k = true → s.isFenced 5 k = false → bad.contains k = false := fun live free => by
      refine Bool.eq_false_iff.2 fun listed => fails ?_
      exact List.mem_filter.2 ⟨List.mem_filter.2 ⟨hk, by rw [live, free]; rfl⟩, listed⟩
    have live : (s.pairsFailed (s.failingPairs bad)).pairLive k = s.pairLive k := by
      simp only [State.pairLive, pair, phys]
    rw [live, fenced]
    cases hlive : s.pairLive k with
    | false => rw [Bool.false_and, Bool.and_false]
    | true =>
      cases hfree : s.isFenced 5 k with
      | true => rw [Bool.not_true, Bool.and_false, Bool.and_false]
      | false => rw [keeps hlive hfree]; rfl

end

/-- The lowest pair runs the ROM, and stage 6 waits for a fetch; without a pair stage 5 fails. -/
def State.romRun (lost : Bool) (s : State) : State := match s.romPairs with
  | [] => s.failStage 0x0582
  | k :: _ => ((s.modBoot fun b => { b with pair := k }).passStage (passCode lost) []).waitFetch

theorem romRun_none {s : State} (lost : Bool) (h : s.romPairs = []) : s.romRun lost = s.failStage 0x0582 := by
  unfold State.romRun
  rw [h]

theorem romRun_some {s : State} (lost : Bool) {k : Nat} {ks : List Nat} (h : s.romPairs = k :: ks) :
    s.romRun lost = ((s.modBoot fun b => { b with pair := k }).passStage (passCode lost) []).waitFetch := by
  unfold State.romRun
  rw [h]

theorem bootRom_eq {s : State} (good : Bool) (bad : List Nat) (runs : s.inStage 5 = true) (released : s.boot.perst = false) :
    exec (.bootRom good bad) s = .next (if good = false then s.failStage 0x0581
      else (s.pairsFailed (s.failingPairs bad)).romRun (decide (s.failingPairs bad ≠ []))) :=
  congrArg _ (if_neg (by rw [runs, released]; decide))

theorem waitFetch_spec (s : State) : s.waitFetch.boot.stage = s.boot.stage ∧ s.waitFetch.boot.st = .waiting ∧
    s.waitFetch.boot.pair = s.boot.pair ∧ s.waitFetch.field Reg.bootStage 63 48 = 0x0610 ∧
      ∀ k, s.waitFetch.pair k = s.pair k := by
  refine ⟨rfl, rfl, rfl, ?_, fun _ => rfl⟩
  unfold State.waitFetch State.setCode
  rw [State.field_setField_same _ _ _ _ _ (by decide) (by decide)]
  rfl

theorem bootRom_spec {s : State} (bad : List Nat) (runs : s.inStage 5 = true) (released : s.boot.perst = false) :
    let ok := s.romPairs.filter fun k => !bad.contains k
    (∃ t, exec (.bootRom false bad) s = .next t ∧ StageFails 0x0581 t) ∧
    (ok = [] → ∃ t, exec (.bootRom true bad) s = .next t ∧ StageFails 0x0582 t) ∧
    (∀ k ks, ok = k :: ks → ∃ t, exec (.bootRom true bad) s = .next t ∧ t.boot.stage = 6 ∧ t.boot.st = .waiting ∧
      t.boot.pair = k ∧ t.field Reg.bootStage 63 48 = 0x0610 ∧ ∀ j ∈ s.romPairs, j ∈ bad → (t.pair j).stopped = true) := by
  intro ok
  have remain : (s.pairsFailed (s.failingPairs bad)).romPairs = ok := romPairs_failed s bad
  refine ⟨⟨_, bootRom_eq false bad runs released, failStage_fails s (by decide)⟩, fun none_ => ?_, fun k ks some_ => ?_⟩
  · refine ⟨_, bootRom_eq true bad runs released, ?_⟩
    rw [if_neg (by decide), romRun_none _ (remain.trans none_)]
    exact failStage_fails _ (by decide)
  · refine ⟨_, bootRom_eq true bad runs released, ?_⟩
    rw [if_neg (by decide), romRun_some _ (remain.trans some_)]
    generalize hu : (s.pairsFailed (s.failingPairs bad)).modBoot (fun b => { b with pair := k }) = u
    have stage : u.boot.stage = 5 := by
      rw [← hu]
      exact (stage_pairsFailed s _).trans (inStage_stage runs)
    have pair : u.boot.pair = k := by
      rw [← hu]
      rfl
    obtain ⟨waits, waiting, runsRom, code, pairs⟩ :=
      waitFetch_spec (u.passStage (passCode (decide (s.failingPairs bad ≠ []))) [])
    refine ⟨waits.trans (passStage_over _ _ stage (by decide)).1, waiting, (runsRom.trans (bootPair_passStage ..)).trans pair, code,
      fun j hj listed => ?_⟩
    rw [pairs, (onlyPosted_passStage ..).pair, ← hu]
    exact stopped_pairsFailed s _ (.inl (List.mem_filter.2 ⟨hj, by simpa using listed⟩))

theorem bootRom_held {s : State} (held : s.boot.perst = true) (good : Bool) (bad : List Nat) : exec (.bootRom good bad) s = .next s :=
  congrArg _ (if_pos (.inr held))

/-- Settles O50: stage after stage, each command by what it does to its unit and by the end or the failure of its stage. -/
theorem bringUpStagesOneToFive : Obligations.BringUpStagesOneToFive := by
  unfold Obligations.BringUpStagesOneToFive
  intro s
  refine ⟨coldStart_spec, fun n good => ?_, fun b good => ?_, fun ref sync trim => ?_, fun un => rippleLock_spec un, fuseRead_spec,
    fun bad => bootRom_spec bad, fun held good bad => bootRom_held held good bad⟩
  · exact fun fed stage slot hn seg => rimSegPowerStep_spec fed stage slot hn seg
  · exact fun stage left slot => bayPowerStep_spec stage left slot
  · exact rootPllLock_spec ref sync trim

end Sys2Proof.Machine
end
